-- ==== Sys2Proof/Word.lean ====
section
/-! DEFINITION. The word types of the Perpex W25 (R16: every register is 64 bits wide) and their plainest arithmetic. -/

namespace Sys2Proof

/-- A register value or mailbox word (R16). -/
abbrev Word := BitVec 64

/-- The smallest addressable unit of device memory (R15). -/
abbrev Byte := BitVec 8

/-- ⌈a ÷ b⌉ for natural numbers. -/
def ceilDiv (a b : Nat) : Nat := (a + b - 1) / b

end Sys2Proof
end

