-- ==== Sys2Proof/Payload.lean ====
section
/-! DEFINITION. The operand types of the commands: packets, records, frames, and the parsed placement image. They are
plain data; each names the rule that lays it out. -/

namespace Sys2Proof

/-- A mesh packet (R286 header fields, R287 types) with its payload bytes. -/
structure Packet where
  (ty vc yx src dst chan tag len space offset circ : Nat)
  data : List Byte
  deriving DecidableEq, Repr

/-- Bits newly flipped in one stored ECC word: the key of the word and the mask over its stored bits (R122, R123). -/
structure Upset where
  (key mask : Nat)
  deriving DecidableEq, Repr

/-- A stall-wave item of a coupling block header (R326). -/
structure WaveItem where
  raise : Bool
  (cause spoke hops origin serial : Nat)
  deriving DecidableEq, Repr

/-- A coupling transaction: the header of R336 and its payload. -/
structure Tx where
  (ty vc flags srcMember dstMember dstEp srcEp space region push hops tag len offset coll part status : Nat)
  reservedZero : Bool
  data : List Byte
  deriving DecidableEq, Repr

/-- A coupling link flit (R325): seq, vc, kind, last, reserved bits zero, and its 252 protected bytes with the received check. -/
structure LinkFlit where
  (seq vc kind last : Nat)
  body : List Byte
  check : Nat
  deriving DecidableEq, Repr

/-- A coupling block as decoded by the RS code (R320, R321): whether both codewords decode, symbols corrected per logical lane, the 40-bit header (R326) and 5 flits. -/
structure CplBlock where
  decodes : Bool
  corrected : List Nat
  header : Nat
  flits : List LinkFlit
  deriving DecidableEq, Repr

/-- A channel 2 record: the bytes after its 4 B length (R246, R268, R392). -/
structure Submit where
  bytes : List Byte
  deriving DecidableEq, Repr

/-- A drafted tree (R238): slot, node count, parent word, drafted tokens of nodes 1 to N − 1. -/
structure Tree where
  (nodes parents : Nat)
  tokens : List Nat
  deriving DecidableEq, Repr

end Sys2Proof

namespace Sys2Proof.Machine

/-- Where a request stands (R245, R252, R269). `gone` requests have their end record and hold resources until the next boundary. -/
inductive Phase where
  | queued | tail | prefill | ready | parked | slot | ended | gone
  deriving DecidableEq, Repr

/-- One page set of a sequence in a layer group (R212, R215): state 1 resident, 2 streamed, 3 spilling. -/
structure KvSet where
  (p state res tow : Nat)
  /-- The prefix node it belongs to, when shared. -/
  node : Option Nat
  /-- Its tower write has completed (R224). -/
  written : Bool
  deriving DecidableEq, Repr

/-- A request: one entry of a ring (R245 to R254). -/
structure Req where
  (id ring tag tenant profile adapter promptLen maxNew seed flags : Nat)
  stop : List Nat
  prompt : List Nat
  phase : Phase
  /-- Ring slot (0 to 7), axle count of acceptance, first pool blocks, turn of admission (R252). -/
  (entry enqueued promptBlock genBlock admitted : Nat)
  /-- Tokens returned. -/
  gen : List Nat
  /-- Adapter generation handle, copy it is bound to, model half (R273, R278). -/
  (handle copy half : Nat)
  /-- Committed length (R208). -/
  n : Nat
  /-- Tokens prefilled or matched; tokens charged; first tick counted and boundaries counted in the queue (R197, R259). -/
  (pre charged entered waited : Nat)
  (carriage slot : Nat)
  live : Bool
  /-- Over budget in a tree carriage: the pass runs masked and then parks (R260). -/
  masked : Bool
  /-- The pass is deferred under R227. -/
  deferred : Bool
  /-- Sets in each layer group. -/
  sets : List (List KvSet)
  /-- Provisional positions carried into the pass, as nodes (R217, R242). -/
  carry : List Nat
  (epoch : Nat)
  /-- Turn in which the entry first waited in step 4 of admission (R254). -/
  waitFrom : Option Nat
  /-- Prefix nodes referenced. -/
  nodes : List Nat
  /-- The sequence was recovered (R430), and was declared lost in this turn. -/
  recovered : Bool
  lost : Bool
  /-- Dropped from the running round: results are not used (R200). -/
  dropped : Bool
  deriving DecidableEq, Repr

/-- A prefix node (R229). -/
structure Node where
  (id hash : Nat)
  parent : Option Nat
  tokens : List Nat
  refs : Nat
  (half handle lastMatch : Nat)
  tail : Bool
  /-- Tower slot of its shared set in each layer group. -/
  slots : List Nat
  /-- Removed once its count is 0 (R234). -/
  flushed : Bool
  /-- The request whose block the node was inserted for, and the block (R233). -/
  src : Nat × Nat
  deriving DecidableEq, Repr

/-- A prompt's chunk in a running round (R198): request, tokens, its progress at the round's start. -/
structure Chunk where
  (req take start : Nat)
  deriving DecidableEq, Repr

/-- A running prefill round (R196). -/
structure Round where
  turn : Nat
  batch : List Chunk
  deriving DecidableEq, Repr

/-- What a carriage holds beyond its sequences: speculation epoch, tree of the current pass and the drafted next one, half. -/
structure Car where
  epoch : Nat
  tree : Option Tree
  next : Option Tree
  half : Option Nat
  deriving DecidableEq, Repr

/-- What the sampling unit decided for a request in the running turn (R241, R263, R266): tokens, accepted nodes, end code. It
takes effect at the boundary (R421). -/
structure Pass where
  req : Nat
  (tokens nodes : List Nat)
  code : Option Nat
  deriving DecidableEq, Repr

end Sys2Proof.Machine

namespace Sys2Proof

/-- What the leader of a split set or pipeline chain decided for a boundary (R235, R346, R347): its requests, prefix nodes and
carriages as the boundary leaves them, and the round that then runs. Where a device keeps the sets is its own. -/
structure Decisions where
  reqs : List Machine.Req
  nodes : List Machine.Node
  cars : List (Nat × Machine.Car)
  round : Option Machine.Round
  deriving DecidableEq, Repr

/-- A turn message (R334): member, turn, step request, active wide request, and in a split set or pipeline chain the leader's
decisions and what the sampling unit decided (R235, R346, R347). -/
structure TurnMsg where
  (member turn step : Nat)
  wide : Bool
  decisions : Option Decisions
  passes : List Machine.Pass
  hops : Nat
  deriving DecidableEq, Repr

/-- FP32 logits of the output projection for one node of one lane slot (R263). -/
structure SlotLogits where
  (slot node : Nat)
  z : List (BitVec 32)
  deriving DecidableEq, Repr

/-- A control-port frame (R384): header fields, payload, and trailer. -/
structure Frame where
  (chan version kind keyPhase recStart resv len seq ack credit : Nat)
  payload : List Byte
  trailer : List Byte
  deriving DecidableEq, Repr

/-- A control-port frame as received, with the symbols that the RS(544,514) code corrected on the lanes since the frame before it,
and the codewords that it could not (R381, R410). -/
structure FrameIn where
  frame : Frame
  (fixed bad : Nat)
  deriving DecidableEq, Repr

/-- Why a repair copy or a reload escalates (R429, R433): logical coach × 256 + logical tile, or the tile of the reload; whether the
target fails, and otherwise a part exceeds its maximum. -/
structure CopyFailure where
  key : Nat
  fails : Bool
  deriving DecidableEq, Repr

/-- A tower channel that is failing (R433): its number, and whether a TWR_RFM event of it exceeded its maximum. -/
structure ChannelFailure where
  ch : Nat
  overrun : Bool
  deriving DecidableEq, Repr

/-- Samplings of a hot spot in the last hour that no SENSOR_SAMPLE told (R472, R487): the hot spot, how many they are, and the sum
of their governing readings, each plus 4,096. -/
structure HourPart where
  (spot count sum : Nat)
  deriving DecidableEq, Repr

/-- A scheduled action of R365. -/
structure SchedAction where
  (offset kind chan zero operand : Nat)
  deriving DecidableEq, Repr

/-- The action list of one logical tile. -/
structure ActList where
  (lc lt : Nat)
  acts : List SchedAction
  deriving DecidableEq, Repr

/-- A schedule section (R365). -/
structure Sched where
  (turnLen playMin workEnd diameter holdLead roundTurns roundEnergy : Nat)
  resvZero : Bool
  firstArray : List (Nat × Nat)
  lists : List ActList
  deriving DecidableEq, Repr

/-- A transfer-table entry (R366). -/
structure Transfer where
  (leave deadline srcC srcT dstC dstT vc flags flits dstOff bytes : Nat)
  deriving DecidableEq, Repr

/-- A section-table entry (R352) with the CRC-32C of the section's bytes as received. -/
structure SectEntry where
  (ty inst flags offset length crc resv dataCrc : Nat)
  deriving DecidableEq, Repr

/-- The header of a .pxi file (R351). -/
structure ImgHeader where
  (magic version grade flags part stepping logicalCoaches minGood draftCoaches sections generation build imageBytes : Nat)
  resvZero : Bool
  deriving DecidableEq, Repr

/-- A logical tile and its nominal site (R358). -/
structure PlTile where
  (lc lt site : Nat)
  deriving DecidableEq, Repr

/-- A relocation entry: logical tile and physical place (R363). -/
structure Placed where
  (lc lt place site : Nat)
  deriving DecidableEq, Repr

/-- A multicast tree or barrier of the routes section (R302, R306, R361): number, virtual channel, source or root, members. -/
structure TreeDecl where
  (num vc lc lt : Nat)
  members : List (Nat × Nat)
  deriving DecidableEq, Repr

/-- An entry of the coupling table (R580). -/
structure CplRow where
  (used member peer zero : Nat)
  deriving DecidableEq, Repr

/-- Regions, circular configurations and bank map of a logical tile (section 0x06). -/
structure TileRegs where
  (lc lt bankMap : Nat)
  regions : List (Nat × Word)
  circ : List (Nat × Word)
  deriving DecidableEq, Repr

/-- A tower or coach-table region (R368). -/
structure SpaceRegion where
  (space place perm base limit : Nat)
  deriving DecidableEq, Repr

/-- A format table entry (R161). -/
structure Fmt where
  (wfmt caps satScale recipe limit threshold window rows cols tPrimary tAlt : Nat)
  deriving DecidableEq, Repr

/-- A tap entry (R369). -/
structure Tap where
  (layer mLc mLt aLc aLt oLc oLt weightOff actOff outOff input0 row0 writeOff releaseOff set : Nat)
  deriving DecidableEq, Repr

/-- A coach record of the current plan (R456). -/
structure CoachRec where
  (lc curve stagger iPeak neigh rush : Nat)
  deriving DecidableEq, Repr

/-- The power section (R456): curves hold 48 values, for steps 48 to 95. -/
structure PowerSec where
  (budget pPre rush bayCurve bayPeak : Nat)
  curves : List (List Nat)
  recs : List CoachRec
  deriving DecidableEq, Repr

/-- The thermal section (R480): slope limit, resume, and two curves of (threshold, step); temperatures in quarter degrees. -/
structure ThermalSec where
  slope : Nat
  resume : Int
  (normal lowFlow : List (Int × Nat))
  deriving DecidableEq, Repr

/-- Attention heads of one layer (R206): σ is the FP32 pattern. -/
structure Head where
  (nq nkv dh sigma : Nat)
  deriving DecidableEq, Repr

/-- A head group of a layer group (R206, R212): the attention layer, its KV head, the KV tile, and the scratchpad offsets of its
pool, of its staging area and, for each tree carriage, of its two provisional areas (R240). -/
structure KvPage where
  (layer head tile pool staging : Nat)
  prov : List (Nat × Nat)
  deriving DecidableEq, Repr

/-- KV layout of one layer group (R212): table bases give, per lane slot, the table tile and offset; pages give the head groups in
the order of the pool. -/
structure KvGroup where
  (pool window staging towerSlots towerBase : Nat)
  tables : List (Nat × Nat)
  pages : List KvPage
  deriving DecidableEq, Repr

/-- A weight descriptor (R367) and its payload: bytes as stored, or MX source blocks as (kind, scale X, 32 codes). -/
structure WDesc where
  (payload kind flags place tile layer dest bytes crc shadow dataCrc : Nat)
  data : List Byte
  mx : List (Nat × Nat × List Nat)
  deriving DecidableEq, Repr

/-- A draft model (R236, section 0x10): the reserve coaches it needs, its largest tree depth, and its placement, action lists and
weight descriptors in draft coaches; `shadow` of a descriptor is its index in the draft's own list. -/
structure Draft where
  (coaches depth : Nat)
  tiles : List PlTile
  lists : List ActList
  weights : List WDesc
  deriving DecidableEq, Repr

/-- A collective (R343): kind 0 all-gather, 1 all-reduce. -/
structure CollDecl where
  (num kind size tile gather result region : Nat)
  members : List Nat
  deriving DecidableEq, Repr

/-- A group barrier's place in the device tree (R340): the coupling toward the parent device, none at the top, and those
toward the child devices. -/
structure GBar where
  num : Nat
  parent : Option Nat
  children : List Nat
  deriving DecidableEq, Repr

/-- Turn group of the collectives section (R580, R353): `trees` gives the couplings of each device tree at this device (R341),
`down` those on which section writes are passed on (R342). -/
structure Group where
  (member size : Nat)
  /-- The group is a split set (R235), or a pipeline chain (R347); its leader, and the member that samples. -/
  (split chain : Bool)
  (leader sampler : Nat)
  trees : List (Nat × List Nat)
  bars : List GBar
  down : List Nat
  colls : List CollDecl
  deriving DecidableEq, Repr

/-- The signature section (R524). -/
structure Sig where
  (version signer slot : Nat)
  resvZero : Bool
  (keyId digest sig key : List Byte)
  deriving DecidableEq, Repr

/-- A placement image, parsed section by section (R350 to R369); parseErr names the file byte at which parsing as the given structure fails, if any. -/
structure Image where
  parseErr : Option Nat
  header : ImgHeader
  sects : List SectEntry
  digest : List Byte
  coachOrder : List Nat
  tiles : List PlTile
  groupTiles : List (Nat × Nat × Nat)
  yxOrder : List (Nat × Nat)
  trees : List TreeDecl
  barriers : List TreeDecl
  windows : List (Nat × Nat × Word)
  relay : List (Nat × Nat)
  cplTable : List CplRow
  (transfers wideTransfers : List Transfer)
  sched : Sched
  wide : Option Sched
  tileRegs : List TileRegs
  spaceRegs : List SpaceRegion
  formats : List Fmt
  taps : List Tap
  power : PowerSec
  thermal : ThermalSec
  sampler : List Word
  (depth treeCars cmax vocab adapters footprint bcap batchMin : Nat)
  heads : List Head
  kv : List KvGroup
  weights : List WDesc
  drafts : List Draft
  group : Option Group
  seeds : List (Nat × Nat × Word)
  mcastLimit : Nat
  reloc : List Placed
  sig : Sig
  deriving DecidableEq, Repr

/-- What the sensors of the wafer report at a turn boundary: rails whose timing monitors ask a trim step up or down (R450), and the largest current in A that each coach drew in a spoke of the ending turn (R462). -/
structure BoundaryEnv where
  trims : List (Nat × Bool)
  drew : List (Nat × Nat)
  deriving DecidableEq, Repr

/-- What a rail returns on the rail bus (R447): bus, the 40-bit request and the 40-bit response. -/
structure Resp where
  (req rsp : Nat)
  deriving DecidableEq, Repr

/-- A port of a scratchpad (R106), coded as `port` of TILE_TRAP. -/
inductive Port where
  | engine | vector | cart | network | fillCopy | sequencer
  deriving DecidableEq, Repr

/-- What one program step of a tile program does in one stage of the data path. The program code itself is `ixc`'s (R353);
its steps are sequences of these operations, each with the meaning its rule gives. -/
inductive ProgOp where
  /-- A read of `len` bytes at `off` by the engine or vector port (R106, R118, R125). -/
  | read (port : Port) (off len : Nat)
  /-- A write through the engine or vector port (R106, R109, R118). -/
  | write (port : Port) (off : Nat) (data : List Byte)
  /-- A ring access (R114): region, relative to the tail or the head, slot index, byte within the slot. -/
  | ringRead (port : Port) (c : Nat) (tail : Bool) (i b len : Nat)
  | ringWrite (port : Port) (c : Nat) (tail : Bool) (i b : Nat) (data : List Byte)
  /-- A push or pop of n slots by the engine or vector port (R114, R117). -/
  | push (port : Port) (c n : Nat)
  | pop (port : Port) (c n : Nat)
  /-- Fill of the input store from engine-port bank groups, entry `entry` onward (R180). -/
  | fillInput (off entry count : Nat)
  /-- One row group: weight lines from `line`, into accumulator set `set` (R178, R179, R146 to R148). -/
  | rowGroup (set line lines layer entry : Nat)
  /-- Drain of an accumulator set for a carriage and sweep (R181 to R183, R149). -/
  | drain (set out layer row0 carriage sweep : Nat)
  /-- A8 conversion of `count` BF16 values (R143). -/
  | toA8 (layer src dst count : Nat)
  /-- Residual-stream add of BF16 r and FP32 x with stream 1 (R152). -/
  | residual (r x dst count : Nat)
  /-- KV entry write (R220): page x of group g, node of lane slot j; `src` holds the FP32 values, K before V. -/
  | kvWrite (g x j node src : Nat)
  /-- One query head of the attention walker (R209): page x of group g, node of lane slot j, the query and the output. -/
  | walk (g x j node q out : Nat)
  /-- The carried entries of lane slot j go to the resident set (R242). -/
  | copyIn (g x j : Nat)
  /-- The prefill engine's entry write for position `pos` of the prompt of a ring in the running round (R199). -/
  | kvPrefill (g x ring pos src : Nat)
  /-- The prefill engine's attention of one query head of the token at `pos` (R210). -/
  | walkPrefill (g x ring pos q out : Nat)
  /-- Panel store fill from the bay's tower (R192). -/
  | panelLoad (store towerOff words : Nat)
  /-- One prompt token through the panel held in a panel store (R191, R142). -/
  | panelMul (store layer src token : Nat)
  /-- Drain of a token's accumulators of a P-tile to the scratchpad (R191, R149). -/
  | panelDrain (token layer row0 out : Nat)
  /-- A VC1 injection; `free` tells whether a buffer of its class is free (R372). -/
  | inject (pkt : Packet) (free : Bool)
  deriving DecidableEq, Repr

/-- The requester of a clock request (R491). -/
inductive Requester where
  | device | host
  deriving DecidableEq, Repr

/-- What a start-up step finds (R538): channels of towers that fail training, tiles that fail built-in self-test, and hitch wires
that fail their pattern test as (tile, port, wire group). -/
structure StartEnv where
  channels : List (Nat × Nat)
  tiles : List Nat
  wires : List (Nat × Nat × Nat)
  deriving DecidableEq, Repr

/-- Why a spoke is inserted at a boundary (R87). -/
inductive InsertKind where
  | hitchSub | freqStep
  deriving DecidableEq, Repr

end Sys2Proof
end

