-- ==== Sys2Proof/Syntax.lean ====
section
/-! DEFINITION. The commands of the block, one constructor per row of spec/opcode_table.json. The first operand `dt` of every
command is the number of axle ticks since the command before it (DESIGN CHOICE, log entry 1). -/

namespace Sys2Proof

/-- A command or event of the Perpex W25. -/
inductive Instr where
  /-- AXLE_LOCK_ACQUIRED, R61. -/
  | axleLockAcquired (dt : Nat)
  /-- AXLE_HOLDOVER_ENTRY, R61. -/
  | axleHoldoverEntry (dt : Nat)
  /-- AXLE_REF_MISALIGNED_EDGE, R61. -/
  | axleRefMisalignedEdge (dt : Nat)
  /-- AXLE_REF_RETURN, R62. -/
  | axleRefReturn (dt : Nat)
  /-- AXLE_LOCK_TIMEOUT, R539. -/
  | axleLockTimeout (dt : Nat)
  /-- INDEX, R65. -/
  | index (dt : Nat)
  /-- ARM, R64. -/
  | arm (dt : Nat) (cmd : Nat)
  /-- DISARM, R64. -/
  | disarm (dt : Nat) (cmd : Nat)
  /-- ARM_TAKES_EFFECT, R64. -/
  | armTakesEffect (dt : Nat)
  /-- TURN_0_START, R76. `drew`: the largest current, in A, that each coach drew in a spoke since the last boundary (R462). -/
  | turn0Start (dt : Nat) (drew : List (Nat × Nat))
  /-- TURN_BOUNDARY, R85. -/
  | turnBoundary (dt : Nat) (env : BoundaryEnv)
  /-- INSERTED_SPOKE, R87. -/
  | insertedSpoke (dt : Nat)
  /-- WORK_END_REACHED, R85. -/
  | workEndReached (dt : Nat)
  /-- ACTION_PROGRAM_STEP, R365. Action `i` of the list of tile `n`; the operations of its step, and bits that flip before it. -/
  | actionProgramStep (dt : Nat) (n i : Nat) (ops : List ProgOp) (ups : List Upset)
  /-- ACTION_CART_ISSUE, R309. -/
  | actionCartIssue (dt : Nat) (n i : Nat)
  /-- ACTION_BARRIER_ARRIVE, R303. -/
  | actionBarrierArrive (dt : Nat) (n i : Nat)
  /-- ACTION_PUSH, R116. Action `i` of the list of tile `n`. -/
  | actionPush (dt : Nat) (n i : Nat)
  /-- ACTION_POP, R116. -/
  | actionPop (dt : Nat) (n i : Nat)
  /-- ACTION_FILL, R111. -/
  | actionFill (dt : Nat) (n i : Nat)
  /-- ACTION_COPY, R111. -/
  | actionCopy (dt : Nat) (n i : Nat)
  /-- FILL_COPY_COMPLETE, R112. Channel `ch` of tile `n`; 8 for the sequencer. -/
  | fillCopyComplete (dt : Nat) (n ch : Nat)
  /-- ARRIVAL_DEADLINE_MISSED, R86. Source coordinate of the unit; kind 0 tower refresh, 1 coupling `via`, 2 KV page, 3 VC2 or VC3 delivery. -/
  | arrivalDeadlineMissed (dt : Nat) (unit kind : Nat) (retried : Bool) (via : Option Nat)
  /-- HOLD_DATA_COMPLETE, R86. Number of the device's hold. -/
  | holdDataComplete (dt : Nat) (id : Nat)
  /-- HOLD_IN_FORCE, R83. -/
  | holdInForce (dt : Nat)
  /-- HOLD_FORCE_END, R83. -/
  | holdForceEnd (dt : Nat)
  /-- STALL_WAVE_ITEM, R333. -/
  | stallWaveItem (dt : Nat) (k : Nat) (w : WaveItem)
  /-- SCRUB_CHUNK, R127. By the engine of tile `n`. -/
  | scrubChunk (dt : Nat) (n : Nat) (ups : List Upset)
  /-- WS_MANAGEMENT_READ, R103. Roof word `w` of tile `n`. -/
  | wsManagementRead (dt : Nat) (cmd n w : Nat)
  /-- WS_MANAGEMENT_WRITE, R103. Roof word `w` of tile `n`, its main part as 8 words. -/
  | wsManagementWrite (dt : Nat) (cmd n w : Nat) (ws : List Nat)
  /-- WAITING_PUSH_APPLIED, R117. Region `c` of tile `n`. -/
  | waitingPushApplied (dt : Nat) (n c : Nat)
  /-- MESH_WRITE, R287. `same`: the write falls into the CORE cycle of the last scheduled action. -/
  | meshWrite (dt : Nat) (p : Packet) (same : Bool)
  /-- MESH_READ_REQUEST, R287. -/
  | meshReadRequest (dt : Nat) (p : Packet)
  /-- MESH_READ_RESPONSE, R287. -/
  | meshReadResponse (dt : Nat) (p : Packet)
  /-- MESH_WRITE_ACK, R313. -/
  | meshWriteAck (dt : Nat) (p : Packet)
  /-- MESH_ERROR_RESPONSE, R314. -/
  | meshErrorResponse (dt : Nat) (p : Packet)
  /-- MULTICAST_WRITE, R306. Tree `t` at router `n`, from input port `port` (4: the tile itself). -/
  | multicastWrite (dt : Nat) (n port t : Nat) (same : Bool)
  /-- CIRCULAR_PUSH, R313. -/
  | circularPush (dt : Nat) (p : Packet)
  /-- BARRIER_ARRIVE_FLIT, R303. Barrier `b` at router `n`. -/
  | barrierArriveFlit (dt : Nat) (n port b : Nat)
  /-- BARRIER_RELEASE_FLIT, R303. -/
  | barrierReleaseFlit (dt : Nat) (n port b : Nat)
  /-- MANAGEMENT_REQUEST, R287. -/
  | managementRequest (dt : Nat) (p : Packet)
  /-- MANAGEMENT_RESPONSE, R287. -/
  | managementResponse (dt : Nat) (p : Packet)
  /-- EVENT_RECORD_PACKET, R287. `i` is the position of the event among those on their way. -/
  | eventRecordPacket (dt : Nat) (i : Nat)
  /-- FLIT_RECEIVE, R290. On the link into port `port` of tile `n`: the flit as sent, and the bits that changed on the way. -/
  | flitReceive (dt : Nat) (n port sent flips : Nat)
  /-- LINK_NACK, R290. Of the link into port `port` of tile `n`. -/
  | linkNack (dt : Nat) (n port : Nat)
  /-- PATTERN_TEST_COMPLETE, R291. `bad`: the wire group of each failing wire. -/
  | patternTestComplete (dt : Nat) (n port : Nat) (bad : List Nat)
  /-- MCAST_HOLD, R308. Tile, tree, output port waited for. -/
  | mcastHold (dt : Nat) (n t port : Nat)
  /-- NET_STALL, R375. -/
  | netStall (dt : Nat) (n t : Nat)
  /-- CART_ISSUE_WRITE, R309. Tile, channel, and the offset of the descriptor. -/
  | cartIssueWrite (dt : Nat) (cmd n ch off : Nat)
  /-- CART_DESCRIPTOR_START, R311. `free`: a buffer of the class is free for a VC1 injection. -/
  | cartDescriptorStart (dt : Nat) (n ch : Nat) (free : Bool)
  /-- CART_DESCRIPTOR_COMPLETE, R313. -/
  | cartDescriptorComplete (dt : Nat) (n ch : Nat)
  /-- HEARTBEAT_MISSING, R416. Of tile `n`. -/
  | heartbeatMissing (dt : Nat) (n : Nat)
  /-- RERUN_POINT, R419. -/
  | rerunPoint (dt : Nat)
  /-- REPAIR_COPY_PART_COMPLETE, R426. Logical coach × 256 + logical tile. -/
  | repairCopyPartComplete (dt : Nat) (key : Nat)
  /-- REPAIR_COPY_ESCALATE, R429. -/
  | repairCopyEscalate (dt : Nat) (key : CopyFailure)
  /-- REFILL_COMPLETE, R427. Scratchpad offsets and the bytes that arrive there. -/
  | refillComplete (dt : Nat) (key : Nat) (l : List (Nat × List Byte))
  /-- ADVANCE_COPY_COMPLETE, R428. -/
  | advanceCopyComplete (dt : Nat)
  /-- TOWER_CHANNEL_FAILING, R433. -/
  | towerChannelFailing (dt : Nat) (t : Nat) (ch : ChannelFailure)
  /-- CHANNEL_RESTORE_COMPLETE, R433. `bad`: tower offsets of the words that could not be read. -/
  | channelRestoreComplete (dt : Nat) (t ch : Nat) (bad : List Nat)
  /-- WATCHDOG_EXPIRY, R439. Of guard `g`. -/
  | watchdogExpiry (dt : Nat) (g : Nat)
  /-- GUARD_REPORTS_RUNNING, R439. -/
  | guardReportsRunning (dt : Nat) (g : Nat)
  /-- ADMISSION, R253. The ring whose entry is tried. -/
  | admission (dt : Nat) (ring : Nat)
  /-- TAIL_COPY_COMPLETE, R232. The request whose tail page copies have finished. -/
  | tailCopyComplete (dt : Nat) (id : Nat)
  /-- SUBMIT, R248. The record's bytes. -/
  | submit (dt : Nat) (b : List Byte)
  /-- CANCEL, R269. The record's bytes. -/
  | cancel (dt : Nat) (b : List Byte)
  /-- TOKEN_SAMPLING, R263. Logits of the pass, and the next drafted tree. -/
  | tokenSampling (dt : Nat) (logits : List SlotLogits) (tree : Option Tree)
  /-- KV_PREFETCH, R225. Layer group, and how many passes ahead. -/
  | kvPrefetch (dt : Nat) (g ahead : Nat)
  /-- SPILL_WRITE_COMPLETE, R224. Request, layer group and set. -/
  | spillWriteComplete (dt : Nat) (id g p : Nat)
  /-- SHADOW_COPY_COMPLETE, R171. Of the sample of physical coach `c`. -/
  | shadowCopyComplete (dt : Nat) (c : Nat)
  /-- SHADOW_SAMPLE_MISSED, R171. Of the sample of physical coach `c`. -/
  | shadowSampleMissed (dt : Nat) (c : Nat)
  /-- SHADOW_COMPARE_COMPLETE, R174. Of the sample of physical coach `c`. -/
  | shadowCompareComplete (dt : Nat) (c : Nat)
  /-- FORMAT_RECIPE_WRITE, R163. For the layer that HEAD_FMT_INDEX selects. -/
  | formatRecipeWrite (dt : Nat) (cmd v : Nat)
  /-- WIDE_REQ_WRITE, R167. -/
  | wideReqWrite (dt : Nat) (cmd v : Nat)
  /-- SWAP_HOLD_WRITE, R81. -/
  | swapHoldWrite (dt : Nat) (cmd v : Nat)
  /-- SHADOW_ENABLE_WRITE, R177. -/
  | shadowEnableWrite (dt : Nat) (cmd v : Nat)
  /-- SAMP_PROFILE_WRITE, R262. For the profile that HEAD_SAMP_INDEX selects. -/
  | sampProfileWrite (dt : Nat) (cmd v : Nat)
  /-- ADAPTER_PTR_WRITE, R274. For the slot that HEAD_ADAPTER_INDEX selects. -/
  | adapterPtrWrite (dt : Nat) (cmd v : Nat)
  /-- MODEL_PTR_WRITE, R277. -/
  | modelPtrWrite (dt : Nat) (cmd v : Nat)
  /-- COACH_ON_WRITE, R461. -/
  | coachOnWrite (dt : Nat) (cmd v : Nat)
  /-- STEP_CAP_WRITE, R460. The whole value of PWR_GOV. -/
  | stepCapWrite (dt : Nat) (cmd v : Nat)
  /-- PREFIX_FLUSH, R234. -/
  | prefixFlush (dt : Nat) (cmd : Nat)
  /-- HAZARD_CLEAR, R378. Of tile `n`. -/
  | hazardClear (dt : Nat) (cmd n : Nat)
  /-- COACH_RESET_REQUEST, R548. -/
  | coachResetRequest (dt : Nat) (cmd c : Nat)
  /-- COACH_RESET_DONE, R549. Physical coach. -/
  | coachResetDone (dt : Nat) (c : Nat)
  /-- ATB_SELECT, R574. Register `n`. -/
  | atbSelect (dt : Nat) (cmd n v : Nat)
  /-- ATB_CONNECT, R574. Of pin `n`. -/
  | atbConnect (dt : Nat) (n : Nat)
  /-- CLK_GATE, R494. A device request names domain `d` and instance `i`; a host request is a write, on the domain that CLK_DOM_INDEX selects. -/
  | clkGate (dt : Nat) (who : Requester) (cmd d i : Nat)
  /-- CLK_UNGATE, R494. -/
  | clkUngate (dt : Nat) (who : Requester) (cmd d i : Nat)
  /-- CLK_SWITCH, R495. -/
  | clkSwitch (dt : Nat) (who : Requester) (cmd d : Nat) (seco : Bool)
  /-- PLL_READY, R493. The PLL's first domain and its instance. -/
  | pllReady (dt : Nat) (d i : Nat)
  /-- PLL_LOCK_LOST, R493. The PLL's first domain and its instance. -/
  | pllLockLost (dt : Nat) (d i : Nat)
  /-- CLOCK_SOURCE_LOST, R496. Domain 1 or 17. -/
  | clockSourceLost (dt : Nat) (d : Nat)
  /-- OSC_DELAY_EXPIRY, R497. -/
  | oscDelayExpiry (dt : Nat)
  /-- REFCLK_MEASUREMENT, R498. -/
  | refclkMeasurement (dt : Nat) (khz : Nat)
  /-- REFCLK_FAIL, R498. -/
  | refclkFail (dt : Nat)
  /-- EVENT_ARRIVAL, R500. `i` is the position of the event among those on their way. -/
  | eventArrival (dt : Nat) (i : Nat)
  /-- EVENT_SELECT, R502. For guard `g`. -/
  | eventSelect (dt : Nat) (g : Nat)
  /-- EVENT_DELIVER, R502. To guard `g`. -/
  | eventDeliver (dt : Nat) (g : Nat)
  /-- GUARD_END_OF_SERVICE, R502. By guard `g`. -/
  | guardEndOfService (dt : Nat) (g : Nat)
  /-- EVENT_RECORD_EMIT, R95. -/
  | eventRecordEmit (dt : Nat)
  /-- TELEMETRY_PERIOD, R404. -/
  | telemetryPeriod (dt : Nat)
  /-- PROGRESS_RECORD, R403. -/
  | progressRecord (dt : Nat)
  /-- STREAM_ROOM_RETURNS, R403. -/
  | streamRoomReturns (dt : Nat)
  /-- READ, R396. Operands of a command: its cmd_id, then its parameters. -/
  | read (dt : Nat) (cmd a : Nat)
  /-- WRITE, R396. -/
  | write (dt : Nat) (cmd a v : Nat)
  /-- READ_BLOCK, R397. -/
  | readBlock (dt : Nat) (cmd a n : Nat)
  /-- WRITE_BLOCK, R397. -/
  | writeBlock (dt : Nat) (cmd a : Nat) (ws : List Nat)
  /-- IMAGE_START, R398. -/
  | imageStart (dt : Nat) (cmd count : Nat)
  /-- IMAGE_STOP, R398. -/
  | imageStop (dt : Nat) (cmd : Nat)
  /-- SESSION_CLOSE, R389. -/
  | sessionClose (dt : Nat) (cmd : Nat)
  /-- RAW, R348. Coupling, raw channel, address, value, write flag. -/
  | raw (dt : Nat) (cmd k chan a v : Nat) (wr : Bool)
  /-- IMAGE_LOAD, R370. `source`: 0 channel 5, 1 the staged image, 2 a peer device; `i` is the file of sources 0 and 2. -/
  | imageLoad (dt : Nat) (cmd source : Nat) (bcast : Bool) (i : Image)
  /-- MODEL_STAGE, R277. `i` holds the weight sections that channel 5 brings. -/
  | modelStage (dt : Nat) (cmd : Nat) (i : Image)
  /-- DRAIN_RELOAD, R279. The drain limit, in turns. -/
  | drainReload (dt : Nat) (cmd limit : Nat)
  /-- ADAPTER_LOAD, R272. Slot `a`; `ws` holds the roof words of each logical coach's footprint. -/
  | adapterLoad (dt : Nat) (cmd a : Nat) (ws : List Nat)
  /-- TOWER_STAGE, R399. `i` is the image that channel 5 brings. -/
  | towerStage (dt : Nat) (cmd : Nat) (i : Image)
  /-- ATTEST, R527. -/
  | attest (dt : Nat) (cmd : Nat) (nonce : List Byte)
  /-- ZEROISE, R532. -/
  | zeroise (dt : Nat) (cmd scope : Nat)
  /-- COACH_REPAIR, R441. Physical coach. -/
  | coachRepair (dt : Nat) (cmd c : Nat)
  /-- COUPLING_TRAIN, R322. The couplings, by bit. -/
  | couplingTrain (dt : Nat) (cmd mask : Nat)
  /-- DEFECT_CLEAR, R442. -/
  | defectClear (dt : Nat) (cmd kind place : Nat)
  /-- WARM_RESET, R547. -/
  | warmReset (dt : Nat) (cmd : Nat)
  /-- LONG_COMMAND_TIMEOUT, R399. -/
  | longCommandTimeout (dt : Nat)
  /-- BULK_DATA_TIMEOUT, R399. -/
  | bulkDataTimeout (dt : Nat)
  /-- BULK_FRAME, R400. -/
  | bulkFrame (dt : Nat)
  /-- DATA_FRAME, R387. -/
  | dataFrame (dt : Nat) (f : FrameIn)
  /-- LINK_CONTROL_FRAME, R387. -/
  | linkControlFrame (dt : Nat) (f : FrameIn)
  /-- RESEND_TIMEOUT, R387. The channel whose `ack` has not advanced. -/
  | resendTimeout (dt : Nat) (c : Nat)
  /-- CONTROL_LINK_DOWN, R383. Mask of the lanes that still hold block lock. -/
  | controlLinkDown (dt : Nat) (lanes : Nat)
  /-- CONTROL_LINK_UP, R383. -/
  | controlLinkUp (dt : Nat)
  /-- HANDSHAKE_H1, R516. The message as received. -/
  | handshakeH1 (dt : Nat) (m : List Byte)
  /-- HANDSHAKE_H2, R517. The message as received. -/
  | handshakeH2 (dt : Nat) (m : List Byte)
  /-- HANDSHAKE_TIMEOUT, R518. -/
  | handshakeTimeout (dt : Nat)
  /-- KEY_PHASE_ADVANCE, R520. -/
  | keyPhaseAdvance (dt : Nat)
  /-- MBX_SEND, R406. By the host through channel 1 (end A of `m`, identifier `ident`), or by the guard at end `e`; `v` is the word. -/
  | mbxSend (dt : Nat) (host : Bool) (m e ident v : Nat)
  /-- MBX_RECV, R406. Operands as MBX_SEND. -/
  | mbxRecv (dt : Nat) (host : Bool) (m e ident : Nat)
  /-- MBX_RING, R408. `v` holds the bits. -/
  | mbxRing (dt : Nat) (host : Bool) (m e ident v : Nat)
  /-- MBX_STATUS_READ, R409. -/
  | mbxStatusRead (dt : Nat) (host : Bool) (m e ident : Nat)
  /-- MBX_BELL_CLEAR, R409. -/
  | mbxBellClear (dt : Nat) (host : Bool) (m e ident v : Nat)
  /-- MBX_MASK_WRITE, R408. -/
  | mbxMaskWrite (dt : Nat) (host : Bool) (m e ident v : Nat)
  /-- MBX_CTRL_WRITE, R410. -/
  | mbxCtrlWrite (dt : Nat) (host : Bool) (m e ident v : Nat)
  /-- MBX_TIMEOUT, R407. The timer of the direction out of end `e` of mailbox `m`. -/
  | mbxTimeout (dt : Nat) (m e : Nat)
  /-- COUPLING_BLOCK_RECEIVE, R321. On coupling `k`. -/
  | couplingBlockReceive (dt : Nat) (k : Nat) (b : CplBlock)
  /-- COUPLING_REPLAY, R327. -/
  | couplingReplay (dt : Nat) (k : Nat)
  /-- COUPLING_TRAINING_END, R322. `good`: the physical lanes that passed, by bit. -/
  | couplingTrainingEnd (dt : Nat) (k good peerCpl peerMember : Nat)
  /-- MEMBER_NUMBER_FLIT, R323. -/
  | memberNumberFlit (dt : Nat) (k m : Nat)
  /-- LANE_MIRROR_REQUEST, R324. -/
  | laneMirrorRequest (dt : Nat) (k lane : Nat)
  /-- LANE_SWITCH_REQUEST, R324. Received in block `block` of the peer's count. -/
  | laneSwitchRequest (dt : Nat) (k block : Nat)
  /-- LANE_SWITCH, R324. -/
  | laneSwitch (dt : Nat) (k : Nat)
  /-- REMOTE_WRITE, R338. On coupling `k`. -/
  | remoteWrite (dt : Nat) (k : Nat) (x : Tx)
  /-- MULTICAST_WRITE_TX, R341. -/
  | multicastWriteTx (dt : Nat) (k : Nat) (x : Tx)
  /-- WRITE_ACK_TX, R338. -/
  | writeAckTx (dt : Nat) (k : Nat) (x : Tx)
  /-- ERROR_RESPONSE_TX, R338. -/
  | errorResponseTx (dt : Nat) (k : Nat) (x : Tx)
  /-- BARRIER_ARRIVE_TX, R340. -/
  | barrierArriveTx (dt : Nat) (k : Nat) (x : Tx)
  /-- BARRIER_RELEASE_TX, R340. -/
  | barrierReleaseTx (dt : Nat) (k : Nat) (x : Tx)
  /-- COLLECTIVE_CONTRIBUTION, R344. `k` is 24 for the device's own contribution. -/
  | collectiveContribution (dt : Nat) (k : Nat) (x : Tx)
  /-- COLLECTIVE_COMPLETE, R344. Collective `c`. -/
  | collectiveComplete (dt : Nat) (c : Nat)
  /-- REDUCE_COMPLETE, R344. -/
  | reduceComplete (dt : Nat) (c : Nat)
  /-- TURN_MESSAGE, R334. -/
  | turnMessage (dt : Nat) (k : Nat) (m : TurnMsg)
  /-- RAW_REQUEST, R348. On coupling `k`. -/
  | rawRequest (dt : Nat) (k : Nat) (x : Tx)
  /-- RAW_RESPONSE, R348. -/
  | rawResponse (dt : Nat) (k : Nat) (x : Tx)
  /-- SECTION_WRITE, R342. -/
  | sectionWrite (dt : Nat) (k : Nat) (x : Tx)
  /-- RAIL_BUS_RESPONSE, R448. The request answered and its response. -/
  | railBusResponse (dt : Nat) (r : Resp)
  /-- RAIL_ALERT, R448. Of rail bus `bus`. -/
  | railAlert (dt : Nat) (bus : Nat)
  /-- RAIL_STATUS_POLL, R448. Of rail address `rail`. -/
  | railStatusPoll (dt : Nat) (rail : Nat)
  /-- SET_POINT_SETTLED, R449. -/
  | setPointSettled (dt : Nat)
  /-- POWER_DROOP, R455. Domain, and its sample in mV. -/
  | powerDroop (dt : Nat) (d mv : Nat)
  /-- SUPPLY_SHORT, R468. Of rail address `rail`. -/
  | supplyShort (dt : Nat) (rail : Nat)
  /-- POWER_LIMIT_EXCEEDED, R459. Average power over the last 64 spokes. -/
  | powerLimitExceeded (dt : Nat) (watts : Nat)
  /-- POWER_HOLD_RELEASE, R459. Average power over the last 64 spokes. -/
  | powerHoldRelease (dt : Nat) (watts : Nat)
  /-- POWER_ON_STAGE_ADVANCE, R463. Coach. -/
  | powerOnStageAdvance (dt : Nat) (c : Nat)
  /-- POWER_ON_FAIL, R464. Coach. -/
  | powerOnFail (dt : Nat) (c : Nat)
  /-- COACH_TILES_RESET_DONE, R463. Coach. -/
  | coachTilesResetDone (dt : Nat) (c : Nat)
  /-- IDLE_BOUNDARY, R581. The largest current that each coach drew since the last boundary, in A (R462). -/
  | idleBoundary (dt : Nat) (drew : List (Nat × Nat))
  /-- SENSOR_SAMPLE, R472. Answers: sensor and 12-bit reading. -/
  | sensorSample (dt : Nat) (l : List (Nat × Nat))
  /-- SENSOR_SKEW, R475. Hot spot 2 × coach + number. -/
  | sensorSkew (dt : Nat) (h : Nat)
  /-- REFERENCE_UPDATE, R476. -/
  | referenceUpdate (dt : Nat)
  /-- COOL_STAT_FRAME, R477. The 40 bits received. -/
  | coolStatFrame (dt : Nat) (v : Nat)
  /-- COOL_LOST, R477. -/
  | coolLost (dt : Nat)
  /-- FAST_THROTTLE_IN, R479. -/
  | fastThrottleIn (dt : Nat)
  /-- THERMAL_SUSTAINED, R482. -/
  | thermalSustained (dt : Nat)
  /-- HOLD_STATE_ENTRY, R483. -/
  | holdStateEntry (dt : Nat)
  /-- ROOF_SHUTDOWN_CHECK, R484. -/
  | roofShutdownCheck (dt : Nat)
  /-- HOLD_STATE_EXIT, R485. -/
  | holdStateExit (dt : Nat)
  /-- ROTATION, R487. The samplings of the last hour that no SENSOR_SAMPLE told. -/
  | rotation (dt : Nat) (spots : List HourPart)
  /-- PWRGOOD_RISE, R536. STRAP_OSC_DLY. -/
  | pwrgoodRise (dt : Nat) (strap : Nat)
  /-- PWRGOOD_LOST, R537. -/
  | pwrgoodLost (dt : Nat)
  /-- POWER_ON_RESET_ENTRY, R537. -/
  | powerOnResetEntry (dt : Nat)
  /-- RESET_N, R547. -/
  | resetN (dt : Nat)
  /-- STARTUP_STEP_COMPLETE, R538. What the step found. -/
  | startupStepComplete (dt : Nat) (e : StartEnv)
  /-- STARTUP_STEP_TIMEOUT, R538. What the step found. -/
  | startupStepTimeout (dt : Nat) (e : StartEnv)
  /-- SBX_ALARM, R511. Alarm code of the failure. -/
  | sbxAlarm (dt : Nat) (code : Nat)
  /-- SBX_POLICY_WRITE, R529. -/
  | sbxPolicyWrite (dt : Nat) (cmd v : Nat)
  /-- ALLOW_DEBUG_CLEAR, R530. -/
  | allowDebugClear (dt : Nat) (cmd : Nat)
  /-- ALLOW_SERVICE_CLEAR, R530. -/
  | allowServiceClear (dt : Nat) (cmd : Nat)
  /-- KEY_ENROL, R531. -/
  | keyEnrol (dt : Nat) (cmd slot : Nat)
  /-- KEY_REMOVE, R531. -/
  | keyRemove (dt : Nat) (cmd slot : Nat)
  /-- FLASH_WINDOW_WRITE, R523. Offset in the window, and the words. -/
  | flashWindowWrite (dt : Nat) (cmd off : Nat) (ws : List Nat)
  /-- TAP_RESET, R568. -/
  | tapReset (dt : Nat)
  /-- EXTEST, R570. Levels captured at the contacts, and the cells shifted in. -/
  | extest (dt : Nat) (pins cells : List Bool)
  /-- SAMPLE_PRELOAD, R568. -/
  | samplePreload (dt : Nat) (pins cells : List Bool)
  /-- IDCODE, R568. -/
  | idcode (dt : Nat)
  /-- STATUS_READ, R569. -/
  | statusRead (dt : Nat)
  /-- ATB_SEL, R572. 160 bits. -/
  | atbSel (dt : Nat) (v : Nat)
  /-- BYPASS, R568. -/
  | bypass (dt : Nat)
  /-- PRODUCTION_INSTRUCTION, R568. -/
  | productionInstruction (dt : Nat) (code : Nat)
  /-- EXTEST_END, R570. -/
  | extestEnd (dt : Nat)
  /-- FAST_THROTTLE_DEASSERTED, R479. -/
  | fastThrottleDeasserted (dt : Nat)
  /-- LANE_LOSES_SIGNAL, R324. -/
  | laneLosesSignal (dt : Nat) (k lane : Nat)
  /-- WATCHDOG_RESTART, R439. -/
  | watchdogRestart (dt : Nat) (g : Nat)
  /-- GUARD_MASK_WRITE, R502. Guard `g`, source `n`. -/
  | guardMaskWrite (dt : Nat) (g n : Nat) (m : Bool)
  /-- GLOBAL_DISABLE_WRITE, R503. -/
  | globalDisableWrite (dt : Nat) (b : Bool)
  /-- GUARD_COACH_ON_WRITE, R77. The shadow written. -/
  | guardCoachOnWrite (dt : Nat) (v : Nat)
  /-- GUARD_ASLEEP, R439. -/
  | guardAsleep (dt : Nat) (g : Nat)
  /-- GUARD_WAKES, R439. -/
  | guardWakes (dt : Nat) (g : Nat)
  /-- HOST_HOLD_RAISE, R89. -/
  | hostHoldRaise (dt : Nat)
  /-- HOST_HOLD_WITHDRAW, R89. -/
  | hostHoldWithdraw (dt : Nat)
  /-- ZEROISE_COMPLETE, R532. -/
  | zeroiseComplete (dt : Nat)
  /-- RELOAD_COMPLETE, R279. -/
  | reloadComplete (dt : Nat)
  /-- ATB_DIODE_RETURN, R574. Sensor number of the diode. -/
  | atbDiodeReturn (dt : Nat) (d : Nat)
  deriving DecidableEq, Repr

end Sys2Proof
end

