-- ==== Sys2Proof/Machine/Sparse.lean ====
section
/-! DEFINITION. Sparse tables as sorted lists of key and value pairs, and byte memory (Host.Cell) in one canonical form. -/

namespace Sys2Proof.Machine

/-- A sparse table: key and value pairs, keys strictly rising. -/
abbrev Sparse (α : Type) := List (Nat × α)

/-- The listed value of a key, if any. -/
def Sparse.find {α : Type} : Sparse α → Nat → Option α
  | [], _ => none
  | (a, b) :: l, k => if k = a then some b else Sparse.find l k

/-- List a value for a key, in order, replacing the one listed. -/
def Sparse.put {α : Type} : Sparse α → Nat → α → Sparse α
  | [], k, v => [(k, v)]
  | (a, b) :: l, k, v =>
    if k < a then (k, v) :: (a, b) :: l else if k = a then (k, v) :: l else (a, b) :: Sparse.put l k v

/-- Unlist a key. -/
def Sparse.drop {α : Type} : Sparse α → Nat → Sparse α
  | [], _ => []
  | (a, b) :: l, k => if k = a then l else (a, b) :: Sparse.drop l k

/-- Unlist every key from `lo` up to but not including `hi`. -/
def Sparse.dropRange {α : Type} (m : Sparse α) (lo hi : Nat) : Sparse α := m.filter fun c => c.1 < lo || hi ≤ c.1

/-- Keys rise strictly, and all lie above a bound. -/
def Sparse.sortedFrom {α : Type} : Option Nat → Sparse α → Bool
  | _, [] => true
  | b, (a, _) :: l => (match b with | none => true | some c => decide (c < a)) && Sparse.sortedFrom (some a) l

/-- Keys rise strictly. -/
def Sparse.sorted {α : Type} (m : Sparse α) : Bool := Sparse.sortedFrom none m

/-- What a byte of memory that no cell lists reads as (DESIGN CHOICE, log entry 6). -/
def Memory.unlisted : Byte := 0

/-- The byte at a key. -/
def Memory.get (m : List Host.Cell) (a : Nat) : Byte := (Sparse.find m a).getD Memory.unlisted

/-- Write a byte: a byte equal to what an unlisted key reads as is unlisted, so that equal memories are equal lists. -/
def Memory.set (m : List Host.Cell) (a : Nat) (b : Byte) : List Host.Cell :=
  if b = Memory.unlisted then Sparse.drop m a else Sparse.put m a b

/-- Write bytes at rising keys. -/
def Memory.setBytes (m : List Host.Cell) (a : Nat) : List Byte → List Host.Cell
  | [] => m
  | b :: bs => Memory.setBytes (Memory.set m a b) (a + 1) bs

/-- Read `n` bytes from a key upward. -/
def Memory.getBytes (m : List Host.Cell) (a : Nat) : Nat → List Byte
  | 0 => []
  | n + 1 => Memory.get m a :: Memory.getBytes m (a + 1) n

/-- The canonical form: keys strictly rising, and no cell equal to what an unlisted key reads as. -/
def Memory.wf (m : List Host.Cell) : Bool := Sparse.sorted m && m.all fun c => c.2 != Memory.unlisted

/-- The little-endian number that bytes hold (R15). -/
def leNat : List Byte → Nat
  | [] => 0
  | b :: bs => b.toNat + 256 * leNat bs

/-- The `n` little-endian bytes of a number (R15). -/
def leBytes : Nat → Nat → List Byte
  | 0, _ => []
  | n + 1, v => BitVec.ofNat 8 v :: leBytes n (v / 256)

/-- Bits [lo + w − 1 : lo] of a number. -/
def bits (v lo w : Nat) : Nat := v / 2 ^ lo % 2 ^ w

/-- `v` with bits [lo + w − 1 : lo] replaced by `x`. -/
def setBits (v lo w x : Nat) : Nat := v - bits v lo w * 2 ^ lo + x % 2 ^ w * 2 ^ lo

/-- An unsigned field of width `w` counts to its largest value and stays there. -/
def satAdd (w v d : Nat) : Nat := min (2 ^ w - 1) (v + d)

end Sys2Proof.Machine
end

