-- ==== Sys2Proof/Machine/Arith.lean ====
section
/-! DEFINITION. Exact arithmetic and rounding: binary32, BF16, E4M3 and E2M1 (R137 to R159, R172, R209, R344, R576).
Every operation is computed exactly on integers and rounded once. -/

namespace Sys2Proof.Machine

/-! ### Exact values -/

/-- A finite dyadic number m × 2^e. -/
structure Dy where
  (m e : Int)
  deriving DecidableEq, Repr

def Dy.zero : Dy := ⟨0, 0⟩

/-- m × 2^(e − f) for f ≤ e. -/
def Dy.alignTo (a : Dy) (f : Int) : Int := a.m * 2 ^ (a.e - f).toNat

def Dy.add (a b : Dy) : Dy := let f := min a.e b.e; ⟨a.alignTo f + b.alignTo f, f⟩
def Dy.mul (a b : Dy) : Dy := ⟨a.m * b.m, a.e + b.e⟩
def Dy.neg (a : Dy) : Dy := ⟨-a.m, a.e⟩
/-- a < b. -/
def Dy.lt (a b : Dy) : Bool := let f := min a.e b.e; decide (a.alignTo f < b.alignTo f)
def Dy.sum (l : List Dy) : Dy := l.foldl Dy.add Dy.zero

/-- A floating-point value: NaN, an infinity, or a finite value with its sign (a zero has one too). -/
inductive FVal where
  | nan
  | inf (neg : Bool)
  | fin (neg : Bool) (m : Nat) (e : Int)
  deriving DecidableEq, Repr

def FVal.dy : FVal → Dy
  | .fin neg m e => ⟨if neg then -(m : Int) else m, e⟩
  | _ => Dy.zero

def FVal.isFinite : FVal → Bool
  | .fin .. => true
  | _ => false

def FVal.isNan : FVal → Bool
  | .nan => true
  | _ => false

def FVal.sign : FVal → Bool
  | .nan => false
  | .inf b => b
  | .fin b _ _ => b

/-! ### Formats -/

/-- A binary format: precision p in bits, exponent of the subnormal spacing, code of the first magnitude that is not finite. -/
structure FpFmt where
  p : Nat
  qmin : Int
  top : Nat
  deriving DecidableEq, Repr

def f32 : FpFmt := ⟨24, -149, 0x7F800000⟩
def bf16 : FpFmt := ⟨8, -133, 0x7F80⟩
/-- E4M3 of OCP Microscaling v1.0: largest magnitude 448, code 0x7E (R143). -/
def e4m3 : FpFmt := ⟨4, -9, 0x7F⟩
/-- E2M1 (R137): largest magnitude 6, code 0x7. -/
def e2m1 : FpFmt := ⟨2, -1, 0x8⟩
def e2m3 : FpFmt := ⟨4, -3, 0x20⟩
def e3m2 : FpFmt := ⟨3, -4, 0x20⟩
def e5m2 : FpFmt := ⟨3, -16, 0x7C⟩

/-- The finite value of a magnitude code. -/
def FpFmt.decMag (f : FpFmt) (neg : Bool) (c : Nat) : FVal :=
  let h := 2 ^ (f.p - 1)
  if c < h then .fin neg c f.qmin else .fin neg (c % h + h) (f.qmin + (c / h : Nat) - 1)

/-- ⌊log₂(num ÷ den)⌋ for num > 0. -/
def ratLog (num den : Nat) : Int :=
  let l : Int := (Nat.log2 num : Int) - Nat.log2 den
  let ge : Bool := if 0 ≤ l then decide (den * 2 ^ l.toNat ≤ num) else decide (den ≤ num * 2 ^ (-l).toNat)
  if ge then l else l - 1

/-- How to round the remainder: to nearest with ties to even (R150), or stochastically with a 32-bit draw (R151). -/
inductive Mode where
  | rne
  | sr (u : Nat)
  deriving DecidableEq, Repr

/-- Magnitude code of num ÷ den × 2^e in a format, before any saturation: the spacing q is that of the binade, or the
subnormal spacing (R151), and the code counts spacings. -/
def FpFmt.roundMag (f : FpFmt) (num den : Nat) (e : Int) (mode : Mode) : Nat :=
  if num = 0 then 0
  else
    let q := max (ratLog num den + e - (f.p - 1 : Nat)) f.qmin
    let n2 := if q ≤ e then num * 2 ^ (e - q).toNat else num
    let d2 := if q ≤ e then den else den * 2 ^ (q - e).toNat
    let n := n2 / d2
    let r := n2 % d2
    let up := match mode with
      | .rne => decide (d2 < 2 * r) || (decide (2 * r = d2) && n % 2 == 1)
      | .sr u => decide (u < r * 2 ^ 32 / d2)
    (q - f.qmin).toNat * 2 ^ (f.p - 1) + (if up then n + 1 else n)

/-! ### binary32 -/

/-- Every NaN result (R147, R209, R344). -/
def nan32 : Nat := 0x7FC00000

def dec32 (c : Nat) : FVal :=
  let neg := c / 0x80000000 % 2 == 1
  let m := c % 0x80000000
  if 0x7F800000 < m then .nan else if m = 0x7F800000 then .inf neg else f32.decMag neg m

def decBf16 (c : Nat) : FVal :=
  let neg := c / 0x8000 % 2 == 1
  let m := c % 0x8000
  if 0x7F80 < m then .nan else if m = 0x7F80 then .inf neg else bf16.decMag neg m

def decA8 (c : Nat) : FVal :=
  let neg := c / 0x80 % 2 == 1
  let m := c % 0x80
  if m = 0x7F then .nan else e4m3.decMag neg m

def sign32 (neg : Bool) : Nat := if neg then 0x80000000 else 0

/-- A magnitude num ÷ den × 2^e rounded to binary32 with a sign; overflow gives the infinity (R147). -/
def round32 (neg : Bool) (num den : Nat) (e : Int) : Nat := sign32 neg + min 0x7F800000 (f32.roundMag num den e .rne)

/-- rne32 of an exact value; an exact zero takes the given sign. -/
def rne32 (a : Dy) (zeroNeg : Bool := false) : Nat :=
  if a.m = 0 then sign32 zeroNeg else round32 (decide (a.m < 0)) a.m.natAbs 1 a.e

/-- Sum of two floating-point values rounded once to binary32 (R150). -/
def addVal (a b : FVal) : Nat :=
  match a, b with
  | .nan, _ => nan32
  | _, .nan => nan32
  | .inf s, .inf t => if s = t then sign32 s + 0x7F800000 else nan32
  | .inf s, _ => sign32 s + 0x7F800000
  | _, .inf t => sign32 t + 0x7F800000
  | .fin .., .fin .. => rne32 (a.dy.add b.dy) (a.sign && b.sign)

/-- Exact product of two floating-point values. -/
def mulVal (a b : FVal) : FVal :=
  match a, b with
  | .nan, _ => .nan
  | _, .nan => .nan
  | .inf s, .inf t => .inf (s != t)
  | .inf s, .fin t m _ => if m = 0 then .nan else .inf (s != t)
  | .fin s m _, .inf t => if m = 0 then .nan else .inf (s != t)
  | .fin s m e, .fin t n g => .fin (s != t) (m * n) (e + g)

/-- A value rounded once to binary32. -/
def enc32 : FVal → Nat
  | .nan => nan32
  | .inf s => sign32 s + 0x7F800000
  | .fin s m e => if m = 0 then sign32 s else round32 s m 1 e

def add32 (a b : Nat) : Nat := addVal (dec32 a) (dec32 b)
def sub32 (a b : Nat) : Nat := addVal (dec32 a) (mulVal (dec32 b) (.fin true 1 0))
def mul32 (a b : Nat) : Nat := enc32 (mulVal (dec32 a) (dec32 b))

def div32 (a b : Nat) : Nat :=
  match dec32 a, dec32 b with
  | .nan, _ => nan32
  | _, .nan => nan32
  | .inf _, .inf _ => nan32
  | .inf s, .fin t _ _ => sign32 (s != t) + 0x7F800000
  | .fin s _ _, .inf t => sign32 (s != t)
  | .fin s m e, .fin t n g =>
    if n = 0 then (if m = 0 then nan32 else sign32 (s != t) + 0x7F800000)
    else if m = 0 then sign32 (s != t) else round32 (s != t) m n (e - g)

/-- a < b for binary32; false when either is NaN. -/
def lt32 (a b : Nat) : Bool :=
  match dec32 a, dec32 b with
  | .nan, _ => false
  | _, .nan => false
  | .inf s, .inf t => s && !t
  | .inf s, _ => s
  | _, .inf t => !t
  | x, y => x.dy.lt y.dy

/-- The larger of two binary32 values, for the running maximum of R209: a NaN is kept. -/
def max32 (a b : Nat) : Nat :=
  if (dec32 a).isNan ∨ (dec32 b).isNan then nan32 else if lt32 a b then b else a

/-- e^y in fixed point with 400 fractional bits, for 0 ≤ y × 2^−400 < 128: a Taylor sum at y ÷ 2¹⁶, squared 16 times. -/
def expFix (y : Nat) : Nat :=
  let one := 2 ^ 400
  let r := y / 2 ^ 16
  let t := (List.range 40).foldl (fun (p : Nat × Nat) i =>
    let term := p.2 * r / (one * (i + 1))
    (p.1 + term, term)) (one, one)
  (List.range 16).foldl (fun a _ => a * a / one) t.1

/-- Correctly rounded binary32 exponential (R209). -/
def exp32 (c : Nat) : Nat :=
  match dec32 c with
  | .nan => nan32
  | .inf true => 0
  | .inf false => 0x7F800000
  | .fin neg m e =>
    if m = 0 then 0x3F800000
    else
      let y := if 0 ≤ e then m * 2 ^ e.toNat * 2 ^ 400 else m * 2 ^ (400 - (-e).toNat)
      if 105 * 2 ^ 400 ≤ y then (if neg then 0 else 0x7F800000)
      else if neg then round32 false (2 ^ 400) (expFix y) 0 else round32 false (expFix y) (2 ^ 400) 0

/-! ### Narrow activations -/

/-- BF16 to A8 with a layer's `act_shift` (R143). -/
def toA8 (x : Nat) (shift : Int) : Nat :=
  match decBf16 x with
  | .nan => 0x7F
  | .inf s => (if s then 0x80 else 0) + 0x7E
  | .fin s m e =>
    let c := min 0x7E (e4m3.roundMag m 1 (e + shift) .rne)
    if c = 0 then 0 else (if s then 0x80 else 0) + c

/-- Round a value to A8 with no shift (R151 to R153): saturation on the rounded magnitude, the NaN of E4M3. A zero that stochastic
rounding gives has the sign of the value (step 4 of R151); one that rounding to nearest gives is 0x00, as R143 writes every A8
value (DEDUCED, log entry 43). -/
def roundA8 (v : FVal) (mode : Mode) : Nat :=
  match v with
  | .nan => 0x7F
  | .inf s => (if s then 0x80 else 0) + 0x7E
  | .fin s m e =>
    let c := min 0x7E (e4m3.roundMag m 1 e mode)
    match mode with
    | .rne => if c = 0 then 0 else (if s then 0x80 else 0) + c
    | .sr _ => (if s then 0x80 else 0) + c

/-- Round a value to BF16 (R151). -/
def roundBf16 (v : FVal) (mode : Mode) : Nat :=
  match v with
  | .nan => 0x7FC0
  | .inf s => (if s then 0x8000 else 0) + 0x7F80
  | .fin s m e =>
    (if s then 0x8000 else 0) +
      (match mode with
       | .rne => min 0x7F80 (bf16.roundMag m 1 e .rne)
       | .sr _ => min 0x7F7F (bf16.roundMag m 1 e mode))

/-- Exact sum of two values, as a value (R152). -/
def sumVal (a b : FVal) : FVal :=
  match a, b with
  | .nan, _ => .nan
  | _, .nan => .nan
  | .inf s, .inf t => if s = t then .inf s else .nan
  | .inf s, _ => .inf s
  | _, .inf t => .inf t
  | .fin .., .fin .. =>
    let d := a.dy.add b.dy
    if d.m = 0 then .fin (a.sign && b.sign) 0 0 else .fin (decide (d.m < 0)) d.m.natAbs d.e

/-- A16 alignment of one lane of a block (R144): eb, and each activation as an integer. -/
def alignA16 (xs : List Nat) : Nat × List Int :=
  let eb := xs.foldl (fun a x => max a (max 1 (x / 128 % 256))) 1
  (eb, xs.map fun x =>
    match decBf16 x with
    | .fin s m e =>
      let d : Int := e + 141 - eb
      let n : Nat := if 0 ≤ d then m * 2 ^ d.toNat else
        let t := 2 ^ (-d).toNat
        let q := m / t
        let r := m % t
        if t < 2 * r ∨ (2 * r = t ∧ q % 2 = 1) then q + 1 else q
      if s then -(n : Int) else n
    | _ => 0)

/-! ### Block bursts -/

/-- Weight format codes of R135: 0 PB4, 1 PB4i, 2 PB3, 3 PB2. -/
def elemsPerBurst (fmt : Nat) : Nat := if fmt = 2 then 160 else if fmt = 3 then 256 else 128
def blocksPerBurst (fmt : Nat) : Nat := if fmt = 2 then 5 else 4
def blockSize (fmt : Nat) : Nat := if fmt = 3 then 64 else 32

/-- Signed integer of an element code (R137). -/
def elemInt (fmt c : Nat) : Int :=
  match fmt with
  | 0 =>
    let m : Nat := [0, 1, 2, 3, 4, 6, 8, 12].getD (c % 8) 0
    if 8 ≤ c then -(m : Int) else m
  | 1 => if 8 ≤ c then (c : Int) - 16 else c
  | 2 => if 4 ≤ c then (c : Int) - 8 else c
  | _ => [-3, -1, 1, 3].getD c 0

/-- log₂ u_w (R137). -/
def unitExp (fmt : Nat) : Int := if fmt = 0 ∨ fmt = 3 then -1 else 0

/-- Element codes of block j of a burst (R138). -/
def blockCodes (fmt burst j : Nat) : List Nat :=
  (List.range (blockSize fmt)).map fun i =>
    match fmt with
    | 2 => bits burst (96 * j + 3 * i) 3
    | 3 => bits burst (128 * j + 2 * i) 2
    | _ => bits burst (128 * j + 4 * i) 4

/-- Scale code of block j (R138). -/
def scaleCode (fmt burst j : Nat) : Nat := if fmt = 2 then bits burst (480 + 8 * j) 8 else bits burst (512 + 8 * j) 8

/-- Sub-scale code of half h of PB3 block j (R138). -/
def subCode (burst j h : Nat) : Nat := bits burst (520 + 4 * j + 2 * h) 2

/-- 8μ of a sub-scale code (R141). -/
def mu8 (c : Nat) : Int := [8, 9, 7, 6].getD c 8

/-- Scale exponent of a scale code that is not 0x00 (R139). -/
def scaleExp (satScale s : Nat) : Int := (if s = 0xFF then (satScale : Int) else s) - 127

/-- Saturated blocks of a burst (R140). -/
def satBlocks (fmt burst : Nat) : Nat :=
  ((List.range (blocksPerBurst fmt)).filter fun j => scaleCode fmt burst j == 0xFF).length

/-- The block's value V for one lane (R146): `a` holds one integer per element, in units of 2^ea. -/
def blockValue (fmt burst j satScale : Nat) (sub : Bool) (a : List Int) (ea : Int) : Dy :=
  let w := (blockCodes fmt burst j).map (elemInt fmt)
  let prods := List.zipWith (· * ·) w a
  let p := scaleExp satScale (scaleCode fmt burst j) + unitExp fmt + ea
  if fmt = 2 ∧ sub then
    let s0 := (prods.take 16).foldl (· + ·) 0
    let s1 := (prods.drop 16).foldl (· + ·) 0
    ⟨mu8 (subCode burst j 0) * s0 + mu8 (subCode burst j 1) * s1, p - 3⟩
  else ⟨prods.foldl (· + ·) 0, p⟩

/-- acc := RNE(acc + V) (R147); none makes V a NaN (R148). -/
def accumulate (acc : Nat) (v : Option Dy) : Nat :=
  match v with
  | none => nan32
  | some d => addVal (dec32 acc) (.fin (decide (d.m < 0)) d.m.natAbs d.e)

/-- Lane integers of a block at A8 (R143), or none when an activation is NaN (R148). -/
def laneA8 (xs : List Nat) : Option (List Int) :=
  if xs.any fun x => (decA8 x).isNan then none else some (xs.map fun x => (decA8 x).dy.alignTo (-9))

/-- Lane integers and e_a of a block at A16 (R144), or none when an activation is NaN or infinite (R148). -/
def laneA16 (xs : List Nat) : Option (List Int × Int) :=
  if xs.any fun x => !(decBf16 x).isFinite then none
  else let r := alignA16 xs; some (r.2, (r.1 : Int) - 141)

/-- One block into one lane's accumulator; a zero block leaves it as it is (R148). -/
def blockStep (acc fmt burst j satScale : Nat) (sub a16 : Bool) (shift : Int) (xs : List Nat) : Nat :=
  if scaleCode fmt burst j = 0 then acc
  else if a16 then
    accumulate acc ((laneA16 xs).map fun r => blockValue fmt burst j satScale sub r.1 r.2)
  else
    accumulate acc ((laneA8 xs).map fun a => blockValue fmt burst j satScale sub a (-9 - shift))

/-- Every block of a burst, in order, into one lane's accumulator. -/
def burstStep (acc fmt burst satScale : Nat) (sub a16 : Bool) (shift : Int) (xs : List Nat) : Nat :=
  (List.range (blocksPerBurst fmt)).foldl (fun a j =>
    blockStep a fmt burst j satScale sub a16 shift ((xs.drop (blockSize fmt * j)).take (blockSize fmt))) acc

/-! ### Stochastic rounding (R151 to R156) -/

def m32 (x : Nat) : Nat := x % 2 ^ 32

/-- mix of R154. -/
def mix (x : Nat) : Nat :=
  let x := m32 (x ^^^ (x / 2 ^ 16))
  let x := m32 (x * 0x7FEB352D)
  let x := x ^^^ (x / 2 ^ 15)
  let x := m32 (x * 0x846CA68B)
  x ^^^ (x / 2 ^ 16)

/-- draw of R154. -/
def draw (seed n ctr l : Nat) : Nat := mix (mix (m32 (seed ^^^ m32 (n * 0x9E3779B9))) ^^^ mix ctr ^^^ m32 (l * 0x85EBCA6B))

/-! ### Spill, prefetch and import -/

/-- Magnitude of an A8 code in units of 2⁻⁹, or none for NaN. -/
def a8Mag (c : Nat) : Option Nat := if c % 128 = 0x7F then none else some ((decA8 (c % 128)).dy.alignTo (-9)).natAbs

/-- An E2M1 element from a value × 2^sh, rounded and saturated at ±6; a zero result is code 0x0 (R151, R153, R576). -/
def toE2M1 (v : FVal) (sh : Int) (mode : Mode) : Nat :=
  match v with
  | .fin s m e =>
    let c := min 7 (e2m1.roundMag m 1 (e + sh) mode)
    if c = 0 then 0 else (if s then 8 else 0) + c
  | _ => 0

/-- Spill of one block of 32 A8 codes (R153): scale code and element codes. -/
def spillBlock (cs : List Nat) (modes : List Mode) : Nat × List Nat :=
  let m := cs.foldl (fun a c => max a ((a8Mag c).getD 0)) 0
  if m = 0 then (0, cs.map fun _ => 0)
  else
    let s : Int := 127 + ((Nat.log2 m : Int) - 9) - 2
    (s.toNat, List.zipWith (fun c md => toE2M1 (decA8 c) (127 - s) md) cs modes)

/-- Prefetch of one PB4 block: each element converted to E4M3, to nearest even (R153). -/
def prefetchBlock (s : Nat) (codes : List Nat) : List Nat :=
  codes.map fun c =>
    if s = 0 then 0
    else
      let w := elemInt 0 c
      if w = 0 then 0 else roundA8 (.fin (decide (w < 0)) w.natAbs ((s : Int) - 128)) .rne

/-- An element of an MX source block (R157): kind 0 E2M1, 1 E2M3, 2 E3M2, 3 E4M3, 4 E5M2. -/
def mxElem (kind c : Nat) : FVal :=
  match kind with
  | 0 => e2m1.decMag (decide (8 ≤ c % 16)) (c % 8)
  | 1 => e2m3.decMag (decide (32 ≤ c % 64)) (c % 32)
  | 2 => e3m2.decMag (decide (32 ≤ c % 64)) (c % 32)
  | 3 => decA8 (c % 256)
  | _ =>
    let neg := decide (128 ≤ c % 256)
    let m := c % 128
    if 0x7C < m then .nan else if m = 0x7C then .inf neg else e5m2.decMag neg m

/-- What converting one MX source block gives (R157, R159): refused, or scale code, element codes and saturated elements. -/
def mxBlock (kind x : Nat) (cs : List Nat) : Option (Nat × List Nat × Nat) :=
  let vs := cs.map (mxElem kind)
  if 4 < kind ∨ vs.any (fun v => !v.isFinite) ∨ x = 0xFF then none
  else
    let m := vs.foldl (fun a v => if a.lt ⟨v.dy.m.natAbs, v.dy.e⟩ then ⟨v.dy.m.natAbs, v.dy.e⟩ else a) Dy.zero
    if m.m = 0 then some (0, cs.map fun _ => 0, 0)
    else if kind = 0 ∧ 1 ≤ x ∧ x ≤ 0xFE then some (x, cs.map (· % 16), 0)
    else
      let s0 : Int := x + ((Nat.log2 m.m.natAbs : Int) + m.e) - 2
      let s : Int := max s0 1
      if 0xFE < s then none
      else
        -- element × 2^(X − s), on the grid extended above 6 with a spacing of 2
        let r := vs.map fun v =>
          match v with
          | .fin neg n e =>
            let ext : FpFmt := ⟨2, -1, 0x40⟩
            let c := ext.roundMag n 1 (e + x - s) .rne
            let big := decide (7 < c)
            (if c = 0 then 0 else (if neg then 8 else 0) + min 7 c, big)
          | _ => (0, false)
        some (s.toNat, r.map (·.1), (r.filter (·.2)).length)

/-- A PB4 burst from blocks of scale code and element codes (R138, R158). -/
def packPB4 (blocks : List (Nat × List Nat)) : Nat :=
  (List.range 4).foldl (fun acc j =>
    let b := blocks.getD j (0, [])
    acc + b.1 * 2 ^ (512 + 8 * j) +
      (List.range 32).foldl (fun a i => a + b.2.getD i 0 % 16 * 2 ^ (128 * j + 4 * i)) 0) 0

/-! ### Attention (R209) -/

/-- Running state of the walker for one query head. -/
structure Walk where
  (m l : Nat)
  o : List Nat
  deriving DecidableEq, Repr

/-- rne32 of an exact sum of products of BF16 and E4M3 values, times σ (R209). -/
def score (q k : List Nat) (sigma : Nat) : Nat :=
  let ps := List.zipWith (fun a b => mulVal (decBf16 a) (decA8 b)) q k
  mul32 (enc32 (ps.foldl sumVal (.fin false 0 0))) sigma

/-- o + w × v with one rounding. -/
def fma32 (o w : Nat) (v : FVal) : Nat := enc32 (sumVal (dec32 o) (mulVal (dec32 w) v))

/-- One set of visible entries (R209): the K and V rows in ascending position. -/
def walkSet (q : List Nat) (sigma : Nat) (w : Walk) (rows : List (List Nat × List Nat)) : Walk :=
  let ss := rows.map fun r => score q r.1 sigma
  let mp := ss.foldl max32 w.m
  let c := exp32 (sub32 w.m mp)
  let w0 : Walk := ⟨mp, mul32 w.l c, w.o.map fun o => mul32 o c⟩
  (List.zip ss rows).foldl (fun a sr =>
    let x := exp32 (sub32 sr.1 mp)
    ⟨a.m, add32 a.l x, List.zipWith (fun o v => fma32 o x (decA8 v)) a.o sr.2.2⟩) w0

/-- The walk over sets in ascending order, and the division at its end (R209). -/
def walkAll (q : List Nat) (sigma dh : Nat) (sets : List (List (List Nat × List Nat))) : List Nat :=
  let w := sets.foldl (walkSet q sigma) ⟨0xFF800000, 0, List.replicate dh 0⟩
  w.o.map fun o => div32 o w.l

/-- Reduce at the memory: r := rne32(r + c[m]) in member order (R344). -/
def reduceElem (cs : List Nat) : Nat :=
  match cs with
  | [] => 0
  | c :: l =>
    let r := l.foldl add32 c
    if (dec32 r).isNan then nan32 else r

/-- CRC of the reflected polynomial over bytes, from an initial value. -/
def crcBits (poly : Nat) : Nat → Nat → Nat
  | 0, c => c
  | n + 1, c => crcBits poly n (if c % 2 = 1 then (c / 2) ^^^ poly else c / 2)

/-- CRC-32C: reflected polynomial 0x82F63B78, initial and final value all ones (R325). -/
def crc32c (bs : List Byte) : Nat :=
  (bs.foldl (fun c b => crcBits 0x82F63B78 8 (c ^^^ b.toNat)) 0xFFFFFFFF) ^^^ 0xFFFFFFFF

end Sys2Proof.Machine
end

