-- ==== Sys2Proof/Config.lean ====
section
/-! DEFINITION. What the spec leaves to the part in hand: opaque constants with no body (a free value, or a standard's
function that the spec names without giving its text). No proof can see a value of any of them. -/

namespace Sys2Proof

/-- A fresh free value, applied to the counter State.free (DESIGN CHOICE, log entry 4): device nonces and other values the spec draws at random (R508). -/
opaque Config.freeValue : Nat → BitVec 64

/-- SHA3-256 of FIPS 202 (R508), left uninterpreted, as are the functions of ML-DSA, ML-KEM and AES below (DESIGN CHOICE, log entry 5). -/
opaque Config.sha3 : List (BitVec 8) → List (BitVec 8)

/-- ML-DSA-44 verification of FIPS 204 (R508, R509): context string number, public key, message, signature. -/
opaque Config.mldsaVerify : Nat → List (BitVec 8) → List (BitVec 8) → List (BitVec 8) → Bool

/-- ML-DSA-44 signature by the device identity key (R508): context string number and message. -/
opaque Config.mldsaSign : Nat → List (BitVec 8) → List (BitVec 8)

/-- Whether 1,312 B form a valid ML-DSA-44 public key (R534 result 0x4). -/
opaque Config.mldsaKeyValid : List (BitVec 8) → Bool

/-- The encapsulation key of the fresh ML-KEM-768 pair number n of this device (FIPS 203, R516). -/
opaque Config.mlkemEk : Nat → List (BitVec 8)

/-- ML-KEM-768 decapsulation under the private key of pair n (FIPS 203, R517). -/
opaque Config.mlkemDecaps : Nat → List (BitVec 8) → List (BitVec 8)

/-- AES-256-GCM decryption: key, IV, associated data, payload and tag; none where the tag does not verify (R385, R386). -/
opaque Config.gcmOpen : List (BitVec 8) → List (BitVec 8) → List (BitVec 8) → List (BitVec 8) → List (BitVec 8) → Option (List (BitVec 8))

/-- AES-256-GCM encryption: key, IV, associated data and payload; the encrypted payload and the tag (R385). -/
opaque Config.gcmSeal : List (BitVec 8) → List (BitVec 8) → List (BitVec 8) → List (BitVec 8) → List (BitVec 8) × List (BitVec 8)

/-- The SHA3-256 digests the wafer fuses hold: 0 firmware key, 1 service key, 2 image key, 3 identity key (R512). -/
opaque Config.fusedDigest : Nat → List (BitVec 8)

/-- Production entries of the defect map as the fuses hold them. -/
opaque Config.fuseWords : List Nat

/-- Production entries of the defect map, in wafer fuses and roof fuses (R412): none isolates a coach, since every device passes
production test with all 64 coaches good (R2). -/
def Config.fuseEntries : List Nat := Config.fuseWords.filter fun w => w / 2 ^ 56 % 64 != 2

/-- The part is a PXW25-L; else it is a PXW25-A (R1). -/
opaque Config.gradeL : Bool

/-- `grade` of the wafer fuses: 0x01 PXW25-A, 0x02 PXW25-L (R1, R5). -/
def Config.grade : Nat := if Config.gradeL then 2 else 1

/-- The device serial number of the fuses (R527). -/
opaque Config.serial : BitVec 64

/-- The manufacturer code in bits 11:1 of IDCODE, given by the BSDL description (R568). -/
opaque Config.idManufacturer : BitVec 11

/-- The fused trim of rail r, in units of 0.5 mV above −50 mV, from 0 to 200 (R450). -/
opaque Config.fusedTrim : Nat → Nat

/-- Number of the head unit that raises event `num` (R92 gives the field, no rule numbers the units; DESIGN CHOICE, log entry 7). -/
opaque Config.headUnit : Nat → BitVec 8

/-- Bytes of the device identity public key (R512), and of Nirfen's signature over it (R534). -/
opaque Config.identityKey : Nat → BitVec 8
opaque Config.certSignature : Nat → BitVec 8

/-- Bytes of the certificate window past the signature, of which R534 says nothing (DESIGN CHOICE, log entry 4). -/
opaque Config.certRest : Nat → BitVec 8

/-- Row of a roof bank or of the coach tables that holds a roof word, by the key of the word (R41, R126 speak of rows and give no geometry: DESIGN CHOICE, log entry 67). -/
opaque Config.roofRow : Nat → Nat

/-- Where a checking S-tile's scratchpad holds the spans it copies, in rows of 64 B: R171 gives no place (DESIGN CHOICE, log entry 67). -/
opaque Config.shadowRow : Nat → Nat

/-- Watts that heater work draws in a coach in a spoke, before R486's bound (DESIGN CHOICE, log entry 67). -/
opaque Config.heaterWatts : Nat → Nat → Nat

/-- Column of a roof bank that a spare column group replaces for a roof word, by the key of the word (DESIGN CHOICE, log entry
67). -/
opaque Config.roofColumn : Nat → Nat

/-- Which of the good S-tiles of its coach paces a tile while no image runs: the device's own assignment (R99; DESIGN CHOICE, log
entry 67). -/
opaque Config.region : Nat → Nat

/-- Which of the coach's S-tiles that hold a logical tile paces a tile, in the image of a generation: R99 gives the regions to the
image, whose format (R350 to R369) has no section for them (DESIGN CHOICE, log entry 67). -/
opaque Config.imageRegion : Nat → Nat → Nat

end Sys2Proof
end

