-- ==== Sys2Proof/Machine/Registers.lean ====
section
/-! DEFINITION. The register tables of the spec, one row per register: address, count, stride, and its fields with their bits,
access codes and reset values (R16 to R19, and the register tables of every chapter). Bits that no field names are reserved (R18). -/

namespace Sys2Proof.Machine

/-- Access codes of R17. -/
inductive Acc where
  | rw | ro | wo | w1c | w1s | rc
  deriving DecidableEq, Repr

/-- Where a register lies (R8, R37). -/
inductive Space where
  | head | sbx | tile | bay | tower | cpl
  deriving DecidableEq, Repr

/-- The index register that selects which copy of an indexed register an access reaches (R168, R205, R244, R280, R364, R444, R471, R490, R499). -/
inductive Bank where
  | none | fmt | carriage | kvGroup | ring | tenant | profile | adapter | reloc | defect | log | domain | rail | sensor | clkDom | eccBank
  deriving DecidableEq, Repr

/-- One field of a register table: lowest bit, width, access and reset value. -/
structure FieldRow where
  (lo w : Nat)
  acc : Acc
  reset : Nat
  deriving DecidableEq, Repr

/-- One register (or one numbered family of registers) of the spec. -/
structure RegRow where
  space : Space
  (addr count stride cls : Nat)
  bank : Bank
  fields : List FieldRow
  deriving DecidableEq, Repr

/-- A field as the model reaches it: storage key of its register, lowest bit and width. -/
structure Fld where
  (key lo w : Nat)
  deriving DecidableEq, Repr

/-- The same field of the register `d` bytes further on. -/
def Fld.off (f : Fld) (d : Nat) : Fld := ⟨f.key + d, f.lo, f.w⟩

/-- The same field of copy `i` of an indexed register. -/
def Fld.ix (f : Fld) (i : Nat) : Fld := ⟨f.key + i * 281474976710656, f.lo, f.w⟩

/-- HEAD_DEVICE_ID of the spec. -/
def HEAD_DEVICE_ID : RegRow := ⟨.head, 0x0, 1, 0x8, 15, .none, [⟨32, 8, .ro, 0x0⟩, ⟨24, 8, .ro, 0x1⟩, ⟨16, 8, .ro, 0x0⟩, ⟨0, 16, .ro, 0x5725⟩]⟩
def HEAD_DEVICE_ID.good_coaches : Fld := ⟨0x0, 32, 8⟩
def HEAD_DEVICE_ID.stepping : Fld := ⟨0x0, 24, 8⟩
def HEAD_DEVICE_ID.grade : Fld := ⟨0x0, 16, 8⟩
def HEAD_DEVICE_ID.part : Fld := ⟨0x0, 0, 16⟩
/-- TILE_HITCH_STATUS of the spec. -/
def TILE_HITCH_STATUS : RegRow := ⟨.tile, 0xF000800, 1, 0x8, 15, .none, [⟨48, 2, .ro, 0x0⟩, ⟨40, 8, .ro, 0x0⟩, ⟨32, 8, .ro, 0x0⟩, ⟨16, 2, .ro, 0x0⟩, ⟨8, 8, .ro, 0x0⟩, ⟨0, 8, .ro, 0x0⟩]⟩
def TILE_HITCH_STATUS.ew_state : Fld := ⟨0xF000800, 48, 2⟩
def TILE_HITCH_STATUS.ew_in_spares : Fld := ⟨0xF000800, 40, 8⟩
def TILE_HITCH_STATUS.ew_out_spares : Fld := ⟨0xF000800, 32, 8⟩
def TILE_HITCH_STATUS.ns_state : Fld := ⟨0xF000800, 16, 2⟩
def TILE_HITCH_STATUS.ns_in_spares : Fld := ⟨0xF000800, 8, 8⟩
def TILE_HITCH_STATUS.ns_out_spares : Fld := ⟨0xF000800, 0, 8⟩
/-- TWR_STATUS of the spec. -/
def TWR_STATUS : RegRow := ⟨.tower, 0x0, 1, 0x8, 15, .none, [⟨14, 2, .ro, 0x0⟩, ⟨13, 1, .ro, 0x0⟩, ⟨8, 5, .ro, 0x0⟩, ⟨0, 8, .ro, 0x40⟩]⟩
def TWR_STATUS.state : Fld := ⟨0x0, 14, 2⟩
def TWR_STATUS.spare_used : Fld := ⟨0x0, 13, 1⟩
def TWR_STATUS.replaced_channel : Fld := ⟨0x0, 8, 5⟩
def TWR_STATUS.capacity : Fld := ⟨0x0, 0, 8⟩
/-- HEAD_AXLE_COUNT of the spec. -/
def HEAD_AXLE_COUNT : RegRow := ⟨.head, 0x100000, 1, 0x8, 15, .none, [⟨0, 64, .ro, 0x0⟩]⟩
def HEAD_AXLE_COUNT.count : Fld := ⟨0x100000, 0, 64⟩
/-- HEAD_AXLE_STATUS of the spec. -/
def HEAD_AXLE_STATUS : RegRow := ⟨.head, 0x100008, 1, 0x8, 15, .none, [⟨40, 8, .rc, 0x0⟩, ⟨32, 8, .rc, 0x0⟩, ⟨7, 1, .ro, 0x0⟩, ⟨6, 1, .w1c, 0x0⟩, ⟨5, 1, .w1c, 0x0⟩, ⟨4, 1, .ro, 0x0⟩, ⟨0, 2, .ro, 0x0⟩]⟩
def HEAD_AXLE_STATUS.idx_unarmed : Fld := ⟨0x100008, 40, 8⟩
def HEAD_AXLE_STATUS.idx_match : Fld := ⟨0x100008, 32, 8⟩
def HEAD_AXLE_STATUS.loaded : Fld := ⟨0x100008, 7, 1⟩
def HEAD_AXLE_STATUS.slip : Fld := ⟨0x100008, 6, 1⟩
def HEAD_AXLE_STATUS.arm_error : Fld := ⟨0x100008, 5, 1⟩
def HEAD_AXLE_STATUS.armed : Fld := ⟨0x100008, 4, 1⟩
def HEAD_AXLE_STATUS.lock : Fld := ⟨0x100008, 0, 2⟩
/-- HEAD_AXLE_LOAD of the spec. -/
def HEAD_AXLE_LOAD : RegRow := ⟨.head, 0x100010, 1, 0x8, 15, .none, [⟨0, 64, .rw, 0x0⟩]⟩
def HEAD_AXLE_LOAD.value : Fld := ⟨0x100010, 0, 64⟩
/-- HEAD_AXLE_CTRL of the spec. -/
def HEAD_AXLE_CTRL : RegRow := ⟨.head, 0x100018, 1, 0x8, 15, .none, [⟨1, 1, .wo, 0x0⟩, ⟨0, 1, .w1s, 0x0⟩]⟩
def HEAD_AXLE_CTRL.disarm : Fld := ⟨0x100018, 1, 1⟩
def HEAD_AXLE_CTRL.arm : Fld := ⟨0x100018, 0, 1⟩
/-- HEAD_SWAP_CTRL of the spec. -/
def HEAD_SWAP_CTRL : RegRow := ⟨.head, 0x100048, 1, 0x8, 15, .none, [⟨1, 1, .ro, 0x0⟩, ⟨0, 1, .rw, 0x0⟩]⟩
def HEAD_SWAP_CTRL.pending : Fld := ⟨0x100048, 1, 1⟩
def HEAD_SWAP_CTRL.hold : Fld := ⟨0x100048, 0, 1⟩
/-- HEAD_TURN_CONFIG of the spec. -/
def HEAD_TURN_CONFIG : RegRow := ⟨.head, 0x100020, 1, 0x8, 15, .none, [⟨50, 7, .ro, 0x5F⟩, ⟨35, 15, .ro, 0x0⟩, ⟨33, 2, .ro, 0x0⟩, ⟨28, 5, .ro, 0x3⟩, ⟨14, 14, .ro, 0x0⟩, ⟨0, 14, .ro, 0x0⟩]⟩
def HEAD_TURN_CONFIG.step : Fld := ⟨0x100020, 50, 7⟩
def HEAD_TURN_CONFIG.turn_len_k : Fld := ⟨0x100020, 35, 15⟩
def HEAD_TURN_CONFIG.diameter : Fld := ⟨0x100020, 33, 2⟩
def HEAD_TURN_CONFIG.hold_lead : Fld := ⟨0x100020, 28, 5⟩
def HEAD_TURN_CONFIG.play_min : Fld := ⟨0x100020, 14, 14⟩
def HEAD_TURN_CONFIG.turn_len : Fld := ⟨0x100020, 0, 14⟩
/-- HEAD_TURN_STATE of the spec. -/
def HEAD_TURN_STATE : RegRow := ⟨.head, 0x100028, 1, 0x8, 15, .none, [⟨48, 2, .ro, 0x0⟩, ⟨0, 48, .ro, 0x0⟩]⟩
def HEAD_TURN_STATE.phase : Fld := ⟨0x100028, 48, 2⟩
def HEAD_TURN_STATE.turn : Fld := ⟨0x100028, 0, 48⟩
/-- HEAD_TURN_START of the spec. -/
def HEAD_TURN_START : RegRow := ⟨.head, 0x100030, 1, 0x8, 15, .none, [⟨0, 64, .ro, 0x0⟩]⟩
def HEAD_TURN_START.start : Fld := ⟨0x100030, 0, 64⟩
/-- HEAD_TURN_LAST of the spec. -/
def HEAD_TURN_LAST : RegRow := ⟨.head, 0x100038, 1, 0x8, 15, .none, [⟨56, 8, .ro, 0x0⟩, ⟨48, 8, .ro, 0x0⟩, ⟨32, 16, .ro, 0x0⟩, ⟨16, 16, .ro, 0x0⟩, ⟨0, 16, .ro, 0x0⟩]⟩
def HEAD_TURN_LAST.holds_raised : Fld := ⟨0x100038, 56, 8⟩
def HEAD_TURN_LAST.inserts : Fld := ⟨0x100038, 48, 8⟩
def HEAD_TURN_LAST.overrun : Fld := ⟨0x100038, 32, 16⟩
def HEAD_TURN_LAST.hold_spokes : Fld := ⟨0x100038, 16, 16⟩
def HEAD_TURN_LAST.length : Fld := ⟨0x100038, 0, 16⟩
/-- HEAD_TURN_LONGEST of the spec. -/
def HEAD_TURN_LONGEST : RegRow := ⟨.head, 0x100040, 1, 0x8, 15, .none, [⟨48, 4, .rc, 0x0⟩, ⟨32, 16, .rc, 0x0⟩, ⟨16, 4, .ro, 0x0⟩, ⟨0, 16, .ro, 0x0⟩]⟩
def HEAD_TURN_LONGEST.max_cause : Fld := ⟨0x100040, 48, 4⟩
def HEAD_TURN_LONGEST.max_len : Fld := ⟨0x100040, 32, 16⟩
def HEAD_TURN_LONGEST.turn_cause : Fld := ⟨0x100040, 16, 4⟩
def HEAD_TURN_LONGEST.turn_len_event : Fld := ⟨0x100040, 0, 16⟩
/-- HEAD_STALL_TURN_n of the spec. -/
def HEAD_STALL_TURN_n : RegRow := ⟨.head, 0x100100, 16, 0x8, 15, .none, [⟨16, 16, .ro, 0x0⟩, ⟨0, 16, .ro, 0x0⟩]⟩
def HEAD_STALL_TURN_n.events : Fld := ⟨0x100100, 16, 16⟩
def HEAD_STALL_TURN_n.spokes : Fld := ⟨0x100100, 0, 16⟩
/-- HEAD_STALL_TOTAL_n of the spec. -/
def HEAD_STALL_TOTAL_n : RegRow := ⟨.head, 0x100180, 16, 0x8, 15, .none, [⟨0, 48, .rc, 0x0⟩]⟩
def HEAD_STALL_TOTAL_n.spokes : Fld := ⟨0x100180, 0, 48⟩
/-- TILE_ID of the spec. -/
def TILE_ID : RegRow := ⟨.tile, 0xF000000, 1, 0x8, 15, .none, [⟨48, 8, .ro, 0xFF⟩, ⟨32, 16, .ro, 0xFFFF⟩, ⟨30, 2, .ro, 0x0⟩, ⟨24, 6, .ro, 0x0⟩, ⟨16, 8, .ro, 0x0⟩]⟩
def TILE_ID.logical_coach : Fld := ⟨0xF000000, 48, 8⟩
def TILE_ID.logical_tile : Fld := ⟨0xF000000, 32, 16⟩
def TILE_ID.cls : Fld := ⟨0xF000000, 30, 2⟩
def TILE_ID.place : Fld := ⟨0xF000000, 24, 6⟩
def TILE_ID.site : Fld := ⟨0xF000000, 16, 8⟩
/-- TILE_STATE of the spec. -/
def TILE_STATE : RegRow := ⟨.tile, 0xF000008, 1, 0x8, 15, .none, [⟨7, 1, .ro, 0x0⟩, ⟨0, 3, .ro, 0x0⟩]⟩
def TILE_STATE.debug : Fld := ⟨0xF000008, 7, 1⟩
def TILE_STATE.state : Fld := ⟨0xF000008, 0, 3⟩
/-- TILE_BANK_MAP of the spec. -/
def TILE_BANK_MAP : RegRow := ⟨.tile, 0xF000010, 1, 0x8, 15, .none, [⟨0, 8, .ro, 0x0⟩]⟩
def TILE_BANK_MAP.vector_groups : Fld := ⟨0xF000010, 0, 8⟩
/-- TILE_REGION_n of the spec. -/
def TILE_REGION_n : RegRow := ⟨.tile, 0xF000100, 16, 0x8, 15, .none, [⟨63, 1, .ro, 0x0⟩, ⟨62, 1, .ro, 0x0⟩, ⟨61, 1, .ro, 0x0⟩, ⟨60, 1, .ro, 0x0⟩, ⟨58, 2, .ro, 0x0⟩, ⟨24, 24, .ro, 0x0⟩, ⟨0, 24, .ro, 0x0⟩]⟩
def TILE_REGION_n.remote_write : Fld := ⟨0xF000100, 63, 1⟩
def TILE_REGION_n.remote_read : Fld := ⟨0xF000100, 62, 1⟩
def TILE_REGION_n.local_write : Fld := ⟨0xF000100, 61, 1⟩
def TILE_REGION_n.local_read : Fld := ⟨0xF000100, 60, 1⟩
def TILE_REGION_n.space : Fld := ⟨0xF000100, 58, 2⟩
def TILE_REGION_n.limit : Fld := ⟨0xF000100, 24, 24⟩
def TILE_REGION_n.base : Fld := ⟨0xF000100, 0, 24⟩
/-- TILE_CIRC_CFG_n of the spec. -/
def TILE_CIRC_CFG_n : RegRow := ⟨.tile, 0xF000200, 16, 0x10, 15, .none, [⟨48, 1, .ro, 0x0⟩, ⟨45, 3, .ro, 0x0⟩, ⟨28, 17, .ro, 0x0⟩, ⟨0, 17, .ro, 0x0⟩]⟩
def TILE_CIRC_CFG_n.enable : Fld := ⟨0xF000200, 48, 1⟩
def TILE_CIRC_CFG_n.slot : Fld := ⟨0xF000200, 45, 3⟩
def TILE_CIRC_CFG_n.slots : Fld := ⟨0xF000200, 28, 17⟩
def TILE_CIRC_CFG_n.base : Fld := ⟨0xF000200, 0, 17⟩
/-- TILE_CIRC_PTR_n of the spec. -/
def TILE_CIRC_PTR_n : RegRow := ⟨.tile, 0xF000208, 16, 0x10, 15, .none, [⟨54, 2, .ro, 0x0⟩, ⟨36, 18, .ro, 0x0⟩, ⟨18, 17, .ro, 0x0⟩, ⟨0, 17, .ro, 0x0⟩]⟩
def TILE_CIRC_PTR_n.state : Fld := ⟨0xF000208, 54, 2⟩
def TILE_CIRC_PTR_n.count : Fld := ⟨0xF000208, 36, 18⟩
def TILE_CIRC_PTR_n.tail : Fld := ⟨0xF000208, 18, 17⟩
def TILE_CIRC_PTR_n.head : Fld := ⟨0xF000208, 0, 17⟩
/-- TILE_ECC_SEL of the spec. -/
def TILE_ECC_SEL : RegRow := ⟨.tile, 0xF000400, 1, 0x8, 15, .none, [⟨0, 7, .rw, 0x0⟩]⟩
def TILE_ECC_SEL.bank : Fld := ⟨0xF000400, 0, 7⟩
/-- TILE_ECC_COUNT of the spec. -/
def TILE_ECC_COUNT : RegRow := ⟨.tile, 0xF000408, 1, 0x8, 15, .eccBank, [⟨32, 16, .rc, 0x0⟩, ⟨0, 32, .rc, 0x0⟩]⟩
def TILE_ECC_COUNT.uncorrectable : Fld := ⟨0xF000408, 32, 16⟩
def TILE_ECC_COUNT.corrected : Fld := ⟨0xF000408, 0, 32⟩
/-- TILE_ECC_LAST of the spec. -/
def TILE_ECC_LAST : RegRow := ⟨.tile, 0xF000410, 1, 0x8, 15, .none, [⟨63, 1, .w1c, 0x0⟩, ⟨62, 1, .ro, 0x0⟩, ⟨61, 1, .ro, 0x0⟩, ⟨51, 7, .ro, 0x0⟩, ⟨0, 28, .ro, 0x0⟩]⟩
def TILE_ECC_LAST.valid : Fld := ⟨0xF000410, 63, 1⟩
def TILE_ECC_LAST.uncorrectable : Fld := ⟨0xF000410, 62, 1⟩
def TILE_ECC_LAST.scrub : Fld := ⟨0xF000410, 61, 1⟩
def TILE_ECC_LAST.bank : Fld := ⟨0xF000410, 51, 7⟩
def TILE_ECC_LAST.offset : Fld := ⟨0xF000410, 0, 28⟩
/-- TILE_WS_SIDE of the spec. -/
def TILE_WS_SIDE : RegRow := ⟨.tile, 0xF000418, 1, 0x8, 1, .none, [⟨0, 32, .rw, 0x0⟩]⟩
def TILE_WS_SIDE.side : Fld := ⟨0xF000418, 0, 32⟩
/-- TILE_TRAP of the spec. -/
def TILE_TRAP : RegRow := ⟨.tile, 0xF000420, 1, 0x8, 15, .none, [⟨63, 1, .w1c, 0x0⟩, ⟨60, 3, .ro, 0x0⟩, ⟨56, 4, .ro, 0x0⟩, ⟨48, 8, .ro, 0x0⟩, ⟨44, 4, .ro, 0x0⟩, ⟨28, 2, .ro, 0x0⟩, ⟨0, 28, .ro, 0x0⟩]⟩
def TILE_TRAP.valid : Fld := ⟨0xF000420, 63, 1⟩
def TILE_TRAP.port : Fld := ⟨0xF000420, 60, 3⟩
def TILE_TRAP.kind : Fld := ⟨0xF000420, 56, 4⟩
def TILE_TRAP.further : Fld := ⟨0xF000420, 48, 8⟩
def TILE_TRAP.circ : Fld := ⟨0xF000420, 44, 4⟩
def TILE_TRAP.space : Fld := ⟨0xF000420, 28, 2⟩
def TILE_TRAP.offset : Fld := ⟨0xF000420, 0, 28⟩
/-- TILE_SCRUB_CTRL of the spec. -/
def TILE_SCRUB_CTRL : RegRow := ⟨.tile, 0xF000500, 1, 0x8, 4, .none, [⟨16, 10, .rw, 0x12C⟩, ⟨8, 8, .rw, 0x3C⟩, ⟨0, 1, .rw, 0x1⟩]⟩
def TILE_SCRUB_CTRL.idle_pass : Fld := ⟨0xF000500, 16, 10⟩
def TILE_SCRUB_CTRL.load_pass : Fld := ⟨0xF000500, 8, 8⟩
def TILE_SCRUB_CTRL.enable : Fld := ⟨0xF000500, 0, 1⟩
/-- TILE_SCRUB_STATUS of the spec. -/
def TILE_SCRUB_STATUS : RegRow := ⟨.tile, 0xF000508, 1, 0x8, 4, .none, [⟨48, 16, .rc, 0x0⟩, ⟨32, 16, .ro, 0x0⟩]⟩
def TILE_SCRUB_STATUS.passes : Fld := ⟨0xF000508, 48, 16⟩
def TILE_SCRUB_STATUS.last_pass : Fld := ⟨0xF000508, 32, 16⟩
/-- BAY_SCRUB_CTRL of the spec. -/
def BAY_SCRUB_CTRL : RegRow := ⟨.bay, 0x100, 1, 0x8, 15, .none, [⟨16, 10, .rw, 0x12C⟩, ⟨8, 8, .rw, 0x3C⟩, ⟨0, 1, .rw, 0x1⟩]⟩
def BAY_SCRUB_CTRL.idle_pass : Fld := ⟨0x100, 16, 10⟩
def BAY_SCRUB_CTRL.load_pass : Fld := ⟨0x100, 8, 8⟩
def BAY_SCRUB_CTRL.enable : Fld := ⟨0x100, 0, 1⟩
/-- BAY_SCRUB_STATUS of the spec. -/
def BAY_SCRUB_STATUS : RegRow := ⟨.bay, 0x108, 1, 0x8, 15, .none, [⟨48, 16, .rc, 0x0⟩, ⟨32, 16, .ro, 0x0⟩]⟩
def BAY_SCRUB_STATUS.passes : Fld := ⟨0x108, 48, 16⟩
def BAY_SCRUB_STATUS.last_pass : Fld := ⟨0x108, 32, 16⟩
/-- TILE_SR_SEED of the spec. -/
def TILE_SR_SEED : RegRow := ⟨.tile, 0xF000600, 1, 0x8, 15, .none, [⟨32, 3, .ro, 0x0⟩, ⟨0, 32, .ro, 0x0⟩]⟩
def TILE_SR_SEED.enable : Fld := ⟨0xF000600, 32, 3⟩
def TILE_SR_SEED.seed : Fld := ⟨0xF000600, 0, 32⟩
/-- TILE_SR_CTR_n of the spec. -/
def TILE_SR_CTR_n : RegRow := ⟨.tile, 0xF000608, 3, 0x8, 15, .none, [⟨0, 32, .ro, 0x0⟩]⟩
def TILE_SR_CTR_n.ctr : Fld := ⟨0xF000608, 0, 32⟩
/-- HEAD_IMPORT_STATUS of the spec. -/
def HEAD_IMPORT_STATUS : RegRow := ⟨.head, 0x120048, 1, 0x8, 15, .none, [⟨32, 32, .ro, 0x0⟩, ⟨0, 32, .ro, 0x0⟩]⟩
def HEAD_IMPORT_STATUS.blocks : Fld := ⟨0x120048, 32, 32⟩
def HEAD_IMPORT_STATUS.saturated : Fld := ⟨0x120048, 0, 32⟩
/-- HEAD_FMT_INDEX of the spec. -/
def HEAD_FMT_INDEX : RegRow := ⟨.head, 0x120000, 1, 0x8, 15, .none, [⟨0, 12, .rw, 0x0⟩]⟩
def HEAD_FMT_INDEX.layer : Fld := ⟨0x120000, 0, 12⟩
/-- HEAD_FMT_RECIPE of the spec. -/
def HEAD_FMT_RECIPE : RegRow := ⟨.head, 0x120008, 1, 0x8, 15, .fmt, [⟨8, 8, .rw, 0x0⟩, ⟨2, 1, .rw, 0x0⟩, ⟨1, 1, .rw, 0x0⟩, ⟨0, 1, .rw, 0x0⟩]⟩
def HEAD_FMT_RECIPE.act_shift : Fld := ⟨0x120008, 8, 8⟩
def HEAD_FMT_RECIPE.stab : Fld := ⟨0x120008, 2, 1⟩
def HEAD_FMT_RECIPE.sub : Fld := ⟨0x120008, 1, 1⟩
def HEAD_FMT_RECIPE.act : Fld := ⟨0x120008, 0, 1⟩
/-- HEAD_FMT_ACTIVE of the spec. -/
def HEAD_FMT_ACTIVE : RegRow := ⟨.head, 0x120010, 1, 0x8, 15, .fmt, [⟨8, 8, .ro, 0x0⟩, ⟨2, 1, .ro, 0x0⟩, ⟨1, 1, .ro, 0x0⟩, ⟨0, 1, .ro, 0x0⟩]⟩
def HEAD_FMT_ACTIVE.act_shift : Fld := ⟨0x120010, 8, 8⟩
def HEAD_FMT_ACTIVE.stab : Fld := ⟨0x120010, 2, 1⟩
def HEAD_FMT_ACTIVE.sub : Fld := ⟨0x120010, 1, 1⟩
def HEAD_FMT_ACTIVE.act : Fld := ⟨0x120010, 0, 1⟩
/-- HEAD_FMT_STATUS of the spec. -/
def HEAD_FMT_STATUS : RegRow := ⟨.head, 0x120018, 1, 0x8, 15, .fmt, [⟨63, 1, .w1c, 0x0⟩, ⟨62, 1, .w1c, 0x0⟩, ⟨60, 2, .ro, 0x0⟩, ⟨32, 16, .rc, 0x0⟩, ⟨16, 16, .ro, 0x0⟩, ⟨0, 16, .rc, 0x0⟩]⟩
def HEAD_FMT_STATUS.pressure : Fld := ⟨0x120018, 63, 1⟩
def HEAD_FMT_STATUS.nonfinite : Fld := ⟨0x120018, 62, 1⟩
def HEAD_FMT_STATUS.last_refusal : Fld := ⟨0x120018, 60, 2⟩
def HEAD_FMT_STATUS.refused : Fld := ⟨0x120018, 32, 16⟩
def HEAD_FMT_STATUS.window_exceed : Fld := ⟨0x120018, 16, 16⟩
def HEAD_FMT_STATUS.samples : Fld := ⟨0x120018, 0, 16⟩
/-- HEAD_FMT_INFO of the spec. -/
def HEAD_FMT_INFO : RegRow := ⟨.head, 0x120020, 1, 0x8, 15, .fmt, [⟨48, 1, .ro, 0x0⟩, ⟨0, 48, .ro, 0x0⟩]⟩
def HEAD_FMT_INFO.changed : Fld := ⟨0x120020, 48, 1⟩
def HEAD_FMT_INFO.last_change : Fld := ⟨0x120020, 0, 48⟩
/-- HEAD_FMT_SAT of the spec. -/
def HEAD_FMT_SAT : RegRow := ⟨.head, 0x120028, 1, 0x8, 15, .fmt, [⟨0, 32, .ro, 0x0⟩]⟩
def HEAD_FMT_SAT.sat_blocks : Fld := ⟨0x120028, 0, 32⟩
/-- HEAD_FMT_SET of the spec. -/
def HEAD_FMT_SET : RegRow := ⟨.head, 0x120030, 1, 0x8, 15, .none, [⟨3, 1, .ro, 0x0⟩, ⟨2, 1, .ro, 0x0⟩, ⟨1, 1, .ro, 0x0⟩, ⟨0, 1, .rw, 0x0⟩]⟩
def HEAD_FMT_SET.available : Fld := ⟨0x120030, 3, 1⟩
def HEAD_FMT_SET.in_effect : Fld := ⟨0x120030, 2, 1⟩
def HEAD_FMT_SET.req_active : Fld := ⟨0x120030, 1, 1⟩
def HEAD_FMT_SET.wide_req : Fld := ⟨0x120030, 0, 1⟩
/-- HEAD_SHADOW_CTRL of the spec. -/
def HEAD_SHADOW_CTRL : RegRow := ⟨.head, 0x120038, 1, 0x8, 15, .none, [⟨33, 1, .w1c, 0x0⟩, ⟨32, 1, .rw, 0x1⟩, ⟨0, 13, .ro, 0x0⟩]⟩
def HEAD_SHADOW_CTRL.model_pressure : Fld := ⟨0x120038, 33, 1⟩
def HEAD_SHADOW_CTRL.enable : Fld := ⟨0x120038, 32, 1⟩
def HEAD_SHADOW_CTRL.layers : Fld := ⟨0x120038, 0, 13⟩
/-- HEAD_SHADOW_STATS of the spec. -/
def HEAD_SHADOW_STATS : RegRow := ⟨.head, 0x120040, 1, 0x8, 15, .none, [⟨32, 32, .rc, 0x0⟩, ⟨0, 32, .rc, 0x0⟩]⟩
def HEAD_SHADOW_STATS.completed : Fld := ⟨0x120040, 32, 32⟩
def HEAD_SHADOW_STATS.missed : Fld := ⟨0x120040, 0, 32⟩
/-- HEAD_PIPE_CONFIG of the spec. -/
def HEAD_PIPE_CONFIG : RegRow := ⟨.head, 0x130000, 1, 0x8, 15, .none, [⟨16, 10, .ro, 0x0⟩, ⟨0, 10, .ro, 0x0⟩]⟩
def HEAD_PIPE_CONFIG.tree_carriages : Fld := ⟨0x130000, 16, 10⟩
def HEAD_PIPE_CONFIG.carriages : Fld := ⟨0x130000, 0, 10⟩
/-- HEAD_CARRIAGE_INDEX of the spec. -/
def HEAD_CARRIAGE_INDEX : RegRow := ⟨.head, 0x130008, 1, 0x8, 15, .none, [⟨0, 9, .rw, 0x0⟩]⟩
def HEAD_CARRIAGE_INDEX.carriage : Fld := ⟨0x130008, 0, 9⟩
/-- HEAD_CARRIAGE_STATE of the spec. -/
def HEAD_CARRIAGE_STATE : RegRow := ⟨.head, 0x130010, 1, 0x8, 15, .carriage, [⟨57, 1, .ro, 0x0⟩, ⟨48, 9, .ro, 0x0⟩, ⟨32, 5, .ro, 0x0⟩, ⟨16, 16, .ro, 0x0⟩, ⟨0, 16, .ro, 0x0⟩]⟩
def HEAD_CARRIAGE_STATE.tree : Fld := ⟨0x130010, 57, 1⟩
def HEAD_CARRIAGE_STATE.position : Fld := ⟨0x130010, 48, 9⟩
def HEAD_CARRIAGE_STATE.nodes : Fld := ⟨0x130010, 32, 5⟩
def HEAD_CARRIAGE_STATE.assigned : Fld := ⟨0x130010, 16, 16⟩
def HEAD_CARRIAGE_STATE.live : Fld := ⟨0x130010, 0, 16⟩
/-- HEAD_PREFILL_CONFIG of the spec. -/
def HEAD_PREFILL_CONFIG : RegRow := ⟨.head, 0x130018, 1, 0x8, 15, .none, [⟨48, 15, .ro, 0x0⟩, ⟨32, 13, .ro, 0x0⟩, ⟨16, 13, .ro, 0x0⟩, ⟨0, 5, .ro, 0x0⟩]⟩
def HEAD_PREFILL_CONFIG.round_turns : Fld := ⟨0x130018, 48, 15⟩
def HEAD_PREFILL_CONFIG.batch_cap : Fld := ⟨0x130018, 32, 13⟩
def HEAD_PREFILL_CONFIG.stream_min : Fld := ⟨0x130018, 16, 13⟩
def HEAD_PREFILL_CONFIG.p_tiles : Fld := ⟨0x130018, 0, 5⟩
/-- HEAD_PREFILL_CTRL of the spec. -/
def HEAD_PREFILL_CTRL : RegRow := ⟨.head, 0x130020, 1, 0x8, 15, .none, [⟨32, 16, .rw, 0x400⟩, ⟨16, 13, .rw, 0x0⟩, ⟨0, 1, .rw, 0x1⟩]⟩
def HEAD_PREFILL_CTRL.max_wait : Fld := ⟨0x130020, 32, 16⟩
def HEAD_PREFILL_CTRL.batch_min : Fld := ⟨0x130020, 16, 13⟩
def HEAD_PREFILL_CTRL.enable : Fld := ⟨0x130020, 0, 1⟩
/-- HEAD_PREFILL_STATUS of the spec. -/
def HEAD_PREFILL_STATUS : RegRow := ⟨.head, 0x130028, 1, 0x8, 15, .none, [⟨63, 1, .ro, 0x0⟩, ⟨48, 15, .ro, 0x0⟩, ⟨40, 8, .rc, 0x0⟩, ⟨32, 8, .rc, 0x0⟩, ⟨0, 32, .ro, 0x0⟩]⟩
def HEAD_PREFILL_STATUS.running : Fld := ⟨0x130028, 63, 1⟩
def HEAD_PREFILL_STATUS.round_turn : Fld := ⟨0x130028, 48, 15⟩
def HEAD_PREFILL_STATUS.abandoned : Fld := ⟨0x130028, 40, 8⟩
def HEAD_PREFILL_STATUS.rounds : Fld := ⟨0x130028, 32, 8⟩
def HEAD_PREFILL_STATUS.queued : Fld := ⟨0x130028, 0, 32⟩
/-- HEAD_PREFILL_ENERGY of the spec. -/
def HEAD_PREFILL_ENERGY : RegRow := ⟨.head, 0x130030, 1, 0x8, 15, .none, [⟨48, 16, .rc, 0x0⟩, ⟨0, 40, .ro, 0x0⟩]⟩
def HEAD_PREFILL_ENERGY.deferred : Fld := ⟨0x130030, 48, 16⟩
def HEAD_PREFILL_ENERGY.allowance : Fld := ⟨0x130030, 0, 40⟩
/-- HEAD_KV_CONFIG of the spec. -/
def HEAD_KV_CONFIG : RegRow := ⟨.head, 0x140000, 1, 0x8, 15, .none, [⟨40, 4, .ro, 0x0⟩, ⟨30, 2, .ro, 0x0⟩, ⟨0, 18, .ro, 0x0⟩]⟩
def HEAD_KV_CONFIG.spec_depth : Fld := ⟨0x140000, 40, 4⟩
def HEAD_KV_CONFIG.head_dim : Fld := ⟨0x140000, 30, 2⟩
def HEAD_KV_CONFIG.context_limit : Fld := ⟨0x140000, 0, 18⟩
/-- HEAD_KV_GROUP_INDEX of the spec. -/
def HEAD_KV_GROUP_INDEX : RegRow := ⟨.head, 0x140008, 1, 0x8, 15, .none, [⟨0, 9, .rw, 0x0⟩]⟩
def HEAD_KV_GROUP_INDEX.group : Fld := ⟨0x140008, 0, 9⟩
/-- HEAD_KV_GROUP_SIZE of the spec. -/
def HEAD_KV_GROUP_SIZE : RegRow := ⟨.head, 0x140010, 1, 0x8, 15, .kvGroup, [⟨56, 8, .ro, 0x0⟩, ⟨48, 8, .ro, 0x0⟩, ⟨24, 24, .ro, 0x0⟩, ⟨0, 16, .ro, 0x0⟩]⟩
def HEAD_KV_GROUP_SIZE.window : Fld := ⟨0x140010, 56, 8⟩
def HEAD_KV_GROUP_SIZE.staging : Fld := ⟨0x140010, 48, 8⟩
def HEAD_KV_GROUP_SIZE.tower_slots : Fld := ⟨0x140010, 24, 24⟩
def HEAD_KV_GROUP_SIZE.pool_slots : Fld := ⟨0x140010, 0, 16⟩
/-- HEAD_KV_GROUP_STATE of the spec. -/
def HEAD_KV_GROUP_STATE : RegRow := ⟨.head, 0x140018, 1, 0x8, 15, .kvGroup, [⟨48, 16, .ro, 0x0⟩, ⟨24, 24, .ro, 0x0⟩, ⟨0, 16, .ro, 0x0⟩]⟩
def HEAD_KV_GROUP_STATE.spilling : Fld := ⟨0x140018, 48, 16⟩
def HEAD_KV_GROUP_STATE.tower_free : Fld := ⟨0x140018, 24, 24⟩
def HEAD_KV_GROUP_STATE.pool_free : Fld := ⟨0x140018, 0, 16⟩
/-- HEAD_KV_STATS of the spec. -/
def HEAD_KV_STATS : RegRow := ⟨.head, 0x140020, 1, 0x8, 15, .none, [⟨48, 16, .rc, 0x0⟩, ⟨32, 16, .rc, 0x0⟩, ⟨0, 32, .rc, 0x0⟩]⟩
def HEAD_KV_STATS.late_fetch : Fld := ⟨0x140020, 48, 16⟩
def HEAD_KV_STATS.deferred : Fld := ⟨0x140020, 32, 16⟩
def HEAD_KV_STATS.spills : Fld := ⟨0x140020, 0, 32⟩
/-- HEAD_PREFIX_CTRL of the spec. -/
def HEAD_PREFIX_CTRL : RegRow := ⟨.head, 0x140028, 1, 0x8, 15, .none, [⟨1, 1, .wo, 0x0⟩, ⟨0, 1, .rw, 0x1⟩]⟩
def HEAD_PREFIX_CTRL.flush : Fld := ⟨0x140028, 1, 1⟩
def HEAD_PREFIX_CTRL.enable : Fld := ⟨0x140028, 0, 1⟩
/-- HEAD_PREFIX_STATUS of the spec. -/
def HEAD_PREFIX_STATUS : RegRow := ⟨.head, 0x140030, 1, 0x8, 15, .none, [⟨46, 18, .ro, 0x0⟩, ⟨16, 16, .rc, 0x0⟩, ⟨0, 16, .rc, 0x0⟩]⟩
def HEAD_PREFIX_STATUS.nodes : Fld := ⟨0x140030, 46, 18⟩
def HEAD_PREFIX_STATUS.collisions : Fld := ⟨0x140030, 16, 16⟩
def HEAD_PREFIX_STATUS.evictions : Fld := ⟨0x140030, 0, 16⟩
/-- HEAD_PREFIX_STATS of the spec. -/
def HEAD_PREFIX_STATS : RegRow := ⟨.head, 0x140038, 1, 0x8, 15, .none, [⟨32, 32, .rc, 0x0⟩, ⟨0, 32, .rc, 0x0⟩]⟩
def HEAD_PREFIX_STATS.hit_blocks : Fld := ⟨0x140038, 32, 32⟩
def HEAD_PREFIX_STATS.lookup_blocks : Fld := ⟨0x140038, 0, 32⟩
/-- HEAD_SPEC_STATUS of the spec. -/
def HEAD_SPEC_STATUS : RegRow := ⟨.head, 0x140040, 1, 0x8, 15, .none, [⟨62, 2, .ro, 0x0⟩, ⟨0, 16, .rc, 0x0⟩]⟩
def HEAD_SPEC_STATUS.draft : Fld := ⟨0x140040, 62, 2⟩
def HEAD_SPEC_STATUS.invalid_trees : Fld := ⟨0x140040, 0, 16⟩
/-- HEAD_SPEC_STATS of the spec. -/
def HEAD_SPEC_STATS : RegRow := ⟨.head, 0x140048, 1, 0x8, 15, .none, [⟨32, 32, .rc, 0x0⟩, ⟨0, 32, .rc, 0x0⟩]⟩
def HEAD_SPEC_STATS.accepted : Fld := ⟨0x140048, 32, 32⟩
def HEAD_SPEC_STATS.passes : Fld := ⟨0x140048, 0, 32⟩
/-- HEAD_SERVE_CONFIG of the spec. -/
def HEAD_SERVE_CONFIG : RegRow := ⟨.head, 0x150000, 1, 0x8, 15, .none, [⟨32, 1, .ro, 0x0⟩, ⟨21, 11, .ro, 0x0⟩, ⟨0, 21, .ro, 0x0⟩]⟩
def HEAD_SERVE_CONFIG.halves : Fld := ⟨0x150000, 32, 1⟩
def HEAD_SERVE_CONFIG.adapter_slots : Fld := ⟨0x150000, 21, 11⟩
def HEAD_SERVE_CONFIG.vocab : Fld := ⟨0x150000, 0, 21⟩
/-- HEAD_SERVE_CTRL of the spec. -/
def HEAD_SERVE_CTRL : RegRow := ⟨.head, 0x150008, 1, 0x8, 15, .none, [⟨16, 16, .rw, 0x100⟩, ⟨0, 1, .rw, 0x1⟩]⟩
def HEAD_SERVE_CTRL.res_wait : Fld := ⟨0x150008, 16, 16⟩
def HEAD_SERVE_CTRL.admit_enable : Fld := ⟨0x150008, 0, 1⟩
/-- HEAD_SERVE_STATS of the spec. -/
def HEAD_SERVE_STATS : RegRow := ⟨.head, 0x150010, 1, 0x8, 15, .none, [⟨40, 24, .rc, 0x0⟩, ⟨24, 16, .rc, 0x0⟩, ⟨16, 8, .rc, 0x0⟩, ⟨8, 8, .rc, 0x0⟩, ⟨0, 8, .rc, 0x0⟩]⟩
def HEAD_SERVE_STATS.admitted : Fld := ⟨0x150010, 40, 24⟩
def HEAD_SERVE_STATS.refused : Fld := ⟨0x150010, 24, 16⟩
def HEAD_SERVE_STATS.cancel_miss : Fld := ⟨0x150010, 16, 8⟩
def HEAD_SERVE_STATS.setting_refused : Fld := ⟨0x150010, 8, 8⟩
def HEAD_SERVE_STATS.return_holds : Fld := ⟨0x150010, 0, 8⟩
/-- HEAD_RING_INDEX of the spec. -/
def HEAD_RING_INDEX : RegRow := ⟨.head, 0x150018, 1, 0x8, 15, .none, [⟨0, 13, .rw, 0x0⟩]⟩
def HEAD_RING_INDEX.ring : Fld := ⟨0x150018, 0, 13⟩
/-- HEAD_RING_CFG of the spec. -/
def HEAD_RING_CFG : RegRow := ⟨.head, 0x150020, 1, 0x8, 15, .ring, [⟨17, 1, .rw, 0x0⟩, ⟨16, 1, .rw, 0x0⟩, ⟨0, 12, .rw, 0x0⟩]⟩
def HEAD_RING_CFG.enable : Fld := ⟨0x150020, 17, 1⟩
def HEAD_RING_CFG.tenant_check : Fld := ⟨0x150020, 16, 1⟩
def HEAD_RING_CFG.tenant : Fld := ⟨0x150020, 0, 12⟩
/-- HEAD_RING_STATE of the spec. -/
def HEAD_RING_STATE : RegRow := ⟨.head, 0x150028, 1, 0x8, 15, .ring, [⟨61, 3, .ro, 0x0⟩, ⟨57, 4, .ro, 0x0⟩, ⟨48, 9, .ro, 0x0⟩, ⟨44, 4, .ro, 0x0⟩, ⟨0, 32, .ro, 0x0⟩]⟩
def HEAD_RING_STATE.phase : Fld := ⟨0x150028, 61, 3⟩
def HEAD_RING_STATE.queued : Fld := ⟨0x150028, 57, 4⟩
def HEAD_RING_STATE.carriage : Fld := ⟨0x150028, 48, 9⟩
def HEAD_RING_STATE.slot : Fld := ⟨0x150028, 44, 4⟩
def HEAD_RING_STATE.returned : Fld := ⟨0x150028, 0, 32⟩
/-- HEAD_TENANT_INDEX of the spec. -/
def HEAD_TENANT_INDEX : RegRow := ⟨.head, 0x150030, 1, 0x8, 15, .none, [⟨0, 12, .rw, 0x0⟩]⟩
def HEAD_TENANT_INDEX.tenant : Fld := ⟨0x150030, 0, 12⟩
/-- HEAD_TENANT_CFG of the spec. -/
def HEAD_TENANT_CFG : RegRow := ⟨.head, 0x150038, 1, 0x8, 15, .tenant, [⟨63, 1, .rw, 0x0⟩, ⟨62, 1, .rw, 0x0⟩, ⟨57, 5, .rw, 0x0⟩, ⟨43, 14, .rw, 0x0⟩, ⟨24, 16, .rw, 0x0⟩, ⟨0, 24, .rw, 0x0⟩]⟩
def HEAD_TENANT_CFG.enable : Fld := ⟨0x150038, 63, 1⟩
def HEAD_TENANT_CFG.private_prefix : Fld := ⟨0x150038, 62, 1⟩
def HEAD_TENANT_CFG.prompt_cost : Fld := ⟨0x150038, 57, 5⟩
def HEAD_TENANT_CFG.max_active : Fld := ⟨0x150038, 43, 14⟩
def HEAD_TENANT_CFG.rate : Fld := ⟨0x150038, 24, 16⟩
def HEAD_TENANT_CFG.burst : Fld := ⟨0x150038, 0, 24⟩
/-- HEAD_TENANT_LEVEL of the spec. -/
def HEAD_TENANT_LEVEL : RegRow := ⟨.head, 0x150040, 1, 0x8, 15, .tenant, [⟨32, 32, .ro, 0x0⟩, ⟨14, 14, .ro, 0x0⟩, ⟨0, 14, .ro, 0x0⟩]⟩
def HEAD_TENANT_LEVEL.level : Fld := ⟨0x150040, 32, 32⟩
def HEAD_TENANT_LEVEL.parked : Fld := ⟨0x150040, 14, 14⟩
def HEAD_TENANT_LEVEL.active : Fld := ⟨0x150040, 0, 14⟩
/-- HEAD_SAMP_INDEX of the spec. -/
def HEAD_SAMP_INDEX : RegRow := ⟨.head, 0x150048, 1, 0x8, 15, .none, [⟨0, 8, .rw, 0x0⟩]⟩
def HEAD_SAMP_INDEX.profile : Fld := ⟨0x150048, 0, 8⟩
/-- HEAD_SAMP_PROFILE of the spec. -/
def HEAD_SAMP_PROFILE : RegRow := ⟨.head, 0x150050, 1, 0x8, 15, .profile, [⟨48, 16, .rw, 0x3F80⟩, ⟨32, 11, .rw, 0x400⟩, ⟨28, 4, .rw, 0x0⟩, ⟨16, 9, .rw, 0x1⟩, ⟨0, 16, .rw, 0x0⟩]⟩
def HEAD_SAMP_PROFILE.rep_penalty : Fld := ⟨0x150050, 48, 16⟩
def HEAD_SAMP_PROFILE.top_p : Fld := ⟨0x150050, 32, 11⟩
def HEAD_SAMP_PROFILE.rep_window : Fld := ⟨0x150050, 28, 4⟩
def HEAD_SAMP_PROFILE.top_k : Fld := ⟨0x150050, 16, 9⟩
def HEAD_SAMP_PROFILE.temperature : Fld := ⟨0x150050, 0, 16⟩
/-- HEAD_SAMP_ACTIVE of the spec. -/
def HEAD_SAMP_ACTIVE : RegRow := ⟨.head, 0x150058, 1, 0x8, 15, .profile, [⟨48, 16, .ro, 0x3F80⟩, ⟨32, 11, .ro, 0x400⟩, ⟨28, 4, .ro, 0x0⟩, ⟨16, 9, .ro, 0x1⟩, ⟨0, 16, .ro, 0x0⟩]⟩
def HEAD_SAMP_ACTIVE.rep_penalty : Fld := ⟨0x150058, 48, 16⟩
def HEAD_SAMP_ACTIVE.top_p : Fld := ⟨0x150058, 32, 11⟩
def HEAD_SAMP_ACTIVE.rep_window : Fld := ⟨0x150058, 28, 4⟩
def HEAD_SAMP_ACTIVE.top_k : Fld := ⟨0x150058, 16, 9⟩
def HEAD_SAMP_ACTIVE.temperature : Fld := ⟨0x150058, 0, 16⟩
/-- HEAD_ADAPTER_INDEX of the spec. -/
def HEAD_ADAPTER_INDEX : RegRow := ⟨.head, 0x150060, 1, 0x8, 15, .none, [⟨0, 10, .rw, 0x0⟩]⟩
def HEAD_ADAPTER_INDEX.slot : Fld := ⟨0x150060, 0, 10⟩
/-- HEAD_ADAPTER_PTR of the spec. -/
def HEAD_ADAPTER_PTR : RegRow := ⟨.head, 0x150068, 1, 0x8, 15, .adapter, [⟨0, 2, .rw, 0x0⟩]⟩
def HEAD_ADAPTER_PTR.sel : Fld := ⟨0x150068, 0, 2⟩
/-- HEAD_ADAPTER_STATE of the spec. -/
def HEAD_ADAPTER_STATE : RegRow := ⟨.head, 0x150070, 1, 0x8, 15, .adapter, [⟨62, 2, .ro, 0x0⟩, ⟨60, 2, .ro, 0x0⟩, ⟨46, 14, .ro, 0x0⟩, ⟨32, 14, .ro, 0x0⟩, ⟨16, 16, .ro, 0x0⟩, ⟨0, 16, .ro, 0x0⟩]⟩
def HEAD_ADAPTER_STATE.state_b : Fld := ⟨0x150070, 62, 2⟩
def HEAD_ADAPTER_STATE.state_a : Fld := ⟨0x150070, 60, 2⟩
def HEAD_ADAPTER_STATE.bound_b : Fld := ⟨0x150070, 46, 14⟩
def HEAD_ADAPTER_STATE.bound_a : Fld := ⟨0x150070, 32, 14⟩
def HEAD_ADAPTER_STATE.gen_b : Fld := ⟨0x150070, 16, 16⟩
def HEAD_ADAPTER_STATE.gen_a : Fld := ⟨0x150070, 0, 16⟩
/-- HEAD_MODEL_PTR of the spec. -/
def HEAD_MODEL_PTR : RegRow := ⟨.head, 0x150078, 1, 0x8, 15, .none, [⟨0, 2, .rw, 0x0⟩]⟩
def HEAD_MODEL_PTR.sel : Fld := ⟨0x150078, 0, 2⟩
/-- HEAD_MODEL_STATE of the spec. -/
def HEAD_MODEL_STATE : RegRow := ⟨.head, 0x150080, 1, 0x8, 15, .none, [⟨62, 2, .ro, 0x0⟩, ⟨60, 2, .ro, 0x0⟩, ⟨46, 14, .ro, 0x0⟩, ⟨32, 14, .ro, 0x0⟩]⟩
def HEAD_MODEL_STATE.state_b : Fld := ⟨0x150080, 62, 2⟩
def HEAD_MODEL_STATE.state_a : Fld := ⟨0x150080, 60, 2⟩
def HEAD_MODEL_STATE.bound_b : Fld := ⟨0x150080, 46, 14⟩
def HEAD_MODEL_STATE.bound_a : Fld := ⟨0x150080, 32, 14⟩
/-- HEAD_RETURN_STATUS of the spec. -/
def HEAD_RETURN_STATUS : RegRow := ⟨.head, 0x150088, 1, 0x8, 15, .none, [⟨21, 21, .rc, 0x0⟩, ⟨0, 21, .ro, 0x0⟩]⟩
def HEAD_RETURN_STATUS.peak : Fld := ⟨0x150088, 21, 21⟩
def HEAD_RETURN_STATUS.buffered : Fld := ⟨0x150088, 0, 21⟩
/-- TILE_LINK_STATUS_p of the spec. -/
def TILE_LINK_STATUS_p : RegRow := ⟨.tile, 0xF001000, 4, 0x8, 15, .none, [⟨62, 2, .ro, 0x0⟩, ⟨60, 2, .ro, 0x0⟩, ⟨58, 2, .ro, 0x0⟩, ⟨32, 16, .rc, 0x0⟩, ⟨16, 16, .rc, 0x0⟩, ⟨0, 16, .rc, 0x0⟩]⟩
def TILE_LINK_STATUS_p.out_state : Fld := ⟨0xF001000, 62, 2⟩
def TILE_LINK_STATUS_p.in_state : Fld := ⟨0xF001000, 60, 2⟩
def TILE_LINK_STATUS_p.half : Fld := ⟨0xF001000, 58, 2⟩
def TILE_LINK_STATUS_p.tests : Fld := ⟨0xF001000, 32, 16⟩
def TILE_LINK_STATUS_p.resends : Fld := ⟨0xF001000, 16, 16⟩
def TILE_LINK_STATUS_p.check_fails : Fld := ⟨0xF001000, 0, 16⟩
/-- TILE_ROUTE_YX of the spec. -/
def TILE_ROUTE_YX : RegRow := ⟨.tile, 0xF001020, 1, 0x8, 15, .none, [⟨0, 64, .ro, 0x0⟩]⟩
def TILE_ROUTE_YX.yx : Fld := ⟨0xF001020, 0, 64⟩
/-- TILE_NET_CONFIG of the spec. -/
def TILE_NET_CONFIG : RegRow := ⟨.tile, 0xF001028, 1, 0x8, 15, .none, [⟨32, 16, .ro, 0xFFFF⟩]⟩
def TILE_NET_CONFIG.mcast_limit : Fld := ⟨0xF001028, 32, 16⟩
/-- TILE_NET_ERR of the spec. -/
def TILE_NET_ERR : RegRow := ⟨.tile, 0xF001030, 1, 0x8, 15, .none, [⟨48, 16, .rc, 0x0⟩, ⟨32, 16, .rc, 0x0⟩, ⟨16, 16, .rc, 0x0⟩, ⟨0, 16, .rc, 0x0⟩]⟩
def TILE_NET_ERR.discarded : Fld := ⟨0xF001030, 48, 16⟩
def TILE_NET_ERR.barrier_errors : Fld := ⟨0xF001030, 32, 16⟩
def TILE_NET_ERR.mcast_holds : Fld := ⟨0xF001030, 16, 16⟩
def TILE_NET_ERR.coll_errors : Fld := ⟨0xF001030, 0, 16⟩
/-- TILE_CART_ISSUE_n of the spec. -/
def TILE_CART_ISSUE_n : RegRow := ⟨.tile, 0xF001100, 8, 0x20, 15, .none, [⟨6, 22, .wo, 0x0⟩]⟩
def TILE_CART_ISSUE_n.desc : Fld := ⟨0xF001100, 6, 22⟩
/-- TILE_CART_STATUS_n of the spec. -/
def TILE_CART_STATUS_n : RegRow := ⟨.tile, 0xF001108, 8, 0x20, 15, .none, [⟨61, 3, .ro, 0x0⟩, ⟨58, 3, .ro, 0x0⟩, ⟨40, 8, .rc, 0x0⟩, ⟨32, 8, .ro, 0x0⟩, ⟨16, 16, .rc, 0x0⟩, ⟨8, 8, .ro, 0x0⟩]⟩
def TILE_CART_STATUS_n.state : Fld := ⟨0xF001108, 61, 3⟩
def TILE_CART_STATUS_n.queued : Fld := ⟨0xF001108, 58, 3⟩
def TILE_CART_STATUS_n.overruns : Fld := ⟨0xF001108, 40, 8⟩
def TILE_CART_STATUS_n.reads_out : Fld := ⟨0xF001108, 32, 8⟩
def TILE_CART_STATUS_n.done : Fld := ⟨0xF001108, 16, 16⟩
def TILE_CART_STATUS_n.last_tag : Fld := ⟨0xF001108, 8, 8⟩
/-- TILE_CART_ERR_n of the spec. -/
def TILE_CART_ERR_n : RegRow := ⟨.tile, 0xF001110, 8, 0x20, 15, .none, [⟨63, 1, .w1c, 0x0⟩, ⟨62, 1, .ro, 0x0⟩, ⟨60, 2, .ro, 0x0⟩, ⟨52, 8, .ro, 0x0⟩, ⟨37, 15, .ro, 0x0⟩, ⟨0, 36, .ro, 0x0⟩]⟩
def TILE_CART_ERR_n.valid : Fld := ⟨0xF001110, 63, 1⟩
def TILE_CART_ERR_n.late : Fld := ⟨0xF001110, 62, 1⟩
def TILE_CART_ERR_n.code : Fld := ⟨0xF001110, 60, 2⟩
def TILE_CART_ERR_n.tag : Fld := ⟨0xF001110, 52, 8⟩
def TILE_CART_ERR_n.endpoint : Fld := ⟨0xF001110, 37, 15⟩
def TILE_CART_ERR_n.offset : Fld := ⟨0xF001110, 0, 36⟩
/-- TILE_BARRIER_b of the spec. -/
def TILE_BARRIER_b : RegRow := ⟨.tile, 0xF001600, 64, 0x8, 15, .none, [⟨63, 1, .ro, 0x0⟩, ⟨62, 1, .ro, 0x0⟩, ⟨58, 4, .ro, 0x0⟩, ⟨55, 3, .ro, 0x0⟩, ⟨54, 1, .ro, 0x0⟩, ⟨53, 1, .ro, 0x0⟩, ⟨48, 5, .ro, 0x0⟩, ⟨32, 16, .rc, 0x0⟩]⟩
def TILE_BARRIER_b.valid : Fld := ⟨0xF001600, 63, 1⟩
def TILE_BARRIER_b.member : Fld := ⟨0xF001600, 62, 1⟩
def TILE_BARRIER_b.children : Fld := ⟨0xF001600, 58, 4⟩
def TILE_BARRIER_b.parent : Fld := ⟨0xF001600, 55, 3⟩
def TILE_BARRIER_b.gen : Fld := ⟨0xF001600, 54, 1⟩
def TILE_BARRIER_b.waiting : Fld := ⟨0xF001600, 53, 1⟩
def TILE_BARRIER_b.arrived : Fld := ⟨0xF001600, 48, 5⟩
def TILE_BARRIER_b.releases : Fld := ⟨0xF001600, 32, 16⟩
/-- TILE_MCAST_t of the spec. -/
def TILE_MCAST_t : RegRow := ⟨.tile, 0xF001800, 256, 0x8, 15, .none, [⟨63, 1, .ro, 0x0⟩, ⟨61, 2, .ro, 0x0⟩, ⟨56, 5, .ro, 0x0⟩]⟩
def TILE_MCAST_t.valid : Fld := ⟨0xF001800, 63, 1⟩
def TILE_MCAST_t.vc : Fld := ⟨0xF001800, 61, 2⟩
def TILE_MCAST_t.mask : Fld := ⟨0xF001800, 56, 5⟩
/-- CPL_STATUS of the spec. -/
def CPL_STATUS : RegRow := ⟨.cpl, 0x0, 1, 0x8, 15, .none, [⟨24, 8, .rc, 0x0⟩, ⟨16, 5, .ro, 0x0⟩, ⟨8, 8, .ro, 0xFF⟩, ⟨0, 3, .ro, 0x0⟩]⟩
def CPL_STATUS.discarded : Fld := ⟨0x0, 24, 8⟩
def CPL_STATUS.peer_cpl : Fld := ⟨0x0, 16, 5⟩
def CPL_STATUS.peer_member : Fld := ⟨0x0, 8, 8⟩
def CPL_STATUS.state : Fld := ⟨0x0, 0, 3⟩
/-- CPL_CONFIG of the spec. -/
def CPL_CONFIG : RegRow := ⟨.cpl, 0x8, 1, 0x8, 15, .none, [⟨33, 1, .ro, 0x0⟩, ⟨32, 1, .rw, 0x0⟩, ⟨16, 7, .ro, 0x0⟩, ⟨8, 6, .ro, 0x0⟩, ⟨0, 1, .ro, 0x0⟩]⟩
def CPL_CONFIG.raw_debug : Fld := ⟨0x8, 33, 1⟩
def CPL_CONFIG.raw_loader : Fld := ⟨0x8, 32, 1⟩
def CPL_CONFIG.group_size : Fld := ⟨0x8, 16, 7⟩
def CPL_CONFIG.member : Fld := ⟨0x8, 8, 6⟩
def CPL_CONFIG.used : Fld := ⟨0x8, 0, 1⟩
/-- CPL_LANES of the spec. -/
def CPL_LANES : RegRow := ⟨.cpl, 0x10, 1, 0x8, 15, .none, [⟨56, 8, .rc, 0x0⟩, ⟨48, 1, .ro, 0x0⟩, ⟨44, 4, .ro, 0x0⟩, ⟨40, 4, .ro, 0x0⟩, ⟨39, 1, .ro, 0x0⟩, ⟨0, 17, .ro, 0x0⟩]⟩
def CPL_LANES.weak_lanes : Fld := ⟨0x10, 56, 8⟩
def CPL_LANES.spare_used : Fld := ⟨0x10, 48, 1⟩
def CPL_LANES.spared_lane : Fld := ⟨0x10, 44, 4⟩
def CPL_LANES.mirror : Fld := ⟨0x10, 40, 4⟩
def CPL_LANES.mirroring : Fld := ⟨0x10, 39, 1⟩
def CPL_LANES.good : Fld := ⟨0x10, 0, 17⟩
/-- CPL_ERRORS of the spec. -/
def CPL_ERRORS : RegRow := ⟨.cpl, 0x18, 1, 0x8, 15, .none, [⟨52, 12, .rc, 0x0⟩, ⟨40, 12, .rc, 0x0⟩, ⟨32, 8, .rc, 0x0⟩, ⟨0, 32, .rc, 0x0⟩]⟩
def CPL_ERRORS.retries : Fld := ⟨0x18, 52, 12⟩
def CPL_ERRORS.uncorrectable : Fld := ⟨0x18, 40, 12⟩
def CPL_ERRORS.check_fails : Fld := ⟨0x18, 32, 8⟩
def CPL_ERRORS.corrected : Fld := ⟨0x18, 0, 32⟩
/-- CPL_WINDOW_w of the spec. -/
def CPL_WINDOW_w : RegRow := ⟨.cpl, 0x100, 64, 0x8, 15, .none, [⟨62, 2, .ro, 0x0⟩, ⟨56, 6, .ro, 0x0⟩, ⟨41, 15, .ro, 0x0⟩, ⟨39, 2, .ro, 0x0⟩, ⟨31, 8, .ro, 0x0⟩, ⟨0, 31, .ro, 0x0⟩]⟩
def CPL_WINDOW_w.kind : Fld := ⟨0x100, 62, 2⟩
def CPL_WINDOW_w.member : Fld := ⟨0x100, 56, 6⟩
def CPL_WINDOW_w.endpoint : Fld := ⟨0x100, 41, 15⟩
def CPL_WINDOW_w.space : Fld := ⟨0x100, 39, 2⟩
def CPL_WINDOW_w.number : Fld := ⟨0x100, 31, 8⟩
def CPL_WINDOW_w.base : Fld := ⟨0x100, 0, 31⟩
/-- HEAD_IMAGE_STATUS of the spec. -/
def HEAD_IMAGE_STATUS : RegRow := ⟨.head, 0x160000, 1, 0x8, 15, .none, [⟨56, 8, .ro, 0x0⟩, ⟨48, 8, .ro, 0x0⟩, ⟨40, 8, .ro, 0x0⟩, ⟨24, 16, .ro, 0x0⟩, ⟨3, 1, .ro, 0x0⟩, ⟨0, 3, .ro, 0x0⟩]⟩
def HEAD_IMAGE_STATUS.load_error : Fld := ⟨0x160000, 56, 8⟩
def HEAD_IMAGE_STATUS.logical_coaches : Fld := ⟨0x160000, 48, 8⟩
def HEAD_IMAGE_STATUS.reserves : Fld := ⟨0x160000, 40, 8⟩
def HEAD_IMAGE_STATUS.moved : Fld := ⟨0x160000, 24, 16⟩
def HEAD_IMAGE_STATUS.debug : Fld := ⟨0x160000, 3, 1⟩
def HEAD_IMAGE_STATUS.state : Fld := ⟨0x160000, 0, 3⟩
/-- HEAD_IMAGE_GEN of the spec. -/
def HEAD_IMAGE_GEN : RegRow := ⟨.head, 0x160008, 1, 0x8, 15, .none, [⟨0, 64, .ro, 0x0⟩]⟩
def HEAD_IMAGE_GEN.generation : Fld := ⟨0x160008, 0, 64⟩
/-- HEAD_WEIGHTS_VALID of the spec. -/
def HEAD_WEIGHTS_VALID : RegRow := ⟨.head, 0x160010, 1, 0x8, 15, .none, [⟨0, 64, .ro, 0x0⟩]⟩
def HEAD_WEIGHTS_VALID.valid : Fld := ⟨0x160010, 0, 64⟩
/-- HEAD_IMAGE_CHECKS of the spec. -/
def HEAD_IMAGE_CHECKS : RegRow := ⟨.head, 0x160018, 1, 0x8, 15, .none, [⟨48, 16, .rc, 0x0⟩, ⟨32, 16, .rc, 0x0⟩, ⟨16, 16, .rc, 0x0⟩]⟩
def HEAD_IMAGE_CHECKS.traps : Fld := ⟨0x160018, 48, 16⟩
def HEAD_IMAGE_CHECKS.credit_overflows : Fld := ⟨0x160018, 32, 16⟩
def HEAD_IMAGE_CHECKS.faulted_turns : Fld := ⟨0x160018, 16, 16⟩
/-- HEAD_IMAGE_FAULT of the spec. -/
def HEAD_IMAGE_FAULT : RegRow := ⟨.head, 0x160020, 1, 0x8, 15, .none, [⟨63, 1, .w1c, 0x0⟩, ⟨60, 3, .ro, 0x0⟩, ⟨0, 48, .ro, 0x0⟩]⟩
def HEAD_IMAGE_FAULT.valid : Fld := ⟨0x160020, 63, 1⟩
def HEAD_IMAGE_FAULT.cause : Fld := ⟨0x160020, 60, 3⟩
def HEAD_IMAGE_FAULT.turn : Fld := ⟨0x160020, 0, 48⟩
/-- HEAD_RELOC_INDEX of the spec. -/
def HEAD_RELOC_INDEX : RegRow := ⟨.head, 0x160028, 1, 0x8, 15, .none, [⟨8, 8, .rw, 0x0⟩, ⟨0, 8, .rw, 0x0⟩]⟩
def HEAD_RELOC_INDEX.coach : Fld := ⟨0x160028, 8, 8⟩
def HEAD_RELOC_INDEX.tile : Fld := ⟨0x160028, 0, 8⟩
/-- HEAD_RELOC_ENTRY of the spec. -/
def HEAD_RELOC_ENTRY : RegRow := ⟨.head, 0x160030, 1, 0x8, 15, .reloc, [⟨63, 1, .ro, 0x0⟩, ⟨62, 1, .ro, 0x0⟩, ⟨48, 6, .ro, 0x0⟩, ⟨40, 8, .ro, 0x0⟩, ⟨24, 6, .ro, 0x0⟩, ⟨16, 8, .ro, 0x0⟩]⟩
def HEAD_RELOC_ENTRY.valid : Fld := ⟨0x160030, 63, 1⟩
def HEAD_RELOC_ENTRY.moved : Fld := ⟨0x160030, 62, 1⟩
def HEAD_RELOC_ENTRY.nominal_place : Fld := ⟨0x160030, 48, 6⟩
def HEAD_RELOC_ENTRY.nominal_site : Fld := ⟨0x160030, 40, 8⟩
def HEAD_RELOC_ENTRY.place : Fld := ⟨0x160030, 24, 6⟩
def HEAD_RELOC_ENTRY.site : Fld := ⟨0x160030, 16, 8⟩
/-- TILE_HAZ_STATUS of the spec. -/
def TILE_HAZ_STATUS : RegRow := ⟨.tile, 0xF000A00, 1, 0x8, 15, .none, [⟨63, 1, .w1c, 0x0⟩, ⟨62, 1, .wo, 0x0⟩, ⟨0, 5, .ro, 0x0⟩]⟩
def TILE_HAZ_STATUS.overflow : Fld := ⟨0xF000A00, 63, 1⟩
def TILE_HAZ_STATUS.clear : Fld := ⟨0xF000A00, 62, 1⟩
def TILE_HAZ_STATUS.entries : Fld := ⟨0xF000A00, 0, 5⟩
/-- TILE_HAZ_COUNT of the spec. -/
def TILE_HAZ_COUNT : RegRow := ⟨.tile, 0xF000A08, 1, 0x8, 15, .none, [⟨48, 16, .rc, 0x0⟩, ⟨32, 16, .rc, 0x0⟩, ⟨16, 16, .rc, 0x0⟩, ⟨0, 16, .rc, 0x0⟩]⟩
def TILE_HAZ_COUNT.mcast : Fld := ⟨0xF000A08, 48, 16⟩
def TILE_HAZ_COUNT.contention : Fld := ⟨0xF000A08, 32, 16⟩
def TILE_HAZ_COUNT.early_read : Fld := ⟨0xF000A08, 16, 16⟩
def TILE_HAZ_COUNT.same_row : Fld := ⟨0xF000A08, 0, 16⟩
/-- TILE_HAZ_LOG_n of the spec. -/
def TILE_HAZ_LOG_n : RegRow := ⟨.tile, 0xF000A10, 31, 0x10, 15, .none, [⟨63, 1, .ro, 0x0⟩, ⟨60, 3, .ro, 0x0⟩, ⟨40, 20, .ro, 0x0⟩, ⟨36, 4, .ro, 0x0⟩, ⟨0, 36, .ro, 0x0⟩]⟩
def TILE_HAZ_LOG_n.valid : Fld := ⟨0xF000A10, 63, 1⟩
def TILE_HAZ_LOG_n.kind : Fld := ⟨0xF000A10, 60, 3⟩
def TILE_HAZ_LOG_n.offset : Fld := ⟨0xF000A10, 40, 20⟩
def TILE_HAZ_LOG_n.port : Fld := ⟨0xF000A10, 36, 4⟩
def TILE_HAZ_LOG_n.address : Fld := ⟨0xF000A10, 0, 36⟩
/-- TILE_HAZ_AUX_n of the spec. -/
def TILE_HAZ_AUX_n : RegRow := ⟨.tile, 0xF000A18, 31, 0x10, 15, .none, [⟨48, 16, .ro, 0x0⟩, ⟨0, 48, .ro, 0x0⟩]⟩
def TILE_HAZ_AUX_n.other : Fld := ⟨0xF000A18, 48, 16⟩
def TILE_HAZ_AUX_n.turn : Fld := ⟨0xF000A18, 0, 48⟩
/-- CTL_PORT_STATUS of the spec. -/
def CTL_PORT_STATUS : RegRow := ⟨.head, 0x170000, 1, 0x8, 15, .none, [⟨48, 16, .ro, 0x0⟩, ⟨28, 20, .ro, 0x0⟩, ⟨8, 4, .ro, 0x0⟩, ⟨4, 1, .ro, 0x0⟩, ⟨2, 2, .ro, 0x0⟩, ⟨0, 2, .ro, 0x0⟩]⟩
def CTL_PORT_STATUS.long_cmd : Fld := ⟨0x170000, 48, 16⟩
def CTL_PORT_STATUS.elapsed : Fld := ⟨0x170000, 28, 20⟩
def CTL_PORT_STATUS.lanes_locked : Fld := ⟨0x170000, 8, 4⟩
def CTL_PORT_STATUS.key_phase : Fld := ⟨0x170000, 4, 1⟩
def CTL_PORT_STATUS.role : Fld := ⟨0x170000, 2, 2⟩
def CTL_PORT_STATUS.link : Fld := ⟨0x170000, 0, 2⟩
/-- CTL_PORT_ERRORS of the spec. -/
def CTL_PORT_ERRORS : RegRow := ⟨.head, 0x170008, 1, 0x8, 15, .none, [⟨56, 8, .rc, 0x0⟩, ⟨48, 8, .rc, 0x0⟩, ⟨32, 16, .rc, 0x0⟩, ⟨0, 32, .rc, 0x0⟩]⟩
def CTL_PORT_ERRORS.bad_records : Fld := ⟨0x170008, 56, 8⟩
def CTL_PORT_ERRORS.auth_fail : Fld := ⟨0x170008, 48, 8⟩
def CTL_PORT_ERRORS.fec_uncorrectable : Fld := ⟨0x170008, 32, 16⟩
def CTL_PORT_ERRORS.fec_corrected : Fld := ⟨0x170008, 0, 32⟩
/-- CTL_TELEM_CFG of the spec. -/
def CTL_TELEM_CFG : RegRow := ⟨.head, 0x170010, 1, 0x8, 15, .none, [⟨0, 16, .rw, 0x0⟩]⟩
def CTL_TELEM_CFG.period : Fld := ⟨0x170010, 0, 16⟩
/-- CTL_TELEM_ADDR_n of the spec. -/
def CTL_TELEM_ADDR_n : RegRow := ⟨.head, 0x170100, 32, 0x8, 15, .none, [⟨63, 1, .rw, 0x0⟩, ⟨0, 48, .rw, 0x0⟩]⟩
def CTL_TELEM_ADDR_n.enable : Fld := ⟨0x170100, 63, 1⟩
def CTL_TELEM_ADDR_n.address : Fld := ⟨0x170100, 0, 48⟩
/-- MBX_SEND of the spec. -/
def MBX_SEND : RegRow := ⟨.head, 0x178000, 56, 0x100, 15, .none, [⟨0, 64, .wo, 0x0⟩]⟩
def MBX_SEND.word : Fld := ⟨0x178000, 0, 64⟩
/-- MBX_RECV of the spec. -/
def MBX_RECV : RegRow := ⟨.head, 0x178008, 56, 0x100, 15, .none, [⟨0, 64, .ro, 0x0⟩]⟩
def MBX_RECV.word : Fld := ⟨0x178008, 0, 64⟩
/-- MBX_STATUS of the spec. -/
def MBX_STATUS : RegRow := ⟨.head, 0x178010, 56, 0x100, 15, .none, [⟨20, 2, .ro, 0x0⟩, ⟨18, 1, .w1c, 0x0⟩, ⟨17, 1, .w1c, 0x0⟩, ⟨16, 1, .w1c, 0x0⟩, ⟨12, 1, .ro, 0x0⟩, ⟨8, 4, .ro, 0x0⟩, ⟨4, 1, .ro, 0x0⟩, ⟨0, 4, .ro, 0x0⟩]⟩
def MBX_STATUS.peer : Fld := ⟨0x178010, 20, 2⟩
def MBX_STATUS.underrun : Fld := ⟨0x178010, 18, 1⟩
def MBX_STATUS.timeout : Fld := ⟨0x178010, 17, 1⟩
def MBX_STATUS.collision : Fld := ⟨0x178010, 16, 1⟩
def MBX_STATUS.out_full : Fld := ⟨0x178010, 12, 1⟩
def MBX_STATUS.out_count : Fld := ⟨0x178010, 8, 4⟩
def MBX_STATUS.in_full : Fld := ⟨0x178010, 4, 1⟩
def MBX_STATUS.in_count : Fld := ⟨0x178010, 0, 4⟩
/-- MBX_BELL of the spec. -/
def MBX_BELL : RegRow := ⟨.head, 0x178018, 56, 0x100, 15, .none, [⟨0, 32, .w1c, 0x0⟩]⟩
def MBX_BELL.bell : Fld := ⟨0x178018, 0, 32⟩
/-- MBX_RING of the spec. -/
def MBX_RING : RegRow := ⟨.head, 0x178020, 56, 0x100, 15, .none, [⟨0, 32, .wo, 0x0⟩]⟩
def MBX_RING.ring : Fld := ⟨0x178020, 0, 32⟩
/-- MBX_MASK of the spec. -/
def MBX_MASK : RegRow := ⟨.head, 0x178028, 56, 0x100, 15, .none, [⟨0, 32, .rw, 0x0⟩]⟩
def MBX_MASK.mask : Fld := ⟨0x178028, 0, 32⟩
/-- MBX_CTRL of the spec. -/
def MBX_CTRL : RegRow := ⟨.head, 0x178030, 56, 0x100, 15, .none, [⟨32, 1, .wo, 0x0⟩, ⟨0, 20, .rw, 0xF4240⟩]⟩
def MBX_CTRL.flush : Fld := ⟨0x178030, 32, 1⟩
def MBX_CTRL.timeout : Fld := ⟨0x178030, 0, 20⟩
/-- HEAD_REPAIR_STATUS of the spec. -/
def HEAD_REPAIR_STATUS : RegRow := ⟨.head, 0x180000, 1, 0x8, 15, .none, [⟨60, 4, .ro, 0x0⟩, ⟨52, 8, .ro, 0x0⟩, ⟨48, 4, .ro, 0x0⟩, ⟨0, 48, .ro, 0x0⟩]⟩
def HEAD_REPAIR_STATUS.state : Fld := ⟨0x180000, 60, 4⟩
def HEAD_REPAIR_STATUS.reserve_free : Fld := ⟨0x180000, 52, 8⟩
def HEAD_REPAIR_STATUS.reruns : Fld := ⟨0x180000, 48, 4⟩
def HEAD_REPAIR_STATUS.last_turn : Fld := ⟨0x180000, 0, 48⟩
/-- HEAD_REPAIR_COUNTS of the spec. -/
def HEAD_REPAIR_COUNTS : RegRow := ⟨.head, 0x180008, 1, 0x8, 15, .none, [⟨48, 16, .rc, 0x0⟩, ⟨40, 8, .rc, 0x0⟩, ⟨24, 16, .rc, 0x0⟩, ⟨8, 16, .rc, 0x0⟩, ⟨0, 8, .rc, 0x0⟩]⟩
def HEAD_REPAIR_COUNTS.tiles : Fld := ⟨0x180008, 48, 16⟩
def HEAD_REPAIR_COUNTS.coaches : Fld := ⟨0x180008, 40, 8⟩
def HEAD_REPAIR_COUNTS.recovered : Fld := ⟨0x180008, 24, 16⟩
def HEAD_REPAIR_COUNTS.voids : Fld := ⟨0x180008, 8, 16⟩
def HEAD_REPAIR_COUNTS.failures : Fld := ⟨0x180008, 0, 8⟩
/-- HEAD_DEFECT_INDEX of the spec. -/
def HEAD_DEFECT_INDEX : RegRow := ⟨.head, 0x180010, 1, 0x8, 15, .none, [⟨32, 13, .ro, 0x0⟩, ⟨0, 13, .rw, 0x0⟩]⟩
def HEAD_DEFECT_INDEX.entries : Fld := ⟨0x180010, 32, 13⟩
def HEAD_DEFECT_INDEX.index : Fld := ⟨0x180010, 0, 13⟩
/-- HEAD_DEFECT_ENTRY of the spec. -/
def HEAD_DEFECT_ENTRY : RegRow := ⟨.head, 0x180018, 1, 0x8, 15, .defect, [⟨0, 64, .ro, 0x0⟩]⟩
def HEAD_DEFECT_ENTRY.entry : Fld := ⟨0x180018, 0, 64⟩
/-- HEAD_LOG_INDEX of the spec. -/
def HEAD_LOG_INDEX : RegRow := ⟨.head, 0x180020, 1, 0x8, 15, .none, [⟨0, 12, .rw, 0x0⟩]⟩
def HEAD_LOG_INDEX.age : Fld := ⟨0x180020, 0, 12⟩
/-- HEAD_LOG_WORD_n of the spec. -/
def HEAD_LOG_WORD_n : RegRow := ⟨.head, 0x180028, 4, 0x8, 15, .log, [⟨0, 64, .ro, 0x0⟩]⟩
def HEAD_LOG_WORD_n.word : Fld := ⟨0x180028, 0, 64⟩
/-- GRD_WATCHDOG_i of the spec. -/
def GRD_WATCHDOG_i : RegRow := ⟨.head, 0x180100, 4, 0x8, 15, .none, [⟨62, 2, .ro, 0x0⟩, ⟨56, 2, .ro, 0x0⟩, ⟨48, 8, .rc, 0x0⟩, ⟨0, 48, .ro, 0x0⟩]⟩
def GRD_WATCHDOG_i.state : Fld := ⟨0x180100, 62, 2⟩
def GRD_WATCHDOG_i.watcher : Fld := ⟨0x180100, 56, 2⟩
def GRD_WATCHDOG_i.expiries : Fld := ⟨0x180100, 48, 8⟩
def GRD_WATCHDOG_i.last_expiry : Fld := ⟨0x180100, 0, 48⟩
/-- PWR_PLAN of the spec. -/
def PWR_PLAN : RegRow := ⟨.head, 0x190000, 1, 0x8, 15, .none, [⟨48, 16, .ro, 0x0⟩, ⟨32, 16, .ro, 0x0⟩, ⟨16, 16, .ro, 0x0⟩, ⟨8, 8, .rc, 0x0⟩, ⟨0, 8, .ro, 0x0⟩]⟩
def PWR_PLAN.budget : Fld := ⟨0x190000, 48, 16⟩
def PWR_PLAN.p_pre : Fld := ⟨0x190000, 32, 16⟩
def PWR_PLAN.rush_budget : Fld := ⟨0x190000, 16, 16⟩
def PWR_PLAN.refused : Fld := ⟨0x190000, 8, 8⟩
def PWR_PLAN.edp : Fld := ⟨0x190000, 0, 8⟩
/-- PWR_ROUND_ENERGY of the spec. -/
def PWR_ROUND_ENERGY : RegRow := ⟨.head, 0x190008, 1, 0x8, 15, .none, [⟨0, 40, .ro, 0x0⟩]⟩
def PWR_ROUND_ENERGY.round_energy : Fld := ⟨0x190008, 0, 40⟩
/-- PWR_GOV of the spec. -/
def PWR_GOV : RegRow := ⟨.head, 0x190010, 1, 0x8, 15, .none, [⟨55, 7, .ro, 0x5F⟩, ⟨48, 7, .rw, 0x5F⟩, ⟨41, 7, .ro, 0x5F⟩, ⟨34, 7, .ro, 0x5F⟩, ⟨16, 16, .rc, 0x0⟩, ⟨0, 16, .ro, 0x0⟩]⟩
def PWR_GOV.cap_active : Fld := ⟨0x190010, 55, 7⟩
def PWR_GOV.step_cap : Fld := ⟨0x190010, 48, 7⟩
def PWR_GOV.gov_step : Fld := ⟨0x190010, 41, 7⟩
def PWR_GOV.derate_step : Fld := ⟨0x190010, 34, 7⟩
def PWR_GOV.power_holds : Fld := ⟨0x190010, 16, 16⟩
def PWR_GOV.avg_power : Fld := ⟨0x190010, 0, 16⟩
/-- PWR_COACH_ON of the spec. -/
def PWR_COACH_ON : RegRow := ⟨.head, 0x190018, 1, 0x8, 15, .none, [⟨0, 64, .rw, 0x0⟩]⟩
def PWR_COACH_ON.on : Fld := ⟨0x190018, 0, 64⟩
/-- PWR_COACH_ACTIVE of the spec. -/
def PWR_COACH_ACTIVE : RegRow := ⟨.head, 0x190020, 1, 0x8, 15, .none, [⟨0, 64, .ro, 0x0⟩]⟩
def PWR_COACH_ACTIVE.on : Fld := ⟨0x190020, 0, 64⟩
/-- PWR_DOM_INDEX of the spec. -/
def PWR_DOM_INDEX : RegRow := ⟨.head, 0x190028, 1, 0x8, 15, .none, [⟨0, 9, .rw, 0x0⟩]⟩
def PWR_DOM_INDEX.domain : Fld := ⟨0x190028, 0, 9⟩
/-- PWR_DOM_STATE of the spec. -/
def PWR_DOM_STATE : RegRow := ⟨.head, 0x190030, 1, 0x8, 15, .domain, [⟨61, 3, .ro, 0x0⟩, ⟨59, 2, .ro, 0x0⟩, ⟨32, 16, .rc, 0x0⟩, ⟨16, 16, .rc, 0x0⟩, ⟨0, 12, .ro, 0x0⟩]⟩
def PWR_DOM_STATE.state : Fld := ⟨0x190030, 61, 3⟩
def PWR_DOM_STATE.stage : Fld := ⟨0x190030, 59, 2⟩
def PWR_DOM_STATE.switch_ons : Fld := ⟨0x190030, 32, 16⟩
def PWR_DOM_STATE.droops : Fld := ⟨0x190030, 16, 16⟩
def PWR_DOM_STATE.vnow : Fld := ⟨0x190030, 0, 12⟩
/-- PWR_DOM_VMIN of the spec. -/
def PWR_DOM_VMIN : RegRow := ⟨.head, 0x190038, 1, 0x8, 15, .domain, [⟨18, 7, .ro, 0x0⟩, ⟨0, 12, .rc, 0xFFF⟩]⟩
def PWR_DOM_VMIN.spoke_cycle : Fld := ⟨0x190038, 18, 7⟩
def PWR_DOM_VMIN.vmin : Fld := ⟨0x190038, 0, 12⟩
/-- PWR_DOM_VMIN_TIME of the spec. -/
def PWR_DOM_VMIN_TIME : RegRow := ⟨.head, 0x190040, 1, 0x8, 15, .domain, [⟨0, 64, .ro, 0x0⟩]⟩
def PWR_DOM_VMIN_TIME.axle : Fld := ⟨0x190040, 0, 64⟩
/-- PWR_RAIL_INDEX of the spec. -/
def PWR_RAIL_INDEX : RegRow := ⟨.head, 0x190048, 1, 0x8, 15, .none, [⟨0, 8, .rw, 0x0⟩]⟩
def PWR_RAIL_INDEX.rail : Fld := ⟨0x190048, 0, 8⟩
/-- PWR_RAIL_STATUS of the spec. -/
def PWR_RAIL_STATUS : RegRow := ⟨.head, 0x190050, 1, 0x8, 15, .rail, [⟨60, 1, .ro, 0x0⟩, ⟨59, 1, .ro, 0x0⟩, ⟨58, 1, .ro, 0x0⟩, ⟨57, 1, .ro, 0x0⟩, ⟨48, 4, .ro, 0x0⟩, ⟨44, 4, .ro, 0x0⟩, ⟨28, 16, .ro, 0x0⟩, ⟨16, 12, .ro, 0x0⟩, ⟨0, 12, .ro, 0x0⟩]⟩
def PWR_RAIL_STATUS.fuse_open : Fld := ⟨0x190050, 60, 1⟩
def PWR_RAIL_STATUS.overcurrent : Fld := ⟨0x190050, 59, 1⟩
def PWR_RAIL_STATUS.input_uv : Fld := ⟨0x190050, 58, 1⟩
def PWR_RAIL_STATUS.bus_fault : Fld := ⟨0x190050, 57, 1⟩
def PWR_RAIL_STATUS.phases_fitted : Fld := ⟨0x190050, 48, 4⟩
def PWR_RAIL_STATUS.phases_good : Fld := ⟨0x190050, 44, 4⟩
def PWR_RAIL_STATUS.current : Fld := ⟨0x190050, 28, 16⟩
def PWR_RAIL_STATUS.set_mv : Fld := ⟨0x190050, 16, 12⟩
def PWR_RAIL_STATUS.read_mv : Fld := ⟨0x190050, 0, 12⟩
/-- THM_STATUS of the spec. -/
def THM_STATUS : RegRow := ⟨.head, 0x1A0000, 1, 0x8, 15, .none, [⟨61, 3, .ro, 0x0⟩, ⟨54, 7, .ro, 0x5F⟩, ⟨48, 6, .ro, 0x0⟩, ⟨32, 12, .ro, 0x0⟩]⟩
def THM_STATUS.state : Fld := ⟨0x1A0000, 61, 3⟩
def THM_STATUS.therm_step : Fld := ⟨0x1A0000, 54, 7⟩
def THM_STATUS.hot_coach : Fld := ⟨0x1A0000, 48, 6⟩
def THM_STATUS.hottest : Fld := ⟨0x1A0000, 32, 12⟩
/-- THM_CTRL of the spec. -/
def THM_CTRL : RegRow := ⟨.head, 0x1A0008, 1, 0x8, 15, .none, [⟨16, 8, .rw, 0x4⟩, ⟨8, 1, .rw, 0x1⟩, ⟨0, 8, .rw, 0x2D⟩]⟩
def THM_CTRL.rotate_hours : Fld := ⟨0x1A0008, 16, 8⟩
def THM_CTRL.warm : Fld := ⟨0x1A0008, 8, 1⟩
def THM_CTRL.warm_min : Fld := ⟨0x1A0008, 0, 8⟩
/-- THM_COOL of the spec. -/
def THM_COOL : RegRow := ⟨.head, 0x1A0010, 1, 0x8, 15, .none, [⟨48, 16, .rc, 0x0⟩, ⟨40, 8, .rc, 0x0⟩, ⟨39, 1, .ro, 0x0⟩, ⟨34, 2, .ro, 0x0⟩, ⟨12, 12, .ro, 0x0⟩, ⟨0, 12, .ro, 0x0⟩]⟩
def THM_COOL.frames : Fld := ⟨0x1A0010, 48, 16⟩
def THM_COOL.bad_frames : Fld := ⟨0x1A0010, 40, 8⟩
def THM_COOL.lost : Fld := ⟨0x1A0010, 39, 1⟩
def THM_COOL.flow : Fld := ⟨0x1A0010, 34, 2⟩
def THM_COOL.outlet : Fld := ⟨0x1A0010, 12, 12⟩
def THM_COOL.inlet : Fld := ⟨0x1A0010, 0, 12⟩
/-- THM_COUNTS of the spec. -/
def THM_COUNTS : RegRow := ⟨.head, 0x1A0018, 1, 0x8, 15, .none, [⟨56, 8, .rc, 0x0⟩, ⟨48, 8, .rc, 0x0⟩, ⟨40, 8, .rc, 0x0⟩, ⟨32, 8, .rc, 0x0⟩, ⟨24, 8, .rc, 0x0⟩, ⟨16, 8, .rc, 0x0⟩]⟩
def THM_COUNTS.fast_asserts : Fld := ⟨0x1A0018, 56, 8⟩
def THM_COUNTS.slope_trips : Fld := ⟨0x1A0018, 48, 8⟩
def THM_COUNTS.holds : Fld := ⟨0x1A0018, 40, 8⟩
def THM_COUNTS.skews : Fld := ⟨0x1A0018, 32, 8⟩
def THM_COUNTS.exclusions : Fld := ⟨0x1A0018, 24, 8⟩
def THM_COUNTS.rotations : Fld := ⟨0x1A0018, 16, 8⟩
/-- THM_SENSOR_INDEX of the spec. -/
def THM_SENSOR_INDEX : RegRow := ⟨.head, 0x1A0020, 1, 0x8, 15, .none, [⟨0, 9, .rw, 0x0⟩]⟩
def THM_SENSOR_INDEX.sensor : Fld := ⟨0x1A0020, 0, 9⟩
/-- THM_SENSOR of the spec. -/
def THM_SENSOR : RegRow := ⟨.head, 0x1A0028, 1, 0x8, 15, .sensor, [⟨62, 2, .ro, 0x0⟩, ⟨32, 12, .rc, 0x0⟩, ⟨0, 12, .ro, 0x0⟩]⟩
def THM_SENSOR.state : Fld := ⟨0x1A0028, 62, 2⟩
def THM_SENSOR.peak : Fld := ⟨0x1A0028, 32, 12⟩
def THM_SENSOR.reading : Fld := ⟨0x1A0028, 0, 12⟩
/-- CLK_STATUS of the spec. -/
def CLK_STATUS : RegRow := ⟨.head, 0x1B0000, 1, 0x8, 15, .none, [⟨60, 4, .ro, 0x0⟩, ⟨32, 17, .ro, 0x0⟩, ⟨8, 1, .ro, 0x0⟩, ⟨5, 1, .ro, 0x0⟩, ⟨4, 1, .ro, 0x0⟩, ⟨3, 1, .ro, 0x0⟩, ⟨2, 1, .ro, 0x0⟩, ⟨1, 1, .ro, 0x0⟩, ⟨0, 1, .ro, 0x1⟩]⟩
def CLK_STATUS.osc_dly : Fld := ⟨0x1B0000, 60, 4⟩
def CLK_STATUS.refclk_khz : Fld := ⟨0x1B0000, 32, 17⟩
def CLK_STATUS.refclk_fail : Fld := ⟨0x1B0000, 8, 1⟩
def CLK_STATUS.axle_ready : Fld := ⟨0x1B0000, 5, 1⟩
def CLK_STATUS.port_ready : Fld := ⟨0x1B0000, 4, 1⟩
def CLK_STATUS.guard_ready : Fld := ⟨0x1B0000, 3, 1⟩
def CLK_STATUS.ring_ready : Fld := ⟨0x1B0000, 2, 1⟩
def CLK_STATUS.refclk_ready : Fld := ⟨0x1B0000, 1, 1⟩
def CLK_STATUS.seco_ready : Fld := ⟨0x1B0000, 0, 1⟩
/-- CLK_DOM_INDEX of the spec. -/
def CLK_DOM_INDEX : RegRow := ⟨.head, 0x1B0008, 1, 0x8, 15, .none, [⟨0, 5, .rw, 0x0⟩]⟩
def CLK_DOM_INDEX.domain : Fld := ⟨0x1B0008, 0, 5⟩
/-- CLK_DOM_CTRL of the spec. -/
def CLK_DOM_CTRL : RegRow := ⟨.head, 0x1B0010, 1, 0x8, 15, .clkDom, [⟨4, 1, .wo, 0x0⟩, ⟨0, 4, .wo, 0x0⟩]⟩
def CLK_DOM_CTRL.source : Fld := ⟨0x1B0010, 4, 1⟩
def CLK_DOM_CTRL.op : Fld := ⟨0x1B0010, 0, 4⟩
/-- CLK_DOM_STATUS of the spec. -/
def CLK_DOM_STATUS : RegRow := ⟨.head, 0x1B0018, 1, 0x8, 15, .clkDom, [⟨63, 1, .ro, 0x0⟩, ⟨60, 3, .ro, 0x0⟩, ⟨59, 1, .ro, 0x0⟩, ⟨40, 8, .rc, 0x0⟩, ⟨8, 8, .ro, 0x0⟩, ⟨0, 8, .ro, 0x0⟩]⟩
def CLK_DOM_STATUS.gated : Fld := ⟨0x1B0018, 63, 1⟩
def CLK_DOM_STATUS.result : Fld := ⟨0x1B0018, 60, 3⟩
def CLK_DOM_STATUS.on_seco : Fld := ⟨0x1B0018, 59, 1⟩
def CLK_DOM_STATUS.refusals : Fld := ⟨0x1B0018, 40, 8⟩
def CLK_DOM_STATUS.instances : Fld := ⟨0x1B0018, 8, 8⟩
def CLK_DOM_STATUS.ready : Fld := ⟨0x1B0018, 0, 8⟩
/-- EVT_CTRL of the spec. -/
def EVT_CTRL : RegRow := ⟨.head, 0x1C0000, 1, 0x8, 15, .none, [⟨36, 1, .ro, 0x0⟩, ⟨35, 1, .ro, 0x0⟩, ⟨27, 8, .ro, 0x0⟩, ⟨26, 1, .ro, 0x0⟩, ⟨18, 8, .ro, 0x0⟩, ⟨17, 1, .ro, 0x0⟩, ⟨9, 8, .ro, 0x0⟩, ⟨8, 1, .ro, 0x0⟩, ⟨0, 8, .ro, 0x0⟩]⟩
def EVT_CTRL.disable : Fld := ⟨0x1C0000, 36, 1⟩
def EVT_CTRL.svc3_valid : Fld := ⟨0x1C0000, 35, 1⟩
def EVT_CTRL.svc3 : Fld := ⟨0x1C0000, 27, 8⟩
def EVT_CTRL.svc2_valid : Fld := ⟨0x1C0000, 26, 1⟩
def EVT_CTRL.svc2 : Fld := ⟨0x1C0000, 18, 8⟩
def EVT_CTRL.svc1_valid : Fld := ⟨0x1C0000, 17, 1⟩
def EVT_CTRL.svc1 : Fld := ⟨0x1C0000, 9, 8⟩
def EVT_CTRL.svc0_valid : Fld := ⟨0x1C0000, 8, 1⟩
def EVT_CTRL.svc0 : Fld := ⟨0x1C0000, 0, 8⟩
/-- EVT_STREAM of the spec. -/
def EVT_STREAM : RegRow := ⟨.head, 0x1C0008, 1, 0x8, 15, .none, [⟨32, 32, .rc, 0x0⟩, ⟨0, 17, .ro, 0x0⟩]⟩
def EVT_STREAM.lost : Fld := ⟨0x1C0008, 32, 32⟩
def EVT_STREAM.held : Fld := ⟨0x1C0008, 0, 17⟩
/-- EVT_SRC_n of the spec. -/
def EVT_SRC_n : RegRow := ⟨.head, 0x1C1000, 256, 0x8, 15, .none, [⟨63, 1, .ro, 0x0⟩, ⟨62, 1, .ro, 0x0⟩, ⟨60, 2, .ro, 0x0⟩, ⟨59, 1, .ro, 0x0⟩, ⟨58, 1, .rw, 0x1⟩, ⟨0, 8, .rc, 0x0⟩]⟩
def EVT_SRC_n.pending : Fld := ⟨0x1C1000, 63, 1⟩
def EVT_SRC_n.in_service : Fld := ⟨0x1C1000, 62, 1⟩
def EVT_SRC_n.guard : Fld := ⟨0x1C1000, 60, 2⟩
def EVT_SRC_n.mask : Fld := ⟨0x1C1000, 59, 1⟩
def EVT_SRC_n.stream : Fld := ⟨0x1C1000, 58, 1⟩
def EVT_SRC_n.count : Fld := ⟨0x1C1000, 0, 8⟩
/-- SBX_STATUS of the spec. -/
def SBX_STATUS : RegRow := ⟨.sbx, 0x400000000000, 1, 0x8, 15, .none, [⟨62, 2, .ro, 0x0⟩, ⟨61, 1, .ro, 0x0⟩, ⟨60, 1, .ro, 0x0⟩, ⟨59, 1, .ro, 0x0⟩, ⟨56, 3, .ro, 0x0⟩, ⟨48, 8, .rc, 0x0⟩, ⟨32, 16, .ro, 0x0⟩, ⟨0, 32, .ro, 0x0⟩]⟩
def SBX_STATUS.mode : Fld := ⟨0x400000000000, 62, 2⟩
def SBX_STATUS.claimed : Fld := ⟨0x400000000000, 61, 1⟩
def SBX_STATUS.debug_active : Fld := ⟨0x400000000000, 60, 1⟩
def SBX_STATUS.boot_slot : Fld := ⟨0x400000000000, 59, 1⟩
def SBX_STATUS.alarm : Fld := ⟨0x400000000000, 56, 3⟩
def SBX_STATUS.hs_fail : Fld := ⟨0x400000000000, 48, 8⟩
def SBX_STATUS.svn : Fld := ⟨0x400000000000, 32, 16⟩
def SBX_STATUS.reports : Fld := ⟨0x400000000000, 0, 32⟩
/-- SBX_POLICY of the spec. -/
def SBX_POLICY : RegRow := ⟨.sbx, 0x400000000008, 1, 0x8, 15, .none, [⟨3, 1, .rw, 0x0⟩, ⟨2, 1, .rw, 0x0⟩, ⟨1, 1, .rw, 0x1⟩, ⟨0, 1, .rw, 0x1⟩]⟩
def SBX_POLICY.raw_debug : Fld := ⟨0x400000000008, 3, 1⟩
def SBX_POLICY.debug : Fld := ⟨0x400000000008, 2, 1⟩
def SBX_POLICY.allow_debug : Fld := ⟨0x400000000008, 1, 1⟩
def SBX_POLICY.allow_service : Fld := ⟨0x400000000008, 0, 1⟩
/-- SBX_KEY_CTRL of the spec. -/
def SBX_KEY_CTRL : RegRow := ⟨.sbx, 0x400000000010, 1, 0x8, 15, .none, [⟨8, 8, .wo, 0x0⟩, ⟨0, 3, .wo, 0x0⟩]⟩
def SBX_KEY_CTRL.op : Fld := ⟨0x400000000010, 8, 8⟩
def SBX_KEY_CTRL.slot : Fld := ⟨0x400000000010, 0, 3⟩
/-- SBX_KEY_STATE of the spec. -/
def SBX_KEY_STATE : RegRow := ⟨.sbx, 0x400000000018, 1, 0x8, 15, .none, [⟨60, 4, .ro, 0x0⟩, ⟨0, 8, .ro, 0x0⟩]⟩
def SBX_KEY_STATE.result : Fld := ⟨0x400000000018, 60, 4⟩
def SBX_KEY_STATE.occupied : Fld := ⟨0x400000000018, 0, 8⟩
/-- HEAD_BOOT_STATUS of the spec. -/
def HEAD_BOOT_STATUS : RegRow := ⟨.head, 0x1D0000, 1, 0x8, 15, .none, [⟨60, 4, .ro, 0x0⟩, ⟨56, 4, .ro, 0x0⟩, ⟨54, 2, .ro, 0x0⟩, ⟨53, 1, .ro, 0x0⟩, ⟨40, 8, .ro, 0x0⟩, ⟨32, 8, .ro, 0x0⟩, ⟨24, 8, .ro, 0x0⟩, ⟨0, 24, .ro, 0x0⟩]⟩
def HEAD_BOOT_STATUS.step : Fld := ⟨0x1D0000, 60, 4⟩
def HEAD_BOOT_STATUS.halt : Fld := ⟨0x1D0000, 56, 4⟩
def HEAD_BOOT_STATUS.reset_kind : Fld := ⟨0x1D0000, 54, 2⟩
def HEAD_BOOT_STATUS.axle_free : Fld := ⟨0x1D0000, 53, 1⟩
def HEAD_BOOT_STATUS.bist_fail : Fld := ⟨0x1D0000, 40, 8⟩
def HEAD_BOOT_STATUS.towers_failed : Fld := ⟨0x1D0000, 32, 8⟩
def HEAD_BOOT_STATUS.couplings_up : Fld := ⟨0x1D0000, 24, 8⟩
def HEAD_BOOT_STATUS.ready_ms : Fld := ⟨0x1D0000, 0, 24⟩
/-- HEAD_COACH_RESET of the spec. -/
def HEAD_COACH_RESET : RegRow := ⟨.head, 0x1D0008, 1, 0x8, 15, .none, [⟨63, 1, .ro, 0x0⟩, ⟨61, 2, .ro, 0x0⟩, ⟨8, 1, .wo, 0x0⟩, ⟨0, 6, .rw, 0x0⟩]⟩
def HEAD_COACH_RESET.busy : Fld := ⟨0x1D0008, 63, 1⟩
def HEAD_COACH_RESET.result : Fld := ⟨0x1D0008, 61, 2⟩
def HEAD_COACH_RESET.go : Fld := ⟨0x1D0008, 8, 1⟩
def HEAD_COACH_RESET.coach : Fld := ⟨0x1D0008, 0, 6⟩
/-- HEAD_ATB_SEL_n of the spec. -/
def HEAD_ATB_SEL_n : RegRow := ⟨.head, 0x1E0000, 8, 0x8, 15, .none, [⟨63, 1, .w1c, 0x0⟩, ⟨62, 1, .ro, 0x0⟩, ⟨16, 3, .rw, 0x0⟩, ⟨8, 6, .rw, 0x3F⟩, ⟨0, 5, .rw, 0x0⟩]⟩
def HEAD_ATB_SEL_n.refused : Fld := ⟨0x1E0000, 63, 1⟩
def HEAD_ATB_SEL_n.connected : Fld := ⟨0x1E0000, 62, 1⟩
def HEAD_ATB_SEL_n.unit : Fld := ⟨0x1E0000, 16, 3⟩
def HEAD_ATB_SEL_n.bus : Fld := ⟨0x1E0000, 8, 6⟩
def HEAD_ATB_SEL_n.node : Fld := ⟨0x1E0000, 0, 5⟩

/-- The registers of the head space. -/
def headRegs : List RegRow :=
  [HEAD_DEVICE_ID, HEAD_AXLE_COUNT, HEAD_AXLE_STATUS, HEAD_AXLE_LOAD, HEAD_AXLE_CTRL, HEAD_SWAP_CTRL, HEAD_TURN_CONFIG, HEAD_TURN_STATE, HEAD_TURN_START, HEAD_TURN_LAST, HEAD_TURN_LONGEST, HEAD_STALL_TURN_n, HEAD_STALL_TOTAL_n, HEAD_IMPORT_STATUS, HEAD_FMT_INDEX, HEAD_FMT_RECIPE, HEAD_FMT_ACTIVE, HEAD_FMT_STATUS, HEAD_FMT_INFO, HEAD_FMT_SAT]
  ++ [HEAD_FMT_SET, HEAD_SHADOW_CTRL, HEAD_SHADOW_STATS, HEAD_PIPE_CONFIG, HEAD_CARRIAGE_INDEX, HEAD_CARRIAGE_STATE, HEAD_PREFILL_CONFIG, HEAD_PREFILL_CTRL, HEAD_PREFILL_STATUS, HEAD_PREFILL_ENERGY, HEAD_KV_CONFIG, HEAD_KV_GROUP_INDEX, HEAD_KV_GROUP_SIZE, HEAD_KV_GROUP_STATE, HEAD_KV_STATS, HEAD_PREFIX_CTRL, HEAD_PREFIX_STATUS, HEAD_PREFIX_STATS, HEAD_SPEC_STATUS, HEAD_SPEC_STATS]
  ++ [HEAD_SERVE_CONFIG, HEAD_SERVE_CTRL, HEAD_SERVE_STATS, HEAD_RING_INDEX, HEAD_RING_CFG, HEAD_RING_STATE, HEAD_TENANT_INDEX, HEAD_TENANT_CFG, HEAD_TENANT_LEVEL, HEAD_SAMP_INDEX, HEAD_SAMP_PROFILE, HEAD_SAMP_ACTIVE, HEAD_ADAPTER_INDEX, HEAD_ADAPTER_PTR, HEAD_ADAPTER_STATE, HEAD_MODEL_PTR, HEAD_MODEL_STATE, HEAD_RETURN_STATUS, HEAD_IMAGE_STATUS, HEAD_IMAGE_GEN]
  ++ [HEAD_WEIGHTS_VALID, HEAD_IMAGE_CHECKS, HEAD_IMAGE_FAULT, HEAD_RELOC_INDEX, HEAD_RELOC_ENTRY, CTL_PORT_STATUS, CTL_PORT_ERRORS, CTL_TELEM_CFG, CTL_TELEM_ADDR_n, MBX_SEND, MBX_RECV, MBX_STATUS, MBX_BELL, MBX_RING, MBX_MASK, MBX_CTRL, HEAD_REPAIR_STATUS, HEAD_REPAIR_COUNTS, HEAD_DEFECT_INDEX, HEAD_DEFECT_ENTRY]
  ++ [HEAD_LOG_INDEX, HEAD_LOG_WORD_n, GRD_WATCHDOG_i, PWR_PLAN, PWR_ROUND_ENERGY, PWR_GOV, PWR_COACH_ON, PWR_COACH_ACTIVE, PWR_DOM_INDEX, PWR_DOM_STATE, PWR_DOM_VMIN, PWR_DOM_VMIN_TIME, PWR_RAIL_INDEX, PWR_RAIL_STATUS, THM_STATUS, THM_CTRL, THM_COOL, THM_COUNTS, THM_SENSOR_INDEX, THM_SENSOR]
  ++ [CLK_STATUS, CLK_DOM_INDEX, CLK_DOM_CTRL, CLK_DOM_STATUS, EVT_CTRL, EVT_STREAM, EVT_SRC_n, HEAD_BOOT_STATUS, HEAD_COACH_RESET, HEAD_ATB_SEL_n]

/-- The registers of the tile space. -/
def tileRegs : List RegRow :=
  [TILE_HITCH_STATUS, TILE_ID, TILE_STATE, TILE_BANK_MAP, TILE_REGION_n, TILE_CIRC_CFG_n, TILE_CIRC_PTR_n, TILE_ECC_SEL, TILE_ECC_COUNT, TILE_ECC_LAST, TILE_WS_SIDE, TILE_TRAP, TILE_SCRUB_CTRL, TILE_SCRUB_STATUS, TILE_SR_SEED, TILE_SR_CTR_n, TILE_LINK_STATUS_p, TILE_ROUTE_YX, TILE_NET_CONFIG, TILE_NET_ERR]
  ++ [TILE_CART_ISSUE_n, TILE_CART_STATUS_n, TILE_CART_ERR_n, TILE_BARRIER_b, TILE_MCAST_t, TILE_HAZ_STATUS, TILE_HAZ_COUNT, TILE_HAZ_LOG_n, TILE_HAZ_AUX_n]

/-- The registers of the tower space. -/
def towerRegs : List RegRow :=
  [TWR_STATUS]

/-- The registers of the bay space. -/
def bayRegs : List RegRow :=
  [BAY_SCRUB_CTRL, BAY_SCRUB_STATUS]

/-- The registers of the cpl space. -/
def cplRegs : List RegRow :=
  [CPL_STATUS, CPL_CONFIG, CPL_LANES, CPL_ERRORS, CPL_WINDOW_w]

/-- The registers of the sbx space. -/
def sbxRegs : List RegRow :=
  [SBX_STATUS, SBX_POLICY, SBX_KEY_CTRL, SBX_KEY_STATE]

/-- The registers of a space. -/
def Space.regs : Space → List RegRow
  | .head => headRegs
  | .sbx => sbxRegs
  | .tile => tileRegs
  | .bay => bayRegs
  | .tower => towerRegs
  | .cpl => cplRegs

/-- Number i of the register of a row that lies at offset `off`, if one does. -/
def RegRow.hit (r : RegRow) (off : Nat) : Option Nat :=
  if off < r.addr then Option.none
  else if (off - r.addr) % r.stride = 0 ∧ (off - r.addr) / r.stride < r.count then some ((off - r.addr) / r.stride)
  else Option.none

/-- The row and number of the register at an offset of a space. -/
def findReg (sp : Space) (off : Nat) : Option (RegRow × Nat) :=
  sp.regs.findSome? fun r => (r.hit off).map fun i => (r, i)

/-- The value of a register row's Reset column (R19). -/
def RegRow.resetVal (r : RegRow) : Nat := r.fields.foldl (fun a f => a + f.reset <<< f.lo) 0

end Sys2Proof.Machine
end

