-- ==== Sys2Proof/Machine/State.lean ====
section
/-! DEFINITION. The state of the block: everything the spec gives the Perpex W25, as plain data, and the queue of the
commands that wait. Every default is the value right after power-on reset; registers not listed in `regs` read as the
Reset column of their table (Registers.lean). -/

namespace Sys2Proof.Machine

/-- No command of this model stops with a fault: where the spec refuses an access it says what is answered (R10, R394).
The one constructor keeps the type inhabited; nothing raises it (safe). -/
inductive Fault where
  | none
  deriving DecidableEq, Repr

/-- Why a command has no meaning. -/
inductive Refusal where
  /-- Raised by Dispatch.lean for a command whose meaning is not written yet (safe). -/
  | notModelled (mnemonic : String)
  /-- Raised by PRODUCTION_INSTRUCTION while `debug` is 1: R568 says of its data register "Not given in this manual" (safe). -/
  | productionInstruction
  deriving DecidableEq, Repr

/-! ### Axle time -/

/-- An accepted arm that is pending: its latched V and the tick at which it takes effect (R64). -/
structure Arm where
  (value due : Nat)
  deriving DecidableEq, Repr

/-- The axle time base beyond its registers. -/
structure AxleB where
  /-- AXLE_REF present with REFCLK running (R61). -/
  refPresent : Bool := false
  /-- Accepted arms that have not taken effect, oldest first. -/
  pendingArms : List Arm := []
  /-- V of the arm in force (R64). -/
  inForce : Option Nat := none
  /-- Holdover timing after a slip, until the next index load (R61, R62). -/
  afterSlip : Bool := false
  /-- Records stamped before the last index load come first (R95): number of index loads so far. -/
  epoch : Nat := 0
  deriving DecidableEq, Repr

/-! ### Turns, holds and the swap set -/

/-- A hold (R83): spokes are absolute, counted from axle count 0; `member` is the raising member, `none` for this device. -/
structure Hold where
  (id cause raise : Nat)
  withdraw : Option Nat
  member : Option Nat
  /-- Raising unit's source coordinate (R92). -/
  unit : Nat
  /-- The coupling that the data waited for comes over (R331). -/
  via : Option Nat := none
  deriving DecidableEq, Repr

/-- A setting of the swap set that is written through a register (R77). -/
inductive SwapKey where
  | recipe (layer : Nat) | wide | profile (p : Nat) | adapter (a : Nat) | model | coachOn | stepCap
  deriving DecidableEq, Repr

/-- A shadow written and not yet applied: who wrote it, when, and the value. -/
structure Shadow where
  key : SwapKey
  host : Bool
  (tick value : Nat)
  deriving DecidableEq, Repr

/-- Raised or withdrawn state of one origin and cause (R333), with the last serial applied (R326). -/
structure WaveState where
  (origin cause serial : Nat)
  deriving DecidableEq, Repr

/-- Turns, holds, the stall wave and the swap set, beyond their registers. -/
structure TurnB where
  /-- Axle count of turn 0 that IMAGE_START accepted and that has not come (R76). -/
  startAt : Option Nat := none
  /-- IMAGE_STOP accepted: stop at the next boundary; the command's cmd_id (R398). -/
  stopCmd : Option Nat := none
  /-- Absolute spoke at which the schedule clock was last 0: the turn's start or its last rerun point (R73, R419). -/
  origin : Nat := 0
  /-- Absolute spoke Q, once reached (R85). -/
  q : Option Nat := none
  /-- Absolute spoke from which raised holds count for the present turn: the boundary spoke of the turn before it (R91). -/
  since : Nat := 0
  holds : List Hold := []
  nextHold : Nat := 0
  /-- Substitution batches requested no later than Q for this turn's boundary (R87): the member, none for this device. -/
  insertReq : List (Option Nat) := []
  /-- Inserted spokes of the last boundary that have not run (R87). -/
  inserts : List InsertKind := []
  /-- The step this device requested at Q of this turn (R334), and the step that the inserted spoke brings (R492). -/
  (reqStep newStep : Option Nat := none)
  /-- In a turn group and not left (R90). -/
  grouped : Bool := false
  /-- Why the device leaves its group at the next boundary: 0x1 slip, 0x2 coupling, 0x3 late raise (R90). -/
  leave : Option Nat := none
  waves : List WaveState := []
  /-- Own serial counter per cause (R332). -/
  serials : Sparse Nat := []
  /-- Items of the present turn for every used coupling (R332), oldest first. -/
  waveOut : List WaveItem := []
  /-- Turn messages held for the current turn (R334). -/
  msgs : List TurnMsg := []
  /-- Messages for a later turn, which arrived early. -/
  msgsNext : List TurnMsg := []
  /-- This device's own message of the present turn. -/
  msgOut : List TurnMsg := []
  shadows : List Shadow := []
  /-- Changes of `hold` of HEAD_SWAP_CTRL, newest first: the tick, and the value before it (R81). -/
  holdLog : List (Nat × Bool) := []
  /-- The current attempt is faulted, and the one before it was (R373, R374). -/
  faulted : Bool := false
  faultedBefore : Bool := false
  /-- A cause-0x6 hold was in force in the current attempt (R419). -/
  voidSeen : Bool := false
  /-- Highest step whose set points have settled (R449); turn 0 starts at step 48 (R70). -/
  settled : Nat := 48
  /-- Turns since the last POWER hold, and POWER-held spokes of each of the last 1,024 turns (R460). -/
  quietTurns : Nat := 0
  powerSpokes : List (Nat × Nat) := []
  deriving DecidableEq, Repr

/-! ### Events and telemetry -/

/-- An event record between its source and channel 4 (R92, R402); `tick` is its timestamp on the count that index loads do not change (R95). -/
structure EvRec where
  (num count sc coord a b tick epoch : Nat)
  deriving DecidableEq, Repr

/-- A channel 4 record (R402). -/
structure Rec4 where
  (kind count sc coord num a b : Nat)
  deriving DecidableEq, Repr

/-- The event controller and the channel 4 store. -/
structure EvB where
  /-- Events raised that have not reached the controller (R95). -/
  inflight : List EvRec := []
  /-- Records held until 64 axle ticks after their timestamp (R95). -/
  held : List EvRec := []
  /-- Channel 4 records awaiting acknowledgement, oldest first (R403). -/
  stream : List Rec4 := []
  /-- Records lost per kind since the last loss record (R403). -/
  lost : Sparse Nat := []
  /-- Sources 0 to 15 pending at a guard: (guard, source) (R501). -/
  pend : List (Nat × Nat) := []
  /-- Selected and not yet delivered: (guard, source) (R502). -/
  selected : List (Nat × Nat) := []
  deriving DecidableEq, Repr

/-! ### The control port -/

/-- A response on channel 0 (R393). -/
structure Resp0 where
  (opcode status detail cmdId : Nat)
  final : Bool
  result : List Byte
  deriving DecidableEq, Repr

/-- A mailbox response or notification on channel 1 (R409). -/
structure MbxRec where
  (op mailbox status ident value : Nat)
  deriving DecidableEq, Repr

/-- One channel of the port, both directions (R387); numbers are modulo 2³². -/
structure Chan where
  /-- Next sequence number expected from the host, and the payloads accepted and not processed, oldest first. -/
  rxNext : Nat := 0
  rx : List (List Byte) := []
  /-- Next number to send, and the first that the host does not accept yet. -/
  (txNext txEnd : Nat := 0)
  /-- Frames sent and not acknowledged, oldest first; a frame carries one record of the channel's queue. -/
  unacked : List Frame := []
  /-- Tick of the last advance of the host's ack, or of the last sending again. -/
  ackTick : Nat := 0
  /-- `txNext` when the present phase began (R520). -/
  txMark : Nat := 0
  /-- The ack last reported in this session, and the highest number that the host was told it may send (R387, R389). -/
  told : Option Nat := none
  granted : Nat := 4294967295
  deriving DecidableEq, Repr

/-- A running long command (R399). -/
structure LongCmd where
  (opcode cmdId start lastBulk : Nat)
  /-- Channel 5 bytes received and expected. -/
  (got want : Nat)
  /-- The command still expects channel 5 data (R399). -/
  bulk : Bool
  /-- Parameter words the command keeps until it ends. -/
  args : List Nat
  /-- An IMAGE_LOAD that passes its section writes on to the peers (R348, R399). -/
  broadcast : Bool
  deriving DecidableEq, Repr

/-- A handshake between D1 and H2 (R516). -/
structure Shake where
  (h1 d1 : List Byte)
  (role slot kem tick : Nat)
  deriving DecidableEq, Repr

/-- The control port beyond its registers. -/
structure PortB where
  chans : List Chan := List.replicate 6 {}
  /-- Link control frames sent (R387), and how many had been when the present phase began. -/
  (controls controlMark : Nat := 0)
  /-- Responses of channel 0 and records of channel 1 that the host has not acknowledged, oldest first. -/
  resp : List Resp0 := []
  mbxOut : List MbxRec := []
  /-- The final response of the last WARM_RESET or ZEROISE, sent before the reset or the end of the session (R532, R547). -/
  parting : Option Resp0 := none
  /-- The handshake message sent last (R516). -/
  shakeOut : List Byte := []
  long : Option LongCmd := none
  shake : Option Shake := none
  /-- Shared secret and transcript of the open session (R519). -/
  secret : List Byte := []
  transcript : List Byte := []
  /-- Phase n in use for sending, and the newest accepted (R520). -/
  (txPhase rxPhase : Nat := 0)
  /-- Channel 2 bytes of an incomplete record, and discard up to the next rec_start (R392). -/
  chan2 : List Byte := []
  chan2Skip : Bool := false
  /-- Payload lengths of the newest frames of channel 2, newest first, of which the buffer holds those not processed (R390). -/
  chan2Lens : List Nat := []
  /-- The channel that sent a data frame last (R391). -/
  lastOut : Nat := 0
  /-- Channel 2 records received and not processed, oldest first (R392). -/
  recs : List (List Byte) := []
  /-- Tick of the last telemetry sample and progress record (R403, R404). -/
  (teleTick progTick : Nat := 0)
  /-- A raw request of the RAW command that has no response yet: cmd_id, coupling and tick (R348, R398). -/
  raw : Option (Nat × Nat × Nat) := none
  /-- Number of the next raw request. -/
  rawTag : Nat := 0
  /-- Zeroise timed out: only ZEROISE and WARM_RESET run (R399). -/
  zeroiseFailed : Bool := false
  deriving DecidableEq, Repr

/-! ### Mailboxes -/

/-- One direction of a mailbox: its words, oldest first, and the tick its timer started (R406, R407). -/
structure MbxQueue where
  words : List Nat
  timer : Option Nat
  deriving DecidableEq, Repr

/-! ### Strongbox -/

/-- The strongbox beyond its registers. What power-on keeps (R550) is not reset. -/
structure SbxB where
  /-- Enrolled keys by slot (R512). -/
  keys : Sparse (List Byte) := []
  minSvn : Nat := 0
  /-- Service log, newest first, at most 4,096 records (R443). -/
  log : List Rec4 := []
  /-- In-service defect entries held by the store (R412). -/
  store : List Nat := []
  /-- Alarm 0x5 raised and not re-armed (R412). -/
  storeAlarmed : Bool := false
  /-- Number of the at-rest salt in use (R512). -/
  salt : Nat := 0
  /-- ML-KEM key pairs made so far (R516). -/
  kems : Nat := 0
  /-- Flash sectors of the slot that did not boot that have been erased since the boot (R523). -/
  erased : List Nat := []
  /-- Slots that raised no boot, reported once the guards run (R522). -/
  notBootable : List Nat := []
  bootMeasure : List Byte := []
  /-- Alarm code of a failure during ZEROISE, which takes effect when it completes (R533). -/
  failing : Option Nat := none
  deriving DecidableEq, Repr

/-! ### Clocks, start-up and test access -/

/-- Clock requests and start-up, beyond their registers. -/
structure BootB where
  /-- PWRGOOD at the contact (R536). -/
  pwrgood : Bool := false
  /-- Tick of the last fall of PWRGOOD (R537). -/
  fell : Option Nat := none
  /-- Tick at which the strap delay ends (R497). -/
  oscDue : Option Nat := none
  /-- REFCLK taken up (R497), and the end of its measuring time (R498). -/
  oscDone : Bool := false
  /-- Tick at which the current start-up step began (R538), and step 2 began. -/
  (stepTick startTick : Nat := 0)
  /-- A warm reset is the current start-up's cause. -/
  warm : Bool := false
  /-- Gated instances of each clock domain: (domain, instance) (R494). -/
  gated : List (Nat × Nat) := []
  /-- PLL instances that report ready: (domain, instance) (R493). -/
  ready : List (Nat × Nat) := []
  /-- CORE and PRE PLLs that lost lock while an image ran and are not ready again: their tiles have stopped (R493). -/
  halted : List (Nat × Nat) := []
  /-- The defect map has been applied since the reset: TILE_ID names the tiles (R134, R538). -/
  mapped : Bool := false
  /-- Instruction in the test access port's register (R568), and the boundary register it preloads. -/
  (tapInstr : Nat := 2)
  boundary : List Bool := []
  /-- Data register captured last (R568, R569, R572). -/
  tapData : Nat := 0
  /-- Another instruction has replaced EXTEST and the rails have not been read since (R570). -/
  extestEnded : Bool := false
  /-- Connections that close 1 µs after a change: (pin, tick) (R574). -/
  atbDue : List (Nat × Nat) := []
  /-- Diodes that return to use 1 ms after they are disconnected: (sensor, tick) (R574). -/
  diodeDue : List (Nat × Nat) := []
  /-- Coach whose reset runs (R548), and whether the host asked for it. -/
  coachReset : Option Nat := none
  /-- Coaches a guard resets for a repair (R548). -/
  guardResets : List Nat := []
  deriving DecidableEq, Repr

/-! ### The placement image -/

/-- The loaded image and its placement. -/
structure ImgB where
  image : Option Image := none
  /-- The image that a running load command brings (R370, R400). -/
  load : Option Image := none
  /-- The image TOWER_STAGE staged, until it is marked invalid (R399). -/
  staged : Option Image := none
  /-- Relocation in effect: logical coach × 256 + logical tile ↦ source coordinate of the physical tile (R363). -/
  place : Sparse Nat := []
  /-- Logical model coach ↦ physical coach that holds it (R359, R432). -/
  homes : Sparse Nat := []
  /-- Relocation in effect when the last image stopped (R356, R414). -/
  before : Sparse Nat := []
  /-- Generation tag, adapter slots and footprint of the last image loaded (R275). -/
  last : Option (Nat × Nat × Nat) := none
  /-- Image measurement of the loaded image (R526). -/
  measure : List Byte := []
  deriving DecidableEq, Repr

/-! ### Tiles, memory and carts -/

/-- A write that waits for the end of its CORE cycle or for its bank's write slot (R102, R107, R109): part of one bank row of a
scratchpad, or one roof word. -/
structure Late where
  tile : Nat
  /-- What has the write slot: a bank index, 64 the roof bank, 65 the coach tables, 66 the input store, 128 + b accumulator bank b. -/
  bank : Nat
  /-- Key of the first byte. -/
  key : Nat
  /-- Port by priority (R107): 0 engine, 1 vector, 2 network, 3 cart, 4 fill or copy, 5 scrub; 6 a fill of the input store. -/
  port : Nat
  /-- Cart channel + 1 whose descriptor writes, 9 for a sequencer's fill or copy, 0 for others. -/
  op : Nat
  /-- Key of the side part of a roof word, whose data is 68 B. -/
  side : Option Nat
  /-- Scratchpad offset of a remote write. -/
  remote : Option Nat
  data : List Byte
  deriving DecidableEq, Repr

/-- A push or pop of the open CORE cycle, decided at its end (R116, R117): `port` is its priority, `code` the port in
TILE_TRAP, `origin` the cart channel it holds up; one that is not legal waits (`waits`) or traps. -/
structure CircOp where
  (tile circ n port code : Nat)
  pop : Bool
  origin : Option (Nat × Nat)
  waits : Bool
  deriving DecidableEq, Repr

/-- A cart or remote push, or a cart pop, that waits until it is legal (R117); `from` is the tile and channel it holds up. -/
structure Wait where
  (tile circ n : Nat)
  pop : Bool
  origin : Option (Nat × Nat)
  deriving DecidableEq, Repr

/-- A roof word, coach-table word or assigned spare that waits to be reloaded from the tower shadow (R42, R125). -/
structure RoofJob where
  key : Nat
  /-- Tile that raises the hold: the bank's own, or the coach-table scrubber (R127). -/
  unit : Nat
  /-- A spare is assigned: true a spare row, false a spare column group (R41). -/
  spare : Option Bool
  /-- The ROOF_ROW hold was raised for it, and the reload is complete. -/
  (held loaded : Bool)
  deriving DecidableEq, Repr

/-- Work of an M-tile's array that runs over several CORE cycles (R179, R181): a row group into an accumulator set, one line a
cycle, `done` lines of it behind; or the drain of a set, two rows a cycle, with the channel scales and the live lanes that its
first cycle takes. -/
inductive ArrayOp where
  | group (tile set line lines layer entry done : Nat)
  | drain (tile set out layer row0 carriage sweep : Nat) (latch : Option (List Nat × List Bool)) (done : Nat)
  deriving DecidableEq, Repr

/-- Tiles beyond their registers and memory. -/
structure TileB where
  /-- CORE cycles of the present axle tick that are over: the next one is open (DESIGN CHOICE, log entry 1). -/
  sub : Nat := 0
  /-- CORE cycles that are over since power-on. -/
  cyc : Nat := 0
  /-- CORE cycles of ticks that have passed and that the tiles have not run yet. -/
  owed : Nat := 0
  /-- Row groups and drains that run, oldest first (R181). -/
  arrays : List ArrayOp := []
  /-- Writes of the open CORE cycle, and those that are retried, by port priority (R107, R109). -/
  late : List Late := []
  /-- Schedule offset of the last action. -/
  lateOff : Nat := 0
  /-- Bank rows read and written in the open cycle: (tile, row, port) (R107, R377). -/
  reads : List (Nat × Nat × Nat) := []
  writes : List (Nat × Nat × Nat) := []
  /-- Pushes and pops of the open cycle, pops first and then by port priority (R116). -/
  circ : List CircOp := []
  /-- Pushes and pops that were not legal at the end of their cycle and trap: (tile, port code, kind, region) (R117). -/
  trapsDue : List (Nat × Nat × Nat × Nat) := []
  waits : List Wait := []
  /-- Actions each tile has issued in the attempt (R73, R74). -/
  issued : Sparse Nat := []
  /-- CRC-32C register over the actions a tile has issued in the attempt (R417), before its final inversion. -/
  sums : Sparse Nat := []
  /-- Tiles with a checksum miss in an attempt of the turn (R415). -/
  missed : List Nat := []
  /-- Uncorrectable errors of a row since it was last repaired (R126), by row key. -/
  rowErrors : Sparse Nat := []
  /-- Spare rows and spare column groups of a roof bank in use (R41), by tile. -/
  (spareRows spareCols : Sparse Nat := [])
  jobs : List RoofJob := []
  /-- Fills and copies whose last row has not committed: (tile, channel; 8 for a sequencer action) (R112). -/
  fills : List (Nat × Nat) := []
  /-- Turn-start values of circular pointers, rounding counters and barrier state (R419). -/
  snap : Sparse Word := []
  /-- Cart descriptors started, by tile × 8 + channel, at the start of the turn (R419). -/
  snapTags : Sparse Nat := []
  /-- Remote writes committed in the attempt: (tile, offset, bytes) (R377). -/
  arrived : List (Nat × Nat × Nat) := []
  /-- Turn, plus 1, in which a tile last raised HAZARD (R378). -/
  hazTurn : Sparse Nat := []
  /-- Next chunk of a scrub engine, by tile (R127), and when its pass began. -/
  scrubAt : Sparse Nat := []
  scrubFrom : Sparse Nat := []
  /-- Spoke, plus 1, of a scrub engine's last chunk, by tile (R86). -/
  scrubSpoke : Sparse Nat := []
  /-- Passes the P-tiles of a bay have completed in the bay's current pass (R130): (bay, n). -/
  scrubBay : List (Nat × Nat) := []
  deriving DecidableEq, Repr

/-- A cart descriptor as read (R310). -/
structure Desc where
  (op flags push barrier srcEp dstEp spaces srcAddr dstAddr rowBytes rows srcStride dstStride fill : Nat)
  resvZero : Bool
  deriving DecidableEq, Repr

/-- A read request of a move (R312): remote offset, row, place in the row's bytes as the network carries them, and bytes. -/
structure ReadReq where
  (off row pos n : Nat)
  deriving DecidableEq, Repr

/-- The descriptor a cart channel runs (R309 to R314). -/
structure CartRun where
  desc : Desc
  /-- Scratchpad offset it was read from. -/
  at_ : Nat
  tag : Nat
  /-- Requests outstanding, and requests not yet sent. -/
  out : List ReadReq
  todo : List ReadReq
  /-- Write acknowledgements still due. -/
  acks : Nat
  /-- Bytes read and not written yet: row, place and bytes. -/
  got : List (Nat × Nat × List Byte)
  failed : Bool
  deriving DecidableEq, Repr

/-- A cart channel. -/
structure Cart where
  queue : List Nat
  /-- Offset of a chained descriptor that comes next. -/
  chain : Option Nat
  run : Option CartRun
  started : Nat
  deriving DecidableEq, Repr

/-- A flit in an input buffer of a router (R294): its bits with an empty link word but for class, last, kind and vc, the output
ports that have still to take it as a mask (R307), the source endpoint of its packet, and the output ports at which its wait is in
the hazard log (R298). -/
structure BufFlit where
  (flit left src waited : Nat)
  deriving DecidableEq, Repr

/-- An output port of a router (R297, R298). -/
structure OutPort where
  /-- What a packet holds until its last flit passes: virtual channel × 4 + class ↦ its input port and its source endpoint. -/
  grants : Sparse (Nat × Nat) := []
  /-- Input port granted last, by virtual channel. -/
  last : Sparse Nat := []
  /-- CORE cycles before which the port sends no control flit, and no flit at all (R291, R297). -/
  (control busy : Nat := 0)
  deriving DecidableEq, Repr

/-- One receiving end of a link, and the transmitter that feeds it (R289 to R291). -/
structure Link where
  expect : Nat := 0
  nacking : Bool := false
  /-- Tick, plus 1, of the last nack sent for the flit expected (R290). -/
  nackAt : Nat := 0
  /-- Sequence number of the transmitter's next sequenced flit. -/
  next : Nat := 0
  /-- Flits sent that have not arrived, oldest first. -/
  wire : List Nat := []
  /-- Sequenced flits the transmitter keeps: sequence number, flit, tick of its last sending. -/
  kept : List (Nat × Nat × Nat) := []
  /-- The flit the last resend began at, the tick of that resend, and how often that flit has been resent. -/
  (named resentAt resent : Nat := 0)
  /-- A pattern test runs (R291). -/
  testing : Bool := false
  /-- Buffers of the receiving end that the transmitter counts as taken, by virtual channel × 4 + class (R294). -/
  used : Sparse Nat := []
  /-- Credits that the receiving end has still to return, oldest first (R285). -/
  owed : List Nat := []
  deriving DecidableEq, Repr

/-- A flit group on one link of a tree: the router and input port it comes to (port 4: the router's own tile), and the packet:
type 0x5, 0x7 or 0x8 (R303, R306). -/
structure Hop where
  (tile port : Nat)
  pkt : Packet
  deriving DecidableEq, Repr

/-- A transaction that a bay delivers into the mesh (R338): bay, tag of its packets, packets unanswered, and its header. -/
structure Proxy where
  (bay tag left : Nat)
  tx : Tx
  deriving DecidableEq, Repr

/-- The mesh and the carts beyond their registers. -/
structure NetB where
  /-- Packets sent that have not arrived (R93: the order of each source, destination and channel is list order). -/
  fly : List Packet := []
  /-- Flits of trees on their links. -/
  hops : List Hop := []
  /-- Transactions of couplings that packets carry on, and the next tag of such packets. -/
  proxies : List Proxy := []
  nextTag : Nat := 0
  /-- Cart channels by tile × 8 + channel. -/
  carts : Sparse Cart := []
  /-- Receiving ends by router × 8 + port; routers are tiles, and from 9216 on the ring stops. -/
  links : Sparse Link := []
  /-- Input buffers by (router × 5 + port) × 16 + virtual channel × 4 + class (R294), and the output ports and source of the packet
  whose head entered one last. -/
  bufs : Sparse (List BufFlit) := []
  routes : Sparse (Nat × Nat) := []
  /-- Output ports by router × 5 + port. -/
  outs : Sparse OutPort := []
  /-- Packets of `fly` that have flits in routers, and flits of trees that their own router has taken in. -/
  begun : List Packet := []
  begunHops : List Hop := []
  /-- Flits that a network port has still to send of a packet, and has taken of one, by router × 16 + virtual channel × 4 + class. -/
  sending : Sparse (List Nat) := []
  taking : Sparse (List Nat) := []
  /-- CORE cycle up to which the routers have worked. -/
  cycle : Nat := 0
  /-- Waits of VC1 flits for VC1 flits that the hazard detector has still to log: router, output port, source endpoint (R298). -/
  waited : List (Nat × Nat × Nat) := []
  /-- Hitch ports that are held, and the spoke, plus 1, in which they are: substitutions are made there (R29). -/
  held : List (Nat × Nat) := []
  heldSpoke : Nat := 0
  /-- Degraded outgoing directions: (tile, port, failing wire groups) (R292). -/
  degraded : List (Nat × Nat × List Nat) := []
  /-- Hitch ports that are stopped: (tile, port). Routes change at the rerun point, and the failure takes effect at the boundary
  (R30, R32, R415). -/
  stopped : List (Nat × Nat) := []
  failDue : List (Nat × Nat) := []
  /-- Management responses that reached the head: tag, status, data (R287). -/
  answers : List (Nat × Nat × Nat) := []
  deriving DecidableEq, Repr

/-! ### Serving -/

/-- A return record (R247), and whether it is held in the reserve (R250). -/
structure Ret where
  (ring kind code tag value pos : Nat)
  reserve : Bool
  deriving DecidableEq, Repr

/-- A shadow sample in progress (R170): physical coach, tap number in the image, the sample's turn, the checking S-tile, and once
the reference is computed whether the sample is an exceedance and whether for a value that is not finite (R172, R173). -/
structure Sample where
  (coach tap turn by_ : Nat)
  result : Option (Bool × Bool)
  deriving DecidableEq, Repr

/-- The serving controller, KV and prefix state beyond its registers. -/
structure ServB where
  reqs : List Req := []
  nextId : Nat := 0
  /-- Entries eligible for admission, in the order in which they became so (R254). -/
  eligible : List Nat := []
  /-- Results of the running turn's sampling, and whether the sampling unit has worked in it. -/
  pass : List Pass := []
  sampledNow : Bool := false
  /-- Ready order, parked order and prefill queue, as request numbers. -/
  ready : List Nat := []
  parked : List Nat := []
  queue : List Nat := []
  /-- Requests that became ready without prefill since the last boundary (R258 step 5). -/
  direct : List Nat := []
  round : Option Round := none
  /-- The round is abandoned at the next boundary or rerun point (R200). -/
  dropRound : Bool := false
  /-- The hold state has switched the P-tiles off: the round is abandoned at the rerun point that follows it (R200). -/
  dropNow : Bool := false
  /-- Energy allowance in nJ (R202). -/
  allowance : Nat := 0
  rets : List Ret := []
  nodes : List Node := []
  /-- Count of matches, which orders the prefix nodes by their last use (R229, R233). -/
  matches_ : Nat := 0
  /-- Return records produced, by which they take their places in the return buffer shares (R251). -/
  retCount : Nat := 0
  /-- Node tower slots freed at the next boundary: (group, slot) (R234). -/
  freed : List (Nat × Nat) := []
  cars : Sparse Car := []
  /-- Rotating allocation: slot after the one last allocated, by group; pool block, by tower (R251, R488). -/
  poolNext : Sparse Nat := []
  towNext : Sparse Nat := []
  blockNext : Sparse Nat := []
  /-- HEAD_CARRIAGE_STATE and HEAD_KV_GROUP_STATE as of the last boundary (R205, R244). -/
  carView : Sparse Nat := []
  kvView : Sparse Nat := []
  /-- Page-table entries and lane records with a pending write: address and bytes of a copy (R216). -/
  flipsDue : List (Nat × Nat) := []
  /-- Generation number given last, by adapter slot (R272). -/
  adapterLast : Sparse Nat := []
  /-- Adapter generation handles that have drained (R234, R275). -/
  drained : List Nat := []
  /-- Tenants whose enable rose since the last boundary (R257). -/
  rose : List Nat := []
  /-- A DRAIN_RELOAD drains: cmd_id and the turn at which its limit passes (R279). -/
  drain : Option (Nat × Nat) := none
  /-- The reload of a drain runs (R279). -/
  reloading : Bool := false
  /-- Spills under way: (request, group, set) (R223). -/
  spills : List (Nat × Nat × Nat) := []
  /-- Tail nodes being copied: request, tower slots of the node, and its length (R232). -/
  tails : List (Nat × List Nat × Nat) := []
  /-- What the prefetch of a coming visit takes from the tables as they are two turns before it: group, turn of the visit, and
(slot, place of the set among the slot's streamed ones, tower slot) (R225). -/
  fetchDue : List (Nat × Nat × List (Nat × Nat × Nat)) := []
  /-- Staging: what a KV tile fetched, (group, carriage, turn) (R225). -/
  staged : List (Nat × Nat × Nat) := []
  samples : List Sample := []
  /-- Samples selected by a coach's logical S-tile since turn 0 (R170), by logical tile. -/
  sampled : Sparse Nat := []
  /-- Format layers that raised FORMAT_PRESSURE in their window (R174). -/
  pressed : List Nat := []
  deriving DecidableEq, Repr

/-! ### Couplings -/

/-- One coupling, both directions, beyond its registers (R320 to R331). -/
structure Cpl where
  /-- Incoming: the next sequenced flit expected, and whether a discard waits for it (R327). -/
  expect : Nat := 0
  nacking : Bool := false
  /-- Outgoing: sequenced flits sent and not acknowledged, oldest first. -/
  kept : List LinkFlit := []
  /-- `ack_seq` of a nack that came in a header; that of the last replay, its tick, and replays of that flit (R327, R331). -/
  nackAck : Option Nat := none
  replayAck : Option Nat := none
  (replayTick replays : Nat := 0)
  /-- Consecutive discarded blocks (R321), and blocks received. -/
  (lost blocks : Nat := 0)
  /-- Corrected symbols per logical lane in the present 2²⁰ blocks (R324). -/
  symbols : Sparse Nat := []
  /-- Consecutive good blocks of the mirrored spare (R324). -/
  mirrorGood : Nat := 0
  /-- Outgoing: lane copied onto the spare for the peer. -/
  outMirror : Option Nat := none
  /-- Link control flits to send: kind 1 mirror request, 2 switch request, 3 confirmation, 4 member number; and their values. -/
  control : List (Nat × Nat) := []
  /-- Credit counts that the peer reported, per virtual channel, modulo 64 (R326, R328). -/
  credits : Sparse Nat := []
  /-- Flit buffers of the peer that are free for this side, per virtual channel: 128 after training (R328). -/
  avail : Sparse Nat := []
  /-- Own flit buffers freed since training, per virtual channel (R326), and the count of VC0 reported last. -/
  freed : Sparse Nat := []
  reported : Nat := 0
  /-- Sequence number of the next sequenced flit. -/
  seq : Nat := 0
  /-- Kept flits that a nack has them send again (R327). -/
  replay : List LinkFlit := []
  /-- Flits still to send of the transaction under way in each virtual channel (R329): `last` and the 248 B payloads. -/
  sending : Sparse (List (List Byte)) := []
  /-- Stall-wave items in rotation, and the blocks in which each is still to be sent (R326). -/
  rotation : List (WaveItem × Nat) := []
  /-- The block sent last: its header and its 5 flits. -/
  block : Option (Nat × List LinkFlit) := none
  /-- Transactions, relayed stall-wave items and relayed turn messages to send. -/
  out : List Tx := []
  waves : List WaveItem := []
  msgs : List TurnMsg := []
  /-- Flits received of transactions that are not complete, per virtual channel in order, and the transactions that are. -/
  part : List LinkFlit := []
  inbox : List (List LinkFlit) := []
  deriving DecidableEq, Repr

/-- A collective's running instances (R344, R345): bytes of each part received, and of the next instance. -/
structure Coll where
  (num : Nat)
  got : List Nat
  next : List Nat
  reducing : Bool
  deriving DecidableEq, Repr

/-- The couplings, collectives, group barriers and raw requests. -/
structure CplB where
  links : Sparse Cpl := []
  colls : List Coll := []
  /-- Arrivals of child devices at group barriers (R340): (barrier, coupling). -/
  arrived : List (Nat × Nat) := []
  /-- Group barriers whose own mesh tree is complete. -/
  ownDone : List Nat := []
  /-- Section writes received from peers (R342). -/
  sections : Nat := 0
  /-- Tick up to which the transmitters have worked. -/
  sentTo : Nat := 0
  deriving DecidableEq, Repr

/-! ### Repair -/

/-- The repair copy of one logical tile (R423 to R429): logical tile, lost and replacement tile, lines still to copy, and
whether the refill of R427 is complete. -/
structure RepJob where
  (key lost target lines : Nat)
  refilled : Bool
  /-- The P-tile takes its place at the next boundary (R425). -/
  prefill : Bool
  deriving DecidableEq, Repr

/-- A coach rebuild (R432): logical coach, lost and replacement coach, and the COACH_REPAIR command that asked for it. -/
structure Rebuild where
  (lc lost target : Nat)
  cmd : Option Nat
  deriving DecidableEq, Repr

/-- An advance copy (R428), or a rotation's (R487). -/
structure Advance where
  (key lost target : Nat)
  rotate : Bool
  ready : Bool
  deriving DecidableEq, Repr

/-- Repair and the defect map, beyond their registers. -/
structure RepB where
  jobs : List RepJob := []
  rebuilds : List Rebuild := []
  advance : Option Advance := none
  /-- Coaches the defect map isolates, bays whose P-tile domains are dark, and dead guards. -/
  isolated : List Nat := []
  darkBays : List Nat := []
  /-- The head's copy of the defect map (R412, R413). -/
  defects : List Nat := []
  /-- The current attempt was voided for a loss (R422). -/
  lossVoid : Bool := false
  /-- Ticks of each guard's watchdog expiries, newest first (R440), and its last restart. -/
  expiries : Sparse (List Nat) := []
  restarts : Sparse Nat := []
  /-- Tower channels to replace at the next boundary, and those being restored: (tower, channel) (R433). -/
  chanDue : List (Nat × Nat) := []
  restoring : List (Nat × Nat) := []
  /-- A coach reset a guard runs before a rebuild (R548). -/
  resetting : List Nat := []
  /-- Tiles found failing that wait for an advance copy (R428). -/
  failing : List Nat := []
  /-- Repair abandoned by the hold state, restarted on exit (R483, R485). -/
  abandoned : Bool := false
  /-- Losses found in the hold state: (tile, finding) (R489). -/
  later : List (Nat × Nat) := []
  /-- Repairs in effect whose defect-map entry and REPAIR_DONE follow at the boundary (R423). -/
  done : List RepJob := []
  /-- Coach of the draft model that a repair took: the draft is placed again at the boundary (R236). -/
  draftTaken : Option Nat := none
  /-- Logical tile that a rotation moves in the present turn's void (R487). -/
  rotating : Option Nat := none
  deriving DecidableEq, Repr

/-! ### Power and temperature -/

/-- A coach whose headers close in stages (R463): absolute spoke of its boundary, of its stage, and its rush. -/
structure PowerUp where
  (coach from_ stageAt rush : Nat)
  deriving DecidableEq, Repr

/-- Power beyond its registers. -/
structure PwrB where
  powering : List PowerUp := []
  /-- Coaches whose domains are on and whose tiles reset, and coaches that are usable from the next boundary (R463). -/
  resetting : List Nat := []
  /-- Coaches whose tiles have reset and that are usable from the next boundary (R463). -/
  fresh : List Nat := []
  /-- Coaches whose active bit is 1 and that wait to start (R462). -/
  waiting : List Nat := []
  /-- Consecutive failures of transactions, by rail (R448). -/
  failures : Sparse Nat := []
  /-- Last turn and consecutive turns of droops, by domain (R455). -/
  droopTurn : Sparse Nat := []
  droopRun : Sparse Nat := []
  /-- Rails treated as having lost two phases (R455). -/
  twoLess : List Nat := []
  /-- Trim of each rail, in units of 0.5 mV above −75 mV, and the turn of its last step (R450). -/
  trims : Sparse Nat := []
  trimTurn : Sparse Nat := []
  /-- Absolute spoke of the POWER hold's raise (R459). -/
  holdAt : Option Nat := none
  /-- A step asked for, and the tick at which the last SET for it was answered (R449). -/
  asked : Option Nat := none
  answered : Option Nat := none
  /-- Requests sent on the rail buses and not answered, as their 40 bits (R447), oldest first. -/
  bus : List Nat := []
  deriving DecidableEq, Repr

/-- Thermal sensing beyond its registers; temperatures in quarter degrees, hot spot h of coach c is 2 × c + h. -/
structure ThmB where
  /-- Last tick at which each sensor answered. -/
  answered : Sparse Nat := []
  /-- Tick at which the diodes of a hot spot began to differ by more than 5 °C, and whether it was reported (R475). -/
  skewFrom : Sparse Nat := []
  skewed : List Nat := []
  /-- Governing readings plus 4096 of each hot spot over the last hour, newest first, with their ticks (R487). -/
  hour : Sparse (List (Nat × Nat)) := []
  /-- Tick at which an excluded diode began to agree (R476). -/
  agreeFrom : Sparse Nat := []
  /-- Learned offset of each hot spot, plus 4096 (R476). -/
  offsets : Sparse Nat := []
  /-- Hottest junction of recent samples, newest first: (tick, reading + 4096) (R482). -/
  hist : List (Nat × Nat) := []
  /-- Tick since which the hottest junction has stayed at or above 105 °C at step 48 (R482). -/
  hotFrom : Option Nat := none
  /-- Tick of the last valid COOL_STAT frame. -/
  frameTick : Nat := 0
  /-- FAST_THROTTLE accepted as asserted (R479). -/
  throttled : Bool := false
  /-- The last valid frame reported flow stopped, and an inlet outside its range (R477, R478). -/
  stopped : Bool := false
  warned : Bool := false
  /-- Towers in self refresh, in the hold state (R44, R483). -/
  selfRefresh : Bool := false
  /-- Cause of the THERMAL hold in force, as event 30 gives it. -/
  cause : Nat := 0
  /-- Tick of hold entry, readings of the hot spots at entry plus 4096, and the tick since which the exit conditions hold. -/
  entryTick : Nat := 0
  entry : Sparse Nat := []
  clearFrom : Option Nat := none
  /-- Tick of the first shutdown stage, and the roof readings then plus 4096 (R484). -/
  stageTick : Nat := 0
  stageRoof : Sparse Nat := []
  /-- Threshold of the entry that set the present request, and the turn of its last rise (R481). -/
  threshold : Nat := 0
  riseTurn : Nat := 0
  /-- Tick of the last rotation and the coach that comes next (R487). -/
  rotTick : Nat := 0
  rotCoach : Nat := 64
  /-- Diodes taken out by the analogue test bus (R574). -/
  atb : List Nat := []
  deriving DecidableEq, Repr

/-! ### The whole machine -/

/-- The state of the block. -/
structure State where
  /-- Axle ticks since power-on on the count that index loads do not change (R95). -/
  ticks : Nat := 0
  /-- Every register that is not derived, by key (DESIGN CHOICE, log entry 3). -/
  regs : Sparse Word := []
  /-- Byte memory by key (DESIGN CHOICE, log entry 6). -/
  mem : List Host.Cell := []
  /-- Flipped stored bits of ECC words, by the key of the word (R122, R123). -/
  flips : Sparse Nat := []
  /-- Counter of free values taken (DESIGN CHOICE, log entry 4): the model's own field. -/
  free : Nat := 0
  axle : AxleB := {}
  turn : TurnB := {}
  ev : EvB := {}
  port : PortB := {}
  /-- The 56 mailbox directions: 2 × m + e is the direction out of end e of mailbox m. -/
  mbx : Sparse MbxQueue := []
  sbx : SbxB := {}
  img : ImgB := {}
  tile : TileB := {}
  net : NetB := {}
  serv : ServB := {}
  boot : BootB := {}
  cpl : CplB := {}
  rep : RepB := {}
  pwr : PwrB := {}
  thm : ThmB := {}
  /-- Commands that wait, first in, first out. -/
  pending : List Instr := []
  deriving DecidableEq, Repr

/-- The machine right after power-on reset (R536, R550). -/
def State.reset : State := {}

end Sys2Proof.Machine
end

