-- ==== Sys2Proof/Machine/Ops.lean ====
section
/-! DEFINITION. The named operations over the state that every meaning uses: time, registers, memory, free values,
events, and the addresses of units. -/

namespace Sys2Proof.Machine

/-- What a command answers. -/
abbrev Res := Host.Outcome State Fault Refusal

/-! ### Units and addresses -/

/-- Management address of the first byte of a tile, by its source coordinate (R7, R37, R92). -/
def tileBase (n : Nat) : Nat :=
  if n < 9216 then 0x100000000000 + n / 144 * 0x1000000000 + n % 144 * 0x10000000
  else 0x200000000000 + (n - 9216) / 32 * 0x1000000000 + (n - 9216) % 32 * 0x10000000

/-- Management address of unit `u` of bay `b` (R37): 0x20 bay registers, 0x21 tower interface, 0x22 coupling. -/
def bayBase (b u : Nat) : Nat := 0x200000000000 + b * 0x1000000000 + u * 0x10000000

/-- Management address of the first byte of tower `t` (R46). -/
def towerBase (t : Nat) : Nat := 0x300000000000 + t * 0x1000000000

/-- A field lies inside its 64-bit register. -/
abbrev Fld.fits (f : Fld) : Prop := f.lo + f.w ≤ 64

/-- Two fields share no bit. -/
abbrev Fld.apart (f g : Fld) : Prop := f.key ≠ g.key ∨ f.lo + f.w ≤ g.lo ∨ g.lo + g.w ≤ f.lo

/-- All 64 bits of the register with a key. -/
def Fld.whole (k : Nat) : Fld := ⟨k, 0, 64⟩

/-- A field of a tile register (offset fields of Registers.lean) of tile `n`. -/
def Fld.tile (f : Fld) (n : Nat) : Fld := ⟨tileBase n + f.key, f.lo, f.w⟩

/-- A field of a bay register of bay `b`. -/
def Fld.bay (f : Fld) (b : Nat) : Fld := ⟨bayBase b 0x20 + f.key, f.lo, f.w⟩

/-- A field of the tower interface registers of bay `b`. -/
def Fld.twr (f : Fld) (b : Nat) : Fld := ⟨bayBase b 0x21 + f.key, f.lo, f.w⟩

/-- A field of the coupling registers of bay `b`. -/
def Fld.cpl (f : Fld) (b : Nat) : Fld := ⟨bayBase b 0x22 + f.key, f.lo, f.w⟩

/-- Source coordinates of R92. -/
def coordBay (b u : Nat) : Nat := 9984 + 8 * b + u

/-- Source coordinate of the head unit that raises event `num` (DESIGN CHOICE, log entry 7). -/
def coordHead (num : Nat) : Nat := 10240 + (Config.headUnit num).toNat

/-! ### Registers -/

/-- The register rows whose Reset column is not zero throughout (R19). -/
def nonzeroRows : List RegRow :=
  [HEAD_DEVICE_ID, HEAD_TURN_CONFIG, HEAD_SHADOW_CTRL, HEAD_PREFILL_CTRL, HEAD_PREFIX_CTRL, HEAD_SERVE_CTRL,
   HEAD_SAMP_PROFILE, HEAD_SAMP_ACTIVE, MBX_CTRL, PWR_GOV, PWR_DOM_VMIN, THM_STATUS, THM_CTRL, CLK_STATUS, SBX_POLICY,
   HEAD_ATB_SEL_n, TWR_STATUS, TILE_ID, TILE_SCRUB_CTRL, TILE_NET_CONFIG, BAY_SCRUB_CTRL, CPL_STATUS]

/-- Which space a management address lies in, and its offset there (R8, R9, R37, R46). -/
def spaceOf (a : Nat) : Option (Space × Nat) :=
  match a / 0x100000000000 with
  | 0 => some (.head, a)
  | 1 => some (.tile, a % 0x10000000)
  | 2 =>
    let u := a / 0x10000000 % 256
    if u < 0x20 then some (.tile, a % 0x10000000) else if u = 0x20 then some (.bay, a % 0x10000000)
    else if u = 0x21 then some (.tower, a % 0x10000000) else if u = 0x22 then some (.cpl, a % 0x10000000) else none
  | 4 => some (.sbx, a)
  | _ => none

/-- Guard that source n is routed to after reset (R506): numbers the table does not list follow its last sentence. -/
def eventGuard (n : Nat) : Nat :=
  if n < 16 then 0
  else if 192 ≤ n ∧ n < 208 then (n - 192) % 4
  else if 208 ≤ n ∧ n < 220 then
    let m := n - 192
    let i := (m - 16) / 3
    let j := (m - 16) % 3
    if j < i then j else j + 1
  else if 220 ≤ n ∧ n < 232 then (n - 220) / 3
  else n % 4

/-- Reset value of EVT_SRC_n (R506, R507): routing, and streaming for sources below 192. -/
def evtSrcReset (n : Nat) : Nat := eventGuard n * 2 ^ 60 + if n < 192 then 2 ^ 58 else 0

/-- What a register that is not listed reads as: the Reset column (R19). -/
def regDefault (key : Nat) : Nat :=
  let a := key % 0x1000000000000
  if 0x1C1000 ≤ a ∧ a < 0x1C1800 then evtSrcReset ((a - 0x1C1000) / 8)
  else if a = 0x1B0018 ∧ (key / 0x1000000000000 = 1 ∨ key / 0x1000000000000 = 17) then 2 ^ 59
  else
    match spaceOf a with
    | none => 0
    | some (sp, off) =>
      match nonzeroRows.find? fun r => decide (r.space = sp) && (r.hit off).isSome with
      | none => 0
      | some r => r.resetVal

/-- The value of the register with a storage key. -/
def State.reg (s : State) (key : Nat) : Nat :=
  match Sparse.find s.regs key with
  | some v => v.toNat
  | none => regDefault key

/-- Store a register's value. -/
def State.setReg (s : State) (key v : Nat) : State := { s with regs := Sparse.put s.regs key (BitVec.ofNat 64 v) }

/-- Read a field. -/
def State.get (s : State) (f : Fld) : Nat := bits (s.reg f.key) f.lo f.w

/-- Set a field; the other bits of its register are kept. -/
def State.set (s : State) (f : Fld) (v : Nat) : State := s.setReg f.key (setBits (s.reg f.key) f.lo f.w v)

/-- Add to a counting field, which saturates. -/
def State.inc (s : State) (f : Fld) (d : Nat := 1) : State := s.set f (satAdd f.w (s.get f) d)

/-- A one-bit field as a Bool. -/
def State.flag (s : State) (f : Fld) : Bool := s.get f != 0

/-- Set a one-bit field. -/
def State.setFlag (s : State) (f : Fld) (b : Bool) : State := s.set f (if b then 1 else 0)

/-- Return the registers whose keys lie from `lo` to `hi` to their reset values. -/
def State.resetRegs (s : State) (lo hi : Nat) : State := { s with regs := s.regs.dropRange lo hi }

/-- Conditional update. -/
def State.iff (s : State) (c : Bool) (f : State → State) : State := if c then f s else s

/-! ### Memory -/

/-- Bytes of memory from a key upward. -/
def State.bytes (s : State) (a n : Nat) : List Byte := Memory.getBytes s.mem a n

/-- A little-endian number of `n` bytes in memory (R15). -/
def State.num (s : State) (a n : Nat) : Nat := leNat (s.bytes a n)

/-- Write bytes of memory from a key upward. -/
def State.wrBytes (s : State) (a : Nat) (bs : List Byte) : State := { s with mem := Memory.setBytes s.mem a bs }

/-- Write a little-endian number of `n` bytes (R15). -/
def State.wrNum (s : State) (a n v : Nat) : State := s.wrBytes a (leBytes n v)

/-- Clear memory from key `lo` up to `hi`: every byte reads as unlisted bytes do, and no stored bit stays flipped. -/
def State.wipe (s : State) (lo hi : Nat) : State :=
  { s with mem := Sparse.dropRange s.mem lo hi, flips := s.flips.dropRange lo hi }

/-! ### Free values -/

/-- Take a fresh free value (DESIGN CHOICE, log entry 4). -/
def State.takeFree (s : State) : Nat × State := ((Config.freeValue s.free).toNat, { s with free := s.free + 1 })

/-- Take `n` fresh free bytes. -/
def State.takeBytes (s : State) (n : Nat) : List Byte × State :=
  ((List.range n).map fun i => BitVec.ofNat 8 (Config.freeValue (s.free + i)).toNat, { s with free := s.free + n })

/-! ### Time -/

/-- Frequency step k in effect (R69). -/
def State.k (s : State) : Nat := s.get HEAD_TURN_CONFIG.step

/-- Axle count (R60). -/
def State.count (s : State) : Nat := s.get HEAD_AXLE_COUNT.count

/-- Absolute spoke of the current tick: one spoke is 8 axle ticks (R68). -/
def State.spoke (s : State) : Nat := s.count / 8

/-- `spoke_cycle` of the open CORE cycle (R92): the first of the tick until an action or an access passes on (DESIGN CHOICE, log entry 1). -/
def State.spokeCycle (s : State) : Nat := min (s.k - 1) (s.k * (s.count % 8) / 8 + s.tile.sub) * 95 / s.k

/-- Ticks of the named SI times: one axle tick is 6.25 ns (R68). -/
def usTicks (us : Nat) : Nat := us * 160

/-- Bank of a scratchpad row (R105). -/
def bankOf (off : Nat) : Nat := off / 0x100000 * 8 + off / 64 % 8

/-- Insert a waiting write behind those of its port and of ports before it (R107). -/
def insertLate (w : Late) : List Late → List Late
  | [] => [w]
  | x :: l => if w.port < x.port then w :: x :: l else x :: insertLate w l

/-- Writes that a write slot takes in one CORE cycle: one bank row, 4 roof words, or 32 entries of an input store (R102, R107,
R180); no rule bounds the coach tables'. -/
def bankCap (bank : Nat) : Nat := if bank = 64 then 4 else if bank = 65 then 1024 else if bank = 66 then 32 else 1

/-- Writes of up to 64 B that a port makes in one CORE cycle (R106, R112); a scrub engine writes one row in each bank (R127). -/
def portCap (port : Nat) : Nat :=
  match port with
  | 0 => 8 | 1 => 2 | 2 => 1 | 3 => 1 | 4 => 8 | _ => 1024

/-- A write finds its slot, and its port is not stalled, in a cycle in which `busy` holds (tile, bank) of each write made,
(tile, 256 + port) of each port that made it, and (tile, 512 + port) of each port that stalls (R107). -/
def slotFree (busy : List (Nat × Nat)) (w : Late) : Bool :=
  decide (busy.count (w.tile, w.bank) < bankCap w.bank) && decide (busy.count (w.tile, 256 + w.port) < portCap w.port)
    && !busy.contains (w.tile, 512 + w.port)

/-- Write bytes at a key: the 8 B words covered carry valid codewords from then on (R123). -/
def State.writeCoded (s : State) (key : Nat) (bs : List Byte) : State :=
  { s with mem := Memory.setBytes s.mem key bs, flips := s.flips.dropRange (key / 8 * 8) (key + bs.length) }

/-- Write a roof word whole: its main and side part, with a valid codeword (R100, R122). -/
def State.writeRoof (s : State) (main side v : Nat) : State :=
  let s1 := (s.wrNum main 64 (v % 2 ^ 512)).wrNum side 4 (v / 2 ^ 512)
  { s1 with flips := Sparse.drop s1.flips main }

/-- A write commits. The scrubber's is skipped when another write has reached its word (R128). -/
def State.commit (s : State) (w : Late) : State :=
  if w.port = 5 ∧ Sparse.find s.flips w.key = none then s
  else
    match w.side with
    | some k => s.writeRoof w.key k (leNat w.data)
    | none =>
      let s1 := s.writeCoded w.key w.data
      match w.remote with
      | none => s1
      | some off => { s1 with tile := { s1.tile with arrived := s1.tile.arrived ++ [(w.tile, off, w.data.length)] } }

/-- One CORE cycle of waiting writes in priority order: those that win a slot commit at its end, the others wait (R107, R109). -/
def State.commitRound (s : State) : List (Nat × Nat) → List Late → State × List Late
  | _, [] => (s, [])
  | busy, w :: l =>
    if slotFree busy w then (s.commit w).commitRound ((w.tile, w.bank) :: (w.tile, 256 + w.port) :: busy) l
    else
      let r := s.commitRound ((w.tile, 512 + w.port) :: busy) l
      (r.1, w :: r.2)

/-! ### Circular regions (R114 to R117) -/

/-- A field of circular region c of tile n. -/
def State.circ (s : State) (n c : Nat) (f : Fld) : Nat := s.get ((f.tile n).off (16 * c))

/-- Slots N of a region. -/
def State.circSlots (s : State) (n c : Nat) : Nat := s.circ n c TILE_CIRC_CFG_n.slots + 1

/-- A push, or a pop, of k slots is legal on the count as it stands (R116). -/
def State.pushLegal (s : State) (n c k : Nat) : Bool := decide (s.circ n c TILE_CIRC_PTR_n.count + k ≤ s.circSlots n c)
def State.popLegal (s : State) (n c k : Nat) : Bool := decide (k ≤ s.circ n c TILE_CIRC_PTR_n.count)

/-- Set the pointers of a region, and the state that follows (R115). -/
def State.setCirc (s : State) (n c head tail count : Nat) : State :=
  let g (f : Fld) : Fld := (f.tile n).off (16 * c)
  (((s.set (g TILE_CIRC_PTR_n.head) head).set (g TILE_CIRC_PTR_n.tail) tail).set (g TILE_CIRC_PTR_n.count) count).set
    (g TILE_CIRC_PTR_n.state) (if s.circ n c TILE_CIRC_CFG_n.enable = 0 then 0 else if count = 0 then 1 else if count = s.circSlots n c then 3 else 2)

/-- Every region of a tile starts Empty, or Disabled, with its pointers at 0 (R115, R117). -/
def State.emptyCircs (s : State) (n : Nat) : State := (List.range 16).foldl (fun t c => t.setCirc n c 0 0 0) s

/-- Apply a legal push or pop. -/
def State.circApply (s : State) (n c k : Nat) (pop : Bool) : State :=
  let h := s.circ n c TILE_CIRC_PTR_n.head
  let t := s.circ n c TILE_CIRC_PTR_n.tail
  let m := s.circ n c TILE_CIRC_PTR_n.count
  if pop then s.setCirc n c ((h + k) % s.circSlots n c) t (m - k) else s.setCirc n c h ((t + k) % s.circSlots n c) (m + k)

/-- Pops come before pushes, each in the port priority of R107 (R116). -/
def CircOp.rank (o : CircOp) : Nat := (if o.pop then 0 else 16) + o.port

/-- Insert a push or pop of the open cycle. -/
def insertCirc (o : CircOp) : List CircOp → List CircOp
  | [] => [o]
  | x :: l => if o.rank < x.rank then o :: x :: l else x :: insertCirc o l

/-- Decide one push or pop: applied, or it waits, or it will trap with kind 0x4 or 0x5; one push or pop moves 1 to 16 slots
(R114; another number is not legal: DESIGN CHOICE, log entry 45). One behind its network port's writes stays for the next cycle
(R93, R313), and one behind an earlier one that waits waits too; a cart channel that it holds up shows so. -/
def State.circDecide (s : State) (o : CircOp) : State :=
  if o.port = 2 ∧ s.tile.late.any fun w => w.tile == o.tile && w.port == 2 then
    { s with tile := { s.tile with circ := s.tile.circ ++ [o] } }
  else if o.waits then
    if !(s.tile.waits.any fun w => w.tile == o.tile && w.circ == o.circ && w.pop == o.pop)
        && (if o.pop then s.popLegal o.tile o.circ o.n else s.pushLegal o.tile o.circ o.n) then s.circApply o.tile o.circ o.n o.pop
    else
      let s1 := { s with tile := { s.tile with waits := s.tile.waits ++ [(⟨o.tile, o.circ, o.n, o.pop, o.origin⟩ : Wait)] } }
      match o.origin with
      | none => s1
      | some (m, ch) => s1.set ((TILE_CART_STATUS_n.state.tile m).off (32 * ch)) 4
  else if (1 ≤ o.n ∧ o.n ≤ 16) ∧ (if o.pop then s.popLegal o.tile o.circ o.n else s.pushLegal o.tile o.circ o.n) then
    s.circApply o.tile o.circ o.n o.pop
  else { s with tile := { s.tile with trapsDue := s.tile.trapsDue ++ [(o.tile, o.code, if o.pop then 5 else 4, o.circ)] } }

/-! ### CORE cycles and ticks -/

/-- The open CORE cycle ends at every scratchpad, roof bank and circular region (R102, R107, R109, R116). -/
def State.endCycle (s : State) : State :=
  let r := s.commitRound [] s.tile.late
  let s1 := { r.1 with tile := { r.1.tile with late := r.2, reads := [], writes := [], circ := [] } }
  s.tile.circ.foldl (fun t o => t.circDecide o) s1

/-- `n` CORE cycles end, one after another. -/
def State.endCycles : Nat → State → State
  | 0, s => s
  | n + 1, s => State.endCycles n s.endCycle

/-- `n` CORE cycles pass; past the last waiting write nothing is left for them to do. -/
def State.cycles (s : State) (n : Nat) : State :=
  let s1 := State.endCycles (min n (s.tile.late.length + 1)) s
  { s1 with tile := { s1.tile with cyc := s.tile.cyc + n } }

/-- CORE cycles from a tick at phase p of its spoke over `dt` ticks, of which `sub` are over: every spoke holds exactly k (R69). -/
def cyclesIn (k p dt sub : Nat) : Nat := if dt = 0 then 0 else max 1 (k * (p + dt) / 8 - k * p / 8 - sub)

/-- Let `dt` axle ticks pass: the axle count runs whenever PWRGOOD is high (R60, R66, R69, DESIGN CHOICE, log entry 1). The tiles
run the CORE cycles of these ticks before anything looks at them (State.pass). -/
def State.elapse (s : State) (dt : Nat) : State :=
  let n := cyclesIn s.k (s.count % 8) dt s.tile.sub
  let s1 := { s with ticks := s.ticks + dt, tile := { s.tile with owed := s.tile.owed + n, sub := if dt = 0 then s.tile.sub else 0 } }
  if s.boot.pwrgood then s1.set HEAD_AXLE_COUNT.count (s.count + dt) else s1

/-- 1 while an image runs (`state` 0x3 of HEAD_IMAGE_STATUS). -/
def State.running (s : State) : Bool := s.get HEAD_IMAGE_STATUS.state == 3

/-- Number of the current turn. -/
def State.turnNo (s : State) : Nat := s.get HEAD_TURN_STATE.turn

/-! ### Events -/

/-- Raise an event: its record starts toward the event controller with its axle timestamp (R92, R95). -/
def State.raise (s : State) (num coord a b : Nat) : State :=
  { s with ev := { s.ev with inflight := s.ev.inflight ++
      [⟨num, s.count, s.spokeCycle, coord, a % 2 ^ 64, b % 2 ^ 64, s.ticks, s.axle.epoch⟩] } }

/-- Raise an event from a head unit. -/
def State.raiseHead (s : State) (num a b : Nat) : State := s.raise num (coordHead num) a b

/-- Queue a channel 4 record, or count it lost when the store is full (R403). -/
def State.queue4 (s : State) (r : Rec4) : State :=
  if s.ev.stream.length < 65536 then { s with ev := { s.ev with stream := s.ev.stream ++ [r] } }
  else
    let n := (Sparse.find s.ev.lost r.kind).getD 0
    ({ s with ev := { s.ev with lost := Sparse.put s.ev.lost r.kind (n + 1) } }).inc EVT_STREAM.lost

/-! ### Responses -/

/-- Answer a command on channel 0 (R393); a response waits for the next session while none is open (R389). -/
def State.respond (s : State) (opcode cmdId status detail : Nat) (final : Bool) (result : List Byte) : State :=
  { s with port := { s.port with resp := s.port.resp ++ [⟨opcode, status, detail, cmdId, final, result⟩] } }

/-- Channel c of the port. -/
def State.chan (s : State) (c : Nat) : Chan := s.port.chans.getD c {}

/-- Change channel c. -/
def State.updChan (s : State) (c : Nat) (f : Chan → Chan) : State :=
  { s with port := { s.port with chans := s.port.chans.set c (f (s.chan c)) } }

/-- Process the first `n` bytes that channel c has received; a payload processed whole frees its buffer (R390). -/
def State.consume (s : State) (c n : Nat) : State :=
  s.updChan c fun x => match x.rx with
    | [] => x
    | p :: ps => { x with rx := if p.length ≤ n then ps else p.drop n :: ps }

/-- Bytes of a 64-bit word (R15). -/
def word8 (v : Nat) : List Byte := leBytes 8 v

end Sys2Proof.Machine
end

