-- ==== Sys2Proof/Machine/Axle.lean ====
section
/-! DEFINITION. The axle reference, the index and the arm (R58 to R67, R539). -/

namespace Sys2Proof.Machine

/-- An AXLE_REF edge now lies within 1 axle tick of a count multiple of 16 (R61). -/
def State.aligned (s : State) : Bool := s.count % 16 ≤ 1 || 15 ≤ s.count % 16

/-- The `armed` and `arm` bits follow the arms held (R67). -/
def State.syncArm (s : State) : State :=
  (s.setFlag HEAD_AXLE_STATUS.armed s.axle.inForce.isSome).setFlag HEAD_AXLE_CTRL.arm
    (s.axle.inForce.isSome || !s.axle.pendingArms.isEmpty)

/-- The image that runs is in a turn group, be its turn 0 still to come (R76, R90). -/
def State.inGroup (s : State) : Bool :=
  s.turn.grouped || (s.turn.startAt.isSome && (match s.img.image with
    | none => false
    | some i => match i.group with | none => false | some g => decide (1 < g.size)))

/-- The reason for which a device in a turn group leaves it at the next boundary; the first one stands (R90). One found between
IMAGE_START and turn 0 acts at the boundary that ends turn 0. -/
def State.leaveGroup (s : State) (why : Nat) : State :=
  if s.inGroup ∧ s.turn.leave = none then { s with turn := { s.turn with leave := some why } } else s

/-- `slip` is set and AXLE_SLIP raised (R61, R62, R65), and the device will leave its turn group (R90). -/
def State.slip (s : State) (v at_ : Nat) : State :=
  ((s.setFlag HEAD_AXLE_STATUS.slip true).raiseHead 17 v at_).leaveGroup 1

/-- The AXLE clock is locked to AXLE_REF. -/
def State.lockAxle (s : State) : State :=
  ((s.set HEAD_AXLE_STATUS.lock 1).setFlag CLK_STATUS.axle_ready true).setFlag HEAD_BOOT_STATUS.axle_free false

/-- The AXLE clock runs from REFCLK in holdover. -/
def State.holdover (s : State) : State := (s.set HEAD_AXLE_STATUS.lock 2).setFlag CLK_STATUS.axle_ready false

/-- Stay on holdover timing until the next index load (R61, R62). -/
def State.slipHoldover (s : State) : State :=
  let s1 := s.holdover.slip 0 s.count
  { s1 with axle := { s1.axle with afterSlip := true } }

/-- R61: acquiring ends in the locked state once AXLE_REF is present with REFCLK ready. -/
def execAxleLockAcquired (dt : Nat) (s : State) : Res :=
  let s := s.elapse dt
  .next <|
    if s.get HEAD_AXLE_STATUS.lock = 0 ∧ s.flag CLK_STATUS.refclk_ready then
      { s.lockAxle with axle := { s.axle with refPresent := true } }
    else s

/-- R61: the fourth missing edge takes a locked device to holdover, with AXLE_LOST. -/
def execAxleHoldoverEntry (dt : Nat) (s : State) : Res :=
  let s := s.elapse dt
  .next <|
    if s.get HEAD_AXLE_STATUS.lock = 1 then
      let s1 := s.holdover.raiseHead 16 0 0
      { s1 with axle := { s1.axle with refPresent := false } }
    else s

/-- R61: a locked device meets an edge that is not aligned with the count. -/
def execAxleRefMisalignedEdge (dt : Nat) (s : State) : Res :=
  let s := s.elapse dt
  .next <| if s.get HEAD_AXLE_STATUS.lock = 1 ∧ !s.aligned then s.slipHoldover else s

/-- R62, R539: AXLE_REF returns in holdover; the count never steps. -/
def execAxleRefReturn (dt : Nat) (s : State) : Res :=
  let s := s.elapse dt
  .next <|
    if s.get HEAD_AXLE_STATUS.lock = 2 ∧ !s.axle.afterSlip then
      let s1 := { s with axle := { s.axle with refPresent := true } }
      if s1.aligned then s1.lockAxle else s1.slipHoldover
    else s

/-- R539: in start-up step 5, 10 ms after REFCLK became ready, AXLE is not locked. -/
def execAxleLockTimeout (dt : Nat) (s : State) : Res :=
  let s := s.elapse dt
  .next <|
    if s.get HEAD_BOOT_STATUS.step = 5 ∧ s.get HEAD_AXLE_STATUS.lock = 0 ∧ s.flag CLK_STATUS.refclk_ready then
      (s.holdover.setFlag HEAD_BOOT_STATUS.axle_free true).raiseHead 16 0 0
    else s

/-- The armed index with no image running: the tick takes count V (R65), and every record stamped before it leaves first (R95). -/
def State.loadCount (s : State) (v : Nat) : State :=
  let s1 := (((s.set HEAD_AXLE_COUNT.count v).setFlag HEAD_AXLE_STATUS.loaded true).setFlag HEAD_AXLE_STATUS.slip false)
  let s2 := { s1 with axle := { s1.axle with inForce := none, afterSlip := false, epoch := s1.axle.epoch + 1 } }
  (if s.axle.afterSlip then s2.lockAxle else s2).syncArm

/-- The armed index with an image running: a check of the count (R65). -/
def State.checkCount (s : State) (v : Nat) : State :=
  let s1 := if v = s.count then s.inc HEAD_AXLE_STATUS.idx_match else s.slip v s.count
  { s1 with axle := { s1.axle with inForce := none } }.syncArm

/-- R63, R65: AXLE_IDX is sampled 1 after 0 at an AXLE_REF edge; recognised while locked, or in holdover after a slip. -/
def execIndex (dt : Nat) (s : State) : Res :=
  let s := s.elapse dt
  .next <|
    if s.get HEAD_AXLE_STATUS.lock = 1 ∨ (s.get HEAD_AXLE_STATUS.lock = 2 ∧ s.axle.afterSlip) then
      match s.axle.inForce with
      | none => s.inc HEAD_AXLE_STATUS.idx_unarmed
      | some v => if s.running then s.checkCount v else s.loadCount v
    else s

/-- An accepted write of `arm`: V is latched now and takes effect 1 µs later, and an earlier arm stays as it is until then; a V
that is not a multiple of 16 is refused (R64). -/
def State.armWrite (s : State) : State :=
  let v := s.get HEAD_AXLE_LOAD.value
  if v % 16 = 0 then
    { s with axle := { s.axle with pendingArms := s.axle.pendingArms ++ [(⟨v, s.ticks + usTicks 1⟩ : Arm)] } }.syncArm
  else s.setFlag HEAD_AXLE_STATUS.arm_error true

/-- An accepted write of `disarm` cancels every arm (R64). -/
def State.disarmWrite (s : State) : State :=
  { s with axle := { s.axle with pendingArms := [], inForce := none } }.syncArm

/-- R64: 1 µs after its acceptance a pending arm comes into force and replaces the earlier one. -/
def execArmTakesEffect (dt : Nat) (s : State) : Res :=
  let s := s.elapse dt
  .next <|
    match s.axle.pendingArms with
    | a :: rest =>
      if a.due ≤ s.ticks then
        { s with axle := { s.axle with pendingArms := rest, inForce := some a.value } }.syncArm
      else s
    | [] => s

end Sys2Proof.Machine
end

