-- ==== Sys2Proof/Machine/Holds.lean ====
section
/-! DEFINITION. Holds, the freeze and the schedule clock (R73, R75, R83 to R89, R332). -/

namespace Sys2Proof.Machine

/-- Hold lead H, in spokes (R71). -/
def State.lead (s : State) : Nat := s.get HEAD_TURN_CONFIG.hold_lead

/-- The group of the loaded image. -/
def State.group (s : State) : Option Group := match s.img.image with | none => none | some i => i.group

/-- This device's member number (R580). -/
def State.member (s : State) : Nat := s.get (CPL_CONFIG.member.cpl 0)

/-- The hold is in force in spoke j: s + H ≤ j < r + H (R83). -/
def Hold.inForce (h : Hold) (lead j : Nat) : Bool :=
  h.raise + lead ≤ j && (match h.withdraw with | none => true | some r => j < r + lead)

/-- A hold is in force in spoke j. -/
def State.inForce (s : State) (j : Nat) : Bool := s.turn.holds.any fun h => h.inForce s.lead j

/-- A hold of cause c is in force in spoke j. -/
def State.causeInForce (s : State) (c j : Nat) : Bool := s.turn.holds.any fun h => h.cause == c && h.inForce s.lead j

/-- In-force length of a hold within the spokes from `lo` up to `hi`. -/
def Hold.length (h : Hold) (lead lo hi : Nat) : Nat :=
  (match h.withdraw with | none => hi | some r => min hi (r + lead)) - max lo (h.raise + lead)

/-- Insert a span in order of its start. -/
def insertSpan (p : Nat × Nat) : List (Nat × Nat) → List (Nat × Nat)
  | [] => [p]
  | q :: l => if p.1 ≤ q.1 then p :: q :: l else q :: insertSpan p l

/-- Spokes covered by spans sorted by their start, past `upto`. -/
def spanLen : Nat → List (Nat × Nat) → Nat
  | _, [] => 0
  | upto, (a, b) :: l => (b - max a upto) + spanLen (max upto b) l

/-- Spokes from `lo` up to `hi` in which any hold is in force. -/
def State.frozenSpokes (s : State) (lo hi : Nat) : Nat :=
  let spans := s.turn.holds.map fun h =>
    (max lo (h.raise + s.lead), match h.withdraw with | none => hi | some r => min hi (r + s.lead))
  spanLen lo (spans.foldl (fun a p => insertSpan p a) [])

/-- In-force spans of the holds from spoke `lo`, sorted by their start; a hold that is not withdrawn lasts past the present spoke. -/
def State.holdSpans (s : State) (lo : Nat) : List (Nat × Nat) :=
  (s.turn.holds.map fun h => (max lo (h.raise + s.lead), match h.withdraw with | none => s.spoke + 1 | some r => r + s.lead)).foldl
    (fun a p => insertSpan p a) []

/-- First spoke, from `pos`, at whose start `left` spokes have passed outside the spans. -/
def passSpans : Nat → Nat → List (Nat × Nat) → Nat
  | pos, left, [] => pos + left
  | pos, left, (a, b) :: l => if pos + left ≤ a then pos + left else passSpans (max pos b) (left - (a - pos)) l

/-- First spoke, from `pos`, that lies in none of the spans. -/
def skipSpans : Nat → List (Nat × Nat) → Nat
  | pos, [] => pos
  | pos, (a, b) :: l => if a ≤ pos ∧ pos < b then skipSpans b l else skipSpans pos l

/-- Schedule clock at the start of spoke j, in spokes (R73, R83). -/
def State.clockAt (s : State) (j : Nat) : Nat := (j - s.turn.origin) - s.frozenSpokes s.turn.origin j

/-- Schedule clock of the open CORE cycle, and of the first one after the present tick, in CORE cycles (R73). -/
def State.clockCycle (s : State) : Nat := s.clockAt s.spoke * s.k + s.k * (s.count % 8) / 8 + s.tile.sub
def State.clockEnd (s : State) : Nat := s.clockAt s.spoke * s.k + s.k * (s.count % 8 + 1) / 8

/-- The schedule set in effect: wide while `in_effect` is set (R166, R167). -/
def State.sched (s : State) : Option Sched :=
  match s.img.image with
  | none => none
  | some i => if s.flag HEAD_FMT_SET.in_effect then i.wide else some i.sched

/-- Work end E of the schedule in effect, in CORE cycles (R71). -/
def State.workEnd (s : State) : Nat := match s.sched with | none => 0 | some c => c.workEnd

/-- Effective turn length and work end at step k (R72). -/
def lenAt (len k : Nat) : Nat := ceilDiv (95 * len) k
def State.lenK (s : State) : Nat := lenAt (s.get HEAD_TURN_CONFIG.turn_len) s.k
def State.endK (s : State) : Nat := ceilDiv s.workEnd s.k

/-- First spoke of the current turn. -/
def State.turnStart (s : State) : Nat := s.get HEAD_TURN_START.start / 8

/-- Spoke Q: the first at whose start the schedule clock reaches E_k spokes; past the present spoke when it is still to come (R85). -/
def State.spokeQ (s : State) : Nat := passSpans s.turn.origin s.endK (s.holdSpans s.turn.origin)

/-- Spoke B for a given Q: the first spoke at whose start the test of R85 holds; past the present spoke when it is still to come. -/
def State.spokeB (s : State) (q : Nat) : Nat :=
  let from_ := max (q + s.lead) (s.turn.origin + s.lenK)
  skipSpans from_ (s.holdSpans s.turn.origin)

/-- An image runs and its current turn has begun; inserted spokes belong to no turn (R76, R87). -/
def State.inTurn (s : State) : Bool := s.running && s.turn.startAt.isNone && s.turn.inserts.isEmpty

/-- The boundary spoke B of the present turn, once it has begun (R85). -/
def State.boundary? (s : State) : Option Nat :=
  match s.turn.q with
  | none => none
  | some q => if s.inTurn ∧ s.spokeB q ≤ s.spoke then some (s.spokeB q) else none

/-- Tick at which absolute spoke j begins or began. -/
def State.tickOf (s : State) (j : Nat) : Nat := s.ticks + 8 * j - s.count

/-- The schedule clock runs: in a turn, no hold in force (R83). -/
def State.clockRuns (s : State) : Bool := s.inTurn && decide (s.turnStart ≤ s.spoke) && !s.inForce s.spoke

/-- Holds of cause c that this device raised and has not withdrawn (R332). -/
def State.localHolds (s : State) (c : Nat) : Nat :=
  (s.turn.holds.filter fun h => h.cause == c && h.member.isNone && h.withdraw.isNone).length

/-- Number and queue a stall-wave item of this device (R332); a device outside a turn group forwards nothing (R90). The low bits
of the spoke are those of the spoke counted from axle count 0, which all devices of a group share (DESIGN CHOICE, log entry 44). -/
def State.sendWave (s : State) (raise_ : Bool) (c : Nat) (at_ : Nat) : State :=
  if s.turn.grouped then
    let n := ((Sparse.find s.turn.serials c).getD 0 + 1) % 8
    { s with turn := { s.turn with serials := Sparse.put s.turn.serials c n,
                                   waveOut := s.turn.waveOut ++ [⟨raise_, c, at_ % 16, 0, s.member, n⟩] } }
  else s

/-- Raise a hold of cause c in spoke `at_`, by the unit with a source coordinate, for data that comes over a coupling if any
(R83, R332). -/
def State.raiseHoldAt (s : State) (at_ c unit : Nat) (via : Option Nat) : State :=
  let s1 := if s.localHolds c = 0 then s.sendWave true c at_ else s
  { s1 with turn := { s1.turn with holds := s1.turn.holds ++ [⟨s1.turn.nextHold, c, at_, none, none, unit, via⟩],
                                   nextHold := s1.turn.nextHold + 1 } }

/-- Raise a hold in the present spoke. -/
def State.raiseHold (s : State) (c unit : Nat) (via : Option Nat := none) : State := s.raiseHoldAt s.spoke c unit via

/-- Withdraw, in this spoke, the holds of this device that meet a condition (R83, R332). -/
def State.withdrawHolds (s : State) (c : Nat) (p : Hold → Bool) : State :=
  let s1 := { s with turn := { s.turn with holds := s.turn.holds.map fun h =>
    if h.cause == c && h.member.isNone && h.withdraw.isNone && p h then { h with withdraw := some s.spoke } else h } }
  if s.localHolds c ≠ 0 ∧ s1.localHolds c = 0 then s1.sendWave false c s.spoke else s1

/-- Withdraw every hold of this device (R374). -/
def State.withdrawAll (s : State) : State := (List.range 16).foldl (fun t c => t.withdrawHolds c fun _ => true) s

/-- A hold of cause c of this device is raised and not withdrawn. -/
def State.holding (s : State) (c : Nat) : Bool := s.localHolds c != 0

/-- `phase` of HEAD_TURN_STATE (R91); inserted spokes belong to no turn and leave it. -/
def State.syncPhase (s : State) : State :=
  if s.running ∧ s.turn.inserts ≠ [] then s
  else s.set HEAD_TURN_STATE.phase
    (if !s.inTurn then 0 else if s.inForce s.spoke then 2 else if s.turn.q.isSome then 3 else 1)

/-- The cause of the hold for a late arrival (R86, R89, R330): `kind` 0 tower refresh, 1 data over a coupling (`retried`
since it was sent, or not), 2 KV page prefetch, otherwise a VC2 or VC3 delivery. -/
def lateCause (kind : Nat) (retried : Bool) : Nat :=
  if kind = 0 then 1 else if kind = 1 then (if retried then 2 else 0xB) else if kind = 2 then 3 else 0xB

/-- R89: host software raises its hold of cause 0xC. -/
def execHostHoldRaise (dt : Nat) (s : State) : Res :=
  let s := s.elapse dt
  .next <| if s.running ∧ !s.holding 0xC then s.raiseHold 0xC (coordHead 0) else s

/-- R89: host software withdraws its hold. -/
def execHostHoldWithdraw (dt : Nat) (s : State) : Res :=
  .next <| (s.elapse dt).withdrawHolds 0xC fun _ => true

end Sys2Proof.Machine
end

