-- ==== Sys2Proof/Machine/Serve.lean ====
section
/-! DEFINITION. Rings, requests, return records, the request-ring region, allocation and release (R207, R221, R222, R227,
R245 to R252, R430, R434, R488). -/

namespace Sys2Proof.Machine

/-! ### The image's serving parameters -/

def State.cmax (s : State) : Nat := match s.img.image with | none => 0 | some i => i.cmax
def State.vocab (s : State) : Nat := match s.img.image with | none => 0 | some i => i.vocab
/-- Number of layer groups D (R185). -/
def State.depth (s : State) : Nat := match s.img.image with | none => 0 | some i => i.depth
def State.treeCars (s : State) : Nat := match s.img.image with | none => 0 | some i => i.treeCars
def State.kvGroups (s : State) : List KvGroup := match s.img.image with | none => [] | some i => i.kv

/-- Position of carriage c at turn t: (t − c) mod (D + 1) (R185). -/
def carPosition (d t c : Nat) : Nat := (t + (d + 1) - c % (d + 1)) % (d + 1)

/-- Carriage at position p at turn t. -/
def carAt (d t p : Nat) : Nat := (t + (d + 1) - p % (d + 1)) % (d + 1)

/-- Physical tile that holds a logical tile (lc × 256 + lt), if any. -/
def State.tileOf (s : State) (key : Nat) : Option Nat := Sparse.find s.img.place key

/-! ### Split sets and pipeline chains (R235, R256, R346, R347) -/

/-- The split set or pipeline chain that the device is in; one that has left its turn group has left it (R90, R235). -/
def State.together (s : State) : Option Group :=
  match s.group with
  | none => none
  | some g => if (g.split || g.chain) && !(s.inTurn && !s.turn.grouped) then some g else none

/-- The device leads its split set or chain, or is in none: it admits, assigns and returns (R256, R346, R347). -/
def State.leads (s : State) : Bool := match s.together with | none => true | some g => g.leader == g.member

/-- The device's sampling unit samples: the leader's of a split set, the last device's of a chain (R346, R347). -/
def State.samples (s : State) : Bool :=
  match s.together with | none => true | some g => if g.chain then g.sampler == g.member else g.leader == g.member

/-- The decisions for the coming boundary have gone out in the turn message. -/
def State.decided (s : State) : Bool := s.together.isSome && s.turn.reqStep.isSome

/-! ### Requests -/

def State.req? (s : State) (id : Nat) : Option Req := s.serv.reqs.find? fun r => r.id == id

/-- Change the requests that meet a condition. -/
def State.mapReqs (s : State) (p : Req → Bool) (f : Req → Req) : State :=
  { s with serv := { s.serv with reqs := s.serv.reqs.map fun r => if p r then f r else r } }

def State.updReq (s : State) (id : Nat) (f : Req → Req) : State := s.mapReqs (fun r => r.id == id) f

def State.setServ (s : State) (f : ServB → ServB) : State := { s with serv := f s.serv }

/-- Admitted and not ended (R257, R280). -/
def Req.active (r : Req) : Bool :=
  match r.phase with
  | .tail | .prefill | .ready | .parked | .slot => true
  | _ => false

/-- The ring's active request (R245). -/
def Req.holdsRing (r : Req) : Bool := r.active || r.phase == .ended

/-- Its pool blocks are allocated: until it ends or is refused (R251). -/
def Req.holdsBlocks (r : Req) : Bool := r.active || r.phase == .queued

/-- In a lane slot, live or not yet released. -/
def Req.inSlot (r : Req) : Bool := r.phase == .slot || r.phase == .ended

/-- Tokens of the sequence: the prompt and those returned. -/
def Req.tokens (r : Req) : List Nat := r.prompt ++ r.gen

/-- Tokens of a request that still need prefill: its last token needs none (R197). -/
def Req.rest (r : Req) : Nat := r.tokens.length - 1 - r.pre

/-- The most tokens it can return (R251). -/
def genMax (cmax p m : Nat) : Nat := min m (cmax - p + 1)

/-- The request's largest length L′ and its sets N_s (R227). -/
def Req.sets_ (r : Req) (cmax : Nat) : Nat :=
  let l := min (r.promptLen + r.maxNew) cmax
  let l' := if r.flags % 2 = 1 then min (l + 15) cmax else l
  ceilDiv l' 64

/-! ### The request-ring region (R251, R252, R434) -/

/-- Tower t is failed (R435). -/
def State.towerFailed (s : State) (t : Nat) : Bool := s.get (TWR_STATUS.state.twr t) == 3

/-- In the strongbox's error state at-rest encryption stops, and tower traffic with it (R511). -/
def State.boxStopped (s : State) : Bool := s.get SBX_STATUS.mode == 2

/-- Tower t takes no traffic: it is failed, or the strongbox has stopped (R435, R511). -/
def State.towerShut (s : State) (t : Nat) : Bool := s.towerFailed t || s.boxStopped

/-- First byte of tower t's request-ring region. -/
def ringRegion (t : Nat) : Nat := towerBase t + 0xFC0000000

/-- Write bytes of the region at an offset held by tower t, and their mirror in tower (t + 12) mod 24 (R434). -/
def State.wrRegion (s : State) (t off mirror : Nat) (bs : List Byte) : State :=
  let s1 := if s.towerShut t then s else s.wrBytes (ringRegion t + off) bs
  if s.towerShut ((t + 12) % 24) then s1 else s1.wrBytes (ringRegion ((t + 12) % 24) + mirror) bs

/-- Write bytes into the ring slot of a request. -/
def State.wrSlot (s : State) (r : Req) (byte : Nat) (bs : List Byte) : State :=
  let off := r.ring / 24 * 1024 + r.entry * 128 + byte
  s.wrRegion (r.ring % 24) off (0x80000 + off) bs

/-- Write tokens into a request's pool blocks, from token number `k` of the run at block `b`. -/
def State.wrTokens (s : State) (r : Req) (b k : Nat) (ts : List Nat) : State :=
  let off := 256 * b + 4 * k
  s.wrRegion (r.ring % 24) (0x400000 + off) (0x20280000 + off) (ts.flatMap fun x => leBytes 4 x)

/-- Pool blocks of a tower (R251). -/
def poolBlocks : Nat := 2086912

/-- Runs of pool blocks in use in tower t: first block and length. -/
def State.runs (s : State) (t : Nat) : List (Nat × Nat) :=
  (s.serv.reqs.filter fun r => r.holdsBlocks && r.ring % 24 == t).flatMap fun r =>
    (r.promptBlock, ceilDiv r.promptLen 64) ::
      (if r.phase == .queued then [] else [(r.genBlock, ceilDiv (genMax s.cmax r.promptLen r.maxNew) 64)])

/-- First run of `len` free consecutive places in `size`, searching from `from_` and wrapping (R251, R488). -/
def findRun (used : List (Nat × Nat)) (size from_ len : Nat) : Option Nat :=
  let fits (c : Nat) : Bool := c + len ≤ size && used.all fun u => u.1 + u.2 ≤ c || c + len ≤ u.1
  let ends := used.map fun u => u.1 + u.2
  let least (l : List Nat) : Option Nat := l.foldl (fun a c => match a with | none => some c | some b => some (min b c)) none
  match least ((from_ :: ends.filter fun e => from_ ≤ e).filter fits) with
  | some c => some c
  | none => least ((0 :: ends).filter fits)

/-- Allocate pool blocks in tower t (R251). -/
def State.allocBlocks (s : State) (t len : Nat) : Option (Nat × State) :=
  if len = 0 then some (0, s)
  else
    match findRun (s.runs t) poolBlocks ((Sparse.find s.serv.blockNext t).getD 0 % poolBlocks) len with
    | none => none
    | some b => some (b, s.setServ fun v => { v with blockNext := Sparse.put v.blockNext t (b + len) })

/-! ### Return records (R247 to R250) -/

/-- Records held that do not sit in the reserve, and those that do (R250). -/
def State.unreserved (s : State) : Nat := (s.serv.rets.filter fun r => !r.reserve).length
def State.reserved (s : State) : Nat := (s.serv.rets.filter fun r => r.reserve).length

/-- The 16 B of a return record (R247). -/
def retBytes (r : Ret) : List Byte :=
  leBytes 2 r.ring ++ leBytes 1 r.kind ++ leBytes 1 r.code ++ leBytes 4 r.tag ++ leBytes 4 r.value ++ leBytes 4 r.pos

/-- Produce a return record; `slot` tells whether its request holds a lane slot (R250). It is held in the share of a tower and in
the mirror; record after record goes to the next tower and place (R251 gives no order: DESIGN CHOICE, log entry 58). The leader of
a split set alone produces them (R256). -/
def State.produce (s : State) (ring kind code tag value pos : Nat) (slot : Bool) : State :=
  if !s.leads then s else
  let res := !slot && kind != 1 && decide (s.reserved < 16384)
  let r : Ret := ⟨ring, kind, code, tag, value, pos, res⟩
  let b := s.serv.retCount % 1572864
  let off := 0x100000 + 16 * (b / 24)
  let s0 := s.wrRegion (b % 24) off (0x20080000 + off) (retBytes r)
  let s1 := s0.setServ fun v => { v with rets := v.rets ++ [r], retCount := v.retCount + 1 }
  s1.set HEAD_RETURN_STATUS.peak (max (s.get HEAD_RETURN_STATUS.peak) s1.serv.rets.length)

/-- A refused record (R248). -/
def State.refuse (s : State) (ring code tag : Nat) : State :=
  (s.produce ring 3 code tag 0 0 false).inc HEAD_SERVE_STATS.refused

/-! ### Tenants (R257) -/

/-- Signed level of a tenant. -/
def State.level (s : State) (t : Nat) : Int :=
  let v := s.get (HEAD_TENANT_LEVEL.level.ix t)
  if v < 2147483648 then v else (v : Int) - 4294967296

/-- Set a level, which saturates at −2³¹. -/
def State.setLevel (s : State) (t : Nat) (l : Int) : State :=
  let m := max l (-2147483648)
  s.set (HEAD_TENANT_LEVEL.level.ix t) (if m < 0 then (m + 4294967296).toNat else min m.toNat 2147483647)

/-- Charge units to a tenant. -/
def State.charge (s : State) (t u : Nat) : State := if u = 0 then s else s.setLevel t (s.level t - u)

/-- Requests of a tenant admitted and not ended. -/
def State.activeOf (s : State) (t : Nat) : Nat := (s.serv.reqs.filter fun r => r.active && r.tenant == t).length

/-! ### Release -/

/-- Drop one reference of each prefix node in a list; a flushed node whose count reaches 0 goes, and its tower sets are
freed at the next boundary (R222, R234). -/
def State.dropRefs (s : State) (ids : List Nat) : State :=
  s.setServ fun v =>
    let ns := v.nodes.map fun n => { n with refs := n.refs - (ids.filter fun i => i == n.id).length }
    let dead := ns.filter fun n => n.flushed && n.refs == 0
    { v with nodes := ns.filter fun n => !(n.flushed && n.refs == 0),
             freed := v.freed ++ dead.flatMap fun n => (List.range n.slots.length).map fun g => (g, n.slots.getD g 0) }

/-- `nodes` of HEAD_PREFIX_STATUS follows the nodes in use. -/
def State.syncNodes (s : State) : State := s.set HEAD_PREFIX_STATUS.nodes s.serv.nodes.length

/-- Keep the order in which queued entries became eligible: the oldest queued entry of a ring with no active request (R245, R254). -/
def State.syncEligible (s : State) : State :=
  s.setServ fun v =>
    let now := (v.reqs.filter fun r => r.phase == .queued &&
      !(v.reqs.any fun q => q.ring == r.ring && (q.holdsRing || (q.phase == .queued && decide (q.id < r.id))))).map (·.id)
    { v with eligible := v.eligible.filter (fun i => now.contains i) ++ now.filter fun i => !v.eligible.contains i }

/-- Take a request's sets, reservation and references away, and forget it (R222, R269). -/
def State.forget (s : State) (id : Nat) : State :=
  match s.req? id with
  | none => s
  | some r =>
    let s1 := (s.dropRefs r.nodes).syncNodes
    (s1.setServ fun v => { v with reqs := v.reqs.filter (fun q => q.id != id), pass := v.pass.filter (fun (x : Pass) => x.req != id),
                                  spills := v.spills.filter fun x => x.1 != id }).syncEligible

/-- Leave every order a request waits in. -/
def State.unqueue (s : State) (id : Nat) : State :=
  s.setServ fun v => { v with ready := v.ready.filter (· != id), parked := v.parked.filter (· != id),
                              queue := v.queue.filter (· != id), direct := v.direct.filter (· != id) }

/-- The ring slot of a request becomes free (R252). -/
def State.freeSlot (s : State) (r : Req) : State := s.wrSlot r 64 [0]

/-- The request is part of the running round (R200). -/
def State.inRound (s : State) (id : Nat) : Bool :=
  match s.serv.round with
  | none => false
  | some r => r.batch.any fun c => c.req == id

/-- Produce a request's end record, once; one in a lane slot keeps the slot until its release, every other one holds its
resources until the next boundary, or until the round that works for it ends (R200, R245, R266, R269). -/
def State.endReq (s : State) (id code : Nat) : State :=
  match s.req? id with
  | none => s
  | some r =>
    let s1 := s.produce r.ring 2 code r.tag r.gen.length 0 r.inSlot
    let s2 := (if r.inSlot then s1 else s1.freeSlot r).unqueue id
    (s2.updReq id fun q =>
      if q.inSlot then { q with phase := .ended, live := false }
      else { q with phase := .gone, live := false, dropped := s.inRound id }).syncEligible

/-- Every admitted request ends with a code, and its resources go at once (R374 step 3). -/
def State.endAdmitted (s : State) (code : Nat) : State :=
  let act := s.serv.reqs.filter fun r => r.active
  let s1 := act.foldl (fun t r => t.endReq r.id code) s
  let gone := s1.serv.reqs.filter fun r => r.phase == .ended || r.phase == .gone
  let s2 := (gone.foldl (fun t r => (if r.phase = .ended then t.freeSlot r else t).forget r.id) s1).setFlag HEAD_PREFILL_STATUS.running false
  s2.setServ fun v =>
    { v with round := none, dropRound := false, dropNow := false, samples := [], staged := [], flipsDue := [] }

/-! ### Page tables and lane records (R215 to R217) -/

/-- Bytes of a page table (R215). -/
def State.tableBase (s : State) (g c j : Nat) : Option Nat :=
  match s.kvGroups[g]? with
  | none => none
  | some k =>
    match k.tables[16 * c + j]? with
    | none => none
    | some (key, off) => (s.tileOf key).map fun n => tileBase n + 0x8000000 + off

/-- The bits `active` and `pending` in byte 7 of a copy, of a table entry (8 B) or a lane record (64 B) (R215, R217). -/
def actBit (len : Nat) : Nat := if len = 8 then 4 else 0
def penBit (len : Nat) : Nat := if len = 8 then 3 else 1

/-- Which of two copies of `len` bytes, the first at `a`, is selected (R216). -/
def State.selCopy (s : State) (a len : Nat) : Nat := if (s.num (a + len + 7) 1).testBit (actBit len) then 1 else 0

/-- Write to the copy that is not selected and set its pending mark: `a` is the first copy, `len` its length (R216). A writer
supplies the marks as zero. A second write in one turn replaces the first. -/
def State.wrCopy (s : State) (a len : Nat) (bs : List Byte) : State :=
  let other := a + len * (1 - s.selCopy a len)
  let s1 := s.writeCoded other bs
  let s2 := s1.wrNum (other + 7) 1 (setBits (s1.num (other + 7) 1) (penBit len) 1 1)
  s2.setServ fun v => { v with flipsDue := v.flipsDue.filter (fun p => p.1 != a) ++ [(a, len)] }

/-- A page-table entry's word, without its marks (R215). -/
def entryWord (k : KvSet) : Nat :=
  k.state * 2 ^ 62 + (if k.node.isSome then 2 ^ 61 else 0) + k.tow % 2 ^ 24 * 2 ^ 24
    + (if k.state = 1 ∨ k.state = 3 then k.res % 2 ^ 16 else 0)

/-- Write the page-table entry of set p: state, shared, tower slot, resident slot (R215). -/
def State.wrWord (s : State) (g c j p w : Nat) : State :=
  match s.tableBase g c j with
  | none => s
  | some b => s.wrCopy (b + 128 + 16 * p) 8 (leBytes 8 w)
def State.wrEntry (s : State) (g c j : Nat) (k : KvSet) : State := s.wrWord g c j k.p (entryWord k)

/-- The selected word of the entry of set p of lane slot j (R216); zero where there is no table. -/
def State.tblWord (s : State) (g c j p : Nat) : Nat :=
  match s.tableBase g c j with
  | none => 0
  | some b => s.num (b + 128 + 16 * p + 8 * s.selCopy (b + 128 + 16 * p) 8) 8

/-- A lane record as the walker reads it (R217). -/
structure LaneRec where
  (length nodes epoch carries parent carryNodes : Nat)
  deriving DecidableEq, Repr

/-- The selected lane record of lane slot j. -/
def State.laneRec (s : State) (g c j : Nat) : LaneRec :=
  match s.tableBase g c j with
  | none => ⟨0, 0, 0, 0, 0, 0⟩
  | some b =>
    let a := b + 64 * s.selCopy b 64
    ⟨s.num a 4, s.num (a + 4) 1, s.num (a + 5) 1, s.num (a + 6) 1, s.num (a + 8) 8, s.num (a + 16) 8⟩

/-- Write a lane record (R217). -/
def State.wrLane (s : State) (g c j : Nat) (n nodes epoch parent : Nat) (carry : List Nat) : State :=
  match s.tableBase g c j with
  | none => s
  | some b =>
    let cn := (List.range carry.length).foldl (fun a i => a + carry.getD i 0 % 16 * 16 ^ i) 0
    s.wrCopy b 64
      (leBytes 4 n ++ [BitVec.ofNat 8 nodes, BitVec.ofNat 8 epoch, BitVec.ofNat 8 carry.length, 0] ++ leBytes 8 parent
        ++ leBytes 8 cn ++ leBytes 40 0)

/-- Flip every pending select bit (R216). -/
def State.flipTables (s : State) : State :=
  let s1 := s.serv.flipsDue.foldl (fun t p =>
    let old := p.1 + p.2 * t.selCopy p.1 p.2 + 7
    let new := p.1 + p.2 * (1 - t.selCopy p.1 p.2) + 7
    let t1 := t.wrNum old 1 (setBits (t.num old 1) (actBit p.2) 1 0)
    t1.wrNum new 1 (setBits (setBits (t1.num new 1) (penBit p.2) 1 0) (actBit p.2) 1 1)) s
  s1.setServ fun v => { v with flipsDue := [] }

/-! ### Where pages lie (R206, R211 to R213, R240) -/

/-- Head dimension of the image (R206). -/
def State.headDim (s : State) : Nat := match s.img.image with | none => 0 | some i => match i.heads with | [] => 0 | h :: _ => h.dh

/-- Key of page number `x` of a group in tower slot m: the group's pages follow one another (R213). -/
def towerPage (k : KvGroup) (dh m x : Nat) : Nat :=
  towerBase (m % 24) + k.towerBase + m / 24 * (k.pages.length * 68 * dh) + x * 68 * dh

/-- Offsets of the K row and of the V row of entry t of a page (R211). -/
def pageRows (base dh t : Nat) : Nat × Nat := (base + dh * t, base + 64 * dh + dh * t)

/-- Offsets of the K row and of the V row of entry k of a provisional area, and of its tag: 16 entry positions laid out as those of
a page are, then 16 tag bytes (R240, DEDUCED, log entry 57). -/
def provRows (base dh k : Nat) : Nat × Nat × Nat := (base + dh * k, base + 16 * dh + dh * k, base + 32 * dh + k)

/-- Base of the provisional area that a pass of an epoch of tree carriage c writes (R240). -/
def provArea (x : KvPage) (c e : Nat) : Nat :=
  let a := x.prov.getD c (0, 0)
  if e % 2 = 0 then a.1 else a.2

/-! ### Trees (R238, R239) -/

/-- Mask row of node k of a parent word: itself and its ancestors (R239). -/
def maskRow (parents : Nat) : Nat → Nat → Nat
  | 0, k => 2 ^ k
  | fuel + 1, k => if k = 0 then 1 else 2 ^ k + maskRow parents fuel (parents / 16 ^ k % 16)

/-- Depth of node k. -/
def nodeDepth (parents : Nat) : Nat → Nat → Nat
  | 0, _ => 0
  | fuel + 1, k => if k = 0 then 0 else nodeDepth parents fuel (parents / 16 ^ k % 16) + 1

/-! ### Sets and slots -/

/-- Resident and tower slots of a group that sequences and nodes hold. -/
def State.poolUsed (s : State) (g : Nat) : List Nat :=
  s.serv.reqs.flatMap fun r => (r.sets.getD g []).filterMap fun k => if k.state = 1 ∨ k.state = 3 then some k.res else none

def State.towUsed (s : State) (g : Nat) : List Nat :=
  (s.serv.reqs.flatMap fun r => (r.sets.getD g []).filterMap fun k => if k.node.isNone then some k.tow else none)
    ++ s.serv.nodes.map (fun n => n.slots.getD g 0)
    ++ s.serv.freed.filterMap fun p => if p.1 = g then some p.2 else none

/-- Requests that hold the reservation of R227. -/
def Req.reserves (r : Req) : Bool := r.phase != .queued

/-- Tower sets a request reserves: one per set, less those that the lookup made shared (R227). -/
def Req.towReserve (r : Req) (cmax : Nat) : Nat := r.sets_ cmax - r.nodes.length

/-- Resident slots a request reserves in a group of a window: what the lookup made shared needs none (R227). -/
def Req.resReserve (r : Req) (cmax window : Nat) : Nat := min (window + 1) (r.sets_ cmax - r.nodes.length)

/-- Slots neither reserved nor held, per group (R244). -/
def State.poolFree (s : State) (g : Nat) : Nat :=
  match s.kvGroups[g]? with
  | none => 0
  | some k => k.pool - ((s.serv.reqs.filter Req.reserves).map fun r => r.resReserve s.cmax k.window).sum

/-- Tower slots of group g that lie in a failed tower (R436). -/
def State.deadSlots (s : State) (slots : Nat) : Nat :=
  ((List.range 24).map fun t => if s.towerFailed t then (slots + 23 - t) / 24 else 0).sum

def State.towFree (s : State) (g : Nat) : Nat :=
  match s.kvGroups[g]? with
  | none => 0
  | some k => k.towerSlots - s.deadSlots k.towerSlots
      - ((s.serv.reqs.filter Req.reserves).map fun r => r.towReserve s.cmax).sum
      - s.serv.nodes.length - (s.serv.freed.filter fun p => p.1 == g).length

/-- Take the next free slot after the one last allocated (R488), skipping tower slots of failed towers when asked (R436). -/
def nextFree (used : List Nat) (size from_ : Nat) (bad : Nat → Bool) : Option Nat :=
  let ok (c : Nat) : Bool := c < size && !used.contains c && !bad c
  let near (b : Nat) : List Nat := (List.range 25).map fun d => b + d
  let cands := (near from_ ++ used.flatMap near).filter ok
  let least (l : List Nat) : Option Nat := l.foldl (fun a c => match a with | none => some c | some b => some (min b c)) none
  match least (cands.filter fun c => from_ ≤ c) with
  | some c => some c
  | none => least ((near 0 ++ cands).filter ok)

/-- Allocate a resident slot of group g. -/
def State.allocPool (s : State) (g : Nat) : Option (Nat × State) :=
  match s.kvGroups[g]? with
  | none => none
  | some k =>
    match nextFree (s.poolUsed g) k.pool ((Sparse.find s.serv.poolNext g).getD 0) (fun _ => false) with
    | none => none
    | some n => some (n, s.setServ fun v => { v with poolNext := Sparse.put v.poolNext g (n + 1) })

/-- Allocate a tower slot of group g outside failed towers. -/
def State.allocTow (s : State) (g : Nat) : Option (Nat × State) :=
  match s.kvGroups[g]? with
  | none => none
  | some k =>
    match nextFree (s.towUsed g) k.towerSlots ((Sparse.find s.serv.towNext g).getD 0) (fun c => s.towerFailed (c % 24)) with
    | none => none
    | some n => some (n, s.setServ fun v => { v with towNext := Sparse.put v.towNext g (n + 1) })

end Sys2Proof.Machine
end

