-- ==== Sys2Proof/Machine/Channels.lean ====
section
/-! DEFINITION. The device's side of the control port's link: keys, sealing, credit, and the transmitter (R384 to R391, R513, R519,
R520). -/

namespace Sys2Proof.Machine

/-! ### Keys and frames -/

/-- One-step KDF of R513. -/
def kdf (z label context : List Byte) : List Byte := Config.sha3 ([0, 0, 0, 1] ++ z ++ label ++ context)

/-- The ASCII bytes of a label. -/
def ascii (l : List Nat) : List Byte := l.map fun c => BitVec.ofNat 8 c

/-- `NRF-GLX1`. -/
def glx1 : List Byte := ascii [78, 82, 70, 45, 71, 76, 88, 49]
/-- `confirm`. -/
def confirmLabel : List Byte := ascii [99, 111, 110, 102, 105, 114, 109]

/-- Session key of direction d and phase n (R519). -/
def State.sessionKey (s : State) (d n : Nat) : List Byte :=
  kdf s.port.secret glx1 (leBytes 1 d ++ leBytes 4 n ++ s.port.transcript)

/-- The 16 header bytes of a frame (R384). -/
def frameHeader (f : Frame) : List Byte :=
  leBytes 1 (f.chan + 16 * f.version) ++ leBytes 1 (f.kind + 16 * f.keyPhase + 32 * f.recStart + 64 * f.resv) ++ leBytes 2 f.len
    ++ leBytes 4 f.seq ++ leBytes 4 f.ack ++ leBytes 4 f.credit

/-- The 96-bit IV of a sealed frame: `seq`, channel, kind, direction, zeros (R385). -/
def frameIv (d : Nat) (f : Frame) : List Byte := leBytes 4 f.seq ++ leBytes 1 f.chan ++ leBytes 1 f.kind ++ leBytes 1 d ++ leBytes 5 0

/-- Seal a frame of the device under the present phase: the header is the associated data, the payload is encrypted, and the
trailer is the tag (R385). -/
def State.sealFrame (s : State) (f : Frame) : Frame :=
  let r := Config.gcmSeal (s.sessionKey 1 s.port.txPhase) (frameIv 1 f) (frameHeader f) f.payload
  { f with payload := r.1, trailer := r.2 }

/-! ### Channels (R387, R390 to R392) -/

/-- Numbers count modulo 2³². -/
def mod32 (n : Nat) : Nat := n % 2 ^ 32
/-- How far `b` lies after `a`. -/
def dist32 (a b : Nat) : Nat := (b + 2 ^ 32 - a % 2 ^ 32) % 2 ^ 32

/-- Frames of the device's receive buffer (R390). -/
def rxFrames (c : Nat) : Nat := [4, 16, 64, 0, 0, 64].getD c 0

/-- Newest frames of channel 2 that the `n` bytes of unprocessed records take up; the first argument lists payload lengths, newest first. -/
def framesHolding : List Nat → Nat → Nat
  | [], _ => 0
  | l :: ls, n => if n = 0 then 0 else framesHolding ls (n - l) + 1

/-- Channel 2 bytes that are not processed: the incomplete record and the records that wait, each with its length (R392). -/
def State.chan2Bytes (s : State) : Nat := s.port.recs.foldl (fun a r => a + 4 + r.length) s.port.chan2.length

/-- Frames of channel c's buffer that are in use. -/
def State.rxUsed (s : State) (c : Nat) : Nat :=
  if c = 2 then framesHolding s.port.chan2Lens s.chan2Bytes else (s.chan c).rx.length

/-- Frames that channel c can take now: its free buffer; none on channel 2 while the return reserve is exhausted (R250, R392). -/
def State.rxFree (s : State) (c : Nat) : Nat :=
  if c = 2 ∧ 16384 ≤ s.reserved then 0 else rxFrames c - s.rxUsed c

/-- The number just before n. -/
def before32 (n : Nat) : Nat := mod32 (n + 2 ^ 32 - 1)

/-- The `ack` of channel c: the last data frame accepted. -/
def State.ackNow (s : State) (c : Nat) : Nat := before32 (s.chan c).rxNext

/-- The `credit` of channel c: the highest number that the device accepts. Credit that was granted stays granted; channel 2
credit is withheld by granting no more (R387, R392). -/
def State.creditNow (s : State) (c : Nat) : Nat :=
  let x := s.chan c
  let n := before32 (mod32 (x.rxNext + s.rxFree c))
  if dist32 x.granted n < 2 ^ 31 then n else x.granted

/-- A frame of number `seq` does not exceed the credit granted on channel c (R387). -/
def State.inCredit (s : State) (c seq : Nat) : Bool := decide (dist32 seq (s.chan c).granted < 2 ^ 31)

/-- The 32 bytes of a channel 4 record (R402). -/
def Rec4.bytes (r : Rec4) : List Byte :=
  leBytes 8 r.count ++ leBytes 1 r.sc ++ leBytes 1 r.kind ++ leBytes 2 r.coord ++ leBytes 2 r.num ++ leBytes 2 0 ++ leBytes 8 r.a ++ leBytes 8 r.b

/-- Payloads of the records that the device sends on channel c, oldest first (R391, R393, R402, R409). -/
def State.outbox (s : State) (c : Nat) : List (List Byte) :=
  match c with
  | 0 => s.port.resp.map fun r => leBytes 2 r.opcode ++ leBytes 1 r.status ++ leBytes 1 ((if r.final then 1 else 0) + 2 * r.detail)
      ++ leBytes 4 r.cmdId ++ leBytes 4 r.result.length ++ leBytes 4 0 ++ r.result
  | 1 => s.port.mbxOut.map fun r => leBytes 1 r.op ++ leBytes 1 r.mailbox ++ leBytes 1 r.status ++ leBytes 1 0 ++ leBytes 4 r.ident ++ leBytes 8 r.value
  | 3 => s.serv.rets.map retBytes
  | 4 => s.ev.stream.map Rec4.bytes
  | _ => []

/-- How many there are. -/
def State.outCount (s : State) (c : Nat) : Nat :=
  match c with
  | 0 => s.port.resp.length
  | 1 => s.port.mbxOut.length
  | 3 => s.serv.rets.length
  | 4 => s.ev.stream.length
  | _ => 0

/-- The counter of channel c has advanced 2³² − 1 under the present phase: the device holds its frames until the next one (R388). -/
def State.spent (s : State) (c : Nat) : Bool := decide (2 ^ 32 - 1 ≤ dist32 (s.chan c).txMark (s.chan c).txNext)

/-- Channel c has a record to send, and the host's credit and the phase allow it (R387, R388). -/
def State.canSend (s : State) (c : Nat) : Bool :=
  let x := s.chan c
  let room := dist32 x.txNext x.txEnd
  decide (x.unacked.length < s.outCount c) && decide (0 < room ∧ room < 2 ^ 31) && !s.spent c

/-- Send the next record of channel c in a frame that also carries its ack and credit (R384, R391). -/
def State.sendOne (s : State) (c : Nat) : State :=
  let x := s.chan c
  let payload := (s.outbox c).getD x.unacked.length []
  let a := s.ackNow c
  let g := s.creditNow c
  let f := s.sealFrame ⟨c, 1, 0, s.port.txPhase % 2, 0, 0, payload.length, x.txNext, a, g, payload, []⟩
  let s1 := s.updChan c fun y => { y with txNext := mod32 (y.txNext + 1), unacked := y.unacked ++ [f], told := some a, granted := g,
                                          ackTick := if y.unacked.isEmpty then s.ticks else y.ackTick }
  { s1 with port := { s1.port with lastOut := c } }

/-- The channel that sends next: channel 0, then channel 1, and of channels 3 and 4 the one that did not send last (R391). -/
def State.nextOut (s : State) : Option Nat :=
  ([0, 1] ++ if s.port.lastOut = 3 then [4, 3] else [3, 4]).find? s.canSend

/-- Send while there is something that may be sent; the first argument bounds the frames. -/
def State.sendFrames : Nat → State → State
  | 0, s => s
  | k + 1, s => match s.nextOut with | none => s | some c => State.sendFrames k (s.sendOne c)

/-- A link control frame reports a change of channel c's ack or credit that no data frame has carried (R387); its count may not
advance 2³² − 1 under one phase (R388). -/
def State.tellHost (s : State) (c : Nat) : State :=
  let x := s.chan c
  let a := s.ackNow c
  let g := s.creditNow c
  if (x.told ≠ some a ∨ x.granted ≠ g) ∧ s.port.controls - s.port.controlMark < 2 ^ 32 - 1 then
    let s1 := s.updChan c fun y => { y with told := some a, granted := g }
    { s1 with port := { s1.port with controls := s1.port.controls + 1 } }
  else s

/-- The transmitter, while a session is open: the records that wait, then link control frames (R387, R391). -/
def State.transmit (s : State) : State :=
  if s.get CTL_PORT_STATUS.link = 2 then
    let n := s.outCount 0 + s.outCount 1 + s.outCount 3 + s.outCount 4
    (List.range 6).foldl (fun t c => t.tellHost c) (State.sendFrames n s)
  else s

end Sys2Proof.Machine
end

