-- ==== Sys2Proof/Machine/Events.lean ====
section
/-! DEFINITION. The event controller: arrival, selection, delivery, masks and the ordered stream (R94, R95, R402, R403,
R443, R500 to R507, R577). -/

namespace Sys2Proof.Machine

/-- Field of guard i's watchdog register. -/
def Fld.guard (f : Fld) (i : Nat) : Fld := f.off (8 * i)

/-- Field of EVT_SRC_n. -/
def Fld.src (f : Fld) (n : Nat) : Fld := f.off (8 * n)

/-- `svcN` and `svcN_valid` of EVT_CTRL for guard g. -/
def svc (g : Nat) : Fld := ⟨EVT_CTRL.svc0.key, 9 * g, 8⟩
def svcValid (g : Nat) : Fld := ⟨EVT_CTRL.svc0.key, 9 * g + 8, 1⟩

/-- A guard in reset or dead hands its sources to its watcher (R501). -/
def State.guardOut (s : State) (g : Nat) : Bool :=
  s.get (GRD_WATCHDOG_i.state.guard g) = 1 || s.get (GRD_WATCHDOG_i.state.guard g) = 3

/-- Guard that source n is routed to now (R501, R506). -/
def State.routeOf (s : State) (n : Nat) : Nat :=
  if n < 16 then 0
  else
    let g := eventGuard n
    if s.guardOut g then s.get (GRD_WATCHDOG_i.watcher.guard g) else g

/-- Events of R506 that report a loss, a void or a repair, which the service log keeps (R443, DEDUCED, log entry 10). -/
def loggedEvent (n : Nat) : Bool :=
  n == 3 || n == 5 || (68 ≤ n && n ≤ 84)

/-- The channel 4 record of an event (R402). -/
def EvRec.record (e : EvRec) : Rec4 := ⟨1, e.count, e.sc, e.coord, e.num, e.a, e.b⟩

/-- Append a record to the service log, which holds the newest 4,096 (R443). -/
def State.logRecord (s : State) (r : Rec4) : State := { s with sbx := { s.sbx with log := (r :: s.sbx.log).take 4096 } }

/-- Live guards (R501). -/
def State.liveGuards (s : State) : List Nat := (List.range 4).filter fun g => !s.guardOut g

/-- The three effects of an arrival (R500). -/
def State.arrive (s : State) (e : EvRec) : State :=
  let s1 := (s.inc (EVT_SRC_n.count.src e.num)).setFlag (EVT_SRC_n.pending.src e.num) true
  let s2 := if e.num < 16 then
      { s1 with ev := { s1.ev with pend := s1.ev.pend ++ (s1.liveGuards.map fun g => (g, e.num)).filter fun p => !s1.ev.pend.contains p } }
    else s1
  let s3 := if e.num < 16 ∨ s.flag (EVT_SRC_n.stream.src e.num) then
      { s2 with ev := { s2.ev with held := s2.ev.held ++ [e] } }
    else s2
  if loggedEvent e.num then s3.logRecord e.record else s3

/-- R500: the event raised as number `i` of those on their way reaches the controller. -/
def execEventArrival (dt i : Nat) (s : State) : Res :=
  let s := s.elapse dt
  .next <|
    match s.ev.inflight[i]? with
    | none => s
    | some e => { s with ev := { s.ev with inflight := s.ev.inflight.eraseIdx i } }.arrive e

/-- R287 type 0xB, R500: the packet that carries an event of a tile or a bay unit reaches the event controller. -/
def execEventRecordPacket (dt i : Nat) (s : State) : Res :=
  let s := s.elapse dt
  .next <|
    match s.ev.inflight[i]? with
    | none => s
    | some e => if e.coord < 10240 then { s with ev := { s.ev with inflight := s.ev.inflight.eraseIdx i } }.arrive e else s

/-- The lowest-numbered source that is pending, routed to guard g and unmasked (R502). -/
def State.selectable (s : State) (g : Nat) : Option Nat :=
  (List.range 256).find? fun n =>
    if n < 16 then s.ev.pend.contains (g, n)
    else s.flag (EVT_SRC_n.pending.src n) && s.routeOf n == g && !s.flag (EVT_SRC_n.mask.src n)

/-- R502, R503: selection for an idle guard. -/
def execEventSelect (dt g : Nat) (s : State) : Res :=
  let s := s.elapse dt
  .next <|
    if g < 4 ∧ !s.flag EVT_CTRL.disable ∧ !s.flag (svcValid g) ∧ !s.ev.selected.any (fun p => p.1 == g) then
      match s.selectable g with
      | none => s
      | some n => { s with ev := { s.ev with selected := s.ev.selected ++ [(g, n)] } }
    else s

/-- R502: delivery 4 WARD cycles after selection, whatever the masks do meanwhile. -/
def execEventDeliver (dt g : Nat) (s : State) : Res :=
  let s := s.elapse dt
  .next <|
    match s.ev.selected.find? (fun p => p.1 == g) with
    | none => s
    | some (_, n) =>
      let s1 := { s with ev := { s.ev with selected := s.ev.selected.filter (fun p => p.1 != g),
                                           pend := s.ev.pend.filter (fun p => p != (g, n)) } }
      let left := n < 16 && s1.ev.pend.any fun p => p.2 == n
      (((s1.set (svc g) n).setFlag (svcValid g) true).setFlag (EVT_SRC_n.in_service.src n) true).setFlag
        (EVT_SRC_n.pending.src n) left

/-- R502: the guard's end-of-service register is written. -/
def execGuardEndOfService (dt g : Nat) (s : State) : Res :=
  let s := s.elapse dt
  .next <|
    if g < 4 ∧ s.flag (svcValid g) then
      let n := s.get (svc g)
      let s1 := (s.setFlag (svcValid g) false).set (svc g) 0
      let still := (List.range 4).any fun h => s1.flag (svcValid h) && s1.get (svc h) == n
      s1.setFlag (EVT_SRC_n.in_service.src n) still
    else s

/-- R502, R505: a guard masks or unmasks a source routed to it; sources 0 to 15 are never masked (R507). -/
def execGuardMaskWrite (dt g n : Nat) (m : Bool) (s : State) : Res :=
  let s := s.elapse dt
  .next <| if 16 ≤ n ∧ n < 256 ∧ s.routeOf n = g then s.setFlag (EVT_SRC_n.mask.src n) m else s

/-- R503: a guard sets or clears the global disable. -/
def execGlobalDisableWrite (dt : Nat) (b : Bool) (s : State) : Res :=
  .next <| (s.elapse dt).setFlag EVT_CTRL.disable b

/-- The sort key of R94, with records stamped before an index load first (R95). -/
def EvRec.key (e : EvRec) : Nat := ((e.epoch * 2 ^ 64 + e.count) * 128 + e.sc) * 65536 + e.coord

/-- Insert a record in global order, after the records of the same key. -/
def insertEv (e : EvRec) : List EvRec → List EvRec
  | [] => [e]
  | f :: l => if e.key < f.key then e :: f :: l else f :: insertEv e l

/-- The records in global order. -/
def sortEv (l : List EvRec) : List EvRec := l.foldl (fun a e => insertEv e a) []

/-- R95, R403: every held record whose 64 axle ticks have passed leaves on channel 4, in global order, once. -/
def execEventRecordEmit (dt : Nat) (s : State) : Res :=
  let s := s.elapse dt
  let due := sortEv (s.ev.held.filter fun e => e.tick + 64 ≤ s.ticks)
  let s1 := { s with ev := { s.ev with held := s.ev.held.filter fun e => !decide (e.tick + 64 ≤ s.ticks) } }
  .next <| due.foldl (fun t e => t.queue4 e.record) s1

/-- R403: a loss record for each kind that lost records, as far as the room goes. -/
def State.sendLoss (s : State) : State :=
  s.ev.lost.foldl (fun t p =>
    if t.ev.stream.length < 65536 then
      { t with ev := { t.ev with stream := t.ev.stream ++ [⟨4, t.count, t.spokeCycle, 0, p.1, p.2, 0⟩],
                                 lost := Sparse.drop t.ev.lost p.1 } }
    else t) s

/-- R403: room returned in the channel 4 store. -/
def execStreamRoomReturns (dt : Nat) (s : State) : Res := .next (s.elapse dt).sendLoss

/-- R403: every 10 ms a running long command sends a progress record. -/
def execProgressRecord (dt : Nat) (s : State) : Res :=
  let s := s.elapse dt
  .next <|
    match s.port.long with
    | none => s
    | some c =>
      if s.port.progTick + usTicks 10000 ≤ s.ticks then
        { s with port := { s.port with progTick := s.ticks } }.queue4
          ⟨3, s.count, s.spokeCycle, 0, c.opcode, c.got, c.cmdId⟩
      else s

end Sys2Proof.Machine
end

