-- ==== Sys2Proof/Machine/Place.lean ====
section
/-! DEFINITION. Where things are: tile classes, mesh coordinates, paths, gateways, and the relocation of an image
(R24, R25, R97, R281 to R284, R293, R295, R299 to R302, R357 to R363, R579). -/

namespace Sys2Proof.Machine

/-! ### Tiles -/

/-- Class code of a tile by its source coordinate: 0 M, 1 V, 2 S, 3 P (R97, R134). -/
def tileClass (n : Nat) : Nat :=
  if 9216 ≤ n then 3
  else
    let u := n % 144 % 12
    let v := n % 144 / 12
    if u % 3 ≠ 2 then 0 else if (u = 2 ∨ u = 8) ∧ v % 3 = 1 then 2 else 1

/-- Coach of a coach tile, or 128 plus the bay of a P-tile: the `place` codes of R413. -/
def placeOf (n : Nat) : Nat := if n < 9216 then n / 144 else 128 + (n - 9216) / 32

/-- Site of a coach tile, or n of a P-tile. -/
def siteOf (n : Nat) : Nat := if n < 9216 then n % 144 else (n - 9216) % 32

/-- Roof bank over the M-tile at a site (R97). -/
def roofBank (site : Nat) : Nat := 8 * (site / 12) + site % 12 - site % 12 / 3

/-- Site of the M-tile beneath a roof bank. -/
def bankSite (k : Nat) : Nat := ((List.range 144).find? fun x => tileClass x == 0 && roofBank x == k).getD 0

/-- Every tile of a coach or of a bay. -/
def coachTiles (c : Nat) : List Nat := (List.range 144).map fun s => c * 144 + s
def bayTiles (b : Nat) : List Nat := (List.range 32).map fun n => 9216 + 32 * b + n

/-- Bytes of a tile's scratchpad (R96). -/
def spadBytes (n : Nat) : Nat :=
  match tileClass n with
  | 1 => 0x800000
  | 2 => 0x100000
  | _ => 0x400000

/-- Weight-store bytes of an M-tile in main parts (R100). -/
def wsBytes : Nat := 0x1400000

/-- Key of the side part of weight-store word w of a tile. -/
def sideKey (n w : Nat) : Nat := 281474976710656 + tileBase n + 4 * w

/-- Keys of coach-table bytes of coach c: main parts, and side part of word w (R104). -/
def tableKey (c off : Nat) : Nat := 2 * 281474976710656 + c * 268435456 + off
def tableSide (c w : Nat) : Nat := 3 * 281474976710656 + c * 268435456 + 4 * w

/-- Mesh coordinates (R281). -/
def meshX (n : Nat) : Nat := 12 * (n / 144 % 8) + n % 144 % 12
def meshY (n : Nat) : Nat := 12 * (n / 144 / 8) + n % 144 / 12

/-- Tile at mesh coordinates. -/
def tileAt (x y : Nat) : Nat := (y / 12 * 8 + x / 12) * 144 + y % 12 * 12 + x % 12

/-- Endpoint of a tile (R282). -/
def endpoint (n : Nat) : Nat :=
  if n < 9216 then meshX n * 128 + meshY n else 16384 + (n - 9216) / 32 * 256 + (n - 9216) % 32

/-- Tile that an endpoint names, if it names one. -/
def epTile (ep : Nat) : Option Nat :=
  if ep < 16384 then
    if ep / 128 < 96 ∧ ep % 128 < 96 then some (tileAt (ep / 128) (ep % 128)) else none
  else if ep < 32768 then
    let stop := ep / 256 % 64
    if stop < 24 ∧ ep % 256 < 32 then some (9216 + 32 * stop + ep % 256) else none
  else none

/-- An endpoint that R282 does not reserve: a tile, a unit of a bay, or a head unit. -/
def epValid (ep : Nat) : Bool :=
  if ep < 16384 then decide (ep / 128 < 96 ∧ ep % 128 < 96)
  else
    let stop := ep / 256 % 64
    decide (ep < 32768) && (decide (stop = 24) || decide (stop < 24 ∧ ep % 256 ≤ 0x22))

/-! ### Gateways and the ring (R283, R284) -/

/-- Tile and outward port of gateway g. -/
def gateway (g : Nat) : Nat × Nat :=
  let i := g % 8
  match g / 8 with
  | 0 => (i * 144 + 5, 0)
  | 1 => ((8 * i + 7) * 144 + 5 * 12 + 11, 1)
  | 2 => ((63 - i) * 144 + 11 * 12 + 6, 2)
  | _ => ((56 - 8 * i) * 144 + 6 * 12, 3)

/-- Bay whose stop gateway g is attached to. -/
def gatewayBay (g : Nat) : Nat := g / 8 * 6 + [0, 0, 1, 2, 3, 3, 4, 5].getD (g % 8) 0

/-- Home gateway of a bay. -/
def homeGateway (b : Nat) : Nat := ((List.range 32).find? fun g => gatewayBay g == b).getD 0

/-- Mesh tile at which traffic of a place enters the mesh: the tile itself, or its home gateway's. -/
def meshEnd (n : Nat) : Nat := if n < 9216 then n else (gateway (homeGateway ((n - 9216) / 32))).1

/-- Position of a ring stop: bays 0 to 17, the head (24), bays 18 to 23. -/
def ringPos (stop : Nat) : Nat := if stop = 24 then 18 else if stop < 18 then stop else stop + 1

/-! ### Paths (R293) -/

/-- The router next to tile n at a port. -/
def neighbour (n p : Nat) : Option Nat :=
  let x := meshX n
  let y := meshY n
  if n < 9216 then
    match p with
    | 0 => if y = 0 then none else some (tileAt x (y - 1))
    | 1 => if x = 95 then none else some (tileAt (x + 1) y)
    | 2 => if y = 95 then none else some (tileAt x (y + 1))
    | 3 => if x = 0 then none else some (tileAt (x - 1) y)
    | _ => none
  else none

/-- Output ports taken from `n` by `k` hops through port p. -/
def straight (p : Nat) : Nat → Nat → List (Nat × Nat)
  | _, 0 => []
  | n, k + 1 => (n, p) :: (match neighbour n p with | none => [] | some m => straight p m k)

/-- Output ports of the dimension-order path between two mesh tiles, X first unless `yx`. -/
def path (a b : Nat) (yx : Bool) : List (Nat × Nat) :=
  let hx := if meshX a ≤ meshX b then (1, meshX b - meshX a) else (3, meshX a - meshX b)
  let hy := if meshY a ≤ meshY b then (2, meshY b - meshY a) else (0, meshY a - meshY b)
  if yx then straight hy.1 a hy.2 ++ straight hx.1 (tileAt (meshX a) (meshY b)) hx.2
  else straight hx.1 a hx.2 ++ straight hy.1 (tileAt (meshX b) (meshY a)) hy.2

/-- The link out of a port is a hitch port (R281). -/
def isHitch (q : Nat × Nat) : Bool :=
  match neighbour q.1 q.2 with
  | none => false
  | some m => m / 144 != q.1 / 144

/-- Links and hitch ports of a path. -/
def hitches (l : List (Nat × Nat)) : Nat := (l.filter isHitch).length

/-- The hitch port is recorded as failed (R30, R31), or it is stopped and will be at the boundary. -/
def State.portFailed (s : State) (q : Nat × Nat) : Bool :=
  isHitch q && (s.net.failDue.any fun p => p == q || (p.2 == (q.2 + 2) % 4 && neighbour q.1 q.2 == some p.1)) || isHitch q && (if q.2 % 2 = 1 then s.get (TILE_HITCH_STATUS.ew_state.tile q.1) else s.get (TILE_HITCH_STATUS.ns_state.tile q.1)) == 3

/-- One order from tile a avoids every failed port on its way to every site of coach c. -/
def State.avoids (s : State) (a c : Nat) (yx : Bool) : Bool :=
  (List.range 12).all fun i => (path a (c * 144 + 13 * i) yx).all fun q => !s.portFailed q

/-- Coaches c and d are reachable from each other (R295, condition 5 of R362). -/
def State.reachable (s : State) (c d : Nat) : Bool :=
  (List.range 12).all fun i => s.avoids (c * 144 + 13 * i) d false || s.avoids (c * 144 + 13 * i) d true

/-! ### Good tiles and coaches -/

/-- The tile is not out of use: not failing or lost, and its coach not isolated (R359, R360). -/
def State.goodTile (s : State) (n : Nat) : Bool :=
  s.get (TILE_STATE.state.tile n) != 4 && (9216 ≤ n || !s.rep.isolated.contains (n / 144))

def State.goodCoach (s : State) (c : Nat) : Bool := !s.rep.isolated.contains c

/-! ### Relocation (R357 to R363) -/

/-- Tiles by ascending logical index. -/
def byIndex (l : List PlTile) : List PlTile :=
  l.foldl (fun a t => a.takeWhile (fun u => u.lt ≤ t.lt) ++ t :: a.dropWhile fun u => u.lt ≤ t.lt) []

/-- Tiles of one logical coach, or bay, by ascending logical index. -/
def tilesOf (i : Image) (lc : Nat) : List PlTile := byIndex (i.tiles.filter fun t => t.lc == lc)

/-- A logical coach of a draft model (R357). -/
def draftCoach (lc : Nat) : Bool := decide (64 ≤ lc ∧ lc < 72)

/-- The image with draft model `k` (1 primary, 2 fallback, 0 none) in its draft coaches: its tiles, its action lists, and its weight
descriptors, which a kind of 3 takes from a draft that is no longer placed (R236). -/
def withDraft (i : Image) (k : Nat) : Image :=
  let d := (if k = 0 then none else i.drafts[k - 1]?).getD ⟨0, 0, [], [], []⟩
  let lists (c : Sched) : Sched := { c with lists := (c.lists.filter fun l => !draftCoach l.lc) ++ d.lists }
  { i with
    tiles := (i.tiles.filter fun t => !draftCoach t.lc) ++ d.tiles
    sched := lists i.sched
    wide := i.wide.map lists
    weights := (i.weights.map fun w => if draftCoach w.place && w.kind != 1 then { w with kind := 3 } else w)
      ++ d.weights.map fun w => if w.kind = 0 then { w with shadow := w.shadow + i.weights.length } else w }

/-- Hops between two sites of one coach. -/
def siteHops (a b : Nat) : Nat :=
  (a % 12 - b % 12) + (b % 12 - a % 12) + ((a / 12 - b / 12) + (b / 12 - a / 12))

/-- Sites in order of hops from a site, ties to the lowest. -/
def nearest (site : Nat) (l : List Nat) : List Nat :=
  (List.range 23).flatMap fun h => l.filter fun x => siteHops (x % 144) site == h

/-- Place the tiles of a logical coach in physical coach c (R360), past the sites in `used`. -/
def State.placeCoach (s : State) (l : List PlTile) (c : Nat) (used : List Nat := []) : Sparse Nat :=
  let ts := byIndex l
  let ok (n : Nat) : Bool := s.goodTile n && !used.contains n
  let nom := (ts.filter fun t => ok (c * 144 + t.site)).map fun t => (t.lc * 256 + t.lt, c * 144 + t.site)
  (ts.filter fun t => !ok (c * 144 + t.site)).foldl (fun m t =>
    let cls := tileClass t.site
    match (nearest t.site ((coachTiles c).filter fun n =>
        ok n && tileClass n == cls && !m.any fun p => p.2 == n)).head? with
    | none => m
    | some n => m ++ [(t.lc * 256 + t.lt, n)]) nom

/-- Place the logical P-tiles of bay b (R360), or none when they do not fit. -/
def State.placeBay (s : State) (ts : List PlTile) (b : Nat) : Sparse Nat :=
  let nom := (ts.filter fun t => s.goodTile (9216 + 32 * b + t.site)).map fun t => (t.lc * 256 + t.lt, 9216 + 32 * b + t.site)
  (ts.filter fun t => !s.goodTile (9216 + 32 * b + t.site)).foldl (fun m t =>
    match (bayTiles b).find? fun n => s.goodTile n && !m.any fun p => p.2 == n with
    | none => m
    | some n => m ++ [(t.lc * 256 + t.lt, n)]) nom

/-- Physical coach c fits the tiles of a logical coach (R359). -/
def State.fits (s : State) (ts : List PlTile) (c : Nat) : Bool :=
  s.goodCoach c && (List.range 3).all fun cls =>
    decide ((ts.filter fun t => tileClass t.site == cls).length ≤
      ((coachTiles c).filter fun n => s.goodTile n && tileClass n == cls).length)

/-! ### Admissibility (R362) -/

/-- A packet of a transfer: the ports its flits take with their unloaded times, its worst hop count and hitch count, and the
extra cycles of a ring part (R299 to R301). -/
structure Leg where
  ports : List (Nat × Nat × Nat)
  (h c extra : Nat)
  deriving DecidableEq, Repr

/-- The physical coach of each logical model coach, as R359 assigned it. -/
def homesOf (pl : Sparse Nat) : Sparse Nat :=
  (pl.filter fun p => decide (p.1 / 256 < 64 ∧ p.2 < 9216)).foldl (fun h p => Sparse.put h (p.1 / 256) (p.2 / 144)) []

/-- Logical coach, model or draft, that a physical coach holds: a single tile that a repair displaced into it makes it hold none. -/
def State.holds (s : State) (pl : Sparse Nat) (c : Nat) : Option Nat :=
  match (if s.img.homes.isEmpty then homesOf pl else s.img.homes).find? fun h => h.2 == c with
  | some h => some h.1
  | none => ((pl.filter fun p => draftCoach (p.1 / 256)).find? fun p => p.2 / 144 == c).map fun p => p.1 / 256

/-- Bit c of TILE_ROUTE_YX of tile n under a placement (R361): the image's for the logical coaches held, else X first where that
avoids every failed port. -/
def State.routeBit (s : State) (i : Image) (pl : Sparse Nat) (n c : Nat) : Bool :=
  match s.holds pl (n / 144), s.holds pl c with
  | some p, some q =>
    let img := i.yxOrder.contains (p, q)
    if s.avoids n c img then img else !s.avoids n c false
  | _, _ => !s.avoids n c false

/-- Unloaded times at the ports of a path, for a flit that enters at time t: each link takes a cycle, each hitch one more. -/
def times (t : Nat) : List (Nat × Nat) → List (Nat × Nat × Nat)
  | [] => []
  | q :: l => (q.1, q.2, t) :: times (t + 1 + (if isHitch q then 1 else 0)) l

/-- Stops that a packet passes on the ring between two of them, its own among them (R283). -/
def ringStops (a b : Nat) : Nat :=
  let d := (ringPos b + 25 - ringPos a) % 25
  min d (25 - d) + 1

/-- One leg between placed tiles. A bay's end passes a gateway, at 4 CORE cycles, and ring stops, at 2 RNET cycles, at most 3 CORE
cycles, each; between two bays it stays on the ring (R284, R301; the bay's own stop is one it passes: DEDUCED, log entry 22). -/
def State.leg (s : State) (i : Image) (pl : Sparse Nat) (a b leave f : Nat) : Leg :=
  if 9216 ≤ a ∧ 9216 ≤ b then ⟨[], 0, 0, 3 * ringStops ((a - 9216) / 32) ((b - 9216) / 32)⟩
  else
    let ma := meshEnd a
    let mb := meshEnd b
    let p := path ma mb (s.routeBit i pl ma (mb / 144))
    let ring := (if a < 9216 then 0 else 1) + (if b < 9216 then 0 else 1)
    let ports := (List.range f).flatMap fun k => times (leave - (f - 1 - k)) (p ++ [(mb, 4)])
    ⟨ports, p.length, hitches p, ring * (4 + 3)⟩

/-- Where an end of a transfer is placed; an end in the bay of a coupling is reached through the bay's home gateway (R366). -/
def transferEnd (pl : Sparse Nat) (t : Transfer) (key : Nat) : Option Nat :=
  match Sparse.find pl key with
  | some n => some n
  | none => if t.flags.testBit 2 ∧ 0x80 ≤ key / 256 ∧ key / 256 < 0x98 then some (9216 + 32 * (key / 256 - 0x80)) else none

/-- The legs of a transfer under a placement; none while an end is not placed. -/
def State.legs (s : State) (i : Image) (pl : Sparse Nat) (t : Transfer) : Option (List Leg) :=
  match transferEnd pl t (t.srcC * 256 + t.srcT) with
  | none => none
  | some a =>
    if t.flags / 2 % 2 = 1 then
      match i.trees.find? fun d => d.num == t.dstC * 256 + t.dstT with
      | none => some []
      | some d =>
        let ms := d.members.map fun m => (m, Sparse.find pl (m.1 * 256 + m.2))
        if ms.any fun m => m.2.isNone then none
        else some (ms.filterMap fun m => m.2.map fun b => s.leg i pl a b t.leave t.flits)
    else
      match transferEnd pl t (t.dstC * 256 + t.dstT) with
      | none => none
      | some b => some [s.leg i pl a b t.leave t.flits]

/-- The paths of a tree from its root to each member under a placement; none while an end is not placed. -/
def State.treePaths (s : State) (i : Image) (pl : Sparse Nat) (d : TreeDecl) : Option (Nat × List (List (Nat × Nat))) :=
  match Sparse.find pl (d.lc * 256 + d.lt) with
  | none => none
  | some r =>
    let ms := d.members.map fun m => (m.1, Sparse.find pl (m.1 * 256 + m.2))
    if ms.any fun m => m.2.isNone then none
    else some (r, ms.filterMap fun m => m.2.map fun b => path r b (s.routeBit i pl r (b / 144)))

/-- The edges of a union of paths. -/
def treeEdges (ps : List (List (Nat × Nat))) : List (Nat × Nat) := (ps.flatMap id).eraseDups

/-- The union of paths reaches no router twice and stays in the mesh (R302, R306). -/
def treeOk (root : Nat) (ps : List (List (Nat × Nat))) : Bool :=
  let ends := (treeEdges ps).map fun q => neighbour q.1 q.2
  root < 9216 && ends.all (fun e => e.isSome && e != some root) && ends.eraseDups.length == ends.length

/-- Times at which the image's barrier flits take the ports of a barrier's tree (arrivals upward, the release downward):
(tile, port, time). -/
def State.barrierFlits (s : State) (i : Image) (pl : Sparse Nat) (sc : Sched) : List (Nat × Nat × Nat) :=
  i.barriers.flatMap fun d =>
    match s.treePaths i pl d with
    | none => []
    | some (_, ps) =>
      let offs := d.members.map fun m =>
        (sc.lists.flatMap fun l => if l.lc = m.1 ∧ l.lt = m.2 then
          (l.acts.filter fun a => a.kind == 3 && a.chan == d.num).map (·.offset) else [])
      let up := (List.zip ps offs).flatMap fun x => x.2.flatMap fun o =>
        (times o (x.1.reverse.filterMap fun q => (neighbour q.1 q.2).map fun m => (m, (q.2 + 2) % 4)))
      let done := (List.zip ps offs).foldl (fun m x =>
        max m ((x.2.foldl max 0) + x.1.length + hitches x.1)) 0
      up.eraseDups ++ (ps.flatMap fun p => times done p).eraseDups

/-- The conditions of R362 on one schedule set and its transfers, over every transfer, tree and barrier whose ends are placed. -/
def State.admits (s : State) (i : Image) (pl : Sparse Nat) (sc : Sched) (ts : List Transfer) : Bool :=
  let vc1 := (ts.filter fun t => t.vc == 1).filterMap fun t => (s.legs i pl t).map fun l => (t, l)
  let bars := s.barrierFlits i pl sc
  let one := vc1.all fun x => x.2.all fun l =>
    let b := (bars.filter fun q => l.ports.any fun p => p.1 == q.1 && p.2.1 == q.2.1) |>.filter fun q =>
      decide (x.1.leave ≤ q.2.2 + x.1.flits ∧ q.2.2 ≤ x.1.leave + l.h + l.c)
    decide (x.1.leave + (1 + 2 * l.h + l.c + x.1.flits + b.length + l.extra) + (if x.1.flags % 2 = 1 then 2 else 0)
      ≤ x.1.deadline)
  let uses : List (Nat × Nat × Nat) := vc1.flatMap fun x => (x.2.flatMap fun l => l.ports).eraseDups
  let two : Bool := uses.eraseDups.length == uses.length
  let three := uses.all fun q => decide ((uses.filter fun p =>
    p.1 == q.1 && p.2.1 == q.2.1 && decide (q.2.2 ≤ p.2.2 ∧ p.2.2 < q.2.2 + 64)).length ≤ 44)
  one && two && three

/-- Condition 4: every placed tree and barrier. -/
def State.treesOk (s : State) (i : Image) (pl : Sparse Nat) : Bool :=
  (i.trees.all fun d => match s.treePaths i pl d with | none => true | some (r, ps) => treeOk r ps)
    && i.barriers.all fun d => match s.treePaths i pl d with
      | none => true
      | some (r, ps) => treeOk r ps && ps.all fun p => decide (p.length ≤ 130 ∧ hitches p ≤ 16)

/-- Condition 5: the pairs of coaches that hold logical coaches, and each paired with the gateways of R284. -/
def State.pairsOk (s : State) (pl : Sparse Nat) : Bool :=
  let cs := ((pl.filter fun p => p.2 < 9216).map fun p => p.2 / 144).eraseDups
  let gs := (((List.range 24).map fun b => (gateway (homeGateway b)).1 / 144)
    ++ (List.range 8).map fun g => (gateway (24 + g)).1 / 144).eraseDups
  cs.all fun c => (cs ++ gs).all fun d => c == d || (s.reachable c d && s.reachable d c)

/-- The ends of every placed transfer are reachable from each other. -/
def State.endsReach (s : State) (pl : Sparse Nat) (ts : List Transfer) : Bool :=
  ts.all fun t => match transferEnd pl t (t.srcC * 256 + t.srcT), transferEnd pl t (t.dstC * 256 + t.dstT) with
    | some a, some b => meshEnd a / 144 == meshEnd b / 144 || s.reachable (meshEnd a / 144) (meshEnd b / 144)
    | _, _ => true

/-- The conditions of R362 on every transfer, tree and barrier whose ends are placed; of condition 5, that the ends of a transfer are
reachable (R359, DEDUCED, log entry 22). -/
def State.admissible (s : State) (i : Image) (pl : Sparse Nat) : Bool :=
  s.admits i pl i.sched i.transfers && s.endsReach pl i.transfers
    && (match i.wide with | none => true | some w => s.admits i pl w i.wideTransfers && s.endsReach pl i.wideTransfers)
    && s.treesOk i pl

/-- Logical coach L takes coach c beside the coaches assigned so far (R359). -/
def State.tryCoach (s : State) (i : Image) (L c : Nat) (pl : Sparse Nat) : Sparse Nat := pl ++ s.placeCoach (tilesOf i L) c

/-- Physical coaches that a placement uses. -/
def coachesOf (pl : Sparse Nat) : List Nat := ((pl.filter fun p => p.2 < 9216).map fun p => p.2 / 144).eraseDups

/-- R359's two passes; none when a logical coach finds no place. -/
def State.assign (s : State) (i : Image) : Option (Sparse Nat) :=
  let n := i.header.logicalCoaches
  let order (k : Nat) : Nat := i.coachOrder.getD k 0
  let p1 := (List.range n).foldl (fun pl L =>
    if s.fits (tilesOf i L) (order L) then s.tryCoach i L (order L) pl else pl) []
  let unset := (List.range n).filter fun L => !s.fits (tilesOf i L) (order L)
  unset.foldl (fun o L =>
    match o with
    | none => none
    | some pl =>
      match ((List.range (64 - n)).map fun k => order (n + k)).find? fun c =>
          !(coachesOf pl).contains c && s.fits (tilesOf i L) c && s.admissible i (s.tryCoach i L c pl) with
      | none => none
      | some c => some (s.tryCoach i L c pl)) (some p1)

/-- The reserve order of R579, for logical model coaches held by the coaches of `homes`. -/
def reserveOrder (i : Image) (homes : List Nat) : List Nat :=
  let n := i.header.logicalCoaches
  i.coachOrder.drop n ++ (i.coachOrder.take n).filter fun c => !homes.contains c

/-- Reserve coaches (R3, R579): of the reserve order, good, not isolated, and holding no logical model coach. A coach that holds
single tiles that repairs displaced into it is one. -/
def State.reserves (s : State) (i : Image) (homes : List Nat) : List Nat :=
  (reserveOrder i homes).filter fun c => s.goodCoach c && !homes.contains c

/-- The coaches that hold a logical model coach, or that a rebuild in progress gives one (R432). -/
def State.homeCoaches (s : State) : List Nat :=
  s.img.homes.map (·.2) ++ s.rep.rebuilds.map (·.target)

/-- Place the larger draft model that fits the reserve coaches (R236): its number (1 primary, 2 fallback, 0 none) and tiles. A
coach that holds a tile of the model takes no draft model (R424); of drafts of one size the primary is the larger. -/
def State.placeDraft (s : State) (i : Image) (homes : List Nat) (pl : Sparse Nat) : Nat × Sparse Nat :=
  let model := coachesOf (pl.filter fun p => p.1 / 256 < 64)
  let res := (s.reserves i homes).filter fun c => !model.contains c
  let try_ (k : Nat) : Option (Nat × Sparse Nat) :=
    match i.drafts[k]? with
    | none => none
    | some d =>
      let cs := (List.range d.coaches).foldl (fun (a : Option (List Nat × List Nat)) j =>
        match a with
        | none => none
        | some (used, free) =>
          match free.find? fun c => s.fits (d.tiles.filter fun t => t.lc == 0x40 + j) c with
          | none => none
          | some c => some (used ++ [c], free.filter fun x => x != c)) (some ([], res))
      cs.map fun x => (k + 1, (List.range d.coaches).flatMap fun j =>
        s.placeCoach (d.tiles.filter fun t => t.lc == 0x40 + j) (x.1.getD j 0))
  let order := if ((i.drafts[0]?).map (·.coaches)).getD 0 < ((i.drafts[1]?).map (·.coaches)).getD 0 then [1, 0] else [0, 1]
  match order.findSome? try_ with
  | some r => r
  | none => (0, [])

/-- The relocation of an image on this device (R359 to R362): none for load error 0x08. -/
def State.relocate (s : State) (i : Image) : Option (Nat × Sparse Nat) :=
  match s.assign i with
  | none => none
  | some pl =>
    let bays := (List.range 24).flatMap fun b => s.placeBay (tilesOf i (0x80 + b)) b
    let d := s.placeDraft i ((homesOf pl).map (·.2)) pl
    let all := pl ++ d.2 ++ bays
    if s.admissible i all && s.pairsOk all then some (d.1, all) else none

/-- A placement as a table in key order. -/
def sortPlace (pl : Sparse Nat) : Sparse Nat := pl.foldl (fun m p => Sparse.put m p.1 p.2) []

/-! ### Looking up the relocation in effect -/

/-- Logical tile that a physical tile holds, if any. -/
def State.logicalOf (s : State) (n : Nat) : Option Nat := (s.img.place.find? fun p => p.2 == n).map (·.1)

/-- TILE_ROUTE_YX of a physical tile under the image (R361). -/
def State.routeBits (s : State) (i : Image) (pl : Sparse Nat) (n : Nat) : Nat :=
  (List.range 64).foldl (fun a c => if s.routeBit i pl n c then a + 2 ^ c else a) 0

/-- A relocation entry as HEAD_RELOC_ENTRY gives it (R364). -/
def State.relocEntry (s : State) (key : Nat) : Nat :=
  match Sparse.find s.img.place key, s.img.image with
  | some n, some i =>
    match i.tiles.find? fun t => t.lc * 256 + t.lt == key with
    | none => 0
    | some t =>
      let nomPlace := if t.lc < 64 then i.coachOrder.getD t.lc 0 else if t.lc < 128 then n / 144 else t.lc - 128
      let place := if n < 9216 then n / 144 else (n - 9216) / 32
      let moved := if place = nomPlace ∧ siteOf n = t.site then 0 else 1
      2 ^ 63 + moved * 2 ^ 62 + nomPlace * 2 ^ 48 + t.site * 2 ^ 40 + place * 2 ^ 24 + siteOf n * 2 ^ 16
  | _, _ => 0

end Sys2Proof.Machine
end

