-- ==== Sys2Proof/Machine/Routers.lean ====
section
/-! DEFINITION. Routers of the mesh and stops of the ring: packet headers, flits, input buffers and credits, arbitration and link
words (R281 to R290, R293, R294, R297, R298, R306, R307). The flits of a packet move by FLIT_RECEIVE commands, and output ports
work as CORE cycles pass. A ring stop is taken to work as a router does, once in a CORE cycle: the spec gives its order of stops
and its direction, and no buffers or arbitration of its own (DESIGN CHOICE, log entry 52). -/

namespace Sys2Proof.Machine

/-! ### Headers (R282, R286, R287, R293) -/

/-- Endpoints of the units of a bay and of the head. -/
def bayEp (b u : Nat) : Nat := 16384 + 256 * b + u
def headEp : Nat := 16384 + 256 * 24

/-- Bay and unit that an endpoint names, if it names a unit of a bay. -/
def epUnit (ep : Nat) : Option (Nat × Nat) :=
  if 16384 ≤ ep ∧ ep < 32768 ∧ ep / 256 % 64 < 24 then some (ep / 256 % 64, ep % 256) else none

/-- Header bits of a packet from flit bit 32 up (R286). -/
def headerBits (p : Packet) : Nat :=
  p.ty + p.dst * 2 ^ 4 + p.src * 2 ^ 19 + p.yx * 2 ^ 34 + p.chan * 2 ^ 35 + p.tag * 2 ^ 38 + p.len * 2 ^ 46 + p.space * 2 ^ 51
    + p.offset * 2 ^ 53 + p.circ * 2 ^ 89

/-- The virtual channel is one that R287 allows the type. -/
def vcAllowed (p : Packet) : Bool :=
  if p.ty ≤ 6 then decide (1 ≤ p.vc ∧ p.vc ≤ 3) else if p.ty ≤ 11 then p.vc == 0 else false

/-- A packet that R287 discards: reserved type or endpoint, or a type on a channel not allowed to it. -/
def badPacket (p : Packet) : Bool :=
  decide (12 ≤ p.ty) || !vcAllowed p || !epValid p.src || (p.ty != 5 && p.ty != 7 && p.ty != 8 && !epValid p.dst)

/-- Discard a packet at tile n (R287). -/
def State.discard (s : State) (n : Nat) (p : Packet) : State :=
  (s.inc (TILE_NET_ERR.discarded.tile n)).raise 85 n (headerBits p) 0

/-- Coach at which traffic between tile n and an endpoint leaves or enters the mesh (R284, R293). -/
def epCoach (n ep : Nat) : Nat :=
  match epTile ep with
  | some m => meshEnd m / 144
  | none =>
    match epUnit ep with
    | some (b, _) => meshEnd (9216 + 32 * b) / 144
    | none => (gateway (31 - n / 144 / 8)).1 / 144

/-- Mesh tile whose routing table serves a source endpoint for a destination: its own, that of its bay's home gateway, or from the
head that of gateway G(31 − y) of the destination's coach row y (R284, R293). -/
def epMesh (ep dst : Nat) : Nat :=
  match epTile ep with
  | some m => meshEnd m
  | none =>
    match epUnit ep with
    | some (b, _) => meshEnd (9216 + 32 * b)
    | none => (gateway (31 - (match epTile dst with | some m => meshEnd m / 144 / 8 | none => 0))).1

/-- `yx` of a packet from one endpoint to another (R293). -/
def State.yxBit (s : State) (src dst : Nat) : Nat :=
  s.get (TILE_ROUTE_YX.yx.tile (epMesh src dst)) / 2 ^ epCoach (epMesh src dst) dst % 2

/-! ### Flits (R285, R286, R288, R289) -/

/-- Weight-store or coach-table space. -/
def roofSpace (sp : Nat) : Bool := sp == 1 || sp == 2

/-- Bytes of one granule of a space on the network (R288). -/
def granBytes (sp : Nat) : Nat := if roofSpace sp then 68 else 64

/-- A packet is a response (R287). -/
def isResponse (p : Packet) : Bool := p.ty == 2 || p.ty == 3 || p.ty == 4 || p.ty == 10

/-- Buffer class of a packet, coded as `class` of the link word: bit 1 `yx`, bit 0 a response (R285, R294). -/
def classOf (p : Packet) : Nat := p.yx % 2 * 2 + if isResponse p then 1 else 0

/-- Flits of a packet with n payload bytes (R288). -/
def flitCount (n : Nat) : Nat := if n ≤ 112 then 1 else 1 + ceilDiv (n - 112) 124

/-- Payload bytes of a packet by its header (R287). -/
def payloadBytes (p : Packet) : Nat :=
  if p.ty = 0 ∨ p.ty = 2 ∨ p.ty = 5 then p.len * granBytes p.space else if 9 ≤ p.ty then p.len * 64 else 0

/-- Link word of flit j of f of a packet, with no sequence number, credit or check (R285). -/
def linkWord (p : Packet) (j f : Nat) : Nat :=
  classOf p * 2 ^ 21 + (if j + 1 = f then 2 ^ 20 else 0) + (if j = 0 then 1 else 2) * 2 ^ 18 + p.vc % 4 * 2 ^ 16

/-- Flit j of f of a packet: the header and the first 112 payload bytes in the head flit, 124 in each body flit (R285, R286, R288). -/
def packetFlit (p : Packet) (j f : Nat) : Nat :=
  let v := leNat p.data
  if j = 0 then linkWord p 0 f + headerBits p % 2 ^ 96 * 2 ^ 32 + v % 2 ^ 896 * 2 ^ 128
  else linkWord p j f + v / 2 ^ (896 + 992 * (j - 1)) % 2 ^ 992 * 2 ^ 32

/-- The flits of a packet. -/
def packetFlits (p : Packet) : List Nat :=
  let f := flitCount p.data.length
  (List.range f).map fun j => packetFlit p j f

/-- Header of the packet that a head flit begins (R285, R286). -/
def headOf (flit : Nat) : Packet :=
  ⟨bits flit 32 4, bits flit 16 2, bits flit 66 1, bits flit 51 15, bits flit 36 15, bits flit 67 3, bits flit 70 8, bits flit 78 5,
    bits flit 83 2, bits flit 85 36, bits flit 121 4, []⟩

/-- The packet that flits carry. -/
def packetOf : List Nat → Packet
  | [] => ⟨0, 0, 0, 0, 0, 0, 0, 0, 0, 0, 0, []⟩
  | h :: t =>
    let p := headOf h
    let v := bits h 128 896 + (List.zip (List.range t.length) t).foldl (fun a x => a + bits x.2 32 992 * 2 ^ (896 + 992 * x.1)) 0
    { p with data := leBytes (payloadBytes p) v }

/-- A flit without its link's own fields: sequence number, nack, credit and check (R285). -/
def plainFlit (flit : Nat) : Nat := flit / 2 ^ 32 * 2 ^ 32 + bits flit 16 7 * 2 ^ 16

/-- CRC of flit bits 1023:16, from bit 1023 downward (R289). -/
def flitCrc (flit : Nat) : Nat :=
  (List.range 1008).foldl (fun c i =>
    let c2 := 2 * c % 65536
    if (flit.testBit (1023 - i)) != (c.testBit 15) then c2 ^^^ 0x8BB7 else c2) 0xFFFF

/-- A flit is sequenced: it carries data, or a credit (R285, R290). -/
def sequenced (flit : Nat) : Bool := bits flit 18 2 != 0 || (bits flit 31 1 == 0 && bits flit 27 1 == 1)

/-- Virtual channel and class of a flit's data, as virtual channel × 4 + class. -/
def vcClass (flit : Nat) : Nat := bits flit 16 2 * 4 + bits flit 21 2

/-! ### Routers, stops and links (R281, R283, R284) -/

/-- Number of a ring stop among the routers: tiles' routers come before. -/
def stopNode (stop : Nat) : Nat := 9216 + stop

/-- Ring stop at a position, clockwise (R283). -/
def ringStop (pos : Nat) : Nat :=
  let q := pos % 25
  if q < 18 then q else if q = 18 then 24 else q - 1

/-- Gateways attached to a ring stop, in ascending order; the first is the bay's home gateway (R284). -/
def stopGateways (stop : Nat) : List Nat := if stop < 24 then (List.range 32).filter fun g => gatewayBay g == stop else []

/-- Port of its ring stop that gateway g is attached to. A stop's ports: 0 clockwise, 1 counter-clockwise, 2 and 3 its gateways,
4 its own units. -/
def gatewayPort (g : Nat) : Nat := 2 + (stopGateways (gatewayBay g)).findIdx (· == g)

/-- Gateway of a tile's port, if it has one. -/
def gatewayAt (n port : Nat) : Option Nat := (List.range 32).find? fun g => gateway g == (n, port)

/-- Router and input port at the far end of the link out of a port (R281, R283, R284). -/
def linkEnd (node port : Nat) : Option (Nat × Nat) :=
  if node < 9216 then
    match neighbour node port with
    | some m => some (m, (port + 2) % 4)
    | none => (gatewayAt node port).map fun g => (stopNode (gatewayBay g), gatewayPort g)
  else
    let stop := node - 9216
    if 25 ≤ stop then none
    else match port with
      | 0 => some (stopNode (ringStop (ringPos stop + 1)), 1)
      | 1 => some (stopNode (ringStop (ringPos stop + 24)), 0)
      | 2 | 3 => ((stopGateways stop)[port - 2]?).map gateway
      | _ => none

/-- Router at which an endpoint's packets start and end. -/
def epNode (ep : Nat) : Nat :=
  match epTile ep with
  | some m => if m < 9216 then m else stopNode ((m - 9216) / 32)
  | none => stopNode (ep / 256 % 64)

/-- Gateway by which a packet passes between the mesh and the ring, from or to a ring stop; `mesh` is the tile at its other end
(R284). -/
def gatewayFor (stop mesh : Nat) : Nat := if stop < 24 then homeGateway stop else 31 - mesh / 144 / 8

/-- Output port toward a tile in dimension order: X first unless `yx` (R293). -/
def meshPort (n m : Nat) (yx : Bool) : Nat :=
  let px := if meshX n < meshX m then 1 else 3
  let py := if meshY n < meshY m then 2 else 0
  if meshX n = meshX m ∧ meshY n = meshY m then 4
  else if yx then (if meshY n = meshY m then px else py) else if meshX n = meshX m then py else px

/-- Direction on the ring that passes fewer stops, clockwise when both pass the same number (R283). -/
def ringPort (from_ to_ : Nat) : Nat :=
  let cw := (ringPos to_ + 25 - ringPos from_) % 25
  if cw ≤ 25 - cw then 0 else 1

/-- Output port of a router for a unicast packet (R283, R284, R293). -/
def nextPort (node : Nat) (p : Packet) : Nat :=
  let a := epNode p.src
  let b := epNode p.dst
  if node = b then 4
  else if node < 9216 then
    if b < 9216 then meshPort node b (p.yx == 1)
    else
      let g := gateway (gatewayFor (b - 9216) a)
      if node = g.1 then g.2 else meshPort node g.1 (p.yx == 1)
  else
    let stop := if b < 9216 then gatewayBay (gatewayFor (a - 9216) b) else b - 9216
    if node - 9216 = stop then gatewayPort (gatewayFor (a - 9216) b) else ringPort (node - 9216) stop

/-! ### Buffers, ports and links of the state -/

/-- Receiving end of the link into a port of a router. -/
def State.meshLink (s : State) (n port : Nat) : Link := (Sparse.find s.net.links (8 * n + port)).getD {}
def State.setMeshLink (s : State) (n port : Nat) (l : Link) : State :=
  { s with net := { s.net with links := Sparse.put s.net.links (8 * n + port) l } }

/-- Key of the buffer of an input port for a virtual channel and class. -/
def bufKey (node port vcc : Nat) : Nat := (5 * node + port) * 16 + vcc

/-- An input buffer (R294). -/
def State.buf (s : State) (key : Nat) : List BufFlit := (Sparse.find s.net.bufs key).getD []
def State.setBuf (s : State) (key : Nat) (l : List BufFlit) : State :=
  { s with net := { s.net with bufs := if l.isEmpty then Sparse.drop s.net.bufs key else Sparse.put s.net.bufs key l } }

/-- An output port. -/
def State.outPort (s : State) (node o : Nat) : OutPort := (Sparse.find s.net.outs (5 * node + o)).getD {}
def State.setOut (s : State) (node o : Nat) (x : OutPort) : State :=
  { s with net := { s.net with outs := Sparse.put s.net.outs (5 * node + o) x } }

/-- Field of TILE_LINK_STATUS_p. -/
def Fld.lnk (f : Fld) (n port : Nat) : Fld := (f.tile n).off (8 * port)

/-- A hitch port is held in this spoke while its wires are substituted, in both directions (R29). -/
def State.portHeld (s : State) (node port : Nat) : Bool :=
  s.net.heldSpoke == s.spoke + 1 &&
    (s.net.held.contains (node, port) || match linkEnd node port with | some e => s.net.held.contains e | none => false)

/-- Traffic leaves a port: it has a link that is not stopped, held or under test (R29, R30, R291). -/
def State.portOpen (s : State) (node o : Nat) : Bool :=
  match linkEnd node o with
  | none => false
  | some e => !(s.meshLink e.1 e.2).testing && !s.portHeld node o
      && (decide (9216 ≤ node) || s.get (TILE_LINK_STATUS_p.out_state.lnk node o) != 3)

/-- The transmitter keeps a flit for resend until the round trip, of at most one axle tick, has passed; a pattern test does not end
that (R290, R291; the tick is the model's resolution: DESIGN CHOICE, log entry 1). -/
def State.keptFlits (s : State) (l : Link) : List (Nat × Nat × Nat) :=
  if l.testing then l.kept else l.kept.filter fun k => s.ticks ≤ k.2.2 + 1

/-! ### Sending flits (R285, R290) -/

/-- A flit, or with `none` no data, goes onto the link out of a port: numbered when it carries data or a credit, with a credit of
the link into that port when one is due, or with the nack that is due (R285, R290). -/
def State.sendFlit (s : State) (node o : Nat) (data : Option Nat) : State :=
  match linkEnd node o with
  | none => s
  | some (m, q) =>
    let l := s.meshLink m q
    let r := s.meshLink node o
    let nack := r.nacking && r.nackAt ≠ s.ticks + 1
    let credit := if nack then none else r.owed.head?
    let seqd := data.isSome || credit.isSome
    let side :=
      if nack then 2 ^ 31 + r.expect * 2 ^ 24
      else match credit with
        | some c => 2 ^ 27 + c / 4 * 2 ^ 25 + c % 4 * 2 ^ 23
        | none => 0
    let f := data.getD 0 + (if seqd then l.next * 2 ^ 28 else 0) + side
    let flit := f + flitCrc f
    let kept := s.keptFlits l
    let used := match data with
      | none => l.used
      | some d => Sparse.put l.used (vcClass d) ((Sparse.find l.used (vcClass d)).getD 0 + 1)
    let l1 := { l with wire := l.wire ++ [flit], used := used, next := if seqd then (l.next + 1) % 8 else l.next,
                       kept := if seqd then kept ++ [(l.next, flit, s.ticks)] else kept }
    let r1 := { r with owed := if credit.isSome then r.owed.drop 1 else r.owed, nackAt := if nack then s.ticks + 1 else r.nackAt }
    (s.setMeshLink m q l1).setMeshLink node o r1

/-- The transmitter may send one more sequenced flit: it keeps fewer than 8 (R290). -/
def State.maySend (s : State) (node o : Nat) : Bool :=
  match linkEnd node o with
  | none => false
  | some (m, q) => decide ((s.keptFlits (s.meshLink m q)).length < 8)

/-! ### Arbitration (R297, R298) -/

/-- A flit at the head of an input buffer of a router that has still to go out of port o. -/
structure Claim where
  (port vcc flit src : Nat)
  deriving DecidableEq, Repr

/-- Claims on an output port in a virtual channel, by input port and class. -/
def State.claims (s : State) (node o vc : Nat) : List Claim :=
  (List.range 5).flatMap fun p => (List.range 4).filterMap fun c =>
    match s.buf (bufKey node p (4 * vc + c)) with
    | [] => none
    | b :: _ => if b.left.testBit o then some ⟨p, 4 * vc + c, b.flit, b.src⟩ else none

/-- A barrier flit: type 0x7 or 0x8 (R297). -/
def isBarrierFlit (flit : Nat) : Bool := bits flit 32 4 == 7 || bits flit 32 4 == 8

/-- A claim may be granted: a credit of its class is there, its packet holds the output's channel and class or begins and nothing
holds them (R298), and a control flit is not paced (R297). -/
def State.claimReady (s : State) (node o : Nat) (c : Claim) : Bool :=
  let x := s.outPort node o
  let credit := o == 4 || match linkEnd node o with
    | none => false
    | some (m, q) => decide ((Sparse.find (s.meshLink m q).used c.vcc).getD 0 < 4)
  let held := match Sparse.find x.grants c.vcc with
    | none => bits c.flit 18 2 == 1
    | some g => g.1 == c.port
  credit && held && (c.vcc / 4 != 0 || isBarrierFlit c.flit || decide (x.control ≤ s.net.cycle))

/-- The grant of an output port in this cycle: VC0 before VC3, barrier flits before control flits, input ports of one channel in
turn (R297, R298). -/
def State.grant (s : State) (node o : Nat) : Option Claim :=
  let x := s.outPort node o
  if o ≠ 4 ∧ !(s.portOpen node o && s.maySend node o && decide (x.busy ≤ s.net.cycle)) then none
  else (List.range 4).findSome? fun vc =>
    let l := (s.claims node o vc).filter fun c => s.claimReady node o c
    let l1 := if vc = 0 ∧ l.any fun c => isBarrierFlit c.flit then l.filter fun c => isBarrierFlit c.flit else l
    let from_ := (Sparse.find x.last vc).elim 0 (· + 1)
    match l1.find? fun c => from_ ≤ c.port with
    | some c => some c
    | none => l1.head?

/-- A network port has taken the last flit of a packet: its flits are no longer in routers. -/
def State.takeFlit (s : State) (node vcc flit : Nat) : State :=
  let k := 16 * node + vcc
  let l := (Sparse.find s.net.taking k).getD [] ++ [flit]
  if flit.testBit 20 then
    let gone := s.net.begun.find? fun p => packetFlits p == l
    { s with net := { s.net with taking := Sparse.drop s.net.taking k,
                                 begun := match gone with | some p => s.net.begun.erase p | none => s.net.begun } }
  else { s with net := { s.net with taking := Sparse.put s.net.taking k l } }

/-- A buffer of the link into a port is free again: its credit is due (R294); the network port's own buffers need none. -/
def State.oweCredit (s : State) (node port vcc : Nat) : State :=
  if port = 4 then s
  else
    let r := s.meshLink node port
    s.setMeshLink node port { r with owed := r.owed ++ [vcc] }

/-- A granted flit goes out of port o; its buffer is free once every branch has taken it (R307). -/
def State.passFlit (s : State) (node o : Nat) (c : Claim) : State :=
  let key := bufKey node c.port c.vcc
  let x := s.outPort node o
  let last := c.flit.testBit 20
  let s1 := match s.buf key with
    | [] => s
    | b :: rest =>
      let left := b.left - 2 ^ o
      if left = 0 then (s.setBuf key rest).oweCredit node c.port c.vcc else s.setBuf key ({ b with left := left } :: rest)
  let slow := node < 9216 && s.get (TILE_LINK_STATUS_p.out_state.lnk node o) == 2
  let x1 : OutPort := { grants := if last then Sparse.drop x.grants c.vcc else Sparse.put x.grants c.vcc (c.port, c.src),
                        last := Sparse.put x.last (c.vcc / 4) c.port,
                        control := if c.vcc / 4 = 0 ∧ !isBarrierFlit c.flit then s.net.cycle + 32 else x.control,
                        busy := s.net.cycle + if o ≠ 4 ∧ slow then 2 else 1 }
  let s2 := s1.setOut node o x1
  if o = 4 then s2.takeFlit node c.vcc c.flit else s2.sendFlit node o (some c.flit)

/-- VC1 flits that wait at output port o for the flit granted, or for the packet that holds their class, are noted once (R298). -/
def State.noteWaits (s : State) (node o : Nat) (g : Option Claim) : State :=
  let x := s.outPort node o
  (s.claims node o 1).foldl (fun t c =>
    let by_ := match g with
      | some y => if y.vcc / 4 = 1 ∧ y ≠ c then some y.src else none
      | none => match Sparse.find x.grants c.vcc with
        | some h => if h.1 ≠ c.port then some h.2 else none
        | none => none
    match by_, t.buf (bufKey node c.port c.vcc) with
    | some src, b :: rest =>
      if b.waited.testBit o then t
      else
        let t1 := t.setBuf (bufKey node c.port c.vcc) ({ b with waited := b.waited + 2 ^ o } :: rest)
        { t1 with net := { t1.net with waited := t1.net.waited ++ [(node, o, src)] } }
    | _, _ => t) s

/-- One CORE cycle of a router: every output port grants one flit on what the buffers hold as the cycle begins; a port that sends no
data returns a credit or sends a nack that is due (R290, R297). -/
def State.routerCycle (s : State) (node : Nat) : State :=
  let gs := (List.range 5).map fun o => (o, s.grant node o)
  let s1 := gs.foldl (fun t x => t.noteWaits node x.1 x.2) s
  gs.foldl (fun t x =>
    match x.2 with
    | some c => t.passFlit node x.1 c
    | none =>
      let r := t.meshLink node x.1
      let nack := r.nacking && r.nackAt ≠ t.ticks + 1
      if x.1 ≠ 4 ∧ t.portOpen node x.1 ∧ (nack ∨ (!r.owed.isEmpty ∧ t.maySend node x.1)) then t.sendFlit node x.1 none else t) s1

/-- Routers with a flit to pass, a credit to return or a nack to send. -/
def State.busyRouters (s : State) : List Nat :=
  ((s.net.bufs.map fun (b : Nat × List BufFlit) => b.1 / 80) ++
    ((s.net.links.filter fun (l : Nat × Link) => !l.2.owed.isEmpty || l.2.nacking).map fun (l : Nat × Link) => l.1 / 8)).eraseDups

/-- `n` CORE cycles of the routers. -/
def State.routeCycles : Nat → State → State
  | 0, s => s
  | n + 1, s =>
    let s1 := s.busyRouters.foldl (fun t node => t.routerCycle node) s
    State.routeCycles n { s1 with net := { s1.net with cycle := s1.net.cycle + 1 } }

/-- The routers work up to the present CORE cycle. Without a flit from outside a waiting flit moves within 34 cycles or not at all. -/
def State.route (s : State) : State :=
  let flits := (s.net.bufs.map fun b => b.2.length).sum
  let owed := (s.net.links.map fun l => l.2.owed.length + if l.2.nacking then 1 else 0).sum
  let n := if flits + owed = 0 then 0 else min (s.tile.cyc - s.net.cycle) (34 * (5 * flits + owed) + 1)
  let s1 := State.routeCycles n s
  { s1 with net := { s1.net with cycle := s.tile.cyc } }

/-! ### Taking flits in (R287, R294, R306) -/

/-- Output ports of a packet at a router: of its tree (R306), the router itself for a barrier flit (R303), else one (R293). -/
def State.portsFor (s : State) (node : Nat) (p : Packet) : Nat :=
  if p.ty = 5 then
    let e (f : Fld) : Nat := s.get ((f.tile node).off (8 * (p.dst % 256)))
    if node < 9216 ∧ e TILE_MCAST_t.valid = 1 ∧ e TILE_MCAST_t.vc = p.vc then e TILE_MCAST_t.mask else 0
  else if p.ty = 7 ∨ p.ty = 8 then 16
  else 2 ^ nextPort node p

/-- A flit enters an input buffer: a head flit's packet is routed, and discarded by the first mesh router that finds R287's faults
in it; a packet that goes nowhere frees its buffers at once. `ports` gives the route where the network port itself knows it. -/
def State.enter (s : State) (node port flit : Nat) (ports : Option Nat) : State :=
  let vcc := vcClass flit
  let key := bufKey node port vcc
  let p := headOf flit
  let head := bits flit 18 2 == 1
  let bad := head && node < 9216 && (badPacket p || (p.ty == 5 && s.get ((TILE_MCAST_t.vc.tile node).off (8 * (p.dst % 256))) != p.vc))
  let route := if !head then (Sparse.find s.net.routes key).getD (0, 0) else if bad then (0, p.src) else (ports.getD (s.portsFor node p), p.src)
  let s1 : State := { s with net := { s.net with routes := Sparse.put s.net.routes key route } }
  let s2 :=
    if bad then
      let q := s1.net.begun.find? fun x => packetFlit x 0 (flitCount x.data.length) == flit
      (s1.discard node p).iff q.isSome fun t =>
        { t with net := { t.net with begun := t.net.begun.erase (q.getD p), fly := t.net.fly.erase (q.getD p) } }
    else s1
  if route.1 = 0 then s2.oweCredit node port vcc else s2.setBuf key (s2.buf key ++ [⟨flit, route.1, route.2, 0⟩])

/-- What a network port may begin to send whose head flit is `flit`: a packet of `fly` from an endpoint of the router, or a flit of a
tree at its own router. The route of a barrier flit is the link it goes to. -/
def State.toSend (s : State) (node flit : Nat) : Option ((Packet ⊕ Hop) × Option Nat) :=
  let starts (p : Packet) : Bool := (packetFlits p).head? == some flit
  match s.net.fly.find? fun p => epNode p.src == node && starts p && decide (s.net.begun.count p < s.net.fly.count p) with
  | some p => some (.inl p, none)
  | none =>
    (s.net.hops.find? fun h => !s.net.begunHops.contains h && starts h.pkt
        && (if h.pkt.ty = 5 then h.tile == node && h.port == 4 else linkEnd h.tile h.port == some (node, (h.port + 2) % 4))).map fun h =>
      (.inr h, if h.pkt.ty = 5 then none else some (2 ^ ((h.port + 2) % 4)))

/-- A tile's channels inject no request of VC1 or VC2 while the schedule clock is frozen, and none at all while the hold state is
entered or holds; responses go on (R315, R483). -/
def State.injectStopped (s : State) (node vcc : Nat) : Bool :=
  decide (node < 9216) && vcc % 2 == 0 && decide (0 < vcc / 4) &&
    (decide (2 ≤ s.get THM_STATUS.state) || (decide (vcc / 4 < 3) && s.inTurn && s.inForce s.spoke))

/-- A packet has left its source's network port: none of its flits has still to be sent (R313). -/
def State.hasLeft (s : State) (p : Packet) : Bool :=
  decide (s.net.fly.count p ≤ s.net.begun.count p) &&
    match Sparse.find s.net.sending (16 * epNode p.src + p.vc * 4 + classOf p) with
    | none => true
    | some l => (packetFlits p).drop (flitCount p.data.length - l.length) != l

/-- The network port of a router (port 4) passes a flit into its buffer: the next of a packet that it sends, or the head flit of
another; nothing enters a full buffer (R294). -/
def State.sendLocal (s : State) (node flit : Nat) : State :=
  let vcc := vcClass flit
  let k := 16 * node + vcc
  if 4 ≤ (s.buf (bufKey node 4 vcc)).length ∨ s.injectStopped node vcc then s
  else match Sparse.find s.net.sending k with
    | some (f :: rest) =>
      if f = flit then
        ({ s with net := { s.net with sending := if rest.isEmpty then Sparse.drop s.net.sending k else Sparse.put s.net.sending k rest } } :
          State).enter node 4 flit none
      else s
    | _ =>
      match s.toSend node flit with
      | none => s
      | some (x, ports) =>
        let rest := (match x with | .inl p => packetFlits p | .inr h => packetFlits h.pkt).drop 1
        let n1 := match x with
          | .inl p => { s.net with begun := s.net.begun ++ [p] }
          | .inr h => { s.net with begunHops := s.net.begunHops.filter s.net.hops.contains ++ [h] }
        let s1 : State := { s with net := { n1 with sending := if rest.isEmpty then n1.sending else Sparse.put n1.sending k rest } }
        s1.enter node 4 flit ports

/-! ### Retry (R290, R291) -/

/-- A nack that names a sequence number reaches the transmitter of the link into a port: it resends every kept flit from the named
one onward, but ignores a nack that names the same flit within a round trip; after 4 resends of one flit both ends stop for a
pattern test (R290, R291). -/
def State.resendFrom (s : State) (n port seq : Nat) : State :=
  let l := s.meshLink n port
  match linkEnd n port with
  | none => s
  | some (m, q) =>
    let rest := l.kept.dropWhile fun k => k.1 != seq
    let same := l.resent != 0 && l.named == seq
    if l.testing ∨ rest.isEmpty ∨ (same ∧ l.resentAt = s.ticks) then s
    else if same ∧ 4 ≤ l.resent then s.setMeshLink n port { l with testing := true }
    else
      let kept := l.kept.map fun (k : Nat × Nat × Nat) => if rest.contains k then (k.1, k.2.1, s.ticks) else k
      let l1 := { l with kept := kept, wire := l.wire ++ rest.map fun k => k.2.1, named := seq, resentAt := s.ticks,
                         resent := if same then l.resent + 1 else 1 }
      let s1 := s.setMeshLink n port l1
      if m < 9216 then s1.inc (TILE_LINK_STATUS_p.resends.lnk m q) rest.length else s1

/-- The flits in routers and on links are gone, and every link starts afresh (R374). Management packets that stay go on as packets
(DESIGN CHOICE, log entry 52). -/
def State.dropFlits (s : State) : State :=
  { s with net := { s.net with bufs := [], routes := [], outs := [], begun := [], begunHops := [], sending := [], taking := [], waited := [],
                               links := s.net.links.map fun l => (l.1, { l.2 with expect := 0, nacking := false, next := 0, wire := [], kept := [],
                                                                                  used := [], owed := [], resent := 0 }) } }

end Sys2Proof.Machine
end

