-- ==== Sys2Proof/Machine/Faults.lean ====
section
/-! DEFINITION. What a fault does: defect-map entries, voids, faulted turns, image stops, losses of tiles and coaches, the
choice of a replacement and repair failure (R372 to R375, R411 to R437, R443). -/

namespace Sys2Proof.Machine

/-! ### Alarms and the defect map -/

/-- Raise SBX_ALARM with a code. -/
def State.alarm (s : State) (code : Nat) : State := (s.set SBX_STATUS.alarm code).raiseHead 6 code 0

/-- An in-service entry (R413). -/
def defectWord (kind place index detail : Nat) : Nat :=
  2 * 2 ^ 62 + kind * 2 ^ 56 + place * 2 ^ 48 + index * 2 ^ 40 + detail

/-- Write an in-service entry: into the head's copy, and into the store while it has room (R412). -/
def State.addDefect (s : State) (w : Nat) : State :=
  let s1 := ({ s with rep := { s.rep with defects := s.rep.defects ++ [w] } }).set HEAD_DEFECT_INDEX.entries
    (s.rep.defects.length + 1)
  if s.sbx.store.length < 4096 then { s1 with sbx := { s1.sbx with store := s1.sbx.store ++ [w] } }
  else if s.sbx.storeAlarmed then s1
  else { s1 with sbx := { s1.sbx with storeAlarmed := true } }.alarm 5

/-- The entry of a failed tile. -/
def tileDefect (n : Nat) : Nat := defectWord 1 (placeOf n) (siteOf n) 0

/-- Entries of a kind and place. -/
def State.hasDefect (s : State) (kind place index : Nat) : Bool :=
  s.rep.defects.any fun w => bits w 56 6 == kind && bits w 48 8 == place && bits w 40 8 == index

/-! ### Marks, tiles and coaches -/

/-- Clear or set the weights-valid mark of a coach (R133). -/
def State.setMark (s : State) (c : Nat) (b : Bool) : State := s.setFlag ⟨HEAD_WEIGHTS_VALID.valid.key, c, 1⟩ b
def State.mark (s : State) (c : Nat) : Bool := s.flag ⟨HEAD_WEIGHTS_VALID.valid.key, c, 1⟩

/-- Field of power domain d (R451). -/
def Fld.dom (f : Fld) (d : Nat) : Fld := f.ix d

/-- The five domains of a coach. -/
def coachDomains (c : Nat) : List Nat := [4 * c, 4 * c + 1, 4 * c + 2, 4 * c + 3, 256 + c]

/-- A coach is on: its quadrants and its roof (R453). -/
def State.coachOn (s : State) (c : Nat) : Bool := (coachDomains c).all fun d => s.get (PWR_DOM_STATE.state.dom d) == 2

/-- A coach is dark (R453). -/
def State.coachDark (s : State) (c : Nat) : Bool := (coachDomains c).all fun d => s.get (PWR_DOM_STATE.state.dom d) == 4

/-- Set the state of every tile of a list. -/
def State.setTiles (s : State) (l : List Nat) (v : Nat) : State := l.foldl (fun t n => t.set (TILE_STATE.state.tile n) v) s

/-- Contents of a coach's quadrants go: scratchpads, input stores, bank maps, declared regions and circular regions (R131). -/
def State.loseQuadrants (s : State) (c : Nat) : State :=
  (coachTiles c).foldl (fun t n =>
    (((t.wipe (tileBase n + 0x8000000) (tileBase n + 0x8000000 + spadBytes n)).wipe
      (8 * 281474976710656 + n * 0x100000) (8 * 281474976710656 + (n + 1) * 0x100000)).resetRegs
      (tileBase n + 0xF000010) (tileBase n + 0xF000018)).resetRegs (tileBase n + 0xF000100) (tileBase n + 0xF000300)) s

/-- Contents of a roof go, and the coach's mark clears (R131, R133). -/
def State.loseRoof (s : State) (c : Nat) : State :=
  let s1 := (coachTiles c).foldl (fun t n =>
    (t.wipe (tileBase n) (tileBase n + wsBytes)).wipe (sideKey n 0) (sideKey n 0 + 4 * 327680)) s
  ((s1.wipe (tableKey c 0) (tableKey c 0x8000000)).wipe (tableSide c 0) (tableSide c 0 + 0x800000)).setMark c false

/-- Field of HEAD_ATB_SEL_n. -/
def Fld.pin (f : Fld) (n : Nat) : Fld := f.off (8 * n)

/-- The coach whose bus an ATB pin's `bus` value names (R571, R572). -/
def atbCoach (pin bus : Nat) : Option Nat :=
  let A := pin / 2
  let q := bus / 2
  if 0x20 ≤ bus then none
  else some (8 * ((if 2 ≤ A then 4 else 0) + q / 4) + (if A = 1 ∨ A = 2 then 4 else 0) + q % 4)

/-- The diode an ATB selection forces current into, by its sensor number (R472, R573). -/
def atbDiode (pin bus node : Nat) : Option Nat :=
  match atbCoach pin bus with
  | some c => if 6 ≤ node ∧ node ≤ 9 then some (4 * c + node - 6) else none
  | none => none

/-- The selection of a pin. -/
def State.atbSel (s : State) (n : Nat) : Nat × Nat := (s.get (HEAD_ATB_SEL_n.bus.pin n), s.get (HEAD_ATB_SEL_n.node.pin n))

/-- Open the connection of a pin; a diode it forced current into returns to use 1 ms later (R574). -/
def State.openPin (s : State) (n : Nat) : State :=
  let s1 := (s.setFlag (HEAD_ATB_SEL_n.connected.pin n) false)
  let s2 := { s1 with boot := { s1.boot with atbDue := s1.boot.atbDue.filter fun (x : Nat × Nat) => x.1 != n } }
  match atbDiode n (s.atbSel n).1 (s.atbSel n).2 with
  | some d => if s.flag (HEAD_ATB_SEL_n.connected.pin n) then { s2 with boot := { s2.boot with diodeDue := s2.boot.diodeDue ++ [(d, s.ticks + usTicks 1000)] } } else s2
  | none => s2

/-- Headers of a coach open: domains in state `st` (0 off, 4 dark), tiles off, contents lost (R131, R465), its ATB
connections open (R574). -/
def State.openCoach (s : State) (c st : Nat) : State :=
  let s0 := (List.range 8).foldl (fun t n => if atbCoach n (t.atbSel n).1 = some c then t.openPin n else t) s
  let s1 := (coachDomains c).foldl (fun t d => (t.set (PWR_DOM_STATE.state.dom d) st).set (PWR_DOM_STATE.stage.dom d) 0) s0
  let s2 := (s1.setTiles ((coachTiles c).filter fun n => s.get (TILE_STATE.state.tile n) != 4) 0).loseQuadrants c
  { s2.loseRoof c with pwr := { s2.pwr with powering := s2.pwr.powering.filter fun p => p.coach != c,
                                             resetting := s2.pwr.resetting.filter (· != c),
                                             waiting := s2.pwr.waiting.filter (· != c),
                                             fresh := s2.pwr.fresh.filter (· != c) } }

/-- CRC-8 of R447 over 32 bits, taken from the highest downward. -/
def crc8 (v : Nat) : Nat :=
  (List.range 32).foldl (fun c i => (c * 2 % 256) ^^^ (if (c / 128 + bits v (31 - i) 1) % 2 = 1 then 7 else 0)) 0

/-- The 40 bits of a rail-bus request (R447). -/
def railWord (rail op data : Nat) : Nat :=
  let v := rail * 2 ^ 24 + op * 2 ^ 20 + data % 65536 * 2 ^ 4
  v * 256 + crc8 v

/-- EXTEST is in effect: the boundary register drives the rail buses and the QSPI pins (R568, R570). -/
def State.extest (s : State) : Bool := s.boot.tapInstr == 0 && s.flag SBX_POLICY.debug && s.get HEAD_IMAGE_STATUS.state == 0

/-- Send a request on the bus of a rail (R447), but none under EXTEST (R570); a SET is noted as the last set point sent (R471). -/
def State.sendRail (s : State) (rail op data : Nat) : State :=
  if s.extest then s else
  let s1 := { s with pwr := { s.pwr with bus := s.pwr.bus ++ [railWord rail op data] } }
  if op = 1 then s1.set (PWR_RAIL_STATUS.set_mv.ix rail) data else s1

/-- The good reserve coaches of the loaded image (R3). -/
def State.reserveCoaches (s : State) : List Nat :=
  match s.img.image with
  | none => []
  | some i => s.reserves i (s.img.homes.map (·.2))

/-- Good reserve coaches that hold no logical model tile (`reserve_free`). -/
def State.reserveFree (s : State) : Nat :=
  let model := coachesOf (s.img.place.filter fun p => p.1 / 256 < 64)
  (s.reserveCoaches.filter fun c => !model.contains c).length

/-- The two counts of reserve coaches: `reserves` those that hold no model coach, `reserve_free` those that hold no model tile. -/
def State.syncReserves (s : State) : State :=
  (s.set HEAD_REPAIR_STATUS.reserve_free s.reserveFree).set HEAD_IMAGE_STATUS.reserves s.reserveCoaches.length

/-- Isolate a coach: dark, its two rails disabled, out of the count of good coaches, with its defect-map entry (R432, R453, R468). -/
def State.isolate (s : State) (c : Nat) : State :=
  if s.rep.isolated.contains c then s
  else
    let s1 := (s.openCoach c 4).addDefect (defectWord 2 c 0 0)
    let s2 := { s1 with rep := { s1.rep with isolated := s1.rep.isolated ++ [c] } }
    let s2 := (s2.sendRail c 5 0).sendRail (0x40 + c) 5 0
    (s2.set HEAD_DEVICE_ID.good_coaches (s.get HEAD_DEVICE_ID.good_coaches - 1)).syncReserves

/-! ### Stopping an image (R374, R437) -/

/-- Every cart queue of the device is emptied, and what runs is dropped (R418). -/
def State.emptyCarts (s : State) : State :=
  s.net.carts.foldl (fun t p =>
    let n := p.1 / 8
    let d := 32 * (p.1 % 8)
    let t1 := ((t.set ((TILE_CART_STATUS_n.state.tile n).off d) 0).set ((TILE_CART_STATUS_n.queued.tile n).off d) 0).set
      ((TILE_CART_STATUS_n.reads_out.tile n).off d) 0
    { t1 with net := { t1.net with carts := Sparse.put t1.net.carts p.1 { p.2 with queue := [], chain := none, run := none } } }) s

/-- Packets of the image: all but management packets and event records. -/
def packetOfImage (p : Packet) : Bool := p.ty < 9

/-- Packets of the image in flight are discarded, with the flits in routers. -/
def State.dropPackets (s : State) : State :=
  ({ s with net := { s.net with fly := s.net.fly.filter fun p => !packetOfImage p, hops := [], proxies := [] } } : State).dropFlits

/-- Steps 1 to 3 of R374: scheduled issue stops, the device's holds are withdrawn, no turn message is sent, and every
admitted request ends with code 0x5. The caller sets `state`. -/
def State.stopImage (s : State) : State :=
  let s1 := (s.withdrawAll.endAdmitted 5).emptyCarts
  { s1 with turn := { s1.turn with startAt := none, stopCmd := none, q := none, insertReq := [], inserts := [],
                                   grouped := false, leave := none, msgs := [], msgsNext := [], faulted := false,
                                   faultedBefore := false, voidSeen := false },
            img := { s1.img with before := s1.img.place },
            tile := { s1.tile with arrays := [], late := [], circ := [], trapsDue := [], waits := [], fills := [] },
            rep := { s1.rep with jobs := [], rebuilds := [], advance := none, done := [], lossVoid := false,
                                 abandoned := false, later := [], failing := [], rotating := none, draftTaken := none } }

/-- `state` of HEAD_IMAGE_STATUS, with the phase that follows from it. -/
def State.setImageState (s : State) (v : Nat) : State := (s.set HEAD_IMAGE_STATUS.state v).syncPhase

/-- Take the logical tile from a tile: its TILE_ID reads none; `st` is its new state. -/
def State.vacate (s : State) (n st : Nat) : State :=
  ((s.set (TILE_ID.logical_coach.tile n) 0xFF).set (TILE_ID.logical_tile.tile n) 0xFFFF).set (TILE_STATE.state.tile n) st

/-! ### Registers loaded from the image -/

/-- Bytes of a panel of 512 × 512 weights in a format (R191). -/
def panelBytes (wfmt : Nat) : Nat := if wfmt = 2 then 111452 else if wfmt = 3 then 69632 else 139264

/-- B_min of R195: ⌈panel bytes × n_p × 1.9 GHz ÷ 2.0 TB/s⌉. -/
def bMin (wfmt np : Nat) : Nat := ceilDiv (panelBytes wfmt * np * 19) 20000

/-- n_p of R195: the largest number of P-tiles that the image uses in one bay. -/
def pTilesOf (i : Image) : Nat := ((List.range 24).map fun b => (tilesOf i (0x80 + b)).length).foldl max 0

/-- The weight formats of the prefill layout: those of the layers whose panels the towers hold (R193, R195). -/
def prefillFormats (i : Image) : List Nat :=
  ((i.weights.filter fun w => w.kind == 1).filterMap fun w => (i.formats[w.layer]?).map (·.wfmt)).eraseDups

/-- The image registers of a tile or of a coupling: bank map, regions, circular regions, seeds, barriers, multicast trees,
windows. -/
def imageKey (k : Nat) : Bool :=
  match if k < 281474976710656 then spaceOf k else none with
  | some (.tile, off) =>
    off == 0xF000010 || decide (0xF000100 ≤ off ∧ off < 0xF000300) || off == 0xF000600 || off == 0xF001028
      || decide (0xF001600 ≤ off ∧ off < 0xF002000)
  | some (.cpl, off) => decide (0x100 ≤ off ∧ off < 0x300)
  | _ => false

/-- Drop every copy of the registers of the head region from `lo` up to `hi`. -/
def State.dropBanks (s : State) (lo hi : Nat) : State :=
  { s with regs := s.regs.filter fun (p : Nat × Word) => !decide (lo ≤ p.1 % 281474976710656 ∧ p.1 % 281474976710656 < hi) }

/-- The parameter block of no image: L, minimum play and d zero, H = 3 (Reset column of HEAD_TURN_CONFIG). -/
def noSched : Sched := ⟨0, 0, 0, 0, 3, 0, 0, true, [], []⟩

/-- The registers that report the schedule set in effect (R72, R166, R204). -/
def State.syncSched (s : State) : State :=
  let c := match s.sched with | some c => c | none => noSched
  let s1 := (((s.set HEAD_TURN_CONFIG.turn_len c.turnLen).set HEAD_TURN_CONFIG.play_min c.playMin).set HEAD_TURN_CONFIG.diameter c.diameter).set HEAD_TURN_CONFIG.hold_lead c.holdLead
  ((s1.set HEAD_TURN_CONFIG.turn_len_k s1.lenK).set HEAD_PREFILL_CONFIG.round_turns c.roundTurns).set PWR_ROUND_ENERGY.round_energy (c.roundEnergy / 1000)

/-- The registers loaded from the image take its values, and read zero without one (R204, R243, R280, R349, R456, R580). -/
def State.syncConfig (s : State) : State :=
  let i := s.img.image
  let num (f : Image → Nat) : Nat := match i with | none => 0 | some x => f x
  let s1 := s.syncSched
  let s2 := ((s1.set HEAD_SHADOW_CTRL.layers (num fun x => x.formats.length)).set HEAD_FMT_SET.available (num fun x => if x.wide.isSome then 1 else 0)).set HEAD_PIPE_CONFIG.carriages (num fun x => x.depth + 1)
  let s3 := ((s2.set HEAD_PIPE_CONFIG.tree_carriages (num fun x => x.treeCars)).set HEAD_PREFILL_CONFIG.batch_cap (num fun x => x.bcap)).set HEAD_PREFILL_CONFIG.p_tiles (num pTilesOf)
  let s4 := (s3.set HEAD_PREFILL_CONFIG.stream_min (num fun x => ((prefillFormats x).map fun f => bMin f (pTilesOf x)).foldl max 0)).set HEAD_PREFILL_CTRL.batch_min (num fun x => x.batchMin)
  let s5 := (s4.set HEAD_KV_CONFIG.context_limit (num fun x => x.cmax)).set HEAD_KV_CONFIG.head_dim (num fun x => match x.heads with | [] => 0 | h :: _ => if h.dh = 256 then 2 else if h.dh = 128 then 1 else 0)
  let s6 := (s5.set HEAD_KV_CONFIG.spec_depth (num fun x => match x.drafts with | [] => 0 | d :: _ => d.depth)).dropBanks HEAD_KV_GROUP_SIZE.addr (HEAD_KV_GROUP_SIZE.addr + 8)
  let groups := match i with | none => [] | some x => x.kv
  let s7 := (List.zip (List.range groups.length) groups).foldl (fun (t : State) (g : Nat × KvGroup) =>
    (((t.set (HEAD_KV_GROUP_SIZE.window.ix g.1) g.2.window).set (HEAD_KV_GROUP_SIZE.staging.ix g.1) g.2.staging).set (HEAD_KV_GROUP_SIZE.tower_slots.ix g.1) g.2.towerSlots).set (HEAD_KV_GROUP_SIZE.pool_slots.ix g.1) g.2.pool) s6
  let s8 := ((s7.set HEAD_SERVE_CONFIG.vocab (num fun x => x.vocab)).set HEAD_SERVE_CONFIG.adapter_slots (num fun x => x.adapters)).set HEAD_SERVE_CONFIG.halves (num fun x => x.header.flags / 4 % 2)
  let s9 := ((s8.set PWR_PLAN.budget (num fun x => x.power.budget)).set PWR_PLAN.p_pre (num fun x => x.power.pPre)).set PWR_PLAN.rush_budget (num fun x => x.power.rush)
  let s10 := (s9.set HEAD_IMAGE_STATUS.logical_coaches (num fun x => x.header.logicalCoaches)).set HEAD_IMAGE_STATUS.debug (num fun x => x.header.flags % 2)
  let member := num fun x => match x.group with | none => 0 | some g => g.member
  let size := num fun x => match x.group with | none => 1 | some g => g.size
  (List.range 24).foldl (fun (t : State) k =>
    let used := num fun x => match x.cplTable[k]? with | none => 0 | some r => r.used
    ((t.set (CPL_CONFIG.used.cpl k) used).set (CPL_CONFIG.member.cpl k) member).set (CPL_CONFIG.group_size.cpl k) size) s10

/-- The loaded image is unloaded: no tile holds a logical tile, and the image's registers read as without one. The relocation
that was in effect stays the previous one (R356). -/
def State.unloadImage (s : State) : State :=
  let s1 := s.img.place.foldl (fun t p => t.vacate p.2 (if t.get (TILE_STATE.state.tile p.2) = 2 then 1 else t.get (TILE_STATE.state.tile p.2))) s
  let s2 := { s1 with
    regs := s1.regs.filter fun (p : Nat × Word) => !imageKey p.1
    img := { s1.img with image := none, place := [], homes := [], measure := [], before := if s1.img.image.isSome then s1.img.place else s1.img.before } }
  ((s2.set HEAD_IMAGE_STATUS.moved 0).setFlag HEAD_FMT_SET.in_effect false).syncConfig.syncReserves.setImageState 0

/-- Roof words of a weight section: an MX payload fills one for every 4 source blocks (R158). -/
def wordCount (w : WDesc) : Nat := if w.flags.testBit 1 then ceilDiv w.mx.length 4 else w.bytes / 68

/-- An image fault (R374). -/
def State.imageFault (s : State) (cause : Nat) : State :=
  let t := s.turnNo
  let s1 := (((s.stopImage.setImageState 4).setFlag HEAD_IMAGE_FAULT.valid true).set HEAD_IMAGE_FAULT.cause cause).set
    HEAD_IMAGE_FAULT.turn t
  (s1.set HEAD_REPAIR_STATUS.state 0).raiseHead 2 cause t

/-- A repair failure (R437): `w` is the defect-map entry of the unit, `cs` the coaches involved. -/
def State.repairFail (s : State) (w : Nat) (cs : List Nat) : State :=
  let t := s.turnNo
  let inv := cs ++ (s.rep.jobs.filter fun j => j.target < 9216).map fun j => j.target / 144
  let s1 := inv.foldl (fun u c => u.setMark c false) s.stopImage
  ((s1.setImageState 2).set HEAD_REPAIR_STATUS.state 0).inc HEAD_REPAIR_COUNTS.failures |>.raiseHead 3 t w

/-! ### Voids and faulted turns (R373, R418) -/

/-- A turn of the running image is in progress or a rerun of it. -/
def State.turning (s : State) : Bool := s.running && s.turn.startAt.isNone

/-- Void the turn: the cause-0x6 hold, TURN_VOIDED and the count; one void until the rerun point (R418, R438, R455). A turn has at
most 4 rerun points, so a void after the fourth is a repair failure whatever it is declared for (R422, DEDUCED, log entry 63). -/
def State.voidTurn (s : State) : State :=
  if s.turning ∧ !s.holding 6 then
    if 4 ≤ s.get HEAD_REPAIR_STATUS.reruns then s.repairFail 0 []
    else ((s.raiseHold 6 (coordHead 68)).inc HEAD_REPAIR_COUNTS.voids).raiseHead 68 s.turnNo (s.get HEAD_REPAIR_STATUS.reruns)
  else s

/-- Void the turn for a loss that follows; after the fourth rerun point the loss itself is the repair failure (R422). -/
def State.voidMore (s : State) : State :=
  if s.turning ∧ s.get HEAD_REPAIR_STATUS.reruns < 4 then
    let s1 := s.voidTurn
    { s1 with rep := { s1.rep with lossVoid := true } }
  else s

/-- A trap or credit overflow at a tile that holds a logical tile faults the turn; when the attempt before it was faulted
too, the image faults (R373, R422). -/
def State.faultTurn (s : State) : State :=
  if s.turning then
    if s.turn.faultedBefore then s.imageFault 1
    else if s.turn.faulted then s
    else ({ s with turn := { s.turn with faulted := true } }.inc HEAD_IMAGE_CHECKS.faulted_turns).voidTurn
  else s

/-- A VC1 injection of tile n finds no free buffer (R372). -/
def State.creditOverflow (s : State) (n off : Nat) : State :=
  let s1 := s.raise 67 n off s.turnNo
  if (s.logicalOf n).isSome then (s1.inc HEAD_IMAGE_CHECKS.credit_overflows).faultTurn else s1

/-! ### Image settings of a tile (R134, R361) -/

/-- Load the image's registers of the logical tile `key` into tile n; circular regions start Empty (R115, R131) unless they came
with the logical tile from another one (`fresh` false, R419). -/
def State.loadTileRegs (s : State) (i : Image) (key n : Nat) (fresh : Bool := true) : State :=
  let s1 := (s.set (TILE_ID.logical_coach.tile n) (key / 256)).set (TILE_ID.logical_tile.tile n) (key % 256)
  let s2 := match i.tileRegs.find? fun t => t.lc * 256 + t.lt == key with
    | none => s1
    | some t =>
      let a := s1.set (TILE_BANK_MAP.vector_groups.tile n) (if tileClass n = 2 then 0 else t.bankMap % 2 ^ (spadBytes n / 0x100000))
      let b := t.regions.foldl (fun u r => u.setReg (tileBase n + 0xF000100 + 8 * r.1) r.2.toNat) a
      let c := t.circ.foldl (fun u r =>
        let v := r.2.toNat
        let slot := bits v 45 3
        let len := (bits v 28 17 + 1) * 2 ^ slot
        let good := slot < 7 && 1 ≤ bits v 28 17 && bits v 0 17 % 2 ^ slot == 0 && (bits v 0 17 + len) * 64 ≤ spadBytes n
        u.setReg (tileBase n + 0xF000200 + 16 * r.1) (setBits v 48 1 (if good then bits v 48 1 else 0))) b
      if fresh then c.emptyCircs n else c
  match i.seeds.find? fun x => x.1 * 256 + x.2.1 == key with
  | none => s2
  | some x => s2.setReg (tileBase n + 0xF000600) (if tileClass n = 2 then x.2.2.toNat else setBits x.2.2.toNat (TILE_SR_SEED.enable.lo + 2) 1 0)

/-- A barrier entry of every router on its tree (R302, R361). -/
def State.loadBarrier (s : State) (i : Image) (pl : Sparse Nat) (d : TreeDecl) : State :=
  match s.treePaths i pl d with
  | none => s
  | some (r, ps) =>
    let es := treeEdges ps
    let ms := d.members.filterMap fun m => Sparse.find pl (m.1 * 256 + m.2)
    let nodes := (r :: es.filterMap fun q => neighbour q.1 q.2).eraseDups
    nodes.foldl (fun t n =>
      let f (x : Fld) : Fld := (x.tile n).off (8 * d.num)
      let kids := (es.filter fun q => q.1 == n).foldl (fun a q => a + 2 ^ q.2) 0
      let par := if n = r then 4 else
        match es.find? fun q => neighbour q.1 q.2 == some n with
        | none => 4
        | some q => (q.2 + 2) % 4
      (((t.setFlag (f TILE_BARRIER_b.valid) true).setFlag (f TILE_BARRIER_b.member) (ms.contains n)).set
        (f TILE_BARRIER_b.children) kids).set (f TILE_BARRIER_b.parent) par) s

/-- A multicast entry of every router on its tree (R306, R361). -/
def State.loadMcast (s : State) (i : Image) (pl : Sparse Nat) (d : TreeDecl) : State :=
  match s.treePaths i pl d with
  | none => s
  | some (r, ps) =>
    let es := treeEdges ps
    let ms := d.members.filterMap fun m => Sparse.find pl (m.1 * 256 + m.2)
    let nodes := (r :: es.filterMap fun q => neighbour q.1 q.2).eraseDups
    nodes.foldl (fun t n =>
      let f (x : Fld) : Fld := (x.tile n).off (8 * d.num)
      let mask := (es.filter fun q => q.1 == n).foldl (fun a q => a + 2 ^ q.2) (if ms.contains n then 16 else 0)
      ((t.setFlag (f TILE_MCAST_t.valid) true).set (f TILE_MCAST_t.vc) d.vc).set (f TILE_MCAST_t.mask) mask) s

/-- TILE_ROUTE_YX of every tile, and the trees, under a placement (R361). Entries of trees are written afresh: only their
running state (`gen`, `waiting`, `arrived`, `releases`) is kept. -/
def State.loadRoutes (s : State) (i : Image) (pl : Sparse Nat) : State :=
  let s1 := (List.range 9216).foldl (fun t n =>
    let a := t.set (TILE_ROUTE_YX.yx.tile n) (s.routeBits i pl n)
    let b := (List.range 64).foldl (fun u k => u.set ((Fld.tile ⟨TILE_BARRIER_b.valid.key, 55, 9⟩ n).off (8 * k)) 0) a
    b.resetRegs (tileBase n + 0xF001800) (tileBase n + 0xF002000)) s
  let s2 := i.barriers.foldl (fun t d => t.loadBarrier i pl d) s1
  i.trees.foldl (fun t d => t.loadMcast i pl d) s2

/-- TILE_STATE of a tile that now holds a logical tile. -/
def State.activate (s : State) (n : Nat) : State := s.set (TILE_STATE.state.tile n) 2

/-- Copy registers of one tile to another, keys `lo` to `hi` of the tile's page, those at reset values too. -/
def State.copyRegs (s : State) (a b lo hi : Nat) : State :=
  (s.regs.filter fun p => decide (tileBase a + lo ≤ p.1 ∧ p.1 < tileBase a + hi)).foldl (fun t p =>
    t.setReg (p.1 - tileBase a + tileBase b) p.2.toNat) (s.resetRegs (tileBase b + lo) (tileBase b + hi))

/-- A logical tile moves to another tile: relocation, TILE_ID, the image's registers, and the tile's circular pointers and
rounding counters with it (R419, R423 step 5); the routes follow in `loadRoutes`. -/
def State.moveTile (s : State) (key old new oldState : Nat) : State :=
  match s.img.image with
  | none => s
  | some i =>
    let s1 := { s with img := { s.img with place := Sparse.put s.img.place key new } }
    let s2 := ((s1.copyRegs old new 0xF000200 0xF000300).copyRegs old new 0xF000600 0xF000800).loadTileRegs i key new false
    (s2.vacate old oldState).activate new

/-! ### Weight halves (R276) -/

/-- Bytes of a half of the weight store, and of a half of the scale tables; where the scale tables begin (R104, R276). -/
def halfBytes : Nat := 0xA00000
def scaleHalf : Nat := 0xC00000
def scaleTables : Nat := 0x800000

/-- Layer group of a logical tile (R185). -/
def groupOf (i : Image) (key : Nat) : Option Nat := (i.groupTiles.find? fun x => x.2.1 * 256 + x.2.2 == key).map (·.1)

/-- The half that the work of tile n uses: that of the carriage in its layer group, and at a P-tile that of the running round (R276,
R278); 0 in an image of one half. -/
def State.weightHalf (s : State) (n : Nat) : Nat :=
  match s.img.image with
  | none => 0
  | some i =>
    if !i.header.flags.testBit 2 then 0
    else if 9216 ≤ n then
      match s.serv.round.bind fun r => (r.batch.head?).bind fun c => s.req? c.req with
      | some r => r.half
      | none => 0
    else
      match (s.logicalOf n).bind (groupOf i) with
      | none => 0
      | some g => ((Sparse.find s.serv.cars (carAt s.depth s.turnNo g)).bind (·.half)).getD 0

/-! ### Copies out of the tower shadow (R193, R423, R426) -/

/-- Lines of the weight slice of a logical tile. -/
def sliceLines (i : Image) (key : Nat) : Nat :=
  ((i.weights.filter fun w => w.kind == 0 && w.place * 256 + w.tile == key).map fun w => ceilDiv (wordCount w) 32).sum

/-- Roof words of 68 B, from payload bytes: main part first (R288). -/
def wordsOf (data : List Byte) : List Nat := (List.range (data.length / 68)).map fun j => leNat ((data.drop (68 * j)).take 68)

/-- The roof words that a weight section loads, and elements saturated on the way; none when R159 refuses it. -/
def sectionWords (w : WDesc) : Option (List Nat × Nat) :=
  if w.flags.testBit 1 then
    let r := w.mx.map fun b => mxBlock b.1 b.2.1 b.2.2
    if r.any (·.isNone) then none
    else
      let l := r.filterMap id
      some ((List.range (wordCount w)).map fun k => packPB4 (((l.drop (4 * k)).take 4).map fun x => (x.1, x.2.1)), (l.map fun x => x.2.2).sum)
  else some (wordsOf w.data, 0)

/-- Which word of the shadow section h holds a bit-identical copy of roof word k of the slice d: the loader records it (R193); it
finds it by its bits (DEDUCED, log entry 56). -/
def shadowWord (d h : WDesc) (k : Nat) : Nat :=
  match sectionWords d, sectionWords h with
  | some a, some b => ((b.1.findIdx? fun x => some x == a.1[k]?).getD k)
  | _, _ => k

/-- A slice's shadow lies in a tower that has failed. -/
def State.shadowLost (s : State) (i : Image) (key : Nat) : Bool :=
  (i.weights.filter fun w => w.kind == 0 && w.place * 256 + w.tile == key).any fun w =>
    match i.weights[w.shadow]? with
    | none => false
    | some d => s.towerFailed d.place

/-- Copy a weight slice from the tower shadow into tile n's bank: each roof word from the place that the loader recorded (R193). -/
def State.copySlice (s : State) (i : Image) (key n : Nat) : State :=
  (i.weights.filter fun w => w.kind == 0 && w.place * 256 + w.tile == key).foldl (fun t w =>
    match i.weights[w.shadow]? with
    | none => t
    | some d => (List.range (wordCount w)).foldl (fun u k =>
        let src := towerBase d.place + d.dest + 68 * shadowWord w d k
        let a := w.dest + 64 * k
        let u1 := (u.wrBytes (tileBase n + a) (u.bytes src 64)).wrBytes (sideKey n (a / 64)) (u.bytes (src + 64) 4)
        { u1 with flips := Sparse.drop u1.flips (tileBase n + a) }) t) s

/-- The 64 B of a format table entry (R161). -/
def fmtBytes (f : Fmt) : List Byte :=
  leBytes 1 f.wfmt ++ leBytes 1 f.caps ++ leBytes 1 f.satScale ++ leBytes 1 0 ++ leBytes 2 f.recipe ++ leBytes 2 f.limit ++ leBytes 4 f.threshold
    ++ leBytes 4 f.window ++ leBytes 4 f.rows ++ leBytes 4 f.cols ++ leBytes 4 f.tPrimary ++ leBytes 4 f.tAlt ++ leBytes 32 0

/-- Write the format table entry of a layer into the tables of coach c (R161). -/
def State.putFormat (s : State) (i : Image) (layer c : Nat) : State :=
  match i.formats[layer]? with
  | none => s
  | some f => s.writeRoof (tableKey c (64 * layer)) (tableSide c layer) (leNat (fmtBytes f))

/-- Copy the coach tables of a logical coach from the tower shadow (R427), with the format table entries of its layers (R161). -/
def State.copyTables (s : State) (i : Image) (lc c : Nat) : State :=
  let s := (i.weights.filter fun w => w.kind == 0 && w.place == lc).foldl (fun t w => t.putFormat i w.layer c) s
  (i.weights.filter fun w => w.kind == 2 && w.place == lc).foldl (fun t w =>
    (List.range (w.bytes / 68)).foldl (fun u k =>
      let a := w.dest + 64 * k
      (u.wrBytes (tableKey c a) ((w.data.drop (68 * k)).take 64)).wrBytes (tableSide c (a / 64)) ((w.data.drop (68 * k + 64)).take 4)) t) s

/-! ### Losing tiles -/

/-- Sequences with data in layer group g: a resident or spilling set, a staged set, or a page table at `key` (R425). -/
def State.usesTile (s : State) (key : Nat) (r : Req) : Bool :=
  match s.img.image with
  | none => false
  | some i =>
    r.active && (List.range i.kv.length).any fun g =>
      let held := ((i.kv[g]?).any fun k => k.pages.any fun x => x.tile == key) &&
        ((r.sets.getD g []).any (fun k => k.state == 1 || k.state == 3) ||
          (r.phase == .slot && s.serv.staged.any fun x => x.1 == g && x.2.1 == r.carriage))
      let table := r.phase == .slot && ((i.kv[g]?).map fun k => (k.tables.getD (16 * r.carriage + r.slot) (0, 0)).1 == key) == some true
      held || table

/-- Mark sequences as lost: they are recovered at the boundary (R430); queued prompts restart from token 0 and prompts of
the running round are dropped from it (R425). -/
def State.loseSequences (s : State) (p : Req → Bool) : State :=
  s.mapReqs p fun r =>
    if r.phase = .prefill then
      if s.inRound r.id then { r with lost := true, dropped := true } else { r with pre := 0 }
    else { r with lost := true, live := false }

/-- Physical tiles that repairs in progress have taken. -/
def State.taken (s : State) : List Nat :=
  (s.rep.jobs ++ s.rep.done).map (·.target) ++ (match s.rep.advance with | none => [] | some a => [a.target])

/-- The placement that the repairs in progress lead to (R438: each choice sees the earlier ones). -/
def State.pendingPlace (s : State) : Sparse Nat :=
  s.rep.jobs.foldl (fun pl j => Sparse.put pl j.key j.target) s.img.place

/-- The replacement of a lost tile of a coach (R424): in its own coach, or in the first reserve coach that serves. -/
def State.chooseSite (s : State) (i : Image) (key n : Nat) : Option Nat :=
  let pl := s.pendingPlace
  let used := pl.map (·.2) ++ s.taken
  let fine (m : Nat) : Bool := s.goodTile m && tileClass m == tileClass n && !used.contains m && m != n
  let pass (m : Nat) : Bool := s.admissible i (Sparse.put pl key m) && s.pairsOk (Sparse.put pl key m)
  match (nearest (n % 144) ((coachTiles (n / 144)).filter fine)).find? pass with
  | some m => some m
  | none =>
    (s.reserves i s.homeCoaches).findSome? fun c =>
      match (nearest (n % 144) ((coachTiles c).filter fine)).head? with
      | none => none
      | some m => if pass m then some m else none

/-- The replacement of a lost P-tile (R425). -/
def State.chooseP (s : State) (n : Nat) : Option Nat :=
  let used := s.pendingPlace.map (·.2) ++ s.taken
  (bayTiles ((n - 9216) / 32)).find? fun m => s.goodTile m && !used.contains m && m != n

/-- A repair takes coach c: a draft model that holds it is evicted at the boundary, and its trees carry node 0 alone (R236). -/
def State.takeCoach (s : State) (c : Nat) : State :=
  if s.img.place.any fun p => decide (64 ≤ p.1 / 256 ∧ p.1 / 256 < 72 ∧ p.2 < 9216 ∧ p.2 / 144 = c) then
    let s1 := { s with rep := { s.rep with draftTaken := some c } }
    s1.setServ fun v => { v with cars := v.cars.map fun p => (p.1, { p.2 with next := none }) }
  else s

/-- Samples in progress on a checking S-tile are missed (R425). -/
def State.missSamples (s : State) (n : Nat) : State :=
  let l := s.serv.samples.filter fun (x : Sample) => x.by_ == n
  (s.setServ fun v => { v with samples := v.samples.filter fun (x : Sample) => x.by_ != n }).inc HEAD_SHADOW_STATS.missed l.length

/-- Note a repair in HEAD_REPAIR_STATUS. -/
def State.noteRepair (s : State) (st : Nat) : State :=
  (s.set HEAD_REPAIR_STATUS.state (max st (s.get HEAD_REPAIR_STATUS.state))).set HEAD_REPAIR_STATUS.last_turn s.turnNo

/-- Void the turn for a loss (R422, R423). -/
def State.voidForLoss (s : State) : State :=
  let s1 := s.voidTurn
  { s1 with rep := { s1.rep with lossVoid := true } }

/-- Start the repair of the logical tile `key` from tile `old` into tile `m` (R423 steps 2 and 3). -/
def State.startJob (s : State) (i : Image) (key old m : Nat) (copied : Bool) : State :=
  let s1 := if m / 144 ≠ old / 144 then s.takeCoach (m / 144) else s
  let lines := if copied ∨ tileClass old ≠ 0 then 0 else sliceLines i key
  let s2 := { s1 with rep := { s1.rep with jobs := s1.rep.jobs.filter (fun (j : RepJob) => j.key != key) ++ [(⟨key, old, m, lines, false, false⟩ : RepJob)] } }
  ((s2.set (TILE_STATE.state.tile m) 3).noteRepair 1).voidForLoss

/-- A lost coach that holds a logical model coach is rebuilt in the first reserve coach that fits (R432), on the sites of it that
no displaced tile uses. -/
def State.rebuild (s : State) (i : Image) (lc c : Nat) (cmd : Option Nat) : State :=
  let base := s.pendingPlace.filter fun p => p.1 / 256 != lc
  let cand := (s.reserves i s.homeCoaches).findSome? fun r =>
    if s.fits (tilesOf i lc) r ∧ r ≠ c then
      let pl := s.placeCoach (tilesOf i lc) r ((base.filter fun p => p.1 / 256 < 64).map (·.2))
      if pl.length = (tilesOf i lc).length ∧ s.admissible i (base ++ pl) ∧ s.pairsOk (base ++ pl) then some (r, pl) else none
    else none
  match cand with
  | none => s.repairFail (defectWord 2 c 0 0) [c]
  | some (r, pl) =>
    let jobs := pl.map fun p => (⟨p.1, (Sparse.find s.img.place p.1).getD (c * 144), p.2,
      if tileClass p.2 = 0 then sliceLines i p.1 else 0, false, false⟩ : RepJob)
    let s1 := s.takeCoach r
    let s2 := { s1 with rep := { s1.rep with jobs := s1.rep.jobs.filter (fun (j : RepJob) => j.key / 256 != lc) ++ jobs,
                                             rebuilds := s1.rep.rebuilds ++ [(⟨lc, c, r, cmd⟩ : Rebuild)],
                                             resetting := s1.rep.resetting ++ [r] } }
    ((s2.setTiles (pl.map fun p => p.2) 3).noteRepair 2).voidForLoss

/-- A tile that a repair displaced into a coach now lost is placed again (R424). -/
def State.moveStray (s : State) (i : Image) (c key n : Nat) : State :=
  match s.chooseSite i key n with
  | none => s.repairFail (defectWord 2 c 0 0) [c]
  | some m => s.startJob i key n m false

/-- A coach is lost (R432): isolated at once, COACH_LOST, its sequences recovered, and rebuilt while an image runs. -/
def State.loseCoach (s : State) (c finding : Nat) (cmd : Option Nat := none) : State :=
  if s.rep.isolated.contains c then s
  else
    let lc := (s.img.homes.find? fun p => p.2 == c).map (·.1)
    let strays := s.img.place.filter fun p => decide (p.1 / 256 < 64 ∧ p.2 < 9216 ∧ p.2 / 144 = c) && some (p.1 / 256) != lc
    let draft := s.img.place.any fun p => decide (64 ≤ p.1 / 256 ∧ p.1 / 256 < 72 ∧ p.2 / 144 = c)
    let keys := (s.img.place.filter fun p => p.2 < 9216 && p.2 / 144 == c).map (·.1)
    let s1 := (s.isolate c).raiseHead 70 finding c
    if s.turning then
      match s.img.image with
      | none => s1
      | some i =>
        let s2 := s1.loseSequences fun r => keys.any fun k => s.usesTile k r
        let s3 := if draft then s2.takeCoach c else s2
        if lc.isNone ∧ strays.isEmpty then s3
        else if 4 ≤ s.get HEAD_REPAIR_STATUS.reruns then s3.repairFail (defectWord 2 c 0 0) [c]
        else
          let s4 := match lc with | some l => s3.rebuild i l c cmd | none => s3
          strays.foldl (fun t p => if t.turning then t.moveStray i c p.1 p.2 else t) s4
    else s1

/-- A tile is lost (R415, R423 to R425): `finding` as event 69 gives it, `copied` after an advance copy into `to_`. -/
def State.loseTile (s : State) (n finding : Nat) (copied : Option Nat := none) : State :=
  if s.hasDefect 1 (placeOf n) (siteOf n) ∨ s.rep.jobs.any (fun j => j.lost == n) then s
  else
    match s.logicalOf n, s.img.image with
    | some key, some i =>
      let s1 := (s.set (TILE_STATE.state.tile n) 4).raise 69 n finding key
      if !s.turning then s1.addDefect (tileDefect n)
      else if 4 ≤ s.get HEAD_REPAIR_STATUS.reruns then
        (s1.addDefect (tileDefect n)).repairFail (tileDefect n) (if n < 9216 then [n / 144] else [])
      else if 9216 ≤ n then
        match s.chooseP n with
        | none => (s1.addDefect (tileDefect n)).repairFail (tileDefect n) []
        | some m =>
          let s2 := { s1 with rep := { s1.rep with jobs := s1.rep.jobs ++ [(⟨key, n, m, 0, false, true⟩ : RepJob)] } }
          ((s2.setServ fun v => { v with dropRound := v.round.isSome }).noteRepair 1).voidForLoss
      else if 64 ≤ key / 256 then (s1.addDefect (tileDefect n)).takeCoach (n / 144)
      else
        let s2 := if tileClass n = 1 then s1.loseSequences (s.usesTile key) else s1
        let s3 := if tileClass n = 2 then s2.missSamples n else s2
        match copied with
        | some m => s3.startJob i key n m true
        | none =>
          match s3.chooseSite i key n with
          | none => (s3.addDefect (tileDefect n)).loseCoach (n / 144) 3
          | some m => s3.startJob i key n m false
    | _, _ => (s.set (TILE_STATE.state.tile n) 4).addDefect (tileDefect n)

/-- A repair's target is lost too: it is failed, with its event and its entry, and the job is dropped (R429). -/
def State.targetLost (s : State) (j : RepJob) : State :=
  let s1 := ((s.set (TILE_STATE.state.tile j.target) 4).raise 69 j.target 4 j.key).addDefect (tileDefect j.target)
  { s1 with rep := { s1.rep with jobs := s1.rep.jobs.filter fun (x : RepJob) => x.key != j.key } }

/-- A new replacement is chosen for a repair whose target is lost, and the copy restarts (R429). -/
def State.escalate (s : State) (j : RepJob) : State :=
  match s.img.image with
  | none => s
  | some i =>
    let s2 := s.targetLost j
    if j.prefill then
      match s2.chooseP j.lost with
      | none => s2.repairFail (tileDefect j.target) []
      | some m => { s2 with rep := { s2.rep with jobs := s2.rep.jobs ++ [(⟨j.key, j.lost, m, 0, false, true⟩ : RepJob)] } }
    else
      match s2.chooseSite i j.key j.lost with
      | none => s2.loseCoach (j.lost / 144) 3
      | some m => s2.startJob i j.key j.lost m false

/-- A tile becomes failing (R126, R292): replaced with a copy made in advance when it holds a logical tile (R428). -/
def State.failTile (s : State) (n : Nat) : State :=
  if s.get (TILE_STATE.state.tile n) = 4 then s
  else
    let s1 := s.set (TILE_STATE.state.tile n) 4
    if s.turning ∧ (s.logicalOf n).isSome then { s1 with rep := { s1.rep with failing := s1.rep.failing ++ [n] } }
    else s1.addDefect (tileDefect n)

end Sys2Proof.Machine
end

