-- ==== Sys2Proof/Machine/Slots.lean ====
section
/-! DEFINITION. The transmitters of the couplings: blocks, link flits and their order, credits, and the block header with its
stall-wave items (R320, R325 to R329, R332, R334, R336). -/

namespace Sys2Proof.Machine

/-- Coupling k, both directions. -/
def State.link (s : State) (k : Nat) : Cpl := (Sparse.find s.cpl.links k).getD {}
def State.setLink (s : State) (k : Nat) (c : Cpl) : State := { s with cpl := { s.cpl with links := Sparse.put s.cpl.links k c } }

/-- Change what a coupling holds. -/
def State.updLink (s : State) (k : Nat) (f : Cpl → Cpl) : State := s.setLink k (f (s.link k))

/-- A coupling is up. -/
def State.up (s : State) (k : Nat) : Bool := s.get (CPL_STATUS.state.cpl k) == 2

/-- Couplings that the turn group uses. -/
def State.used (s : State) : List Nat := (List.range 24).filter fun k => s.flag (CPL_CONFIG.used.cpl k)

/-- Queue a transaction on a coupling. -/
def State.sendTx (s : State) (k : Nat) (t : Tx) : State :=
  s.setLink k { s.link k with out := (s.link k).out ++ [t] }

/-! ### Flits of a transaction (R325, R336) -/

/-- The 32 B header of a transaction (R336). -/
def txHeader (x : Tx) : List Byte :=
  leBytes 1 x.ty ++ leBytes 1 x.flags ++ leBytes 1 x.srcMember ++ leBytes 1 x.dstMember ++ leBytes 2 x.dstEp ++ leBytes 2 x.srcEp
    ++ leBytes 1 (x.space % 4 + x.region % 16 * 16) ++ leBytes 1 x.push ++ leBytes 1 x.hops ++ leBytes 1 x.tag ++ leBytes 4 x.len
    ++ leBytes 8 x.offset ++ leBytes 2 x.coll ++ leBytes 1 x.part ++ leBytes 1 x.status ++ leBytes 4 0

/-- Flits of a transaction with n bytes of payload (R336). -/
def txFlits (n : Nat) : Nat := if n ≤ 216 then 1 else 1 + ceilDiv (n - 216) 248

/-- Payloads of a transaction's flits: the header and 216 B in the head flit, 248 B in each body flit (R325, R336). -/
def txPayloads (x : Tx) : List (List Byte) :=
  (List.range (txFlits x.data.length)).map fun j =>
    let bs := if j = 0 then txHeader x ++ x.data.take 216 else (x.data.drop (216 + 248 * (j - 1))).take 248
    bs ++ List.replicate (248 - bs.length) 0

/-- A link flit (R325): kind 0 null, 1 head, 2 body, 3 link control. -/
def linkFlit (seq vc kind last : Nat) (payload : List Byte) : LinkFlit :=
  let body := leBytes 1 seq ++ leBytes 1 (vc * 64 + kind * 16 + last * 8) ++ leBytes 2 0 ++ payload
  ⟨seq, vc, kind, last, body, crc32c body⟩

/-- Values of a request, of a node, of a carriage and of a result of the sampling unit, in a turn message. -/
def reqWords (r : Req) : List Nat :=
  [r.id, r.ring, r.tag, r.tenant, r.profile, r.adapter, r.promptLen, r.maxNew, r.seed, r.flags, r.handle, r.copy, r.half, r.n, r.pre,
    r.carriage, r.slot, r.phase.toCtorIdx, if r.live then 1 else 0, r.stop.length, r.prompt.length, r.gen.length, r.carry.length, r.nodes.length]
    ++ r.stop ++ r.prompt ++ r.gen ++ r.carry ++ r.nodes
def nodeWords (n : Node) : List Nat :=
  [n.id, n.hash, n.parent.elim 0 (· + 1), n.refs, n.half, n.handle, n.lastMatch, if n.tail then 1 else 0, if n.flushed then 1 else 0,
    n.src.1, n.src.2, n.tokens.length] ++ n.tokens
def treeWords (t : Option Tree) : List Nat := match t with | none => [0] | some x => x.nodes :: x.parents :: x.tokens
def carWords (c : Nat × Car) : List Nat := [c.1, c.2.epoch, c.2.half.elim 0 (· + 1)] ++ treeWords c.2.tree ++ treeWords c.2.next
def passWords (p : Pass) : List Nat := [p.req, p.tokens.length, p.nodes.length, p.code.elim 0 (· + 1)] ++ p.tokens ++ p.nodes
def roundWords (r : Round) : List Nat := r.turn :: r.batch.flatMap fun c => [c.req, c.take, c.start]

/-- Values of the leader's decisions. -/
def decisionWords (d : Decisions) : List Nat :=
  [d.reqs.length, d.nodes.length, d.cars.length] ++ d.reqs.flatMap reqWords ++ d.nodes.flatMap nodeWords ++ d.cars.flatMap carWords
    ++ d.round.elim [] roundWords

/-- The transaction that carries a turn message to a peer (R334, R336); its payload, and that of a link control flit, hold the fields
in an order of the model's own (DESIGN CHOICE, log entry 53). -/
def msgTx (m : TurnMsg) (peer : Nat) : Tx :=
  let data := leBytes 6 m.turn ++ leBytes 1 m.step ++ leBytes 1 (if m.wide then 1 else 0) ++ (m.decisions.elim [] decisionWords ++ m.passes.flatMap passWords).flatMap (leBytes 8)
  ⟨8, 0, 0, m.member, peer, 0, 0, 0, 0, 0, m.hops, 0, data.length, 0, 0, 0, 0, true, data⟩

/-! ### The flit of a slot (R328, R329) -/

/-- Free buffers of the peer in a virtual channel (R328). -/
def Cpl.room (c : Cpl) (vc : Nat) : Nat := (Sparse.find c.avail vc).getD 128

/-- Payloads still to send in a virtual channel: of the transaction under way, else of the first that waits. -/
def Cpl.nextPayloads (c : Cpl) (vc : Nat) : Bool × List (List Byte) :=
  match Sparse.find c.sending vc with
  | some l => (false, l)
  | none => match c.out.find? fun x => x.vc == vc with
    | some x => (true, txPayloads x)
    | none => (false, [])

/-- The flit of one slot, in strict priority: replay, link control, VC0 to VC3, a null flit; one in 4,096 slots is left to a null flit.
A new sequenced flit goes while fewer than 128 are kept, and one of a virtual channel against a credit of it (R325, R327 to R329). -/
def Cpl.slot (c : Cpl) (n : Nat) : LinkFlit × Cpl :=
  let null := linkFlit 0 0 0 0 (List.replicate 248 0)
  let fresh (f : LinkFlit) (c1 : Cpl) : LinkFlit × Cpl := (f, { c1 with seq := (c.seq + 1) % 256, kept := c1.kept ++ [f] })
  if n % 4096 = 0 then (null, c)
  else match c.replay, c.control with
  | f :: rest, _ => (f, { c with replay := rest })
  | [], x :: rest =>
    if 128 ≤ c.kept.length then (null, c)
    else fresh (linkFlit c.seq 0 3 1 (leBytes 1 x.1 ++ leBytes 7 x.2 ++ List.replicate 240 0)) { c with control := rest }
  | [], [] =>
    match (List.range 4).find? fun vc => decide (0 < c.room vc) && !(c.nextPayloads vc).2.isEmpty with
    | none => (null, c)
    | some vc =>
      if 128 ≤ c.kept.length then (null, c)
      else match c.nextPayloads vc with
        | (_, []) => (null, c)
        | (head, p :: rest) =>
          let c1 := if head then { c with out := match c.out.find? fun x => x.vc == vc with | some x => c.out.erase x | none => c.out } else c
          let left := if rest.isEmpty then Sparse.drop c.sending vc else Sparse.put c.sending vc rest
          fresh (linkFlit c.seq vc (if head then 1 else 2) (if rest.isEmpty then 1 else 0) p) { c1 with avail := Sparse.put c.avail vc (c.room vc - 1), sending := left }

/-! ### Blocks (R320, R326) -/

/-- The header of block b: the stall-wave item at the head of the rotation, the acknowledgement, the nack, and the count of one
virtual channel, in rotation, but of VC0 whenever it has changed (R326). -/
def Cpl.header (c : Cpl) (b : Nat) : Nat :=
  let wave := match c.rotation with
    | [] => 0
    | (w, _) :: _ => 2 ^ 39 + (if w.raise then 2 ^ 38 else 0) + w.cause % 16 * 2 ^ 34 + w.spoke % 16 * 2 ^ 30 + w.hops % 4 * 2 ^ 28
        + w.origin % 64 * 2 ^ 22 + w.serial % 8 * 2 ^ 19
  let vc := if (Sparse.find c.freed 0).getD 0 % 64 ≠ c.reported then 0 else b % 4
  wave + (if c.nacking then 2 ^ 18 else 0) + (c.expect + 255) % 256 * 2 ^ 10 + vc * 2 ^ 8 + (Sparse.find c.freed vc).getD 0 % 64 * 4

/-- Block b is sent: its header, its 5 flits, and the item it carried has one block less to go (R320, R326). -/
def Cpl.sendBlock (c : Cpl) (b : Nat) : Cpl :=
  let r := (List.range 5).foldl (fun (a : List LinkFlit × Cpl) i => let x := a.2.slot (5 * b + i); (a.1 ++ [x.1], x.2)) ([], c)
  { r.2 with block := some (c.header b, r.1), reported := (Sparse.find c.freed 0).getD 0 % 64
             rotation := match c.rotation with | [] => [] | (w, n) :: l => if n ≤ 1 then l else l ++ [(w, n - 1)] }

/-- Blocks that a direction has begun after a number of ticks: one in 5.3125 ns (R320). -/
def blocksAt (tick : Nat) : Nat := 20 * tick / 17

/-- Blocks that what waits can still fill; past them only null flits are left. -/
def Cpl.work (c : Cpl) : Nat :=
  let flits := c.replay.length + c.control.length + (c.out.map fun x => txFlits x.data.length).sum + (c.sending.map fun x => x.2.length).sum
  flits + flits / 4096 + 8 * c.rotation.length + if (Sparse.find c.freed 0).getD 0 % 64 = c.reported then 0 else 1

/-- Blocks b, b + 1, … are sent. -/
def Cpl.sendBlocks : Nat → Nat → Cpl → Cpl
  | 0, _, c => c
  | n + 1, b, c => Cpl.sendBlocks n (b + 1) (c.sendBlock b)

/-- A coupling's transmitter works over the ticks since it last did: own and relayed stall-wave items join the rotation for 8 blocks
each, and turn messages the transactions (R326, R332, R334). -/
def State.transmitOn (s : State) (k : Nat) : State :=
  let c := s.link k
  let peer := s.get (CPL_STATUS.peer_member.cpl k)
  let on := s.flag (CPL_CONFIG.used.cpl k)
  let items := (if on then s.turn.waveOut else []) ++ c.waves
  let msgs := (if on then s.turn.msgOut else []) ++ c.msgs
  let c1 : Cpl := { c with rotation := c.rotation ++ items.map fun w => (w, 8), waves := [], out := c.out ++ msgs.map fun m => msgTx m peer, msgs := [] }
  let b := blocksAt s.cpl.sentTo
  let n := min (blocksAt s.ticks - b) c1.work
  if n = 0 then (if items.isEmpty ∧ msgs.isEmpty then s else s.setLink k c1) else s.setLink k (Cpl.sendBlocks n b c1)

/-- Every coupling that is up transmits (R320); a coupling that is not holds what waits. -/
def State.sendLinks (s : State) : State :=
  let s1 := ((List.range 24).filter s.up).foldl (fun t k => t.transmitOn k) s
  { s1 with cpl := { s1.cpl with sentTo := s.ticks }, turn := { s1.turn with waveOut := [], msgOut := [] } }

end Sys2Proof.Machine
end

