-- ==== Sys2Proof/Machine/Tiles.lean ====
section
/-! DEFINITION. Tiles: declared regions and traps, the same-row rule, error codes and spares, circular regions, fills and
copies, scrubbing, the hazard detector and the scheduled actions (R100 to R130, R365, R372, R377, R378, R417). -/

namespace Sys2Proof.Machine

/-- Key of a scratchpad byte, of an input-store byte, of an accumulator byte and of a panel-store byte of tile n. -/
def spadKey (n off : Nat) : Nat := tileBase n + 0x8000000 + off
def inputKey (n off : Nat) : Nat := 8 * 281474976710656 + n * 0x100000 + off
def accKey (n off : Nat) : Nat := 16 * 281474976710656 + n * 0x1000000 + off
def panelKey (n store off : Nat) : Nat := 32 * 281474976710656 + n * 0x100000 + store * 0x40000 + off

/-! ### Error codes (R122 to R124) -/

/-- Number of ones in the low `w` bits. -/
def popcount (w v : Nat) : Nat := ((List.range w).filter fun i => v.testBit i).length

/-- The vectors of R124: those of weight 3, then those of weight 5, each in ascending order. -/
def hamming (r : Nat) : List Nat :=
  ((List.range (2 ^ r)).filter fun v => popcount r v == 3) ++ ((List.range (2 ^ r)).filter fun v => popcount r v == 5)

/-- Decode one codeword of `m` data bits whose flipped bits are given: 0 no error, 1 corrected, 2 uncorrectable, and the data
bits that still differ from what was written (R124). -/
def secDed (r m data check : Nat) : Nat × Nat :=
  let vs := (hamming r).take m
  let syn := (List.range m).foldl (fun a d => if data.testBit d then a ^^^ vs.getD d 0 else a) check
  if syn = 0 then (0, data)
  else if popcount r syn = 1 then (1, data)
  else match vs.findIdx? (· == syn) with
    | some d => (1, data ^^^ 2 ^ d)
    | none => (2, data)

/-- A scratchpad word's flipped bits: 64 data bits, then 8 check bits (R123). -/
def spadDecode (mask : Nat) : Nat × Nat := secDed 8 64 (mask % 2 ^ 64) (mask / 2 ^ 64)

/-- A roof word's flipped bits, four interleaved codewords (R122): the worst result and the payload bits that still differ. -/
def roofDecode (mask : Nat) : Nat × Nat :=
  (List.range 4).foldl (fun a j =>
    let data := (List.range 136).foldl (fun x d => if mask.testBit (4 * d + j) then x + 2 ^ d else x) 0
    let check := (List.range 9).foldl (fun x t => if mask.testBit (544 + 4 * t + j) then x + 2 ^ t else x) 0
    let r := secDed 9 136 data check
    (max a.1 r.1, a.2 + (List.range 136).foldl (fun x d => if r.2.testBit d then x + 2 ^ (4 * d + j) else x) 0)) (0, 0)

/-- Flip stored bits. -/
def State.upset (s : State) (us : List Upset) : State :=
  us.foldl (fun t u =>
    let v := (Sparse.find t.flips u.key).getD 0 ^^^ u.mask
    { t with flips := if v = 0 then Sparse.drop t.flips u.key else Sparse.put t.flips u.key v }) s

/-- A number xored into bytes. -/
def xorBytes (bs : List Byte) (v : Nat) : List Byte := List.zipWith (fun b x => b ^^^ x) bs (leBytes bs.length v)

/-- Count an error of tile n in TILE_ECC_COUNT and TILE_ECC_LAST (R125). -/
def State.eccCount (s : State) (n bank off : Nat) (ue scrub : Bool) : State :=
  let s1 := if ue then s.inc ((TILE_ECC_COUNT.uncorrectable.tile n).ix bank) else s.inc ((TILE_ECC_COUNT.corrected.tile n).ix bank)
  ((((s1.setFlag (TILE_ECC_LAST.valid.tile n) true).setFlag (TILE_ECC_LAST.uncorrectable.tile n) ue).setFlag
    (TILE_ECC_LAST.scrub.tile n) scrub).set (TILE_ECC_LAST.bank.tile n) bank).set (TILE_ECC_LAST.offset.tile n) off

/-- The value of TILE_ECC_LAST of tile n. -/
def State.eccLast (s : State) (n : Nat) : Nat := s.reg (tileBase n + TILE_ECC_LAST.valid.key)

/-- Uncorrectable errors of a row since it was last repaired, one more; true from the second on (R126). -/
def State.rowError (s : State) (row : Nat) : Bool × State :=
  let c := (Sparse.find s.tile.rowErrors row).getD 0 + 1
  (2 ≤ c, { s with tile := { s.tile with rowErrors := Sparse.put s.tile.rowErrors row c } })

/-- Who reads a coded word: a port of the image's work, whose uncorrectable error voids the turn, a management access, which voids
nothing (DESIGN CHOICE, log entry 35), or the scrubber (R125). -/
inductive Reader where
  | port | manage | scrub
  deriving DecidableEq, Repr

/-- An uncorrectable scratchpad-coded word at a key (R125, R126): counted, ECC_SPAD_UE, the turn voided when a port read found it;
the second of a bank row makes the tile failing. -/
def State.spadUe (s : State) (n key off : Nat) (who : Reader) : State :=
  let s1 := s.eccCount n (bankOf off) off true (who == .scrub)
  let s2 := s1.raise 65 n (s1.eccLast n) s.turnNo
  let r := s2.rowError (key / 64 * 64)
  let s3 := if r.1 then r.2.failTile n else r.2
  if who = .port then s3.voidTurn else s3

/-- Read scratchpad-coded bytes at a key through the code (R123, R125): the words with flipped bits are decoded, counted and
reported; `off` is the offset that TILE_ECC_LAST gives. Accumulator memory, for which TILE_ECC_SEL has no code, counts under the
bank index and offset that its own layout gives (DESIGN CHOICE, log entry 46). -/
def State.readCoded (s : State) (n key off len : Nat) (who : Reader := .port) : List Byte × State :=
  let lo := key / 8 * 8
  (s.flips.filter fun p => decide (lo ≤ p.1 ∧ p.1 < key + len)).foldl (fun a p =>
    let d := spadDecode p.2
    let w := xorBytes (s.bytes p.1 8) d.2
    let bs := (List.range len).map fun i => if p.1 ≤ key + i ∧ key + i < p.1 + 8 then w.getD (key + i - p.1) 0 else a.1.getD i 0
    let o := off + (p.1 - lo) - (key - lo)
    (bs, if d.1 = 1 then a.2.eccCount n (bankOf o) o false (who == .scrub) else if d.1 = 2 then a.2.spadUe n p.1 o who else a.2))
    (s.bytes key len, s)

/-- Write scratchpad bytes outside the ports' slots: a loader's or a repair's write. -/
def State.writeSpad (s : State) (n off : Nat) (bs : List Byte) : State := s.writeCoded (spadKey n off) bs

/-! ### Roof words (R100, R104, R122, R125 to R127) -/

/-- The coach-table scrubber of a coach (R127): among the S-tiles that hold a logical tile while an image runs, which a loss does not
change before the boundary; otherwise among the good ones. -/
def State.tableScrubber (s : State) (c : Nat) : Option Nat :=
  let all := (coachTiles c).filter fun n => tileClass n == 2
  let held := all.filter fun n => (s.logicalOf n).isSome
  if s.running ∧ !held.isEmpty then held.head? else (all.filter s.goodTile).head?

/-- Key of a coach-table word: keys of roof banks lie below. -/
def isTableKey (key : Nat) : Bool := 281474976710656 ≤ key

/-- Tile of the bank that a roof word's key names, or first tile of the coach whose tables it names. -/
def roofTile (key : Nat) : Nat :=
  if isTableKey key then (key - tableKey 0 0) / 268435456 * 144
  else (key - 0x100000000000) / 0x1000000000 * 144 + key % 0x1000000000 / 0x10000000

/-- Tile whose engine and counts serve a roof word: its bank's own, or the coach-table scrubber (R127, R134). -/
def State.roofUnit (s : State) (key : Nat) : Nat :=
  if isTableKey key then (s.tableScrubber (roofTile key / 144)).getD (roofTile key) else roofTile key

/-- Key of the side part of a roof word. -/
def sideOf (key : Nat) : Nat :=
  if isTableKey key then tableSide (roofTile key / 144) ((key - tableKey (roofTile key / 144) 0) / 64)
  else sideKey (roofTile key) (key % 0x10000000 / 64)

/-- Bank code of a roof word in TILE_ECC_SEL, and its offset in its space. -/
def roofCode (key : Nat) : Nat := if isTableKey key then 0x41 else 0x40
def roofOffset (key : Nat) : Nat := if isTableKey key then key - tableKey (roofTile key / 144) 0 else key % 0x10000000

/-- The words of the row that holds a roof word (R42): those of its bank, or of its coach's tables, that Config.roofRow puts there. -/
def rowWords (key : Nat) : List Nat :=
  let base := key - roofOffset key
  (((List.range (if isTableKey key then 0x200000 else 327680)).map fun w => base + 64 * w)).filter fun k => Config.roofRow k == Config.roofRow key

/-- Where the tower shadow of a weight-store word of tile n lies (R193): its key, and the tower. -/
def State.shadowOf (s : State) (n w : Nat) : Option (Nat × Nat) :=
  match s.img.image, s.logicalOf n with
  | some i, some key =>
    match i.weights.find? fun d => d.kind == 0 && d.place * 256 + d.tile == key
        && decide (d.dest ≤ 64 * w ∧ 64 * w < d.dest + wordCount d * 64) with
    | none => none
    | some d => (i.weights[d.shadow]?).map fun h => (towerBase h.place + h.dest + 68 * shadowWord d h ((64 * w - d.dest) / 64), h.place)
  | _, _ => none

/-- Reload a roof word from the tower shadow, or from the loaded tables; false when no readable copy is left (R435). -/
def State.reloadWord (s : State) (key : Nat) : Bool × State :=
  if isTableKey key then
    let c := roofTile key / 144
    let off := roofOffset key
    match s.img.image with
    | none => (true, { s with flips := Sparse.drop s.flips key })
    | some i =>
      match i.weights.find? fun d => d.kind == 2 && decide (d.dest ≤ off ∧ off < d.dest + wordCount d * 64)
          && (s.img.place.any fun p => p.1 / 256 == d.place && p.2 < 9216 && p.2 / 144 == c) with
      | none => (true, { s with flips := Sparse.drop s.flips key })
      | some d =>
        let bs := (d.data.drop (68 * ((off - d.dest) / 64))).take 68
        (true, s.writeRoof key (sideOf key) (leNat (bs.take 64) + leNat (bs.drop 64) * 2 ^ 512))
  else
    match s.shadowOf (roofTile key) (roofOffset key / 64) with
    | none => (true, { s with flips := Sparse.drop s.flips key })
    | some (k, t) =>
      if s.towerFailed t then (false, s)
      else (true, s.writeRoof key (sideOf key) (s.num k 64 + s.num (k + 64) 4 * 2 ^ 512))

/-- Reload the whole row of a word whose row or column is replaced, else the word alone (R42, R125). -/
def State.reloadRow (s : State) (key : Nat) (row : Bool) : Bool × State :=
  (if row then key :: rowWords key else [key]).foldl (fun (a : Bool × State) k =>
    let r := a.2.reloadWord k
    (a.1 && r.1, r.2)) (true, s)

/-- An assigned spare takes effect: its defect-map entry, with the bank of R97, and event 75; the row counts its errors afresh
(R42, R126, R413). -/
def State.takeSpare (s : State) (j : RoofJob) : State :=
  match j.spare with
  | none => s
  | some row =>
    let n := roofTile j.key
    let w := defectWord 5 (placeOf n) (siteOf n)
      (roofBank (siteOf n) * 2 ^ 32 + (if row then Config.roofRow j.key else Config.roofColumn j.key) % 65536)
    let u := (s.addDefect w).raise 75 n w 0
    { u with tile := { u.tile with rowErrors := Sparse.drop u.tile.rowErrors (100 * 281474976710656 + Config.roofRow j.key) } }

/-- A reload waits for Q and its hold while an image runs; with none running it is done at once, as there is no boundary to wait
for (R42, DESIGN CHOICE, log entry 47). -/
def State.queueJob (s : State) (j : RoofJob) : State :=
  if s.turning then { s with tile := { s.tile with jobs := s.tile.jobs ++ [j] } }
  else ((s.reloadRow j.key j.spare.isSome).2).takeSpare j

/-- An uncorrectable roof word waits to be reloaded (R125); a second one of its row assigns a spare row, or once the bank's 32
spare rows are used one of its 8 spare column groups, or makes the tile failing (R41, R126; rows before columns: DESIGN CHOICE,
log entry 47). The coach tables have no spares (R41): a word of theirs is only reloaded. -/
def State.roofJob (s : State) (key : Nat) : State :=
  if s.tile.jobs.any (fun j => j.key == key) then s
  else
    let n := roofTile key
    let u := s.roofUnit key
    let r := s.rowError (100 * 281474976710656 + Config.roofRow key)
    let t := r.2
    let rows := (Sparse.find t.tile.spareRows n).getD 0
    let cols := (Sparse.find t.tile.spareCols n).getD 0
    if !r.1 || isTableKey key then t.queueJob ⟨key, u, none, false, false⟩
    else if rows < 32 then
      { t with tile := { t.tile with spareRows := Sparse.put t.tile.spareRows n (rows + 1) } }.queueJob ⟨key, u, some true, false, false⟩
    else if cols < 8 then
      { t with tile := { t.tile with spareCols := Sparse.put t.tile.spareCols n (cols + 1) } }.queueJob ⟨key, u, some false, false, false⟩
    else t.failTile n

/-- Read the roof word at a key through its code: its 544 payload bits. Errors of the coach tables count at their scrubber (R134). -/
def State.readRoof (s : State) (key : Nat) (who : Reader := .port) : Nat × State :=
  let v := s.num key 64 + s.num (sideOf key) 4 * 2 ^ 512
  match Sparse.find s.flips key with
  | none => (v, s)
  | some mask =>
    let d := roofDecode mask
    let u := s.roofUnit key
    let s1 := if d.1 = 0 then s else s.eccCount u (roofCode key) (roofOffset key) (d.1 == 2) (who == .scrub)
    let s2 :=
      if d.1 = 2 then
        let t := if who = .port then (s1.raise 64 u (s1.eccLast u) s.turnNo).voidTurn else s1
        t.roofJob key
      else s1
    (v ^^^ d.2, s2)

/-- Key of weight-store word w of tile n. -/
def wordKey (n w : Nat) : Nat := tileBase n + 64 * w

/-- Weight-store word w of tile n. -/
def State.readWord (s : State) (n w : Nat) (who : Reader := .port) : Nat × State := s.readRoof (wordKey n w) who

/-- Put a write of a roof word into the open CORE cycle (R102). -/
def State.queueRoof (s : State) (tile key v port op : Nat) : State :=
  let w : Late := ⟨tile, if isTableKey key then 65 else 64, key, port, op, some (sideOf key), none, leBytes 68 v⟩
  { s with tile := { s.tile with late := insertLate w s.tile.late } }

/-! ### Traps (R118, R119) -/

/-- Record a trap at tile n; at a tile that holds a logical tile of the running image it faults the turn (R119, R373). -/
def State.trap (s : State) (n port kind circ space off : Nat) (faults : Bool := true) : State :=
  let s1 := if s.flag (TILE_TRAP.valid.tile n) then s.inc (TILE_TRAP.further.tile n)
    else s.setReg (tileBase n + TILE_TRAP.valid.key)
      (2 ^ 63 + port * 2 ^ 60 + kind * 2 ^ 56 + circ % 16 * 2 ^ 44 + space % 4 * 2 ^ 28 + off % 2 ^ 28)
  let s2 := s1.raise 66 n (s1.reg (tileBase n + TILE_TRAP.valid.key)) s.turnNo
  if (s.logicalOf n).isSome ∧ s.turning then
    let s3 := s2.inc HEAD_IMAGE_CHECKS.traps
    if faults then s3.faultTurn else s3
  else s2

/-- Kind of trap of an access to a span (R118): 0x1 outside every declared region, 0x2 permission, 0 none. `bit` is the
permission's bit of TILE_REGION_n. -/
def State.regionTrap (s : State) (n space off len bit : Nat) : Nat :=
  let rs := (List.range 16).filter fun r =>
    let g (f : Fld) : Nat := s.get ((f.tile n).off (8 * r))
    g TILE_REGION_n.space == space && decide (64 * g TILE_REGION_n.base ≤ off ∧ off + len ≤ 64 * g TILE_REGION_n.limit
      ∧ g TILE_REGION_n.base < g TILE_REGION_n.limit)
  if rs.isEmpty then 1
  else if rs.any fun r => s.flag ((Fld.tile ⟨TILE_REGION_n.base.key, bit, 1⟩ n).off (8 * r)) then 0 else 2

def localRead : Nat := 60
def localWrite : Nat := 61
def remoteRead : Nat := 62
def remoteWrite : Nat := 63

/-- Code of a port in TILE_TRAP, and its priority at a bank (R107, R119). -/
def portCode : Port → Nat
  | .engine => 0 | .vector => 1 | .cart => 2 | .network => 3 | .fillCopy => 4 | .sequencer => 5
def portPrio : Port → Nat
  | .engine => 0 | .vector => 1 | .network => 2 | .cart => 3 | .fillCopy => 4 | .sequencer => 4

/-- Kind of trap of an access by a port in units of `gran` bytes: alignment (R106), ownership of the bank groups (R108), regions (R118). -/
def State.spanTrap (s : State) (n : Nat) (p : Port) (gran off len bit : Nat) : Nat :=
  let groups := (List.range 8).filter fun g => decide (g * 0x100000 < off + len ∧ off < (g + 1) * 0x100000)
  let owner (v : Nat) : Bool := groups.all fun g => s.get (TILE_BANK_MAP.vector_groups.tile n) / 2 ^ g % 2 == v
  if off % gran ≠ 0 ∨ len % 8 ≠ 0 then 7
  else
    match p with
    | .engine => if owner 0 then s.regionTrap n 0 off len bit else 3
    | .vector => if owner 1 && tileClass n != 2 then s.regionTrap n 0 off len bit else 3
    | _ => s.regionTrap n 0 off len bit

/-- The same for whole accesses of a port. -/
def State.portTrap (s : State) (n : Nat) (p : Port) (off len bit : Nat) : Nat :=
  s.spanTrap n p (match p with | .engine => 512 | .vector => 128 | _ => 8) off len bit

/-! ### The hazard detector (R377, R378) -/

/-- Counter of a hazard kind. -/
def hazCount : Nat → Fld
  | 1 => TILE_HAZ_COUNT.same_row
  | 2 => TILE_HAZ_COUNT.early_read
  | 3 => TILE_HAZ_COUNT.contention
  | _ => TILE_HAZ_COUNT.mcast

/-- Log a hazard of tile n: counted, and logged while fewer than 31 entries are valid (R378). -/
def State.hazard (s : State) (n kind port addr other : Nat) : State :=
  if s.flag HEAD_IMAGE_STATUS.debug then
    let s1 := s.inc ((hazCount kind).tile n)
    let e := s.get (TILE_HAZ_STATUS.entries.tile n)
    if 31 ≤ e then s1.setFlag (TILE_HAZ_STATUS.overflow.tile n) true
    else
      let log := 2 ^ 63 + kind * 2 ^ 60 + s.tile.lateOff % 2 ^ 20 * 2 ^ 40 + port % 16 * 2 ^ 36 + addr % 2 ^ 36
      let aux := other % 2 ^ 16 * 2 ^ 48 + s.turnNo
      let s2 := ((s1.setReg (tileBase n + TILE_HAZ_LOG_n.valid.key + 16 * e) log).setReg
        (tileBase n + TILE_HAZ_AUX_n.other.key + 16 * e) aux).set (TILE_HAZ_STATUS.entries.tile n) (e + 1)
      if Sparse.find s.tile.hazTurn n = some (s.turnNo + 1) then s2
      else { s2 with tile := { s2.tile with hazTurn := Sparse.put s2.tile.hazTurn n (s.turnNo + 1) } }.raise 90 n log aux
  else s

/-- Rows of 64 B that a span touches. -/
def rowsOf (off len : Nat) : List Nat := (List.range (ceilDiv (off % 64 + len) 64)).map fun i => off / 64 + i

/-- Transfers of the schedule set in effect to the logical tile that n holds, as the detector indexes them. -/
def State.transfersTo (s : State) (n : Nat) : List Transfer :=
  match s.img.image, s.logicalOf n with
  | some i, some key =>
    (if s.flag HEAD_FMT_SET.in_effect then i.wideTransfers else i.transfers).filter fun t =>
      t.flags / 2 % 2 == 0 && t.dstC * 256 + t.dstT == key
  | _, _ => []

/-- Bytes of a transfer's span that have arrived. -/
def State.arrivedBytes (s : State) (n : Nat) (t : Transfer) : Nat :=
  ((s.tile.arrived.filter fun a => a.1 == n && decide (t.dstOff ≤ a.2.1 ∧ a.2.1 + a.2.2 ≤ t.dstOff + t.bytes)).map (·.2.2)).sum

/-- Note a port's read for the detector: kinds 0x1 and 0x2. -/
def State.noteRead (s : State) (n : Nat) (p : Port) (off len : Nat) : State :=
  let rows := rowsOf off len
  let s1 := { s with tile := { s.tile with reads := s.tile.reads ++ rows.map fun r => (n, r, portCode p) } }
  let hits := s.tile.writes.filter fun w => w.1 == n && rows.contains w.2.1
  let s2 := hits.foldl (fun t w => t.hazard n 1 (portCode p) (64 * w.2.1) w.2.2) s1
  match p with
  | .engine | .vector =>
    let ts := s.transfersTo n
    (List.range ts.length).foldl (fun t k =>
      match ts[k]? with
      | none => t
      | some x =>
        if x.leave ≤ s.tile.lateOff ∧ x.dstOff < off + len ∧ off < x.dstOff + x.bytes ∧ s.arrivedBytes n x < x.bytes then
          t.hazard n 2 (portCode p) off k
        else t) s2
  | _ => s2

/-- Note a port's write for the detector. -/
def State.noteWrite (s : State) (n : Nat) (p : Port) (off len : Nat) : State :=
  let rows := rowsOf off len
  let s1 := { s with tile := { s.tile with writes := s.tile.writes ++ rows.map fun r => (n, r, portCode p) } }
  (s.tile.reads.filter fun w => w.1 == n && rows.contains w.2.1).foldl
    (fun t w => t.hazard n 1 w.2.2 (64 * w.2.1) (portCode p)) s1

/-! ### Port accesses (R106 to R110) -/

/-- CORE cycles for which a read of a port below the vector port waits: behind its own port's writes, and when a read of the open
cycle has the read slot of one of its banks (R107); a read is answered as a whole (DESIGN CHOICE, log entry 48). -/
def State.readWait (s : State) (n : Nat) (p : Port) (off len : Nat) : Nat :=
  let prio := portPrio p
  if prio < 2 then 0
  else if s.tile.late.any fun w => w.tile == n && w.port == prio && w.side.isNone then s.tile.late.length + 1
  else if s.tile.reads.any fun r => r.1 == n && (rowsOf off len).any fun x => bankOf (64 * x) == bankOf (64 * r.2.1) then 1
  else 0

/-- A read of a scratchpad span that a port may make: the bytes as they stand at the start of the cycle in which it wins its slots
(R107, R109); it is noted, and its errors count, in the open cycle. -/
def State.readSpad (s : State) (n : Nat) (p : Port) (off len : Nat) (who : Reader := .port) : List Byte × State :=
  let k := s.readWait n p off len
  let r := (s.noteRead n p off len).readCoded n (spadKey n off) off len who
  (if k = 0 then r.1 else ((s.cycles k).readCoded n (spadKey n off) off len who).1, r.2)

/-- A read by a port of tile n: zeros when it traps (R119). -/
def State.readPort (s : State) (n : Nat) (p : Port) (off len : Nat) : List Byte × State :=
  let k := s.portTrap n p off len localRead
  if k = 0 then s.readSpad n p off len else (List.replicate len 0, s.trap n (portCode p) k 0 0 off)

/-- Cut a span into bank rows: (offset, bytes). -/
def cutRows (off : Nat) (bs : List Byte) : List (Nat × List Byte) :=
  (rowsOf off bs.length).map fun r =>
    let lo := max off (64 * r)
    let hi := min (off + bs.length) (64 * (r + 1))
    (lo, (bs.drop (lo - off)).take (hi - lo))

/-- Put the bank rows of a write into the open CORE cycle (R107, R109). -/
def State.queueRows (s : State) (n port op : Nat) (remote : Bool) (rows : List (Nat × List Byte)) : State :=
  let put (l : List Late) (w : Nat × List Byte) : List Late :=
    insertLate ⟨n, bankOf w.1, spadKey n w.1, port, op, none, if remote then some w.1 else none, w.2⟩ l
  { s with tile := { s.tile with late := rows.foldl put s.tile.late } }

/-- Put a checked write into the open CORE cycle. `op` is the cart channel + 1 that makes it. -/
def State.queueWrite (s : State) (n : Nat) (p : Port) (off : Nat) (bs : List Byte) (op : Nat := 0) (remote : Bool := false) : State :=
  (s.noteWrite n p off bs.length).queueRows n (portPrio p) op remote (cutRows off bs)

/-- A write by a port of tile n: suppressed when it traps (R119). -/
def State.writePort (s : State) (n : Nat) (p : Port) (off : Nat) (bs : List Byte) : State :=
  let k := s.portTrap n p off bs.length localWrite
  if k = 0 then s.queueWrite n p off bs else s.trap n (portCode p) k 0 0 off

/-! ### Format layers and channel scales (R149, R161) -/

def State.fmt (s : State) (layer : Nat) : Fmt :=
  match s.img.image with
  | none => ⟨0, 0, 1, 0, 0, 0, 64, 0, 0, 0, 0⟩
  | some i => i.formats.getD layer ⟨0, 0, 1, 0, 0, 0, 64, 0, 0, 0, 0⟩

/-- `act_shift` of an 8-bit field. -/
def shiftOf (v : Nat) : Int := if v < 128 then v else (v : Int) - 256

/-- The active recipe of a layer: A16 while the wide set is in effect (R145). -/
def State.a16 (s : State) (layer : Nat) : Bool := s.flag HEAD_FMT_SET.in_effect && s.flag (HEAD_FMT_ACTIVE.act.ix layer)
def State.actShift (s : State) (layer : Nat) : Int := shiftOf (s.get (HEAD_FMT_ACTIVE.act_shift.ix layer))

/-- A physical coach that holds M-tiles of a layer. -/
def State.layerCoach (s : State) (layer : Nat) : Nat :=
  match s.img.image with
  | none => 0
  | some i =>
    match i.weights.find? fun d => d.kind == 0 && d.layer == layer with
    | none => 0
    | some d => ((s.tileOf (d.place * 256 + d.tile)).getD 0) / 144

/-- Read `count` 4-byte entries of the coach tables of coach c from an offset, through the code of their words (R104, R122, R125). -/
def State.tableEntries (s : State) (c off count : Nat) : List Nat × State :=
  let w0 := off / 64
  let r := (List.range (ceilDiv (off % 64 + 4 * count) 64)).foldl (fun (a : List Byte × State) j =>
    let x := a.2.readRoof (tableKey c (64 * (w0 + j)))
    (a.1 ++ leBytes 64 x.1, x.2)) ([], s)
  ((List.range count).map fun i => leNat ((r.1.drop (off % 64 + 4 * i)).take 4), r.2)

/-- Channel scales of `count` rows in the coach tables of coach c, of a half of the scale tables; `alt` selects the alternate table
(R149, R161, R276). -/
def State.channelScales (s : State) (c half layer row count : Nat) (alt : Bool) : List Nat × State :=
  let f := s.fmt layer
  s.tableEntries c (scaleTables + scaleHalf * half + (if alt then f.tAlt else f.tPrimary) + 4 * row) count

/-- The live bit of lane slot j of carriage c (R183): all 16 of a tree carriage while its sequence is live (R205). -/
def State.slotLive (s : State) (c j : Nat) : Bool :=
  s.serv.reqs.any fun r => r.phase == .slot && r.live && r.carriage == c
    && (r.slot == j || decide (c < s.treeCars))

/-! ### The array of an M-tile (R146 to R149, R178 to R183) -/

/-- Roof words of a line as bursts (R101); an engine read outside the bank or the tile's declared weight-store regions traps and
returns zeros (R118, R119). -/
def State.readLine (s : State) (n line : Nat) : List Nat × State :=
  let k := if tileClass n = 0 ∧ line < 10240 then s.regionTrap n 1 (2048 * line) 2048 localRead else 1
  if k = 0 then
    (List.range 32).foldl (fun (a : List Nat × State) w =>
      let r := a.2.readWord n (32 * line + w)
      (a.1 ++ [r.1], r.2)) ([], s)
  else (List.replicate 32 0, s.trap n 0 k 0 1 (2048 * line))

/-- Activation codes of one lane for `e` inputs from an input-store entry on (R180): A8 bytes, or BF16 of slot j′ at A16. -/
def State.laneInputs (s : State) (n entry e lane : Nat) (a16 : Bool) : List Nat :=
  (List.range e).map fun i =>
    let k := inputKey n (16 * ((entry + i) % 16384))
    if a16 then s.num (k + lane / 2 * 2) 2 else s.num (k + lane) 1

/-- Line of a tile's weight store that a program's line number names: in the half in use (R276). -/
def State.halfLine (s : State) (n line : Nat) : Nat :=
  match s.img.image with
  | none => line
  | some i => if i.header.flags.testBit 2 then halfBytes / 2048 * s.weightHalf n + line % (halfBytes / 2048) else line

/-- One cycle of a row group: its set is cleared in the first, and one line's products are added, from the input-store entries as
they stand at the start of the cycle (R146 to R148, R178 to R181). -/
def State.groupLine (s : State) (n set line layer entry l : Nat) : State :=
  let f := s.fmt layer
  let e := elemsPerBurst f.wfmt
  let a16 := s.a16 layer
  let sub := s.flag (HEAD_FMT_ACTIVE.sub.ix layer)
  let sh := s.actShift layer
  let s0 := if l = 0 then s.wipe (accKey n (2048 * set)) (accKey n (2048 * (set + 1))) else s
  let r := s0.readLine n (s.halfLine n line + l)
  (List.range 16).foldl (fun u lane =>
    if a16 ∧ lane % 2 = 1 then u
    else
      let xs := u.laneInputs n (entry + e * l) e lane a16
      (List.range 32).foldl (fun v w =>
        let k := accKey n (2048 * set + (16 * w + lane) * 4)
        v.wrNum k 4 (burstStep (v.num k 4) f.wfmt (r.1.getD w 0) f.satScale sub a16 sh xs)) u) r.2

/-- What the first cycle of a drain takes: the channel scales of its 32 rows, and which lanes are live (R149, R183). -/
def State.drainLatch (s : State) (n layer row0 carriage sweep : Nat) : (List Nat × List Bool) × State :=
  let a16 := s.a16 layer
  let cs := s.channelScales (n / 144) (s.weightHalf n) layer row0 32 (s.flag (HEAD_FMT_ACTIVE.stab.ix layer))
  ((cs.1, (List.range 16).map fun l =>
    if a16 then l % 2 == 0 && s.slotLive carriage (8 * sweep + l / 2) else s.slotLive carriage l), cs.2)

/-- One cycle of a drain: rows 2j and 2j + 1 of the set as it stands, through the vector port (R181 to R183). -/
def State.drainRows (s : State) (n set out : Nat) (latch : List Nat × List Bool) (j : Nat) : State :=
  let off := 2048 * set + 128 * j
  let r := s.readCoded n (accKey n off) off 128
  let bs := (List.range 2).flatMap fun w => (List.range 16).flatMap fun l =>
    leBytes 4 (if latch.2.getD l false then mul32 (leNat ((r.1.drop ((16 * w + l) * 4)).take 4)) (latch.1.getD (2 * j + w) 0) else 0)
  r.2.writePort n .vector (out + 128 * j) bs

/-- The operation is a row group of a tile into a set. -/
def ArrayOp.fills (n set : Nat) : ArrayOp → Bool
  | .group m x _ _ _ _ _ => m == n && x == set
  | .drain .. => false

/-- CORE cycles that an operation still takes. -/
def ArrayOp.left : ArrayOp → Nat
  | .group _ _ _ lines _ _ d => lines - d
  | .drain _ _ _ _ _ _ _ _ d => 16 - d

/-- One CORE cycle of a drain; it begins in the cycle after the last line of the row group of its set among `older` (R181). -/
def State.drainCycle (s : State) (older : List ArrayOp) (o : ArrayOp) : State × ArrayOp :=
  match o with
  | .group .. => (s, o)
  | .drain n set out layer row0 car sweep latch d =>
    if latch.isNone ∧ older.any (ArrayOp.fills n set) then (s, o)
    else
      let x := match latch with | some l => (l, s) | none => s.drainLatch n layer row0 car sweep
      (x.2.drainRows n set out x.1 d, .drain n set out layer row0 car sweep (some x.1) (d + 1))

/-- One CORE cycle of a row group. -/
def State.groupCycle (s : State) (o : ArrayOp) : State × ArrayOp :=
  match o with
  | .group n set line lines layer entry d =>
    (s.groupLine n set line layer entry d, .group n set line lines layer entry (d + 1))
  | .drain .. => (s, o)

/-- One CORE cycle of every array: a drain's read of a set sees it as it stands at the start of the cycle. -/
def State.arrayCycle (s : State) : State :=
  let a := s.tile.arrays.foldl (fun (x : State × List ArrayOp) o =>
    let r := x.1.drainCycle x.2 o
    (r.1, x.2 ++ [r.2])) (s, [])
  let b := a.2.foldl (fun (x : State × List ArrayOp) o =>
    let r := x.1.groupCycle o
    (r.1, x.2 ++ [r.2])) (a.1, [])
  { b.1 with tile := { b.1.tile with arrays := b.2.filter fun o => o.left != 0 } }

/-- The arrays and the write slots run `n` CORE cycles, one after another. -/
def State.workCycles : Nat → State → State
  | 0, s => s
  | n + 1, s => State.workCycles n (s.arrayCycle.cycles 1)

/-- `n` CORE cycles pass at the tiles: past the end of what the arrays do, the write slots alone work. -/
def State.work (s : State) (n : Nat) : State :=
  let m := min n ((s.tile.arrays.map ArrayOp.left).sum)
  (State.workCycles m s).cycles (n - m)

/-! ### Time at the tiles -/

/-- Pushes and pops that were not legal at the end of their CORE cycle trap (R117). -/
def State.trapCircs (s : State) : State :=
  s.tile.trapsDue.foldl (fun t x => t.trap x.1 x.2.1 x.2.2.1 x.2.2.2 0 0) { s with tile := { s.tile with trapsDue := [] } }

/-- The waits of VC1 flits go into the hazard log of the tile whose router they wait at (R298, R377). -/
def State.logWaits (s : State) : State :=
  s.net.waited.foldl (fun t x => if x.1 < 9216 then t.hazard x.1 3 x.2.1 0 x.2.2 else t) { s with net := { s.net with waited := [] } }

/-- The tiles run the CORE cycles of the ticks that have passed. -/
def State.catchUp (s : State) : State := { s with tile := { s.tile with owed := 0 } }.work s.tile.owed

/-- Let `dt` axle ticks pass, with the CORE cycles of the tiles, the traps of the pushes and pops whose CORE cycle ends and the
work of the routers and of the transmitters of the couplings and of the control port. -/
def State.pass (s : State) (dt : Nat) : State := ((s.elapse dt).catchUp.trapCircs.route).logWaits.sendLinks.transmit

/-- The next CORE cycle of the present tick opens, or the `n`th from here. -/
def State.next (s : State) (n : Nat := 1) : State :=
  let s1 := s.work n
  { s1 with tile := { s1.tile with sub := s.tile.sub + n } }

/-- The schedule clock reaches an offset: the CORE cycles up to it pass. -/
def State.atOffset (s : State) (off : Nat) : State :=
  let s1 := (s.next (off - s.clockCycle)).trapCircs
  { s1 with tile := { s1.tile with lateOff := off } }

/-! ### Pushes and pops (R114 to R117) -/

/-- A push or pop by the sequencer, engine or vector port, decided at the end of the open cycle; a disabled region traps
(R117, R118). The sequencer's have the engine port's priority (DESIGN CHOICE, log entry 45). -/
def State.portCirc (s : State) (n : Nat) (p : Port) (c k : Nat) (pop : Bool) : State :=
  if s.circ n c TILE_CIRC_CFG_n.enable = 0 then s.trap n (portCode p) 6 c 0 0
  else
    let o : CircOp := ⟨n, c, k, if p = .sequencer then 0 else portPrio p, portCode p, pop, none, false⟩
    { s with tile := { s.tile with circ := insertCirc o s.tile.circ } }

/-- A scheduled push or pop by the sequencer (R117). -/
def State.seqCirc (s : State) (n c k : Nat) (pop : Bool) : State := s.portCirc n .sequencer c k pop

/-- A cart or remote push or a cart pop, decided at the end of the open cycle, in which it is applied or begins to wait (R117).
`origin` is the cart channel it holds up; a remote one comes through the network port. -/
def State.remoteCirc (s : State) (n c k : Nat) (pop : Bool) (origin : Option (Nat × Nat)) : State :=
  let o : CircOp := ⟨n, c, k, if origin.isSome then 3 else 2, if origin.isSome then 2 else 3, pop, origin, true⟩
  { s with tile := { s.tile with circ := insertCirc o s.tile.circ } }

/-- Scratchpad offset of a ring access: slot i from the head, or from the tail, and a byte within the slot (R114). -/
def State.ringOffset (s : State) (n c : Nat) (tail : Bool) (i b : Nat) : Nat :=
  let ptr := if tail then s.circ n c TILE_CIRC_PTR_n.tail else s.circ n c TILE_CIRC_PTR_n.head
  64 * s.circ n c TILE_CIRC_CFG_n.base + (ptr + i) % s.circSlots n c * (64 * 2 ^ s.circ n c TILE_CIRC_CFG_n.slot) + b

/-- A ring read or write by a port: a disabled region traps (R118), the rest is an access at the offset of R114. -/
def State.ringRead (s : State) (n : Nat) (p : Port) (c : Nat) (tail : Bool) (i b len : Nat) : List Byte × State :=
  if s.circ n c TILE_CIRC_CFG_n.enable = 0 then (List.replicate len 0, s.trap n (portCode p) 6 c 0 0)
  else s.readPort n p (s.ringOffset n c tail i b) len
def State.ringWrite (s : State) (n : Nat) (p : Port) (c : Nat) (tail : Bool) (i b : Nat) (bs : List Byte) : State :=
  if s.circ n c TILE_CIRC_CFG_n.enable = 0 then s.trap n (portCode p) 6 c 0 0
  else s.writePort n p (s.ringOffset n c tail i b) bs

/-! ### Descriptors, fills and copies (R111 to R113, R310) -/

/-- The descriptor in 64 bytes (R310). -/
def parseDesc (b : List Byte) : Desc :=
  let f (lo n : Nat) : Nat := leNat ((b.drop lo).take n)
  ⟨f 0 1, f 1 1, f 2 1, f 3 1, f 4 2, f 6 2, f 8 1, f 16 8, f 24 8, f 32 4, f 36 4, f 40 4, f 44 4, f 48 8,
   f 9 7 == 0 && f 56 8 == 0 && f 1 1 / 128 == 0 && f 3 1 / 64 == 0⟩

/-- Change the list of running fills and copies. -/
def State.updFills (s : State) (f : List (Nat × Nat) → List (Nat × Nat)) : State := { s with tile := { s.tile with fills := f s.tile.fills } }

/-- Rows of a fill or copy: destination and source offsets. -/
def descRows (d : Desc) : List (Nat × Nat) :=
  (List.range d.rows).map fun i => (d.dstAddr + i * d.dstStride, d.srcAddr + i * d.srcStride)

/-- Trap kind of a fill or copy, and the offset it names: none when every span is well placed (R111). -/
def State.fillTrap (s : State) (n : Nat) (d : Desc) (copy : Bool) : Option (Nat × Nat) :=
  (descRows d).findSome? fun r =>
    let chk (a bit : Nat) : Option (Nat × Nat) :=
      if a % 64 ≠ 0 ∨ d.rowBytes % 64 ≠ 0 then some (7, a)
      else match s.regionTrap n 0 a d.rowBytes bit with
        | 0 => none
        | k => some (k, a)
    match chk r.1 localWrite with
    | some x => some x
    | none => if copy then chk r.2 localRead else none

/-- Run a fill (or a copy) of a descriptor for a channel (8: the sequencer); none when it traps. The rows are written through the
slots they win, a copy's in descending order when its destination lies above its source, from the source as if it had been read
whole first (R107, R112, R113). -/
def State.fillCopy (s : State) (n ch : Nat) (d : Desc) (copy : Bool) : Option State :=
  match s.fillTrap n d copy with
  | some _ => none
  | none =>
    let src := (descRows d).foldl (fun (a : List (List Byte) × State) r =>
      if copy then
        let x := a.2.readSpad n .fillCopy r.2 d.rowBytes
        (a.1 ++ [x.1], x.2)
      else (a.1 ++ [(List.range (d.rowBytes / 8)).flatMap fun _ => leBytes 8 d.fill], a.2)) ([], s)
    let rows := (List.zip (descRows d) src.1).flatMap fun x => cutRows x.1.1 x.2
    let t := (descRows d).foldl (fun t r => t.noteWrite n .fillCopy r.1 d.rowBytes) src.2
    some ((t.queueRows n 4 (ch + 1) false (if copy ∧ d.srcAddr < d.dstAddr then rows.reverse else rows)).updFills fun l => l ++ [(n, ch)])

/-! ### The tile program's operations -/

/-- A stochastic rounding mode for lane l of a vector operation of tile n on stream x (R154, R155). -/
def State.srMode (s : State) (n x l : Nat) : Mode :=
  if (s.get (TILE_SR_SEED.enable.tile n)).testBit x then
    .sr (draw (s.get (TILE_SR_SEED.seed.tile n)) x (s.get ((TILE_SR_CTR_n.ctr.tile n).off (8 * x))) l)
  else .rne

/-- A vector operation that draws from stream x has run. -/
def State.srNext (s : State) (n x : Nat) : State :=
  if (s.get (TILE_SR_SEED.enable.tile n)).testBit x then
    let f := (TILE_SR_CTR_n.ctr.tile n).off (8 * x)
    s.set f (s.get f + 1)
  else s

/-- Values of `w` bytes each. -/
def cells (w : Nat) : Nat → List Byte → List Nat
  | 0, _ => []
  | k + 1, bs => leNat (bs.take w) :: cells w k (bs.drop w)

/-- A packet leaves its source (R93: the order of one source, destination and channel is the order of the list). -/
def State.send (s : State) (p : Packet) : State := { s with net := { s.net with fly := s.net.fly ++ [p] } }

/-- A flit of a tree goes onto the link into a router's port. -/
def State.hop (s : State) (n port : Nat) (p : Packet) : State :=
  { s with net := { s.net with hops := s.net.hops ++ [(⟨n, port, p⟩ : Hop)] } }

/-- Tile n injects a packet: one of a tree at its own router (R306), any other toward its destination. -/
def State.inject (s : State) (n : Nat) (p : Packet) : State := if p.ty = 5 then s.hop n 4 p else s.send p

/-! ### Scheduled actions (R73, R365) -/

/-- Action number i of the list of the logical tile that tile n holds, in the schedule set in effect. -/
def State.action (s : State) (n i : Nat) : Option SchedAction :=
  match s.sched, s.logicalOf n with
  | some c, some key =>
    match c.lists.find? fun l => l.lc * 256 + l.lt == key with
    | none => none
    | some l => l.acts[i]?
  | _, _ => none

/-- The 16 B of an action. -/
def actionBytes (a : SchedAction) : List Byte :=
  leBytes 4 a.offset ++ [BitVec.ofNat 8 a.kind, BitVec.ofNat 8 a.chan] ++ leBytes 2 a.zero ++ leBytes 8 a.operand

/-- A CRC-32C register over more bytes (R417). -/
def crcMore (c : Nat) (bs : List Byte) : Nat := bs.foldl (fun c b => crcBits 0x82F63B78 8 (c ^^^ b.toNat)) c

/-- Actions that tile n has issued in the attempt. -/
def State.issuedBy (s : State) (n : Nat) : Nat := (Sparse.find s.tile.issued n).getD 0

/-- Action a of tile n is issued: the clock is at its offset, and the action enters the tile's checksum (R417). -/
def State.issued (s : State) (n : Nat) (a : SchedAction) : State :=
  let s1 := s.atOffset a.offset
  let sum := crcMore ((Sparse.find s1.tile.sums n).getD 0xFFFFFFFF) (actionBytes a)
  { s1 with tile := { s1.tile with sums := Sparse.put s1.tile.sums n sum, issued := Sparse.put s1.tile.issued n (s1.issuedBy n + 1) } }

/-- The schedule clock runs and reaches an offset in the present axle tick (R73). -/
def State.clockAtOffset (s : State) (off : Nat) : Bool := s.clockRuns && decide (s.clockCycle ≤ off ∧ off < s.clockEnd)

/-- The clock of tile n runs: its PLL has not lost lock (R493). -/
def State.tileClock (s : State) (n : Nat) : Bool := !s.boot.halted.contains (if n < 9216 then (3, n / 144) else (4, (n - 9216) / 32))

/-- The sequencer of tile n issues its action i of a kind: at exactly its offset, and each action of the list in its turn (R73, R74). -/
def State.issue (s : State) (n i kind : Nat) (f : State → SchedAction → State) : State :=
  match s.action n i with
  | none => s
  | some a =>
    if s.clockAtOffset a.offset ∧ i = s.issuedBy n ∧ a.kind = kind ∧ s.get (TILE_STATE.state.tile n) ≠ 0 ∧ s.tileClock n then f (s.issued n a) a else s

/-- R116, R365 kind 0x04: a scheduled push. -/
def execActionPush (dt n i : Nat) (s : State) : Res :=
  .next <| (s.pass dt).issue n i 4 fun t a => t.seqCirc n (a.chan % 16) a.operand false

/-- R116, R365 kind 0x05: a scheduled pop. -/
def execActionPop (dt n i : Nat) (s : State) : Res :=
  .next <| (s.pass dt).issue n i 5 fun t a => t.seqCirc n (a.chan % 16) a.operand true

/-- A fill or copy of the sequencer: the descriptor at the action's operand. -/
def State.seqFill (s : State) (n : Nat) (a : SchedAction) (copy : Bool) : State :=
  let r := s.readPort n .fillCopy a.operand 64
  let d := parseDesc r.1
  match r.2.fillTrap n d copy with
  | some (k, o) => r.2.trap n 4 k 0 0 o
  | none =>
    (r.2.fillCopy n 8 d copy).getD r.2

/-- R111, R365 kind 0x06. -/
def execActionFill (dt n i : Nat) (s : State) : Res :=
  .next <| (s.pass dt).issue n i 6 fun t a => t.seqFill n a false

/-- R111, R365 kind 0x07. -/
def execActionCopy (dt n i : Nat) (s : State) : Res :=
  .next <| (s.pass dt).issue n i 7 fun t a => t.seqFill n a true

/-- R378: a write of `clear` in TILE_HAZ_STATUS of tile n. -/
def State.clearHazards (s : State) (n : Nat) : State :=
  ((List.range 31).foldl (fun t e => t.setReg (tileBase n + TILE_HAZ_LOG_n.valid.key + 16 * e)
      (setBits (t.reg (tileBase n + TILE_HAZ_LOG_n.valid.key + 16 * e)) 63 1 0)) s).set (TILE_HAZ_STATUS.entries.tile n) 0

/-! ### Scrubbing (R125 to R130) -/

/-- Chunks of a full pass of a tile's scrub engine. -/
def State.scrubChunks (s : State) (n : Nat) : Nat :=
  if 9216 ≤ n then 2048 else if s.tableScrubber (n / 144) = some n then 65536 else if tileClass n = 0 then 10240 else 2048

/-- The S-tile that paces a tile (R99): while an image runs one that holds a logical tile, as the image's regions say, which a loss
changes at the boundary only; otherwise the device assigns a good one. -/
def State.pacer (s : State) (n : Nat) : Nat :=
  let all := (coachTiles (n / 144)).filter fun m => tileClass m == 2
  let held := all.filter fun m => (s.logicalOf m).isSome
  if s.running ∧ !held.isEmpty then
    held.getD (Config.imageRegion (s.get HEAD_IMAGE_GEN.generation) n % held.length) 0
  else
    let good := all.filter s.goodTile
    good.getD (Config.region n % max 1 good.length) 0

/-- Tiles paced with tile n. -/
def State.paced (s : State) (n : Nat) : List Nat :=
  if 9216 ≤ n then bayTiles ((n - 9216) / 32)
  else (coachTiles (n / 144)).filter fun m => s.goodTile m && s.pacer m == s.pacer n

/-- A field of the pacing unit's registers: TILE_SCRUB or BAY_SCRUB. -/
def State.scrubFld (s : State) (n : Nat) (t b : Fld) : Fld :=
  if 9216 ≤ n then b.bay ((n - 9216) / 32) else t.tile (s.pacer n)

/-- Scrub the coded words of a row of a bank: corrected words are written back through the scrub engine's slot; an uncorrectable
one is counted (R107, R125, R128). `bank` is what has the slot. -/
def State.scrubRow (s : State) (n bank key off : Nat) : State :=
  (s.flips.filter fun p => decide (key ≤ p.1 ∧ p.1 < key + 64)).foldl (fun t p =>
    let d := spadDecode p.2
    let o := off + (p.1 - key)
    if d.1 = 2 then t.spadUe n p.1 o .scrub
    else
      let t1 := if d.1 = 1 then t.eccCount n (bankOf o) o false true else t
      let w : Late := ⟨n, bank, p.1, 5, 0, none, none, xorBytes (t1.bytes p.1 8) d.2⟩
      { t1 with tile := { t1.tile with late := insertLate w t1.tile.late } }) s

/-- Scrub one roof word. -/
def State.scrubWord (s : State) (n key : Nat) : State :=
  match Sparse.find s.flips key with
  | none => s
  | some mask =>
    let r := s.readRoof key .scrub
    if (roofDecode mask).1 = 2 then r.2 else r.2.queueRoof n key r.1 5 0

/-- One chunk of tile n's scrub engine: a roof line, a row of each scratchpad bank, of each accumulator bank of a P-tile, and a
coach-table line at the scrubber (R127). Its scratchpad reads are noted for the hazard detector as the fill and copy path's, as
TILE_TRAP's codes name none for scrubbing (DESIGN CHOICE, log entry 48). -/
def State.scrubChunk (s : State) (n : Nat) : State :=
  let c := (Sparse.find s.tile.scrubAt n).getD 0
  let s1 := if tileClass n = 0 then (List.range 32).foldl (fun t w => t.scrubWord n (wordKey n (32 * (c % 10240) + w))) s else s
  let row (b : Nat) : Nat := b / 8 * 0x100000 + c % 2048 * 512 + b % 8 * 64
  let s2 := (List.range (spadBytes n / 0x20000)).foldl (fun t b =>
    (t.iff (s.flag HEAD_IMAGE_STATUS.debug) fun u => u.noteRead n .fillCopy (row b) 64).scrubRow n b (spadKey n (row b)) (row b)) s1
  let s3 := if 9216 ≤ n then (List.range 64).foldl (fun t b => t.scrubRow n (128 + b) (accKey n (row b)) (row b)) s2 else s2
  if n < 9216 ∧ s.tableScrubber (n / 144) = some n then
    (List.range 32).foldl (fun t w => t.scrubWord n (tableKey (n / 144) (64 * (32 * (c % 65536) + w)))) s3
  else s3

/-- The chunk is behind: the pass of the tile, and of all that its pacer paces, may be complete (R129, R130). -/
def State.scrubNext (s : State) (n : Nat) : State :=
  let c := (Sparse.find s.tile.scrubAt n).getD 0 + 1
  let all := s.paced n
  let unit := all.headD n
  let done (m : Nat) : Nat := (s.tile.scrubBay.find? fun x => x.1 == m).elim 0 (·.2)
  if c < s.scrubChunks n then { s with tile := { s.tile with scrubAt := Sparse.put s.tile.scrubAt n c } }
  else
    let bay := (n, done n + 1) :: s.tile.scrubBay.filter fun (x : Nat × Nat) => x.1 != n
    let s1 := { s with tile := { s.tile with scrubAt := Sparse.put s.tile.scrubAt n 0, scrubBay := bay } }
    let d1 (m : Nat) : Nat := (bay.find? fun x => x.1 == m).elim 0 (·.2)
    if all.all fun m => 1 ≤ d1 m then
      let start := (Sparse.find s.tile.scrubFrom unit).getD 0
      let secs := min 65535 ((s.ticks - start) / usTicks 1000000)
      let bay2 := bay.map fun (x : Nat × Nat) => if all.contains x.1 then (x.1, x.2 - 1) else x
      let s2 := { s1 with tile := { s1.tile with scrubFrom := Sparse.put s1.tile.scrubFrom unit s.ticks, scrubBay := bay2 } }
      (s2.inc (s.scrubFld n TILE_SCRUB_STATUS.passes BAY_SCRUB_STATUS.passes)).set
        (s.scrubFld n TILE_SCRUB_STATUS.last_pass BAY_SCRUB_STATUS.last_pass) secs
    else s1

/-- A chunk may run now: at the start of a spoke, at most one of a tile in it, and while an image runs in the spokes from Q up to B
(R86, R127). -/
def State.chunkTime (s : State) (n : Nat) : Bool :=
  Sparse.find s.tile.scrubSpoke n != some (s.spoke + 1)
    && (!s.running || (s.turn.q.isSome && s.boundary?.isNone && s.count % 8 == 0))

/-- R127: tile n's scrub engine runs a chunk, in the play while an image runs (R86); `ups` are bits that flipped before it. -/
def execScrubChunk (dt n : Nat) (ups : List Upset) (s : State) : Res :=
  let s := (s.pass dt).upset ups
  .next <|
    if n < 9984 ∧ s.get (TILE_STATE.state.tile n) ≠ 0 ∧ s.flag (s.scrubFld n TILE_SCRUB_CTRL.enable BAY_SCRUB_CTRL.enable) ∧ s.chunkTime n then
      let s1 := { s with tile := { s.tile with scrubSpoke := Sparse.put s.tile.scrubSpoke n (s.spoke + 1) } }
      (s1.scrubChunk n).scrubNext n
    else s

end Sys2Proof.Machine
end

