-- ==== Sys2Proof/Machine/Mesh.lean ====
section
/-! DEFINITION. Packets of the mesh and the ring: headers, discards, remote accesses at their targets, coupling windows,
barriers and multicast trees (R120, R121, R282 to R288, R293, R302 to R308, R338, R340, R341). Packet commands and link flit
commands are two views of the traffic (DESIGN CHOICE, log entry 21). -/

namespace Sys2Proof.Machine

/-! ### Packets that arrive (R93, R287) -/

/-- A response of a type to a request (R287). -/
def State.respondTo (s : State) (p : Packet) (ty len : Nat) (data : List Byte) : State :=
  s.send ⟨ty, p.vc, s.yxBit p.dst p.src, p.dst, p.src, p.chan, p.tag, len, p.space, p.offset, 0, data⟩

/-- Take a packet off the network when it is there and nothing that was sent before it from the same source to the same
destination on the same channel is (R93); a packet whose flits are in routers has not arrived. -/
def State.take (s : State) (p : Packet) : Option State :=
  match s.net.fly.find? fun q => q.src == p.src && q.dst == p.dst && q.vc == p.vc with
  | none => none
  | some q => if q = p ∧ !s.net.begun.contains p then some { s with net := { s.net with fly := s.net.fly.erase p } } else none

/-- A packet of type `ty` arrives: discarded when R287 says so, else handled by `f`. -/
def State.receive (s : State) (ty : Nat) (p : Packet) (f : State → State) : State :=
  match s.take p with
  | none => s
  | some t =>
    if badPacket p then t.discard ((epTile p.dst).getD (epMesh p.src p.dst)) p
    else if p.ty = ty then f t else s

/-! ### Couplings' side of the carts (R338) -/

/-- Coupling that the relay table names for a member (R338). -/
def State.relayOf (s : State) (m : Nat) : Option Nat :=
  match s.img.image with
  | none => none
  | some i => (i.relay.find? fun x => x.1 == m).map (·.2)

/-- Number under which a bay's transactions to its own device wait: contributions to its own destination tile (R344). -/
def ownLink : Nat := 24

/-- Couplings of a device tree at this device, and members of a collective. -/
def treeLinks (g : Group) (t : Nat) : List Nat := match g.trees.find? fun x => x.1 == t with | none => [] | some x => x.2
def collMembers (g : Group) (c : Nat) : List Nat := match g.colls.find? fun x => x.num == c with | none => [] | some x => x.members

/-- Send a transaction toward a member; without a relay entry it goes nowhere and is counted at bay b. -/
def State.sendTo (s : State) (b m : Nat) (t : Tx) : State :=
  match s.relayOf m with
  | some k => s.sendTx k t
  | none => s.inc (CPL_STATUS.discarded.cpl b)

/-- The transactions that a window of bay b makes of data at offset `off` (R338): the first component is false for a window
of kind 0x0. `push` is the region and slots − 1 of a `push_after`. -/
def State.window (s : State) (b off vc srcEp tag : Nat) (ack : Bool) (push : Option (Nat × Nat)) (data : List Byte) : Bool × State :=
  let w := off / 2 ^ 30 % 64
  let g (f : Fld) : Nat := s.get ((f.cpl b).off (8 * w))
  let o := g CPL_WINDOW_w.base * 64 + off % 2 ^ 30
  let flags := (if ack then 1 else 0) + (if push.isSome then 2 else 0)
  let pr := push.getD (0, 0)
  let tx (ty dm de space offs coll part : Nat) : Tx :=
    ⟨ty, vc, flags, s.member, dm, de, srcEp, space, pr.1, pr.2, 0, tag, data.length, offs, coll, part, 0, true, data⟩
  match g CPL_WINDOW_w.kind with
  | 1 => (true, s.sendTo b (g CPL_WINDOW_w.member) (tx 1 (g CPL_WINDOW_w.member) (g CPL_WINDOW_w.endpoint) (g CPL_WINDOW_w.space) o 0 0))
  | 2 =>
    let t := g CPL_WINDOW_w.number
    let ks := match s.group with
      | none => []
      | some gr => treeLinks gr t
    (true, ks.foldl (fun u k => u.sendTx k (tx 2 0xFF t (g CPL_WINDOW_w.space) o 0 0)) s)
  | 3 =>
    let c := g CPL_WINDOW_w.number
    let ms := match s.group with | none => [] | some gr => collMembers gr c
    (true, ms.foldl (fun u m =>
      let x := tx 7 m 0 0 (off % 2 ^ 30) c s.member
      if m = s.member then u.sendTx ownLink x else u.sendTo b m x) s)
  | _ => (false, s)

/-! ### Remote accesses at their target (R118 to R121, R312) -/

/-- Logical coach that a physical coach holds. -/
def State.logicalCoach (s : State) (c : Nat) : Option Nat := (s.img.place.find? fun p => decide (p.2 < 9216 ∧ p.2 / 144 = c)).map fun p => p.1 / 256

/-- An access to tower or coach-table space lies in a region of the image that allows it (R312, R368): `bit` 0 read, 1 write, 2 raw. -/
def State.spaceOk (s : State) (space place off len bit : Nat) : Bool :=
  match s.img.image with
  | none => false
  | some i => i.spaceRegs.any fun r => r.space == space && r.place == place && decide (r.perm / 2 ^ bit % 2 = 1) &&
      decide (64 * r.base ≤ off ∧ off + len ≤ 64 * r.limit)

/-- Coach tables of the coach of tile n. -/
def State.tablesOk (s : State) (n off len bit : Nat) : Bool :=
  match s.logicalCoach (n / 144) with
  | none => false
  | some lc => decide (n < 9216) && s.spaceOk 2 lc off len bit

/-- Tower t. -/
def State.towerOk (s : State) (t off len bit : Nat) : Bool := !s.towerShut t && s.spaceOk 3 t off len bit

/-- A trap of a remote access, recorded at the target; the targets of shadow-check copies do not fault the turn (R171, R373). -/
def State.remoteTrap (s : State) (n kind circ : Nat) (p : Packet) : State :=
  let shadow := match epTile p.src with | some m => tileClass m == 2 && p.vc == 3 | none => false
  s.trap n 3 kind circ p.space p.offset (!shadow)

/-- Write roof words from a key upward, outside the banks' write slots: a loader's or a repair's write. -/
def State.putRoof (s : State) (key : Nat) (ws : List Nat) : State :=
  (List.zip (List.range ws.length) ws).foldl (fun t x => t.writeRoof (key + 64 * x.1) (sideOf (key + 64 * x.1)) x.2) s

/-- Roof words of tile n's weight store, or of the tables of coach c, from an offset. -/
def State.putWords (s : State) (n off : Nat) (ws : List Nat) : State := s.putRoof (tileBase n + off) ws
def State.putTable (s : State) (c off : Nat) (ws : List Nat) : State := s.putRoof (tableKey c off) ws

/-- Put writes of roof words from a key upward into the open CORE cycle: by a port and cart channel + 1 of tile n (R102). -/
def State.queueWords (s : State) (n key port op : Nat) (ws : List Nat) : State :=
  (List.zip (List.range ws.length) ws).foldl (fun t x => t.queueRoof n (key + 64 * x.1) x.2 port op) s

/-- Read roof words from a key upward as payload bytes, for a cart or a remote request: R125's table has no row for such a reader,
and what it says of the engine's reads is taken for it (DESIGN CHOICE, log entry 35). -/
def State.getRoof (s : State) (key count : Nat) : List Byte × State :=
  (List.range count).foldl (fun (a : List Byte × State) j =>
    let r := a.2.readRoof (key + 64 * j)
    (a.1 ++ leBytes 68 r.1, r.2)) ([], s)
def State.getWords (s : State) (n off count : Nat) : List Byte × State := s.getRoof (tileBase n + off) count
def State.getTable (s : State) (n off count : Nat) : List Byte × State := s.getRoof (tableKey (n / 144) off) count

/-- Trap kind of an access to a tile's weight store: whole roof words at multiples of 64 (R102, R288), inside a declared region
(R118). -/
def State.storeTrap (s : State) (n off words bit : Nat) : Nat :=
  if off % 64 ≠ 0 then 7 else if tileClass n = 0 ∧ off + 64 * words ≤ wsBytes then s.regionTrap n 1 off (64 * words) bit else 1

/-- A write of payload bytes to tile n by the network, put into the open CORE cycle, or into the next one unless `same`; refused
where it traps or no region allows it (R118 to R121, R312). -/
def State.deliver (s : State) (n : Nat) (p : Packet) (same : Bool) : Bool × State :=
  let words := p.data.length / 68
  let s := if same then s else s.next.trapCircs
  match p.space with
  | 0 =>
    let k := s.portTrap n .network p.offset p.data.length remoteWrite
    if k ≠ 0 then (false, s.remoteTrap n k 0 p) else (true, s.queueWrite n .network p.offset p.data 0 true)
  | 1 =>
    let k := s.storeTrap n p.offset words remoteWrite
    if k ≠ 0 then (false, s.remoteTrap n k 0 p) else (true, s.queueWords n (tileBase n + p.offset) 2 0 (wordsOf p.data))
  | 2 =>
    if p.offset % 64 = 0 ∧ s.tablesOk n p.offset (64 * words) 1 then
      (true, s.queueWords n (tableKey (n / 144) p.offset) 2 0 (wordsOf p.data))
    else (false, s)
  | _ => (false, s)

/-- The issuer of a write asked for an acknowledgement (R313, R336): a cart channel's descriptor, or a transaction's `ack`. -/
def State.wantsAck (s : State) (p : Packet) : Bool :=
  match epTile p.src with
  | some m =>
    match Sparse.find s.net.carts (8 * m + p.chan) with
    | none => false
    | some c => match c.run with | none => false | some r => r.tag == p.tag && r.desc.flags % 2 == 1
  | none => match epUnit p.src with
    | some (b, 0x22) => s.net.proxies.any fun x => x.bay == b && x.tag == p.tag && x.tx.flags % 2 == 1
    | _ => false

/-- Answer a write: acknowledged when asked, or an error response (R121). -/
def State.answerWrite (s : State) (p : Packet) (ok : Bool) : State :=
  if !ok then s.respondTo p 4 0 [] else if s.wantsAck p then s.respondTo p 3 0 [] else s

/-- R120, R121, R287: a write packet reaches its destination. -/
def execMeshWrite (dt : Nat) (p : Packet) (same : Bool) (s : State) : Res :=
  .next <| (s.pass dt).receive 0 p fun t =>
    match epTile p.dst, epUnit p.dst with
    | some n, _ => let r := t.deliver n p same; r.2.answerWrite p r.1
    | none, some (b, 0x21) =>
      let ok := decide (p.space = 3) && t.towerOk b p.offset p.data.length 1
      ((t.iff ok fun u => u.wrBytes (towerBase b + p.offset) p.data)).answerWrite p ok
    | none, some (b, 0x22) =>
      let ack := t.wantsAck p
      let r := t.window b p.offset p.vc p.src p.tag ack none p.data
      if r.1 then r.2 else t.respondTo p 4 0 []
    | _, _ => t.respondTo p 4 0 []

/-- R120, R121, R287: a read request reaches its target. -/
def execMeshReadRequest (dt : Nat) (p : Packet) (s : State) : Res :=
  .next <| (s.pass dt).receive 1 p fun t =>
    match epTile p.dst, epUnit p.dst with
    | some n, _ =>
      match p.space with
      | 0 =>
        let k := t.portTrap n .network p.offset (64 * p.len) remoteRead
        if k ≠ 0 then (t.remoteTrap n k 0 p).respondTo p 4 0 []
        else
          let r := t.readSpad n .network p.offset (64 * p.len)
          r.2.respondTo p 2 p.len r.1
      | 1 =>
        let k := t.storeTrap n p.offset p.len remoteRead
        if k ≠ 0 then (t.remoteTrap n k 0 p).respondTo p 4 0 []
        else let r := t.getWords n p.offset p.len; r.2.respondTo p 2 p.len r.1
      | 2 =>
        if p.offset % 64 = 0 ∧ t.tablesOk n p.offset (64 * p.len) 0 then let r := t.getTable n p.offset p.len; r.2.respondTo p 2 p.len r.1
        else t.respondTo p 4 0 []
      | _ => t.respondTo p 4 0 []
    | none, some (b, 0x21) =>
      if p.space = 3 ∧ t.towerOk b p.offset (64 * p.len) 0 then t.respondTo p 2 p.len (t.bytes (towerBase b + p.offset) (64 * p.len))
      else t.respondTo p 4 0 []
    | _, _ => t.respondTo p 4 0 []

/-- R117, R118, R313: a circular push packet reaches its destination; at a coupling unit it crosses as a `push_after` (R336). -/
def execCircularPush (dt : Nat) (p : Packet) (s : State) : Res :=
  .next <| (s.pass dt).receive 6 p fun t =>
    match epTile p.dst, epUnit p.dst with
    | some n, _ =>
      if t.circ n p.circ TILE_CIRC_CFG_n.enable = 0 then (t.remoteTrap n 6 p.circ p).respondTo p 4 0 []
      else t.remoteCirc n p.circ p.len false none
    | none, some (b, 0x22) =>
      let r := t.window b p.offset p.vc p.src p.tag false (some (p.circ, p.len - 1)) []
      if r.1 then r.2 else t.respondTo p 4 0 []
    | _, _ => t.respondTo p 4 0 []

/-- R117: the first waiting push or pop of a region that has become legal is applied. -/
def execWaitingPushApplied (dt n c : Nat) (s : State) : Res :=
  let s := s.pass dt
  .next <|
    match s.tile.waits.find? fun w => w.tile == n && w.circ == c && (if w.pop then s.popLegal n c w.n else s.pushLegal n c w.n) with
    | none => s
    | some w =>
      let s1 := s.circApply n c w.n w.pop
      let s2 := { s1 with tile := { s1.tile with waits := s1.tile.waits.erase w } }
      match w.origin with
      | none => s2
      | some (m, ch) => s2.set ((TILE_CART_STATUS_n.state.tile m).off (32 * ch)) (if (Sparse.find s2.net.carts (8 * m + ch)).any (·.run.isSome) then 1 else 0)

/-! ### Barriers (R302 to R305, R340) -/

def Fld.bar (f : Fld) (n b : Nat) : Fld := (f.tile n).off (8 * b)

/-- A barrier flit toward a neighbour. -/
def State.barrierFlit (s : State) (n q ty b : Nat) : State :=
  match neighbour n q with
  | none => s
  | some m =>
    s.hop m ((q + 2) % 4) ⟨ty, 0, 0, endpoint n, b, 0, s.get (TILE_BARRIER_b.gen.bar n b), 0, 0, 0, 0, []⟩

/-- The release at a router: copied to the children, delivered to a member tile; `gen` flips and `arrived` clears (R303). -/
def State.release (s : State) (n b : Nat) : State :=
  let kids := s.get (TILE_BARRIER_b.children.bar n b)
  let s1 := (List.range 4).foldl (fun t q => if kids.testBit q then t.barrierFlit n q 8 b else t) s
  let s2 := (s1.set (TILE_BARRIER_b.gen.bar n b) (1 - s.get (TILE_BARRIER_b.gen.bar n b))).set (TILE_BARRIER_b.arrived.bar n b) 0
  if s.flag (TILE_BARRIER_b.member.bar n b) then (s2.set (TILE_BARRIER_b.waiting.bar n b) 0).inc (TILE_BARRIER_b.releases.bar n b) else s2

/-- Root tile of a barrier of the image. -/
def State.barrierRoot (s : State) (b : Nat) : Option Nat :=
  match s.img.image with
  | none => none
  | some i => match i.barriers.find? fun d => d.num == b with
    | none => none
    | some d => s.tileOf (d.lc * 256 + d.lt)

/-- This device's place in a group barrier's device tree. -/
def State.groupBarrier (s : State) (b : Nat) : Option GBar :=
  match s.group with | none => none | some g => g.bars.find? fun x => x.num == b

/-- A barrier transaction of type 0x05 or 0x06 (R337, R340). -/
def State.barrierTx (s : State) (k ty b : Nat) : State := 
  s.sendTx k ⟨ty, 0, 0, s.member, s.get (CPL_STATUS.peer_member.cpl k), 0, 0, 0, 0, 0, 0, b, 0, 0, 0, 0, 0, true, []⟩

/-- The top device releases a group barrier, or a release has come: the own mesh tree and the child devices (R340). -/
def State.groupRelease (s : State) (g : GBar) : State :=
  let s1 := { s with cpl := { s.cpl with ownDone := s.cpl.ownDone.filter (· != g.num),
                                         arrived := s.cpl.arrived.filter fun (x : Nat × Nat) => x.1 != g.num } }
  let s2 := g.children.foldl (fun t k => t.barrierTx k 6 g.num) s1
  match s2.barrierRoot g.num with
  | none => s2
  | some n => s2.release n g.num

/-- When the own tree is complete and every child device has arrived, the arrive goes up, or the top releases (R340). -/
def State.groupCheck (s : State) (g : GBar) : State :=
  if s.cpl.ownDone.contains g.num ∧ g.children.all fun k => s.cpl.arrived.contains (g.num, k) then
    match g.parent with
    | some k => s.barrierTx k 5 g.num
    | none => s.groupRelease g
  else s

/-- When a router has every arrival it waits for, it sends its own upward; at the root the barrier is complete (R303). -/
def State.barrierCheck (s : State) (n b : Nat) : State :=
  let need := s.get (TILE_BARRIER_b.children.bar n b) + 16 * s.get (TILE_BARRIER_b.member.bar n b)
  if s.get (TILE_BARRIER_b.arrived.bar n b) = need then
    if s.get (TILE_BARRIER_b.parent.bar n b) < 4 then s.barrierFlit n (s.get (TILE_BARRIER_b.parent.bar n b)) 7 b
    else match s.groupBarrier b with
      | none => s.release n b
      | some g => { s with cpl := { s.cpl with ownDone := s.cpl.ownDone ++ [b] } }.groupCheck g
  else s

/-- An arrival at router n: from a child port, or 4 from its own tile. -/
def State.arrived (s : State) (n b port : Nat) : State :=
  let a := s.get (TILE_BARRIER_b.arrived.bar n b)
  (s.set (TILE_BARRIER_b.arrived.bar n b) (setBits a port 1 1)).barrierCheck n b

/-- A member tile arrives (R303), or is in error while `waiting` is 1 (R305). -/
def State.barrierArrive (s : State) (n b : Nat) : State :=
  if !s.flag (TILE_BARRIER_b.valid.bar n b) || !s.flag (TILE_BARRIER_b.member.bar n b) then s
  else if s.flag (TILE_BARRIER_b.waiting.bar n b) then (s.inc (TILE_NET_ERR.barrier_errors.tile n)).raise 86 n b 0
  else (s.set (TILE_BARRIER_b.waiting.bar n b) 1).arrived n b 4

/-- R303, R365 kind 0x03. -/
def execActionBarrierArrive (dt n i : Nat) (s : State) : Res :=
  .next <| (s.pass dt).issue n i 3 fun t a => t.barrierArrive n (a.chan % 64)

/-- The first flit of a type and number on the link into a port of router n is taken off it. -/
def State.takeHop (s : State) (n port ty num : Nat) : Option (Packet × State) :=
  match s.net.hops.find? fun h => h.tile == n && h.port == port && h.pkt.ty == ty && h.pkt.dst == num with
  | none => none
  | some h => some (h.pkt, { s with net := { s.net with hops := s.net.hops.erase h } })

/-- R303: router n takes an arrive flit of the current generation from a child port; others wait. -/
def execBarrierArriveFlit (dt n port b : Nat) (s : State) : Res :=
  let s := s.pass dt
  .next <|
    match s.takeHop n port 7 b with
    | none => s
    | some (p, t) =>
      if s.flag (TILE_BARRIER_b.valid.bar n b) ∧ p.tag = s.get (TILE_BARRIER_b.gen.bar n b)
          ∧ (s.get (TILE_BARRIER_b.children.bar n b)).testBit port then t.arrived n b port else s

/-- R303: a release flit reaches router n from its parent. -/
def execBarrierReleaseFlit (dt n port b : Nat) (s : State) : Res :=
  let s := s.pass dt
  .next <|
    match s.takeHop n port 8 b with
    | none => s
    | some (_, t) =>
      if s.flag (TILE_BARRIER_b.valid.bar n b) ∧ s.get (TILE_BARRIER_b.parent.bar n b) = port then t.release n b else s

/-! ### Multicast (R306 to R308, R375) -/

/-- R306, R307: the packet of tree t on the link into a port of router n is copied to every branch, and written at the router's
own tile when the mask says so; a write that traps there is recorded and not reported. -/
def execMulticastWrite (dt n port t : Nat) (same : Bool) (s : State) : Res :=
  let s := s.pass dt
  .next <|
    match s.takeHop n port 5 t with
    | none => s
    | some (p, s1) =>
      let e (f : Fld) : Nat := s1.get ((f.tile n).off (8 * t))
      if badPacket p ∨ 256 ≤ t ∨ e TILE_MCAST_t.vc ≠ p.vc then s1.discard n p
      else if e TILE_MCAST_t.valid = 0 then s1
      else
        let s2 := (List.range 4).foldl (fun u q =>
          if (e TILE_MCAST_t.mask).testBit q then
            match neighbour n q with
            | none => u
            | some m => u.hop m ((q + 2) % 4) p
          else u) s1
        if (e TILE_MCAST_t.mask).testBit 4 then (s2.deliver n p same).2 else s2

/-- The unit of a coupling with a source coordinate is a fork of device tree t (R341). -/
def State.deviceFork (s : State) (n t : Nat) : Bool :=
  decide (9984 ≤ n ∧ n < 10176 ∧ n % 8 = 2) && match s.group with | none => false | some g => decide (2 ≤ (treeLinks g t).length)

/-- R308, R341: a fork of tree t at tile n, or at the bay of a coupling, holds a flit past `mcast_limit`, waiting for an output port. -/
def execMcastHold (dt n t port : Nat) (s : State) : Res :=
  let s := s.pass dt
  .next <|
    if s.deviceFork n t then
      let s1 := s.raise 87 n t port
      if s.turning then s1.raiseHold 0xA n else s1
    else if s.flag ((TILE_MCAST_t.valid.tile n).off (8 * t)) then
      let s1 := ((s.inc (TILE_NET_ERR.mcast_holds.tile n)).raise 87 n t port).hazard n 4 port 0 t
      if s.turning then s1.raiseHold 0xA n else s1
    else s

/-- R308, R375: a fork of tree t at tile n holds one flit for 65,536 CORE cycles: an image fault, acted on at once; the flits
of the image in routers are discarded. -/
def execNetStall (dt n t : Nat) (s : State) : Res :=
  let s := s.pass dt
  let m := s.get ((TILE_MCAST_t.mask.tile n).off (8 * t))
  .next <|
    if s.flag ((TILE_MCAST_t.valid.tile n).off (8 * t)) then
      let s1 := s.raise 8 n m t
      if s.running then (s1.imageFault 2).dropPackets else s1
    else s

end Sys2Proof.Machine
end

