-- ==== Sys2Proof/Machine/Carts.lean ====
section
/-! DEFINITION. Carts: the descriptor queues, malformed descriptors, moves, errors and completion (R309 to R315). -/

namespace Sys2Proof.Machine

/-- Field of cart channel ch of tile n. -/
def Fld.cart (f : Fld) (n ch : Nat) : Fld := (f.tile n).off (32 * ch)

/-- A cart channel. -/
def State.cart (s : State) (n ch : Nat) : Cart := (Sparse.find s.net.carts (8 * n + ch)).getD ⟨[], none, none, 0⟩

/-- Store a channel; its queue length and outstanding reads show in TILE_CART_STATUS_n. -/
def State.setCart (s : State) (n ch : Nat) (c : Cart) : State :=
  let s1 := { s with net := { s.net with carts := Sparse.put s.net.carts (8 * n + ch) c } }
  (s1.set (TILE_CART_STATUS_n.queued.cart n ch) c.queue.length).set (TILE_CART_STATUS_n.reads_out.cart n ch)
    (match c.run with | none => 0 | some r => r.out.length)

/-- Place a descriptor in a channel's queue, or refuse it as an overrun (R309). -/
def State.cartIssue (s : State) (n ch off : Nat) : State :=
  let c := s.cart n ch
  if 4 ≤ c.queue.length then (s.inc (TILE_CART_STATUS_n.overruns.cart n ch)).raise 88 n ch 0
  else s.setCart n ch { c with queue := c.queue ++ [off] }

/-- R309, R365 kind 0x02. -/
def execActionCartIssue (dt n i : Nat) (s : State) : Res :=
  .next <| (s.pass dt).issue n i 2 fun t a => t.cartIssue n (a.chan % 8) a.operand

/-- Record an error at a channel and raise CART_ERROR; only the first is recorded until `valid` is cleared (R314). -/
def State.cartError (s : State) (n ch code tag ep off : Nat) (late : Bool) : State :=
  let f (x : Fld) : Fld := x.cart n ch
  let s1 := if s.flag (f TILE_CART_ERR_n.valid) then s
    else s.setReg (f TILE_CART_ERR_n.valid).key
      (2 ^ 63 + (if late then 2 ^ 62 else 0) + code * 2 ^ 60 + tag % 256 * 2 ^ 52 + ep % 2 ^ 15 * 2 ^ 37 + off % 2 ^ 36)
  s1.raise 89 n (s1.reg (f TILE_CART_ERR_n.valid).key) ch

/-- Writes of a cart channel, or of the sequencer's fills (channel 8), that have not committed. -/
def State.writing (s : State) (n ch : Nat) : Bool := s.tile.late.any fun w => w.tile == n && w.op == ch + 1

/-- A push of a cart channel has not been applied. -/
def State.pushing (s : State) (n ch : Nat) : Bool :=
  (s.tile.waits.any fun w => w.origin == some (n, ch)) || s.tile.circ.any fun o => o.origin == some (n, ch)

/-! ### The two sides of a move (R288, R312) -/

/-- Endpoint 0x8000, or the tile's own, is the issuing tile. -/
def isLocal (n ep : Nat) : Bool := ep == 0x8000 || ep == endpoint n

/-- A malformed descriptor of tile n (R311); a space code that R286 does not give is a reserved value (DEDUCED, log entry 24). -/
def State.malformed (s : State) (n : Nat) (d : Desc) : Bool :=
  let vc := d.flags / 16 % 4
  let multi := d.flags / 64 % 2 == 1
  let ss := d.spaces % 16
  let ds := d.spaces / 16
  let wide := !(isLocal n d.srcEp && isLocal n d.dstEp && !multi) || ss != 0 || ds != 0
  !d.resvZero || decide (5 ≤ d.op) || vc == 0 || decide (4 ≤ ss ∨ 4 ≤ ds) ||
  (d.op == 0 && !(isLocal n d.srcEp) && (multi || !(isLocal n d.dstEp))) ||
  (multi && (d.op != 0 || s.get ((TILE_MCAST_t.vc.tile n).off (8 * (d.dstEp % 256))) != vc)) ||
  decide (d.rowBytes % (if wide then 64 else 8) ≠ 0) || decide (d.rowBytes = 0 ∨ 0x100000 < d.rowBytes) ||
  ((d.op == 1 || d.op == 2) && !(isLocal n d.srcEp && isLocal n d.dstEp && ss == 0 && ds == 0))

/-- Bytes of a record of a scratchpad side: 72 beside a roof space, else 64 for each 64 B of the row (R312). -/
def recOf (other : Nat) : Nat := if roofSpace other then 72 else 64

/-- Bytes of a row as a side of a space carries it, the other side being in `other`. -/
def sideBytes (rowBytes sp other : Nat) : Nat :=
  if roofSpace sp then rowBytes / 64 * 68 else if sp = 0 then rowBytes / 64 * recOf other + rowBytes % 64 else rowBytes

/-- Turn bytes as one side carries them into bytes as the other does: a 72 B record holds a word's 68 B and 4 B that are zero;
beside a tower a word is its main part, and the side part that such a move stores is a free value (DESIGN CHOICE, log entry 4). -/
def State.convert (s : State) (bs : List Byte) (from_ to_ : Nat) : List Byte × State :=
  let fr := granBytes from_
  if roofSpace from_ ∧ roofSpace to_ ∨ !roofSpace from_ ∧ !roofSpace to_ then (bs, s)
  else if roofSpace from_ then
    ((List.range (bs.length / fr)).flatMap fun j =>
      if to_ = 0 then (bs.drop (68 * j)).take 68 ++ [0, 0, 0, 0] else (bs.drop (68 * j)).take 64, s)
  else if from_ = 0 then ((List.range (bs.length / 72)).flatMap fun j => (bs.drop (72 * j)).take 68, s)
  else
    (List.range (bs.length / 64)).foldl (fun (a : List Byte × State) j =>
      let r := a.2.takeBytes 4
      (a.1 ++ (bs.drop (64 * j)).take 64 ++ r.1, r.2)) ([], s)

/-- Record an error of the running descriptor. -/
def State.runError (s : State) (n ch code tag ep off : Nat) : State :=
  let c := s.cart n ch
  match c.run with
  | none => s.cartError n ch code tag ep off true
  | some r =>
    if r.tag = tag then (s.setCart n ch { c with run := some { r with failed := true } }).cartError n ch code tag ep off false
    else s.cartError n ch code tag ep off true

/-- Read `len` bytes (as the side carries them) of a local span through the cart port: zeros and an error when the access
traps (R314) or the coach tables' regions do not allow it (R312). -/
def State.cartRead (s : State) (n ch tag sp off len : Nat) : List Byte × State :=
  let words := len / 68
  match sp with
  | 0 =>
    let k := s.portTrap n .cart off len localRead
    if k = 0 then s.readSpad n .cart off len
    else (List.replicate len 0, (s.trap n 2 k 0 0 off).runError n ch 3 tag (endpoint n) off)
  | 1 =>
    let k := s.storeTrap n off words localRead
    if k = 0 then s.getWords n off words
    else (List.replicate len 0, (s.trap n 2 k 0 1 off).runError n ch 3 tag (endpoint n) off)
  | 2 =>
    if off % 64 = 0 ∧ s.tablesOk n off (64 * words) 0 then s.getTable n off words
    else (List.replicate len 0, s.runError n ch 1 tag (endpoint n) off)
  | _ => (List.replicate len 0, (s.trap n 2 1 0 3 off).runError n ch 3 tag (endpoint n) off)

/-- Write bytes to a local span through the cart port's slots (R102, R107). -/
def State.cartWrite (s : State) (n ch tag sp off : Nat) (bs : List Byte) : State :=
  let words := bs.length / 68
  match sp with
  | 0 =>
    let k := s.portTrap n .cart off bs.length localWrite
    if k = 0 then s.queueWrite n .cart off bs (ch + 1)
    else (s.trap n 2 k 0 0 off).runError n ch 3 tag (endpoint n) off
  | 1 =>
    let k := s.storeTrap n off words localWrite
    if k = 0 then s.queueWords n (tileBase n + off) 3 (ch + 1) (wordsOf bs) else (s.trap n 2 k 0 1 off).runError n ch 3 tag (endpoint n) off
  | 2 =>
    if off % 64 = 0 ∧ s.tablesOk n off (64 * words) 1 then s.queueWords n (tableKey (n / 144) off) 3 (ch + 1) (wordsOf bs)
    else s.runError n ch 1 tag (endpoint n) off
  | _ => (s.trap n 2 1 0 3 off).runError n ch 3 tag (endpoint n) off

/-- Cut a row's bytes into packets of at most 16 granules of a space: place in the row and length. -/
def cutPackets (len sp : Nat) : List (Nat × Nat) :=
  let g := 16 * granBytes sp
  (List.range (ceilDiv len g)).map fun j => (j * g, min g (len - j * g))

/-- Offset of a place in a row at a side of a space. -/
def placeAt (sp base pos : Nat) : Nat := if roofSpace sp then base + 64 * (pos / 68) else base + pos

/-- Granules that bytes of a space fill. -/
def granules (sp len : Nat) : Nat := ceilDiv len (granBytes sp)

/-- Cart channels inject nothing: the hold state is being entered or holds (R483). -/
def State.cooling (s : State) : Bool := decide (2 ≤ s.get THM_STATUS.state)

/-- Send read requests while fewer than 8 are outstanding (R312); a channel on VC1 or VC2 sends nothing while the schedule
clock is frozen (R315). -/
def State.cartFeed (s : State) (n ch : Nat) : State :=
  let c := s.cart n ch
  match c.run with
  | none => s
  | some r =>
    let vc := r.desc.flags / 16 % 4
    if s.cooling ∨ vc < 3 ∧ s.inTurn ∧ s.inForce s.spoke then s
    else
      let k := 8 - r.out.length
      let now := r.todo.take k
      let sp := r.desc.spaces % 16
      let s1 := now.foldl (fun t q => t.send ⟨1, vc, t.yxBit (endpoint n) r.desc.srcEp, endpoint n, r.desc.srcEp, ch, r.tag,
        granules sp q.n, sp, q.off, 0, []⟩) s
      s1.setCart n ch { c with run := some { r with out := r.out ++ now, todo := r.todo.drop k } }

/-- Every channel that runs a VC1 or VC2 descriptor is paused by a freeze (R315). -/
def State.pauseCarts (s : State) : State :=
  s.net.carts.foldl (fun t p =>
    let f := TILE_CART_STATUS_n.state.cart (p.1 / 8) (p.1 % 8)
    t.iff (t.get f == 1 && (match p.2.run with | none => false | some r => decide (r.desc.flags / 16 % 4 < 3))) fun u => u.set f 3) s

/-- Every channel that a freeze kept from sending goes on (R315). -/
def State.resumeCarts (s : State) : State :=
  s.net.carts.foldl (fun t p =>
    let n := p.1 / 8
    let ch := p.1 % 8
    (t.iff (t.get (TILE_CART_STATUS_n.state.cart n ch) == 3) fun u =>
      u.set (TILE_CART_STATUS_n.state.cart n ch) (if p.2.run.isSome then 1 else 0)).cartFeed n ch) s

/-- Rows of a move, as (row, source offset, destination offset). -/
def moveRows (d : Desc) : List (Nat × Nat × Nat) :=
  (List.range d.rows).map fun i => (i, d.srcAddr + i * d.srcStride, d.dstAddr + i * d.dstStride)

/-- A move whose data goes to another tile or unit, or into a tree: read and sent row by row (R312). -/
def State.moveOut (s : State) (n ch tag : Nat) (d : Desc) : Nat × State :=
  let ss := d.spaces % 16
  let ds := d.spaces / 16
  let vc := d.flags / 16 % 4
  let multi := d.flags / 64 % 2 == 1
  (moveRows d).foldl (fun (a : Nat × State) r =>
    let x := a.2.cartRead n ch tag ss r.2.1 (sideBytes d.rowBytes ss ds)
    let y := x.2.convert x.1 ss ds
    (cutPackets y.1.length ds).foldl (fun (b : Nat × State) q =>
      let data := (y.1.drop q.1).take q.2
      let p : Packet := ⟨if multi then 5 else 0, vc, b.2.yxBit (endpoint n) d.dstEp, endpoint n, d.dstEp, ch, tag,
        granules ds data.length, ds, placeAt ds r.2.2 q.1, 0, data⟩
      (b.1 + 1, b.2.inject n p)) (a.1, y.2)) (0, s)

/-- A move within the issuing tile. -/
def State.moveLocal (s : State) (n ch tag : Nat) (d : Desc) : State :=
  let ss := d.spaces % 16
  let ds := d.spaces / 16
  (moveRows d).foldl (fun t r =>
    let x := t.cartRead n ch tag ss r.2.1 (sideBytes d.rowBytes ss ds)
    let y := x.2.convert x.1 ss ds
    y.2.cartWrite n ch tag ds r.2.2 y.1) s

/-- Requests of a move whose source is elsewhere. -/
def moveReads (d : Desc) : List ReadReq :=
  let ss := d.spaces % 16
  let len := sideBytes d.rowBytes ss (d.spaces / 16)
  (moveRows d).flatMap fun r => (cutPackets len ss).map fun q => ⟨placeAt ss r.2.1 q.1, r.1, q.1, q.2⟩

/-- The bytes of a row that have come are written once the row is whole (R312). -/
def State.landRow (s : State) (n ch row : Nat) : State :=
  let c := s.cart n ch
  match c.run with
  | none => s
  | some r =>
    let d := r.desc
    let ss := d.spaces % 16
    let ds := d.spaces / 16
    let len := sideBytes d.rowBytes ss ds
    let mine := r.got.filter fun g => g.1 == row
    if (mine.map fun g => g.2.2.length).sum < len then s
    else
      let bs := (cutPackets len ss).flatMap fun q => match mine.find? fun g => g.2.1 == q.1 with | none => [] | some g => g.2.2
      let s1 := s.setCart n ch { c with run := some { r with got := r.got.filter fun g => g.1 != row } }
      let y := s1.convert bs ss ds
      y.2.cartWrite n ch r.tag ds (d.dstAddr + row * d.dstStride) y.1

/-- A read request of the running descriptor is answered with bytes. -/
def State.readAnswered (s : State) (n ch tag off : Nat) (data : Option (List Byte)) : State :=
  let c := s.cart n ch
  match c.run with
  | none => s
  | some r =>
    match r.out.find? fun q => q.off == off && r.tag == tag with
    | none => s
    | some q =>
      let bs := match data with | none => List.replicate q.n 0 | some d => d.take q.n
      let r1 := { r with out := r.out.erase q, got := r.got ++ [(q.row, q.pos, bs)] }
      ((s.setCart n ch { c with run := some r1 }).landRow n ch q.row).cartFeed n ch

/-- A write of the running descriptor is answered. -/
def State.writeAnswered (s : State) (n ch tag : Nat) : State :=
  let c := s.cart n ch
  match c.run with
  | none => s
  | some r => if r.tag = tag then s.setCart n ch { c with run := some { r with acks := r.acks - 1 } } else s

/-! ### Descriptors (R309 to R315) -/

/-- Push slots to the tile that a descriptor pushes to (R313). -/
def State.cartPush (s : State) (n ch tag ep addr : Nat) (d : Desc) : State :=
  let region := d.push % 16
  let slots := d.push / 16 + 1
  let vc := d.flags / 16 % 4
  if isLocal n ep then
    if s.circ n region TILE_CIRC_CFG_n.enable = 0 then (s.trap n 2 6 region 0 0).runError n ch 3 tag (endpoint n) 0
    else s.remoteCirc n region slots false (some (n, ch))
  else s.send ⟨6, vc, s.yxBit (endpoint n) ep, endpoint n, ep, ch, tag, slots, 0, addr, region, []⟩

/-- Run a well-formed descriptor that has become the channel's running one. `free` tells whether a buffer of its class is free
for a VC1 injection (R372). -/
def State.runDesc (s : State) (n ch tag : Nat) (d : Desc) (free : Bool) : State :=
  let s0 := s.iff (!free && d.flags / 16 % 4 == 1 && s.turning && !(d.op == 1 || d.op == 2)) fun t => t.creditOverflow n t.tile.lateOff
  let upd (t : State) (f : CartRun → CartRun) : State :=
    let c := t.cart n ch
    t.setCart n ch { c with run := c.run.map f }
  match d.op with
  | 0 =>
    if d.flags / 64 % 2 = 1 then (s0.moveOut n ch tag d).2
    else if isLocal n d.srcEp ∧ isLocal n d.dstEp then s0.moveLocal n ch tag d
    else if isLocal n d.srcEp then
      let r := s0.moveOut n ch tag d
      upd r.2 fun x => { x with acks := if d.flags % 2 = 1 then r.1 else 0 }
    else (upd s0 fun x => { x with todo := moveReads d }).cartFeed n ch
  | 3 => s0.cartPush n ch tag d.dstEp d.dstAddr d
  | 4 => s0.barrierArrive n (d.barrier % 64)
  | op =>
    match s0.fillTrap n d (op == 2) with
    | some (k, o) => (s0.trap n 4 k 0 0 o).runError n ch 3 tag (endpoint n) o
    | none => (s0.fillCopy n ch d (op == 2)).getD s0

/-- R309, R311, R312, R315: an idle channel starts its next chained or queued descriptor. One that waits for a barrier, or for the
end of a freeze, stays where it is. -/
def execCartDescriptorStart (dt n ch : Nat) (free : Bool) (s : State) : Res :=
  let s := s.pass dt
  let c := s.cart n ch
  let next := match c.chain with | some o => some o | none => c.queue.head?
  .next <|
    match c.run, next with
    | none, some off =>
      if s.get (TILE_STATE.state.tile n) = 0 ∨ 8 ≤ ch ∨ s.pushing n ch then s
      else
        let r := s.readPort n .cart off 64
        let d := parseDesc r.1
        let st (v : Nat) : State := r.2.set (TILE_CART_STATUS_n.state.cart n ch) v
        if d.flags / 4 % 2 = 1 ∧ s.flag (TILE_BARRIER_b.waiting.bar n (d.barrier % 64)) then st 2
        else if s.cooling ∨ d.flags / 16 % 4 < 3 ∧ s.inTurn ∧ s.inForce s.spoke then st 3
        else
          let tag := c.started % 256
          let trapped := s.portTrap n .cart off 64 localRead ≠ 0
          let run : CartRun := ⟨d, off, tag, [], [], 0, [], false⟩
          let c1 : Cart := ⟨if c.chain.isSome then c.queue else c.queue.drop 1, none, some run, c.started + 1⟩
          let s1 := ((st 1).setCart n ch c1).set (TILE_CART_STATUS_n.last_tag.cart n ch) tag
          let s2 := s1.iff trapped fun t => t.runError n ch 3 tag (endpoint n) off
          if s.malformed n d then s2.runError n ch 2 tag d.dstEp d.dstAddr else s2.runDesc n ch tag d free
    | _, _ => s

/-- The packets of a descriptor have left (R313). -/
def State.allLeft (s : State) (n ch tag : Nat) : Bool :=
  (s.net.fly.filter fun p => p.src == endpoint n && p.chan == ch && p.tag == tag && (p.ty == 0 || p.ty == 1 || p.ty == 6)).all s.hasLeft

/-- The completion condition of R313. -/
def State.cartDone (s : State) (n ch : Nat) (r : CartRun) : Bool :=
  s.allLeft n ch r.tag && r.out.isEmpty && r.todo.isEmpty && r.got.isEmpty && r.acks == 0 && !s.tile.fills.contains (n, ch) && !s.writing n ch && !s.pushing n ch

/-- R313, R314: the running descriptor meets its completion condition: `done`, then `push_after`, and the chain goes on unless
the descriptor erred. -/
def execCartDescriptorComplete (dt n ch : Nat) (s : State) : Res :=
  let s := s.pass dt
  let c := s.cart n ch
  .next <|
    match c.run with
    | none => s
    | some r =>
      if s.cartDone n ch r then
        let d := r.desc
        let chain := if d.flags / 8 % 2 = 1 ∧ !r.failed then some (r.at_ + 64) else none
        let s1 := ((s.setCart n ch { c with run := none, chain := chain }).inc (TILE_CART_STATUS_n.done.cart n ch)).set
          (TILE_CART_STATUS_n.state.cart n ch) 0
        if d.flags / 2 % 2 = 1 ∧ d.op = 0 ∧ d.flags / 64 % 2 = 0 ∧ !s.malformed n d then s1.cartPush n ch r.tag d.dstEp d.dstAddr d else s1
      else s

/-- R112: the last row of a fill or copy of tile n has committed (channel 8: the sequencer's), and its completion is reported. -/
def execFillCopyComplete (dt n ch : Nat) (s : State) : Res :=
  let s := s.pass dt
  .next <| if s.writing n ch then s else s.updFills fun l => l.erase (n, ch)

/-! ### Responses (R287, R313, R314) -/

/-- A response for a coupling's bay: the transaction it answers, once its last packet is answered. -/
def State.proxied (s : State) (b tag : Nat) (ty status : Nat) : State :=
  match s.net.proxies.find? fun x => x.bay == b && x.tag == tag with
  | none => s
  | some x =>
    let back : Tx := ⟨ty, x.tx.vc, 0, s.member, x.tx.srcMember, x.tx.srcEp, x.tx.dstEp, x.tx.space, 0, 0, 0, x.tx.tag, 0, x.tx.offset, 0, 0, status, true, []⟩
    let rest := s.net.proxies.erase x
    if ty = 4 then { s with net := { s.net with proxies := rest } }.sendTo b x.tx.srcMember back
    else if x.left ≤ 1 then
      { s with net := { s.net with proxies := rest } }.iff (x.tx.flags % 2 == 1) fun t => t.sendTo b x.tx.srcMember back
    else { s with net := { s.net with proxies := ⟨b, tag, x.left - 1, x.tx⟩ :: rest } }

/-- R287: a read response delivers its granules to the requesting channel. -/
def execMeshReadResponse (dt : Nat) (p : Packet) (s : State) : Res :=
  .next <| (s.pass dt).receive 2 p fun t =>
    match epTile p.dst with
    | none => t
    | some n => t.readAnswered n p.chan p.tag p.offset (some p.data)

/-- R313: a write acknowledgement returns to the issuing channel, or to a bay for a transaction. -/
def execMeshWriteAck (dt : Nat) (p : Packet) (s : State) : Res :=
  .next <| (s.pass dt).receive 3 p fun t =>
    match epTile p.dst, epUnit p.dst with
    | some n, _ => t.writeAnswered n p.chan p.tag
    | none, some (b, _) => t.proxied b p.tag 3 0
    | _, _ => t

/-- R314: an error response sets TILE_CART_ERR_n with code 0x1; a read so answered delivers zeros. -/
def execMeshErrorResponse (dt : Nat) (p : Packet) (s : State) : Res :=
  .next <| (s.pass dt).receive 4 p fun t =>
    match epTile p.dst, epUnit p.dst with
    | some n, _ =>
      let t1 := t.runError n p.chan 1 p.tag p.src p.offset
      match (t.cart n p.chan).run with
      | none => t1
      | some r =>
        if r.tag ≠ p.tag then t1
        else if r.out.any fun q => q.off == p.offset then t1.readAnswered n p.chan p.tag p.offset none
        else t1.writeAnswered n p.chan p.tag
    | none, some (b, _) => t.proxied b p.tag 4 0
    | _, _ => t

end Sys2Proof.Machine
end

