-- ==== Sys2Proof/Machine/Links.lean ====
section
/-! DEFINITION. Mesh links: the flit check and retry, pattern tests, degraded and stopped directions, hitch substitutions
(R28 to R32, R285, R289 to R292, R415). Round trips are at most one axle tick, the model's resolution (DESIGN CHOICE, log entry 1). -/

namespace Sys2Proof.Machine

/-- Count in a field of TILE_LINK_STATUS_p of a router, which a ring stop does not have. -/
def State.incLink (s : State) (node port : Nat) (f : Fld) : State := if node < 9216 then s.inc (f.lnk node port) else s

/-- R285, R289, R290, R294: a flit arrives at the far end of the link into a port of router n (from 9216 on: of a ring stop), or from
the router's own network port (port 4). It is the one sent first of those under way; `flips` are the wires whose bits changed. The
receiver accepts it, or discards it and will send a nack. -/
def execFlitReceive (dt n port sent flips : Nat) (s : State) : Res :=
  let s := s.pass dt
  let l := s.meshLink n port
  .next <|
    if port = 4 then (if plainFlit sent = sent then s.sendLocal n sent else s)
    else match l.wire, linkEnd n port with
    | f :: rest, some (m, q) =>
      if f ≠ sent ∨ l.testing ∨ s.portHeld n port then s
      else
        let got := (sent ^^^ flips) % 2 ^ 1024
        let l1 := { l with wire := rest, kept := s.keptFlits l }
        if flitCrc got ≠ bits got 0 16 then (s.incLink n port TILE_LINK_STATUS_p.check_fails).setMeshLink n port { l1 with nacking := true }
        else
          let s1 := if got.testBit 31 then (s.setMeshLink n port l1).resendFrom m q (bits got 24 3) else s.setMeshLink n port l1
          if !sequenced got then s1
          else if bits got 28 3 ≠ l.expect then s1.setMeshLink n port { l1 with nacking := true }
          else
            let again := if l.named = l.expect then 0 else l.resent
            let s2 := s1.setMeshLink n port { l1 with nacking := false, nackAt := 0, expect := (l.expect + 1) % 8, resent := again }
            let r := s2.meshLink m q
            let c := bits got 25 2 * 4 + bits got 23 2
            let s3 := if !got.testBit 31 ∧ got.testBit 27 then
                s2.setMeshLink m q { r with used := Sparse.put r.used c ((Sparse.find r.used c).getD 0 - 1) } else s2
            if bits got 18 2 = 0 then s3 else if bits got 18 2 = 3 then s3.oweCredit n port (vcClass got) else s3.enter n port (plainFlit got) none
    | _, _ => s

/-- R290, R291: the nack of the link into a port of router n reaches its transmitter. -/
def execLinkNack (dt n port : Nat) (s : State) : Res :=
  let s := s.pass dt
  let l := s.meshLink n port
  .next <| if l.nacking then s.resendFrom n port l.expect else s

/-! ### Hitch ports (R26 to R32, R413) -/

/-- Number of a hitch edge port of a coach: north edge first, clockwise (R413). -/
def edgePort (n q : Nat) : Nat :=
  let u := n % 144 % 12
  let v := n % 144 / 12
  match q with | 0 => u | 1 => 12 + v | 2 => 24 + (11 - u) | _ => 36 + (11 - v)

/-- Field of TILE_HITCH_STATUS for a port. -/
def hitchState (n q : Nat) : Fld := if q % 2 = 1 then TILE_HITCH_STATUS.ew_state.tile n else TILE_HITCH_STATUS.ns_state.tile n
def hitchOut (n q : Nat) : Fld := if q % 2 = 1 then TILE_HITCH_STATUS.ew_out_spares.tile n else TILE_HITCH_STATUS.ns_out_spares.tile n
def hitchIn (n q : Nat) : Fld := if q % 2 = 1 then TILE_HITCH_STATUS.ew_in_spares.tile n else TILE_HITCH_STATUS.ns_in_spares.tile n

/-- Coaches of the image that are unreachable from each other (R295, R362): the one of a pair with fewer good hitch ports is
lost, ties to the higher number (R415). -/
def State.unreachable (s : State) : List Nat :=
  let cs := coachesOf s.img.place
  let good (c : Nat) : Nat := ((coachTiles c).filter fun n => (List.range 4).any fun q => isHitch (n, q) && !s.portFailed (n, q)).length
  ((cs.flatMap fun c => cs.map fun d => (c, d)).filter fun p => decide (p.1 < p.2) && !(s.reachable p.1 p.2)).map fun p =>
    if good p.1 < good p.2 then p.1 else p.2

/-- Both directions of a link stop at both ends (R30, R316). -/
def State.stopLink (s : State) (m q : Nat) : State :=
  let set2 (t : State) (n p : Nat) : State := (t.set (TILE_LINK_STATUS_p.out_state.lnk n p) 3).set (TILE_LINK_STATUS_p.in_state.lnk n p) 3
  match neighbour m q with
  | none => set2 s m q
  | some n => set2 (set2 s m q) n ((q + 2) % 4)

/-- A hitch port shows as failed at both ends (R31). -/
def State.markFailed (s : State) (m q : Nat) : State :=
  let s1 := match neighbour m q with
    | none => s
    | some n => s.set (hitchState n ((q + 2) % 4)) 3
  (s1.set (hitchState m q) 3).stopLink m q

/-- A port is failed: both ends of it, and its defect-map entry (R30). -/
def State.failPort (s : State) (m q : Nat) : State := (s.markFailed m q).addDefect (defectWord 4 (m / 144) (edgePort m q) 0)

/-- At a boundary the failures of the ports that stopped in the turn take effect (R30, R32). -/
def State.failStopped (s : State) : State :=
  s.net.failDue.foldl (fun t p => t.failPort p.1 p.2) { s with net := { s.net with failDue := [] } }

/-- At the rerun point, or at once outside a turn: the routes are derived again around the ports that stopped, and a coach that is
cut off is lost (R361, R415). -/
def State.applyStopped (s : State) : State :=
  if s.net.stopped.isEmpty then s
  else
    let s2 := { s with net := { s.net with stopped := [] } }
    match s2.img.image with
    | none => s2
    | some i =>
      let s3 := s2.loadRoutes i s2.img.place
      if s3.turning then s3.unreachable.eraseDups.foldl (fun t c => t.loseCoach c 1) s3 else s3

/-- Stop a hitch port, both directions: within a turn it is failed at the boundary, and between turns at once; while an image runs
the turn is voided (R30, R32, R415). -/
def State.stopPort (s : State) (m q : Nat) : State :=
  let s1 := s.stopLink m q
  let s2 := { s1 with net := { s1.net with stopped := s1.net.stopped ++ [(m, q)],
                                           degraded := s1.net.degraded.filter fun (d : Nat × Nat × List Nat) => !(d.1 == m && d.2.1 == q) } }
  let s3 := if s.turning ∧ s.turn.inserts.isEmpty then { s2 with net := { s2.net with failDue := s2.net.failDue ++ [(m, q)] } } else s2.failPort m q
  if s3.turning then s3.voidForLoss else s3.applyStopped

/-- A wire group of a port's outgoing direction has its spare in use, as its own entries or those of the other end's incoming
direction say (R27, R413). -/
def State.spareUsed (s : State) (m q g : Nat) : Bool :=
  s.rep.defects.any fun w => bits w 56 6 == 3 && bits w 0 7 == g &&
    ((bits w 48 8 == m / 144 && bits w 40 8 == edgePort m q && bits w 8 1 == 0) || match neighbour m q with
      | none => false
      | some n => bits w 48 8 == n / 144 && bits w 40 8 == edgePort n ((q + 2) % 4) && bits w 8 1 == 1)

/-- The substitutions of a HITCH_SUB insert, in a spoke in which the ports hold their traffic: every degraded hitch direction takes
the spares of its failing groups and leaves degraded mode, or its port fails (R28 to R30, R292). -/
def State.substitute (s0 : State) : State :=
  let ports := (s0.net.degraded.filter fun d => isHitch (d.1, d.2.1)).map fun d => (d.1, d.2.1)
  let s : State := { s0 with net := { s0.net with held := ports, heldSpoke := s0.spoke + 1 } }
  (s.net.degraded.filter fun d => isHitch (d.1, d.2.1)).foldl (fun t d =>
    let m := d.1
    let q := d.2.1
    if d.2.2.eraseDups.length < d.2.2.length ∨ d.2.2.any fun g => t.spareUsed m q g then t.stopPort m q
    else
      let t1 := d.2.2.foldl (fun u g =>
        let w := defectWord 3 (m / 144) (edgePort m q) g
        let u1 := ((u.addDefect w).raise 74 m w 0).inc (hitchOut m q)
        let u2 := u1.set (hitchState m q) 2
        match neighbour m q with
        | none => u2
        | some n => (u2.inc (hitchIn n ((q + 2) % 4))).set (hitchState n ((q + 2) % 4)) 2) t
      let t2 := (t1.set (TILE_LINK_STATUS_p.out_state.lnk m q) 1).set (TILE_LINK_STATUS_p.half.lnk m q) 0
      let t3 := match neighbour m q with
        | none => t2
        | some n => t2.set (TILE_LINK_STATUS_p.in_state.lnk n ((q + 2) % 4)) 1
      { t3 with net := { t3.net with degraded := t3.net.degraded.erase d } }) s

/-- Ask for the spoke in which this device substitutes wires; the request travels on the stall wave (R87). -/
def State.requestBatch (s : State) : State :=
  if s.turn.insertReq.contains none then s
  else { s with turn := { s.turn with insertReq := none :: s.turn.insertReq } }.sendWave true 8 s.spoke

/-- At a boundary, the tiles at both ends of a degraded in-coach direction become failing (R292). -/
def State.failDegraded (s : State) : State :=
  (s.net.degraded.filter fun d => !isHitch (d.1, d.2.1)).foldl (fun t d =>
    let t1 := { t with net := { t.net with degraded := t.net.degraded.erase d } }
    match neighbour d.1 d.2.1 with
    | none => t1.failTile d.1
    | some n => (t1.failTile d.1).failTile n) s

/-- R291: the pattern test of the link into a port of router n ends; `bad` gives the wire group of each failing wire. A link to or on
the ring resumes: no rule gives it wire groups, a degraded mode or a repair (DESIGN CHOICE, log entry 52). -/
def execPatternTestComplete (dt n port : Nat) (bad : List Nat) (s : State) : Res :=
  let s := s.pass dt
  let l := s.meshLink n port
  .next <|
    match linkEnd n port with
    | none => s
    | some (m, q) =>
      if !l.testing then s
      else
        let s1 := (s.incLink n port TILE_LINK_STATUS_p.tests).incLink m q TILE_LINK_STATUS_p.tests
        let kept := l.kept.map fun (k : Nat × Nat × Nat) => (k.1, k.2.1, s.ticks)
        let s2 := s1.setMeshLink n port { l with testing := false, resent := 0, kept := kept }
        let low := bad.all fun g => g < 64
        let high := bad.all fun g => 64 ≤ g
        if bad.isEmpty ∨ 9216 ≤ m ∨ 9216 ≤ n then s2
        else if low ∨ high then
          let half := if low then 2 else 1
          let s3 := ((s2.set (TILE_LINK_STATUS_p.out_state.lnk m q) 2).set (TILE_LINK_STATUS_p.half.lnk m q) half).set
            (TILE_LINK_STATUS_p.in_state.lnk n port) 2
          let s4 := { s3 with net := { s3.net with degraded := s3.net.degraded ++ [(m, q, bad)] } }
          let s5 := if isHitch (m, q) ∧ s4.inTurn ∧ s4.turn.q.isNone then s4.requestBatch else s4
          s5.raise 78 m q half
        else
          let s3 := (s2.set (TILE_LINK_STATUS_p.out_state.lnk m q) 3).set (TILE_LINK_STATUS_p.in_state.lnk n port) 3
          let s4 := (s3.raise 79 m q 0).raise 79 n port 1
          if isHitch (m, q) then s4.stopPort m q
          else (s4.voidMore.loseTile m 5).loseTile n 5

end Sys2Proof.Machine
end

