-- ==== Sys2Proof/Machine/Couplings.lean ====
section
/-! DEFINITION. The couplings: blocks, replay, lanes, failure, the stall wave, turn messages, transactions and collectives
(R317 to R347). Block commands and transaction commands are two views of the traffic (DESIGN CHOICE, log entry 21). -/

namespace Sys2Proof.Machine

/-- The image moves data over a coupling: a transfer whose gateway leg ends at its bay (R366). -/
def State.carries (s : State) (k : Nat) : Bool :=
  match s.img.image with
  | none => false
  | some i => (i.transfers ++ i.wideTransfers).any fun t => decide (t.flags / 4 % 2 = 1 ∧ t.dstC = 0x80 + k)

/-- A coupling fails (R331): 1 replay, 2 lock, 3 lane, 4 turn message. -/
def State.failCoupling (s : State) (k why : Nat) : State :=
  if s.get (CPL_STATUS.state.cpl k) = 3 then s
  else
    let s1 := (s.set (CPL_STATUS.state.cpl k) 3).raise 82 (coordBay k 2) why 0
    let s2 := (List.range 16).foldl (fun t c => t.withdrawHolds c fun h => h.via == some k) s1
    let s3 := if s.carries k then s2.mapReqs (fun r => r.phase == .slot) fun r => { r with live := false } else s2
    if s.flag (CPL_CONFIG.used.cpl k) then s3.leaveGroup 2 else s3

/-! ### Blocks (R320, R321, R325 to R327) -/

/-- A flit of this side is to be replayed by the peer: a retry of the incoming direction begins (R327). -/
def State.wantReplay (s : State) (k : Nat) : State :=
  if (s.link k).nacking then s
  else (s.updLink k fun c => { c with nacking := true }).inc (CPL_ERRORS.retries.cpl k)

/-- One flit of a block that decoded. -/
def State.flitIn (s : State) (k : Nat) (f : LinkFlit) : State :=
  if crc32c f.body ≠ f.check then (s.inc (CPL_ERRORS.check_fails.cpl k)).wantReplay k
  else if f.kind = 0 then s
  else if f.seq ≠ (s.link k).expect then s.wantReplay k
  else
    s.updLink k fun c =>
      let c1 := { c with expect := (c.expect + 1) % 256, nacking := false }
      if f.kind = 3 then c1
      else if f.last = 1 then
        { c1 with inbox := c1.inbox ++ [c1.part.filter (fun (x : LinkFlit) => x.vc == f.vc) ++ [f]],
                  part := c1.part.filter fun (x : LinkFlit) => x.vc != f.vc }
      else { c1 with part := c1.part ++ [f] }

/-- The spare of the incoming direction is free: it passed training and carries no lane (R322, R324). -/
def State.spareFree (s : State) (k : Nat) : Bool :=
  popcount 17 (s.get (CPL_LANES.good.cpl k)) == 17 && !s.flag (CPL_LANES.spare_used.cpl k) && !s.flag (CPL_LANES.mirroring.cpl k)

/-- A logical lane becomes weak (R324). -/
def State.weakLane (s : State) (k lane : Nat) : State :=
  if s.flag (CPL_LANES.spare_used.cpl k) then s.inc (CPL_LANES.weak_lanes.cpl k)
  else if s.spareFree k then
    ((s.setFlag (CPL_LANES.mirroring.cpl k) true).set (CPL_LANES.mirror.cpl k) lane).updLink k fun c =>
      { c with mirrorGood := 0, control := c.control ++ [(1, lane)] }
  else s

/-- Count corrected symbols of a block per logical lane; a lane that reaches 4,096 is weak (R324). -/
def State.countSymbols (s : State) (k : Nat) (l : List Nat) : State :=
  (List.zip (List.range l.length) l).foldl (fun t x =>
    let old := (Sparse.find (t.link k).symbols x.1).getD 0
    let t1 := (t.updLink k fun c => { c with symbols := Sparse.put c.symbols x.1 (old + x.2) }).inc (CPL_ERRORS.corrected.cpl k) x.2
    if old < 4096 ∧ 4096 ≤ old + x.2 then t1.weakLane k x.1 else t1) s

/-- A good block beside a mirrored lane; after 256 of them the switch is asked for (R324). -/
def State.mirrorBlock (s : State) (k : Nat) : State :=
  if s.flag (CPL_LANES.mirroring.cpl k) then
    let g := (s.link k).mirrorGood + 1
    s.updLink k fun c =>
      { c with mirrorGood := g, control := if g = 256 then c.control ++ [(2, s.get (CPL_LANES.mirror.cpl k))] else c.control }
  else s

/-! ### The stall wave (R332, R333) -/

/-- A stall-wave item arrives on coupling k: applied when its serial is 1 to 4 ahead, and relayed. A request for the insert of a
step change holds nothing; the step itself comes in the turn messages (R70, R87). -/
def State.waveIn (s : State) (k : Nat) (w : WaveItem) : State :=
  let last := (s.turn.waves.find? fun x => x.origin == w.origin && x.cause == w.cause).elim 0 (·.serial)
  let ahead := (w.serial + 8 - last) % 8
  if !s.turn.grouped ∨ w.origin = s.member ∨ ahead = 0 ∨ 4 < ahead then s
  else
    let sp := s.spoke - (s.spoke + 16 - w.spoke) % 16
    let waves := ⟨w.origin, w.cause, w.serial⟩ :: s.turn.waves.filter fun (x : WaveState) => !(x.origin == w.origin && x.cause == w.cause)
    let s1 := { s with turn := { s.turn with waves := waves } }
    let s2 :=
      if w.cause = 9 then s1
      else if w.cause = 8 then
        if w.raise ∧ s1.inTurn ∧ (s1.turn.q.all fun q => sp ≤ q) then { s1 with turn := { s1.turn with insertReq := s1.turn.insertReq ++ [some w.origin] } } else s1
      else if w.raise then
        let h : Hold := ⟨s1.turn.nextHold, w.cause, sp, none, some w.origin, 0, none⟩
        let t := { s1 with turn := { s1.turn with holds := s1.turn.holds ++ [h], nextHold := s1.turn.nextHold + 1 } }
        if sp + s.lead ≤ s.spoke then t.leaveGroup 3 else t
      else
        let hs := s1.turn.holds.map fun (h : Hold) =>
          if h.cause == w.cause && h.member == some w.origin && h.withdraw.isNone then { h with withdraw := some sp } else h
        { s1 with turn := { s1.turn with holds := hs } }
    if w.hops + 1 < s.get HEAD_TURN_CONFIG.diameter then
      (s2.used.filter (· != k)).foldl (fun t j => t.updLink j fun c => { c with waves := c.waves ++ [{ w with hops := w.hops + 1 }] }) s2
    else s2

/-- R333. -/
def execStallWaveItem (dt k : Nat) (w : WaveItem) (s : State) : Res :=
  let s := s.pass dt
  .next <| if s.up k ∧ s.running then s.waveIn k w else s

/-- The stall-wave item of a block header (R326). -/
def headerWave (h : Nat) : WaveItem := ⟨h.testBit 38, bits h 34 4, bits h 30 4, bits h 28 2, bits h 22 6, bits h 19 3⟩

/-- Apply a block header: acknowledgement, nack, credits and stall-wave item (R326, R327). -/
def State.headerIn (s : State) (k h : Nat) : State :=
  let ack := bits h 10 8
  let s1 := s.updLink k fun c =>
    let acked := c.kept.takeWhile fun f => f.seq != ack
    let kept := if c.kept.any fun f => f.seq == ack then c.kept.drop (acked.length + 1) else c.kept
    let vc := bits h 8 2
    let fresh := (bits h 2 6 + 64 - (Sparse.find c.credits vc).getD 0) % 64
    { c with kept := kept, credits := Sparse.put c.credits vc (bits h 2 6), avail := Sparse.put c.avail vc (c.room vc + fresh),
             nackAck := if h.testBit 18 then some ack else none }
  if h.testBit 39 ∧ s.running then s1.waveIn k (headerWave h) else s1

/-- R321, R326, R327: a block arrives on coupling k. -/
def execCouplingBlockReceive (dt k : Nat) (b : CplBlock) (s : State) : Res :=
  let s := s.pass dt
  .next <|
    if !s.up k then s
    else
      let n := (s.link k).blocks + 1
      let s0 := s.updLink k fun c => { c with blocks := n, symbols := if n % 2 ^ 20 = 0 then [] else c.symbols }
      if !b.decodes then
        let lost := (s0.link k).lost + 1
        let s1 := ((s0.updLink k fun c => { c with lost := lost, mirrorGood := 0 }).inc (CPL_ERRORS.uncorrectable.cpl k)).wantReplay k
        if 8 ≤ lost then s1.failCoupling k 2 else s1
      else
        let s1 := ((s0.updLink k fun c => { c with lost := 0 }).countSymbols k b.corrected).mirrorBlock k
        b.flits.foldl (fun t f => t.flitIn k f) (s1.headerIn k b.header)

/-- R327, R331: the nack that came in a header makes the transmitter replay every kept flit after `ack_seq`; a further nack with
the same `ack_seq` is ignored for 128 ns. A flit replayed 4 times without being accepted fails the coupling. -/
def execCouplingReplay (dt k : Nat) (s : State) : Res :=
  let s := s.pass dt
  let c := s.link k
  .next <|
    match c.nackAck with
    | none => s
    | some a =>
      if !s.up k ∨ (c.replayAck = some a ∧ (s.ticks - c.replayTick) * 25 < 512) then s
      else
        let n := if c.replayAck = some a then c.replays + 1 else 1
        if 4 < n then s.failCoupling k 1
        else
          let from_ := if c.kept.any fun f => f.seq == a then (c.kept.dropWhile fun f => f.seq != a).drop 1 else c.kept
          s.setLink k { c with nackAck := none, replayAck := some a, replayTick := s.ticks, replays := n, replay := from_ }

/-! ### Training and lanes (R322 to R324) -/

/-- R323. -/
def execMemberNumberFlit (dt k m : Nat) (s : State) : Res :=
  let s := s.pass dt
  .next <| if s.up k then s.set (CPL_STATUS.peer_member.cpl k) m else s

/-- R324: the peer asks for lane i on the spare. -/
def execLaneMirrorRequest (dt k lane : Nat) (s : State) : Res :=
  let s := s.pass dt
  .next <| if s.up k then s.updLink k fun c => { c with outMirror := some lane } else s

/-- R324: the peer names the switch; the transmitter confirms block m + 64. -/
def execLaneSwitchRequest (dt k block : Nat) (s : State) : Res :=
  let s := s.pass dt
  .next <|
    if s.up k ∧ (s.link k).outMirror.isSome then s.updLink k fun c => { c with control := c.control ++ [(3, block + 64)] } else s

/-- Physical lane that carries a logical lane: the 16 lowest-numbered good lanes in ascending order (R322). -/
def physicalLane (good lane : Nat) : Nat := (((List.range 17).filter fun i => good.testBit i)[lane]?).getD 16

/-- R324: both ends take the logical lane from the spare. -/
def execLaneSwitch (dt k : Nat) (s : State) : Res :=
  let s := s.pass dt
  let lane := s.get (CPL_LANES.mirror.cpl k)
  .next <|
    if s.up k ∧ s.flag (CPL_LANES.mirroring.cpl k) ∧ 256 ≤ (s.link k).mirrorGood then
      (((s.setFlag (CPL_LANES.mirroring.cpl k) false).setFlag (CPL_LANES.spare_used.cpl k) true).set (CPL_LANES.spared_lane.cpl k) lane).raise
        80 (coordBay k 2) lane (physicalLane (s.get (CPL_LANES.good.cpl k)) lane)
    else s

/-- R324, R331: a logical lane loses signal. -/
def execLaneLosesSignal (dt k lane : Nat) (s : State) : Res :=
  let s := s.pass dt
  .next <|
    if !s.up k then s
    else if s.flag (CPL_LANES.spare_used.cpl k) then (s.weakLane k lane).failCoupling k 3
    else s.weakLane k lane

/-! ### Turn messages (R334) -/

/-- R334: a turn message arrives, is kept for its turn, and is relayed. -/
def execTurnMessage (dt k : Nat) (m : TurnMsg) (s : State) : Res :=
  let s := s.pass dt
  .next <|
    if !s.up k ∨ !s.turn.grouped ∨ m.member = s.member ∨ !s.running then s
    else
      let seen := (s.turn.msgs ++ s.turn.msgsNext).any fun x => x.member == m.member && x.turn == m.turn
      if seen then s
      else
        let s1 := if m.turn = s.turnNo then { s with turn := { s.turn with msgs := s.turn.msgs ++ [m] } }
          else if m.turn = s.turnNo + 1 then { s with turn := { s.turn with msgsNext := s.turn.msgsNext ++ [m] } } else s
        if m.hops + 1 < s.get HEAD_TURN_CONFIG.diameter then
          (s1.used.filter (· != k)).foldl (fun t j => t.updLink j fun c => { c with msgs := c.msgs ++ [{ m with hops := m.hops + 1 }] }) s1
        else s1

/-! ### Transactions (R336 to R342) -/

/-- The virtual channel is one that R337 allows the type. -/
def txAllowed (t : Tx) : Bool :=
  match t.ty with
  | 1 | 2 | 3 | 4 => decide (1 ≤ t.vc ∧ t.vc ≤ 3)
  | 5 | 6 | 8 | 9 | 10 => t.vc == 0
  | 7 => t.vc == 2
  | 11 => t.vc == 3
  | _ => false

/-- Discard a transaction at bay k. -/
def State.discardTx (s : State) (k : Nat) : State := s.inc (CPL_STATUS.discarded.cpl k)

/-- The flits of a transaction that arrived leave their receive buffer, and their credits go back (R326, R328). -/
def State.freeFlits (s : State) (k : Nat) (x : Tx) : State :=
  match (s.link k).inbox.find? fun l => (l.head?.map fun f => (f.vc, (f.body.drop 4).take 32)) == some (x.vc, txHeader x) with
  | none => s
  | some l => s.updLink k fun c => { c with inbox := c.inbox.erase l, freed := Sparse.put c.freed x.vc ((Sparse.find c.freed x.vc).getD 0 + l.length) }

/-- A transaction of type `ty` arrives on coupling k (`ownLink`: from this device itself): discarded under R337, relayed toward
its member, or handled by `f`. -/
def State.txIn (s : State) (k ty : Nat) (x : Tx) (f : State → State) : State :=
  let own := k == ownLink
  if own && !((s.link k).out.contains x) || !own && !s.up k then s
  else
    let s1 := if own then s.updLink k fun c => { c with out := c.out.erase x } else s.freeFlits k x
    if !txAllowed x ∨ !x.reservedZero ∨ 4 ≤ x.flags ∨ 16 ≤ x.push then s1.discardTx (k % 24)
    else if x.ty ≠ ty then s
    else if x.dstMember ≠ s.member ∧ x.ty ≠ 2 then
      if s.get HEAD_TURN_CONFIG.diameter ≤ x.hops then s1.discardTx (k % 24)
      else s1.sendTo k x.dstMember { x with hops := x.hops + 1 }
    else f s1

/-- The packets of at most 16 granules that carry a transaction's payload from bay k to an endpoint (R338). -/
def State.txPackets (s : State) (k ty dst tag : Nat) (x : Tx) : List Packet :=
  let g := if x.space = 1 ∨ x.space = 2 then 68 else 64
  (List.range (ceilDiv x.data.length (16 * g))).map fun j =>
    let d := (x.data.drop (16 * g * j)).take (16 * g)
    ⟨ty, x.vc, s.yxBit (bayEp k 0x22) dst, bayEp k 0x22, dst, 0, tag, ceilDiv d.length g, x.space, x.offset + 1024 * j, 0, d⟩

/-- R338: a remote write is delivered as mesh writes through its bay, with its push behind it, or relayed. -/
def execRemoteWrite (dt k : Nat) (x : Tx) (s : State) : Res :=
  .next <| (s.pass dt).txIn k 1 x fun t =>
    let tag := t.net.nextTag
    let ps := t.txPackets k 0 x.dstEp tag x
    let pr : Proxy := ⟨k, tag, ps.length, { x with data := [] }⟩
    let old := t.net.proxies.filter fun (q : Proxy) => !(q.bay == k && q.tag == tag)
    let t1 := { t with net := { t.net with nextTag := (tag + 1) % 256, proxies := if ps.isEmpty then old else pr :: old } }
    let t2 := ps.foldl (fun u p => u.send p) t1
    if x.flags / 2 % 2 = 1 then
      t2.send ⟨6, x.vc, t2.yxBit (bayEp k 0x22) x.dstEp, bayEp k 0x22, x.dstEp, 0, tag, x.push % 16 + 1, 0, x.offset, x.region, []⟩
    else t2

/-- R337, R341: a multicast write on the channel of its tree enters the mesh tree of its number and goes on along the device tree. -/
def execMulticastWriteTx (dt k : Nat) (x : Tx) (s : State) : Res :=
  .next <| (s.pass dt).txIn k 2 x fun t =>
    if t.img.image.any fun i => i.trees.any fun d => d.num == x.dstEp && d.vc != x.vc then t.discardTx (k % 24) else
    let t1 := match t.img.image with
      | none => t
      | some i =>
        match i.trees.find? fun d => d.num == x.dstEp with
        | none => t
        | some d => match t.tileOf (d.lc * 256 + d.lt) with
          | none => t
          | some n => (t.txPackets k 5 x.dstEp 0 x).foldl (fun u p => u.hop n 4 p) t
    match t.group with
    | none => t1
    | some g =>
      if t.get HEAD_TURN_CONFIG.diameter ≤ x.hops then t1
      else ((treeLinks g x.dstEp).filter (· != k)).foldl (fun u j => u.sendTx j { x with hops := x.hops + 1 }) t1

/-- Cart channel of tile n whose running descriptor has a tag; the last that started one, when none runs with it. -/
def State.channelOf (s : State) (n tag : Nat) : Nat :=
  match (List.range 8).find? fun ch => (s.cart n ch).run.any fun r => r.tag == tag with
  | some ch => ch
  | none => ((List.range 8).find? fun ch => s.get (TILE_CART_STATUS_n.last_tag.cart n ch) == tag && (s.cart n ch).started != 0).getD 0

/-- R338. -/
def execWriteAckTx (dt k : Nat) (x : Tx) (s : State) : Res :=
  .next <| (s.pass dt).txIn k 3 x fun t =>
    match epTile x.dstEp with | none => t | some n => t.writeAnswered n (t.channelOf n x.tag) x.tag

/-- R314, R338. -/
def execErrorResponseTx (dt k : Nat) (x : Tx) (s : State) : Res :=
  .next <| (s.pass dt).txIn k 4 x fun t =>
    match epTile x.dstEp with
    | none => t
    | some n =>
      let ch := t.channelOf n x.tag
      (t.runError n ch 1 x.tag x.srcEp x.offset).writeAnswered n ch x.tag

/-- R340: a child device's arrive. -/
def execBarrierArriveTx (dt k : Nat) (x : Tx) (s : State) : Res :=
  .next <| (s.pass dt).txIn k 5 x fun t =>
    match t.groupBarrier x.tag with
    | none => t
    | some g => { t with cpl := { t.cpl with arrived := t.cpl.arrived ++ [(x.tag, k)] } }.groupCheck g

/-- R340: the parent device's release. -/
def execBarrierReleaseTx (dt k : Nat) (x : Tx) (s : State) : Res :=
  .next <| (s.pass dt).txIn k 6 x fun t =>
    match t.groupBarrier x.tag with
    | none => t
    | some g => t.groupRelease g

/-! ### Collectives (R343 to R345) -/

/-- A collective and its destination tile. -/
def State.collective (s : State) (c : Nat) : Option (CollDecl × Nat) :=
  match s.group with
  | none => none
  | some g => match g.colls.find? fun x => x.num == c with
    | none => none
    | some d => (s.tileOf d.tile).map fun n => (d, n)

/-- Counts of a collective's instances. -/
def State.coll (s : State) (d : CollDecl) : Coll :=
  (s.cpl.colls.find? fun x => x.num == d.num).getD ⟨d.num, List.replicate d.members.length 0, List.replicate d.members.length 0, false⟩
def State.setColl (s : State) (c : Coll) : State :=
  { s with cpl := { s.cpl with colls := c :: s.cpl.colls.filter fun (x : Coll) => x.num != c.num } }

/-- Every part of the instance is complete. -/
def Coll.whole (c : Coll) (size : Nat) : Bool := c.got.all fun g => size ≤ g

/-- R343 to R345: a contribution is written at gather base + m × n_c and counted; bytes past n_c are not written. -/
def execCollectiveContribution (dt k : Nat) (x : Tx) (s : State) : Res :=
  .next <| (s.pass dt).txIn k 7 x fun t =>
    match t.collective x.coll with
    | none => t
    | some (d, n) =>
      let c := t.coll d
      let m := d.members.idxOf x.part
      let next := c.whole d.size
      let have_ := (if next then c.next else c.got).getD m 0
      let take := min x.data.length (d.size - have_)
      let p : Packet := ⟨0, 2, 0, bayEp (k % 24) 0x22, endpoint n, 0, 0, ceilDiv take 64, 0, d.gather + m * d.size + x.offset, 0, x.data.take take⟩
      let t1 := if m < d.members.length ∧ 0 < take then (t.deliver n p false).2 else t
      let t2 := t1.setColl (if next then { c with next := c.next.set m (have_ + take) } else { c with got := c.got.set m (have_ + take) })
      if take < x.data.length then
        (t2.inc (TILE_NET_ERR.coll_errors.tile n)).raise 89 n (t2.reg (tileBase n + TILE_CART_ERR_n.valid.key)) 0
      else t2

/-- The next instance becomes the present one. -/
def Coll.advance (c : Coll) : Coll := ⟨c.num, c.next, c.next.map fun _ => 0, false⟩

/-- R344: every part of collective c is complete: an all-gather pushes a slot, an all-reduce starts its reduce. -/
def execCollectiveComplete (dt c : Nat) (s : State) : Res :=
  let s := s.pass dt
  .next <|
    match s.collective c with
    | none => s
    | some (d, n) =>
      let x := s.coll d
      if !x.whole d.size ∨ x.reducing then s
      else if d.kind = 0 then (s.remoteCirc n d.region 1 false none).setColl x.advance
      else s.setColl { x with reducing := true }

/-- The reduced bytes of an all-reduce: the contributions are read at the memory, and each element is summed in member order (R344). -/
def State.reduced (s : State) (d : CollDecl) (n : Nat) : List Byte × State :=
  let r := (List.range d.members.length).foldl (fun (a : List (List Byte) × State) m =>
    let x := a.2.readSpad n .fillCopy (d.gather + m * d.size) d.size
    (a.1 ++ [x.1], x.2)) ([], s)
  ((List.range (d.size / 4)).flatMap fun e => leBytes 4 (reduceElem (r.1.map fun bs => leNat ((bs.drop (4 * e)).take 4))), r.2)

/-- R344: the reduce writes its results and pushes 1 slot. -/
def execReduceComplete (dt c : Nat) (s : State) : Res :=
  let s := s.pass dt
  .next <|
    match s.collective c with
    | none => s
    | some (d, n) =>
      let x := s.coll d
      if x.reducing then
        let r := s.reduced d n
        ((r.2.writeSpad n d.result r.1).remoteCirc n d.region 1 false none).setColl x.advance
      else s

/-! ### Section writes (R342) -/

/-- Write a section's bytes to the logical place it names. -/
def State.putSection (s : State) (x : Tx) : State :=
  match x.space with
  | 1 => match s.tileOf (x.part * 256 + x.dstEp) with | none => s | some n => s.putWords n x.offset (wordsOf x.data)
  | 2 =>
    match s.img.place.find? fun p => decide (p.1 / 256 = x.part ∧ p.2 < 9216) with
    | none => s
    | some p => s.putTable (p.2 / 144) x.offset (wordsOf x.data)
  | 3 => if s.towerShut x.part then s else s.wrBytes (towerBase x.part + x.offset) x.data
  | _ => s

end Sys2Proof.Machine
end

