-- ==== Sys2Proof/Machine/Kv.lean ====
section
/-! DEFINITION. KV pages: where they lie, the spill format and the prefetch (R152, R153, R211 to R213, R223 to R225, R232). -/

namespace Sys2Proof.Machine

/-- Pages of a group: number, KV tile, and bases of the pool and the staging area in the tile. -/
def State.pagesOf (s : State) (k : KvGroup) : List (Nat × Nat × Nat × Nat) :=
  (List.zip (List.range k.pages.length) k.pages).filterMap fun x => (s.tileOf x.2.tile).map fun n => (x.1, n, x.2.pool, x.2.staging)

/-- Spill a page of tile n at a scratchpad offset to a tower key: blocks of 32, and a draw per element in vector operations of 256
elements on stream 0 (R152 to R154, DEDUCED, log entry 30). -/
def State.spillPage (s : State) (n off dh dst : Nat) : State :=
  let r := s.readCoded n (spadKey n off) off (128 * dh)
  let cs := r.1.map (·.toNat)
  (List.range (dh / 2)).foldl (fun t v =>
    let blocks := (List.range 8).map fun b =>
      spillBlock ((cs.drop (256 * v + 32 * b)).take 32) ((List.range 32).map fun l => t.srMode n 0 (32 * b + l))
    let t1 := (List.range 2).foldl (fun u h => u.wrBytes (dst + 68 * (2 * v + h)) (leBytes 68 (packPB4 ((blocks.drop (4 * h)).take 4)))) t
    t1.srNext n 0) r.2

/-- A8 bytes of a page restored from its tower copy (R153). -/
def State.restored (s : State) (src dh : Nat) : List Byte :=
  (List.range dh).flatMap fun b =>
    let w := s.num (src + 68 * b) 68
    (List.range 4).flatMap fun j => (prefetchBlock (bits w (512 + 8 * j) 8) ((List.range 32).map fun i => bits w (128 * j + 4 * i) 4)).map fun c => BitVec.ofNat 8 c

/-- Spill a whole resident set to its tower slot. -/
def State.spillSet (s : State) (g : Nat) (k : KvSet) : State :=
  match s.kvGroups[g]? with
  | none => s
  | some kg => (s.pagesOf kg).foldl (fun t x =>
      t.spillPage x.2.1 (x.2.2.1 + k.res * 128 * s.headDim) s.headDim (towerPage kg s.headDim k.tow x.1)) s

/-- Restore a tower set into slot `slot` of the pool, or of the staging area, of its KV tiles. -/
def State.fetchSet (s : State) (g tow slot : Nat) (staging : Bool) : State :=
  match s.kvGroups[g]? with
  | none => s
  | some kg => (s.pagesOf kg).foldl (fun t x =>
      t.writeSpad x.2.1 ((if staging then x.2.2.2 else x.2.2.1) + slot * 128 * s.headDim) (t.restored (towerPage kg s.headDim tow x.1) s.headDim)) s

/-- Restore the first `len` positions of a tail node's tower set into a resident slot (R232): K and V rows of each position. -/
def State.fetchTail (s : State) (g tow slot len : Nat) : State :=
  match s.kvGroups[g]? with
  | none => s
  | some kg => (s.pagesOf kg).foldl (fun t x =>
      let dh := s.headDim
      let page := t.restored (towerPage kg dh tow x.1) dh
      let off := x.2.2.1 + slot * 128 * dh
      (t.writeSpad x.2.1 off (page.take (dh * len))).writeSpad x.2.1 (off + 64 * dh) ((page.drop (64 * dh)).take (dh * len))) s

/-- R224: the tower write of spilling set p of request `id` in group g completes. -/
def execSpillWriteComplete (dt id g p : Nat) (s : State) : Res :=
  let s := s.pass dt
  .next <|
    match if s.boxStopped then none else s.req? id with
    | none => s
    | some r =>
      match (r.sets.getD g []).find? fun k => k.p == p && k.state == 3 && !k.written with
      | none => s
      | some k =>
        let s1 := (s.spillSet g k).inc HEAD_KV_STATS.spills
        let mark (l : List KvSet) : List KvSet := l.map fun x => if x.p = p then { x with written := true } else x
        (s1.updReq id fun q => { q with sets := q.sets.set g (mark (q.sets.getD g [])) }).setServ fun v =>
            { v with spills := v.spills.filter (· != (id, g, p)) }

/-- Streamed sets of the selected tables of the live slots of the carriage that visits group g in turn t: slot, place among the
slot's streamed sets, tower slot (R225). -/
def State.streamed (s : State) (g t : Nat) : List (Nat × Nat × Nat) :=
  let c := carAt s.depth t g
  (s.serv.reqs.filter fun r => r.phase == .slot && r.live && r.carriage == c).flatMap fun r =>
    let ws := ((List.range (r.sets.getD g []).length).map fun p => s.tblWord g c r.slot p).filter fun w => w / 2 ^ 62 == 2
    (List.zip (List.range ws.length) ws).map fun x => (r.slot, x.1, bits x.2 24 24)

/-- R225: the KV tiles of group g fetch, `ahead` (1 or 2) turns before a carriage's visit, the streamed sets that its live slots'
tables gave two turns before it, into staging bank t mod 3. -/
def execKvPrefetch (dt g ahead : Nat) (s : State) : Res :=
  let s := s.pass dt
  let t := s.turnNo + ahead
  let c := carAt s.depth t g
  .next <|
    match s.kvGroups[g]? with
    | none => s
    | some kg =>
      if !s.inTurn ∨ s.boxStopped ∨ ahead = 0 ∨ 2 < ahead ∨ s.serv.staged.contains (g, c, t) then s
      else
        let due := match s.serv.fetchDue.find? fun x => x.1 == g && x.2.1 == t with | none => [] | some x => x.2.2
        let s1 := due.foldl (fun u x => u.fetchSet g x.2.2 (t % 3 * (16 * kg.staging) + x.1 * kg.staging + x.2.1) true) s
        s1.setServ fun v => { v with staged := v.staged ++ [(g, c, t)] }

end Sys2Proof.Machine
end

