-- ==== Sys2Proof/Machine/Admission.lean ====
section
/-! DEFINITION. Submits, cancels and admission: the records of channel 2, the checks, the reservation, the prefix tree and the
prefill queue (R228 to R234, R245 to R256, R266 to R270). -/

namespace Sys2Proof.Machine

/-! ### Records of channel 2 (R246, R248, R268) -/

/-- `n` bytes of a record from byte `lo`. -/
def recField (b : List Byte) (lo n : Nat) : Nat := leNat ((b.drop lo).take n)

/-- A record is taken from those that channel 2 has received (R392). -/
def State.takeRecord (s : State) (b : List Byte) : State := { s with port := { s.port with recs := s.port.recs.erase b } }

/-- A submit record is malformed (code 0x6). -/
def malformedSubmit (b : List Byte) : Bool :=
  let f := recField b 3 1
  recField b 2 1 != 1 || decide (8192 ≤ recField b 0 2) || f / 4 != 0 || f == 2 || recField b 11 1 != 0 || recField b 14 2 != 0 ||
  recField b 48 16 != 0 || recField b 4 4 == 0xFFFFFFFF || recField b 16 4 == 0 || recField b 20 4 == 0 ||
  decide (4096 ≤ recField b 8 2) || b.length != 64 + 4 * recField b 16 4

/-- Entries of a ring: queued ones and the active request. -/
def State.entries (s : State) (ring : Nat) : List Req := s.serv.reqs.filter fun r => r.ring == ring && (r.phase == .queued || r.holdsRing)

/-- First check made at submit that fails, in the order of R248; code 0x5 is the allocation's. -/
def State.submitRefusal (s : State) (b : List Byte) : Option Nat :=
  let ring := recField b 0 2
  let tenant := recField b 8 2
  if malformedSubmit b then some 6
  else if !s.leads then some 9
  else if 8 ≤ (s.entries ring).length then some 1
  else if !s.flag (HEAD_RING_CFG.enable.ix ring) then some 2
  else if s.flag (HEAD_RING_CFG.tenant_check.ix ring) ∧ s.get (HEAD_RING_CFG.tenant.ix ring) ≠ tenant then some 3
  else if !s.flag (HEAD_TENANT_CFG.enable.ix tenant) then some 4
  else none

/-- The request of a submit record. -/
def newReq (b : List Byte) (id entry count block : Nat) : Req :=
  let p := recField b 16 4
  { id := id, ring := recField b 0 2, tag := recField b 4 4, tenant := recField b 8 2, profile := recField b 10 1,
    adapter := recField b 12 2, promptLen := p, maxNew := recField b 20 4, seed := recField b 24 8, flags := recField b 3 1,
    stop := ((List.range 4).map fun i => recField b (32 + 4 * i) 4).filter (· != 0xFFFFFFFF),
    prompt := (List.range p).map fun i => recField b (64 + 4 * i) 4,
    phase := .queued, entry := entry, enqueued := count, promptBlock := block, genBlock := 0, admitted := 0, gen := [],
    handle := 0, copy := 0, half := 0, n := 0, pre := 0, charged := 0, entered := 0, waited := 0, carriage := 0, slot := 0,
    live := false, masked := false, deferred := false, sets := [], carry := [], epoch := 0, waitFrom := none, nodes := [],
    recovered := false, lost := false, dropped := false }

/-- R246, R248, R251, R252: a submit record is queued in its ring or refused. While the reserve is exhausted channel 2 accepts no
record (R250). A record whose op is a cancel's is none of this command's. -/
def execSubmit (dt : Nat) (b : List Byte) (s : State) : Res :=
  let s := s.pass dt
  .next <|
    if 16384 ≤ s.reserved ∨ recField b 2 1 = 2 then s
    else
      let s0 := s.takeRecord b
      let ring := recField b 0 2
      match s0.submitRefusal b with
      | some c => s0.refuse ring c (recField b 4 4)
      | none =>
        match s0.allocBlocks (ring % 24) (ceilDiv (recField b 16 4) 64) with
        | none => s0.refuse ring 5 (recField b 4 4)
        | some (block, s1) =>
          let used := (s1.entries ring).map (·.entry)
          let entry := ((List.range 8).find? fun e => !used.contains e).getD 0
          let r := newReq b s1.serv.nextId entry s1.count block
          let s2 := s1.setServ fun v => { v with reqs := v.reqs ++ [r], nextId := v.nextId + 1 }
          let s3 := s2.wrSlot r 0 (b.take 64 ++ [1, 0, 0, 0] ++ leBytes 4 block ++ leBytes 8 s1.count ++ leBytes 8 0 ++ leBytes 4 0 ++ leBytes 4 0)
          (s3.wrTokens r block 0 r.prompt).syncEligible

/-- A cancel record that R268 discards. -/
def badCancel (b : List Byte) : Bool :=
  b.length != 16 || recField b 3 1 != 0 || recField b 8 8 != 0 || decide (8192 ≤ recField b 0 2)

/-- A cancel reaches an entry: a queued one goes at once; any other one ends as R269 says. One for which the sampling unit has
found its end in the running turn keeps that end (R270). -/
def State.cancelReq (s : State) (r : Req) : State :=
  if r.phase = .queued then
    ((s.produce r.ring 2 4 r.tag 0 0 false).freeSlot r).forget r.id
  else if s.serv.pass.any fun x => x.req == r.id && x.code.isSome then s
  else (s.endReq r.id 4).setServ fun v => { v with pass := v.pass.filter fun (x : Pass) => x.req != r.id }

/-- R268 to R270: a cancel record. While the reserve is exhausted channel 2 accepts no record (R250). -/
def execCancel (dt : Nat) (b : List Byte) (s : State) : Res :=
  let s := s.pass dt
  .next <|
    if 16384 ≤ s.reserved ∨ recField b 2 1 ≠ 2 then s
    else
    let s := s.takeRecord b
    if badCancel b then s.inc CTL_PORT_ERRORS.bad_records
    else
      let tag := recField b 4 4
      let hit := s.serv.reqs.filter fun r => s.leads && r.ring == recField b 0 2 && (r.phase == .queued || r.active) && (tag == 0xFFFFFFFF || r.tag == tag)
      if hit.isEmpty then s.inc HEAD_SERVE_STATS.cancel_miss else hit.foldl (fun t r => t.cancelReq r) s

/-! ### The prefix tree (R228 to R234) -/

def mix64 (x : Nat) : Nat :=
  let a := (x ^^^ x / 2 ^ 33) * 0xFF51AFD7ED558CCD % 2 ^ 64
  let b := (a ^^^ a / 2 ^ 33) * 0xC4CEB9FE1A85EC53 % 2 ^ 64
  b ^^^ b / 2 ^ 33

/-- Hash of a block under the hash before it. -/
def blockHash (h : Nat) (toks : List Nat) : Nat :=
  (List.zip (List.range toks.length) toks).foldl (fun h x => mix64 (h ^^^ x.2 ^^^ x.1 * 2 ^ 32)) h

/-- Root hash of a request: its tenant's scope and its adapter binding. -/
def State.prefixRoot (s : State) (r : Req) : Nat :=
  let scope := if s.flag (HEAD_TENANT_CFG.private_prefix.ix r.tenant) then r.tenant + 1 else 0
  mix64 (mix64 scope ^^^ r.handle)

/-- Tokens of block k. -/
def blockOf (toks : List Nat) (k : Nat) : List Nat := (toks.drop (64 * k)).take 64

/-- What a lookup finds: matched full nodes in order, the blocks looked up, and the collisions. -/
structure Lookup where
  nodes : List Node
  (looked collisions hash : Nat)
  deriving DecidableEq, Repr

/-- Walk the full nodes from block k on, for at most `fuel` blocks (R230 steps 1 to 3). -/
def State.lookFull (s : State) (half : Nat) (toks : List Nat) : Nat → Nat → Lookup → Lookup
  | 0, _, l => l
  | fuel + 1, k, l =>
    let b := blockOf toks k
    let h := blockHash l.hash b
    let cand := s.serv.nodes.find? fun n => !n.tail && !n.flushed && n.hash == h && n.parent == l.nodes.getLast?.map (·.id) && n.half == half
    match cand with
    | none => { l with looked := l.looked + 1 }
    | some n =>
      if n.tokens = b then s.lookFull half toks fuel (k + 1) ⟨l.nodes ++ [n], l.looked + 1, l.collisions, h⟩
      else { l with looked := l.looked + 1, collisions := l.collisions + 1 }

/-- The longest tail child of the last matched node that the prompt continues with, past which a token lies (R230 step 4). -/
def State.lookTail (s : State) (half : Nat) (toks : List Nat) (l : Lookup) : Option Node :=
  let rest := toks.drop (64 * l.nodes.length)
  let cand := s.serv.nodes.filter fun n => n.tail && !n.flushed && n.half == half && n.parent == l.nodes.getLast?.map (·.id)
    && (!l.nodes.isEmpty || n.hash == l.hash) && decide (n.tokens.length < rest.length) && rest.take n.tokens.length == n.tokens
  cand.foldl (fun best n => match best with
    | none => some n
    | some b => if b.tokens.length < n.tokens.length then some n else best) none

/-- Mark nodes as matched now. -/
def State.touch (s : State) (ids : List Nat) (ref : Bool) : State :=
  s.setServ fun v => { v with
    matches_ := v.matches_ + 1,
    nodes := v.nodes.map fun n => if ids.contains n.id then { n with lastMatch := v.matches_ + 1, refs := if ref then n.refs + 1 else n.refs } else n }

/-- Shared sets of matched nodes, per group (R231). -/
def sharedSets (d : Nat) (ns : List Node) : List (List KvSet) :=
  (List.range d).map fun g => (List.zip (List.range ns.length) ns).map fun x => ⟨x.1, 2, 0, x.2.slots.getD g 0, some x.2.id, true⟩

/-- Give a sequence a new unshared set p in group g: a resident and a tower slot (R219). -/
def State.newSet (s : State) (id g p : Nat) : State :=
  match s.allocPool g with
  | none => s
  | some (res, s1) =>
    match s1.allocTow g with
    | none => s1
    | some (tow, s2) =>
      s2.updReq id fun r => { r with sets := (List.range (max r.sets.length (g + 1))).map fun j =>
        if j = g then (r.sets.getD j []) ++ [(⟨p, 1, res, tow, none, false⟩ : KvSet)] else r.sets.getD j [] }

/-- Put a request into the prefill queue: at its end, or, recovered, behind the prompt that is partly prefilled and the recovered
ones already there (R430). -/
def State.enqueue (s : State) (r : Req) : State :=
  let early (i : Nat) : Bool := match s.req? i with
    | none => false
    | some q => q.recovered || (decide (0 < q.pre) && q.pre % 64 == 0 && s.inRound i)
  s.setServ fun v =>
    if r.recovered then { v with queue := v.queue.takeWhile early ++ r.id :: v.queue.dropWhile early }
    else { v with queue := v.queue ++ [r.id] }

/-- Step 7 of R253: the prompt is queued for prefill, or is ready at the first boundary from now. -/
def State.queuePrompt (s : State) (id : Nat) : State :=
  match s.req? id with
  | none => s
  | some r =>
    if r.pre + 1 < r.tokens.length then
      (s.updReq id fun q => { q with phase := .prefill, entered := if q.recovered then 0 else s.count, waited := 0 }).enqueue r
    else (s.updReq id fun q => { q with phase := .ready, n := q.tokens.length - 1 }).setServ fun v => { v with direct := v.direct ++ [id] }

/-- Step 6 of R253 and what follows: the lookup, its references and sets, and the tail's new set. -/
def State.lookup (s : State) (id : Nat) : State :=
  match s.req? id with
  | none => s
  | some r =>
    let toks := r.tokens
    let d := s.depth
    if !s.flag HEAD_PREFIX_CTRL.enable then
      (s.updReq id fun q => { q with sets := List.replicate d [] }).queuePrompt id
    else
      let root := s.prefixRoot r
      let l := s.lookFull r.half toks ((toks.length - 1) / 64) 0 ⟨[], 0, 0, root⟩
      let tail := s.lookTail r.half toks l
      let s1 := ((s.inc HEAD_PREFIX_STATS.lookup_blocks l.looked).inc HEAD_PREFIX_STATS.hit_blocks l.nodes.length).inc
        HEAD_PREFIX_STATUS.collisions l.collisions
      let ids := l.nodes.map (·.id)
      let s2 := s1.touch ids true
      let s3 := s2.updReq id fun q => { q with nodes := ids, pre := 64 * ids.length, sets := sharedSets d l.nodes }
      match tail with
      | none => s3.queuePrompt id
      | some t =>
        let s4 := (List.range d).foldl (fun u g => u.newSet id g ids.length) (s3.touch [t.id] false)
        (s4.updReq id fun q => { q with phase := .tail, pre := 64 * ids.length + t.tokens.length }).setServ fun v =>
          { v with tails := v.tails ++ [(id, t.slots, t.tokens.length)] }

/-- R232: the copy of a matched tail node completes, and admission with it. In a split set or chain the decisions of a turn are fixed
once its message is made, and what follows is the next turn's (DESIGN CHOICE, log entry 62). -/
def execTailCopyComplete (dt id : Nat) (s : State) : Res :=
  let s := s.pass dt
  .next <|
    match s.req? id with
    | none => s
    | some r =>
      if r.phase ≠ .tail ∨ !s.leads ∨ s.decided then s
      else
        let s1 := match s.serv.tails.find? fun x => x.1 == id with
          | none => s
          | some (_, slots, len) => (List.range s.depth).foldl (fun t g =>
              match (r.sets.getD g []).find? fun (k : KvSet) => k.node.isNone with
              | none => t
              | some k => t.fetchTail g (slots.getD g 0) k.res len) s
        (s1.setServ fun v => { v with tails := v.tails.filter fun (x : Nat × List Nat × Nat) => x.1 != id }).queuePrompt id

/-! ### Admission (R253 to R255, R271, R273, R276, R278) -/

/-- Current copy of an adapter slot: 1 A, 2 B, 0 none. -/
def State.currentCopy (s : State) (a : Nat) : Nat :=
  if s.get (HEAD_ADAPTER_STATE.state_a.ix a) = 2 then 1 else if s.get (HEAD_ADAPTER_STATE.state_b.ix a) = 2 then 2 else 0

/-- Current model half. -/
def State.currentHalf (s : State) : Nat := if s.get HEAD_MODEL_STATE.state_b = 2 then 1 else 0

/-- The reservation of R227 can be made. -/
def State.reservable (s : State) (r : Req) : Bool :=
  (List.range s.kvGroups.length).all fun g =>
    match s.kvGroups[g]? with
    | none => true
    | some k => decide (r.resReserve s.cmax k.window ≤ s.poolFree g ∧ r.towReserve s.cmax ≤ s.towFree g)

/-- What admission does with an entry now: refused with a code, waits at a step, or is admitted. -/
inductive Verdict where
  | refuse (code : Nat)
  | wait (step : Nat)
  | admits
  deriving DecidableEq, Repr

/-- Steps 1 to 4 of R253; `blocked` tells that an earlier entry has waited in step 4 for `res_wait` turns (R254). -/
def State.verdict (s : State) (r : Req) (blocked : Bool) : Verdict :=
  if s.cmax < r.promptLen ∨ r.prompt.any (fun t => s.vocab ≤ t) then .refuse 7
  else if r.adapter ≠ 0xFFFF ∧ (s.get HEAD_SERVE_CONFIG.adapter_slots ≤ r.adapter ∨ s.currentCopy r.adapter = 0) then .refuse 8
  else if s.get (HEAD_TENANT_CFG.max_active.ix r.tenant) ≠ 0 ∧ s.activeOf r.tenant = s.get (HEAD_TENANT_CFG.max_active.ix r.tenant) then .wait 3
  else if blocked ∨ !s.reservable r ∨ (s.allocBlocks (r.ring % 24) (ceilDiv (genMax s.cmax r.promptLen r.maxNew) 64)).isNone then .wait 4
  else .admits

/-- An entry has waited in step 4 for `res_wait` turns. -/
def State.blocks (s : State) (id : Nat) : Bool :=
  match s.req? id with
  | none => false
  | some r => match r.waitFrom with | none => false | some t => decide (t + s.get HEAD_SERVE_CTRL.res_wait ≤ s.turnNo)

/-- Admit an entry: steps 2 and 4 to 7 of R253. -/
def State.admitReq (s : State) (r : Req) : State :=
  let c := if r.adapter = 0xFFFF then 0 else s.currentCopy r.adapter
  let gen := if c = 1 then s.get (HEAD_ADAPTER_STATE.gen_a.ix r.adapter) else s.get (HEAD_ADAPTER_STATE.gen_b.ix r.adapter)
  match s.allocBlocks (r.ring % 24) (ceilDiv (genMax s.cmax r.promptLen r.maxNew) 64) with
  | none => s
  | some (b, s1) =>
    let s2 := s1.updReq r.id fun q => { q with
      handle := if c = 0 then 0 else q.adapter * 65536 + gen, copy := c, genBlock := b, admitted := s.turnNo, phase := .prefill,
      half := s.currentHalf, waitFrom := none }
    let s3 := ((((s2.wrSlot r 64 [2]).wrSlot r 80 (leBytes 8 s.turnNo)).wrSlot r 88 (leBytes 4 r.gen.length)).wrSlot r 92 (leBytes 4 b)).wrTokens r b 0 r.gen
    ((s3.inc HEAD_SERVE_STATS.admitted).lookup r.id).syncEligible

/-- R253, R254: the head considers the oldest queued entry of a ring, once every entry eligible before it waits; for the next turn
once the decisions of this one are made. -/
def execAdmission (dt ring : Nat) (s : State) : Res :=
  let s := s.pass dt
  .next <|
    if !s.flag HEAD_SERVE_CTRL.admit_enable ∨ !s.running ∨ !s.leads ∨ s.decided ∨ s.serv.drain.isSome ∨ s.serv.reloading then s
    else
      match s.serv.eligible.findSome? fun i => match s.req? i with | some r => if r.ring = ring then some r else none | none => none with
      | none => s
      | some r =>
        let before := s.serv.eligible.takeWhile (· != r.id)
        let waits (i : Nat) : Bool := match s.req? i with
          | none => true
          | some q => match s.verdict q ((before.takeWhile (· != i)).any s.blocks) with | .wait _ => true | _ => false
        if !before.all waits then s
        else
          match s.verdict r (before.any s.blocks) with
          | .refuse c => ((s.refuse r.ring c r.tag).freeSlot r).forget r.id
          | .wait 4 => s.updReq r.id fun q => { q with waitFrom := some (q.waitFrom.getD s.turnNo) }
          | .wait _ => s
          | .admits => s.admitReq r

/-! ### Flush and insertion (R233, R234) -/

/-- A write of `flush`: every node goes, one that holds references once its count reaches 0. -/
def State.flushNodes (s : State) : State :=
  let dead := s.serv.nodes.filter fun n => n.refs == 0
  (s.setServ fun v => { v with
    nodes := (v.nodes.filter fun n => n.refs != 0).map (fun n => { n with flushed := true }),
    freed := v.freed ++ dead.flatMap fun n => (List.range n.slots.length).map fun g => (g, n.slots.getD g 0) }).syncNodes

/-- A node is evictable: count 0 and no children. -/
def State.evictable (s : State) (n : Node) : Bool := n.refs == 0 && !(s.serv.nodes.any fun c => c.parent == some n.id && !c.flushed)

/-- Least recently matched of a list of nodes. -/
def oldest (l : List Node) : Option Node :=
  l.foldl (fun a n => match a with | none => some n | some b => if n.lastMatch < b.lastMatch then some n else a) none

/-- Remove a node; its tower sets are freed at the next boundary. -/
def State.removeNode (s : State) (n : Node) : State :=
  (s.setServ fun v => { v with nodes := v.nodes.filter (fun (x : Node) => x.id != n.id), freed := v.freed ++ (List.range n.slots.length).map fun g => (g, n.slots.getD g 0) }).syncNodes

/-- Make room for a node: under the parent's limit of 4 tail children, and under the 131,072 nodes; none when it is skipped. -/
def State.roomFor (s : State) (parent : Option Nat) (tail : Bool) : Option State :=
  let kids := s.serv.nodes.filter fun n => n.tail && n.parent == parent && parent.isSome
  let s1 := if tail ∧ 4 ≤ kids.length then
      match oldest (kids.filter s.evictable) with
      | none => none
      | some n => some ((s.removeNode n).inc HEAD_PREFIX_STATUS.evictions)
    else some s
  match s1 with
  | none => none
  | some t =>
    if t.serv.nodes.length < 131072 then some t
    else match oldest (t.serv.nodes.filter t.evictable) with
      | none => none
      | some n => some ((t.removeNode n).inc HEAD_PREFIX_STATUS.evictions)

/-- The lowest number of no prefix node: one of the 131,072 that the head holds (R229, R251). -/
def State.freeNode (s : State) : Nat :=
  let used := s.serv.nodes.map (·.id)
  ((0 :: used.map (· + 1)).filter fun x => !used.contains x).foldl min 131072

/-- Insert one node for block `p` of a request; its tower copies take a slot in every group. A skipped insertion returns no
number. -/
def State.insertNode (s : State) (r : Req) (p : Nat) (parent : Option Nat) (hash handle : Nat) (toks : List Nat) (tail : Bool) : Option Nat × State :=
  match s.roomFor parent tail with
  | none => (none, s)
  | some s1 =>
    let id := s1.freeNode
    let got := (List.range s.depth).foldl (fun (a : Option (List Nat × State)) g =>
      match a with
      | none => none
      | some (l, u) =>
        if u.towFree g = 0 then none
        else match u.allocTow g with
          | none => none
          | some (m, u1) => some (l ++ [m], u1.setServ fun v => { v with freed := v.freed ++ [(g, m)] })) (some ([], s1))
    match got with
    | none => (none, s1)
    | some (slots, s2) =>
      let n : Node := ⟨id, hash, parent, toks, 0, r.half, handle, s2.serv.matches_ + 1, tail, slots, false, (r.id, p)⟩
      let s3 := s2.setServ fun v => { v with nodes := v.nodes ++ [n], matches_ := v.matches_ + 1, freed := s1.serv.freed }
      let a := ringRegion (id % 24) + 0x200000 + id / 24 * 256
      (some id, (s3.wrBytes a (toks.flatMap fun x => leBytes 4 x)).syncNodes)

/-- Insert the blocks of a prompt that matched nothing, and its tail (R233). -/
def State.insertPrompt (s : State) (r : Req) : State :=
  if !s.flag HEAD_PREFIX_CTRL.enable then s
  else
    let toks := r.tokens
    let full := (toks.length - 1) / 64
    let root := s.prefixRoot r
    let step (a : Option (Option Nat × Nat) × State) (k : Nat) : Option (Option Nat × Nat) × State :=
      match a.1 with
      | none => a
      | some (par, h) =>
        let h' := blockHash h (blockOf toks k)
        match a.2.serv.nodes.find? fun n => !n.tail && !n.flushed && n.hash == h' && n.parent == par && n.half == r.half with
        | some n => if n.tokens = blockOf toks k then (some (some n.id, h'), a.2) else (none, a.2)
        | none =>
          let x := a.2.insertNode r k par h' r.handle (blockOf toks k) false
          match x.1 with
          | none => (none, x.2)
          | some id => (some (some id, h'), x.2)
    let fin := (List.range full).foldl step (some (none, root), s)
    match fin.1 with
    | none => fin.2
    | some (par, _) =>
      let rest := ((toks.take (toks.length - 1)).drop (64 * full))
      let same := fin.2.serv.nodes.any fun n => n.tail && n.parent == par && n.half == r.half && n.tokens == rest && (par.isSome || n.hash == root)
      if rest.isEmpty ∨ same then fin.2
      else (fin.2.insertNode r full par root r.handle rest true).2

end Sys2Proof.Machine
end

