-- ==== Sys2Proof/Machine/Sampling.lean ====
section
/-! DEFINITION. The sampling unit: Philox, the choice of a token, tree verification and stop conditions (R188, R237 to R241,
R260 to R267). -/

namespace Sys2Proof.Machine

/-! ### Philox4x32-10 (R264) -/

/-- State of the generator: the counter and the key. -/
structure Philox where
  (c0 c1 c2 c3 k0 k1 : Nat)
  deriving DecidableEq, Repr

def Philox.round (p : Philox) : Philox :=
  let a := 0xD2511F53 * p.c0
  let b := 0xCD9E8D57 * p.c2
  ⟨b / 2 ^ 32 ^^^ p.c1 ^^^ p.k0, b % 2 ^ 32, a / 2 ^ 32 ^^^ p.c3 ^^^ p.k1, a % 2 ^ 32, m32 (p.k0 + 0x9E3779B9), m32 (p.k1 + 0xBB67AE85)⟩

/-- First word drawn for a seed and a position. -/
def philox (seed i : Nat) : Nat :=
  ((List.range 10).foldl (fun p _ => p.round) (⟨m32 i, 0, 0, 0, m32 seed, m32 (seed / 2 ^ 32)⟩ : Philox)).c0

/-! ### The choice of a token (R263) -/

/-- A sampling profile's active copy. -/
structure Profile where
  (tau k topP rho window : Nat)
  deriving DecidableEq, Repr

def State.profile (s : State) (p : Nat) : Profile :=
  ⟨s.get (HEAD_SAMP_ACTIVE.temperature.ix p), s.get (HEAD_SAMP_ACTIVE.top_k.ix p), s.get (HEAD_SAMP_ACTIVE.top_p.ix p),
   s.get (HEAD_SAMP_ACTIVE.rep_penalty.ix p), s.get (HEAD_SAMP_ACTIVE.rep_window.ix p)⟩

/-- A BF16 value as binary32. -/
def widen (c : Nat) : Nat := c * 65536

/-- A NaN logit is −∞. -/
def noNan (z : Nat) : Nat := if (dec32 z).isNan then 0xFF800000 else z

/-- The repetition penalty on one logit. -/
def penalty (rho z : Nat) : Nat := if lt32 0 z then div32 z (widen rho) else mul32 z (widen rho)

/-- Insert a candidate (token, logit): descending logit, ties to the lower token; keep `k` of them. Tokens come in ascending order. -/
def insertCand (k : Nat) (x : Nat × Nat) (l : List (Nat × Nat)) : List (Nat × Nat) :=
  ((l.takeWhile fun y => !lt32 y.2 x.2) ++ x :: l.dropWhile fun y => !lt32 y.2 x.2).take k

/-- Running sums of the candidates' weights. -/
def runSums (l : List Nat) : List Nat := (l.foldl (fun (a : List Nat × Nat) e => let t := add32 a.2 e; (a.1 ++ [t], t)) ([], 0)).1

/-- 24 bits of a draw times 2⁻²⁴, as binary32. -/
def unitDraw (x : Nat) : Nat := round32 false (x / 256) 1 (-24)

/-- The token for position i from logits (R263); `seen` is the sequence as the query sees it. -/
def chooseToken (p : Profile) (seed i : Nat) (seen : List Nat) (z : List (BitVec 32)) : Nat :=
  let recent := (seen.drop (i - 64 * p.window)).take (64 * p.window)
  let kk := min p.k z.length
  let zs := z.mapIdx fun v c =>
    let a := noNan c.toNat
    (v, if p.window ≠ 0 ∧ recent.contains v then penalty p.rho a else a)
  let c := zs.foldl (fun l x => insertCand kk x l) []
  let first := c.headD (0, 0)
  if p.tau % 32768 = 0 then first.1
  else
    let t := widen p.tau
    let tot := runSums (c.map fun x => exp32 (sub32 (div32 x.2 t) (div32 first.2 t)))
    let lim := mul32 (round32 false p.topP 1 (-10)) (tot.getLastD 0)
    let m := match tot.findIdx? fun x => !lt32 x lim && !(dec32 x).isNan && !(dec32 lim).isNan with | some j => j + 1 | none => kk
    let u := mul32 (unitDraw (philox seed i)) (tot.getD (m - 1) 0)
    match (List.range m).find? fun j => lt32 u (tot.getD j 0) with
    | some j => (c.getD j (0, 0)).1
    | none => (c.getD (m - 1) (0, 0)).1

/-! ### Trees (R238, R241) -/

/-- Parent of node k in a parent word. -/
def Tree.parentOf (t : Tree) (k : Nat) : Nat := t.parents / 16 ^ k % 16

/-- Depth of a node, by at most `fuel` steps. -/
def treeDepth (t : Tree) (fuel k : Nat) : Nat := nodeDepth t.parents fuel k

/-- A parent word keeps R238's rules, and the tree the declared depth. -/
def treeValid (t : Tree) (depth : Nat) : Bool :=
  decide (1 ≤ t.nodes ∧ t.nodes ≤ 16) && t.tokens.length == t.nodes - 1 && t.parents % 16 == 15 &&
  ((List.range 16).all fun k => if k = 0 then true else if k < t.nodes then decide (t.parents / 16 ^ k % 16 < k) else t.parents / 16 ^ k % 16 == 15) &&
  (List.range t.nodes).all fun k => decide (treeDepth t 16 k ≤ depth)

/-- Verify a tree from node `k`: draw from its distribution and go on to the lowest child that holds the drawn token. The
result is the accepted nodes and the tokens drawn. -/
def verify (p : Profile) (seed : Nat) (z : Nat → List (BitVec 32)) (t : Option Tree) : Nat → Nat → List Nat → List Nat × List Nat
  | 0, _, _ => ([], [])
  | fuel + 1, k, seen =>
    let tok := chooseToken p seed seen.length seen (z k)
    let kid := match t with
      | none => none
      | some tr => (List.range tr.nodes).find? fun j => decide (0 < j) && tr.parents / 16 ^ j % 16 == k && tr.tokens.getD (j - 1) 0 == tok
    match kid with
    | none => ([k], [tok])
    | some j =>
      let r := verify p seed z t fuel j (seen ++ [tok])
      (k :: r.1, tok :: r.2)

/-- Cut the tokens of a pass at the first stop condition (R266): tokens returned and the end code. -/
def stopAt (r : Req) (cmax : Nat) : Nat → List Nat → List Nat × Option Nat
  | _, [] => ([], none)
  | k, t :: l =>
    if r.stop.contains t then ([t], some 1)
    else if k + 1 = r.maxNew then ([t], some 2)
    else if r.promptLen + k = cmax then ([t], some 3)
    else let x := stopAt r cmax (k + 1) l; (t :: x.1, x.2)

/-! ### The sampling turn (R185, R237, R263) -/

/-- Speculation state of a carriage. -/
def State.car (s : State) (c : Nat) : Car := (Sparse.find s.serv.cars c).getD ⟨0, none, none, none⟩
def State.setCar (s : State) (c : Nat) (x : Car) : State := s.setServ fun v => { v with cars := Sparse.put v.cars c x }

/-- Largest tree depth of the image's draft model. -/
def State.specDepth (s : State) : Nat := s.get HEAD_KV_CONFIG.spec_depth

/-- Keep the tree that the draft model delivers for the carriage's next pass: refused and counted when it breaks R238, and not
run when a node would reach C_max (R267). -/
def State.draftTree (s : State) (c : Nat) (t : Option Tree) (newN : Nat) : State :=
  match t with
  | none => s.setCar c { s.car c with next := none }
  | some tr =>
    if s.get HEAD_SPEC_STATUS.draft = 0 then s.setCar c { s.car c with next := none }
    else if !treeValid tr s.specDepth then (s.setCar c { s.car c with next := none }).inc HEAD_SPEC_STATUS.invalid_trees
    else if (List.range tr.nodes).any fun k => s.cmax ≤ newN + treeDepth tr 16 k then s.setCar c { s.car c with next := none }
    else s.setCar c { s.car c with next := some tr }

/-- The sampling unit works on one live slot. -/
def State.sampleReq (s : State) (r : Req) (logits : List SlotLogits) (tree : Option Tree) : State :=
  let isTree := decide (r.carriage < s.treeCars)
  let cur := if isTree then (s.car r.carriage).tree else none
  let z (k : Nat) : List (BitVec 32) := match logits.find? fun l => (isTree || l.slot == r.slot) && l.node == k with
    | none => []
    | some l => l.z.take s.vocab
  let v := verify (s.profile r.profile) r.seed z cur 17 0 r.tokens
  let st := stopAt r s.cmax r.gen.length v.2
  let s1 := s.setServ fun w => { w with pass := w.pass ++ [⟨r.id, st.1, v.1, st.2⟩] }
  if isTree then s1.draftTree r.carriage (if st.2.isSome then none else tree) (r.n + v.1.length) else s1

/-! ### The tables of the next pass (R219) -/

/-- A request is in a tree carriage. -/
def State.inTree (s : State) (r : Req) : Bool := decide (r.carriage < s.treeCars)

/-- A commit: the length grows by the accepted path, whose entries a tree slot carries (R221, R242). -/
def Req.advance (r : Req) (tree : Bool) (p : Pass) : Req := { r with n := r.n + p.nodes.length, carry := if tree then p.nodes else [] }

/-- Last set that the next pass of a request needs in every group (R219). -/
def State.lastSet (s : State) (r : Req) : Nat := min (r.n + (if s.inTree r then 15 else 0)) (s.cmax - 1) / 64

/-- Resident slots a request may hold in a group. -/
def State.residentLimit (s : State) (r : Req) (g : Nat) : Nat :=
  match s.kvGroups[g]? with | none => 0 | some k => r.resReserve s.cmax k.window

/-- Allocate the sets up to `last` in group g; false when the oldest spilling set still holds the resident slot it needs (R227). -/
def State.growGroup (s : State) (id g last : Nat) : Nat → Bool × State
  | 0 => (true, s)
  | fuel + 1 =>
    match s.req? id with
    | none => (true, s)
    | some r =>
      let l := r.sets.getD g []
      if last < l.length then (true, s)
      else if s.residentLimit r g ≤ (l.filter fun k => k.state == 1 || k.state == 3).length then (false, s)
      else (s.newSet id g l.length).growGroup id g last fuel

/-- Write the page-table entries and lane records of a request in its lane slot, for a pass with the tree and epoch of `x`
(R215 to R217, R219). -/
def State.writeTables (s : State) (r : Req) (x : Car) : State :=
  let tree := if s.inTree r then x.tree else none
  let nodes := match tree with | none => 1 | some t => t.nodes
  let parent := match tree with | none => 0xFFFFFFFFFFFFFFFF | some t => t.parents
  (List.range s.depth).foldl (fun t g =>
    ((r.sets.getD g []).foldl (fun u k => u.wrEntry g r.carriage r.slot k) t).wrLane g r.carriage r.slot r.n nodes x.epoch parent r.carry) s

/-- The lane records and entries that the next pass of a sampled slot needs, written in the sampling turn to the words that are not
selected (R216, R219). -/
def State.prepareNext (s : State) (p : Pass) : State :=
  match s.req? p.req, p.code with
  | some r, none =>
    let q := r.advance (s.inTree r) p
    let x := s.car r.carriage
    let t := (List.range s.depth).foldl (fun (a : State) g => (a.growGroup r.id g (a.lastSet q) 2).2) s
    match t.req? r.id with
    | none => t
    | some u => t.writeTables { q with sets := u.sets } { x with tree := x.next, epoch := (x.epoch + 1) % 256 }
  | _, _ => s

/-- R241, R263, R266: in the sampling turn of the carriage at position D, each live slot's tokens are chosen; `tree` is what the
draft model then delivers. What it decides takes effect at the boundary (R421). A masked or deferred slot is not live. -/
def execTokenSampling (dt : Nat) (logits : List SlotLogits) (tree : Option Tree) (s : State) : Res :=
  let s := s.pass dt
  let c := carAt s.depth s.turnNo s.depth
  .next <|
    if !s.inTurn ∨ s.serv.sampledNow ∨ !s.samples then s
    else
      let live := s.serv.reqs.filter fun r => r.phase == .slot && r.live && !r.lost && r.carriage == c
      let s1 := s.setServ fun v => { v with sampledNow := true }
      let s2 := live.foldl (fun t r => t.sampleReq r logits tree) s1
      s2.serv.pass.foldl (fun t p => t.prepareNext p) s2

end Sys2Proof.Machine
end

