-- ==== Sys2Proof/Machine/Serving.lean ====
section
/-! DEFINITION. What the serving controller does at a turn boundary: commits, budgets, release, parking, recovery, assignment,
spills, prefill rounds, adapters and the drain (R188, R196 to R203, R215 to R224, R233, R234, R250, R257 to R260, R275, R278,
R279, R430). -/

namespace Sys2Proof.Machine

/-! ### Commit (R221, R258 step 1) -/

/-- One result of the sampling unit takes effect: token records, the charge, then the end or the commit. -/
def State.commitPass (s : State) (p : Pass) : State :=
  match s.req? p.req with
  | none => s
  | some r =>
    if r.phase ≠ .slot ∨ r.lost then s
    else
      let at_ := r.tokens.length
      let s1 := (List.zip (List.range p.tokens.length) p.tokens).foldl (fun t x => t.produce r.ring 1 0 r.tag x.2 (at_ + x.1) true) s
      let s2 := (s1.wrTokens r r.genBlock r.gen.length p.tokens).wrSlot r 88 (leBytes 4 (r.gen.length + p.tokens.length))
      let s3 := (s2.charge r.tenant (16 * p.tokens.length)).updReq r.id fun q => { q with gen := q.gen ++ p.tokens }
      match p.code with
      | some c => s3.endReq r.id c
      | none =>
        let tree := s.inTree r
        let s4 := s3.updReq r.id fun q => q.advance tree p
        if tree then (s4.inc HEAD_SPEC_STATS.passes).inc HEAD_SPEC_STATS.accepted p.nodes.length else s4

/-- The ending turn's results, and the tree and epoch of the carriage that sampled (R240). The pass has copied in what its slots
carried, so that one that commits nothing carries nothing on (R242). -/
def State.commitTurn (s : State) (c : Nat) : State :=
  let s0 := s.mapReqs (fun r => r.phase == .slot && r.carriage == c) fun r => { r with carry := [] }
  let s1 := s0.serv.pass.foldl (fun t p => t.commitPass p) s0
  let s2 := s1.setServ fun v => { v with pass := [], sampledNow := false }
  if c < s.treeCars then
    let x := s2.car c
    s2.setCar c { x with epoch := (x.epoch + 1) % 256, tree := x.next, next := none }
  else s2

/-! ### Sets, spills and table entries (R219, R222 to R224, R227) -/

/-- The resident set reserves a tower slot in a failed tower (R436). -/
def State.strandedSet (s : State) (k : KvSet) : Bool := k.node.isNone && k.state == 1 && s.towerFailed (k.tow % 24)

/-- A request has a reservation in a failed tower. -/
def State.stranded (s : State) (r : Req) : Bool := (List.range s.depth).any fun g => (r.sets.getD g []).any s.strandedSet

/-- Reservations in failed towers get new tower slots in others (R436); one that cannot be met stays, and its request waits. -/
def State.moveReservations (s : State) : State :=
  (s.serv.reqs.filter fun r => r.active && s.stranded r).foldl (fun (t : State) (r : Req) =>
    (List.range s.depth).foldl (fun (u : State) g => ((r.sets.getD g []).filter s.strandedSet).foldl (fun (v : State) (k : KvSet) =>
      match v.allocTow g with
      | none => v
      | some (m, w) => w.updReq r.id fun q => { q with sets := q.sets.set g ((q.sets.getD g []).map fun (x : KvSet) => if x.p = k.p then { x with tow := m } else x) }) u) t) s

/-- The next pass of a request: the sets it needs, or a deferral (R227), and its live bit. -/
def State.preparePass (s : State) (id : Nat) : State :=
  let x := (List.range s.depth).foldl (fun (a : Bool × State) g => let y := a.2.growGroup id g (match a.2.req? id with | none => 0 | some r => a.2.lastSet r) 2; (a.1 && y.1, y.2)) (true, s)
  let wait := match x.2.req? id with | some r => x.2.stranded r | none => false
  if x.1 && !wait then x.2.updReq id fun q => { q with deferred := false, live := !q.masked && !q.lost }
  else (x.2.updReq id fun q => { q with deferred := true, live := false }).inc HEAD_KV_STATS.deferred

/-- Begin the spills of a request after its commit (R223). -/
def State.startSpills (s : State) (id : Nat) : State :=
  match s.req? id with
  | none => s
  | some r =>
    let whole := r.n - r.carry.length
    let due (g : Nat) : List KvSet :=
      let own := (r.sets.getD g []).filter fun k => k.node.isNone
      let keep := match s.kvGroups[g]? with | none => 0 | some k => k.window
      (own.take (own.length - keep)).filter fun k => k.state == 1 && decide (64 * (k.p + 1) ≤ whole)
    let turn (g : Nat) (k : KvSet) : KvSet := if (due g).contains k then { k with state := 3, written := false } else k
    let new := (List.range s.depth).flatMap fun g => (due g).map fun k => (id, g, k.p)
    (s.updReq id fun q => { q with sets := q.sets.mapIdx fun g l => l.map (turn g) }).setServ fun v => { v with spills := v.spills ++ new }

/-- Spilled sets of the carriages whose visit ended become streamed, and so do their entries (R224): in turn t, carriage
carAt d t g visits group g. -/
def State.endVisits (s : State) (t : Nat) : State :=
  let done (k : KvSet) : Bool := k.state == 3 && k.written
  let turn (k : KvSet) : KvSet := if done k then { k with state := 2 } else k
  let here (r : Req) (g : Nat) : Bool := r.phase == .slot && r.carriage == carAt s.depth t g
  let s1 := s.serv.reqs.foldl (fun (u : State) (r : Req) =>
    (List.range r.sets.length).foldl (fun (v : State) g =>
      if here r g then ((r.sets.getD g []).filter done).foldl (fun (w : State) k => w.wrEntry g r.carriage r.slot (turn k)) v else v) u) s
  s1.mapReqs (fun r => r.phase == .slot) fun r => { r with sets := r.sets.mapIdx fun g l => if here r g then l.map turn else l }

/-- The lane records of an empty slot. -/
def State.clearLane (s : State) (c j : Nat) : State := (List.range s.depth).foldl (fun t g => t.wrLane g c j 0 0 0 0 []) s

/-- Every request in a lane slot of carriage c has the tables of its next pass; those written in the sampling turn are replaced
(R216, R219). -/
def State.tablesOf (s : State) (c : Nat) : State :=
  (s.serv.reqs.filter fun r => r.phase == .slot && r.carriage == c).foldl (fun t r => t.writeTables r (s.car c)) s

/-! ### Budgets (R257) -/

/-- Level after a boundary's refill. -/
def State.refillTenant (s : State) (t : Nat) : State :=
  let rate := s.get (HEAD_TENANT_CFG.rate.ix t)
  let burst := s.get (HEAD_TENANT_CFG.burst.ix t)
  if !s.flag (HEAD_TENANT_CFG.enable.ix t) then s
  else if s.serv.rose.contains t then s.setLevel t burst
  else s.setLevel t (min (s.level t + rate) burst)

/-- Tenants whose configuration register has been written. -/
def State.tenants (s : State) : List Nat :=
  (s.regs.filter fun p => p.1 % 281474976710656 == HEAD_TENANT_CFG.enable.key).map fun p => p.1 / 281474976710656

/-- R258 step 2. -/
def State.refill (s : State) : State := (s.tenants.foldl (fun t n => t.refillTenant n) s).setServ fun v => { v with rose := [] }

/-! ### Release, parking and recovery (R188 step 1, R258 steps 3 to 5, R260, R430) -/

/-- Release a lane slot; the request leaves its carriage, and its entries show no set (R215, R222). -/
def State.leaveSlot (s : State) (r : Req) : State :=
  ((List.range r.sets.length).foldl (fun (t : State) g =>
    (r.sets.getD g []).foldl (fun (u : State) k => u.wrWord g r.carriage r.slot k.p 0) t) s).clearLane r.carriage r.slot

/-- Park a sequence (R258 step 3). -/
def State.park (s : State) (r : Req) : State :=
  ((s.leaveSlot r).updReq r.id fun q => { q with phase := .parked, live := false, masked := false, deferred := false, carry := [] }).setServ fun v =>
    { v with parked := v.parked ++ [r.id] }

/-- Release the ended slots of carriage c, and forget the ended requests that hold no slot, once no round works for them. -/
def State.releaseEnded (s : State) (c : Nat) : State :=
  let out := s.serv.reqs.filter fun r => (r.phase == .ended && r.carriage == c) || (r.phase == .gone && !s.inRound r.id)
  out.foldl (fun t r => ((if r.phase = .ended then (t.leaveSlot r).freeSlot r else t)).forget r.id) s

/-- Park the sequences of carriage c that are over budget, and mask a tree's next pass first (R260). -/
def State.parkOver (s : State) (c : Nat) : State :=
  (s.serv.reqs.filter fun r => r.phase == .slot && r.carriage == c).foldl (fun t r =>
    if s.inTree r then
      if r.masked then t.park r
      else if t.level r.tenant ≤ 0 then t.updReq r.id fun q => { q with masked := true } else t
    else if r.live ∧ t.level r.tenant ≤ 0 then t.park r else t) s

/-- Unpark the sequences of `ids` whose tenant has budget (R258 step 4). -/
def State.unpark (s : State) (ids : List Nat) : State :=
  let go := ids.filter fun i => match s.req? i with | some r => decide (0 < s.level r.tenant) && r.phase == .parked | none => false
  (s.mapReqs (fun r => go.contains r.id) fun r => { r with phase := .ready }).setServ fun v =>
    { v with parked := v.parked.filter (fun i => !go.contains i), ready := v.ready ++ go }

/-- Insert requests in ascending ring number. -/
def byRing (l : List Req) : List Req :=
  l.foldl (fun a r => a.takeWhile (fun q => q.ring ≤ r.ring) ++ r :: a.dropWhile (fun q => q.ring ≤ r.ring)) []

/-- A lost sequence is recovered: its slot, sets and references go, and it is looked up and queued again (R430). -/
def State.recover (s : State) (r : Req) : State :=
  let s1 := if r.phase = .slot then s.leaveSlot r else s
  let s2 := ((s1.unqueue r.id).dropRefs r.nodes).syncNodes
  let s3 := s2.updReq r.id fun q => { q with
    lost := false, recovered := true, dropped := false, live := false, masked := false, deferred := false, sets := [], nodes := [], carry := [],
    pre := 0, charged := if q.phase = .prefill then q.charged else q.tokens.length, phase := .prefill }
  ((s3.inc HEAD_REPAIR_COUNTS.recovered).raise 72 (coordHead 72) r.ring r.tag).lookup r.id

/-- Recover every lost sequence, in ascending ring number; one whose prompt a running round works for waits for its end. -/
def State.recoverLost (s : State) : State :=
  (byRing (s.serv.reqs.filter fun r => r.lost && r.active && !s.inRound r.id)).foldl (fun t r => t.recover r) s

/-! ### Prefill rounds (R196 to R203, R233) -/

/-- Round length in turns and energy of the schedule set in effect. -/
def State.roundTurns (s : State) : Nat := match s.sched with | none => 0 | some c => c.roundTurns
def State.roundEnergy (s : State) : Nat := match s.sched with | none => 0 | some c => c.roundEnergy

/-- The allowance grows at a boundary that ends a turn of `len` spokes, inserts included (R202). -/
def State.accrue (s : State) (len : Nat) : State :=
  let p := match s.img.image with | none => 0 | some i => i.power.pPre
  let a := min (s.serv.allowance + p * len * 50) (2 * s.roundEnergy)
  (s.setServ fun v => { v with allowance := a }).set HEAD_PREFILL_ENERGY.allowance (a / 1000)

/-- The sets of group g that a prompt's first `upto` tokens fill are allocated as the round runs (R199): the highest stay resident,
the others are streamed (DEDUCED, log entry 31). -/
def State.prefillSet (s : State) (id g upto : Nat) : State :=
  let need := ceilDiv upto 64
  let have_ := match s.req? id with | none => need | some r => (r.sets.getD g []).length
  (List.range (need - have_)).foldl (fun u k =>
    let keep := match u.kvGroups[g]? with | none => 0 | some kg => kg.window
    let own := match u.req? id with | none => [] | some r => (r.sets.getD g []).filter fun (x : KvSet) => x.node.isNone && x.state == 1
    let u1 := if own.length < keep then u
      else match own with
        | [] => u
        | o :: _ => (u.spillSet g o).updReq id fun q => { q with sets := q.sets.set g ((q.sets.getD g []).map fun (x : KvSet) => if x.p = o.p then { x with state := 2, written := true } else x) }
    u1.newSet id g (have_ + k)) s

/-- The same in every group. -/
def State.prefillSets (s : State) (id upto : Nat) : State :=
  (List.range s.depth).foldl (fun t g => t.prefillSet id g upto) s

/-- Tower copies of the sets of nodes just inserted for a request (R233). -/
def State.copyNodes (s : State) (r : Req) (old : List Node) : State :=
  (s.serv.nodes.filter fun n => !old.contains n).foldl (fun t n =>
    let p := n.src.2
    (List.range s.depth).foldl (fun u g =>
      match (r.sets.getD g []).find? fun k => k.p == p with
      | none => u
      | some k =>
        if k.state = 1 then u.spillSet g { k with tow := n.slots.getD g 0 }
        else match u.kvGroups[g]? with
          | none => u
          | some kg => (List.range kg.pages.length).foldl (fun w x =>
              w.wrBytes (towerPage kg s.headDim (n.slots.getD g 0) x) (w.bytes (towerPage kg s.headDim k.tow x) (68 * s.headDim))) u) t) s

/-- A round ends: progress, nodes, and the requests that are ready, in batch order (R201, R233). -/
def State.endRound (s : State) : List Nat × State :=
  match s.serv.round with
  | none => ([], s)
  | some rd =>
    let s0 := (s.setServ fun v => { v with round := none, dropRound := false }).setFlag HEAD_PREFILL_STATUS.running false
    rd.batch.foldl (fun (a : List Nat × State) ch =>
      match a.2.req? ch.req with
      | none => a
      | some r =>
        if r.dropped ∨ r.phase ≠ .prefill ∨ r.lost then (a.1, a.2.updReq r.id fun q => { q with dropped := false })
        else
          let s1 := (a.2.updReq r.id fun q => { q with pre := ch.start + ch.take }).prefillSets r.id (ch.start + ch.take)
          match s1.req? r.id with
          | none => (a.1, s1)
          | some q =>
            if q.rest = 0 then
              let old := s1.serv.nodes
              let s2 := (s1.insertPrompt q).copyNodes q old
              let s3 := s2.setServ fun v => { v with queue := v.queue.filter (· != q.id) }
              (a.1 ++ [q.id], s3.updReq q.id fun x => { x with phase := .ready, n := x.tokens.length - 1, recovered := false })
            else (a.1, s1)) ([], s0)

/-- A round is abandoned: its prompts return to the front of the queue with the progress they had, and the pages that the round
allocated are freed (R200). -/
def State.abandonRound (s : State) : State :=
  match s.serv.round with
  | none => s
  | some rd =>
    let ids := (rd.batch.map (·.req)).filter fun i => match s.req? i with | some r => !r.dropped && r.phase == .prefill | none => false
    let s0 := rd.batch.foldl (fun (t : State) ch => t.updReq ch.req fun q => { q with sets := q.sets.map fun l => l.take (ceilDiv ch.start 64) }) s
    let s1 := (s0.setServ fun v => { v with round := none, dropRound := false, queue := ids ++ v.queue.filter fun i => !ids.contains i }).setFlag
      HEAD_PREFILL_STATUS.running false
    (s1.mapReqs (fun r => r.dropped) fun r => { r with dropped := false }).inc HEAD_PREFILL_STATUS.abandoned

/-- A prompt counts at the boundary whose spoke begins at an axle count (R197). -/
def State.counts (s : State) (start i : Nat) : Bool := match s.req? i with | some r => decide (r.entered < start) | none => false

/-- The batch of a round (R198, R278): chunks in queue order. -/
def State.batch (s : State) (start cap half : Nat) : List Nat → Nat → List Chunk
  | [], _ => []
  | i :: l, total =>
    match s.req? i with
    | none => s.batch start cap half l total
    | some r =>
      if !s.counts start i ∨ r.half ≠ half then []
      else if total + r.rest ≤ cap then ⟨i, r.rest, r.pre⟩ :: s.batch start cap half l (total + r.rest)
      else
        let take := (cap - total) / 64 * 64
        if 64 ≤ take then [⟨i, take, r.pre⟩] else []

/-- A round starts with turn `t` when the condition of R197 holds at the boundary. While a tower is failed no round starts (R436),
and such a boundary counts in `deferred` no more than one at which the condition itself fails; where the condition holds and the
queue's head does not count yet, the batch is empty and no round starts (DESIGN CHOICE, log entry 60). -/
def State.startRound (s : State) (t start : Nat) : State :=
  let s0 := s.mapReqs (fun r => s.serv.queue.contains r.id && s.counts start r.id) fun r => { r with waited := r.waited + 1 }
  match s0.img.image with
  | none => s0
  | some i =>
    let counted := s0.serv.queue.filter fun x => s0.counts start x
    let queued := (counted.filterMap fun x => (s0.req? x).map Req.rest).sum
    let wait := match s0.serv.queue.head? with
      | none => 0
      | some x => if s0.counts start x then (match s0.req? x with | some r => r.waited | none => 0) else 0
    let want := s0.flag HEAD_PREFILL_CTRL.enable && decide (0 < queued) &&
      decide (s0.get HEAD_PREFILL_CTRL.batch_min ≤ queued ∨ s0.get HEAD_PREFILL_CTRL.max_wait ≤ wait)
    let failed := (List.range 24).any fun t => s0.towerFailed t
    if s0.serv.round.isSome ∨ !want ∨ failed then s0
    else if s0.serv.allowance < s0.roundEnergy then s0.inc HEAD_PREFILL_ENERGY.deferred
    else
      let half := match s0.serv.queue.head? with | none => 0 | some x => match s0.req? x with | some r => r.half | none => 0
      let b := s0.batch start i.bcap half s0.serv.queue 0
      if b.isEmpty then s0
      else
        let s1 := b.foldl (fun u ch =>
          match u.req? ch.req with
          | none => u
          | some r =>
            let hi := ch.start + ch.take
            let u1 := u.charge r.tenant (s.get (HEAD_TENANT_CFG.prompt_cost.ix r.tenant) * (min hi r.promptLen - max ch.start r.charged))
            u1.updReq r.id fun q => { q with charged := max q.charged hi }) s0
        let done := (b.filter fun ch => match s0.req? ch.req with | some r => r.rest == ch.take | none => true).map (·.req)
        let a := s1.serv.allowance - s1.roundEnergy
        let s2 := s1.setServ fun v => { v with round := some ⟨t, b⟩, allowance := a, queue := v.queue.filter fun x => !done.contains x }
        (((s2.set HEAD_PREFILL_ENERGY.allowance (a / 1000)).setFlag HEAD_PREFILL_STATUS.running true).set HEAD_PREFILL_STATUS.round_turn 0).inc
          HEAD_PREFILL_STATUS.rounds

/-! ### Assignment (R188 step 2, R250, R258 step 6, R278) -/

/-- Sequences that hold lane slots. -/
def State.slotted (s : State) : Nat := (s.serv.reqs.filter fun r => r.inSlot).length

/-- Room in the return buffer for one more sequence in a lane slot (R250). -/
def State.returnRoom (s : State) : Bool := decide (17 * (s.slotted + 1) ≤ 1556480 - s.unreserved)

/-- Place a ready sequence in a lane slot. -/
def State.place (s : State) (r : Req) (c j : Nat) : State :=
  let s1 := (s.unqueue r.id).updReq r.id fun q => { q with phase := .slot, carriage := c, slot := j, live := true, masked := false, carry := [] }
  let x := s1.car c
  s1.setCar c { x with half := some r.half, tree := if c < s.treeCars then none else x.tree, next := none }

/-- One ready sequence comes up for carriage c; the flag tells that assignment is over for this boundary. -/
def State.offer (s : State) (c : Nat) (id : Nat) : Bool × State :=
  match s.req? id with
  | none => (false, s)
  | some r =>
    let here := s.serv.reqs.filter fun q => q.inSlot && q.carriage == c
    let tree := decide (c < s.treeCars)
    let free := (List.range 16).find? fun j => !(here.any fun q => q.slot == j)
    let half := here.isEmpty || (s.car c).half == some r.half
    let fits := if tree then here.isEmpty && r.flags % 2 == 1 else free.isSome && r.flags / 2 % 2 == 0
    if !fits ∨ !half then (false, s)
    else if s.level r.tenant ≤ 0 then
      (false, ((s.unqueue id).updReq id fun q => { q with phase := .parked }).setServ fun v => { v with parked := v.parked ++ [id] })
    else if !s.returnRoom then (true, s.inc HEAD_SERVE_STATS.return_holds)
    else (tree, s.place r c (if tree then 0 else free.getD 0))

/-- Assign ready sequences, in ready order, to the carriage that enters position 0. -/
def State.assignTo (s : State) (c : Nat) : State :=
  (s.serv.ready.foldl (fun (a : Bool × State) i => if a.1 then a else a.2.offer c i) (false, s)).2

/-! ### Adapters and halves (R271, R275, R276) -/

/-- Requests bound to a copy of an adapter slot, and to a model half. -/
def State.bound (s : State) (a c : Nat) : Nat :=
  (s.serv.reqs.filter fun r => r.active && r.handle != 0 && r.handle / 65536 == a && r.copy == c).length
def State.boundHalf (s : State) (h : Nat) : Nat := (s.serv.reqs.filter fun r => r.active && r.half == h).length

/-- State field of a copy of an adapter slot, or of a half (copy 1 is A or half 0). -/
def copyState (a c : Nat) : Fld := if c = 1 then HEAD_ADAPTER_STATE.state_a.ix a else HEAD_ADAPTER_STATE.state_b.ix a
def copyGen (a c : Nat) : Fld := if c = 1 then HEAD_ADAPTER_STATE.gen_a.ix a else HEAD_ADAPTER_STATE.gen_b.ix a
def halfState (h : Nat) : Fld := if h = 0 then HEAD_MODEL_STATE.state_a else HEAD_MODEL_STATE.state_b

/-- Draining copies and halves with no request bound become staged (R275, R278). -/
def State.drainCopies (s : State) : State :=
  let s1 := (List.range (s.get HEAD_SERVE_CONFIG.adapter_slots)).foldl (fun t a => [1, 2].foldl (fun u c =>
    if u.get (copyState a c) = 3 ∧ u.bound a c = 0 then
      let h := a * 65536 + u.get (copyGen a c)
      ((u.set (copyState a c) 1).setServ fun v => { v with drained := h :: v.drained }).raiseHead 130 h 0
    else u) t) s
  [0, 1].foldl (fun u h => if u.get (halfState h) = 3 ∧ u.boundHalf h = 0 then (u.set (halfState h) 1).raiseHead 131 h 0 else u) s1

/-- Nodes of drained generations go when evictable (R234). -/
def State.dropDrained (s : State) : State :=
  (s.serv.nodes.filter fun n => n.handle != 0 && s.serv.drained.contains n.handle && s.evictable n).foldl (fun t n => t.removeNode n) s

/-! ### The drain (R279) -/

/-- The limit of a drain has passed, or nothing is left to drain: what is admitted ends or returns to its ring. True when the
reload follows. -/
def State.drainStep (s : State) (t : Nat) : Bool × State :=
  match s.serv.drain with
  | none => (false, s)
  | some (_, limit) =>
    if s.serv.reqs.any (fun r => r.active) ∧ t < limit then (false, s)
    else
      let enders := s.serv.reqs.filter fun r => r.phase == .slot || r.phase == .ready || r.phase == .parked
      let s1 := enders.foldl (fun u r => u.endReq r.id 5) s
      let back := s1.serv.reqs.filter fun r => r.phase == .prefill || r.phase == .tail
      let s2 := back.foldl (fun u r => ((u.unqueue r.id).dropRefs r.nodes).updReq r.id fun q => { q with
        phase := .queued, sets := [], nodes := [], pre := 0, handle := 0, copy := 0, waitFrom := none, recovered := false, lost := false, dropped := false, genBlock := 0, admitted := 0 }) s1
      let s3 := ((back.foldl (fun u r => ((u.wrSlot r 64 [1]).wrSlot r 80 (leBytes 8 0)).wrSlot r 92 (leBytes 4 0)) s2).setServ fun v =>
        { v with round := none, dropRound := false }).setFlag HEAD_PREFILL_STATUS.running false
      let gone := s3.serv.reqs.filter fun r => r.phase == .ended || r.phase == .gone
      (true, (gone.foldl (fun u r => (if r.phase = .ended then u.freeSlot r else u).forget r.id) s3).syncEligible.syncNodes)

/-! ### Views (R205, R244) -/

/-- HEAD_CARRIAGE_STATE of carriage c in turn t. -/
def State.carriageView (s : State) (t c : Nat) : Nat :=
  let here := s.serv.reqs.filter fun r => r.inSlot && r.carriage == c
  let tree := decide (c < s.treeCars)
  let sum (l : List Req) : Nat := if tree then (if l.isEmpty then 0 else 65535) else (l.map fun r => 2 ^ r.slot).sum
  let nodes := if tree ∧ !here.isEmpty then (match (s.car c).tree with | none => 1 | some x => x.nodes) else 0
  (if tree then 2 ^ 57 else 0) + carPosition s.depth t c * 2 ^ 48 + nodes * 2 ^ 32 + sum here * 2 ^ 16 + sum (here.filter fun r => r.live)

/-- HEAD_KV_GROUP_STATE of group g. -/
def State.groupView (s : State) (g : Nat) : Nat :=
  (s.serv.reqs.flatMap fun r => (r.sets.getD g []).filter fun k => k.state == 3).length * 2 ^ 48 + s.towFree g * 2 ^ 24 + s.poolFree g

/-- Take the views for the turn that begins, and what the tables active in it give to the prefetches of two turns on (R225). -/
def State.takeViews (s : State) (t : Nat) : State :=
  s.setServ fun v => { v with
    fetchDue := (v.fetchDue.filter fun x => t < x.2.1) ++ (List.range s.depth).map fun g => (g, t + 2, s.streamed g (t + 2)),
    carView := (List.range (s.depth + 1)).map fun c => (c, s.carriageView t c),
    kvView := (List.range s.depth).map fun g => (g, s.groupView g) }

/-! ### Split sets and pipeline chains (R235, R346, R347) -/

/-- What another member sent for turn t. -/
def State.messageOf (s : State) (m t : Nat) : Option TurnMsg := s.turn.msgs.find? fun x => x.member == m && x.turn == t

/-- In a chain, the results that the last device's sampling unit sent for turn t (R347). -/
def State.chainPasses (s : State) (t : Nat) : List Pass :=
  match s.together with
  | some g => if g.chain ∧ g.sampler ≠ g.member then (match s.messageOf g.sampler t with | none => [] | some m => m.passes) else []
  | none => []

/-- A device of the set gives the nodes that the leader inserted tower slots of its own, and frees those of the removed ones. -/
def State.followNodes (s : State) (l : List Node) : State :=
  let gone := s.serv.nodes.filter fun n => !(l.any fun x => x.id == n.id && x.hash == n.hash && x.tokens == n.tokens)
  let s1 := s.setServ fun v => { v with nodes := v.nodes.filter fun (n : Node) => !gone.contains n }
  (l.foldl (fun (t : State) (x : Node) =>
    match t.serv.nodes.find? fun n => n.id == x.id with
    | some n => t.setServ fun v => { v with nodes := v.nodes.map fun (y : Node) => if y.id = x.id then { x with slots := n.slots } else y }
    | none =>
      let a := (List.range t.depth).foldl (fun (a : List Nat × State) g =>
        match a.2.allocTow g with
        | none => (a.1 ++ [0], a.2)
        | some (m, u) => (a.1 ++ [m], u.setServ fun v => { v with freed := v.freed ++ [(g, m)] })) ([], { t with serv := { t.serv with freed := [] } })
      a.2.setServ fun v => { v with freed := t.serv.freed, nodes := v.nodes ++ [{ x with slots := a.1 }] }) s1).syncNodes

/-- A device of the set takes a request as the leader has it; the sets are its own. One whose slot it leaves, or that begins again, gives
them up; a new one shares those of its nodes, and takes in the tail it matched (R231, R232, R235). -/
def State.followReq (s : State) (r : Req) : State :=
  let shared := sharedSets s.depth (s.serv.nodes.filter fun n => r.nodes.contains n.id)
  match s.req? r.id with
  | some q =>
    let again := q.nodes != r.nodes || decide (r.pre < q.pre)
    let s1 := if q.phase == .slot && (r.phase != .slot || q.carriage != r.carriage || q.slot != r.slot) then s.leaveSlot q else s
    s1.updReq r.id fun x => { r with sets := if again then shared else x.sets }
  | none =>
    let s1 := s.setServ fun v => { v with reqs := v.reqs ++ [{ r with sets := shared }] }
    if r.pre % 64 = 0 then s1
    else match s1.lookTail r.half r.tokens ⟨s1.serv.nodes.filter fun n => r.nodes.contains n.id, 0, 0, s1.prefixRoot r⟩ with
      | none => s1
      | some t => (List.range s.depth).foldl (fun (u : State) g =>
          let u1 := u.newSet r.id g r.nodes.length
          match u1.req? r.id with
          | none => u1
          | some q => match (q.sets.getD g []).find? fun (k : KvSet) => k.node.isNone with
            | none => u1
            | some k => u1.fetchTail g (t.slots.getD g 0) k.res t.tokens.length) s1

/-- The leader's decisions take effect on another device of the set: its requests, nodes and carriages are the leader's, and it
allocates the sets of its own head groups (R235, R346). -/
def State.follow (s : State) (d : Decisions) (t : Nat) : State :=
  let old := s.serv.nodes
  let out := s.serv.reqs.filter fun r => !(d.reqs.any fun q => q.id == r.id)
  let s1 := ((s.setServ fun v => { v with freed := [] }).endVisits t)
  let s2 := out.foldl (fun (u : State) r => (if r.inSlot then u.leaveSlot r else u).setServ fun v =>
    { v with reqs := v.reqs.filter (fun (q : Req) => q.id != r.id), spills := v.spills.filter fun x => x.1 != r.id }) s1
  let s3 := d.reqs.foldl (fun (u : State) r => u.followReq r) (s2.followNodes d.nodes)
  let s4 := d.reqs.foldl (fun (u : State) (r : Req) => if r.pre = 0 ∨ r.phase = .slot then u else u.prefillSets r.id r.pre) s3
  let new := s4.serv.nodes.filter fun n => !(old.any fun x => x.id == n.id && x.hash == n.hash)
  let s5 := d.reqs.foldl (fun (u : State) (r : Req) =>
    if new.any fun n => n.src.1 == r.id then
      match u.req? r.id with
      | none => u
      | some q => u.copyNodes q (u.serv.nodes.filter fun n => !(new.contains n && n.src.1 == r.id))
    else u) s4
  (s5.setServ fun v => { v with cars := d.cars, round := d.round, pass := [], sampledNow := false }).setFlag
    HEAD_PREFILL_STATUS.running d.round.isSome

/-- The next passes of carriage c, with their spills and tables. -/
def State.nextPasses (s : State) (c : Nat) : State :=
  (((s.serv.reqs.filter fun q => q.phase == .slot && q.carriage == c).foldl (fun u q =>
    ((if s.leads then u.preparePass q.id
      else (List.range s.depth).foldl (fun (a : State) g => (a.growGroup q.id g (a.lastSet q) 2).2) u).startSpills q.id)) s).tablesOf c).flipTables

/-! ### The boundary (R188, R258) -/

/-- The serving controller at the boundary that ends turn t, whose spoke begins at axle count `start`; `len` is the length of
the turn in spokes with its inserts, `drop` tells that a running round is abandoned: one whose last turn ends at the boundary of a
schedule set change too (R200 does not say: DESIGN CHOICE, log entry 60). -/
def State.leadBoundary (s : State) (t start len : Nat) (drop : Bool) : State :=
  let c := carAt s.depth t s.depth
  let direct := s.serv.direct
  let parked := s.serv.parked
  let s1 := ((s.setServ fun v => { v with freed := [] }).commitTurn c).moveReservations
  let s2 := s1.refill
  let s3 := (s2.endVisits t).releaseEnded c
  let s4 := if drop ∨ s3.serv.dropRound then s3.abandonRound else s3
  let ends := match s4.serv.round with | none => false | some r => decide (r.turn + s4.roundTurns ≤ t + 1)
  let r := if ends then s4.endRound else ([], s4)
  let s5 := (r.2.recoverLost.releaseEnded c).parkOver c
  let s6 := s5.unpark parked
  let s7 := s6.setServ fun v => { v with ready := v.ready ++ r.1 ++ direct.filter fun i => v.direct.contains i, direct := v.direct.filter fun i => !direct.contains i }
  let s8 := (s.chainPasses t).foldl (fun (u : State) p => u.commitPass p) (s7.assignTo c)
  let s10 := ((s8.nextPasses c).accrue len).startRound (t + 1) start
  let s11 := (s10.drainCopies.dropDrained).setServ fun v => { v with staged := v.staged.filter fun x => t < x.2.2 }
  let s12 := match s11.serv.round with | none => s11 | some rd => s11.set HEAD_PREFILL_STATUS.round_turn (t + 1 - rd.turn)
  s12.takeViews (t + 1)

/-- The serving controller at a boundary: the leader's own, or what the leader of the split set or chain has sent for it, with the
sampler's results in a chain (R235, R346, R347). -/
def State.serveBoundary (s : State) (t start len : Nat) (drop : Bool) : State :=
  if s.leads then s.leadBoundary t start len drop
  else
    let c := carAt s.depth t s.depth
    let lead := match s.together with | none => s.member | some g => g.leader
    let s1 := match (s.messageOf lead t).bind (·.decisions) with | none => s | some d => s.follow d t
    let mine := if s.samples then s.serv.pass else []
    let s2 := (s.chainPasses t ++ mine).foldl (fun (u : State) p => u.commitPass p) s1
    let s3 := if drop then s2.abandonRound else s2
    let s4 := s3.nextPasses c
    let s5 := match s4.serv.round with | none => s4 | some rd => s4.set HEAD_PREFILL_STATUS.round_turn (t + 1 - rd.turn)
    s5.takeViews (t + 1)

/-- The leader's decisions for the boundary that ends turn t, as it stands in the spoke in which its turn message is made; its view of
`start`, of the turn's length and of the change of the schedule set is that of the turn if no further hold is raised (DESIGN CHOICE, log
entry 62). -/
def State.decide_ (s : State) (t start len : Nat) (drop : Bool) : Decisions :=
  let b := s.leadBoundary t start len drop
  ⟨b.serv.reqs.filterMap (fun (r : Req) => if r.phase = .queued then none else some { r with sets := [] }),
   b.serv.nodes.map (fun (n : Node) => { n with slots := [] }), b.serv.cars, b.serv.round⟩

end Sys2Proof.Machine
end

