-- ==== Sys2Proof/Machine/Formats.lean ====
section
/-! DEFINITION. The shadow check and format pressure (R169 to R177). -/

namespace Sys2Proof.Machine

/-- Taps of a logical coach, by their numbers in the image (R169). -/
def coachTaps (i : Image) (lc : Nat) : List Nat :=
  (List.range i.taps.length).filter fun k => match i.taps[k]? with | none => false | some t => t.mLc == lc

/-- The tap's schedule set is in effect (R369). -/
def State.tapSet (s : State) (t : Tap) : Bool := (t.set == 1) == s.flag HEAD_FMT_SET.in_effect

/-- The sample of a physical coach. -/
def State.sample? (s : State) (c : Nat) : Option Sample := s.serv.samples.find? fun x => x.coach == c

/-- The sample of a coach ends. -/
def State.dropSample (s : State) (c : Nat) : State :=
  s.setServ fun v => { v with samples := v.samples.filter fun (x : Sample) => x.coach != c }

/-- R170: the coach-table scrubber of coach c selects a sample for the turn that begins; a selected tap whose set is not in
effect is not sampled (R369; DEDUCED, log entry 32). The S-tile whose region holds the tap's M-tile checks it. -/
def State.selectSample (s : State) (i : Image) (turn c : Nat) : State :=
  match s.logicalCoach c, s.tableScrubber c with
  | some lc, some n =>
    let taps := coachTaps i lc
    if taps.isEmpty ∨ (s.sample? c).isSome then s
    else
      let key := (s.logicalOf n).getD n
      let m := (Sparse.find s.serv.sampled key).getD 0
      let drawn := (s.get (TILE_SR_SEED.enable.tile n)).testBit 2
      let k := if drawn then
          draw (s.get (TILE_SR_SEED.seed.tile n)) 2 (s.get ((TILE_SR_CTR_n.ctr.tile n).off 16)) 0 * taps.length / 2 ^ 32
        else m % taps.length
      let s1 := (s.srNext n 2).setServ fun v => { v with sampled := Sparse.put v.sampled key (m + 1) }
      let tap := taps.getD k 0
      match i.taps[tap]? with
      | none => s1
      | some t =>
        let by_ := match s1.tileOf (t.mLc * 256 + t.mLt) with | some k => s1.pacer k | none => n
        if s1.tapSet t then s1.setServ fun v => { v with samples := v.samples ++ [(⟨c, tap, turn, by_, none⟩ : Sample)] } else s1
  | _, _ => s

/-- The samples of the turn that begins. -/
def State.selectSamples (s : State) (turn : Nat) : State :=
  match s.img.image with
  | none => s
  | some i => if s.flag HEAD_SHADOW_CTRL.enable then (List.range 64).foldl (fun t c => t.selectSample i turn c) s else s

/-- R174: windows of W turns begin at turns 0, W, 2W, …; at each, `window_exceed` is cleared. -/
def State.startWindows (s : State) (turn : Nat) : State :=
  match s.img.image with
  | none => s
  | some i => (List.range i.formats.length).foldl (fun t l =>
      if turn % (s.fmt l).window = 0 then
        (t.set (HEAD_FMT_STATUS.window_exceed.ix l) 0).setServ fun v => { v with pressed := v.pressed.filter (· != l) }
      else t) s

/-- Sample missed (R171). -/
def State.missSample (s : State) (c : Nat) : State := (s.dropSample c).inc HEAD_SHADOW_STATS.missed

/-- Lines of a tap's weight span (R369). -/
def spanLines (wfmt : Nat) : Nat := if wfmt = 2 then 13 else if wfmt = 3 then 8 else 16

/-- Weight values of one row over the first 2,048 inputs, with PB3 sub-scales when caps bit 1 is set (R172); none in a zero block. -/
def rowWeights (f : Fmt) (bursts : List Nat) : List Dy :=
  (bursts.flatMap fun b => (List.range (blocksPerBurst f.wfmt)).flatMap fun j =>
    let cs := blockCodes f.wfmt b j
    let e := scaleExp f.satScale (scaleCode f.wfmt b j) + unitExp f.wfmt
    (List.zip (List.range cs.length) cs).map fun x =>
      if scaleCode f.wfmt b j = 0 then Dy.zero
      else if f.wfmt = 2 ∧ f.caps / 2 % 2 = 1 then (⟨mu8 (subCode b j (x.1 / 16)) * elemInt f.wfmt x.2, e - 3⟩ : Dy)
      else (⟨elemInt f.wfmt x.2, e⟩ : Dy)).take 2048

/-- y_r of one row and lane: the exact sum rounded once, times the primary channel scale (R172). An activation that is not finite
makes it NaN even where it meets only zero blocks, which add no product (R139): whether it then counts is not said (DESIGN CHOICE,
log entry 49). -/
def reference (ws : List Dy) (xs : List Nat) (scale : Nat) : Nat :=
  if xs.any fun x => !(decBf16 x).isFinite then nan32
  else mul32 (rne32 (Dy.sum (List.zipWith (fun w x => w.mul (decBf16 x).dy) ws xs))) scale

/-- D and Y of R173 over pairs (y_e, y_r) in lane and row order, and whether a value was not finite. -/
def compareAll (l : List (Nat × Nat)) : Nat × Nat × Bool :=
  l.foldl (fun a x =>
    let d := sub32 x.1 x.2
    (add32 a.1 (mul32 d d), add32 a.2.1 (mul32 x.2 x.2), a.2.2 || !(dec32 x.1).isFinite || !(dec32 x.2).isFinite)) (0, 0, false)

/-- Exceedance, and whether for a value that is not finite (R173). -/
def verdictOf (t : Nat) (r : Nat × Nat × Bool) : Bool × Bool :=
  let bound := mul32 (mul32 t t) r.2.1
  let nf := r.2.2 || !(dec32 r.1).isFinite || !(dec32 bound).isFinite
  (nf || lt32 bound r.1, nf)

/-- A tap's three spans may be read (R121, R169). -/
def State.tapReadable (s : State) (f : Fmt) (t : Tap) (m a o : Nat) : Bool :=
  s.regionTrap m 1 t.weightOff (spanLines f.wfmt * 2048) remoteRead == 0 && s.regionTrap a 0 t.actOff 65536 remoteRead == 0
    && s.regionTrap o 0 t.outOff 2048 remoteRead == 0

/-- Offset in a checking S-tile's scratchpad of the spans it copies. -/
def shadowBase (n : Nat) : Nat := 64 * (Config.shadowRow n % (0x4000 - 0x680))

/-- The copies of a tap into the scratchpad of checking S-tile `n`, roof words, activations and outputs one behind the other, and its
reference (R171 to R173): the state after them, and the result. -/
def State.shadowCheck (s : State) (f : Fmt) (t : Tap) (n m a o : Nat) : (Bool × Bool) × State :=
  let r := s.getWords m (2048 * s.halfLine m (t.weightOff / 2048) + t.weightOff % 2048) (spanLines f.wfmt * 32)
  let ws := cells 68 (spanLines f.wfmt * 32) r.1
  let x := r.2.readCoded a (spadKey a t.actOff) t.actOff 65536
  let y := x.2.readCoded o (spadKey o t.outOff) t.outOff 2048
  let z := y.2.channelScales (m / 144) (s.weightHalf m) t.layer t.row0 32 false
  let copied := z.2.writeSpad n (shadowBase n) (r.1 ++ x.1 ++ y.1)
  let acts := cells 2 32768 x.1
  let outs := cells 4 512 y.1
  let rows := (List.range 32).map fun w =>
    (rowWeights f ((List.range (spanLines f.wfmt)).map fun l => ws.getD (32 * l + w) 0), z.1.getD w 0)
  let lanes := (List.range 16).map fun l => (List.range 2048).map fun i => acts.getD (16 * i + l) 0
  let ys := (List.range 16).flatMap fun l => (List.range 32).map fun w =>
    let row := rows.getD w ([], 0)
    (outs.getD (16 * w + l) 0, reference row.1 (lanes.getD l []) row.2)
  (verdictOf f.threshold (compareAll ys), copied)

/-- The schedule clock of the sample's turn has passed an offset of its tap (R169, R171). -/
def State.pastOffset (s : State) (x : Sample) (off : Nat) : Bool := decide (x.turn < s.turnNo) || decide (off < s.clockCycle)

/-- R171, R172: the copies complete, between the write offset and the release offset, and the checking S-tile computes the
reference; after the release offset the sample is missed. -/
def execShadowCopyComplete (dt c : Nat) (s : State) : Res :=
  let s := s.pass dt
  .next <|
    match s.sample? c, s.img.image with
    | some x, some i =>
      match i.taps[x.tap]? with
      | none => s
      | some t =>
        match s.tileOf (t.mLc * 256 + t.mLt), s.tileOf (t.aLc * 256 + t.aLt), s.tileOf (t.oLc * 256 + t.oLt) with
        | some m, some a, some o =>
          let f := s.fmt t.layer
          if x.result.isSome ∨ !s.pastOffset x t.writeOff then s
          else if !s.pastOffset x t.releaseOff ∧ s.tapReadable f t m a o then
            let r := s.shadowCheck f t x.by_ m a o
            r.2.setServ fun v => { v with samples := v.samples.map fun (y : Sample) => if y.coach = c then { y with result := some r.1 } else y }
          else s.missSample c
        | _, _, _ => s.missSample c
    | _, _ => s

/-- R171: the release offset passes before the copies complete, or a read receives an error response. -/
def execShadowSampleMissed (dt c : Nat) (s : State) : Res :=
  let s := s.pass dt
  .next <| match s.sample? c with | some x => if x.result.isNone then s.missSample c else s | none => s

/-- R176: every format layer has `pressure` set. -/
def State.modelPressure (s : State) : State :=
  let n := s.get HEAD_SHADOW_CTRL.layers
  if !s.flag HEAD_SHADOW_CTRL.model_pressure ∧ (List.range n).all (fun l => s.flag (HEAD_FMT_STATUS.pressure.ix l)) then
    (s.setFlag HEAD_SHADOW_CTRL.model_pressure true).raiseHead 129 n 0
  else s

/-- R174: an exceedance of layer l is counted; past P the layer has format pressure. Every count above P passes it, so the flags that
the host has cleared in a window are set again by its next exceedance, and that setting counts for R176; the event is raised once a
window (DESIGN CHOICE, log entry 50). -/
def State.exceed (s : State) (l : Nat) (nf : Bool) : State :=
  let s1 := s.inc (HEAD_FMT_STATUS.window_exceed.ix l)
  let n := s1.get (HEAD_FMT_STATUS.window_exceed.ix l)
  if n ≤ (s.fmt l).limit then s1
  else
    let s2 := (s1.setFlag (HEAD_FMT_STATUS.pressure.ix l) true).iff nf fun t => t.setFlag (HEAD_FMT_STATUS.nonfinite.ix l) true
    let s3 := if s.serv.pressed.contains l then s2
      else (s2.setServ fun v => { v with pressed := l :: v.pressed }).raiseHead 128 l n
    s3.modelPressure

/-- The turn of a sample is being voided: its tap data came from work that is voided (R175). -/
def State.sampleVoid (s : State) (x : Sample) : Bool :=
  x.turn == s.turnNo && (s.turn.voidSeen || s.turn.holds.any fun h => h.cause == 6 && (match h.withdraw with | none => true | some r => decide (s.spoke < r + s.lead)))

/-- R174: a sample's comparison completes and is counted; one from before the layer's last recipe change is discarded (R165), and
one of a voided turn is not counted (R175). -/
def execShadowCompareComplete (dt c : Nat) (s : State) : Res :=
  let s := s.pass dt
  .next <|
    match s.sample? c, s.img.image with
    | some x, some i =>
      match i.taps[x.tap]?, x.result with
      | some t, some r =>
        if s.sampleVoid x then s.dropSample c else
        let l := t.layer
        let w := max 1 (s.fmt l).window
        let old := s.flag (HEAD_FMT_INFO.changed.ix l) && decide (x.turn < s.get (HEAD_FMT_INFO.last_change.ix l))
        let s1 := ((s.dropSample c).inc (HEAD_FMT_STATUS.samples.ix l)).inc HEAD_SHADOW_STATS.completed
        if r.1 ∧ !old ∧ x.turn / w = s.turnNo / w then s1.exceed l r.2 else s1
      | _, _ => s
    | _, _ => s

end Sys2Proof.Machine
end

