-- ==== Sys2Proof/Machine/Sensors.lean ====
section
/-! DEFINITION. What the thermal sensors read, and the heater work of warm idle (R472 to R474, R476, R486). -/

namespace Sys2Proof.Machine

/-- A 12-bit two's complement reading, in quarter degrees (R472). -/
def quarter (v : Nat) : Int := if v < 2048 then v else (v : Int) - 4096

/-- The 12-bit code of a temperature. -/
def quarterCode (t : Int) : Nat := (t % 4096).toNat

/-! ### Sensors (R472 to R476) -/

/-- Power domain that a sensor lies in (R452, R472). -/
def sensorDomain (n : Nat) : Nat :=
  if n < 256 then 4 * (n / 4) + (if n % 4 < 2 then 0 else 3) else if n < 384 then 256 + (n - 256) / 2 else 368 + (n - 384)

/-- A sensor in use: not excluded, failed or off, and not on the analogue test bus (R474, R574). -/
def State.sensorIn (s : State) (n : Nat) : Bool := s.get (THM_SENSOR.state.ix n) == 0 && !s.thm.atb.contains n

/-- Last reading of a sensor. -/
def State.readingOf (s : State) (n : Nat) : Int := quarter (s.get (THM_SENSOR.reading.ix n))

/-- The reference of hot spot h = 2 × c + i: its roof sensor plus the learned offset (R476); none before one is learned. -/
def State.referenceOf (s : State) (h : Nat) : Option Int :=
  match Sparse.find s.thm.offsets h with
  | none => none
  | some o => if s.sensorIn (256 + h) then some (s.readingOf (256 + h) + (o : Int) - 4096) else none

/-- The governing reading of a hot spot (R474). -/
def State.governing (s : State) (h : Nat) : Int :=
  let a := 2 * h
  match s.sensorIn a, s.sensorIn (a + 1) with
  | true, true => max (s.readingOf a) (s.readingOf (a + 1))
  | true, false => s.readingOf a
  | false, true => s.readingOf (a + 1)
  | false, false => match s.referenceOf h with | some r => r + 20 | none => 420

/-- The governing reading of a roof: the hotter of its sensors in use. -/
def State.roofReading (s : State) (c : Nat) : Option Int :=
  match s.sensorIn (256 + 2 * c), s.sensorIn (257 + 2 * c) with
  | true, true => some (max (s.readingOf (256 + 2 * c)) (s.readingOf (257 + 2 * c)))
  | true, false => some (s.readingOf (256 + 2 * c))
  | false, true => some (s.readingOf (257 + 2 * c))
  | false, false => none

/-- Hot spots of the coaches that are on. -/
def State.hotSpots (s : State) : List Nat := (List.range 128).filter fun h => s.coachOn (h / 2) || (s.get THM_STATUS.state == 3 && s.get (PWR_DOM_STATE.state.ix (4 * (h / 2))) == 2)

/-- The hottest junction and its coach, ties to the lowest; none while no coach is on. -/
def State.hottest (s : State) : Option (Int × Nat) :=
  s.hotSpots.foldl (fun (a : Option (Int × Nat)) h =>
    match a with
    | none => some (s.governing h, h / 2)
    | some x => if x.1 < s.governing h then some (s.governing h, h / 2) else some x) none

/-! ### Warm idle (R486) -/

/-- Coaches on which the guards run heater work: warm idle is enabled, the device is not in the hold state, and the coach is on, holds
no logical tile of a running image and reads below `warm_min` on every hot spot (R486). -/
def State.heating (s : State) : List Nat :=
  if s.flag THM_CTRL.warm ∧ s.get THM_STATUS.state < 3 then
    (List.range 64).filter fun c => s.coachOn c && !(s.running && s.img.place.any fun p => decide (p.2 < 9216 ∧ p.2 / 144 = c))
      && decide (max (s.governing (2 * c)) (s.governing (2 * c + 1)) < 4 * (s.get THM_CTRL.warm_min : Int))
  else []

/-- Heater power, at most 60 W in a coach (R486); how much of it a coach draws is a free value (DESIGN CHOICE, log entry 67). -/
def State.heaterPower (s : State) : Nat := ((s.heating).map fun c => min 60 (Config.heaterWatts s.spoke c)).sum

end Sys2Proof.Machine
end

