-- ==== Sys2Proof/Machine/Power.lean ====
section
/-! DEFINITION. Rails, set points, switched domains, the current plan and the power governor (R445 to R470, R581). -/

namespace Sys2Proof.Machine

/-! ### Records of the plan (R456) -/

/-- The plan record of the logical coach that physical coach c holds. -/
def State.coachRec (s : State) (c : Nat) : Option CoachRec :=
  match s.img.image, s.logicalCoach c with
  | some i, some lc => i.power.recs.find? fun r => r.lc == lc
  | _, _ => none

/-- Rush current of a coach; 120 A without a record (R462). -/
def State.rushOf (s : State) (c : Nat) : Nat := match s.coachRec c with | some r => r.rush | none => 120

/-- Neighbour limit of a coach; 440 A without a record (R462). -/
def State.neighLimit (s : State) (c : Nat) : Nat := match s.coachRec c with | some r => r.neigh | none => 440

/-- Rush budget: of the image, or 480 A while none is loaded (R543). -/
def State.rushBudget (s : State) : Nat := match s.img.image with | some i => i.power.rush | none => 480

/-- Value of a curve at step k, in mV. -/
def curveAt (p : PowerSec) (v k : Nat) : Nat := (p.curves.getD v []).getD (k - 48) 0

/-- A rail of a coach core or of a bay (R445). -/
def isCore (r : Nat) : Bool := r < 64
def isBay (r : Nat) : Bool := 0x80 ≤ r && r < 0x98

/-- Curve and plan peak of a rail; a coach with no record uses curve 0 and holds no work (DESIGN CHOICE, log entry 33). -/
def State.railCurve (s : State) (r : Nat) : Nat :=
  match s.img.image with
  | none => 0
  | some i => if isBay r then i.power.bayCurve else match s.coachRec r with | some x => x.curve | none => 0
def State.railPeak (s : State) (r : Nat) : Nat :=
  match s.img.image with
  | none => 0
  | some i => if isBay r then i.power.bayPeak else match s.coachRec r with | some x => x.iPeak | none => 0

/-- The fused trim of a rail, from −50 to +50 mV, and its trim, in units of 0.5 mV above −75 mV (R450). -/
def fusedTrim (r : Nat) : Nat := 50 + min 200 (Config.fusedTrim r)
def State.trim (s : State) (r : Nat) : Nat := (Sparse.find s.pwr.trims r).getD (fusedTrim r)

/-- Set point of a core or bay rail at step k, in mV (R449); the half millivolt of a trim is rounded down (DESIGN CHOICE, log entry 33). With no
image, 750 mV plus the trim (R543). -/
def State.setPoint (s : State) (r k : Nat) : Nat :=
  let base := match s.img.image with | none => 750 | some i => curveAt i.power (s.railCurve r) k
  max 600 (min 850 ((2 * base + s.trim r - 150) / 2))

/-- Core and bay rails that are not of a dark unit. -/
def State.liveRails (s : State) : List Nat :=
  ((List.range 64).filter fun c => !s.rep.isolated.contains c)
    ++ ((List.range 24).filter fun b => !s.rep.darkBays.contains b).map (0x80 + ·)

/-- Send every set point for step k (R449). -/
def State.sendSetPoints (s : State) (k : Nat) : State := s.liveRails.foldl (fun t r => t.sendRail r 1 (s.setPoint r k)) s

/-! ### The requested step (R449, R460, R481) -/

/-- A rail has `bus_fault` (R448). -/
def State.anyBusFault (s : State) : Bool := (List.range 0xB5).any fun r => s.flag (PWR_RAIL_STATUS.bus_fault.ix r)

/-- The lowest of the requests of R460, and no step above the one in effect while a rail has `bus_fault` (R448). -/
def State.wantStep (s : State) : Nat :=
  let w := min (min (s.get PWR_GOV.gov_step) (s.get PWR_GOV.derate_step)) (min (s.get PWR_GOV.cap_active) (s.get THM_STATUS.therm_step))
  let w1 := if s.flag HEAD_IMAGE_STATUS.debug then min w 48 else w
  if s.anyBusFault then min w1 s.k else w1

/-- The step this device requests: none above the one whose set points have settled (R70, R449). -/
def State.requestStep (s : State) : Nat := min s.wantStep (max s.k s.turn.settled)

/-- Send the set points of a higher step that is wanted and not settled (R449). -/
def State.askStep (s : State) : State :=
  let w := s.wantStep
  if max s.k s.turn.settled < w ∧ s.pwr.asked ≠ some w then
    let s1 := s.sendSetPoints w
    { s1 with pwr := { s1.pwr with asked := some w, answered := none } }
  else if w ≤ s.k then { s with pwr := { s.pwr with asked := none, answered := none } }
  else s

/-- R449: 100 µs after the last SET for a higher step was answered, the device requests that step. -/
def execSetPointSettled (dt : Nat) (s : State) : Res :=
  let s := s.pass dt
  .next <|
    match s.pwr.asked, s.pwr.answered with
    | some w, some t =>
      if t + usTicks 100 ≤ s.ticks then
        { s with turn := { s.turn with settled := w }, pwr := { s.pwr with asked := none, answered := none } }
      else s
    | _, _ => s

/-! ### Derating (R455, R466, R467) -/

/-- A natural number as FP32. -/
def nat32 (n : Nat) : Nat := round32 false n 1 0

/-- Good phases of a core or bay rail as of the last STATUS read, with the loss of R455. -/
def State.goodPhases (s : State) (r : Nat) : Nat :=
  let g := s.get (PWR_RAIL_STATUS.phases_good.ix r)
  if s.pwr.twoLess.contains r then min g 10 else g

/-- The inequality of R467 holds at step k. -/
def State.capOk (s : State) (r g k : Nat) : Bool :=
  match s.img.image with
  | none => true
  | some i =>
    let v := s.railCurve r
    let x := mul32 (mul32 (nat32 (s.railPeak r)) (div32 (nat32 k) (nat32 95))) (div32 (nat32 (curveAt i.power v k)) (nat32 (curveAt i.power v 95)))
    !lt32 (nat32 (40 * g)) x

/-- Cap of a derated rail: the largest step that satisfies R467, none when no step does. -/
def State.capOf (s : State) (r g : Nat) : Option Nat :=
  (((List.range 48).map fun j => 95 - j).find? fun k => s.capOk r g k)

/-- `derate_step` at a boundary: the least cap over the rails with 10 or 9 good phases. -/
def State.derate (s : State) : State :=
  let rs := s.liveRails.filter fun r => s.get (PWR_RAIL_STATUS.phases_fitted.ix r) != 0 && (s.goodPhases r == 9 || s.goodPhases r == 10)
  s.set PWR_GOV.derate_step ((rs.map fun r => match s.capOf r (s.goodPhases r) with | some k => k | none => 48).foldl min 95)

/-- A bay goes dark (R468): its two P-tile domains, with one defect-map entry; when the running image uses them, a repair failure. -/
def State.darkBay (s : State) (b : Nat) : State :=
  if s.rep.darkBays.contains b then s
  else
    let w := defectWord 9 (0x80 + b) 0 0
    let used := (bayTiles b).any fun n => (s.logicalOf n).isSome
    let s1 := ((s.set (PWR_DOM_STATE.state.dom (320 + 2 * b)) 4).set (PWR_DOM_STATE.state.dom (321 + 2 * b)) 4).addDefect w
    let s2 := (s1.setTiles ((bayTiles b).filter fun n => s.get (TILE_STATE.state.tile n) != 4) 0).sendRail (0x80 + b) 5 0
    let s3 := { s2 with rep := { s2.rep with darkBays := s2.rep.darkBays ++ [b] } }
    let s4 := (bayTiles b).foldl (fun t n => (t.wipe (tileBase n + 0x8000000) (tileBase n + 0x8000000 + spadBytes n)).wipe (accKey n 0) (accKey (n + 1) 0)) s3
    if s.turning ∧ used then s4.repairFail w [] else s4

/-- A coach or a bay is shorted (R468), or its rail has 8 or fewer good phases (R466): headers open, the turn voided, the coach lost. -/
def State.shorted (s : State) (r : Nat) : State :=
  if isBay r then s.darkBay (r - 0x80)
  else if r < 0x80 then
    if s.rep.isolated.contains (r % 64) then s else (s.voidMore).loseCoach (r % 64) 2
  else s

/-- A core or bay rail has g good phases; it had `old` (R466, R467). -/
def State.phases (s : State) (r old : Nat) : State :=
  if !isCore r ∧ !isBay r then s
  else
    let g := s.goodPhases r
    let s1 := if g ≤ 11 ∧ g ≠ old then s.raiseHead 23 r g else s
    if g ≤ 8 ∨ (g ≤ 10 ∧ (s.capOf r g).isNone) then s1.shorted r else s1

/-! ### The rail bus (R447, R448) -/

/-- A transaction to a rail succeeded. -/
def State.railDone (s : State) (r : Nat) : State :=
  { s with pwr := { s.pwr with failures := Sparse.drop s.pwr.failures r } }.setFlag (PWR_RAIL_STATUS.bus_fault.ix r) false

/-- A transaction failed: retried, and after the third failure `bus_fault` and RAIL_FAULT. -/
def State.railFailed (s : State) (r req : Nat) : State :=
  let n := (Sparse.find s.pwr.failures r).getD 0 + 1
  if n < 3 then { s with pwr := { s.pwr with failures := Sparse.put s.pwr.failures r n, bus := s.pwr.bus ++ [req] } }
  else
    let s1 := { s with pwr := { s.pwr with failures := Sparse.drop s.pwr.failures r, asked := none, answered := none } }
    (s1.setFlag (PWR_RAIL_STATUS.bus_fault.ix r) true).raiseHead 20 r 0

/-- What a good response says. -/
def State.railAnswer (s : State) (r op data : Nat) : State :=
  match op with
  | 1 =>
    if s.pwr.asked.isSome ∧ !(s.pwr.bus.any fun q => bits q 28 4 == 1) then { s with pwr := { s.pwr with answered := some s.ticks } } else s
  | 2 => s.set (PWR_RAIL_STATUS.read_mv.ix r) data
  | 3 => s.set (PWR_RAIL_STATUS.current.ix r) data
  | 4 =>
    let old := s.goodPhases r
    let f (x : Fld) (lo w : Nat) (t : State) : State := t.set (x.ix r) (bits data lo w)
    let s1 := f PWR_RAIL_STATUS.fuse_open 15 1 (f PWR_RAIL_STATUS.overcurrent 14 1 (f PWR_RAIL_STATUS.input_uv 13 1
      (f PWR_RAIL_STATUS.phases_fitted 4 4 (f PWR_RAIL_STATUS.phases_good 0 4 s))))
    if data.testBit 15 then s1.shorted r else s1.phases r old
  | _ => s

/-- R448: the response to a request on a rail bus. -/
def execRailBusResponse (dt : Nat) (r : Resp) (s : State) : Res :=
  let s := s.pass dt
  .next <|
    if s.pwr.bus.contains r.req then
      let s1 := { s with pwr := { s.pwr with bus := s.pwr.bus.erase r.req } }
      let rail := bits r.req 32 8
      if crc8 (r.rsp / 256) ≠ r.rsp % 256 ∨ bits r.rsp 32 8 ≠ rail then s1.railFailed rail r.req
      else
        let s2 := s1.railDone rail
        if bits r.rsp 28 4 = 0 then s2.railAnswer rail (bits r.req 28 4) (bits r.rsp 12 16) else s2
    else s

/-- EXTEST suspends transactions (R570). -/
def State.busSuspended (s : State) : Bool := s.extest

/-- R448: RB_ALERT_N of a bus falls; the status of every rail on it is read. -/
def execRailAlert (dt bus : Nat) (s : State) : Res :=
  let s := s.pass dt
  .next <| if s.busSuspended then s else ((List.range 0xB5).filter fun r => r % 4 == bus).foldl (fun t r => t.sendRail r 4 0) s

/-- R448: a rail's status interval ends; its voltage and current are read with it (DESIGN CHOICE, log entry 33). -/
def execRailStatusPoll (dt rail : Nat) (s : State) : Res :=
  let s := s.pass dt
  .next <| if s.busSuspended ∨ 0xB5 ≤ rail then s else ((s.sendRail rail 4 0).sendRail rail 2 0).sendRail rail 3 0

/-! ### Droops and shorts (R454, R455, R468) -/

/-- Rail that feeds a quadrant or P-tile domain. -/
def domainRail (d : Nat) : Option Nat := if d < 256 then some (d / 4) else if 320 ≤ d ∧ d < 368 then some (0x80 + (d - 320) / 2) else none

/-- A voltage monitor samples (R454). -/
def State.sampleVolts (s : State) (d mv : Nat) : State :=
  let s1 := s.set (PWR_DOM_STATE.vnow.ix d) mv
  if mv < s.get (PWR_DOM_VMIN.vmin.ix d) then
    ((s1.set (PWR_DOM_VMIN.vmin.ix d) mv).set (PWR_DOM_VMIN.spoke_cycle.ix d) s.spokeCycle).set (PWR_DOM_VMIN_TIME.axle.ix d) s.count
  else s1

/-- Note a droop of a domain in this turn; three turns in a row count as two phases lost (R455). -/
def State.droopTurns (s : State) (d r : Nat) : State :=
  if s.turning then
    let t := s.turnNo
    let last := Sparse.find s.pwr.droopTurn d
    let n := if last = some t then (Sparse.find s.pwr.droopRun d).getD 0
      else if last = some (t - 1) ∧ 0 < t then (Sparse.find s.pwr.droopRun d).getD 0 + 1 else 1
    let s1 := { s with pwr := { s.pwr with droopTurn := Sparse.put s.pwr.droopTurn d t, droopRun := Sparse.put s.pwr.droopRun d n } }
    if 3 ≤ n ∧ !s.pwr.twoLess.contains r then
      let old := s1.goodPhases r
      { s1 with pwr := { s1.pwr with twoLess := r :: s1.pwr.twoLess } }.phases r old
    else s1
  else s

/-- R454, R455: a domain's sample of `mv` millivolts; below V(k) − 40 mV it is a droop. -/
def execPowerDroop (dt d mv : Nat) (s : State) : Res :=
  let s := (s.pass dt).sampleVolts d mv
  .next <|
    match domainRail d with
    | none => s
    | some r =>
      if s.get (PWR_DOM_STATE.state.ix d) = 2 ∧ s.get THM_STATUS.state < 2 ∧ mv + 40 < s.setPoint r s.k then
        (((s.inc (PWR_DOM_STATE.droops.ix d)).raiseHead 21 d mv).voidTurn).droopTurns d r
      else s

/-- R468: the supply of a rail's unit collapses below 0.450 V. -/
def execSupplyShort (dt rail : Nat) (s : State) : Res := .next <| (s.pass dt).shorted rail

/-! ### The POWER hold and the governor (R459, R460) -/

/-- The average of R459 over the last 64 spokes: what coaches and bays draw, `watts`, with the heater work beside it (R486). -/
def State.averagePower (s : State) (watts : Nat) : Nat := watts + s.heaterPower

/-- R459: the plan is exceeded in this spoke; `watts` is the average over the last 64 spokes without heater work. -/
def execPowerLimitExceeded (dt watts : Nat) (s : State) : Res :=
  let p := s.pass dt
  let s := p.set PWR_GOV.avg_power (p.averagePower watts)
  .next <|
    if s.running ∧ !s.holding 4 then
      let s1 := (s.raiseHold 4 (coordHead 0)).inc PWR_GOV.power_holds
      { s1 with pwr := { s1.pwr with holdAt := some s.spoke } }
    else s

/-- R459: neither condition has held for 8 spokes, or 64 have passed since the raise. -/
def execPowerHoldRelease (dt watts : Nat) (s : State) : Res :=
  let p := s.pass dt
  let s := p.set PWR_GOV.avg_power (p.averagePower watts)
  .next <|
    match s.pwr.holdAt with
    | some a => if s.holding 4 ∧ a + 8 ≤ s.spoke ∧ (p.averagePower watts ≤ s.get PWR_PLAN.budget ∨ a + 64 ≤ s.spoke) then
        { s.withdrawHolds 4 fun _ => true with pwr := { s.pwr with holdAt := none } }
      else s
    | none => s

/-- The governor at the boundary that ends a turn of `len` spokes, `held` of them with a POWER hold in force (R460). -/
def State.govern (s : State) (held len : Nat) : State :=
  let h := ((held, len) :: s.turn.powerSpokes).take 1024
  let a := (h.map (·.1)).sum
  let n := (h.map (·.2)).sum
  let q := if held = 0 then s.turn.quietTurns + 1 else 0
  let g := s.get PWR_GOV.gov_step
  let g1 := if n < 100 * a then max 48 (g - 1) else if 4096 ≤ q then min 95 (g + 1) else g
  { s with turn := { s.turn with powerSpokes := h, quietTurns := if 4096 ≤ q then 0 else q } }.set PWR_GOV.gov_step g1

/-- Adaptive trims: one step of 2.5 mV per 1,024 turns, within 25 mV of the fused value (R450). -/
def State.adaptTrims (s : State) (l : List (Nat × Bool)) : State :=
  l.foldl (fun (t : State) (x : Nat × Bool) =>
    let ready : Bool := match Sparse.find t.pwr.trimTurn x.1 with | none => true | some u => decide (u + 1024 ≤ t.turnNo)
    let v := if x.2 then t.trim x.1 + 5 else t.trim x.1 - 5
    if ready = true ∧ (if x.2 then v ≤ fusedTrim x.1 + 50 else fusedTrim x.1 ≤ t.trim x.1 + 45) then
      { t with pwr := { t.pwr with trims := Sparse.put t.pwr.trims x.1 v, trimTurn := Sparse.put t.pwr.trimTurn x.1 t.turnNo } }
    else t) s

/-! ### Switching coaches (R461 to R465, R581) -/

/-- Neighbours of a coach (R24). -/
def coachNeighbours (c : Nat) : List Nat :=
  (if 8 ≤ c then [c - 8] else []) ++ (if c < 56 then [c + 8] else []) ++ (if 0 < c % 8 then [c - 1] else []) ++ (if c % 8 < 7 then [c + 1] else [])

/-- Switch coaches to a new active copy: those whose bit falls go off at once, those whose bit rises wait to start (R461, R465). -/
def State.applyCoachOn (s : State) (v : Nat) : State :=
  let old := s.get PWR_COACH_ACTIVE.on
  let new := ((List.range 64).filter fun c => v.testBit c && !s.rep.isolated.contains c).foldl (fun a c => a + 2 ^ c) 0
  let s1 := (List.range 64).foldl (fun t c =>
    if old.testBit c && !new.testBit c && !s.rep.isolated.contains c then t.openCoach c 0 else t) (s.set PWR_COACH_ACTIVE.on new)
  let up := (List.range 64).filter fun c => !old.testBit c && new.testBit c
  { s1 with pwr := { s1.pwr with waiting := s1.pwr.waiting ++ up } }

/-- Coaches that may start at this boundary start, in ascending number; `drew` gives the largest current that a coach drew in a spoke
of the turn that ends (R462). -/
def State.startCoaches (s : State) (drew : List (Nat × Nat)) : State :=
  let hot := (drew.filter fun x => decide (s.neighLimit x.1 < x.2)).map (·.1)
  let s0 := { s with pwr := { s.pwr with fresh := [] } }
  (((List.range 64).filter fun c => s.pwr.waiting.contains c)).foldl (fun t c =>
    let rush := (t.pwr.powering.map fun (p : PowerUp) => p.rush).sum
    if rush + t.rushOf c ≤ t.rushBudget ∧ !(coachNeighbours c).any (fun d => hot.contains d) then
      let t1 := (coachDomains c).foldl (fun u d => if u.get (PWR_DOM_STATE.state.dom d) = 2 then u else (u.set (PWR_DOM_STATE.state.dom d) 1).set (PWR_DOM_STATE.stage.dom d) 0) t
      { t1 with pwr := { t1.pwr with powering := t1.pwr.powering ++ [(⟨c, s.spoke, s.spoke, t.rushOf c⟩ : PowerUp)], waiting := t1.pwr.waiting.filter (· != c) } }
    else t) s0

/-- The power-up of a coach. -/
def State.powerUp? (s : State) (c : Nat) : Option PowerUp := s.pwr.powering.find? fun p => p.coach == c

/-- Domains of a coach whose headers are closing: a roof that was retained is on already. -/
def State.closing (s : State) (c : Nat) : List Nat := (coachDomains c).filter fun d => s.get (PWR_DOM_STATE.state.dom d) == 1

/-- R463: the stage's time and voltages hold; after stage 4 the domains are on and the coach's tiles reset. -/
def execPowerOnStageAdvance (dt c : Nat) (s : State) : Res :=
  let s := s.pass dt
  .next <|
    match s.powerUp? c with
    | none => s
    | some p =>
      let st := s.get (PWR_DOM_STATE.stage.dom (4 * c))
      if st < 3 then
        if p.from_ + 8 * (st + 1) ≤ s.spoke then
          let s1 := (s.closing c).foldl (fun t d => t.set (PWR_DOM_STATE.stage.dom d) (st + 1)) s
          { s1 with pwr := { s1.pwr with powering := s1.pwr.powering.map fun (q : PowerUp) => if q.coach = c then { q with stageAt := s.spoke } else q } }
        else s
      else if p.stageAt + 2 ≤ s.spoke then
        let s1 := (s.closing c).foldl (fun t d => ((t.set (PWR_DOM_STATE.state.dom d) 2).set (PWR_DOM_STATE.stage.dom d) 0).inc (PWR_DOM_STATE.switch_ons.dom d)) s
        { s1 with pwr := { s1.pwr with powering := s1.pwr.powering.filter fun (q : PowerUp) => q.coach != c, resetting := s1.pwr.resetting ++ [c] } }
      else s

/-- Repairs into coach c choose again, as it does not fit (R424, R432, R464). -/
def State.retarget (s : State) (c : Nat) : State :=
  match s.img.image with
  | none => s
  | some i =>
    let rs := s.rep.rebuilds.filter fun r => r.target == c
    let js := s.rep.jobs.filter fun j => j.target / 144 == c && j.target < 9216 && !(rs.any fun r => r.lc == j.key / 256)
    let s1 := { s with rep := { s.rep with
      rebuilds := s.rep.rebuilds.filter fun (r : Rebuild) => r.target != c,
      resetting := s.rep.resetting.filter (· != c),
      jobs := s.rep.jobs.filter fun (j : RepJob) => !(decide (j.target / 144 = c ∧ j.target < 9216)) } }
    let s2 := rs.foldl (fun t r => t.rebuild i r.lc r.lost r.cmd) s1
    js.foldl (fun t j =>
      match t.chooseSite i j.key j.lost with
      | none => t.loseCoach (j.lost / 144) 3
      | some m => t.startJob i j.key j.lost m false) s2

/-- R464: a stage does not advance within 200 spokes. -/
def execPowerOnFail (dt c : Nat) (s : State) : Res :=
  let s := s.pass dt
  .next <|
    match s.powerUp? c with
    | none => s
    | some p =>
      let st := s.get (PWR_DOM_STATE.stage.dom (4 * c))
      if st < 3 ∧ p.stageAt + 200 ≤ s.spoke then ((s.raiseHead 22 c (st + 1)).isolate c).retarget c else s

/-- Tiles of a coach are out of their reset: idle, unless they are failing. -/
def State.idleTiles (s : State) (c : Nat) : State := s.setTiles ((coachTiles c).filter fun n => s.get (TILE_STATE.state.tile n) != 4) 1

/-- R463: the tiles of a coach that powered on finish their reset; the coach is usable from the first boundary after it. -/
def execCoachTilesResetDone (dt c : Nat) (s : State) : Res :=
  let s := s.pass dt
  .next <|
    if s.pwr.resetting.contains c then
      let s1 := s.idleTiles c
      { s1 with pwr := { s1.pwr with resetting := s1.pwr.resetting.filter (· != c), fresh := c :: s1.pwr.fresh } }
    else s

/-! ### Shadows of the swap set (R77 to R82) -/

/-- `pending` of HEAD_SWAP_CTRL: host-written shadows await a boundary. -/
def State.syncPending (s : State) : State := s.setFlag HEAD_SWAP_CTRL.pending (s.turn.shadows.any fun x => x.host)

/-- A shadow was accepted before the boundary spoke that has begun and will take effect at it. -/
def State.settledShadow (s : State) (x : Shadow) : Bool := s.boundary?.any fun b => decide (x.tick < s.tickOf b)

/-- A shadow is written; an earlier one by the same writer for the same setting is replaced, but not one that takes effect at a
boundary whose spoke has begun (R78). -/
def State.putShadow (s : State) (k : SwapKey) (host : Bool) (v : Nat) : State :=
  { s with turn := { s.turn with shadows := (s.turn.shadows.filter fun (x : Shadow) => !(x.key == k && x.host == host) || s.settledShadow x)
    ++ [(⟨k, host, s.ticks, v⟩ : Shadow)] } }.syncPending

/-- `hold` of HEAD_SWAP_CTRL as it stood at tick `at_`: a write in that tick comes after it. -/
def State.swapHeld (s : State) (at_ : Nat) : Bool :=
  match (s.turn.holdLog.filter fun x => at_ ≤ x.1).getLast? with
  | none => s.flag HEAD_SWAP_CTRL.hold
  | some x => x.2

/-- Shadows that take effect at a boundary whose spoke began at tick `at_`: those accepted before it, host-written ones only
if `hold` was 0 then (R78, R81). -/
def State.dueShadows (s : State) (at_ : Nat) : List Shadow :=
  s.turn.shadows.filter fun x => decide (x.tick < at_) && (!x.host || !s.swapHeld at_)

/-- Coaches that a repair needs on (R461). -/
def State.repairCoaches (s : State) : List Nat :=
  ((s.rep.rebuilds.map fun (r : Rebuild) => r.target) ++ (s.rep.jobs.filter fun (j : RepJob) => decide (j.target < 9216)).map fun (j : RepJob) => j.target / 144).eraseDups

/-- The active copy of coach power-on after shadows: a coach that either writer leaves off stays off, but for a repair's (R80). -/
def State.coachOnAfter (s : State) (l : List Shadow) : Nat :=
  let vs := (l.filter fun x => x.key == .coachOn).map (·.value)
  let v := match vs with | [] => s.get PWR_COACH_ACTIVE.on | [a] => a | a :: b :: _ => a &&& b
  if s.running then s.repairCoaches.foldl (fun a c => if a.testBit c then a else a + 2 ^ c) v else v

/-- R581: while no image runs, at a count multiple of 64, coach power-on shadows take effect. -/
def execIdleBoundary (dt : Nat) (drew : List (Nat × Nat)) (s : State) : Res :=
  let s := s.pass dt
  .next <|
    if !s.running ∧ s.count % 64 = 0 then
      let l := (s.dueShadows s.ticks).filter fun x => x.key == .coachOn
      let s1 := { s with turn := { s.turn with shadows := s.turn.shadows.filter fun (x : Shadow) => !l.contains x } }.syncPending
      ((s1.applyCoachOn (s.coachOnAfter l)).startCoaches drew).failStopped
    else s

/-- R77: a guard writes the coach power-on shadow, within the current plan. -/
def execGuardCoachOnWrite (dt v : Nat) (s : State) : Res := .next <| (s.pass dt).putShadow .coachOn false (v % 2 ^ 64)

end Sys2Proof.Machine
end

