-- ==== Sys2Proof/Machine/Thermal.lean ====
section
/-! DEFINITION. Temperature sensing, the coolant report, the thermal governor, the hold state and work rotation (R472 to R489). -/

namespace Sys2Proof.Machine

/-- Slope limit and resume temperature in effect (R480). -/
def State.slopeLimit (s : State) : Nat := match s.img.image with | none => 8 | some i => i.thermal.slope
def State.resumeTemp (s : State) : Int := match s.img.image with | none => 380 | some i => i.thermal.resume

/-- A sensor fails (R473). -/
def State.failSensor (s : State) (n : Nat) : State :=
  (s.set (THM_SENSOR.state.ix n) 2).raiseHead 24 n (s.get (THM_SENSOR.reading.ix n))

/-- One sensor at a sampling: `v` is its answer (R472, R473). -/
def State.sampleSensor (s : State) (n : Nat) (v : Option Nat) : State :=
  let st := s.get (THM_SENSOR.state.ix n)
  let dom := s.get (PWR_DOM_STATE.state.ix (sensorDomain n))
  let noted (t : State) : State := { t with thm := { t.thm with answered := Sparse.put t.thm.answered n t.ticks } }
  if st = 2 then s
  else if dom ≠ 2 ∧ dom ≠ 3 then noted (s.set (THM_SENSOR.state.ix n) 3)
  else
    let s1 := if st = 3 then noted (s.set (THM_SENSOR.state.ix n) 0) else s
    match v with
    | none => match Sparse.find s1.thm.answered n with
      | none => noted s1
      | some t => if t + usTicks 1000 ≤ s1.ticks then s1.failSensor n else s1
    | some c =>
      let s2 := noted (s1.set (THM_SENSOR.reading.ix n) c)
      let s3 := if quarter (s2.get (THM_SENSOR.peak.ix n)) < quarter c then s2.set (THM_SENSOR.peak.ix n) c else s2
      if quarter c < -160 ∨ 600 < quarter c then s3.failSensor n else s3

/-- Difference of a hot spot's diodes, while neither is failed or off. -/
def State.pairDiff (s : State) (h : Nat) : Option Nat :=
  let ok (n : Nat) : Bool := s.get (THM_SENSOR.state.ix n) < 2 && !s.thm.atb.contains n
  if ok (2 * h) && ok (2 * h + 1) then some (s.readingOf (2 * h) - s.readingOf (2 * h + 1)).natAbs else none

/-- Follow how long the diodes of a hot spot have differed by more than 5 °C, and agreed within 2 °C (R475, R476), and its governing
reading over the last hour (R487). -/
def State.followPair (s : State) (h : Nat) : State :=
  let d := s.pairDiff h
  let apart := match d with | some x => decide (20 < x) | none => false
  let close := match d with | some x => decide (x ≤ 8) | none => false
  let start (m : Sparse Nat) (b : Bool) : Sparse Nat :=
    if b then (if (Sparse.find m h).isSome then m else Sparse.put m h s.ticks) else Sparse.drop m h
  let old := ((Sparse.find s.thm.hour h).getD []).filter fun x => decide (s.ticks ≤ x.1 + usTicks 3600000000)
  { s with thm := { s.thm with hour := Sparse.put s.thm.hour h ((s.ticks, (s.governing h + 4096).toNat) :: old), skewFrom := start s.thm.skewFrom apart, agreeFrom := start s.thm.agreeFrom close,
                               skewed := if apart then s.thm.skewed else s.thm.skewed.filter (· != h) } }

/-! ### The hold state (R482 to R485) -/

/-- The flow is low for the governor (R477, R478). -/
def State.flowLow (s : State) : Bool :=
  s.flag THM_COOL.lost || s.get THM_COOL.flow != 0 || decide (160 < quarter (s.get THM_COOL.inlet))

/-- The slope test of R482: the hottest junction exceeds its reading of 1 ms earlier by more than the limit. -/
def State.slopeMet (s : State) : Bool :=
  match s.thm.hist with
  | [] => false
  | x :: l =>
    match l.find? fun y => decide (y.1 + usTicks 1000 ≤ x.1) with
    | none => false
    | some y => decide (y.2 + s.slopeLimit < x.2)

/-- The exit conditions of R485 hold now. -/
def State.exitMet (s : State) : Bool :=
  !s.thm.throttled && !s.thm.stopped && s.get THM_COOL.flow == 0 && !s.flag THM_COOL.lost && !s.slopeMet
    && (s.hotSpots.all fun h => decide (s.governing h < s.resumeTemp))
    && (List.range 64).all fun c => match s.roofReading c with | some r => decide (r < s.resumeTemp) | none => true

/-- Follow how long the exit conditions have held. -/
def State.followExit (s : State) : State :=
  { s with thm := { s.thm with clearFrom := if s.exitMet then some (s.thm.clearFrom.getD s.ticks) else none } }

/-- A guard raises the THERMAL hold for a cause (R482): the device goes to the hold state. -/
def State.thermalHold (s : State) (cause : Nat) : State :=
  if s.get THM_STATUS.state < 2 then
    let s1 := { s.set THM_STATUS.state 2 with thm := { s.thm with cause := cause } }
    if s1.running ∧ !s1.holding 5 then s1.raiseHold 5 (coordHead 30) else s1
  else s

/-- The first shutdown stage (R484): every coach's quadrants go off; a running image stops. -/
def State.shutdown1 (s : State) : State :=
  let s1 := (List.range 64).foldl (fun t c =>
    if (List.range 4).any fun q => t.get (PWR_DOM_STATE.state.ix (4 * c + q)) == 2 then
      let a := (List.range 4).foldl (fun u q => u.set (PWR_DOM_STATE.state.ix (4 * c + q)) 0) t
      (a.setTiles ((coachTiles c).filter fun n => t.get (TILE_STATE.state.tile n) != 4) 0).loseQuadrants c
    else t) s
  let roofs := (List.range 64).filterMap fun c => (s.roofReading c).map fun r => (c, (r + 4096).toNat)
  let s2 := { s1.set THM_STATUS.state 5 with thm := { s1.thm with stageTick := s.ticks, stageRoof := roofs } }
  let s3 := s2.raiseHead 1 1 (s.get THM_STATUS.hottest)
  if s3.running then s3.stopImage.setImageState 2 else s3

/-- A hot spot rose 5 °C above its reading at hold entry, or reached 115 °C (R484). -/
def State.stageMet (s : State) : Bool :=
  s.hotSpots.any fun h => decide (460 ≤ s.governing h) ||
    (match Sparse.find s.thm.entry h with | some e => decide ((e : Int) - 4096 + 20 ≤ s.governing h) | none => false)

/-- A reading of 115 °C: of a hot spot of a coach that is on, or of any sensor in use (R484). -/
def State.tooHot (s : State) : Bool :=
  (s.hotSpots.any fun h => decide (460 ≤ s.governing h)) || (List.range 408).any fun n => s.sensorIn n && decide (460 ≤ s.readingOf n)

/-- R472, R473: the sensors are sampled; `l` holds the answers. The slope test, the reading of 115 °C and the stages of the
hold state follow from them (R482, R484). -/
def execSensorSample (dt : Nat) (l : List (Nat × Nat)) (s : State) : Res :=
  let s := s.pass dt
  let s1 := (List.range 408).foldl (fun t n => t.sampleSensor n (Sparse.find l n)) s
  let s2 := (List.range 128).foldl (fun t h => t.followPair h) s1
  .next <|
    match s2.hottest with
    | none => s2.followExit
    | some (t, c) =>
      let s3 := (s2.set THM_STATUS.hottest (quarterCode t)).set THM_STATUS.hot_coach c
      let hot := if 420 ≤ t ∧ s3.k = 48 then some (s3.thm.hotFrom.getD s3.ticks) else none
      let s4 := { s3 with thm := { s3.thm with hist := ((s3.ticks, (t + 4096).toNat) :: s3.thm.hist).take 16, hotFrom := hot } }
      let s5 := if s4.slopeMet then (s4.inc THM_COUNTS.slope_trips).thermalHold 3 else s4
      let s6 : State := if s5.tooHot then s5.thermalHold 5 else s5
      if s6.get THM_STATUS.state = 3 ∧ s6.stageMet then s6.shutdown1 else s6.followExit

/-- R475: the diodes of hot spot h have differed by more than 5 °C for more than 100 ms. -/
def execSensorSkew (dt h : Nat) (s : State) : Res :=
  let s := s.pass dt
  .next <|
    match Sparse.find s.thm.skewFrom h with
    | some t =>
      if t + usTicks 100000 < s.ticks ∧ !s.thm.skewed.contains h then
        let s1 := { s with thm := { s.thm with skewed := h :: s.thm.skewed } }
        (s1.inc THM_COUNTS.skews).raiseHead 25 h (s.get (THM_SENSOR.reading.ix (2 * h)) * 65536 + s.get (THM_SENSOR.reading.ix (2 * h + 1)))
      else s
    | none => s

/-- The reference of one hot spot, and its exclusions, which need a skew that SENSOR_SKEW has reported (R476; DEDUCED, log entry 64). -/
def State.updateReference (s : State) (h : Nat) : State :=
  let a := s.readingOf (2 * h)
  let b := s.readingOf (2 * h + 1)
  let both := s.sensorIn (2 * h) && s.sensorIn (2 * h + 1)
  let d := (a - b).natAbs
  let s1 := if both && decide (d ≤ 8) && s.sensorIn (256 + h) then
      { s with thm := { s.thm with offsets := Sparse.put s.thm.offsets h ((a + b) / 2 - s.readingOf (256 + h) + 4096).toNat } }
    else s
  let s2 := match s.referenceOf h with
    | none => s1
    | some r =>
      let na := (r - a).natAbs
      let nb := (r - b).natAbs
      if both && s.thm.skewed.contains h && decide (20 < d) && decide (min na nb ≤ 12) && na != nb then
        (s1.set (THM_SENSOR.state.ix (if na < nb then 2 * h + 1 else 2 * h)) 1).inc THM_COUNTS.exclusions
      else s1
  match Sparse.find s.thm.agreeFrom h with
  | some t => if t + usTicks 1000000 ≤ s.ticks then
      [2 * h, 2 * h + 1].foldl (fun u n => if u.get (THM_SENSOR.state.ix n) = 1 then u.set (THM_SENSOR.state.ix n) 0 else u) s2
    else s2
  | none => s2

/-- R476: once a second. -/
def execReferenceUpdate (dt : Nat) (s : State) : Res :=
  .next <| (List.range 128).foldl (fun t h => t.updateReference h) (s.pass dt)

/-! ### The coolant report and fast throttle (R477 to R479) -/

/-- An accepted assertion of FAST_THROTTLE by the input (0) or by a stopped-flow frame (1). -/
def State.fastThrottle (s : State) (by_ : Nat) : State :=
  ((s.inc THM_COUNTS.fast_asserts).raiseHead 28 by_ 0).thermalHold (by_ + 1)

/-- R477, R478: a frame of 40 bits on COOL_STAT. A run of stopped-flow frames is one assertion, and COOL_WARN is raised when the
inlet leaves its range (DEDUCED, log entry 34). -/
def execCoolStatFrame (dt v : Nat) (s : State) : Res :=
  let s := s.pass dt
  .next <|
    if crc8 (v / 256) ≠ v % 256 ∨ bits v 14 2 = 3 then s.inc THM_COOL.bad_frames
    else
      let s1 := (((s.inc THM_COOL.frames).setFlag THM_COOL.lost false).set THM_COOL.flow (bits v 14 2)).set THM_COOL.outlet (bits v 16 12)
      let s2 := s1.set THM_COOL.inlet (bits v 28 12)
      let t := quarter (bits v 28 12)
      let warm := decide (t < 100 ∨ 160 < t)
      let stop := bits v 14 2 == 2
      let s3 := { s2 with thm := { s2.thm with frameTick := s.ticks, warned := warm, stopped := stop } }
      let s4 := if warm && !s.thm.warned then s3.raiseHead 27 (bits v 28 12) 0 else s3
      (if stop && !s.thm.stopped then s4.fastThrottle 1 else s4).followExit

/-- R477: no valid frame for 10 ms. -/
def execCoolLost (dt : Nat) (s : State) : Res :=
  let s := s.pass dt
  .next <|
    if s.thm.frameTick + usTicks 10000 ≤ s.ticks ∧ !s.flag THM_COOL.lost then
      ((s.setFlag THM_COOL.lost true).raiseHead 26 0 0).followExit
    else s

/-- R479: the filter accepts the input as asserted. -/
def execFastThrottleIn (dt : Nat) (s : State) : Res :=
  let s := s.pass dt
  .next <|
    if s.thm.throttled then s
    else ({ s with thm := { s.thm with throttled := true } }.fastThrottle 0).followExit

/-- R479: the filter accepts the input as deasserted. -/
def execFastThrottleDeasserted (dt : Nat) (s : State) : Res :=
  let s := s.pass dt
  .next { s with thm := { s.thm with throttled := false } }.followExit

/-- R482: the hottest junction stayed at or above 105 °C for 10 ms while the step in effect is 48. -/
def execThermalSustained (dt : Nat) (s : State) : Res :=
  let s := s.pass dt
  .next <|
    match s.thm.hotFrom with
    | some t => if t + usTicks 10000 ≤ s.ticks ∧ s.k = 48 then s.thermalHold 4 else s
    | none => s

/-- Towers are in self refresh: in the hold state, and while the device is idle, which is taken to be while no image runs and no long
command does (R44; DESIGN CHOICE, log entry 54). They keep their contents, and no register shows it. -/
def State.selfRefreshing (s : State) : Bool := s.thm.selfRefresh || (!s.running && s.port.long.isNone && s.get HEAD_BOOT_STATUS.step == 10)

/-- Domains of the P-tiles. -/
def pDomains : List Nat := (List.range 48).map (320 + ·)

/-- What entering the hold state abandons: the parts of running copies, and a rotation (R483). -/
def State.abandonCopies (s : State) : State :=
  let lines (j : RepJob) : Nat := match s.img.image with | none => 0 | some i => if tileClass j.target = 0 then sliceLines i j.key else 0
  let adv := match s.rep.advance with
    | some a => if a.rotate then none else some { a with ready := false }
    | none => none
  let s1 := match s.rep.advance with
    | some a => if a.rotate then s.set (TILE_STATE.state.tile a.target) 1 else s
    | none => s
  let jobs := s.rep.jobs.map fun (j : RepJob) => { j with lines := lines j, refilled := false }
  { s1 with rep := { s1.rep with advance := adv, abandoned := !s.rep.jobs.isEmpty, jobs := jobs } }

/-- R483: the routers hold no flit, and the device enters the hold state. -/
def execHoldStateEntry (dt : Nat) (s : State) : Res :=
  let s := s.pass dt
  .next <|
    if s.get THM_STATUS.state = 2 ∧ s.net.fly.isEmpty ∧ s.net.hops.isEmpty ∧ s.net.bufs.isEmpty then
      let on := (List.range 64).filter fun c => s.coachOn c
      let s1 := s.abandonCopies
      let s2 := { s1 with boot := { s1.boot with gated := s1.boot.gated ++ on.map fun c => (3, c) } }
      let s3 := on.foldl (fun t c => ((t.sendRail c 1 600).sendRail (0x40 + c) 1 600).set (PWR_DOM_STATE.state.ix (256 + c)) 3) s2
      let s4 := pDomains.foldl (fun t d => if t.get (PWR_DOM_STATE.state.ix d) = 2 then t.set (PWR_DOM_STATE.state.ix d) 0 else t) s3
      let s5 := (List.range 768).foldl (fun t k =>
        let n := 9216 + k
        (t.wipe (tileBase n + 0x8000000) (tileBase n + 0x8000000 + spadBytes n)).wipe (accKey n 0) (accKey (n + 1) 0)) s4
      let entry := s5.hotSpots.map fun h => (h, (s.governing h + 4096).toNat)
      let s6 := { s5.set THM_STATUS.state 3 with thm := { s5.thm with selfRefresh := true, entryTick := s.ticks, entry := entry, clearFrom := none } }
      let s6 := s6.setServ fun v => { v with dropNow := v.round.isSome }
      let s7 : State := ((s6.inc THM_COUNTS.holds).raiseHead 30 s.thm.cause 0).followExit
      if s.thm.cause = 5 ∨ s7.tooHot then s7.shutdown1 else s7
    else s

/-- R484: 10 ms after the first stage, a roof still rises or a reading is at or above 115 °C: every roof goes off. -/
def execRoofShutdownCheck (dt : Nat) (s : State) : Res :=
  let s := s.pass dt
  .next <|
    if s.get THM_STATUS.state = 5 ∧ s.thm.stageTick + usTicks 10000 ≤ s.ticks then
      let rise := (List.range 64).any fun c =>
        match s.roofReading c, Sparse.find s.thm.stageRoof c with
        | some r, some e => decide ((e : Int) - 4096 < r)
        | _, _ => false
      if rise || s.tooHot then
        let s1 := (List.range 64).foldl (fun t c =>
          let st := t.get (PWR_DOM_STATE.state.ix (256 + c))
          if st = 2 ∨ st = 3 then (t.set (PWR_DOM_STATE.state.ix (256 + c)) 0).loseRoof c else t) s
        (s1.set THM_STATUS.state 6).raiseHead 1 2 (s.get THM_STATUS.hottest)
      else s
    else s

/-- Take the device out of the state the hold state left it in: set points, roofs, clocks, P-tile domains and towers. -/
def State.leaveHold (s : State) : State :=
  let s1 := s.sendSetPoints s.k
  let roofs := (List.range 64).filter fun c => s.get (PWR_DOM_STATE.state.ix (256 + c)) == 3
  let s2 := roofs.foldl (fun t c => (t.sendRail (0x40 + c) 1 750).set (PWR_DOM_STATE.state.ix (256 + c)) 2) s1
  let s3 := { s2 with boot := { s2.boot with gated := s2.boot.gated.filter fun (x : Nat × Nat) => x.1 != 3 } }
  let bays := (List.range 24).filter fun b => !s.rep.darkBays.contains b
  let s4 := bays.foldl (fun t b => (t.set (PWR_DOM_STATE.state.ix (320 + 2 * b)) 2).set (PWR_DOM_STATE.state.ix (321 + 2 * b)) 2) s3
  { s4 with thm := { s4.thm with selfRefresh := false, clearFrom := none } }

/-- R485: the exit conditions held for 100 ms. A shutdown stage is not left. -/
def execHoldStateExit (dt : Nat) (s : State) : Res :=
  let s := s.pass dt
  .next <|
    match s.thm.clearFrom with
    | some t =>
      if s.get THM_STATUS.state = 3 ∧ t + usTicks 100000 ≤ s.ticks then
        let s1 := (s.leaveHold.set THM_STATUS.state 0).raiseHead 31 ((s.ticks - s.thm.entryTick) / 160) 0
        let s2 := s1.voidTurn
        let l := s2.rep.later
        let s3 := { s2 with rep := { s2.rep with abandoned := false, later := [] } }
        ((l.foldl (fun u x => u.loseTile x.1 x.2) s3).withdrawHolds 5 fun _ => true).resumeCarts
      else s
    | none => s

/-! ### The governor (R481) -/

/-- The thermal governor at the boundary that ends turn t. -/
def State.thermGovern (s : State) (turn : Nat) : State :=
  match s.img.image with
  | none => s
  | some i =>
    let t := quarter (s.get THM_STATUS.hottest)
    let curve := if s.flowLow then i.thermal.lowFlow else i.thermal.normal
    let hit := (curve.reverse.find? fun e => decide (e.1 ≤ t))
    let cs := match hit with | some e => e.2 | none => 95
    let req := s.get THM_STATUS.therm_step
    if 420 ≤ t then
      let s1 := { s.set THM_STATUS.therm_step 48 with thm := { s.thm with threshold := 420, riseTurn := 0 } }
      if s.get THM_STATUS.state = 0 then (s1.set THM_STATUS.state 1).raiseHead 29 (s.get THM_STATUS.hottest) (s.get THM_STATUS.hot_coach) else s1
    else
      let s0 := if s.get THM_STATUS.state = 1 then s.set THM_STATUS.state 0 else s
      if cs < req then
        let th := match hit with | some e => e.1.toNat | none => 0
        { s0.set THM_STATUS.therm_step cs with thm := { s0.thm with threshold := th, riseTurn := 0 } }
      else if req < cs ∧ t + 8 ≤ (s.thm.threshold : Int) ∧ (s.thm.riseTurn = 0 ∨ s.thm.riseTurn + 255 ≤ turn) then
        { s0.set THM_STATUS.therm_step (req + 1) with thm := { s0.thm with riseTurn := turn + 1 } }
      else s0

/-! ### Work rotation (R486, R487) -/

/-- Mesh hops between sites, and the best site of a list by a measure, ties to the lowest. -/
def bestSite (f : Nat → Nat) (l : List Nat) : Option Nat :=
  l.foldl (fun (a : Option Nat) x => match a with | none => some x | some y => if f x < f y then some x else some y) none

/-- The tile that coach c rotates and its target, for the hotter hot spot (R487). -/
def State.rotation (s : State) (c spot : Nat) : Option (Nat × Nat) :=
  let site := if spot = 0 then 3 * 12 + 4 else 8 * 12 + 7
  let ms := (coachTiles c).filter fun n => tileClass n == 0
  match bestSite (fun n => siteHops (n % 144) site) (ms.filter fun n => (s.logicalOf n).isSome && s.goodTile n) with
  | none => none
  | some a =>
    match bestSite (fun n => 100 - siteHops (n % 144) site) (ms.filter fun n => (s.logicalOf n).isNone && s.goodTile n) with
    | none => none
    | some b => some (a, b)

/-- Sum and number of the readings of a hot spot over the last hour, those that no SENSOR_SAMPLE told among them. -/
def State.hourSum (s : State) (spots : List HourPart) (h : Nat) : Nat × Nat :=
  let l := ((Sparse.find s.thm.hour h).getD []).filter fun x => decide (s.ticks ≤ x.1 + usTicks 3600000000)
  let more := spots.filter fun p => p.spot == h
  ((l.map (·.2)).sum + (more.map (·.sum)).sum, l.length + (more.map (·.count)).sum)

/-- The hot spot of coach c whose mean governing reading over the last hour is higher, ties to hot spot 0 (R487). -/
def State.hotterSpot (s : State) (spots : List HourPart) (c : Nat) : Nat :=
  let a := s.hourSum spots (2 * c)
  let b := s.hourSum spots (2 * c + 1)
  if a.1 * b.2 < b.1 * a.2 then 1 else 0

/-- The coach whose turn it is, from `c` on, with a tile to move. -/
def State.rotateFrom (s : State) (spots : List HourPart) (c : Nat) : Option (Nat × Nat × Nat) :=
  ((List.range 64).filter fun d => c ≤ d).findSome? fun d => (s.rotation d (s.hotterSpot spots d)).map fun x => (d, x.1, x.2)

/-- R487: the rotation period ends, or the next coach of the period comes. -/
def execRotation (dt : Nat) (spots : List HourPart) (s : State) : Res :=
  let s := s.pass dt
  let hours := s.get THM_CTRL.rotate_hours
  let period := usTicks 3600000000 * hours
  .next <|
    if !s.turning ∨ hours = 0 then s
    else
      let s1 := if 64 ≤ s.thm.rotCoach ∧ s.thm.rotTick + period ≤ s.ticks then
          { s with thm := { s.thm with rotTick := s.ticks, rotCoach := 0 } }
        else s
      if 64 ≤ s1.thm.rotCoach ∨ !s1.rep.jobs.isEmpty ∨ s1.rep.advance.isSome ∨ 2 ≤ s1.get THM_STATUS.state then s1
      else
        match s1.rotateFrom spots s1.thm.rotCoach with
        | none => { s1 with thm := { s1.thm with rotCoach := 64 } }
        | some (d, a, b) =>
          match s1.logicalOf a with
          | none => s1
          | some key =>
            let s2 := { s1 with thm := { s1.thm with rotCoach := d + 1 },
                                rep := { s1.rep with advance := some ⟨key, a, b, true, false⟩ } }
            s2.set (TILE_STATE.state.tile b) 3

end Sys2Proof.Machine
end

