-- ==== Sys2Proof/Machine/Clocks.lean ====
section
/-! DEFINITION. Clock domains: readiness of PLLs, gating, switching, and REFCLK (R491 to R499, R540). -/

namespace Sys2Proof.Machine

/-- Number of instances of a domain (R494, R499). -/
def clkInstances (d : Nat) : Nat :=
  if d = 3 ∨ d = 5 then 64 else if d = 4 ∨ (7 ≤ d ∧ d ≤ 11) then 24 else if 1 ≤ d ∧ d ≤ 25 then 1 else 0

/-- Gating parent of a domain (R491); none for the domains that have no parent. -/
def clkParent (d : Nat) : Option Nat :=
  match d with
  | 2 | 6 | 15 | 17 | 20 | 21 | 24 | 25 => some 1
  | 3 | 4 => some 2
  | 5 => some 3
  | 7 | 11 => some 6
  | 8 => some 7
  | 9 | 10 => some 11
  | 12 | 13 => some 14
  | 14 | 16 | 22 => some 15
  | _ => none

/-- The parent's instance that feeds instance i of domain d. -/
def clkFeeds (d i : Nat) : Nat := match clkParent d with | some p => if clkInstances p = 1 then 0 else i | none => 0

/-- An instance is gated. -/
def State.isGated (s : State) (d i : Nat) : Bool := s.boot.gated.contains (d, i)

/-- Domains that serve the running image (R494). -/
def servesImage (d : Nat) : Bool := (2 ≤ d && d ≤ 11) || d == 15 || d == 16

/-- The requester may act on the domain (R491, R495). -/
def mayRequest (who : Requester) (d : Nat) : Bool :=
  match who with
  | .host => d == 20 || d == 22 || d == 25
  | .device => d != 18 && d != 19 && d != 23 && 1 ≤ d && d ≤ 25

/-- A child of instance i of domain d is ungated. -/
def State.childRuns (s : State) (d i : Nat) : Bool :=
  (List.range 26).any fun c => clkParent c == some d && (List.range (clkInstances c)).any fun j => clkFeeds c j == i && !s.isGated c j

/-- Result of a gate request on instances of a domain (R494): 0 done, 1 NACK, 3 DENIED. -/
def State.gateResult (s : State) (who : Requester) (d : Nat) (is_ : List Nat) : Nat :=
  if !mayRequest who d ∨ d = 1 ∨ (servesImage d ∧ s.running) then 3
  else if is_.any fun i => s.childRuns d i then 1 else 0

/-- Result of an ungate request. -/
def State.ungateResult (s : State) (who : Requester) (d : Nat) (is_ : List Nat) : Nat :=
  if !mayRequest who d ∨ d = 1 ∨ (servesImage d ∧ s.running) then 3
  else
    match clkParent d with
    | none => 0
    | some p => if is_.any fun i => s.isGated p (clkFeeds d i) then 1 else 0

/-- Result of a switch request (R495): 2 NOT_READY. -/
def State.switchResult (s : State) (who : Requester) (d : Nat) (seco : Bool) : Nat :=
  if !mayRequest who d ∨ (d ≠ 1 ∧ d ≠ 17) then 3
  else
    let ready := if seco then s.flag CLK_STATUS.seco_ready else if d = 1 then s.flag CLK_STATUS.refclk_ready else s.flag CLK_STATUS.guard_ready
    if ready then 0 else 2

/-- Report a request's result; a refused one is counted (R494). -/
def State.clkReport (s : State) (d r : Nat) : State :=
  let s1 := s.set (CLK_DOM_STATUS.result.ix d) r
  if r = 0 then s1 else s1.inc (CLK_DOM_STATUS.refusals.ix d)

/-- A request on a domain: op 1 gate, 2 ungate, 3 switch; `inst` names one instance, or none for all. -/
def State.clkRequest (s : State) (who : Requester) (d op : Nat) (seco : Bool) (inst : Option Nat) : State :=
  let is_ := match inst with | some i => if i < clkInstances d then [i] else [] | none => List.range (clkInstances d)
  match op with
  | 1 =>
    let r := s.gateResult who d is_
    let s1 := s.clkReport d r
    if r = 0 then { s1 with boot := { s1.boot with gated := s1.boot.gated ++ (is_.filter fun i => !s.isGated d i).map fun i => (d, i) } } else s1
  | 2 =>
    let r := s.ungateResult who d is_
    let s1 := s.clkReport d r
    if r = 0 then { s1 with boot := { s1.boot with gated := s1.boot.gated.filter fun (x : Nat × Nat) => !(x.1 == d && is_.contains x.2) } } else s1
  | 3 =>
    let r := s.switchResult who d seco
    let s1 := s.clkReport d r
    if r = 0 then s1.setFlag (CLK_DOM_STATUS.on_seco.ix d) seco else s1
  | _ => s

/-! ### Readiness (R493, R496) -/

/-- A PLL is named by its first domain: 6 ring, 17 guard, 14 port, 7 tower of a bay, 11 coupling of a bay, 3 CORE of a coach,
4 PRE of a bay. -/
def isPll (d i : Nat) : Bool := [3, 4, 6, 7, 11, 14, 17].contains d && i < clkInstances d

/-- The ready flag of CLK_STATUS for the ring, guard and port PLLs. -/
def State.setReady (s : State) (d : Nat) (b : Bool) : State :=
  if d = 6 then s.setFlag CLK_STATUS.ring_ready b
  else if d = 17 then s.setFlag CLK_STATUS.guard_ready b
  else if d = 14 then s.setFlag CLK_STATUS.port_ready b
  else s

/-- The PLL's reference is present: AXLE locked for CORE and PRE, REFCLK ready for the others. -/
def State.pllFed (s : State) (d : Nat) : Bool :=
  if d = 3 ∨ d = 4 then s.get HEAD_AXLE_STATUS.lock != 0 else s.flag CLK_STATUS.refclk_ready

/-- PLL of a domain whose readiness `ready` of CLK_DOM_STATUS reports (R491). -/
def pllOf (d : Nat) : Nat :=
  match d with
  | 5 => 3 | 8 => 7 | 9 | 10 => 11 | 12 | 13 => 14 | 15 | 16 | 22 => 6 | _ => d

/-- Instances of a domain whose source is ready. -/
def State.readyCount (s : State) (d : Nat) : Nat :=
  if isPll (pllOf d) 0 then (s.boot.ready.filter fun x => x.1 == pllOf d).length
  else if d = 2 then s.get CLK_STATUS.axle_ready
  else if d = 23 then 1
  else if d = 18 ∨ d = 19 then s.get CLK_STATUS.seco_ready
  else if s.flag (CLK_DOM_STATUS.on_seco.ix 1) then s.get CLK_STATUS.seco_ready else s.get CLK_STATUS.refclk_ready

/-- PLL (d, i) is a CORE or PRE PLL whose tiles run again, or stop (R493). -/
def State.haltTiles (s : State) (d i : Nat) (stop : Bool) : State :=
  let l := s.boot.halted.erase (d, i)
  { s with boot := { s.boot with halted := if stop ∧ s.running ∧ (d = 3 ∨ d = 4) then l ++ [(d, i)] else l } }

/-- R493: a PLL has reported lock for 10 µs. -/
def execPllReady (dt d i : Nat) (s : State) : Res :=
  let s := s.pass dt
  .next <|
    if isPll d i ∧ s.pllFed d ∧ !s.boot.ready.contains (d, i) then
      ({ s with boot := { s.boot with ready := s.boot.ready ++ [(d, i)] } }.setReady d true).haltTiles d i false
    else s

/-- R493: a PLL loses lock; the tiles of a CORE or PRE PLL stop, and are found by their heartbeats (R416). -/
def execPllLockLost (dt d i : Nat) (s : State) : Res :=
  let s := s.pass dt
  .next <|
    if s.boot.ready.contains (d, i) then
      (({ s with boot := { s.boot with ready := s.boot.ready.erase (d, i) } }.setReady d false).haltTiles d i true).raiseHead 18 d i
    else s

/-- REFCLK_FAIL: the flag, the event, and after step 5 of start-up the halt (R498, R540). -/
def State.refclkFail (s : State) : State :=
  let s1 := (s.setFlag CLK_STATUS.refclk_fail true).raiseHead 9 (s.get CLK_STATUS.refclk_khz) 0
  let st := s.get HEAD_BOOT_STATUS.step
  if 5 < st ∧ st < 10 ∧ s.get HEAD_BOOT_STATUS.halt = 0 then s1.set HEAD_BOOT_STATUS.halt 5 else s1

/-- Without REFCLK every domain fed from it stops, AXLE has no holdover source, and a running image stops (R496). -/
def State.loseRefclk (s : State) : State :=
  let s1 := (((s.setFlag CLK_STATUS.refclk_ready false).setReady 6 false).setReady 17 false).setReady 14 false
  let s2 := { s1 with boot := { s1.boot with ready := s1.boot.ready.filter fun (x : Nat × Nat) => x.1 == 3 || x.1 == 4 } }
  let s3 := if s2.get HEAD_AXLE_STATUS.lock = 2 then s2.set HEAD_AXLE_STATUS.lock 0 else s2
  if s3.running then s3.stopImage.setImageState 2 else s3

/-- R496: the source in use by AUX (1) or WARD (17) stops being ready. -/
def execClockSourceLost (dt d : Nat) (s : State) : Res :=
  let s := s.pass dt
  .next <|
    if (d = 1 ∨ d = 17) ∧ !s.flag (CLK_DOM_STATUS.on_seco.ix d) then
      let s1 := ((s.setFlag (CLK_DOM_STATUS.on_seco.ix d) true).raiseHead 18 d 0).refclkFail
      if d = 1 then (s1.setFlag (CLK_DOM_STATUS.on_seco.ix 17) true).loseRefclk
      else { s1 with boot := { s1.boot with ready := s1.boot.ready.erase (17, 0) } }.setReady 17 false
    else s

/-! ### The oscillator delay and REFCLK (R497, R498) -/

/-- Delay of STRAP_OSC_DLY, in units of 0.05 ms. -/
def strapDelay (code : Nat) : Nat := [2, 3, 4, 6, 10, 14, 20, 30, 40, 60, 100, 140, 200, 400, 1000, 2000].getD code 0

/-- R497: the strap delay has elapsed. -/
def execOscDelayExpiry (dt : Nat) (s : State) : Res :=
  let s := s.pass dt
  .next <|
    match s.boot.oscDue with
    | some t => if t ≤ s.ticks then { s with boot := { s.boot with oscDone := true } } else s
    | none => s

/-- R498: a measurement of 1 ms ends; the device measures from start-up step 5 on (R538, R546's example). After REFCLK_FAIL only a reset brings REFCLK back into use (R496). -/
def execRefclkMeasurement (dt khz : Nat) (s : State) : Res :=
  let s := s.pass dt
  .next <|
    if s.boot.oscDone ∧ 5 ≤ s.get HEAD_BOOT_STATUS.step then
      let s1 := s.set CLK_STATUS.refclk_khz khz
      if 95000 ≤ khz ∧ khz ≤ 105000 ∧ !s.flag CLK_STATUS.refclk_fail then s1.setFlag CLK_STATUS.refclk_ready true else s1
    else s

/-- R498: no good measurement within 10 ms of the end of the delay. -/
def execRefclkFail (dt : Nat) (s : State) : Res :=
  let s := s.pass dt
  .next <|
    match s.boot.oscDue with
    | some t =>
      if s.boot.oscDone ∧ s.get HEAD_BOOT_STATUS.step = 5 ∧ max t s.boot.stepTick + usTicks 10000 ≤ s.ticks ∧ !s.flag CLK_STATUS.refclk_ready ∧ !s.flag CLK_STATUS.refclk_fail then s.refclkFail else s
    | none => s

end Sys2Proof.Machine
end

