-- ==== Sys2Proof/Machine/Mailboxes.lean ====
section
/-! DEFINITION. Mailboxes (R405 to R410, R504). End 0 is A and end 1 is B; the direction out of end e of mailbox m has key 2 × m + e. -/

namespace Sys2Proof.Machine

/-- A field of the page of end e of mailbox m (R410). -/
def Fld.page (f : Fld) (m e : Nat) : Fld := f.off (0x200 * m + 0x100 * e)

/-- The guard at end e of mailbox m, or none for a host end (R405). -/
def mbxGuard (m e : Nat) : Option Nat :=
  if m < 16 then (if e = 0 then none else some (m % 4))
  else
    let i := (m - 16) / 3
    let j := (m - 16) % 3
    some (if e = 0 then i else if j < i then j else j + 1)

/-- The queue out of end e of mailbox m. -/
def State.mbxOutOf (s : State) (m e : Nat) : MbxQueue := (Sparse.find s.mbx (2 * m + e)).getD ⟨[], none⟩

def State.setMbx (s : State) (m e : Nat) (q : MbxQueue) : State := { s with mbx := Sparse.put s.mbx (2 * m + e) q }

/-- Pending doorbells of an end: set in MBX_BELL and clear in MBX_MASK (R408). -/
def State.mbxPending (s : State) (m e : Nat) : Nat :=
  let bell := s.get (MBX_BELL.bell.page m e)
  bell &&& (2 ^ 32 - 1 - s.get (MBX_MASK.mask.page m e))

/-- MBX_STATUS of an end (R410). -/
def State.mbxStatus (s : State) (m e : Nat) : Nat :=
  let out := (s.mbxOutOf m e).words.length
  let inn := (s.mbxOutOf m (1 - e)).words.length
  let peer := match mbxGuard m (1 - e) with
    | none => 0
    | some g => s.get (GRD_WATCHDOG_i.state.guard g)
  peer * 2 ^ 20 + s.get (MBX_STATUS.underrun.page m e) * 2 ^ 18 + s.get (MBX_STATUS.timeout.page m e) * 2 ^ 17
    + s.get (MBX_STATUS.collision.page m e) * 2 ^ 16 + (if out = 8 then 2 ^ 12 else 0) + out * 2 ^ 8
    + (if inn = 8 then 2 ^ 4 else 0) + inn

/-- What an end is told about: pending doorbells, `collision` and `timeout` (R408). -/
def State.mbxSignals (s : State) (m e : Nat) : Bool × Bool × Bool :=
  (s.mbxPending m e != 0, s.flag (MBX_STATUS.collision.page m e), s.flag (MBX_STATUS.timeout.page m e))

/-- After a change of end e: a notification record for a host end, the mailbox event source for a guard end (R408, R504). -/
def State.mbxSignal (s : State) (before : Bool × Bool × Bool) (m e : Nat) : State :=
  let now := s.mbxSignals m e
  match mbxGuard m e with
  | none =>
    if (now.1 && !before.1) || (now.2.1 && !before.2.1) || (now.2.2 && !before.2.2) then
      { s with port := { s.port with mbxOut := s.port.mbxOut ++ [⟨0x80, m, 0, 0xFFFFFFFF, s.mbxStatus m e⟩] } }
    else s
  | some _ =>
    if now.1 && !before.1 then s.raiseHead (if e = 1 then 192 + m else 204 + m) (s.get (MBX_BELL.bell.page m e)) 0 else s

/-- Change end e of mailbox m and signal what rose. -/
def State.mbxChange (s : State) (m e : Nat) (f : State → State) : State := (f s).mbxSignal (s.mbxSignals m e) m e

/-- Answer a channel 1 record (R409). -/
def State.mbxAnswer (s : State) (op m status ident value : Nat) : State :=
  { s with port := { s.port with mbxOut := s.port.mbxOut ++ [⟨op, m, status, ident, value⟩] } }

/-- Set doorbell bits at end e (R408). -/
def State.mbxBell (s : State) (m e b : Nat) : State :=
  s.mbxChange m e fun t => t.set (MBX_BELL.bell.page m e) (t.get (MBX_BELL.bell.page m e) ||| b % 2 ^ 32)

/-- A write to MBX_SEND at end e (R406). -/
def State.mbxSend (s : State) (m e v : Nat) : State :=
  let q := s.mbxOutOf m e
  let s1 :=
    if q.words.length < 8 then
      s.setMbx m e ⟨q.words ++ [v % 2 ^ 64], if q.words.isEmpty then some s.ticks else q.timer⟩
    else
      (s.setMbx m e ⟨q.words.take 7 ++ [v % 2 ^ 64], q.timer⟩).mbxChange m e
        fun t => t.setFlag (MBX_STATUS.collision.page m e) true
  s1.mbxBell m (1 - e) 1

/-- A read of MBX_RECV at end e: the oldest word and the state after it (R406, R407). -/
def State.mbxRecv (s : State) (m e : Nat) : Nat × State :=
  match (s.mbxOutOf m (1 - e)).words with
  | [] => (0, s.setFlag (MBX_STATUS.underrun.page m e) true)
  | w :: ws => (w, s.setMbx m (1 - e) ⟨ws, if ws.isEmpty then none else some s.ticks⟩)

/-- A write to MBX_CTRL at end e: the timeout within 1 to 1,000,000 µs, and the flush (R410). -/
def State.mbxCtrl (s : State) (m e v : Nat) : State :=
  let t := bits v 0 20
  let s1 := s.set (MBX_CTRL.timeout.page m e) (if t = 0 then 1 else min t 1000000)
  if bits v 32 1 = 1 then s1.setMbx m e ⟨[], none⟩ else s1

/-- Run a mailbox operation: the host reaches end A of mailboxes 0 to 15 by a 16 B record of channel 1 and is answered; a guard reaches
its own ends (R405, R409). -/
def mbxRun (s : State) (host : Bool) (op m e ident : Nat) (f : State → Nat → Nat × State) : State :=
  if host then
    let s := s.consume 1 16
    if m < 16 then
      let r := f s 0
      r.2.mbxAnswer op m 0 ident r.1
    else s.mbxAnswer op m 2 ident 0
  else if m < 28 ∧ e < 2 ∧ (mbxGuard m e).isSome then (f s e).2 else s

/-- R406. -/
def execMbxSend (dt : Nat) (host : Bool) (m e ident v : Nat) (s : State) : Res :=
  .next <| mbxRun (s.elapse dt) host 1 m e ident fun t d =>
    let u := t.mbxSend m d v
    (u.mbxStatus m d, u)

/-- R406. -/
def execMbxRecv (dt : Nat) (host : Bool) (m e ident : Nat) (s : State) : Res :=
  .next <| mbxRun (s.elapse dt) host 2 m e ident fun t d => t.mbxRecv m d

/-- R408. -/
def execMbxRing (dt : Nat) (host : Bool) (m e ident v : Nat) (s : State) : Res :=
  .next <| mbxRun (s.elapse dt) host 3 m e ident fun t d => (0, t.mbxBell m (1 - d) v)

/-- R409, op 0x04. -/
def execMbxStatusRead (dt : Nat) (host : Bool) (m e ident : Nat) (s : State) : Res :=
  .next <| mbxRun (s.elapse dt) host 4 m e ident fun t d => (t.mbxStatus m d, t)

/-- R409, op 0x05. -/
def execMbxBellClear (dt : Nat) (host : Bool) (m e ident v : Nat) (s : State) : Res :=
  .next <| mbxRun (s.elapse dt) host 5 m e ident fun t d =>
    let b := t.get (MBX_BELL.bell.page m d) &&& (2 ^ 32 - 1 - v % 2 ^ 32)
    (b, t.set (MBX_BELL.bell.page m d) b)

/-- R408, op 0x06: masking changes the pending doorbells. -/
def execMbxMaskWrite (dt : Nat) (host : Bool) (m e ident v : Nat) (s : State) : Res :=
  .next <| mbxRun (s.elapse dt) host 6 m e ident fun t d =>
    (0, t.mbxChange m d fun u => u.set (MBX_MASK.mask.page m d) v)

/-- R410, op 0x07. -/
def execMbxCtrlWrite (dt : Nat) (host : Bool) (m e ident v : Nat) (s : State) : Res :=
  .next <| mbxRun (s.elapse dt) host 7 m e ident fun t d => (0, t.mbxCtrl m d v)

/-- R407: the timer of the direction out of end e reaches that end's `timeout`. -/
def execMbxTimeout (dt m e : Nat) (s : State) : Res :=
  let s := s.elapse dt
  let q := s.mbxOutOf m e
  .next <|
    match q.timer with
    | none => s
    | some t =>
      if t + usTicks (s.get (MBX_CTRL.timeout.page m e)) ≤ s.ticks then
        ((s.setMbx m e ⟨q.words, none⟩).mbxChange m e fun u => u.setFlag (MBX_STATUS.timeout.page m e) true).raiseHead 232 m e
      else s

end Sys2Proof.Machine
end

