-- ==== Sys2Proof/Machine/Startup.lean ====
section
/-! DEFINITION. Start-up and the three kinds of reset (R521, R522, R535 to R551). -/

namespace Sys2Proof.Machine

/-! ### The firmware slots (R521, R522) -/

/-- Flash byte at an offset: two slots of 16 MiB (DESIGN CHOICE, log entry 6). -/
def flashKey (off : Nat) : Nat := 64 * 281474976710656 + off

/-- The bundle in a slot. -/
def State.bundle (s : State) (slot : Nat) : List Byte := s.bytes (flashKey (slot * 0x1000000)) (s.num (flashKey (slot * 0x1000000 + 8)) 4)

/-- `svn` of a slot. -/
def State.slotSvn (s : State) (slot : Nat) : Nat := s.num (flashKey (slot * 0x1000000 + 4)) 4

/-- A slot is bootable (R522). -/
def State.bootable (s : State) (slot : Nat) : Bool :=
  let b := s.bundle slot
  let key := (b.drop 44).take 1312
  s.num (flashKey (slot * 0x1000000)) 4 == 0x4657504E && decide (3776 ≤ b.length ∧ b.length ≤ 0x1000000)
    && Config.sha3 key == Config.fusedDigest 0 && Config.mldsaVerify 0 key (Config.sha3 (b.take 1356)) ((b.drop 1356).take 2420)
    && Config.sha3 (b.drop 3776) == (b.drop 12).take 32 && decide (s.sbx.minSvn ≤ s.slotSvn slot)

/-- The slot that boots: the higher `svn`, slot A when the two are equal. -/
def State.bootSlot (s : State) : Option Nat :=
  match s.bootable 0, s.bootable 1 with
  | true, true => if s.slotSvn 0 < s.slotSvn 1 then some 1 else some 0
  | true, false => some 0
  | false, true => some 1
  | false, false => none

/-- `claimed` and `occupied` follow the keys held (R515, R534). -/
def State.syncKeys (s : State) : State :=
  (s.set SBX_KEY_STATE.occupied ((s.sbx.keys.map fun p => 2 ^ p.1).sum)).setFlag SBX_STATUS.claimed (s.sbx.keys.any fun p => decide (p.1 < 4))

/-! ### The defect map at start-up (R412, R413, R538) -/

/-- Tile and port of a hitch edge port number (R413). -/
def edgeTile (c idx : Nat) : Nat × Nat :=
  let at_ (u v : Nat) : Nat := c * 144 + v * 12 + u
  if idx < 12 then (at_ idx 0, 0) else if idx < 24 then (at_ 11 (idx - 12), 1) else if idx < 36 then (at_ (35 - idx) 11, 2) else (at_ 0 (47 - idx), 3)

/-- One wire group's spare is in use at a port direction: `incoming` as bit 8 of the entry has it. -/
def State.useSpare (s : State) (n q : Nat) (incoming : Bool) : State :=
  let mark (t : State) (m p : Nat) : State := if t.get (hitchState m p) = 3 then t else t.set (hitchState m p) 2
  let s1 := mark (if incoming then s.inc (hitchIn n q) else s.inc (hitchOut n q)) n q
  match neighbour n q with
  | none => s1
  | some m => mark (if incoming then s1.inc (hitchOut m ((q + 2) % 4)) else s1.inc (hitchIn m ((q + 2) % 4))) m ((q + 2) % 4)

/-- Apply one entry. -/
def State.applyDefect (s : State) (w : Nat) : State :=
  let place := bits w 48 8
  let index := bits w 40 8
  match bits w 56 6 with
  | 1 => s.set (TILE_STATE.state.tile (if place < 128 then place * 144 + index else 9216 + 32 * (place - 128) + index)) 4
  | 2 =>
    let s1 := (coachDomains place).foldl (fun t d => t.set (PWR_DOM_STATE.state.ix d) 4) s
    if s.rep.isolated.contains place then s1 else { s1 with rep := { s1.rep with isolated := s1.rep.isolated ++ [place] } }
  | 3 => s.useSpare (edgeTile place index).1 (edgeTile place index).2 (w.testBit 8)
  | 4 =>
    let e := edgeTile place index
    s.markFailed e.1 e.2
  | 5 =>
    let n := place * 144 + bankSite (bits w 32 8)
    let rows := (Sparse.find s.tile.spareRows n).getD 0
    if rows < 32 then { s with tile := { s.tile with spareRows := Sparse.put s.tile.spareRows n (rows + 1) } }
    else { s with tile := { s.tile with spareCols := Sparse.put s.tile.spareCols n ((Sparse.find s.tile.spareCols n).getD 0 + 1) } }
  | 6 => (s.setFlag (TWR_STATUS.spare_used.twr place) true).set (TWR_STATUS.replaced_channel.twr place) index
  | 7 => s.set (TWR_STATUS.state.twr place) 3
  | 8 => s.set (GRD_WATCHDOG_i.state.guard place) 3
  | 9 =>
    let b := place - 128
    let s1 := (s.set (PWR_DOM_STATE.state.ix (320 + 2 * b)) 4).set (PWR_DOM_STATE.state.ix (321 + 2 * b)) 4
    { s1 with rep := { s1.rep with darkBays := s1.rep.darkBays ++ [b] } }
  | _ => s

/-- Every hitch port starts good, with no spare in use (R31). -/
def State.goodHitches (s : State) : State :=
  (List.range 64).foldl (fun t c => (List.range 48).foldl (fun u idx =>
    let e := edgeTile c idx
    if isHitch e then u.set (hitchState e.1 e.2) 1 else u) t) s

/-- Step 4: the defect map is read and applied. -/
def State.applyDefects (s : State) : State :=
  let all := Config.fuseEntries ++ s.sbx.store
  let s1 := { s with rep := { s.rep with defects := all, isolated := [], darkBays := [] }, boot := { s.boot with mapped := true } }
  let s2 := all.foldl (fun t w => t.applyDefect w) s1.goodHitches
  let edp := if Config.grade = 2 then 22 else 25
  (((s2.set HEAD_DEFECT_INDEX.entries all.length).set HEAD_DEVICE_ID.grade Config.grade).set HEAD_DEVICE_ID.good_coaches
    (64 - s2.rep.isolated.length)).set PWR_PLAN.edp edp

/-! ### Start-up steps (R538 to R545) -/

/-- A step begins. In step 8 the retained roofs leave retention (R547). -/
def State.beginStep (s : State) (n : Nat) : State :=
  let s1 := { s.set HEAD_BOOT_STATUS.step n with boot := { s.boot with stepTick := s.ticks } }
  let on (t : State) (ds : List Nat) : State := ds.foldl (fun u d => u.set (PWR_DOM_STATE.state.ix d) 2) t
  match n with
  | 3 => on s1 [416, 417, 419, 420, 421, 422]
  | 6 => (List.range 24).foldl (fun t b => if t.towerFailed b then t else t.set (TWR_STATUS.state.twr b) 1) (on s1 ((List.range 24).map (368 + ·)))
  | 7 => (List.range 24).foldl (fun t b => t.set (CPL_STATUS.state.cpl b) 1) (on s1 (418 :: (List.range 24).map (392 + ·)))
  | 8 =>
    let good := (List.range 64).filter fun c => !s.rep.isolated.contains c
    let mask := (good.map fun c => 2 ^ c).sum
    let s2 := (s1.set PWR_COACH_ON.on mask).set PWR_COACH_ACTIVE.on mask
    let s3 := good.foldl (fun t c => (((t.sendRail c 1 (s.setPoint c 95)).sendRail c 5 1).sendRail (0x40 + c) 1 750).sendRail (0x40 + c) 5 1) s2
    let s4 := ((List.range 24).filter fun b => !s.rep.darkBays.contains b).foldl (fun t b =>
      (t.sendRail (0x80 + b) 1 (s.setPoint (0x80 + b) 95)).sendRail (0x80 + b) 5 1) s3
    let s5 := good.foldl (fun t c => if t.get (PWR_DOM_STATE.state.ix (256 + c)) = 3 then t.set (PWR_DOM_STATE.state.ix (256 + c)) 2 else t) s4
    { s5 with pwr := { s5.pwr with waiting := good } }
  | _ => s1

/-- A tower's channels that fail training, but for the one that is replaced: the first takes the spare, a second fails the tower
(R45). -/
def State.trainTower (s : State) (t : Nat) (found : List Nat) : State :=
  let chs := found.filter fun c => !(s.flag (TWR_STATUS.spare_used.twr t) && s.get (TWR_STATUS.replaced_channel.twr t) == c)
  if s.towerFailed t then s
  else
    let fail (u : State) : State := (u.set (TWR_STATUS.state.twr t) 3).addDefect (defectWord 7 t 0 0)
    match chs with
    | [] => s.set (TWR_STATUS.state.twr t) 2
    | c :: rest =>
      if s.flag (TWR_STATUS.spare_used.twr t) ∨ !rest.isEmpty then fail s
      else
        (((s.set (TWR_STATUS.state.twr t) 2).setFlag (TWR_STATUS.spare_used.twr t) true).set (TWR_STATUS.replaced_channel.twr t) c).addDefect (defectWord 6 t c 0)

/-- Every coach is on and its tiles are reset, or it is dark. -/
def State.coachesUp (s : State) : Bool :=
  s.pwr.waiting.isEmpty && s.pwr.powering.isEmpty && s.pwr.resetting.isEmpty

/-- A coach's good tiles no longer fit its class counts (R96). -/
def State.classShort (s : State) (c : Nat) : Bool :=
  let n (k : Nat) : Nat := ((coachTiles c).filter fun m => tileClass m == k && s.get (TILE_STATE.state.tile m) != 4).length
  decide (n 0 < 90 ∨ n 1 < 36 ∨ n 2 < 7)

/-- Keys of the roof words and coach-table words of a coach. -/
def roofOf (c k : Nat) : Bool :=
  decide (0x100000000000 + c * 0x1000000000 ≤ k ∧ k < 0x100000000000 + (c + 1) * 0x1000000000 ∧ k % 0x10000000 < wsBytes)
    || decide (tableKey c 0 ≤ k ∧ k < tableKey (c + 1) 0)

/-- The roof of a coach in step 9: checked word by word when its mark is set, else tested with patterns; an uncorrectable word clears
the mark, so the coach is tested with patterns too (R544). -/
def State.testRoof (s : State) (c : Nat) : State :=
  if s.boot.warm ∧ s.mark c then
    let bad := (s.flips.filter fun p => roofOf c p.1)
    let s1 := bad.foldl (fun t p =>
      if (roofDecode p.2).1 = 2 then t else { t with flips := Sparse.drop t.flips p.1 }) s
    if bad.any fun p => (roofDecode p.2).1 == 2 then s1.loseRoof c else s1
  else s.loseRoof c

/-- A hitch wire that fails its test is substituted, or its port fails (R28, R30). -/
def State.testWire (s : State) (w : Nat × Nat × Nat) : State :=
  if !isHitch (w.1, w.2.1) ∨ s.portFailed (w.1, w.2.1) then s
  else if s.spareUsed w.1 w.2.1 w.2.2 then s.failPort w.1 w.2.1
  else (s.useSpare w.1 w.2.1 false).addDefect (defectWord 3 (w.1 / 144) (edgePort w.1 w.2.1) w.2.2)

/-- Step 9: built-in self-test (R544). -/
def State.selfTest (s : State) (e : StartEnv) : State :=
  let s1 := e.tiles.foldl (fun t n =>
    let t1 := (t.set (TILE_STATE.state.tile n) 4).inc HEAD_BOOT_STATUS.bist_fail
    if s.hasDefect 1 (placeOf n) (siteOf n) then t1 else t1.addDefect (tileDefect n)) s
  let s2 := e.wires.foldl (fun t w => t.testWire w) s1
  let on := (List.range 64).filter fun c => !s.rep.isolated.contains c
  let s3 := on.foldl (fun t c => ((t.testRoof c).loseQuadrants c)) s2
  on.foldl (fun t c => if t.classShort c then t.isolate c else t) s3

/-- Tiles of a bay that are not failing become idle. -/
def State.bayOn (s : State) (b : Nat) : State :=
  if s.rep.darkBays.contains b then s
  else
    ((s.set (PWR_DOM_STATE.state.ix (320 + 2 * b)) 2).set (PWR_DOM_STATE.state.ix (321 + 2 * b)) 2).setTiles
      ((bayTiles b).filter fun n => s.get (TILE_STATE.state.tile n) != 4) 1

/-- The present step ends with what it found, and the next begins. -/
def State.finishStep (s : State) (n : Nat) (e : StartEnv) : State :=
  match n with
  | 2 =>
    match s.bootSlot with
    | none => s.set HEAD_BOOT_STATUS.halt 2
    | some b =>
      let s1 := ((s.set SBX_STATUS.boot_slot b).set SBX_STATUS.svn (s.slotSvn b)).set SBX_STATUS.mode 1
      let s2 := { s1 with sbx := { s1.sbx with bootMeasure := Config.sha3 (s.bundle b), erased := [],
                                               notBootable := [0, 1].filter fun x => !s.bootable x } }
      s2.syncKeys.beginStep 3
  | 3 =>
    let svn := s.slotSvn (s.get SBX_STATUS.boot_slot)
    let s1 := { s with sbx := { s.sbx with minSvn := svn, notBootable := [] } }
    let s2 := s.sbx.notBootable.foldl (fun t _ => t.alarm 1) s1
    ((List.range 4).foldl (fun t i => t.set (GRD_WATCHDOG_i.watcher.guard i) ((i + 1) % 4)) s2).beginStep 4
  | 4 => s.applyDefects.beginStep 5
  | 5 => ((s.setFlag (CLK_DOM_STATUS.on_seco.ix 1) false).setFlag (CLK_DOM_STATUS.on_seco.ix 17) false).beginStep 6
  | 6 =>
    let s1 := (List.range 24).foldl (fun t b => t.trainTower b ((e.channels.filter fun x => x.1 == b).map (·.2))) s
    (s1.set HEAD_BOOT_STATUS.towers_failed (((List.range 24).filter fun b => s1.towerFailed b).length)).beginStep 7
  | 7 =>
    (s.set HEAD_BOOT_STATUS.couplings_up (((List.range 24).filter fun b => s.get (CPL_STATUS.state.cpl b) == 2).length)).beginStep 8
  | 8 => ((List.range 24).foldl (fun t b => t.bayOn b) s).beginStep 9
  | 9 => ((s.selfTest e).set HEAD_BOOT_STATUS.ready_ms ((s.ticks - s.boot.startTick) / 160000)).beginStep 10
  | _ => s

/-- The end condition of a step (R538), as far as the state shows it. -/
def State.stepDone (s : State) (n : Nat) : Bool :=
  match n with
  | 2 => s.get SBX_STATUS.mode == 0
  | 5 => s.flag CLK_STATUS.refclk_ready && s.flag CLK_STATUS.ring_ready && s.flag CLK_STATUS.guard_ready && s.flag CLK_STATUS.port_ready
      && s.get HEAD_AXLE_STATUS.lock != 0
  | 7 => (List.range 24).all fun b => s.get (CPL_STATUS.state.cpl b) != 1
  | 8 => s.coachesUp
  | _ => true

/-- Start-up is under way and not halted. -/
def State.starting (s : State) : Bool := 2 ≤ s.get HEAD_BOOT_STATUS.step && s.get HEAD_BOOT_STATUS.step ≤ 9 && s.get HEAD_BOOT_STATUS.halt == 0

/-- R538: the present step meets its end condition. -/
def execStartupStepComplete (dt : Nat) (e : StartEnv) (s : State) : Res :=
  let s := s.pass dt
  let n := s.get HEAD_BOOT_STATUS.step
  .next <| if s.starting ∧ s.stepDone n then s.finishStep n e else s

/-- Limit of a step, in ticks (R538). -/
def State.stepLimit (s : State) (n : Nat) : Nat :=
  match n with
  | 2 => usTicks 800000
  | 3 => usTicks 100000
  | 4 => usTicks 20000
  | 5 => usTicks (50 * strapDelay (s.get CLK_STATUS.osc_dly) + 11000)
  | 6 => usTicks 50000
  | 7 => usTicks 250000
  | 8 => usTicks 1000
  | _ => if s.boot.warm then usTicks 500000 else usTicks 2000000

/-- R538: the present step exceeds its limit. -/
def execStartupStepTimeout (dt : Nat) (e : StartEnv) (s : State) : Res :=
  let s := s.pass dt
  let n := s.get HEAD_BOOT_STATUS.step
  .next <|
    if s.starting ∧ s.boot.stepTick + s.stepLimit n ≤ s.ticks then
      match n with
      | 2 => s.set HEAD_BOOT_STATUS.halt (if s.get SBX_STATUS.mode = 2 then 1 else 2)
      | 3 => s.set HEAD_BOOT_STATUS.halt 3
      | 4 => s.set HEAD_BOOT_STATUS.halt 4
      | 5 => s.set HEAD_BOOT_STATUS.halt 5
      | 7 => ((List.range 24).foldl (fun t b => if t.get (CPL_STATUS.state.cpl b) = 1 then t.set (CPL_STATUS.state.cpl b) 4 else t) s).finishStep 7 e
      | _ => s.finishStep n e
    else s

/-! ### Resets (R536, R537, R547, R550) -/

/-- What the strongbox keeps in its non-volatile store through every reset (R550). -/
def SbxB.keep (b : SbxB) : SbxB := { keys := b.keys, minSvn := b.minSvn, log := b.log, store := b.store, salt := b.salt, kems := b.kems }

/-- The strongbox's registers that every reset keeps: both allow bits and the report counter. -/
def State.keepSbx (s old : State) : State :=
  ((s.set SBX_POLICY.allow_service (old.get SBX_POLICY.allow_service)).set SBX_POLICY.allow_debug (old.get SBX_POLICY.allow_debug)).set
    SBX_STATUS.reports (old.get SBX_STATUS.reports)

/-- Memory keys that a warm reset keeps: flash, towers, and the roofs and coach tables of marked coaches (R547, R550). -/
def State.warmKey (s : State) (k : Nat) : Bool :=
  let side := 281474976710656
  let roof (a : Nat) : Bool := decide (0x100000000000 ≤ a ∧ a < 0x200000000000 ∧ a % 0x10000000 < wsBytes) && s.mark ((a - 0x100000000000) / 0x1000000000)
  if k < side then decide (0x300000000000 ≤ k ∧ k < 0x400000000000) || roof k
  else if k < 2 * side then roof (k - side)
  else if k < 4 * side then s.mark (k % side / 268435456)
  else decide (flashKey 0 ≤ k ∧ k < flashKey 0x2000000)

/-- Power-on reset: only what R550 keeps is left. -/
def State.powerOnReset (s : State) : State :=
  let t : State := { State.reset with
    ticks := s.ticks, free := s.free, pending := s.pending, sbx := s.sbx.keep
    mem := s.mem.filter fun (c : Host.Cell) => decide (flashKey 0 ≤ c.1 ∧ c.1 < flashKey 0x2000000) }
  t.keepSbx s

/-- Start-up begins (R536): the strap delay is counted from now. -/
def State.startUp (s : State) (strap : Nat) : State :=
  let s1 := { s.set CLK_STATUS.osc_dly strap with boot := { s.boot with pwrgood := true, fell := none, oscDue := some (s.ticks + usTicks (50 * strapDelay strap)), startTick := s.ticks } }
  s1.beginStep 2

/-- R536: PWRGOOD rises; the straps read `strap`. A rise before the reset of R537 is entered starts when it is. -/
def execPwrgoodRise (dt strap : Nat) (s : State) : Res :=
  let s := s.pass dt
  .next <|
    if s.boot.pwrgood then s
    else if s.boot.fell.isSome then { s.set CLK_STATUS.osc_dly strap with boot := { s.boot with pwrgood := true } }
    else s.startUp (strap % 16)

/-- R537: PWRGOOD falls: the event, every header opens, and ENABLE off goes to every switched rail. -/
def execPwrgoodLost (dt : Nat) (s : State) : Res :=
  let s := s.pass dt
  .next <|
    if !s.boot.pwrgood then s
    else
      let s1 := { s.raiseHead 0 0 0 with boot := { s.boot with pwrgood := false, fell := some s.ticks, tapInstr := 2 } }
      let s2 := (List.range 64).foldl (fun t c => if t.rep.isolated.contains c then t else t.openCoach c 0) s1
      let s3 := ((List.range 103).map (320 + ·)).foldl (fun t d => if t.get (PWR_DOM_STATE.state.ix d) = 4 then t else t.set (PWR_DOM_STATE.state.ix d) 0) s2
      ((List.range 128) ++ (List.range 24).map (0x80 + ·)).foldl (fun t r => t.sendRail r 5 0) s3

/-- R537: 50 µs after the fall. -/
def execPowerOnResetEntry (dt : Nat) (s : State) : Res :=
  let s := s.pass dt
  .next <|
    match s.boot.fell with
    | some t =>
      if t + usTicks 50 ≤ s.ticks then
        if s.boot.pwrgood then s.powerOnReset.startUp (s.get CLK_STATUS.osc_dly) else s.powerOnReset
      else s
    | none => s

/-- What a warm reset leaves of a state whose image has stopped: only what R547 and R550 keep. -/
def State.warmBase (s : State) : State :=
  { State.reset with
    ticks := s.ticks, free := s.free, pending := s.pending, sbx := s.sbx.keep
    mem := s.mem.filter fun (c : Host.Cell) => s.warmKey c.1
    flips := s.flips.filter fun (c : Nat × Nat) => s.warmKey c.1
    img := { before := s.img.before }
    axle := { refPresent := s.axle.refPresent, epoch := s.axle.epoch }
    boot := { pwrgood := true, oscDone := true, oscDue := some s.ticks, startTick := s.ticks, warm := true, tapInstr := s.boot.tapInstr, boundary := s.boot.boundary, tapData := s.boot.tapData } }

/-- A warm reset of the kind 1 WARM_RESET or 2 RESET_N (R547), of a state whose image has stopped. -/
def State.warmStart (s : State) (kind : Nat) : State :=
  let locked := s.get HEAD_AXLE_STATUS.lock == 1 && s.axle.refPresent
  let marks := (List.range 64).filter fun c => s.mark c
  let t1 := (s.warmBase.keepSbx s).set CLK_STATUS.osc_dly (s.get CLK_STATUS.osc_dly)
  let t2 := (t1.set HEAD_WEIGHTS_VALID.valid (s.get HEAD_WEIGHTS_VALID.valid)).set HEAD_IMAGE_GEN.generation (s.get HEAD_IMAGE_GEN.generation)
  let t3 := if locked then (((t2.set HEAD_AXLE_COUNT.count s.count).set HEAD_AXLE_STATUS.lock 1).set HEAD_AXLE_STATUS.loaded (s.get HEAD_AXLE_STATUS.loaded)).setFlag CLK_STATUS.axle_ready true else t2
  let t4 := marks.foldl (fun u c => u.set (PWR_DOM_STATE.state.ix (256 + c)) 3) t3
  (t4.set HEAD_BOOT_STATUS.reset_kind kind).beginStep 2

/-- A warm reset: a running image stops first; the placement in effect is remembered (R356). -/
def State.warmReset (s : State) (kind : Nat) : State :=
  if s.running then s.stopImage.warmStart kind
  else ({ s with img := { s.img with before := if s.img.image.isSome then s.img.place else s.img.before } } : State).warmStart kind

/-- R547: RESET_N was held low for 1 µs; a running long command ends with no final response (R395, R551). -/
def execResetN (dt : Nat) (s : State) : Res :=
  let s := s.pass dt
  .next <| if s.boot.pwrgood ∧ s.boot.fell.isNone then s.warmReset 2 else s

/-! ### Coach reset (R548, R549) -/

/-- A coach holds logical tiles or the draft model of a running image. -/
def State.coachInUse (s : State) (c : Nat) : Bool := s.running && s.img.place.any fun p => decide (p.2 < 9216 ∧ p.2 / 144 = c)

/-- A host request through HEAD_COACH_RESET (R548). -/
def State.coachResetRequest (s : State) (c : Nat) : State :=
  let s1 := s.set HEAD_COACH_RESET.coach c
  if s.flag HEAD_COACH_RESET.busy ∨ s.coachInUse c ∨ !s.rep.jobs.isEmpty ∨ !s.rep.rebuilds.isEmpty ∨ s.rep.advance.isSome ∨ !s.coachOn c then
    s1.set HEAD_COACH_RESET.result 2
  else { s1.setFlag HEAD_COACH_RESET.busy true with boot := { s1.boot with coachReset := some c } }

/-- The effects of a coach reset (R549): registers, scratchpads and input stores; hitch state and the roof are kept. -/
def State.resetCoach (s : State) (c : Nat) : State :=
  let s1 := (coachTiles c).foldl (fun t n =>
    let st := t.get (TILE_STATE.state.tile n)
    let filling := st == 3 && s.rep.jobs.any fun j => j.target == n
    let t1 := (t.resetRegs (tileBase n + 0xF000000) (tileBase n + 0xF000800)).resetRegs (tileBase n + 0xF000808) (tileBase n + 0xF010000)
    let t2 := { t1 with net := { t1.net with carts := t1.net.carts.dropRange (8 * n) (8 * n + 8) } }
    let t3 := t2.resetRegs (281474976710656 + tileBase n) (281474976710656 + tileBase n + 0x10000000)
    t3.set (TILE_STATE.state.tile n) (if st = 4 then 4 else if filling then 3 else 1)) s
  s1.loseQuadrants c

/-- R549: a coach reset completes, whether the host, a guard or a repair asked for it. -/
def execCoachResetDone (dt c : Nat) (s : State) : Res :=
  let s := s.pass dt
  .next <|
    let host := s.boot.coachReset == some c
    let guard := s.boot.guardResets.contains c || s.rep.resetting.contains c
    if host || guard then
      let s1 := s.resetCoach c
      let s2 := { s1 with boot := { s1.boot with guardResets := s1.boot.guardResets.filter (· != c) },
                          rep := { s1.rep with resetting := s1.rep.resetting.filter (· != c) } }
      if host then
        { (s2.setFlag HEAD_COACH_RESET.busy false).set HEAD_COACH_RESET.result 1 with boot := { s2.boot with coachReset := none } }
      else s2
    else s

end Sys2Proof.Machine
end

