-- ==== Sys2Proof/Machine/Access.lean ====
section
/-! DEFINITION. Management accesses: what an address names and when it is refused (R7 to R10, R37, R38, R46, R103, R134,
R251, R409, R534), reads with their derived values and RC clears, and the generic part of a register write (R16 to R20). -/

namespace Sys2Proof.Machine

/-- Statuses of R394 that accesses answer. -/
def stOk : Nat := 0
def stBusy : Nat := 1
def stAddress : Nat := 2
def stImage : Nat := 3
def stRole : Nat := 5
def stMalformed : Nat := 6
def stTimeout : Nat := 7
def stNotReady : Nat := 8

/-- What a management address names. -/
inductive Target where
  /-- Register `i` of a row at the address; `n` is the tile, bay or 0. -/
  | reg (row : RegRow) (i n : Nat)
  /-- A byte of a weight store, a scratchpad, a tower, or of the windows of the strongbox region. -/
  | weights (n off : Nat)
  | spad (n off : Nat)
  | tower (t off : Nat)
  | staging (off : Nat)
  | certificate (off : Nat)
  | flash (off : Nat)
  deriving DecidableEq, Repr

/-- A site on the edge of its coach, which has hitch ports (R31, R134). -/
def edgeSite (n : Nat) : Bool :=
  let u := siteOf n % 12
  let v := siteOf n / 12
  n < 9216 && (u == 0 || u == 11 || v == 0 || v == 11)

/-- A tile register at an offset, for the tile's class (R134). -/
def tileReg (n off : Nat) : Option Target :=
  match findReg .tile off with
  | none => none
  | some (r, i) => if r.cls.testBit (tileClass n) && (r != TILE_HITCH_STATUS || edgeSite n) then some (.reg r i n) else none

/-- A register of the head, strongbox, bay, tower interface or coupling unit `n`. -/
def unitReg (sp : Space) (off n : Nat) : Option Target := (findReg sp off).map fun x => .reg x.1 x.2 n

/-- What an address names; none for an access that R10, R38, R46 or R453 (a roof in
retention) refuses. -/
def State.target (s : State) (a : Nat) : Option Target :=
  let off := a % 0x10000000
  match a / 0x100000000000 with
  | 0 => unitReg .head a 0
  | 1 =>
    let c := a / 0x1000000000 % 64
    let site := a / 0x10000000 % 256
    let n := c * 144 + site
    if 0x140000000000 ≤ a ∨ 144 ≤ site ∨ s.rep.isolated.contains c then none
    else if off < wsBytes then
      (if tileClass n = 0 ∧ s.get (PWR_DOM_STATE.state.dom (256 + c)) ≠ 3 then some (.weights n off) else none)
    else if 0xF000000 ≤ off then tileReg n off
    else if 0x8000000 ≤ off ∧ off < 0x8000000 + spadBytes n ∧ off % 8 = 0 then some (.spad n (off - 0x8000000))
    else none
  | 2 =>
    let b := a / 0x1000000000 % 32
    let u := a / 0x10000000 % 256
    let n := 9216 + 32 * b + u
    if 0x220000000000 ≤ a ∨ 24 ≤ b then none
    else if u < 0x20 then
      (if 0xF000000 ≤ off then tileReg n off
       else if 0x8000000 ≤ off ∧ off < 0x8000000 + spadBytes n ∧ off % 8 = 0 then some (.spad n (off - 0x8000000))
       else none)
    else if u = 0x20 then unitReg .bay off b
    else if u = 0x21 then unitReg .tower off b
    else if u = 0x22 then unitReg .cpl off b
    else none
  | 3 =>
    let t := a / 0x1000000000 % 32
    if 0x320000000000 ≤ a ∨ 24 ≤ t ∨ s.towerFailed t ∨ s.get SBX_STATUS.mode = 2 ∨ a % 8 ≠ 0 then none
    else some (.tower t (a % 0x1000000000))
  | 4 =>
    let o := a - 0x400000000000
    if a % 8 ≠ 0 then none
    else if 0x100000 ≤ o ∧ o < 0x101000 then some (.staging (o - 0x100000))
    else if 0x200000 ≤ o ∧ o < 0x201000 then some (.certificate (o - 0x200000))
    else if 0x1000000 ≤ o ∧ o < 0x2000000 then some (.flash (o - 0x1000000))
    else unitReg .sbx a 0
  | _ => none

/-- Rows that lie in mailbox pages; channel 0 reaches only MBX_STATUS, and only to read it (R409). -/
def isMailbox (r : RegRow) : Bool := [MBX_SEND, MBX_RECV, MBX_STATUS, MBX_BELL, MBX_RING, MBX_MASK, MBX_CTRL].contains r

/-! ### Indexed registers -/

/-- The bank of a tile that TILE_ECC_SEL selects, if it selects one. -/
def State.eccBank (s : State) (n : Nat) : Option Nat :=
  let b := s.get (TILE_ECC_SEL.bank.tile n)
  if b < 64 then (if b * 0x20000 < spadBytes n then some b else none)
  else if b = 0x40 then (if tileClass n = 0 then some b else none)
  else if b = 0x41 then (if n < 9216 ∧ s.tableScrubber (n / 144) = some n then some b else none)
  else none

/-- A value within its range. -/
def within (v bound : Nat) : Option Nat := if v < bound then some v else none

/-- The copy that the index register of a bank selects; none while it selects a value at or above the range. -/
def State.bankIx (s : State) (b : Bank) (n : Nat) : Option Nat :=
  match b with
  | .none => some 0
  | .fmt => within (s.get HEAD_FMT_INDEX.layer) (s.get HEAD_SHADOW_CTRL.layers)
  | .carriage => within (s.get HEAD_CARRIAGE_INDEX.carriage) (s.get HEAD_PIPE_CONFIG.carriages)
  | .kvGroup => within (s.get HEAD_KV_GROUP_INDEX.group) (s.get HEAD_PIPE_CONFIG.carriages - 1)
  | .ring => some (s.get HEAD_RING_INDEX.ring)
  | .tenant => some (s.get HEAD_TENANT_INDEX.tenant)
  | .profile => some (s.get HEAD_SAMP_INDEX.profile)
  | .adapter => within (s.get HEAD_ADAPTER_INDEX.slot) (s.get HEAD_SERVE_CONFIG.adapter_slots)
  | .reloc => some (s.get HEAD_RELOC_INDEX.coach * 256 + s.get HEAD_RELOC_INDEX.tile)
  | .defect => within (s.get HEAD_DEFECT_INDEX.index) s.rep.defects.length
  | .log => within (s.get HEAD_LOG_INDEX.age) s.sbx.log.length
  | .domain => within (s.get PWR_DOM_INDEX.domain) 423
  | .rail => within (s.get PWR_RAIL_INDEX.rail) 0xB5
  | .sensor => within (s.get THM_SENSOR_INDEX.sensor) 408
  | .clkDom => let d := s.get CLK_DOM_INDEX.domain; if 1 ≤ d ∧ d ≤ 25 then some d else none
  | .eccBank => s.eccBank n

/-- Indexed registers that refuse writes while the index is out of range (R168, R280). -/
def bankRefuses (b : Bank) : Bool := b == .fmt || b == .tenant || b == .profile || b == .adapter

/-- Whether the copies of a row have their own storage, by the index. -/
def bankKey (b : Bank) (x : Nat) : Nat := if b == .none then 0 else x * 281474976710656

/-! ### Reads -/

/-- HEAD_RING_STATE of a ring (R280). -/
def State.ringState (s : State) (ring : Nat) : Nat :=
  let queued := (s.serv.reqs.filter fun r => r.ring == ring && r.phase == .queued).length
  let act := s.serv.reqs.find? fun r => r.ring == ring && r.holdsRing && r.phase != .queued
  queued * 2 ^ 57 +
    match act with
    | none => 0
    | some r =>
      let p := match r.phase with
        | .queued => 0 | .tail => 1 | .prefill => 1 | .ready => 2 | .parked => 3 | .slot => 4 | .ended => 5 | .gone => 5
      let at_ := if p = 4 ∨ p = 5 then r.carriage % 512 * 2 ^ 48 + r.slot % 16 * 2 ^ 44 else 0
      p * 2 ^ 61 + at_ + r.gen.length

/-- HEAD_TENANT_LEVEL of a tenant (R280). -/
def State.tenantLevel (s : State) (t : Nat) : Nat :=
  (BitVec.ofInt 32 (s.level t)).toNat * 2 ^ 32
    + ((s.serv.reqs.filter fun r => r.tenant == t && r.phase == .parked).length) % 16384 * 2 ^ 14 + s.activeOf t % 16384

/-- HEAD_ADAPTER_STATE or HEAD_MODEL_STATE with its counts of bound requests. -/
def withBound (v a b : Nat) : Nat := setBits (setBits v 32 14 a) 46 14 b

/-- `queued` of HEAD_PREFILL_STATUS: tokens in the queue that still need prefill (R197). -/
def State.queuedTokens (s : State) : Nat :=
  ((s.serv.queue.filterMap fun id => s.req? id).map Req.rest).sum

/-- The whole value of a register, its stored fields and those that follow from the state; `n` is its unit, `i` its number and
`x` the copy that the index selects. -/
def State.regView (s : State) (r : RegRow) (a i n x : Nat) : Nat :=
  let v := s.reg (a + bankKey r.bank x)
  if r = HEAD_CARRIAGE_STATE then (Sparse.find s.serv.carView x).getD 0
  else if r = HEAD_KV_GROUP_STATE then (Sparse.find s.serv.kvView x).getD 0
  else if r = HEAD_RING_STATE then s.ringState x
  else if r = HEAD_TENANT_LEVEL then s.tenantLevel x
  else if r = HEAD_ADAPTER_STATE then withBound v (s.bound x 1) (s.bound x 2)
  else if r = HEAD_MODEL_STATE then withBound v (s.boundHalf 0) (s.boundHalf 1)
  else if r = HEAD_RETURN_STATUS then setBits v 0 21 s.serv.rets.length
  else if r = HEAD_PREFILL_STATUS then setBits v 0 32 (min (2 ^ 32 - 1) s.queuedTokens)
  else if r = HEAD_RELOC_ENTRY then s.relocEntry x
  else if r = HEAD_DEFECT_ENTRY then s.rep.defects.getD x 0
  else if r = HEAD_LOG_WORD_n then (match s.sbx.log[x]? with | none => 0 | some l => leNat ((l.bytes.drop (8 * i)).take 8))
  else if r = CTL_PORT_STATUS then
    setBits v 28 20 (match s.port.long with | none => 0 | some c => min (2 ^ 20 - 1) ((s.ticks - c.start) / 160000))
  else if r = MBX_STATUS then s.mbxStatus (i / 2) (i % 2)
  else if r = EVT_STREAM then setBits v 0 17 s.ev.stream.length
  else if r = EVT_SRC_n then setBits v 60 2 (s.routeOf i)
  else if r = CLK_DOM_STATUS then
    let m := clkInstances x
    setBits (setBits (setBits v 63 1 (if (List.range m).all fun j => s.isGated x j then 1 else 0)) 8 8 m) 0 8 (s.readyCount x)
  else if r = THM_SENSOR ∧ s.thm.atb.contains x ∧ bits v 62 2 = 0 then setBits v 62 2 1
  else if r = TILE_STATE then setBits v 7 1 (s.get HEAD_IMAGE_STATUS.debug)
  else if r = TILE_LINK_STATUS_p ∧ s.boot.mapped ∧ (linkEnd n i).isSome then
    setBits (setBits v 62 2 (max 1 (bits v 62 2))) 60 2 (max 1 (bits v 60 2))
  else if r = TILE_ID ∧ s.boot.mapped then
    setBits (setBits (setBits v 30 2 (tileClass n)) 24 6 (placeOf n % 64)) 16 8 (siteOf n)
  else v

/-- What a read returns: every field but write-only ones; reserved bits read zero (R17, R18). -/
def RegRow.readable (r : RegRow) (v : Nat) : Nat := r.fields.foldl (fun a f => if f.acc = .wo then a else a + bits v f.lo f.w <<< f.lo) 0

/-- RC fields return to their reset values (R17). -/
def State.clearRc (s : State) (r : RegRow) (key : Nat) : State :=
  r.fields.foldl (fun t f => if f.acc = .rc then t.set ⟨key, f.lo, f.w⟩ f.reset else t) s

/-- Read a register of its row: nothing is read, and nothing cleared, while an index selects none. -/
def State.readReg (s : State) (r : RegRow) (a i n : Nat) : Nat × State :=
  match s.bankIx r.bank n with
  | none => (0, s)
  | some x => (r.readable (s.regView r a i n x), s.clearRc r (a + bankKey r.bank x))

/-- Byte of the identity certificate (R534). -/
def certByte (off : Nat) : Byte :=
  if off < 8 then (leBytes 8 Config.serial.toNat).getD off 0 else if off < 1320 then Config.identityKey (off - 8)
  else if off < 3740 then Config.certSignature (off - 1320) else Config.certRest (off - 3740)

/-- Key of a byte of the key staging window. -/
def stagingKey (off : Nat) : Nat := 0x400000100000 + off

/-- The slot that did not boot, whose flash the window shows (R523). -/
def State.flashSlot (s : State) : Nat := 1 - s.get SBX_STATUS.boot_slot

/-- A management read of 8 B: its status, value and effect (R10, R17, R103). -/
def State.mgmtRead (s : State) (a : Nat) : Nat × Nat × State :=
  match s.target a with
  | none => (stAddress, 0, s)
  | some (.reg r i n) =>
    if isMailbox r ∧ r ≠ MBX_STATUS then (stAddress, 0, s)
    else
      let v := s.readReg r a i n
      (stOk, v.1, v.2)
  | some (.weights _ _) => (stAddress, 0, s)
  | some (.spad n off) =>
    let v := s.readSpad n .network off 8
    (stOk, leNat v.1, v.2)
  | some (.tower t off) => (stOk, s.num (towerBase t + off) 8, s)
  | some (.staging off) => (stOk, s.num (stagingKey off) 8, s)
  | some (.certificate off) => (stOk, leNat ((List.range 8).map fun i => certByte (off + i)), s)
  | some (.flash off) => (stOk, s.num (flashKey (s.flashSlot * 0x1000000 + off)) 8, s)

/-- A management read of a roof word: its main part, with the side part in TILE_WS_SIDE (R103); an uncorrectable
one is reloaded and voids nothing, as for a scrub read (DESIGN CHOICE, log entry 35). It comes behind a write of the word that still
waits for its slot. -/
def State.readWeights (s : State) (n off : Nat) : List Byte × State :=
  let r := s.readWord n (off / 64) .manage
  let v := if s.tile.late.any fun w => w.key == wordKey n (off / 64) then
    ((s.cycles (s.tile.late.length + 1)).readWord n (off / 64) .manage).1 else r.1
  (leBytes 64 (v % 2 ^ 512), r.2.set (TILE_WS_SIDE.side.tile n) (v / 2 ^ 512))

/-- A management write of a roof word, its side part from TILE_WS_SIDE (R103), through the bank's write slot (R102). -/
def State.writeWeights (s : State) (n off : Nat) (bs : List Byte) : State :=
  s.queueRoof n (wordKey n (off / 64)) (leNat bs % 2 ^ 512 + s.get (TILE_WS_SIDE.side.tile n) * 2 ^ 512) 2 0

/-! ### The generic part of a register write -/

/-- Write a register of its row: RW fields are set, W1C bits cleared, W1S bits set; the rest is ignored (R17, R18). -/
def State.writeReg (s : State) (r : RegRow) (key v : Nat) : State :=
  r.fields.foldl (fun t f =>
    let g : Fld := ⟨key, f.lo, f.w⟩
    let x := bits v f.lo f.w
    match f.acc with
    | .rw => t.set g x
    | .w1c => t.set g (t.get g &&& (2 ^ f.w - 1 - x))
    | .w1s => t.set g (t.get g ||| x)
    | _ => t) s

/-- The scratchpad offset lies in the tables of a layer group, which only the device writes (R215, R218). -/
def State.inTable (s : State) (n off : Nat) : Bool :=
  match s.img.image with
  | none => false
  | some i =>
    let len := 128 + 16 * (i.cmax / 64)
    (List.range i.kv.length).any fun g => match i.kv[g]? with
      | none => false
      | some k => k.tables.any fun t => s.tileOf t.1 == some n && decide (t.2 ≤ off + 7 ∧ off < t.2 + len)

end Sys2Proof.Machine
end

