-- ==== Sys2Proof/Machine/Settings.lean ====
section
/-! DEFINITION. Management writes: what each register does beyond the generic write (R64, R77 to R82, R163, R164, R177,
R234, R262, R274 to R277, R280, R309, R460, R461, R499, R505, R515, R523, R529 to R531, R548, R574). -/

namespace Sys2Proof.Machine

/-- What a management write did: its status, and whether it was accepted into a shadow of the swap set (R78). -/
structure Wrote where
  status : Nat
  swap : Bool
  s : State
  deriving DecidableEq, Repr

/-- A write performed, refused with a status, and accepted into a shadow. -/
def wrote (s : State) : Wrote := ⟨stOk, false, s⟩
def refused (st : Nat) (s : State) : Wrote := ⟨st, false, s⟩
def shadowed (s : State) : Wrote := ⟨stOk, true, s⟩

/-- The turn that begins with a write of now in effect: the next one, or the one after it once the boundary spoke has begun
(R78, R82). -/
def State.effectTurn (s : State) : Nat :=
  if s.turning then (if s.boundary?.isSome then s.turnNo + 2 else s.turnNo + 1) else 0

/-! ### The swap set -/

/-- A recipe that a layer's format entry does not support (R163). -/
def recipeBad (f : Fmt) (wide : Bool) (v : Nat) : Bool :=
  let sh := shiftOf (bits v 8 8)
  (v.testBit 0 && !wide) || (v.testBit 1 && !f.caps.testBit 1) || (v.testBit 2 && !f.caps.testBit 0) || decide (sh < -32 ∨ 32 < sh)

/-- A write of HEAD_FMT_RECIPE for the selected layer (R163, R164). One that is both unsupported and too soon records *unsupported*,
and the 1,024 turns count on the turn numbers as they stand, which begin again at 0 with each start of the image while
`last_change` stays (DESIGN CHOICE, log entry 51). -/
def State.writeRecipe (s : State) (l key v : Nat) : Wrote :=
  let deny (why : Nat) : Wrote := wrote ((s.set (HEAD_FMT_STATUS.last_refusal.ix l) why).inc (HEAD_FMT_STATUS.refused.ix l))
  if recipeBad (s.fmt l) (s.flag HEAD_FMT_SET.available) v then deny 1
  else if s.flag (HEAD_FMT_INFO.changed.ix l) ∧ s.effectTurn < s.get (HEAD_FMT_INFO.last_change.ix l) + 1024 then deny 2
  else
    let s1 := s.writeReg HEAD_FMT_RECIPE key v
    shadowed (s1.putShadow (.recipe l) true (s1.reg key))

/-- A write of `wide_req`. -/
def State.writeWide (s : State) (v : Nat) : Wrote :=
  if v.testBit 0 ∧ !s.flag HEAD_FMT_SET.available then wrote s
  else shadowed ((s.setFlag HEAD_FMT_SET.wide_req (v.testBit 0)).putShadow .wide true (v % 2))

/-- A sampling profile within R262. -/
def profileOk (v : Nat) : Bool :=
  let t := bits v 0 16
  let r := bits v 48 16
  (t == 0 || decide (0x3B80 ≤ t ∧ t ≤ 0x4280)) && decide (1 ≤ bits v 16 9 ∧ bits v 16 9 ≤ 256)
    && decide (1 ≤ bits v 32 11 ∧ bits v 32 11 ≤ 1024) && decide (0x3F80 ≤ r ∧ r < 0x7F80)

/-- A write of HEAD_SAMP_PROFILE for the selected profile. -/
def State.writeProfile (s : State) (p key v : Nat) : Wrote :=
  if profileOk v then
    let s1 := s.writeReg HEAD_SAMP_PROFILE key v
    shadowed (s1.putShadow (.profile p) true (s1.reg key))
  else wrote (s.inc HEAD_SERVE_STATS.setting_refused)

/-- A write of HEAD_ADAPTER_PTR for the selected slot. -/
def State.writeAdapter (s : State) (a v : Nat) : Wrote :=
  let sel := v % 4
  if sel = 3 ∨ (sel ≠ 0 ∧ s.get (copyState a sel) = 0) then wrote (s.inc HEAD_SERVE_STATS.setting_refused)
  else shadowed ((s.set (HEAD_ADAPTER_PTR.sel.ix a) sel).putShadow (.adapter a) true sel)

/-- A write of HEAD_MODEL_PTR. -/
def State.writeModel (s : State) (v : Nat) : Wrote :=
  let sel := v % 4
  if 2 ≤ sel ∨ (sel = 1 ∧ !s.flag HEAD_SERVE_CONFIG.halves) ∨ s.get (halfState sel) = 0 then wrote (s.inc HEAD_SERVE_STATS.setting_refused)
  else shadowed ((s.set HEAD_MODEL_PTR.sel sel).putShadow .model true sel)

/-- A write of PWR_COACH_ON: refused whole when it clears a coach in use; set bits of dark coaches are ignored (R461). -/
def State.writeCoachOn (s : State) (v : Nat) : Wrote :=
  let old := s.get PWR_COACH_ON.on
  if (List.range 64).any fun c => old.testBit c && !v.testBit c && s.coachInUse c then wrote (s.inc PWR_PLAN.refused)
  else
    let w := ((List.range 64).filter fun c => v.testBit c && !s.coachDark c).foldl (fun a c => a + 2 ^ c) 0
    shadowed ((s.set PWR_COACH_ON.on w).putShadow .coachOn true w)

/-- A value taken to the nearer limit of its range. -/
def clampTo (lo hi v : Nat) : Nat := max lo (min hi v)

/-- A write of `step_cap`. -/
def State.writeStepCap (s : State) (v : Nat) : Wrote :=
  let k := clampTo 48 95 (bits v 48 7)
  shadowed ((s.set PWR_GOV.step_cap k).putShadow .stepCap true k)

/-! ### The analogue test buses (R571 to R574) -/

/-- A write to HEAD_ATB_SEL_n is refused (R574). -/
def State.atbRefused (s : State) (n bus unit node : Nat) : Bool :=
  let o := n ^^^ 1
  let other := s.atbSel o
  if bus = 0x3F then false
  else if 0x22 ≤ bus then true
  else if other.1 = bus then true
  else
    match atbCoach n bus with
    | some c =>
      let both := match atbDiode n bus node, atbDiode o other.1 other.2 with
        | some d, some e => d != e && d / 2 == e / 2
        | _, _ => false
      let st := s.get (PWR_DOM_STATE.state.dom (4 * c))
      decide (0x0A < node) || st == 0 || st == 4 || both
    | none =>
      decide (6 < node) || !(if bus = 0x20 then decide (unit ≤ 2) else decide (3 ≤ unit ∧ unit ≤ 5) || (unit == 6 && n / 2 == 3))

/-- Select a node: the old connection opens now and the new one closes 1 µs later (R574). -/
def State.atbWrite (s : State) (n bus unit node : Nat) : State :=
  if s.atbRefused n bus unit node then s.setFlag (HEAD_ATB_SEL_n.refused.pin n) true
  else if s.get (HEAD_ATB_SEL_n.bus.pin n) = bus ∧ s.get (HEAD_ATB_SEL_n.node.pin n) = node ∧ s.get (HEAD_ATB_SEL_n.unit.pin n) = unit then s
  else
    let s1 := (((s.openPin n).set (HEAD_ATB_SEL_n.bus.pin n) bus).set (HEAD_ATB_SEL_n.node.pin n) node).set (HEAD_ATB_SEL_n.unit.pin n) unit
    if bus = 0x3F ∨ node = 0 then s1 else { s1 with boot := { s1.boot with atbDue := s1.boot.atbDue ++ [(n, s.ticks + usTicks 1)] } }

/-- A management write: W1C on `refused`, then the selection. -/
def State.writeAtb (s : State) (n v : Nat) : State :=
  let s1 := if v.testBit 63 then s.setFlag (HEAD_ATB_SEL_n.refused.pin n) false else s
  s1.atbWrite n (bits v 8 6) (bits v 16 3) (bits v 0 5)

/-! ### The strongbox (R515, R523, R529 to R531) -/

/-- Role of the open session (R410): 1 operator, 2 service. -/
def State.role (s : State) : Nat := s.get CTL_PORT_STATUS.role

/-- The session ends (R389): numbering and buffered data are kept. -/
def State.endSession (s : State) : State :=
  if s.get CTL_PORT_STATUS.link = 2 then
    let s1 := (s.set CTL_PORT_STATUS.link 1).set CTL_PORT_STATUS.role 0
    { s1 with port := { s1.port with secret := [], transcript := [] } }
  else s

/-- Debug operation and raw debug follow the policy bits (R529). -/
def State.setDebug (s : State) (d r : Bool) : State :=
  let s1 := ((s.setFlag SBX_POLICY.debug d).setFlag SBX_POLICY.raw_debug r).setFlag SBX_STATUS.debug_active d
  (List.range 24).foldl (fun t k => t.setFlag (CPL_CONFIG.raw_debug.cpl k) r) s1

/-- A debug image stops at the next boundary when it runs, and is unloaded when it has not started (R530). -/
def State.dropDebugImage (s : State) : State :=
  if !s.flag HEAD_IMAGE_STATUS.debug then s
  else if s.running then { s with turn := { s.turn with stopCmd := if s.turn.stopCmd.isSome then s.turn.stopCmd else some (2 ^ 32) } }
  else if s.get HEAD_IMAGE_STATUS.state = 2 then s.unloadImage
  else s

/-- A write of SBX_POLICY: a bit of the other role that changes refuses it whole (R515). The operator grants, the service role
acts within what is granted (R529), and a grant taken back ends what rests on it (R530). -/
def State.writePolicy (s : State) (role v : Nat) : Wrote :=
  let ad := v.testBit 1
  let d := v.testBit 2
  let rd := v.testBit 3
  let mine := if role = 1 then 3 else if role = 2 then 12 else 0
  let now := s.reg SBX_POLICY.raw_debug.key
  if (v % 16 ^^^ now % 16) &&& (15 - mine) ≠ 0 ∨ mine = 0 then refused stRole s
  else if role = 1 then
    let s1 := (s.setFlag SBX_POLICY.allow_service (v.testBit 0)).setFlag SBX_POLICY.allow_debug ad
    if now.testBit 1 ∧ !ad then wrote (s1.setDebug false false).dropDebugImage else wrote s1
  else if (d ∧ !now.testBit 2 ∧ (!now.testBit 1 ∨ s.get HEAD_IMAGE_STATUS.state ≠ 0)) ∨ (rd ∧ !d) then refused stNotReady s
  else wrote (s.setDebug d rd)

/-- Slots of operator keys that are enrolled. -/
def State.operatorKeys (s : State) : List Nat := (s.sbx.keys.map (·.1)).filter fun k => decide (k < 4)

/-- The staged key. -/
def State.stagedKey (s : State) : List Byte := s.bytes (stagingKey 0) 1312

/-- Enrol the staged key into a slot; `result` of SBX_KEY_STATE tells what became of it (R531, R534). -/
def State.enrolKey (s : State) (slot : Nat) : State :=
  let r := if (Sparse.find s.sbx.keys slot).isSome then 1 else if !Config.mldsaKeyValid s.stagedKey then 4 else 0
  let s1 := s.set SBX_KEY_STATE.result r
  if r = 0 then { s1 with sbx := { s1.sbx with keys := Sparse.put s1.sbx.keys slot s.stagedKey } }.syncKeys else s1

/-- Remove the key of a slot. -/
def State.removeKey (s : State) (slot : Nat) : State :=
  let r := if (Sparse.find s.sbx.keys slot).isNone then 2 else if s.operatorKeys = [slot] then 3 else 0
  let s1 := s.set SBX_KEY_STATE.result r
  if r = 0 then { s1 with sbx := { s1.sbx with keys := Sparse.drop s1.sbx.keys slot } }.syncKeys else s1

/-- A write of SBX_KEY_CTRL. -/
def State.writeKeyCtrl (s : State) (role v : Nat) : Wrote :=
  if role ≠ 1 then refused stRole s
  else wrote (match bits v 8 8 with | 1 => s.enrolKey (v % 8) | 2 => s.removeKey (v % 8) | _ => s)

/-- Write a whole sector of the flash window: the first write to it erases it; later ones clear bits only (PRESUMED, log entry 36). -/
def State.writeSector (s : State) (off : Nat) (bs : List Byte) : State :=
  let sec := off / 4096
  let k := flashKey (s.flashSlot * 0x1000000 + off)
  if s.sbx.erased.contains sec then s.wrBytes k (List.zipWith (fun a b => a &&& b) (s.bytes k 4096) bs)
  else
    let s1 := s.wrBytes k bs
    { s1 with sbx := { s1.sbx with erased := sec :: s1.sbx.erased } }

/-- A write of `hold`; the value before it is kept for a boundary spoke that has begun (R81). -/
def State.writeHold (s : State) (b : Bool) : State :=
  let s1 := { s with turn := { s.turn with holdLog := (s.ticks, s.flag HEAD_SWAP_CTRL.hold) :: s.turn.holdLog } }
  (s1.setFlag HEAD_SWAP_CTRL.hold b).syncPending

/-! ### Every register -/

/-- A write to a register of the head region that does more than the generic write, or the generic write. -/
def State.writeHead (s : State) (r : RegRow) (a i x v : Nat) : Wrote :=
  let key := a + bankKey r.bank x
  if r = HEAD_AXLE_CTRL then wrote (if v.testBit 1 then s.disarmWrite else if v.testBit 0 then s.armWrite else s)
  else if r = HEAD_SWAP_CTRL then wrote (s.writeHold (v.testBit 0))
  else if r = HEAD_FMT_RECIPE then s.writeRecipe x key v
  else if r = HEAD_FMT_SET then s.writeWide v
  else if r = HEAD_SHADOW_CTRL then
    let s1 := s.writeReg r key v
    wrote (if v.testBit 32 then s1 else s1.setServ fun y => { y with samples := [] })
  else if r = HEAD_PREFILL_CTRL then
    let cap := s.get HEAD_PREFILL_CONFIG.batch_cap
    let s1 := (s.set HEAD_PREFILL_CTRL.max_wait (max 1 (bits v 32 16))).setFlag HEAD_PREFILL_CTRL.enable (v.testBit 0)
    wrote (if s.get HEAD_IMAGE_STATUS.state < 2 then s1 else s1.set HEAD_PREFILL_CTRL.batch_min (clampTo 64 cap (ceilDiv (bits v 16 13) 64 * 64)))
  else if r = HEAD_PREFIX_CTRL then
    let s1 := s.setFlag HEAD_PREFIX_CTRL.enable (v.testBit 0)
    wrote (if v.testBit 1 then s1.flushNodes else s1)
  else if r = HEAD_SERVE_CTRL then wrote ((s.set HEAD_SERVE_CTRL.res_wait (max 1 (bits v 16 16))).setFlag HEAD_SERVE_CTRL.admit_enable (v.testBit 0))
  else if r = HEAD_TENANT_CFG then
    let s1 := (s.writeReg r key v).set (HEAD_TENANT_CFG.prompt_cost.ix x) (min 16 (bits v 57 5))
    wrote (if v.testBit 63 ∧ !s.flag (HEAD_TENANT_CFG.enable.ix x) then s1.setServ fun y => { y with rose := x :: y.rose } else s1)
  else if r = HEAD_SAMP_PROFILE then s.writeProfile x key v
  else if r = HEAD_ADAPTER_PTR then s.writeAdapter x v
  else if r = HEAD_MODEL_PTR then s.writeModel v
  else if r = PWR_GOV then s.writeStepCap v
  else if r = PWR_COACH_ON then s.writeCoachOn v
  else if r = THM_CTRL then wrote ((s.writeReg r key v).set THM_CTRL.warm_min (clampTo 45 60 (bits v 0 8)))
  else if r = CLK_DOM_CTRL then wrote (s.clkRequest .host x (bits v 0 4) (v.testBit 4) none)
  else if r = EVT_SRC_n then wrote (if i < 16 then s else s.writeReg r key v)
  else if r = HEAD_COACH_RESET then wrote (if v.testBit 8 then s.coachResetRequest (bits v 0 6) else s.writeReg r key v)
  else if r = HEAD_ATB_SEL_n then wrote (s.writeAtb i v)
  else wrote (s.writeReg r key v)

/-- A write to a tile register. -/
def State.writeTile (s : State) (r : RegRow) (a i n v : Nat) : Wrote :=
  if r = TILE_CART_ISSUE_n then (if s.running then refused stAddress s else wrote (s.cartIssue n i (bits v 6 22 * 64)))
  else if r = TILE_HAZ_STATUS then
    let s1 := s.writeReg r a v
    wrote (if v.testBit 62 then s1.clearHazards n else s1)
  else if r = TILE_TRAP then
    wrote ((s.writeReg r a v).iff (v.testBit 63) fun t => t.set (TILE_TRAP.further.tile n) 0)
  else if r = TILE_SCRUB_CTRL then
    wrote (((s.writeReg r a v).set (TILE_SCRUB_CTRL.idle_pass.tile n) (clampTo 10 600 (bits v 16 10))).set (TILE_SCRUB_CTRL.load_pass.tile n) (clampTo 1 240 (bits v 8 8)))
  else wrote (s.writeReg r a v)

/-- A write to a register of a bay. -/
def State.writeBay (s : State) (r : RegRow) (a b v : Nat) : Wrote :=
  if r = BAY_SCRUB_CTRL then
    wrote (((s.writeReg r a v).set (BAY_SCRUB_CTRL.idle_pass.bay b) (clampTo 10 600 (bits v 16 10))).set (BAY_SCRUB_CTRL.load_pass.bay b) (clampTo 1 240 (bits v 8 8)))
  else wrote (s.writeReg r a v)

/-- A write to a register of its row. -/
def State.writeRow (s : State) (r : RegRow) (role a i n v : Nat) : Wrote :=
  if isMailbox r then refused stAddress s
  else
    match r.space with
    | .sbx =>
      if r = SBX_POLICY then s.writePolicy role v
      else if r = SBX_KEY_CTRL then s.writeKeyCtrl role v
      else wrote s
    | .tile => s.writeTile r a i n v
    | .bay => s.writeBay r a n v
    | .cpl => if r = CPL_CONFIG ∧ role ≠ 1 then refused stRole s else wrote (s.writeReg r a v)
    | .tower => wrote (s.writeReg r a v)
    | .head =>
      match s.bankIx r.bank n with
      | none => if bankRefuses r.bank then refused stAddress s else wrote s
      | some x => s.writeHead r a i x v

/-- A management write of 8 B under a session's role, 0 for none (R10, R16 to R20, R515). -/
def State.mgmtWrite (s : State) (role a v : Nat) : Wrote :=
  match s.target a with
  | none => refused stAddress s
  | some (.reg r i n) => s.writeRow r role a i n v
  | some (.weights _ _) => refused stAddress s
  | some (.spad n off) => if s.inTable n off then refused stAddress s else wrote (s.queueWrite n .network off (leBytes 8 v))
  | some (.tower t off) => if 0xFC0000000 ≤ off then refused stAddress s else wrote (s.wrNum (towerBase t + off) 8 v)
  | some (.staging off) => if role = 1 then wrote (s.wrNum (stagingKey off) 8 v) else refused stRole s
  | some (.certificate _) => if role = 0 then refused stRole s else wrote s
  | some (.flash _) => if role = 1 then refused stAddress s else refused stRole s

end Sys2Proof.Machine
end

