-- ==== Sys2Proof/Machine/Port.lean ====
section
/-! DEFINITION. The control port below its commands: frames, channels, sessions, handshakes and key phases (R383 to R392,
R511, R513 to R520). -/

namespace Sys2Proof.Machine

/-! ### Frames of the host -/

/-- A version or reserved field is wrong, or the length does not fit (R384, R386). -/
def frameBad (f : Frame) : Bool :=
  f.version != 1 || f.resv != 0 || decide (5 < f.chan) || decide (2 < f.kind) || f.len != f.payload.length || decide (16384 < f.len)
    || (f.kind == 1 && f.len != 0)

/-- The phase under whose key a sealed frame of the host opens, and its payload: the receiver holds the keys of the current and the
previous phase, and the sender may have begun the next one (R385, R520). -/
def State.openFrame (s : State) (f : Frame) : Option (Nat × List Byte) :=
  ([s.port.rxPhase, s.port.rxPhase + 1] ++ (if s.port.rxPhase = 0 then [] else [s.port.rxPhase - 1])).findSome? fun n =>
    if n % 2 = f.keyPhase ∧ f.trailer.length = 16 then
      match Config.gcmOpen (s.sessionKey 0 n) (frameIv 0 f) (frameHeader f) f.payload f.trailer with
      | none => none
      | some p => if p.length = f.payload.length then some (n, p) else none
    else none

/-- The first `n` records of channel c are acknowledged: they leave their queue (R391). -/
def State.acknowledged (s : State) (c n : Nat) : State :=
  match c with
  | 0 => { s with port := { s.port with resp := s.port.resp.drop n } }
  | 1 => { s with port := { s.port with mbxOut := s.port.mbxOut.drop n } }
  | 3 => s.setServ fun v => { v with rets := v.rets.drop n }
  | 4 => { s with ev := { s.ev with stream := s.ev.stream.drop n } }
  | _ => s

/-- The `ack` and `credit` of an authentic frame. -/
def State.applyAck (s : State) (c ack credit : Nat) : State :=
  let x := s.chan c
  let first := mod32 (x.txNext + 2 ^ 32 - x.unacked.length)
  let n := dist32 first (ack + 1)
  let s1 := s.updChan c fun y => { y with txEnd := mod32 (credit + 1) }
  if n ≤ x.unacked.length ∧ 0 < n then
    (s1.acknowledged c n).updChan c fun y => { y with unacked := y.unacked.drop n, ackTick := s.ticks }
  else s1

/-- Count a discarded frame (R386), record or channel 5 frame (R392, R400). -/
def State.authFail (s : State) : State := s.inc CTL_PORT_ERRORS.auth_fail
def State.badRecord (s : State) : State := s.inc CTL_PORT_ERRORS.bad_records

/-- Take whole records off the bytes of channel 2 (R392); the first argument bounds the number of records. -/
def State.cutRecords : Nat → State → List Byte → State
  | 0, s, b => { s with port := { s.port with chan2 := b } }
  | k + 1, s, b =>
    let len := leNat (b.take 4)
    if b.length < 4 then { s with port := { s.port with chan2 := b } }
    else if len < 16 ∨ 524352 < len ∨ len % 4 ≠ 0 then { s with port := { s.port with chan2 := [], chan2Skip := true } }.badRecord
    else if b.length < 4 + len then { s with port := { s.port with chan2 := b } }
    else State.cutRecords k { s with port := { s.port with recs := s.port.recs ++ [(b.drop 4).take len] } } (b.drop (4 + len))

/-- Payload bytes of channel 2 (R392). -/
def State.chan2In (s : State) (recStart : Bool) (b : List Byte) : State :=
  if recStart then
    let s1 := if s.port.chan2.isEmpty then s else s.badRecord
    State.cutRecords b.length { s1 with port := { s1.port with chan2 := [], chan2Skip := false } } b
  else if s.port.chan2Skip then s
  else State.cutRecords (s.port.chan2 ++ b).length s (s.port.chan2 ++ b)

/-- Opcodes of R396 and R399. -/
def opcodes : List Nat :=
  [0x1, 0x2, 0x3, 0x4, 0x20, 0x21, 0x30, 0x40, 0x100, 0x101, 0x102, 0x103, 0x104, 0x110, 0x111, 0x120, 0x121, 0x122, 0x130]

/-- Parameter bytes of the commands whose parameters have one length (R396, R399, R527). -/
def paramBytes (op : Nat) : Option Nat :=
  match op with | 0x1 => some 8 | 0x2 => some 16 | 0x20 => some 8 | 0x21 => some 0 | 0x30 => some 0 | 0x110 => some 32 | 0x130 => some 0 | _ => none

/-- A command frame with a reserved opcode, a reserved field, or parameters of the wrong length (R394). -/
def badCommand (b : List Byte) : Bool :=
  let op := leNat (b.take 2)
  let n := leNat ((b.drop 8).take 4)
  decide (b.length < 16) || !opcodes.contains op || leNat ((b.drop 2).take 2) != 0 || leNat ((b.drop 12).take 4) != 0 || n + 16 != b.length
    || (match paramBytes op with | none => false | some k => n != k)

/-- Records of a channel 1 frame: one of a reserved op is answered with ADDRESS_ERROR; the bytes of the others (R409). -/
def State.boxRecords (s : State) : Nat → List Byte → List Byte × State
  | 0, _ => ([], s)
  | k + 1, b =>
    let op := leNat (b.take 1)
    let here := if 1 ≤ op ∧ op ≤ 7 then b.take 16 else []
    let s1 := if 1 ≤ op ∧ op ≤ 7 then s
      else { s with port := { s.port with mbxOut := s.port.mbxOut ++ [⟨op, leNat ((b.drop 1).take 1), 2, leNat ((b.drop 4).take 4), 0⟩] } }
    let r := s1.boxRecords k (b.drop 16)
    (here ++ r.1, r.2)

/-- A payload accepted on a channel: a command that cannot run is answered at once (R394, R395); channel 2 is parsed; the rest
waits in its buffer. -/
def State.accept (s : State) (f : Frame) : State :=
  let op := leNat (f.payload.take 2)
  let cmd := leNat ((f.payload.drop 4).take 4)
  if f.chan = 2 then
    let t := s.chan2In (f.recStart == 1) f.payload
    { t with port := { t.port with chan2Lens := (f.payload.length :: t.port.chan2Lens).take 64 } }
  else if f.chan = 0 ∧ s.port.long.isSome then s.respond op cmd stBusy 0 true []
  else if f.chan = 0 ∧ badCommand f.payload then s.respond op cmd stMalformed 0 true []
  else if f.chan = 1 then
    let r := s.boxRecords (f.payload.length / 16) f.payload
    if r.1.isEmpty then r.2 else r.2.updChan 1 fun x => { x with rx := x.rx ++ [r.1] }
  else s.updChan f.chan fun x => { x with rx := x.rx ++ [f.payload] }

/-- A sealed frame of the host: discarded under R386, or its ack and credit are taken; `f` handles it further. -/
def State.sealedIn (s : State) (f : Frame) (g : Frame → State → State) : State :=
  if s.get CTL_PORT_STATUS.link = 0 then s
  else if s.get CTL_PORT_STATUS.link ≠ 2 ∨ frameBad f then s.authFail
  else
    match s.openFrame f with
    | none => s.authFail
    | some (n, b) => (g { f with payload := b } ({ s with port := { s.port with rxPhase := max n s.port.rxPhase } }.applyAck f.chan f.ack f.credit)).transmit

/-! ### Sessions (R389, R511, R516 to R518) -/

/-- A handshake in progress is given up and counted. -/
def State.dropShake (s : State) : State :=
  if s.port.shake.isSome then { s with port := { s.port with shake := none } }.inc SBX_STATUS.hs_fail else s

/-- Send a handshake message. -/
def State.sendShake (s : State) (m : List Byte) : State := { s with port := { s.port with shakeOut := m } }

/-- Bytes of the identity public key. -/
def identityPk : List Byte := (List.range 1312).map fun i => Config.identityKey i

/-- H1 (R516): it ends an open session, and D1 answers; a strongbox in its error state refuses (R511, R517). -/
def State.helloIn (s : State) (m : List Byte) : State :=
  let role := leNat ((m.drop 1).take 1)
  let slot := leNat ((m.drop 2).take 1)
  if s.get CTL_PORT_STATUS.link = 0 ∨ m.length ≠ 36 ∨ m.take 1 ≠ [1] ∨ (m.drop 3).take 1 ≠ [0] ∨ !(role == 1 && decide (slot < 4) || role == 2 && slot == 0) then s
  else
    let s1 := s.endSession.dropShake
    if s1.get SBX_STATUS.mode = 2 then (s1.inc SBX_STATUS.hs_fail).sendShake [2, 4]
    else
      let r := s1.takeBytes 32
      let k := r.2.sbx.kems
      let body : List Byte := [2, 0, 0, 0] ++ r.1 ++ Config.mlkemEk k ++ Config.sha3 identityPk
      let d1 := body ++ Config.mldsaSign 2 (Config.sha3 (m ++ body))
      { r.2 with sbx := { r.2.sbx with kems := k + 1 },
                 port := { r.2.port with shake := some ⟨m, d1, role, slot, k, r.2.ticks⟩, shakeOut := d1 } }

/-- Status that H2 earns (R517): the role, the key, then the signature. -/
def State.shakeStatus (s : State) (h : Shake) (m : List Byte) : Nat :=
  let pk := (m.drop 1092).take 1312
  let keyOk :=
    if h.role = 2 then Config.sha3 pk == Config.fusedDigest 1
    else if s.flag SBX_STATUS.claimed then Sparse.find s.sbx.keys h.slot == some pk else true
  if s.get SBX_STATUS.mode = 2 then 4
  else if h.role = 2 ∧ !s.flag SBX_POLICY.allow_service then 1
  else if !keyOk then 2
  else if !Config.mldsaVerify 3 pk (Config.sha3 (h.h1 ++ h.d1 ++ m.take 2404)) (m.drop 2404) then 3
  else 0

/-- The frames to be sent again in a new session, each record sealed under its keys (R389). -/
def State.reseal (s : State) : State :=
  (List.range 6).foldl (fun t c =>
    t.updChan c fun x => { x with unacked := List.zipWith (fun (f : Frame) (b : List Byte) =>
      t.sealFrame { f with keyPhase := 0, payload := b }) x.unacked (t.outbox c) }) s

/-- The session opens: keys of phase 0, every channel sends again from the host's report (R389), and an unclaimed device
enrols the operator's key into slot 0 (R515). -/
def State.openSession (s : State) (role : Nat) (pk ss t : List Byte) : State :=
  let s1 := if role = 1 ∧ !s.flag SBX_STATUS.claimed then { s with sbx := { s.sbx with keys := Sparse.put s.sbx.keys 0 pk } }.syncKeys else s
  let chans : List Chan := s1.port.chans.map fun (x : Chan) =>
    { x with txEnd := x.txNext, txMark := mod32 (x.txNext + 2 ^ 32 - x.unacked.length), ackTick := s1.ticks, told := none }
  let s2 := { s1 with port := { s1.port with secret := ss, transcript := t, txPhase := 0, rxPhase := 0, controlMark := s1.port.controls, shake := none, chans := chans } }
  (((s2.set CTL_PORT_STATUS.link 2).set CTL_PORT_STATUS.role role).set CTL_PORT_STATUS.key_phase 0).reseal

/-- H2 (R517): checked, decapsulated, and answered with D2. -/
def State.finishIn (s : State) (m : List Byte) : State :=
  match s.port.shake with
  | none => s
  | some h =>
    if s.get CTL_PORT_STATUS.link = 0 ∨ m.length ≠ 4824 ∨ m.take 4 ≠ [3, 0, 0, 0] then s
    else
      let st := s.shakeStatus h m
      if st ≠ 0 then s.dropShake.sendShake ([4, BitVec.ofNat 8 st, 0, 0] ++ leBytes 32 0)
      else
        let ss := Config.mlkemDecaps h.kem ((m.drop 4).take 1088)
        let t := Config.sha3 (h.h1 ++ h.d1 ++ m)
        ((s.openSession h.role ((m.drop 1092).take 1312) ss t).sendShake ([4, 0, 0, 0] ++ Config.sha3 (ss ++ confirmLabel ++ t))).transmit

/-- A handshake frame: on channel 0, its trailer a CRC-32C over header and payload (R385, R386). -/
def State.shakeIn (s : State) (f : Frame) : State :=
  if s.get CTL_PORT_STATUS.link = 0 then s
  else if frameBad f ∨ f.chan ≠ 0 ∨ f.trailer ≠ leBytes 4 (crc32c (frameHeader f ++ f.payload)) then s.authFail
  else if f.payload.take 1 = [1] then s.helloIn f.payload
  else s.finishIn f.payload

/-- What the RS(544,514) code met on the lanes is counted: corrected symbols and codewords it could not correct (R381, R410). -/
def State.countCodes (s : State) (fixed bad : Nat) : State :=
  (s.inc CTL_PORT_ERRORS.fec_corrected fixed).inc CTL_PORT_ERRORS.fec_uncorrectable bad

/-- R384 to R387: a data frame arrives, or a handshake frame, which is not sealed. It is accepted only in order and within the credit. -/
def execDataFrame (dt : Nat) (i : FrameIn) (s : State) : Res :=
  let s := (s.pass dt).countCodes i.fixed i.bad
  let f := i.frame
  .next <|
    if f.kind = 2 then s.shakeIn f
    else
      s.sealedIn f fun g t =>
        if g.kind = 0 ∧ g.seq = (t.chan g.chan).rxNext ∧ t.inCredit g.chan g.seq then
          (t.accept g).updChan g.chan fun x => { x with rxNext := mod32 (x.rxNext + 1) }
        else t

/-- R387: a link control frame brings ack and credit. -/
def execLinkControlFrame (dt : Nat) (i : FrameIn) (s : State) : Res :=
  let s := (s.pass dt).countCodes i.fixed i.bad
  let f := i.frame
  .next <| if f.kind = 1 then s.sealedIn f fun _ t => t else s

/-- R387: `ack` has not advanced for 50 µs: every frame after it is sent again, bit-identical, and the wait starts anew. -/
def execResendTimeout (dt c : Nat) (s : State) : Res :=
  let s := s.pass dt
  let x := s.chan c
  .next <|
    if s.get CTL_PORT_STATUS.link = 2 ∧ !x.unacked.isEmpty ∧ x.ackTick + usTicks 50 ≤ s.ticks then
      s.updChan c fun y => { y with ackTick := s.ticks }
    else s

/-- R383, R389: lock has been lost for more than 1 ms; `lanes` still hold block lock. -/
def execControlLinkDown (dt lanes : Nat) (s : State) : Res :=
  let s := s.pass dt
  .next <| (s.endSession.set CTL_PORT_STATUS.link 0).set CTL_PORT_STATUS.lanes_locked lanes

/-- R383: lock returns; the link first comes up in step 7 of start-up. -/
def execControlLinkUp (dt : Nat) (s : State) : Res :=
  let s := s.pass dt
  .next <|
    if s.get CTL_PORT_STATUS.link = 0 ∧ 7 ≤ s.get HEAD_BOOT_STATUS.step then
      (s.set CTL_PORT_STATUS.link 1).set CTL_PORT_STATUS.lanes_locked 15
    else s

/-- R516. -/
def execHandshakeH1 (dt : Nat) (m : List Byte) (s : State) : Res := .next <| (s.pass dt).helloIn m

/-- R517. -/
def execHandshakeH2 (dt : Nat) (m : List Byte) (s : State) : Res := .next <| (s.pass dt).finishIn m

/-- R518: not completed within 1 s after D1. -/
def execHandshakeTimeout (dt : Nat) (s : State) : Res :=
  let s := s.pass dt
  .next <|
    match s.port.shake with
    | none => s
    | some h => if h.tick + usTicks 1000000 ≤ s.ticks then s.dropShake else s

/-- R520: a counter of the device's direction has advanced 2³¹ under the phase, and no frame of an earlier phase is unacknowledged. -/
def execKeyPhaseAdvance (dt : Nat) (s : State) : Res :=
  let s := s.pass dt
  let far := (s.port.chans.any fun (x : Chan) => decide (2 ^ 31 ≤ dist32 x.txMark x.txNext)) || decide (2 ^ 31 ≤ s.port.controls - s.port.controlMark)
  let old := s.port.chans.any fun (x : Chan) => x.unacked.any fun (f : Frame) => f.keyPhase != s.port.txPhase % 2
  .next <|
    if s.get CTL_PORT_STATUS.link = 2 ∧ far ∧ !old then
      let n := s.port.txPhase + 1
      let chans : List Chan := s.port.chans.map fun (x : Chan) => { x with txMark := x.txNext }
      ({ s with port := { s.port with txPhase := n, controlMark := s.port.controls, chans := chans } }.set CTL_PORT_STATUS.key_phase (n % 2)).transmit
    else s

/-! ### Failures of the strongbox (R511, R533) -/

/-- The strongbox enters its error state: the session and any handshake end, and SBX_ALARM tells the code. -/
def State.boxError (s : State) (code : Nat) : State :=
  ((s.endSession.dropShake).set SBX_STATUS.mode 2).alarm code

/-- R511: an entropy health test (0x3) or a self-test (0x4) fails; during ZEROISE the effect waits for its end (R533). A failed write of
the non-volatile store (0x2) is told by SBX_ALARM alone: the store keeps the old or the new entry (R533). -/
def execSbxAlarm (dt code : Nat) (s : State) : Res :=
  let s := s.pass dt
  .next <|
    if code = 2 then s.alarm 2
    else if code ≠ 3 ∧ code ≠ 4 then s
    else if s.get SBX_STATUS.mode = 3 then { s with sbx := { s.sbx with failing := some code } }
    else s.boxError code

end Sys2Proof.Machine
end

