-- ==== Sys2Proof/Machine/Commands.lean ====
section
/-! DEFINITION. The short commands of channel 0, the writes that the table names one by one, raw requests, management
packets and telemetry (R64, R81, R103, R177, R234, R262, R274, R277, R287, R309, R348, R378, R393 to R400, R404, R460, R461,
R494, R495, R523, R529 to R531, R548, R574). -/

namespace Sys2Proof.Machine

/-! ### How a command runs (R389, R394, R395, R538) -/

/-- The command's payload leaves the receive buffer of channel 0. -/
def State.takeCommand (s : State) (op cmd : Nat) : State :=
  match (s.chan 0).rx with
  | [] => s
  | p :: _ => if leNat (p.take 2) = op ∧ leNat ((p.drop 4).take 4) = cmd then s.consume 0 p.length else s

/-- Commands that run before READY (R538 to R546), and after a zeroise that failed (R399). -/
def earlyOps : List Nat := [0x1, 0x3, 0x30, 0x110, 0x130]
def rescueOps : List Nat := [0x111, 0x130]

/-- Why a command does not run under the present session, if so. -/
def State.denied (s : State) (op : Nat) (roles : List Nat) : Option Nat :=
  if s.port.long.isSome then some stBusy
  else if s.port.zeroiseFailed ∧ !rescueOps.contains op then some stNotReady
  else if s.get HEAD_BOOT_STATUS.step < 10 ∧ !earlyOps.contains op then some stNotReady
  else if !roles.contains s.role then some stRole
  else none

/-- Run a command of an open session; without one it arrives in a frame that no key opens (R386). -/
def State.command (s : State) (op cmd : Nat) (roles : List Nat) (body : State → State) : State :=
  if s.get CTL_PORT_STATUS.link = 0 then s
  else if s.get CTL_PORT_STATUS.link ≠ 2 then s.authFail
  else
    let t := s.takeCommand op cmd
    (match t.denied op roles with | some st => t.respond op cmd st 0 true [] | none => body t).transmit

/-- WRITE of one register: its result is empty, or the turn in which an accepted write to the swap set takes effect (R78). -/
def State.hostWrite (s : State) (cmd a v : Nat) : State :=
  s.command 2 cmd [1, 2] fun t =>
    let w := t.mgmtWrite t.role a v
    w.s.respond 2 cmd w.status 0 true (if w.swap then word8 t.effectTurn else [])

/-! ### Reads and writes (R396, R397) -/

/-- R396. -/
def execRead (dt cmd a : Nat) (s : State) : Res :=
  .next <| (s.pass dt).command 1 cmd [1, 2] fun t =>
    let r := t.mgmtRead a
    r.2.2.respond 1 cmd r.1 0 true (if r.1 = stOk then word8 r.2.1 else [])

/-- R396. -/
def execWrite (dt cmd a v : Nat) (s : State) : Res := .next <| (s.pass dt).hostWrite cmd a v

/-- What a block command has done: the status that stopped it, words performed, bytes read or sent back, and the state. -/
structure Block where
  (status done : Nat)
  bytes : List Byte
  /-- The turn that begins with the last write to the swap set in effect, if there was one (R78). -/
  turn : Option Nat
  s : State
  deriving DecidableEq, Repr

/-- Read words in ascending order (R397); the first argument bounds the words. -/
def readBlock : Nat → Nat → Nat → Block → Block
  | 0, _, _, b => b
  | k + 1, a, n, b =>
    if n ≤ b.done ∨ b.status ≠ stOk then b
    else
      let w := a + 8 * b.done
      match b.s.target w with
      | some (.weights t off) =>
        if off % 64 = 0 ∧ b.done + 8 ≤ n then
          let r := b.s.readWeights t off
          readBlock k a n ⟨stOk, b.done + 8, b.bytes ++ r.1, none, r.2⟩
        else ⟨stAddress, b.done, b.bytes, none, b.s⟩
      | _ =>
        let r := b.s.mgmtRead w
        if r.1 = stOk then readBlock k a n ⟨stOk, b.done + 1, b.bytes ++ word8 r.2.1, none, r.2.2⟩ else ⟨r.1, b.done, b.bytes, none, b.s⟩

/-- Write words in ascending order (R397); the flash window takes whole sectors, from the operator, and not under EXTEST (R523, R570). -/
def writeBlock : Nat → Nat → List Nat → Block → Block
  | 0, _, _, b => b
  | k + 1, a, ws, b =>
    if ws.length ≤ b.done ∨ b.status ≠ stOk then b
    else
      let w := a + 8 * b.done
      let next (m : Nat) : List Byte := ((ws.drop b.done).take m).flatMap word8
      match b.s.target w with
      | some (.weights t off) =>
        if off % 64 = 0 ∧ b.done + 8 ≤ ws.length then writeBlock k a ws ⟨stOk, b.done + 8, [], b.turn, b.s.writeWeights t off (next 8)⟩
        else ⟨stAddress, b.done, [], b.turn, b.s⟩
      | some (.flash off) =>
        if b.s.role ≠ 1 then ⟨stRole, b.done, [], b.turn, b.s⟩
        else if b.s.extest then ⟨stNotReady, b.done, [], b.turn, b.s⟩
        else if off % 4096 = 0 ∧ b.done + 512 ≤ ws.length then writeBlock k a ws ⟨stOk, b.done + 512, [], b.turn, b.s.writeSector off (next 512)⟩
        else ⟨stAddress, b.done, [], b.turn, b.s⟩
      | _ =>
        let r := b.s.mgmtWrite b.s.role w (ws.getD b.done 0 % 2 ^ 64)
        if r.status = stOk then writeBlock k a ws ⟨stOk, b.done + 1, [], if r.swap then some b.s.effectTurn else b.turn, r.s⟩ else ⟨r.status, b.done, [], b.turn, b.s⟩

/-- Answer a block command: a stopped one carries the count of words performed (R394, R397). One that wrote to the swap set also
carries the number of the turn that begins with its writes in effect (R78), after the count (DESIGN CHOICE, log entry 65). -/
def Block.answer (b : Block) (op cmd : Nat) : State :=
  let turn := match b.turn with | none => [] | some n => word8 n
  if b.status = stOk then b.s.respond op cmd stOk 0 true (b.bytes ++ turn)
  else b.s.respond op cmd b.status (if b.status = stAddress then b.done % 128 else 0) true (word8 b.done ++ turn)

/-- A READ_BLOCK of `n` words. -/
def State.blockRead (s : State) (cmd a n : Nat) : State :=
  s.command 3 cmd [1, 2] fun t =>
    if n = 0 ∨ 512 < n then t.respond 3 cmd stMalformed 0 true [] else (readBlock 513 a n ⟨stOk, 0, [], none, t⟩).answer 3 cmd

/-- A WRITE_BLOCK. -/
def State.blockWrite (s : State) (cmd a : Nat) (ws : List Nat) : State :=
  s.command 4 cmd [1, 2] fun t =>
    if ws.isEmpty ∨ 512 < ws.length then t.respond 4 cmd stMalformed 0 true [] else (writeBlock 513 a ws ⟨stOk, 0, [], none, t⟩).answer 4 cmd

/-- R397. -/
def execReadBlock (dt cmd a n : Nat) (s : State) : Res := .next <| (s.pass dt).blockRead cmd a n

/-- R397. -/
def execWriteBlock (dt cmd a : Nat) (ws : List Nat) (s : State) : Res := .next <| (s.pass dt).blockWrite cmd a ws

/-- R103: a read of one roof word through 8 words of a block access. -/
def execWsManagementRead (dt cmd n w : Nat) (s : State) : Res := .next <| (s.pass dt).blockRead cmd (tileBase n + 64 * w) 8

/-- R103: a write of one roof word. -/
def execWsManagementWrite (dt cmd n w : Nat) (ws : List Nat) (s : State) : Res :=
  .next <| (s.pass dt).blockWrite cmd (tileBase n + 64 * w) (ws.take 8)

/-- R523: a write of one sector through the flash window. -/
def execFlashWindowWrite (dt cmd off : Nat) (ws : List Nat) (s : State) : Res :=
  .next <| (s.pass dt).blockWrite cmd (0x400001000000 + off) ws

/-! ### Writes that the table names -/

/-- R64. -/
def execArm (dt cmd : Nat) (s : State) : Res := .next <| (s.pass dt).hostWrite cmd HEAD_AXLE_CTRL.addr 1

/-- R64. -/
def execDisarm (dt cmd : Nat) (s : State) : Res := .next <| (s.pass dt).hostWrite cmd HEAD_AXLE_CTRL.addr 2

/-- R163. -/
def execFormatRecipeWrite (dt cmd v : Nat) (s : State) : Res := .next <| (s.pass dt).hostWrite cmd HEAD_FMT_RECIPE.addr v

/-- R167. -/
def execWideReqWrite (dt cmd v : Nat) (s : State) : Res := .next <| (s.pass dt).hostWrite cmd HEAD_FMT_SET.addr v

/-- R81. -/
def execSwapHoldWrite (dt cmd v : Nat) (s : State) : Res := .next <| (s.pass dt).hostWrite cmd HEAD_SWAP_CTRL.addr v

/-- R177. -/
def execShadowEnableWrite (dt cmd v : Nat) (s : State) : Res := .next <| (s.pass dt).hostWrite cmd HEAD_SHADOW_CTRL.addr v

/-- R262. -/
def execSampProfileWrite (dt cmd v : Nat) (s : State) : Res := .next <| (s.pass dt).hostWrite cmd HEAD_SAMP_PROFILE.addr v

/-- R274. -/
def execAdapterPtrWrite (dt cmd v : Nat) (s : State) : Res := .next <| (s.pass dt).hostWrite cmd HEAD_ADAPTER_PTR.addr v

/-- R277. -/
def execModelPtrWrite (dt cmd v : Nat) (s : State) : Res := .next <| (s.pass dt).hostWrite cmd HEAD_MODEL_PTR.addr v

/-- R461. -/
def execCoachOnWrite (dt cmd v : Nat) (s : State) : Res := .next <| (s.pass dt).hostWrite cmd PWR_COACH_ON.addr v

/-- R460. -/
def execStepCapWrite (dt cmd v : Nat) (s : State) : Res := .next <| (s.pass dt).hostWrite cmd PWR_GOV.addr v

/-- R234: `flush` is written, and `enable` as it stands. -/
def execPrefixFlush (dt cmd : Nat) (s : State) : Res :=
  let s := s.pass dt
  .next <| s.hostWrite cmd HEAD_PREFIX_CTRL.addr (2 + s.get HEAD_PREFIX_CTRL.enable)

/-- R378: `clear` of tile n. -/
def execHazardClear (dt cmd n : Nat) (s : State) : Res := .next <| (s.pass dt).hostWrite cmd (tileBase n + TILE_HAZ_STATUS.addr) (2 ^ 62)

/-- R548: `go` for a coach. -/
def execCoachResetRequest (dt cmd c : Nat) (s : State) : Res := .next <| (s.pass dt).hostWrite cmd HEAD_COACH_RESET.addr (2 ^ 8 + c % 64)

/-- R574. -/
def execAtbSelect (dt cmd n v : Nat) (s : State) : Res := .next <| (s.pass dt).hostWrite cmd (HEAD_ATB_SEL_n.addr + 8 * (n % 8)) v

/-- R309. -/
def execCartIssueWrite (dt cmd n ch off : Nat) (s : State) : Res :=
  .next <| (s.pass dt).hostWrite cmd (tileBase n + TILE_CART_ISSUE_n.addr + 32 * (ch % 8)) off

/-- R494: by the device on one instance, or by a host write on the domain that CLK_DOM_INDEX selects. -/
def execClkGate (dt : Nat) (who : Requester) (cmd d i : Nat) (s : State) : Res :=
  let s := s.pass dt
  .next <| match who with | .device => s.clkRequest .device d 1 false (some i) | .host => s.hostWrite cmd CLK_DOM_CTRL.addr 1

/-- R494. -/
def execClkUngate (dt : Nat) (who : Requester) (cmd d i : Nat) (s : State) : Res :=
  let s := s.pass dt
  .next <| match who with | .device => s.clkRequest .device d 2 false (some i) | .host => s.hostWrite cmd CLK_DOM_CTRL.addr 2

/-- R495. -/
def execClkSwitch (dt : Nat) (who : Requester) (cmd d : Nat) (seco : Bool) (s : State) : Res :=
  let s := s.pass dt
  .next <| match who with
    | .device => s.clkRequest .device d 3 seco none
    | .host => s.hostWrite cmd CLK_DOM_CTRL.addr (3 + if seco then 16 else 0)

/-- R529. -/
def execSbxPolicyWrite (dt cmd v : Nat) (s : State) : Res := .next <| (s.pass dt).hostWrite cmd SBX_POLICY.addr v

/-- R530: `allow_debug` is cleared, and every other bit written as it stands. -/
def execAllowDebugClear (dt cmd : Nat) (s : State) : Res :=
  let s := s.pass dt
  .next <| s.hostWrite cmd SBX_POLICY.addr (setBits (s.reg SBX_POLICY.addr) 1 1 0)

/-- R530: `allow_service` is cleared. Only one session is open at a time, so an operator's write finds no service session to end. -/
def execAllowServiceClear (dt cmd : Nat) (s : State) : Res :=
  let s := s.pass dt
  .next <| s.hostWrite cmd SBX_POLICY.addr (setBits (s.reg SBX_POLICY.addr) 0 1 0)

/-- R531. -/
def execKeyEnrol (dt cmd slot : Nat) (s : State) : Res := .next <| (s.pass dt).hostWrite cmd SBX_KEY_CTRL.addr (0x100 + slot % 8)

/-- R531. -/
def execKeyRemove (dt cmd slot : Nat) (s : State) : Res := .next <| (s.pass dt).hostWrite cmd SBX_KEY_CTRL.addr (0x200 + slot % 8)

/-! ### Starting and stopping an image (R76, R349, R398, R580) -/

/-- A used coupling's peer is not the one the coupling table expects. -/
def State.peerWrong (s : State) (i : Image) : Bool :=
  (List.range 24).any fun k => match i.cplTable[k]? with
    | none => false
    | some r => r.used != 0 && (s.get (CPL_STATUS.peer_member.cpl k) != r.member || s.get (CPL_STATUS.peer_cpl.cpl k) != r.peer)

/-- R398. -/
def execImageStart (dt cmd count : Nat) (s : State) : Res :=
  .next <| (s.pass dt).command 0x20 cmd [1, 2] fun t =>
    match t.img.image with
    | none => t.respond 0x20 cmd stNotReady 0 true []
    | some i =>
      if t.get HEAD_IMAGE_STATUS.state ≠ 2 ∨ !t.flag HEAD_AXLE_STATUS.loaded then t.respond 0x20 cmd stNotReady 0 true []
      else if count % 8 ≠ 0 ∨ count < t.count + usTicks 1000 ∨ t.count + usTicks 10000000 < count ∨ t.peerWrong i then
        t.respond 0x20 cmd stImage 0 true []
      else
        (({ t with turn := { t.turn with startAt := some count, stopCmd := none, leave := none, serials := [] } }).setImageState 3).respond 0x20 cmd stOk 0 true (word8 count)

/-- R398: the image stops at the next boundary, which answers; one whose turn 0 has not come stops at once. -/
def execImageStop (dt cmd : Nat) (s : State) : Res :=
  .next <| (s.pass dt).command 0x21 cmd [1, 2] fun t =>
    if !t.running then t.respond 0x21 cmd stNotReady 0 true []
    else if t.turn.startAt.isSome then (t.stopImage.setImageState 2).respond 0x21 cmd stOk 0 true (word8 0)
    else { t with turn := { t.turn with stopCmd := some cmd } }

/-- R389. -/
def execSessionClose (dt cmd : Nat) (s : State) : Res :=
  .next <| (s.pass dt).command 0x30 cmd [1, 2] fun t => (t.respond 0x30 cmd stOk 0 true []).transmit.endSession

/-! ### Raw requests (R348) -/

/-- Endpoint, space and offset that name a management address in a raw request, and back: towers through their bay's unit 0x21,
the strongbox region through unit 1 of the head's stop (DESIGN CHOICE, log entry 21). -/
def rawName (a : Nat) : Nat × Nat × Nat :=
  match a / 0x100000000000 with
  | 1 => (endpoint (a / 0x1000000000 % 64 * 144 + a / 0x10000000 % 256), 0, a % 0x10000000)
  | 2 => (bayEp (a / 0x1000000000 % 32) (a / 0x10000000 % 256), 0, a % 0x10000000)
  | 3 => (bayEp (a / 0x1000000000 % 32) 0x21, 3, a % 0x1000000000)
  | 4 => (headEp + 1, 0, a % 0x1000000000)
  | _ => (headEp, 0, a)

/-- Management address of an endpoint, space and offset. -/
def rawAddr (ep space off : Nat) : Option Nat :=
  if ep = headEp then some off
  else if ep = headEp + 1 then some (0x400000000000 + off)
  else
    match epTile ep with
    | some n => if off < 0x10000000 ∧ space = 0 then some (tileBase n + off) else none
    | none =>
      match epUnit ep with
      | some (b, u) => if space = 3 ∧ u = 0x21 then some (towerBase b + off) else if space = 0 ∧ off < 0x10000000 then some (bayBase b u + off) else none
      | none => none

/-- R396, R398: the request goes out over a coupling; the response or the timeout answers. -/
def execRaw (dt cmd k chan a v : Nat) (wr : Bool) (s : State) : Res :=
  .next <| (s.pass dt).command 0x40 cmd [1, 2] fun t =>
    if 24 ≤ k ∨ 2 ≤ chan then t.respond 0x40 cmd stMalformed 0 true []
    else
      let n := rawName a
      let data := if wr then word8 v else []
      let x : Tx := ⟨9, 0, 0, t.member, t.get (CPL_STATUS.peer_member.cpl k), n.1, headEp, n.2.1, 0, 0, 0, t.port.rawTag, data.length, n.2.2, 0, chan, 0, true, data⟩
      let t1 := if t.up k then t.sendTx k x else t
      { t1 with port := { t1.port with raw := some (cmd, k, t1.ticks), rawTag := (t1.port.rawTag + 1) % 256 } }

/-- R348: a raw response comes back to the head. -/
def execRawResponse (dt k : Nat) (x : Tx) (s : State) : Res :=
  .next <| (s.pass dt).txIn k 10 { x with dstMember := s.member } fun t =>
    match t.port.raw with
    | none => t
    | some (cmd, j, _) =>
      if j = k ∧ (x.tag + 1) % 256 = t.port.rawTag then
        ({ t with port := { t.port with raw := none } }.respond 0x40 cmd stOk 0 true (word8 x.status ++ word8 (leNat (x.data.take 8)))).transmit
      else t

/-- Bulk bytes of a raw request: into the weight store or the coach tables of a tile's coach as whole roof words, or into a tower;
the first component tells whether the place exists. -/
def State.rawBulk (s : State) (x : Tx) : Bool × State :=
  match x.space, epTile x.dstEp with
  | 1, some n =>
    let ok := x.data.length % 68 == 0 && x.offset % 64 == 0 && tileClass n == 0 && decide (x.offset + x.data.length / 68 * 64 ≤ wsBytes)
      && !s.rep.isolated.contains (n / 144)
    (ok, if ok then s.queueWords n (tileBase n + x.offset) 2 0 (wordsOf x.data) else s)
  | 2, some n =>
    let ok := x.data.length % 68 == 0 && x.offset % 64 == 0 && decide (n < 9216 ∧ x.offset + x.data.length / 68 * 64 ≤ 0x8000000)
      && !s.rep.isolated.contains (n / 144)
    (ok, if ok then s.queueWords n (tableKey (n / 144) x.offset) 2 0 (wordsOf x.data) else s)
  | 3, _ =>
    match epUnit x.dstEp with
    | some (b, u) =>
      let ok := u == 0x21 && decide (b < 24 ∧ x.offset + x.data.length ≤ 0xFC0000000) && !s.towerFailed b && s.get SBX_STATUS.mode != 2
      (ok, if ok then s.wrBytes (towerBase b + x.offset) x.data else s)
    | none => (false, s)
  | _, _ => (false, s)

/-- R348: a raw request is executed while its enable is set on the receiving coupling, and answered. -/
def execRawRequest (dt k : Nat) (x : Tx) (s : State) : Res :=
  .next <| (s.pass dt).txIn k 9 { x with dstMember := s.member } fun t =>
    let on := if x.part = 0 then t.flag (CPL_CONFIG.raw_loader.cpl k) else x.part == 1 && t.flag (CPL_CONFIG.raw_debug.cpl k)
    let r : Bool × List Byte × State :=
      if !on then (false, [], t)
      else if 8 < x.data.length then
        let b := t.rawBulk x
        (b.1, [], b.2)
      else
        match rawAddr x.dstEp x.space x.offset with
        | none => (false, [], t)
        | some a =>
          if x.data.length = 0 then
            let m := t.mgmtRead a
            (m.1 == stOk, word8 m.2.1, m.2.2)
          else if x.data.length = 8 then
            let w := t.mgmtWrite 0 a (leNat x.data)
            (w.status == stOk, [], w.s)
          else (false, [], t)
    r.2.2.sendTx k ⟨10, 0, 0, t.member, x.srcMember, x.srcEp, headEp, 0, 0, 0, 0, x.tag, r.2.1.length, 0, 0, x.part, if r.1 then 0 else 1, true, r.2.1⟩

/-! ### Management packets (R286, R287) -/

/-- R287: a management request of the head reaches a tile or a bay unit. -/
def execManagementRequest (dt : Nat) (p : Packet) (s : State) : Res :=
  .next <| (s.pass dt).receive 9 p fun t =>
    let r : Bool × List Byte × State :=
      match rawAddr p.dst 0 p.offset with
      | none => (false, [], t)
      | some a =>
        if p.len = 0 then
          let m := t.mgmtRead a
          (m.1 == stOk, word8 m.2.1, m.2.2)
        else
          let w := t.mgmtWrite 0 a (leNat (p.data.take 8))
          (w.status == stOk, [], w.s)
    r.2.2.send ⟨10, p.vc, t.yxBit p.dst p.src, p.dst, p.src, 0, p.tag, if p.len = 0 then 1 else 0, 0, p.offset, if r.1 then 0 else 1, r.2.1⟩

/-- R287: a management response reaches the head. -/
def execManagementResponse (dt : Nat) (p : Packet) (s : State) : Res :=
  .next <| (s.pass dt).receive 10 p fun t =>
    { t with net := { t.net with answers := t.net.answers ++ [(p.tag, p.circ, leNat (p.data.take 8))] } }

/-! ### Telemetry (R404) -/

/-- One slot: its value is 0 where the read is refused. -/
def State.telemetry (s : State) (n : Nat) : State :=
  let d := 8 * n
  if s.flag (CTL_TELEM_ADDR_n.enable.off d) then
    let a := s.get (CTL_TELEM_ADDR_n.address.off d)
    let r := s.mgmtRead a
    r.2.2.queue4 ⟨2, s.count, s.spokeCycle, 0, n, a, r.2.1⟩
  else s

/-- R404: `period` ms have passed since the last sample. -/
def execTelemetryPeriod (dt : Nat) (s : State) : Res :=
  let s := s.pass dt
  let p := s.get CTL_TELEM_CFG.period
  .next <|
    if p ≠ 0 ∧ s.port.teleTick + usTicks (1000 * p) ≤ s.ticks then
      ((List.range 32).foldl (fun (t : State) n => t.telemetry n) { s with port := { s.port with teleTick := s.ticks } }).transmit
    else s

end Sys2Proof.Machine
end

