-- ==== Sys2Proof/Machine/Secure.lean ====
section
/-! DEFINITION. Long commands, and those of the strongbox and the defect map (R395, R399, R441, R442, R527, R532, R533, R547). -/

namespace Sys2Proof.Machine

/-! ### Long commands (R395, R399) -/

/-- A long command starts: it answers OK with `final` clear. -/
def State.startLong (s : State) (op cmd want : Nat) (bulk : Bool) (args : List Nat) (broadcast : Bool) : State :=
  let s1 := (s.respond op cmd stOk 0 false []).set CTL_PORT_STATUS.long_cmd op
  { s1 with port := { s1.port with long := some ⟨op, cmd, s1.ticks, s1.ticks, 0, want, bulk, args, broadcast⟩, progTick := s1.ticks } }

/-- The running long command ends with its final response. -/
def State.endLong (s : State) (status detail : Nat) (result : List Byte) : State :=
  match s.port.long with
  | none => s
  | some c =>
    (({ s with port := { s.port with long := none } }.set CTL_PORT_STATUS.long_cmd 0).respond c.opcode c.cmdId status detail true result).transmit

/-- The running long command, when it has this opcode. -/
def State.longIs (s : State) (op : Nat) : Bool := match s.port.long with | none => false | some c => c.opcode == op

/-! ### Attestation (R527) -/

/-- The first 200 bytes of a report. -/
def State.report (s : State) (nonce : List Byte) : List Byte :=
  let flags := s.get SBX_STATUS.debug_active + 2 * (if s.img.image.isSome then s.get HEAD_IMAGE_STATUS.debug else 0) + 4 * s.get SBX_POLICY.raw_debug
  leBytes 2 1 ++ leBytes 2 (s.get HEAD_DEVICE_ID.part) ++ leBytes 1 (s.get HEAD_DEVICE_ID.grade) ++ leBytes 1 (s.get HEAD_DEVICE_ID.stepping)
    ++ leBytes 1 (s.get HEAD_DEVICE_ID.good_coaches) ++ leBytes 1 flags ++ leBytes 8 Config.serial.toNat
    ++ leBytes 4 (s.slotSvn (s.get SBX_STATUS.boot_slot)) ++ leBytes 4 (s.get SBX_STATUS.reports) ++ leBytes 8 s.count ++ nonce
    ++ s.sbx.bootMeasure ++ (if s.img.image.isSome then s.img.measure else leBytes 32 0)
    ++ Config.sha3 (s.rep.defects.flatMap word8) ++ leBytes 8 (s.reg HEAD_IMAGE_GEN.generation.key) ++ Config.sha3 identityPk

/-- R527: the report counter, kept in the strongbox's store, advances and the report is signed. -/
def execAttest (dt cmd : Nat) (nonce : List Byte) (s : State) : Res :=
  .next <| (s.pass dt).command 0x110 cmd [1, 2] fun t =>
    if nonce.length ≠ 32 then t.respond 0x110 cmd stMalformed 0 true []
    else
      let t1 := (t.startLong 0x110 cmd 0 false [] false).set SBX_STATUS.reports ((t.get SBX_STATUS.reports + 1) % 2 ^ 32)
      let r := t1.report nonce
      t1.endLong stOk 0 (r ++ Config.mldsaSign 4 (Config.sha3 r))

/-! ### Zeroise (R532, R533) -/

/-- R532: the image stops, and the strongbox zeroises until ZEROISE_COMPLETE. -/
def execZeroise (dt cmd scope : Nat) (s : State) : Res :=
  .next <| (s.pass dt).command 0x111 cmd [1, 2] fun t =>
    if scope ≠ 1 ∧ scope ≠ 2 then t.respond 0x111 cmd stMalformed 0 true []
    else ((t.startLong 0x111 cmd 0 false [scope] false).dropShake.stopImage.setImageState 0).set SBX_STATUS.mode 3

/-- Keys that ZEROISE keeps: input stores, accumulators and panel stores, the strongbox's windows, and flash (R532). A tower's
contents, unreadable under the new salt, read as memory that nothing has written (DESIGN CHOICE, log entry 6). -/
def zeroiseKeeps (k : Nat) : Bool := decide (4 * 281474976710656 ≤ k) || decide (0x400000000000 ≤ k ∧ k < 281474976710656)

/-- The data that scope 0x1 erases. -/
def State.eraseData (s : State) : State :=
  let s1 := s.unloadImage.set HEAD_WEIGHTS_VALID.valid 0
  let s2 := { s1 with
    mem := s1.mem.filter fun (c : Host.Cell) => zeroiseKeeps c.1
    flips := s1.flips.filter fun (c : Nat × Nat) => zeroiseKeeps c.1
    sbx := { s1.sbx with salt := s1.sbx.salt + 1 }
    img := { s1.img with load := none, staged := none, before := [] }
    serv := { ({} : ServB) with rets := s1.serv.rets, nextId := s1.serv.nextId, retCount := s1.serv.retCount, carView := s1.serv.carView, kvView := s1.serv.kvView }
    mbx := [] }
  (s2.resetRegs MBX_SEND.addr (MBX_SEND.addr + 28 * 0x200)).syncNodes.syncEligible

/-- The keys and grants that scope 0x2 erases besides. -/
def State.eraseKeys (s : State) : State :=
  let s1 := ({ s with sbx := { s.sbx with keys := [] } }.syncKeys.setDebug false false)
  (s1.setFlag SBX_POLICY.allow_service true).setFlag SBX_POLICY.allow_debug true

/-- R532, R533: everything is erased: the final response, the end of the session, ZEROISED, and then a failure that came meanwhile. -/
def execZeroiseComplete (dt : Nat) (s : State) : Res :=
  let s := s.pass dt
  .next <|
    match s.port.long with
    | none => s
    | some c =>
      if c.opcode ≠ 0x111 then s
      else
        let scope := c.args.getD 0 1
        let s1 := if scope = 2 then s.eraseData.eraseKeys else s.eraseData
        let s2 := s1.endLong stOk 0 []
        let s3 := { s2 with port := { s2.port with parting := some ⟨0x111, stOk, 0, c.cmdId, true, []⟩, zeroiseFailed := false } }
        let s4 := ((s3.endSession.set SBX_STATUS.mode 1).raiseHead 7 scope 0)
        match s4.sbx.failing with
        | none => s4
        | some code => { s4 with sbx := { s4.sbx with failing := none } }.boxError code

/-! ### Coaches, couplings, the defect map and the reset by command -/

/-- R441: a coach is handled as lost while an image runs, else isolated. -/
def execCoachRepair (dt cmd c : Nat) (s : State) : Res :=
  .next <| (s.pass dt).command 0x120 cmd [1, 2] fun t =>
    let lc := (t.img.homes.find? fun p => p.2 == c).map (·.1)
    let fits := match lc, t.img.image with
      | some l, some i => (t.reserves i t.homeCoaches).any fun r => t.fits (tilesOf i l) r && r != c
      | _, _ => true
    if 64 ≤ c then t.respond 0x120 cmd stMalformed 0 true []
    else if t.rep.isolated.contains c ∨ (t.rep.rebuilds.any fun b => b.lost == c || b.target == c) ∨ (t.running ∧ !fits) then
      t.respond 0x120 cmd stNotReady 0 true []
    else
      let t1 := t.startLong 0x120 cmd 0 false [c] false
      if t.running then
        let t2 := t1.loseCoach c 4 (some cmd)
        if t2.rep.rebuilds.any fun b => b.lost == c then t2 else t2.endLong (if t2.running then stOk else stNotReady) 0 []
      else (t1.isolate c).endLong stOk 0 []

/-- Couplings that the running COUPLING_TRAIN trains. -/
def trainMask (c : LongCmd) : List Nat := (List.range 24).filter fun k => (c.args.getD 0 0).testBit k

/-- COUPLING_TRAIN ends when none of its couplings trains any more. -/
def State.trainDone (s : State) : State :=
  match s.port.long with
  | none => s
  | some c => if c.opcode = 0x121 ∧ (trainMask c).all (fun k => s.get (CPL_STATUS.state.cpl k) != 1) then s.endLong stOk 0 [] else s

/-- R322: couplings train again; refused for a used coupling while an image runs. -/
def execCouplingTrain (dt cmd mask : Nat) (s : State) : Res :=
  .next <| (s.pass dt).command 0x121 cmd [1] fun t =>
    let ks := (List.range 24).filter fun k => mask.testBit k
    if 2 ^ 24 ≤ mask then t.respond 0x121 cmd stMalformed 0 true []
    else if t.running ∧ ks.any fun k => t.flag (CPL_CONFIG.used.cpl k) then t.respond 0x121 cmd stNotReady 0 true []
    else (ks.foldl (fun u k => (u.set (CPL_STATUS.state.cpl k) 1).setLink k {}) (t.startLong 0x121 cmd 0 false [mask] false)).trainDone

/-- R322, R323: training of coupling k ends: the lanes that passed, and the peer's numbers. -/
def execCouplingTrainingEnd (dt k good peerCpl peerMember : Nat) (s : State) : Res :=
  let s := s.pass dt
  .next <|
    if s.get (CPL_STATUS.state.cpl k) ≠ 1 then s
    else
      let s0 := [CPL_LANES.spare_used, CPL_LANES.spared_lane, CPL_LANES.mirror, CPL_LANES.mirroring].foldl (fun (t : State) f => t.set (f.cpl k) 0) s
      let s1 := (s0.set (CPL_LANES.good.cpl k) good).setLink k {}
      if 16 ≤ popcount 17 good then
        let s2 := ((s1.set (CPL_STATUS.state.cpl k) 2).set (CPL_STATUS.peer_cpl.cpl k) peerCpl).set (CPL_STATUS.peer_member.cpl k) peerMember
        (if s.img.image.isSome then s2.updLink k fun c => { c with control := c.control ++ [(4, s.member)] } else s2).trainDone
      else ((s1.set (CPL_STATUS.state.cpl k) 4).raise 81 (coordBay k 2) good 0).trainDone

/-- R442: matching in-service entries leave the map and the store, which has room again (R412). -/
def execDefectClear (dt cmd kind place : Nat) (s : State) : Res :=
  .next <| (s.pass dt).command 0x122 cmd [2] fun t =>
    if t.running then t.respond 0x122 cmd stNotReady 0 true []
    else
      let hit (w : Nat) : Bool := bits w 62 2 == 2 && (kind == 0xFF && place == 0xFF || bits w 56 6 == kind && bits w 48 8 == place)
      let map := t.rep.defects.filter fun w => !hit w
      let store := t.sbx.store.filter fun w => !hit w
      let t1 := t.startLong 0x122 cmd 0 false [] false
      let t2 := { t1 with rep := { t1.rep with defects := map }, sbx := { t1.sbx with store := store, storeAlarmed := t1.sbx.storeAlarmed && decide (4096 ≤ store.length) } }
      (t2.set HEAD_DEFECT_INDEX.entries map.length).endLong stOk 0 []

/-- R547: the final response goes out, and the warm reset begins. -/
def execWarmReset (dt cmd : Nat) (s : State) : Res :=
  .next <| (s.pass dt).command 0x130 cmd [1, 2] fun t =>
    let r := (t.respond 0x130 cmd stOk 0 true []).transmit.warmReset 1
    { r with port := { r.port with parting := some ⟨0x130, stOk, 0, cmd, true, []⟩ } }

end Sys2Proof.Machine
end

