-- ==== Sys2Proof/Machine/Repair.lean ====
section
/-! DEFINITION. Holds in force, voids and reruns, repair copies, towers in service, and the guards' watchdogs
(R83, R86, R89, R415 to R440, R501). -/

namespace Sys2Proof.Machine

/-! ### Turn-start values (R419) -/

/-- Registers that a rerun restores: circular pointers, rounding counters, and barriers (their `gen`, `waiting`, `arrived`). -/
def snapKey (k : Nat) : Bool :=
  match if k < 281474976710656 then spaceOf k else none with
  | some (.tile, off) =>
    decide (0xF000200 ≤ off ∧ off < 0xF000300 ∧ off % 16 = 8) || decide (0xF000608 ≤ off ∧ off < 0xF000620)
      || decide (0xF001600 ≤ off ∧ off < 0xF001800)
  | _ => false

/-- Note the turn-start values. -/
def State.takeSnap (s : State) : State :=
  { s with tile := { s.tile with snap := s.regs.filter fun (p : Nat × Word) => snapKey p.1, snapTags := s.net.carts.map fun (p : Nat × Cart) => (p.1, p.2.started) } }

/-- Restore the turn-start values: whole registers, but only the running state of a barrier. -/
def State.restoreSnap (s : State) : State :=
  let keys := ((s.regs.filter fun (p : Nat × Word) => snapKey p.1).map (·.1) ++ s.tile.snap.map (·.1)).eraseDups
  let s1 := keys.foldl (fun (t : State) k =>
    let v := match Sparse.find s.tile.snap k with | none => regDefault k | some w => w.toNat
    if 0xF001600 ≤ k % 0x10000000 then t.setReg k (setBits (t.reg k) 48 7 (bits v 48 7)) else t.setReg k v) s
  let carts := s1.net.carts.map fun (p : Nat × Cart) => (p.1, { p.2 with started := (Sparse.find s.tile.snapTags p.1).getD 0 })
  { s1 with net := { s1.net with carts := carts } }

/-! ### Holds in force (R83, R418) -/

/-- The device powers on an off coach that a repair needs, whatever the shadows hold (R461). -/
def State.powerRepairs (s : State) : State :=
  let need := s.repairCoaches.filter fun c => !s.coachOn c && !s.pwr.waiting.contains c && !(s.powerUp? c).isSome
  if need.isEmpty then s
  else
    let old := s.get PWR_COACH_ACTIVE.on
    let s1 := s.applyCoachOn (need.foldl (fun a c => if a.testBit c then a else a + 2 ^ c) old)
    let s2 := { s1 with pwr := { s1.pwr with waiting := s1.pwr.waiting ++ need.filter fun c => old.testBit c } }
    let s3 := s2.startCoaches []
    { s3 with pwr := { s3.pwr with fresh := s.pwr.fresh } }

/-- R83: spoke s + H of a raised hold begins, and the schedule clock freezes. Under a cause-0x6 hold the device empties its cart
queues, holds on its own account until its packets are gone, and powers the coaches a repair needs (R418, R461). -/
def execHoldInForce (dt : Nat) (s : State) : Res :=
  let s := s.pass dt
  .next <|
    if s.running ∧ s.inForce s.spoke then
      let s := s.pauseCarts
      if s.causeInForce 6 s.spoke ∧ !s.turn.voidSeen then
        let s1 := { s.emptyCarts with turn := { s.emptyCarts.turn with voidSeen := true } }
        let s2 := if s1.holding 6 then s1 else s1.raiseHold 6 (coordHead 68)
        (s2.powerRepairs).syncPhase
      else s.syncPhase
    else s

/-- R83: spoke r + H of a withdrawn hold begins; the schedule clock resumes if no hold remains in force. -/
def execHoldForceEnd (dt : Nat) (s : State) : Res :=
  let s := s.pass dt
  .next <|
    if s.running then
      let s1 := s.syncPhase
      if s1.clockRuns then s1.resumeCarts else s1
    else s

/-- Every repair copy and refill of the turn is complete, and no coach that a repair needs is still being reset (R418). -/
def State.copied (s : State) : Bool :=
  s.rep.jobs.all (fun (j : RepJob) => j.prefill || (j.lines == 0 && j.refilled)) && s.rep.resetting.isEmpty

/-- The held reloads of roof words of a unit complete; a word with no readable shadow is a repair failure (R42, R435). -/
def State.reloadHeld (s : State) (unit : Nat) : State :=
  (s.tile.jobs.filter fun j => j.held && !j.loaded && j.unit == unit).foldl (fun t j =>
    let r := t.reloadRow j.key j.spare.isSome
    if r.1 then
      let jobs : List RoofJob := r.2.tile.jobs.map fun (x : RoofJob) => if x.key = j.key then { x with loaded := true } else x
      { r.2 with tile := { r.2.tile with jobs := jobs } }
    else if t.running then t.repairFail 0 [] else t) s

/-- R86: the data or the event that the device's hold `id` waits for is complete. A hold of cause 0x6 also discards what is
left of the attempt's packets (R418), and waits until it is in force and the repairs are done. -/
def execHoldDataComplete (dt id : Nat) (s : State) : Res :=
  let s := s.pass dt
  .next <|
    match s.turn.holds.find? fun h => h.id == id && h.member.isNone && h.withdraw.isNone with
    | none => s
    | some h =>
      if h.cause = 6 then
        if s.causeInForce 6 s.spoke ∧ s.copied then s.emptyCarts.dropPackets.withdrawHolds 6 fun _ => true else s
      else if h.cause = 7 then (s.reloadHeld h.unit).withdrawHolds 7 fun x => x.id == id
      else if h.cause = 1 ∨ h.cause = 2 ∨ h.cause = 3 ∨ h.cause = 0xA ∨ h.cause = 0xB then s.withdrawHolds h.cause fun x => x.id == id
      else s

/-! ### The rerun point (R419) -/

/-- A repair takes effect: the logical tile moves. A rotation's old site becomes a spare (R487). -/
def State.applyJob (s : State) (j : RepJob) : State :=
  let old := if s.rep.rotating = some j.key then 1 else s.get (TILE_STATE.state.tile j.lost)
  s.moveTile j.key j.lost j.target old

/-- The repairs that take effect now, with their routes. -/
def State.applyJobs (s : State) (js : List RepJob) : State :=
  if js.isEmpty then s
  else
    let s1 := js.foldl (fun t j => t.applyJob j) s
    let s2 := match s1.img.image with | none => s1 | some i => s1.loadRoutes i s1.img.place
    let s3 := { s2 with rep := { s2.rep with jobs := s2.rep.jobs.filter (fun (j : RepJob) => !js.contains j), done := s2.rep.done ++ js } }
    s3.syncReserves

/-- The state of an attempt starts afresh. -/
def State.freshAttempt (s : State) : State :=
  { s with tile := { s.tile with sums := [], issued := [], arrived := [], reads := [], writes := [], circ := [], trapsDue := [], waits := [], arrays := [], late := [], fills := [], lateOff := 0 } }

/-- R419: no cause-0x6 hold of any member remains in force, after a spoke in which one was. -/
def execRerunPoint (dt : Nat) (s : State) : Res :=
  let s := s.pass dt
  .next <|
    if s.inTurn ∧ s.turn.voidSeen ∧ !s.causeInForce 6 s.spoke ∧ !s.holding 6 then
      let s1 := (s.restoreSnap.applyJobs (s.rep.jobs.filter fun j => !j.prefill)).applyStopped
      let s2 := s1.freshAttempt.setServ fun v => { v with pass := [], sampledNow := false, samples := v.samples.filter fun (x : Sample) => x.turn != s.turnNo }
      let turn := { s2.turn with origin := s.spoke, q := none, voidSeen := false, faultedBefore := s2.turn.faulted && !s2.rep.lossVoid, faulted := false }
      let s3 := { s2 with turn := turn, rep := { s2.rep with lossVoid := false }, cpl := { s2.cpl with colls := [], arrived := [], ownDone := [] } }
      let s4 := (if s3.serv.dropNow ∧ s3.get THM_STATUS.state < 3 then (s3.setServ fun v => { v with dropNow := false }).abandonRound else s3).inc HEAD_REPAIR_STATUS.reruns
      let cmds : List Nat := s4.rep.rebuilds.filterMap fun (b : Rebuild) => b.cmd
      let s5 : State := (List.range s4.rep.rebuilds.length).foldl (fun (t : State) _ => t.inc HEAD_REPAIR_COUNTS.coaches) { s4 with
        rep := { s4.rep with rebuilds := [] }
        img := { s4.img with homes := s4.rep.rebuilds.foldl (fun h (b : Rebuild) => Sparse.put h b.lc b.target) s4.img.homes } }
      (if cmds.isEmpty ∨ !s5.longIs 0x120 then s5 else s5.endLong stOk 0 []).syncReserves.syncPhase
    else s

/-! ### Repair copies (R426 to R429) -/

/-- The job of a logical tile. -/
def State.job? (s : State) (key : Nat) : Option RepJob := s.rep.jobs.find? fun j => j.key == key
def State.updJob (s : State) (key : Nat) (f : RepJob → RepJob) : State :=
  { s with rep := { s.rep with jobs := s.rep.jobs.map fun (j : RepJob) => if j.key = key then f j else j } }

/-- The target of a repair can take a copy. -/
def State.targetReady (s : State) (n : Nat) : Bool :=
  decide (9216 ≤ n) || (s.coachOn (n / 144) && !s.pwr.resetting.contains (n / 144) && !s.rep.resetting.contains (n / 144))

/-- R426: a part of at most 5,120 lines is copied; the next part's hold is raised as its own is withdrawn. A shadow in a failed
tower is a repair failure (R435). -/
def execRepairCopyPartComplete (dt key : Nat) (s : State) : Res :=
  let s := s.pass dt
  .next <|
    match s.job? key, s.img.image with
    | some j, some i =>
      if j.lines = 0 ∨ s.boxStopped ∨ !s.targetReady j.target ∨ !s.causeInForce 6 s.spoke then s
      else if s.shadowLost i key then s.repairFail (tileDefect j.lost) [j.lost / 144, j.target / 144]
      else
        let left := j.lines - min 5120 j.lines
        let s1 := s.updJob key fun x => { x with lines := left }
        if left = 0 then s1.copySlice i key j.target
        else
          let id := s1.turn.nextHold
          (s1.raiseHold 6 (coordHead 68)).withdrawHolds 6 fun h => h.id < id
    | _, _ => s

/-- A hold of cause c of this device, of a unit if one is given, is raised and has lasted more than `n` spokes (R89). -/
def State.heldOver (s : State) (c n : Nat) (unit : Option Nat) : Bool :=
  s.turn.holds.any fun h => h.cause == c && h.member.isNone && h.withdraw.isNone && decide (h.raise + n < s.spoke)
    && (match unit with | none => true | some u => h.unit == u)

/-- A roof row's reload exceeds its maximum: as for a repair copy, the tile that takes it is lost (R89, R429). -/
def State.escalateReload (s : State) (n : Nat) : State :=
  let s1 := { s with tile := { s.tile with jobs := s.tile.jobs.filter fun (j : RoofJob) => roofTile j.key != n } }
  (s1.withdrawHolds 7 fun h => h.unit == n).loseTile n 4

/-- R429: a part exceeds its maximum of 2,000 spokes, or its target fails (`fails`: an uncorrectable error on a write or a check, or
its heartbeat). For a logical tile that no copy repairs it is the ROOF_ROW event of R89 that exceeds its 4 spokes. -/
def execRepairCopyEscalate (dt : Nat) (key : CopyFailure) (s : State) : Res :=
  let s := s.pass dt
  .next <|
    match s.job? key.key with
    | some j => if key.fails ∨ s.heldOver 6 2000 none then s.escalate j else s
    | none =>
      match s.tileOf key.key with
      | none => s
      | some n => if s.heldOver 7 4 (some n) then s.escalateReload n else s

/-- R427: the transfers of the previous turn to a lost logical tile are sent again: `l` gives the bytes at their scratchpad offsets,
of which those of the transfer table are taken. The coach tables of a rebuilt coach come from the tower shadow. -/
def execRefillComplete (dt key : Nat) (l : List (Nat × List Byte)) (s : State) : Res :=
  let s := s.pass dt
  .next <|
    match s.job? key, s.img.image with
    | some j, some i =>
      if j.prefill ∨ j.refilled ∨ !s.targetReady j.target ∨ !s.causeInForce 6 s.spoke then s
      else
        let ts := (if s.flag HEAD_FMT_SET.in_effect then i.wideTransfers else i.transfers).filter fun t => t.dstC * 256 + t.dstT == key && t.flags / 2 % 2 == 0
        let ok := l.filter fun x => ts.any fun t => decide (t.dstOff ≤ x.1 ∧ x.1 + x.2.length ≤ t.dstOff + t.bytes)
        let s1 := ok.foldl (fun t x => t.writeSpad j.target x.1 x.2) s
        let s2 := if s1.rep.rebuilds.any fun b => b.lc == key / 256 && b.target == j.target / 144 then s1.copyTables i (key / 256) (j.target / 144) else s1
        s2.updJob key fun x => { x with refilled := true }
    | _, _ => s

/-! ### Copies in advance (R428, R487) -/

/-- An advance copy for the next failing tile starts, when nothing else is repaired. P-tiles and tiles with no usable site are
declared lost with no copy. -/
def State.startAdvance (s : State) : State :=
  if s.rep.advance.isSome ∨ !s.rep.jobs.isEmpty ∨ 2 ≤ s.get THM_STATUS.state then s
  else
    match s.rep.failing, s.img.image with
    | n :: rest, some i =>
      let s1 := { s with rep := { s.rep with failing := rest } }
      match s.logicalOf n with
      | none => s1.addDefect (tileDefect n)
      | some key =>
        match if n < 9216 ∧ key / 256 < 64 then s1.chooseSite i key n else none with
        | none => s1.loseTile n 3
        | some m =>
          let a : Advance := ⟨key, n, m, false, tileClass n != 0⟩
          ({ s1 with rep := { s1.rep with advance := some a } }.set (TILE_STATE.state.tile m) 3).noteRepair 3
    | _, _ => s

/-- R428: the copy in advance is complete. -/
def execAdvanceCopyComplete (dt : Nat) (s : State) : Res :=
  let s := s.pass dt
  .next <|
    match s.rep.advance, s.img.image with
    | some a, some i =>
      if a.ready ∨ s.boxStopped ∨ !s.turning ∨ !s.targetReady a.target ∨ s.thm.selfRefresh then s
      else if s.shadowLost i a.key then s.repairFail (tileDefect a.lost) [a.lost / 144, a.target / 144]
      else
        let s1 := s.copySlice i a.key a.target
        { s1 with rep := { s1.rep with advance := some { a with ready := true } } }
    | _, _ => s

/-- At the start of a turn, a tile whose copy is complete is declared lost (R428), or moved by a rotation (R487). -/
def State.finishAdvance (s : State) : State :=
  match s.rep.advance, s.img.image with
  | some a, some i =>
    if !a.ready then s
    else
      let s1 := { s with rep := { s.rep with advance := none } }
      if a.rotate then
        let s2 := (s1.raise 73 a.lost (siteOf a.lost) (siteOf a.target)).startJob i a.key a.lost a.target true
        ({ s2 with rep := { s2.rep with rotating := some a.key } }).inc THM_COUNTS.rotations
      else s1.loseTile a.lost 3 (some a.target)
  | _, _ => s

/-! ### Lost tiles (R416) -/

/-- R416: tile n is active and its heartbeat is missing for 2 consecutive spokes: a repair's target is chosen again (R429), a tile of the
image is lost, after the hold state if one is entered (R489), and the guard resets a coach that holds nothing of the image (R548). -/
def execHeartbeatMissing (dt n : Nat) (s : State) : Res :=
  let s := s.pass dt
  let st := s.get (TILE_STATE.state.tile n)
  .next <|
    if 9984 ≤ n ∨ st = 0 ∨ st = 4 then s
    else
      match s.rep.jobs.find? fun j => j.target == n with
      | some j => s.escalate j
      | none =>
        match s.rep.advance with
        | some a =>
          if a.target = n then
            let s1 := (s.set (TILE_STATE.state.tile n) 4).addDefect (tileDefect n)
            { s1 with rep := { s1.rep with advance := none, failing := if a.rotate then s1.rep.failing else a.lost :: s1.rep.failing } }
          else if (s.logicalOf n).isSome then (if s.get THM_STATUS.state = 3 then { s with rep := { s.rep with later := s.rep.later ++ [(n, 2)] } } else s.loseTile n 2)
          else s
        | none =>
          if (s.logicalOf n).isSome then (if s.get THM_STATUS.state = 3 then { s with rep := { s.rep with later := s.rep.later ++ [(n, 2)] } } else s.loseTile n 2)
          else if n < 9216 ∧ !s.coachInUse (n / 144) ∧ !s.boot.guardResets.contains (n / 144) then
            { s with boot := { s.boot with guardResets := s.boot.guardResets ++ [n / 144] } }
          else s

/-! ### Towers (R433 to R436) -/

/-- A tower set of group `k` in slot m keeps bytes at an offset of the tower that `bad` names. -/
def setHit (k : KvGroup) (dh m : Nat) (bad : Nat → Bool) : Bool :=
  let bytes := k.pages.length * 68 * dh
  (List.range (ceilDiv bytes 64)).any fun j => bad (k.towerBase + m / 24 * bytes + 64 * j)

/-- Data of tower t at offsets that `bad` names is gone, but for what the roofs or the mirror restore: sequences whose sets lie
there are recovered, prefix nodes removed, and a staged image invalid (R433, R435, R436). -/
def State.loseTowerData (s : State) (t : Nat) (bad : Nat → Bool) : State :=
  let gs := s.kvGroups
  let here (g m : Nat) : Bool := m % 24 == t && (match gs[g]? with | none => false | some k => setHit k s.headDim m bad)
  let s1 := s.loseSequences fun r => r.active && (List.range gs.length).any fun g => (r.sets.getD g []).any fun k => k.state != 1 && here g k.tow
  let gone := s1.serv.nodes.filter fun n => (List.range n.slots.length).any fun g => here g (n.slots.getD g 0)
  let free := gone.filter fun n => n.refs == 0
  let s2 := (s1.setServ fun v => { v with
    nodes := (v.nodes.filter fun (n : Node) => !free.any fun (x : Node) => x.id == n.id).map fun (n : Node) => if gone.any fun (x : Node) => x.id == n.id then { n with flushed := true } else n,
    freed := v.freed ++ free.flatMap fun n => (List.range n.slots.length).map fun g => (g, n.slots.getD g 0) }).syncNodes
  { s2 with img := { s2.img with staged := none } }

/-- A tower fails (R435, R436): a running round is abandoned. TWR_STATUS.capacity keeps what it read (DESIGN CHOICE, log entry 55:
R48 states no capacity of a failed tower). -/
def State.failTower (s : State) (t : Nat) : State :=
  if s.towerFailed t then s
  else
    let s1 := ((s.set (TWR_STATUS.state.twr t) 3).raise 77 (coordBay t 1) t 0).addDefect (defectWord 7 t 0 0)
    let s2 := s1.loseTowerData t fun _ => true
    let s3 := { s2 with rep := { s2.rep with chanDue := s2.rep.chanDue.filter fun (x : Nat × Nat) => x.1 != t, restoring := s2.rep.restoring.filter fun (x : Nat × Nat) => x.1 != t } }
    s3.setServ fun v => { v with dropRound := v.dropRound || v.round.isSome }

/-- The spare channel of tower t takes the place of channel ch (R45, R433). -/
def State.replaceChannel (s : State) (t ch : Nat) : State :=
  let w := defectWord 6 t ch 0
  let s1 := (((s.setFlag (TWR_STATUS.spare_used.twr t) true).set (TWR_STATUS.replaced_channel.twr t) ch).addDefect w).raise 76 (coordBay t 1) w 0
  let s2 := { s1 with rep := { s1.rep with restoring := s1.rep.restoring ++ [(t, ch)] } }
  if s2.turning then s2.noteRepair 4 else s2

/-- R433: a channel is failing: it shows 4 uncorrectable errors within 60 s or stops answering, or (`overrun`) one TWR_RFM event has
exceeded its 4 spokes (R89). The spare replaces it at the next boundary, or at once while no image runs; a tower with no spare
left fails (R435). -/
def execTowerChannelFailing (dt t : Nat) (c : ChannelFailure) (s : State) : Res :=
  let s := s.pass dt
  let ch := c.ch
  .next <|
    if 24 ≤ t ∨ 32 ≤ ch ∨ (c.overrun ∧ !s.heldOver 1 4 none) ∨ s.get (TWR_STATUS.state.twr t) ≠ 2 ∨ s.rep.chanDue.contains (t, ch) then s
    else if s.flag (TWR_STATUS.spare_used.twr t) ∨ s.rep.chanDue.any fun x => x.1 == t then s.failTower t
    else if s.turning then { s with rep := { s.rep with chanDue := s.rep.chanDue ++ [(t, ch)] } }
    else s.replaceChannel t ch

/-- A repair copy that is not complete still reads a shadow word of tower t at one of the offsets `bad` (R438). -/
def State.copyBlocked (s : State) (t : Nat) (bad : List Nat) : Bool :=
  match s.img.image with
  | none => false
  | some i => s.rep.jobs.any fun j => decide (0 < j.lines) && i.weights.any fun w =>
      w.kind == 0 && w.place * 256 + w.tile == j.key && match i.weights[w.shadow]? with
        | none => false
        | some d => d.place == t && bad.any fun o => decide (d.dest < o + 64 ∧ o < d.dest + 68 * wordCount w)

/-- The restore of channel ch of tower t ends, with the words at the offsets `bad` lost; a shadow word among them that a repair
copy needs is a repair failure (R438). -/
def State.endRestore (s : State) (t ch : Nat) (bad : List Nat) : State :=
  let s0 := if s.copyBlocked t bad then s.repairFail (defectWord 6 t ch 0) [] else s
  let s1 := { s0 with rep := { s0.rep with restoring := s0.rep.restoring.erase (t, ch) } }
  let s2 := if bad.isEmpty then s1 else s1.loseTowerData t fun o => bad.contains o
  if s2.rep.restoring.isEmpty ∧ s2.get HEAD_REPAIR_STATUS.state = 4 then s2.set HEAD_REPAIR_STATUS.state 0 else s2

/-- R433: the copy and restore of a replaced channel complete; `bad` gives the tower offsets (multiples of 64) of words it could not
read. Shadow words come back from the roof and ring regions from the mirror. The hold state abandons a restore, which starts again
after it (R483, R485). -/
def execChannelRestoreComplete (dt t ch : Nat) (bad : List Nat) (s : State) : Res :=
  let s := s.pass dt
  .next <| if s.rep.restoring.contains (t, ch) ∧ !s.thm.selfRefresh ∧ !s.boxStopped then s.endRestore t ch bad else s

/-! ### Guards (R439, R440, R501) -/

/-- Watcher of each guard: the next live one, or itself when the strongbox watches it (R439). -/
def State.syncWatchers (s : State) : State :=
  (List.range 4).foldl (fun t i =>
    let w := (([1, 2, 3].map fun d => (i + d) % 4).find? fun g => !s.guardOut g).getD i
    t.set (GRD_WATCHDOG_i.watcher.guard i) w) s

/-- Guard g is in reset or dead: what it was about to take, or served, is pending at its watcher (R501, DEDUCED, log entry 37). -/
def State.moveSources (s : State) (g : Nat) : State :=
  let w := s.get (GRD_WATCHDOG_i.watcher.guard g)
  let served := if s.flag (svcValid g) then [s.get (svc g)] else []
  let mine := (s.ev.pend.filter fun p => p.1 == g).map (·.2)
  let moved := (mine ++ served.filter (· < 16)).filter fun n => !s.ev.pend.contains (w, n)
  let s1 := { s with ev := { s.ev with selected := s.ev.selected.filter (fun (p : Nat × Nat) => p.1 != g), pend := s.ev.pend.filter (fun (p : Nat × Nat) => p.1 != g) ++ moved.eraseDups.map fun n => (w, n) } }
  let s2 := (s1.setFlag (svcValid g) false).set (svc g) 0
  served.foldl (fun t n =>
    let still := (List.range 4).any fun h => t.flag (svcValid h) && t.get (svc h) == n
    (t.setFlag (EVT_SRC_n.in_service.src n) still).setFlag (EVT_SRC_n.pending.src n) true) s2

/-- R439, R440: 10 ms without a restart: the watcher resets the guard, or the third expiry within 1 s makes it dead. -/
def execWatchdogExpiry (dt g : Nat) (s : State) : Res :=
  let s := s.pass dt
  let last := (Sparse.find s.rep.restarts g).getD 0
  .next <|
    if 4 ≤ g ∨ s.get (GRD_WATCHDOG_i.state.guard g) ≠ 0 ∨ s.ticks < last + usTicks 10000 then s
    else
      let old := ((Sparse.find s.rep.expiries g).getD []).take 2
      let dead := old.length == 2 && old.all fun t => decide (s.ticks < t + usTicks 1000000)
      let s1 := (s.inc (GRD_WATCHDOG_i.expiries.guard g)).set (GRD_WATCHDOG_i.last_expiry.guard g) (s.count / 65536)
      let s2 := { s1 with rep := { s1.rep with expiries := Sparse.put s1.rep.expiries g (s.ticks :: old) } }
      let s3 := (s2.set (GRD_WATCHDOG_i.state.guard g) (if dead then 3 else 1)).syncWatchers
      let s4 := (s3.moveSources g).raiseHead 83 g (s3.get (GRD_WATCHDOG_i.watcher.guard g))
      if dead then (s4.addDefect (defectWord 8 g 0 0)).raiseHead 5 g 0 else s4

/-- R439. -/
def execWatchdogRestart (dt g : Nat) (s : State) : Res :=
  let s := s.pass dt
  .next <| if g < 4 ∧ s.get (GRD_WATCHDOG_i.state.guard g) = 0 then { s with rep := { s.rep with restarts := Sparse.put s.rep.restarts g s.ticks } } else s

/-- Guard g runs from state `from_`, with its watchdog restarted. -/
def State.guardRuns (s : State) (g from_ : Nat) : State :=
  if g < 4 ∧ s.get (GRD_WATCHDOG_i.state.guard g) = from_ then
    { s.set (GRD_WATCHDOG_i.state.guard g) 0 with rep := { s.rep with restarts := Sparse.put s.rep.restarts g s.ticks } }.syncWatchers
  else s

/-- R439: a guard in reset reports running and takes its duties back. -/
def execGuardReportsRunning (dt g : Nat) (s : State) : Res := .next <| (s.pass dt).guardRuns g 1

/-- R410, R439: a running guard goes asleep. -/
def execGuardAsleep (dt g : Nat) (s : State) : Res :=
  let s := s.pass dt
  .next <| if g < 4 ∧ s.get (GRD_WATCHDOG_i.state.guard g) = 0 then s.set (GRD_WATCHDOG_i.state.guard g) 2 else s

/-- R439: an asleep guard wakes. -/
def execGuardWakes (dt g : Nat) (s : State) : Res := .next <| (s.pass dt).guardRuns g 2

end Sys2Proof.Machine
end

