-- ==== Sys2Proof/Machine/LoadChecks.lean ====
section
/-! DEFINITION. The checks of an image load and the order in which they decide (R71, R98, R161, R162, R166, R185, R195, R206,
R214, R261, R262, R271, R302, R306, R339, R343, R350 to R370, R456 to R458, R480, R524 to R526, R576, R578, R580). -/

namespace Sys2Proof.Machine

/-- A check that fails: the file byte with whose arrival it is made, its place among the checks of that byte, and its code (R578). -/
structure Check where
  (pos rank code : Nat)
  deriving DecidableEq, Repr

/-- A check that fails when `bad` holds. -/
def check (bad : Bool) (pos rank code : Nat) : List Check := if bad then [⟨pos, rank, code⟩] else []

/-- Entries of a section type. -/
def sections (i : Image) (ty : Nat) : List SectEntry := i.sects.filter fun e => e.ty == ty

/-- File byte at offset `o` of a section, or its last byte when the section is shorter; 0 for a section the table lacks. -/
def sectByte (i : Image) (ty inst o : Nat) : Nat :=
  match i.sects.find? fun e => e.ty == ty && e.inst == inst with
  | none => 0
  | some e => e.offset + min o (e.length - 1)

/-- Last byte of a section. -/
def sectEnd (i : Image) (ty inst : Nat) : Nat := sectByte i ty inst (2 ^ 64)

/-- No value twice. -/
def distinct (l : List Nat) : Bool := l.eraseDups.length == l.length

/-- Model coaches that the grade may allocate (R1). -/
def allocatable : Nat := if Config.grade = 2 then 56 else 60

/-! ### Header and section table (R351 to R353) -/

/-- The header, in the order of R578. -/
def State.headerChecks (s : State) (i : Image) : List Check :=
  let h := i.header
  check (h.magic != 0x4958504E || h.version != 1 || decide (16 ≤ h.flags) || !h.resvZero || decide (h.sections = 0 ∨ 4096 < h.sections)) 63 0 1
    ++ check (h.part != 0x5725 || h.grade != Config.grade || decide (s.get HEAD_DEVICE_ID.stepping < h.stepping)) 63 1 4
    ++ check (decide (h.logicalCoaches = 0 ∨ allocatable < h.logicalCoaches ∨ h.minGood < h.logicalCoaches ∨ 64 < h.minGood)) 63 2 6
    ++ check (decide (s.get HEAD_DEVICE_ID.good_coaches < h.minGood)) 63 3 5
    ++ check (h.flags.testBit 0 && !s.flag SBX_STATUS.debug_active) 63 4 0xA

/-- The instances that R353 gives a section type for an image with these header flags: the numbers of its entries are right. -/
def instancesOk (i : Image) (ty : Nat) : Bool :=
  let l := (sections i ty).map (·.inst)
  let sets := if i.header.flags.testBit 1 then [0, 1] else [0]
  let is (m : List Nat) : Bool := l.length == m.length && m.all l.contains
  match ty with
  | 1 => distinct l && !l.isEmpty && l.all (· < 4)
  | 4 => is sets
  | 5 => is sets
  | 8 => l.isEmpty || is [0]
  | 0xF => is (List.range l.length)
  | 0x10 => if i.header.flags.testBit 3 then is [0] || is [0, 1] else l.isEmpty
  | 0x11 => l.isEmpty || is [0]
  | _ => is [0]

/-- Section types that the signature covers (R353). -/
def signedType (ty : Nat) : Bool := decide (1 ≤ ty ∧ ty ≤ 0x12) && ty != 0xF

/-- The section table: entries, alignment, overlap and instances. -/
def tableChecks (i : Image) : List Check :=
  let fine (e : SectEntry) : Bool :=
    decide (1 ≤ e.ty ∧ e.ty ≤ 0x14) && e.flags == (if signedType e.ty then 1 else 0) && e.resv == 0 && e.offset % 4096 == 0
      && decide (64 + 32 * i.header.sections ≤ e.offset ∧ e.offset + e.length ≤ i.header.imageBytes)
  let apart := (List.range i.sects.length).all fun a => (List.range a).all fun b =>
    match i.sects[a]?, i.sects[b]? with
    | some x, some y => decide (x.offset + x.length ≤ y.offset ∨ y.offset + y.length ≤ x.offset)
    | _, _ => true
  check (i.sects.length != i.header.sections || !i.sects.all fine || !apart || !((List.range 20).map (· + 1)).all (instancesOk i))
    (63 + 32 * i.header.sections) 0 1

/-! ### Sections -/

/-- Class code of a logical tile index (R357): M, V and S in a coach, P in a bay. -/
def indexClass (lc lt : Nat) : Option Nat :=
  if 0x80 ≤ lc then (if lc < 0x98 ∧ lt < 30 then some 3 else none)
  else if lt < 90 then some 0 else if lt < 126 then some 1 else if lt < 133 then some 2 else none

/-- A logical coach that the image may name (R357). -/
def coachNamed (i : Image) (lc : Nat) : Bool := decide (lc < i.header.logicalCoaches ∨ (0x40 ≤ lc ∧ lc < 0x48) ∨ (0x80 ≤ lc ∧ lc < 0x98))

/-- The nominal placement of the image (R358). -/
def nominal (i : Image) : Sparse Nat :=
  i.tiles.map fun t => (t.lc * 256 + t.lt,
    if 0x80 ≤ t.lc then 9216 + 32 * (t.lc - 0x80) + t.site else if t.lc < 64 then i.coachOrder.getD t.lc 0 * 144 + t.site else t.site)

/-- Placement (R98, R353, R357, R358, R360). -/
def State.placementChecks (s : State) (i : Image) : List Check :=
  let p := sectEnd i 2 0
  let site (t : PlTile) : Bool :=
    coachNamed i t.lc && (match indexClass t.lc t.lt with
      | none => false
      | some 3 => decide (t.site < 32)
      | some c => decide (t.site < 144) && tileClass t.site == c)
  let apart (l : List PlTile) : Bool := distinct (l.map fun t => t.lc * 256 + t.lt) && distinct (l.map fun t => t.lc * 256 + t.site)
  let shared := apart i.tiles
  let many (t : PlTile) : Bool :=
    let n := (i.tiles.filter fun u => u.lc == t.lc && indexClass u.lc u.lt == indexClass t.lc t.lt).length
    decide ((match indexClass t.lc t.lt with | some 0 => 90 | some 1 => 36 | some 2 => 7 | _ => 30) < n)
  let bays := (List.range 24).any fun b => decide (((bayTiles b).filter s.goodTile).length < (tilesOf i (0x80 + b)).length)
  let used := ((i.tiles.filterMap fun t => indexClass t.lc t.lt).eraseDups)
  let progs := (sections i 1).map (·.inst)
  check (used.length != progs.length || !used.all progs.contains) (max p (((sections i 1).map fun e => e.offset + e.length - 1).foldl max 0)) 0 1
    ++ check (i.coachOrder.length != 64 || !distinct i.coachOrder || !i.coachOrder.all (· < 64) || !i.tiles.all site || !shared) p 1 6
    ++ check (i.tiles.any many || bays) p 2 7
    ++ (List.zip (List.range i.drafts.length) i.drafts).flatMap fun x =>
      check (!x.2.tiles.all (fun t => site t && draftCoach t.lc) || !apart x.2.tiles) (max p (sectEnd i 0x10 x.1)) 1 6

/-- Routes (R302, R306, R580). -/
def State.routeChecks (s : State) (i : Image) : List Check :=
  let p := sectEnd i 3 0
  let row (r : CplRow) : Bool := decide (r.used ≤ 1) && r.zero == 0 && (r.used == 1 || (r.member == 0 && r.peer == 0))
  let fits (limit : Bool) (d : TreeDecl) : Bool :=
    match s.treePaths i (nominal i) d with
    | none => false
    | some (r, ps) => treeOk r ps && (!limit || ps.all fun x => decide (x.length ≤ 130 ∧ hitches x ≤ 16))
  let nums := decide (i.barriers.length ≤ 64 ∧ i.trees.length ≤ 256) && i.barriers.all (fun d => d.num < 64) && i.trees.all (fun d => decide (d.num < 256 ∧ 1 ≤ d.vc ∧ d.vc ≤ 3))
  check (i.cplTable.length != 24 || !i.cplTable.all row) p 0 1
    ++ check ((i.cplTable.any fun r => r.used == 1) && (sections i 0x11).isEmpty) p 1 6
    ++ check (!nums || !i.barriers.all (fits true) || !i.trees.all (fits false)) (max p (sectEnd i 2 0)) 2 7

/-- Transfers of one schedule set (R366). -/
def transferChecks (i : Image) (inst : Nat) (l : List Transfer) : List Check :=
  (List.zip (List.range l.length) l).flatMap fun x =>
    check (decide (x.2.vc = 0 ∨ 3 < x.2.vc ∨ 8 ≤ x.2.flags)) (sectByte i 4 inst (32 * x.1 + 31)) 0 1

/-- A parameter block that R71 refuses. -/
def blockBad (c : Sched) : Bool :=
  decide (c.turnLen < 8 ∨ 8192 < c.turnLen ∨ c.turnLen - ceilDiv c.workEnd 95 < c.playMin ∨ c.turnLen < ceilDiv c.workEnd 95
    ∨ c.playMin < c.holdLead + 1 ∨ c.holdLead ≠ 3 + 5 * c.diameter ∨ 3 < c.diameter)

/-- An action list that R365 refuses. -/
def listBad (c : Sched) (l : ActList) : Bool :=
  let offs := l.acts.map (·.offset)
  l.acts.any (fun a => decide (c.workEnd ≤ a.offset ∨ a.kind = 0 ∨ 7 < a.kind)) || (List.zip offs (offs.drop 1)).any fun x => decide (x.2 < x.1)

/-- A schedule section (R71, R365, R458). -/
def schedChecks (i : Image) (inst : Nat) (c : Sched) : List Check :=
  let e := sectEnd i 5 inst
  let early (l : ActList) : Bool := l.lt < 90 && l.lc < 0x80 && (match i.power.recs.find? fun r => r.lc == l.lc with
    | none => false
    | some r => l.acts.any fun a => a.kind == 1 && decide (a.offset < 95 * r.stagger))
  check (!c.resvZero) (sectByte i 5 inst 63) 0 1 ++ check (blockBad c) (sectByte i 5 inst 63) 1 6
    ++ check (c.lists.any fun l => l.acts.any fun a => a.zero != 0) e 0 1 ++ check (c.lists.any (listBad c)) e 1 6
    ++ check (c.lists.any early) (max e (sectEnd i 9 0)) 1 6

/-- Regions (R114, R118, R251, R368). -/
def regionChecks (i : Image) : List Check :=
  let p := sectEnd i 6 0
  let many (r : SpaceRegion) : Bool := decide (16 < (i.spaceRegs.filter fun q => q.space == r.space && q.place == r.place).length)
  check (i.spaceRegs.any fun r => decide ((r.space ≠ 2 ∧ r.space ≠ 3) ∨ 8 ≤ r.perm)) p 0 1
    ++ check ((i.tileRegs.any fun t => t.regions.any (fun r => decide (16 ≤ r.1)) || t.circ.any fun r => decide (16 ≤ r.1))
      || i.spaceRegs.any many || i.spaceRegs.any fun r => r.space == 3 && decide (0xFC0000000 < 64 * r.limit)) p 2 7

/-- A format table entry that R162 refuses. -/
def fmtBad (f : Fmt) (wide : Bool) : Bool :=
  decide (3 < f.wfmt ∨ f.satScale = 0 ∨ 0xFE < f.satScale ∨ f.window < 64 ∨ f.threshold = 0 ∨ 0x7F800000 ≤ f.threshold)
    || (f.caps.testBit 1 && f.wfmt != 2) || f.caps.testBit 0 == (f.tAlt == 0xFFFFFFFF) || recipeBad f wide f.recipe

/-- Formats (R161, R162). -/
def formatChecks (i : Image) : List Check :=
  check (decide (4096 < i.formats.length)) (sectEnd i 7 0) 1 6
    ++ (List.zip (List.range i.formats.length) i.formats).flatMap fun x =>
      check (decide (4 ≤ x.2.caps)) (sectByte i 7 0 (64 * x.1 + 63)) 0 1
        ++ check (fmtBad x.2 (i.header.flags.testBit 1)) (sectByte i 7 0 (64 * x.1 + 63)) 1 6

/-- The power section (R457). -/
def powerChecks (i : Image) : List Check :=
  let w := i.power
  let edp := if Config.grade = 2 then 22000 else 25000
  let n := w.curves.length
  let curve (l : List Nat) : Bool := l.length != 48 || l.any (fun v => decide (v < 600 ∨ 850 < v)) || (List.zip l (l.drop 1)).any fun x => decide (x.2 < x.1)
  let coaches := (((i.tiles ++ i.drafts.flatMap (·.tiles)).filter fun t => t.lc < 0x80).map (·.lc)).eraseDups
  let bad := decide (edp < w.budget ∨ w.budget < w.pPre ∨ n = 0 ∨ 8 < n ∨ 440 < w.bayPeak ∨ n ≤ w.bayCurve) || w.curves.any curve
    || w.recs.any (fun r => decide (440 < r.iPeak ∨ n ≤ r.curve ∨ 15 < r.stagger ∨ 8 < (w.recs.filter fun q => q.stagger == r.stagger).length))
  check bad (sectEnd i 9 0) 1 6
    ++ check (coaches.any fun c => (w.recs.filter fun r => r.lc == c).length != 1) (max (sectEnd i 9 0) (sectEnd i 2 0)) 1 6

/-- A curve that R480 refuses. -/
def curveBad (l : List (Int × Nat)) : Bool :=
  l.length != 16 || l.any (fun e => decide (420 ≤ e.1 ∨ e.2 < 48 ∨ 95 < e.2)) || (List.zip l (l.drop 1)).any fun x => decide (x.2.1 < x.1.1 ∨ x.1.2 < x.2.2)

/-- Reserved bits of a sampling profile (R18). -/
def profileReserved (v : Nat) : Bool := bits v 25 3 != 0 || bits v 43 5 != 0

/-- Sampler (R261, R262). -/
def samplerChecks (i : Image) : List Check :=
  check (i.sampler.length != 256) (sectEnd i 0xB 0) 0 1
    ++ (List.zip (List.range i.sampler.length) i.sampler).flatMap fun x =>
      check (profileReserved x.2.toNat) (sectByte i 0xB 0 (8 * x.1 + 7)) 0 1 ++ check (!profileOk x.2.toNat) (sectByte i 0xB 0 (8 * x.1 + 7)) 1 6

/-- Bytes from `lo` on lie in declared scratchpad regions, whose (base, limit) pairs of bytes are given, up to `hi`. -/
def covered (rs : List (Nat × Nat)) (hi : Nat) : Nat → Nat → Bool
  | 0, lo => decide (hi ≤ lo)
  | fuel + 1, lo =>
    if hi ≤ lo then true
    else match rs.find? fun r => decide (r.1 ≤ lo ∧ lo < r.2) with
      | none => false
      | some r => covered rs hi fuel r.2

/-- Scratchpad regions that the image declares at a logical tile (R118, R134). -/
def regionsOf (i : Image) (key : Nat) : List (Nat × Nat) :=
  ((i.tileRegs.filter fun t => t.lc * 256 + t.lt == key).flatMap (·.regions)).filterMap fun x =>
    let g (f : Fld) : Nat := bits x.2.toNat f.lo f.w
    if g TILE_REGION_n.space = 0 then some (64 * g TILE_REGION_n.base, 64 * g TILE_REGION_n.limit) else none

/-- A collective's contributions, and the results of an all-reduce, lie within the declared regions of its tile (R343). -/
def collInRegions (i : Image) (c : CollDecl) : Bool :=
  let fits (a len : Nat) : Bool := covered (regionsOf i c.tile) (a + len) 17 a
  fits c.gather (c.members.length * c.size) && (c.kind == 0 || fits c.result c.size)

/-- A head group's pool, staging area and provisional areas lie within the declared regions of its tile (R214). -/
def pageInRegions (i : Image) (k : KvGroup) (x : KvPage) : Bool :=
  let dh := match i.heads with | [] => 0 | h :: _ => h.dh
  let fits (a len : Nat) : Bool := covered (regionsOf i x.tile) (a + len) 17 a
  fits x.pool (128 * dh * k.pool) && fits x.staging (128 * dh * (48 * k.staging))
    && (List.range i.treeCars).all fun c =>
      match x.prov[c]? with | none => false | some a => fits a.1 (32 * dh + 16) && fits a.2 (32 * dh + 16)

/-- Each head group of each attention layer is held by exactly one V-tile of its layer group (R206). -/
def headGroupsHeld (i : Image) : Bool :=
  let all := i.kv.flatMap fun k => k.pages.map fun x => (x.layer, x.head)
  let want := (List.zip (List.range i.heads.length) i.heads).flatMap fun x => (List.range x.2.nkv).map fun h => (x.1, h)
  all.length == want.length && (want.all fun w => all.contains w)
    && (List.zip (List.range i.kv.length) i.kv).all fun g => g.2.pages.all fun x =>
      i.groupTiles.contains (g.1, x.tile / 256, x.tile % 256)
        && i.tiles.any fun t => t.lc * 256 + t.lt == x.tile && tileClass t.site == 1

/-- Serving, with the KV layout (R185, R195, R206, R214, R271). -/
def servingChecks (i : Image) : List Check :=
  let head (h : Head) : Bool :=
    decide (h.nkv = 0 ∨ h.nq % max 1 h.nkv ≠ 0 ∨ 8 < h.nq / max 1 h.nkv ∨ (h.dh ≠ 64 ∧ h.dh ≠ 128 ∧ h.dh ≠ 256) ∨ h.sigma = 0 ∨ 0x7F800000 ≤ h.sigma)
  let same := (i.heads.map (·.dh)).eraseDups.length ≤ 1
  check (decide (i.depth = 0 ∨ 511 < i.depth ∨ i.bcap % 64 ≠ 0 ∨ 4096 < i.bcap ∨ 1024 < i.adapters ∨ 0x6000000 < 2 * i.adapters * i.footprint)
      || (prefillFormats i).any (fun f => decide (i.bcap < bMin f (pTilesOf i))) || i.heads.any head || !same) (sectEnd i 0xC 0) 1 6
    ++ check (i.kv.any fun k => decide ((k.window + k.staging) * 64 < i.cmax)) (max (sectEnd i 0xC 0) (sectEnd i 0xD 0)) 1 6
    ++ check (i.kv.any fun k => k.pages.any fun x => !pageInRegions i k x) (max (sectEnd i 6 0) (sectEnd i 0xD 0)) 1 6
    ++ check (!headGroupsHeld i) (max (sectEnd i 0xC 0) (sectEnd i 0xD 0)) 1 6

/-- Weight descriptors and their payloads (R159, R354, R367). -/
def weightChecks (i : Image) : List Check :=
  let list (ws : List WDesc) (at_ : Nat → Nat) (fin : Nat) : List Check := (List.zip (List.range ws.length) ws).flatMap fun x =>
    let w := x.2
    let d := at_ x.1
    let p := max d (sectEnd i 0xF w.payload)
    let shadow := if w.kind = 0 then (match ws[w.shadow]? with | none => false | some h => h.kind == 1) else w.shadow == 0xFFFF && w.tile == 0
    check (decide (2 < w.kind ∨ 4 ≤ w.flags)) d 0 1 ++ check (!shadow) fin 0 1
      ++ check ((sections i 0xF).all fun e => e.inst != w.payload || e.length != w.bytes) d 0 1
      ++ check (sectionWords w).isNone p 3 9 ++ check (w.crc != w.dataCrc) p 5 0xB
  list i.weights (fun k => sectByte i 0xE 0 (32 * k + 31)) (sectEnd i 0xE 0)
    ++ (List.zip (List.range i.drafts.length) i.drafts).flatMap fun x => list x.2.weights (fun _ => sectEnd i 0x10 x.1) (sectEnd i 0x10 x.1)

/-- Collectives (R343). -/
def collectiveChecks (i : Image) : List Check :=
  match i.group with
  | none => []
  | some g => check (g.colls.any fun c => !collInRegions i c) (max (sectEnd i 0x11 0) (sectEnd i 6 0)) 2 7

/-! ### After the last byte (R339, R363, R526) -/

/-- The signature does not hold (R526). -/
def State.signatureBad (s : State) (i : Image) : Bool :=
  let g := i.sig
  let key := if g.signer = 1 then Sparse.find s.sbx.keys g.slot else if g.signer = 2 then some g.key else none
  match key with
  | none => true
  | some k =>
    (g.signer == 1 && decide (g.slot < 4 ∨ 7 < g.slot)) || g.keyId != Config.sha3 k || (g.signer == 2 && g.keyId != Config.fusedDigest 2)
      || g.digest != i.digest || !Config.mldsaVerify 1 k g.digest g.sig

/-- A placement as the relocation section lists it (R363). -/
def relocation (pl : Sparse Nat) : List Placed :=
  (sortPlace pl).map fun p => ⟨p.1 / 256, p.1 % 256, if p.2 < 9216 then p.2 / 144 else (p.2 - 9216) / 32, siteOf p.2⟩

/-- VC1 flits that a transfer puts on its coupling, by flit slot of 1.0625 ns at 1.9 GHz (R320, R336). -/
def slotsOf (t : Transfer) : List Nat :=
  let f := if t.bytes ≤ 216 then 1 else 1 + ceilDiv (t.bytes - 216) 248
  (List.range f).map fun k => t.leave * 160 / 323 + k

/-- Coupling b's VC1 schedule fills more than 44 of 64 consecutive flit slots (R339). -/
def couplingBad (ts : List Transfer) (b : Nat) : Bool :=
  let l := (ts.filter fun t => t.vc == 1 && t.flags.testBit 2 && t.dstC == 0x80 + b).flatMap slotsOf
  l.any fun a => decide (44 < (l.filter fun x => decide (a ≤ x ∧ x < a + 64)).length)

/-- The checks after the last byte of the file. -/
def State.finalChecks (s : State) (i : Image) : List Check :=
  let p := i.header.imageBytes - 1
  let moved := match s.relocate i with | none => true | some r => relocation r.2 != i.reloc
  check (s.signatureBad i) p 10 3 ++ check moved p 11 8
    ++ check ((List.range 24).any fun b => couplingBad i.transfers b || couplingBad i.wideTransfers b) p 12 0xC

/-! ### The order of R578 -/

/-- Every check that fails. -/
def State.failing (s : State) (i : Image) : List Check :=
  (match i.parseErr with | none => [] | some p => check true p 0 1)
    ++ s.headerChecks i ++ tableChecks i ++ (i.sects.flatMap fun e => check (e.crc != e.dataCrc) (e.offset + e.length - 1) 4 2)
    ++ s.placementChecks i ++ s.routeChecks i ++ transferChecks i 0 i.transfers ++ transferChecks i 1 i.wideTransfers
    ++ schedChecks i 0 i.sched ++ (match i.wide with | none => [] | some w => schedChecks i 1 w) ++ regionChecks i ++ formatChecks i
    ++ powerChecks i ++ check (curveBad i.thermal.normal || curveBad i.thermal.lowFlow) (sectEnd i 0xA 0) 1 6 ++ samplerChecks i
    ++ servingChecks i ++ weightChecks i ++ collectiveChecks i
    ++ check (i.sig.version != 1 || !i.sig.resvZero) (sectEnd i 0x14 0) 0 1 ++ s.finalChecks i

/-- The check that ends a load of which the first `got` bytes have arrived: the first one made that fails. -/
def firstFailure (l : List Check) (got : Nat) : Option Check :=
  (l.filter fun c => c.pos < got).foldl (fun (a : Option Check) c =>
    match a with
    | none => some c
    | some b => if c.pos < b.pos ∨ (c.pos = b.pos ∧ c.rank < b.rank) then some c else some b) none

end Sys2Proof.Machine
end

