-- ==== Sys2Proof/Machine/Load.lean ====
section
/-! DEFINITION. The load commands: IMAGE_LOAD, MODEL_STAGE, DRAIN_RELOAD, ADAPTER_LOAD, TOWER_STAGE, their bulk data and their
time limits (R131, R133, R160, R163, R193, R261, R271 to R279, R323, R342, R348, R356, R364, R370, R399 to R401, R485, R580). -/

namespace Sys2Proof.Machine

/-! ### Memory of a load (R131, R356) -/

/-- Coach whose weight stores or coach tables a memory key belongs to. -/
def roofCoach (k : Nat) : Option Nat :=
  let a := k % 281474976710656
  if k < 2 * 281474976710656 then
    if 0x100000000000 ≤ a ∧ a < 0x140000000000 ∧ a % 0x10000000 < wsBytes then some ((a - 0x100000000000) / 0x1000000000) else none
  else if k < 4 * 281474976710656 then some (a / 268435456)
  else none

/-- A scratchpad byte. -/
def spadByte (k : Nat) : Bool := decide (0x100000000000 ≤ k ∧ k < 0x300000000000 ∧ 0x8000000 ≤ k % 0x10000000)

/-- Roofs and coach tables of coaches that are not kept, and every scratchpad, hold what memory that nothing has written holds
(R131; DESIGN CHOICE, log entry 6). -/
def State.wipeFor (s : State) (keep : List Nat) : State :=
  let gone (k : Nat) : Bool := spadByte k || (match roofCoach k with | none => false | some c => !keep.contains c)
  { s with mem := s.mem.filter fun (c : Host.Cell) => !gone c.1, flips := s.flips.filter fun (c : Nat × Nat) => !gone c.1 }

/-- A coach's weights are retained (R356). -/
def State.retains (s : State) (i : Image) (pl : Sparse Nat) (c : Nat) : Bool :=
  let here := pl.filter fun p => decide (p.2 < 9216 ∧ p.2 / 144 = c)
  i.header.generation != 0 && i.header.generation == s.get HEAD_IMAGE_GEN.generation && s.mark c && !here.isEmpty
    && here.all fun p => Sparse.find s.img.before p.1 == some p.2

/-- Count the MX payload of a section in HEAD_IMPORT_STATUS (R160). -/
def State.countImport (s : State) (w : WDesc) : State :=
  match sectionWords w with
  | some (_, sat) => if w.flags.testBit 1 then (s.inc HEAD_IMPORT_STATUS.blocks w.mx.length).inc HEAD_IMPORT_STATUS.saturated sat else s
  | none => s

/-- Coach that a weight section reaches (R367). -/
def State.sectionCoach (s : State) (w : WDesc) : Option Nat :=
  match w.kind with
  | 0 => (s.tileOf (w.place * 256 + w.tile)).map fun n => n / 144
  | 2 => (s.img.place.find? fun p => decide (p.1 / 256 = w.place ∧ p.2 < 9216)).map fun p => p.2 / 144
  | _ => none

/-- Where a section of a two-half image goes: into the half that its flag names, of the weight stores or of the scale tables, of
which each half takes one part of two (R276; the split of the scale tables: DEDUCED, log entry 59). -/
def halfDest (i : Image) (w : WDesc) : Nat :=
  let h := if w.flags.testBit 0 then 1 else 0
  if !i.header.flags.testBit 2 ∨ w.kind = 1 ∨ (w.kind = 2 ∧ w.dest < scaleTables) then w.dest
  else if w.kind = 0 then halfBytes * h + w.dest % halfBytes
  else scaleTables + scaleHalf * h + (w.dest - scaleTables) % scaleHalf

/-- Load one weight section to the place it names, unless its coach is kept (R193, R356, R367); a failed tower takes none. -/
def State.loadSection (s : State) (keep : List Nat) (keepShadow : Bool) (i : Image) (w : WDesc) : State :=
  match sectionWords w with
  | none => s
  | some (ws, _) =>
    match w.kind, s.sectionCoach w with
    | 0, some c =>
      if keep.contains c then s
      else
        match s.tileOf (w.place * 256 + w.tile) with
        | some n => ((s.putWords n (halfDest i w) ws).putFormat i w.layer c).countImport w
        | none => s
    | 2, some c => if keep.contains c then s else (s.putTable c (halfDest i w) ws).countImport w
    | 1, _ =>
      if s.towerShut w.place ∨ (keepShadow ∧ !s.flag (TWR_STATUS.spare_used.twr w.place)) then s
      else (s.wrBytes (towerBase w.place + w.dest) (ws.flatMap fun x => leBytes 68 x)).countImport w
    | _, _ => s

/-! ### Registers of a load -/

/-- Saturated blocks of the weight slices of a format layer (R140). -/
def satOf (i : Image) (l : Nat) (f : Fmt) : Nat :=
  ((i.weights.filter fun w => w.kind == 0 && w.layer == l).map fun w => match sectionWords w with
    | none => 0
    | some r => (r.1.map fun x => satBlocks f.wfmt x).sum).sum

/-- Recipes, sampling profiles and format counters (R140, R163, R168, R261); shadows written before are replaced (R581). -/
def State.loadFormats (s : State) (i : Image) : State :=
  let s1 := (s.dropBanks HEAD_FMT_RECIPE.addr HEAD_FMT_SET.addr).dropBanks HEAD_SAMP_PROFILE.addr HEAD_ADAPTER_INDEX.addr
  let s2 := (List.zip (List.range i.formats.length) i.formats).foldl (fun (t : State) (x : Nat × Fmt) =>
    ((t.setReg (HEAD_FMT_RECIPE.act.ix x.1).key x.2.recipe).setReg (HEAD_FMT_ACTIVE.act.ix x.1).key x.2.recipe).set
      (HEAD_FMT_SAT.sat_blocks.ix x.1) (min (2 ^ 32 - 1) (satOf i x.1 x.2))) s1
  let s3 := (List.zip (List.range i.sampler.length) i.sampler).foldl (fun (t : State) (x : Nat × Word) =>
    (t.setReg (HEAD_SAMP_PROFILE.temperature.ix x.1).key x.2.toNat).setReg (HEAD_SAMP_ACTIVE.temperature.ix x.1).key x.2.toNat) s2
  { s3 with turn := { s3.turn with shadows := s3.turn.shadows.filter fun (x : Shadow) =>
    match x.key with | .recipe _ => false | .profile _ => false | _ => true } }

/-- Adapters and halves (R275, R276): what the last image declared is kept when this one declares the same. -/
def State.loadAdapters (s : State) (i : Image) : State :=
  let now := (i.header.generation, i.adapters, i.footprint)
  let s1 :=
    if s.img.last = some now then
      (List.range i.adapters).foldl (fun (t : State) a => [1, 2].foldl (fun (u : State) c => if u.get (copyState a c) = 3 then u.set (copyState a c) 1 else u) t) s
    else
      let t := s.dropBanks HEAD_ADAPTER_PTR.addr HEAD_MODEL_PTR.addr
      { t with turn := { t.turn with shadows := t.turn.shadows.filter fun (x : Shadow) => match x.key with | .adapter _ => false | _ => true } }
  let has1 := i.header.flags.testBit 2 && i.weights.any fun w => w.kind == 0 && w.flags.testBit 0
  let s2 := ((s1.set HEAD_MODEL_STATE.state_a 2).set HEAD_MODEL_STATE.state_b (if has1 then 1 else 0)).set HEAD_MODEL_PTR.sel 0
  { s2 with img := { s2.img with last := some now }, turn := { s2.turn with shadows := s2.turn.shadows.filter fun (x : Shadow) => x.key != .model } }

/-- Tiles, routes, trees and windows of the image under the relocation in effect (R134, R349, R361). -/
def State.loadTiles (s : State) (i : Image) : State :=
  let s1 := s.img.place.foldl (fun (t : State) (p : Nat × Nat) => (t.loadTileRegs i p.1 p.2).activate p.2) s
  let s2 := s1.loadRoutes i s1.img.place
  let s3 := (List.range 9216).foldl (fun (t : State) n => t.set (TILE_NET_CONFIG.mcast_limit.tile n) i.mcastLimit) s2
  i.windows.foldl (fun (t : State) (w : Nat × Nat × Word) => t.setReg (bayBase w.1 0x22 + CPL_WINDOW_w.addr + 8 * w.2.1) w.2.2.toNat) s3

/-- Serving state that a load clears: every prefix node goes, and the reservations of no sequence are left (R234, R374). -/
def State.loadServing (s : State) : State :=
  ((s.setServ fun v => { v with
    nodes := [], freed := [], spills := [], tails := [], staged := [], samples := [], sampled := [], pressed := [], drained := [],
    flipsDue := [], cars := [], round := none, dropRound := false, allowance := 0, poolNext := [], towNext := [], carView := [], kvView := [] }).set HEAD_PREFILL_ENERGY.allowance 0).syncNodes

/-! ### Installing an image -/

/-- The relocation takes effect and memory is made ready; the list of coaches whose weights stay. -/
def State.beginInstall (s : State) (i : Image) (pl : Sparse Nat) : List Nat × State :=
  let keep := (List.range 64).filter fun c => s.retains i pl c
  let s1 := (List.range 64).foldl (fun (t : State) c => if keep.contains c then t else t.setMark c false) (s.wipeFor keep)
  (keep, { s1 with img := { s1.img with place := sortPlace pl, homes := homesOf pl } })

/-- The sections of the draft models: the tower shadows of both, and the other sections of the one that is placed, in coaches whose
weights were not kept (R236). -/
def State.loadDrafts (s : State) (i : Image) (draft : Nat) : State :=
  let keep := (List.range 64).filter s.mark
  (List.zip (List.range i.drafts.length) i.drafts).foldl (fun (t : State) (d : Nat × Draft) =>
    (d.2.weights.filter fun w => w.kind == 1 || d.1 + 1 == draft).foldl (fun (u : State) w => u.loadSection keep false i w) t) s

/-- The load completes: draft model, marks, registers, and the member number on every coupling that is up (R133, R236, R323, R356,
R526). -/
def State.finishInstall (s : State) (i : Image) (draft : Nat) : State :=
  let held := coachesOf s.img.place
  let s := s.loadDrafts i draft
  let i := withDraft i draft
  let s1 := held.foldl (fun (t : State) c => t.setMark c true) s
  let s2 := { s1 with
    img := { s1.img with image := some i, load := none, measure := i.sig.digest }
    cpl := { s1.cpl with colls := [], arrived := [], ownDone := [] }
    tile := { s1.tile with arrays := [], late := [], circ := [], trapsDue := [], waits := [], fills := [], issued := [], sums := [], missed := [], arrived := [], snap := [], snapTags := [] } }
  let s3 := ((s2.setFlag HEAD_FMT_SET.in_effect false).loadTiles i).loadFormats i
  let s4 := ((s3.loadAdapters i).syncConfig.loadServing.set HEAD_IMAGE_GEN.generation i.header.generation).set HEAD_SPEC_STATUS.draft draft
  let moved := (s4.img.place.filter fun p => (s4.relocEntry p.1).testBit 62).length
  let s5 := ((s4.set HEAD_IMAGE_STATUS.moved moved).set PWR_GOV.gov_step 95).syncReserves.setImageState 2
  (List.range 24).foldl (fun (t : State) k => if t.up k then t.updLink k fun c => { c with control := c.control ++ [(4, t.member)] } else t) s5

/-- Section writes of one weight section, of 240 roof words each (R342). -/
def sectionTxs (w : WDesc) : List (Nat × List Nat) :=
  match sectionWords w with
  | none => []
  | some (ws, _) => (List.range (ceilDiv ws.length 240)).map fun k => (240 * k, (ws.drop (240 * k)).take 240)

/-- Send the weights to the devices below this one in its device tree (R342). -/
def State.broadcast (s : State) (i : Image) : State :=
  match i.group with
  | none => s
  | some g => i.weights.foldl (fun (t : State) w => (sectionTxs w).foldl (fun (u : State) (x : Nat × List Nat) =>
      let data := x.2.flatMap fun v => leBytes 68 v
      let off := w.dest + (if w.kind = 1 then 68 else 64) * x.1
      let tx : Tx := ⟨11, 0, 0, u.member, 0xFF, if w.kind = 0 then w.tile else 0, headEp, w.kind + (if w.kind = 0 then 1 else if w.kind = 1 then 2 else 0), 0, 0, 0, 0, data.length, off, 0, w.place, 0, true, data⟩
      g.down.foldl (fun (v : State) k => v.sendTx k tx) u) t) s

/-- Install an image whose checks have passed. -/
def State.install (s : State) (i : Image) (send : Bool) : State :=
  match s.relocate i with
  | none => s
  | some (draft, pl) =>
    let r := s.beginInstall i pl
    let same := i.header.generation != 0 && i.header.generation == s.get HEAD_IMAGE_GEN.generation
    let s1 := i.weights.foldl (fun (t : State) w => t.loadSection r.1 same i w) r.2
    let s2 := s1.finishInstall i draft
    if send then s2.broadcast i else s2

/-! ### Refusals (R160, R370) -/

/-- Physical coaches whose weight sections had begun to load when `got` bytes had arrived. -/
def State.begun (s : State) (i : Image) (got : Nat) : List Nat :=
  match s.relocate i with
  | none => []
  | some (_, pl) =>
    ((i.weights.filter fun w => w.kind != 1 && (sections i 0xF).any fun e => e.inst == w.payload && decide (e.offset < got)).flatMap fun w =>
      (pl.filter fun p => decide (p.2 < 9216 ∧ p.1 / 256 = w.place)).map fun p => p.2 / 144).eraseDups.filter fun c => !s.retains i pl c

/-- Sections whose payload had been converted before the check at a file byte failed count as imported (R160). -/
def State.countBefore (s : State) (i : Image) (pos : Nat) : State :=
  (i.weights.filter fun w => decide (sectEnd i 0xF w.payload < pos)).foldl (fun (t : State) w => t.countImport w) s

/-- A refused load: no image is loaded, and the marks of the coaches begun are cleared. -/
def State.loseLoad (s : State) (i : Image) (got code : Nat) : State :=
  let s1 := (s.begun i got).foldl (fun (t : State) c => t.loseRoof c) s
  let s2 := { s1 with serv := { s1.serv with drain := none, reloading := false } }.unloadImage
  { s2 with img := { s2.img with load := none } }.set HEAD_IMAGE_STATUS.load_error code

/-- End a load command with the status of a load error. -/
def State.endRefused (s : State) (code : Nat) : State := s.endLong (if code = 9 then 4 else stImage) code []

/-! ### IMAGE_LOAD (R400, R401) -/

/-- IMAGE_LOAD takes the device out of a shutdown stage; coaches that went off wait to start (R485). -/
def State.leaveShutdown (s : State) : State :=
  if s.get THM_STATUS.state < 5 then s
  else
    let s1 := s.leaveHold.set THM_STATUS.state 0
    let off := (List.range 64).filter fun c => (s1.get PWR_COACH_ACTIVE.on).testBit c && !s1.coachOn c && !s1.rep.isolated.contains c && !s1.pwr.waiting.contains c
    { s1 with pwr := { s1.pwr with waiting := s1.pwr.waiting ++ off } }

/-- The whole file is there: the image is installed or refused. -/
def State.loadWhole (s : State) (i : Image) (send : Bool) : State :=
  match firstFailure (s.failing i) i.header.imageBytes with
  | some c => ((s.loseLoad i i.header.imageBytes c.code).countBefore i c.pos).endRefused c.code
  | none => (s.install i send).endLong stOk 0 []

/-- Section writes that a peer sends for an image. -/
def peerWrites (i : Image) : Nat := (i.weights.map fun w => (sectionTxs w).length).sum

/-- Weights come from a peer: the rest of the image is checked and placed now, with the format tables (R161). -/
def State.loadFromPeer (s : State) (i : Image) : State :=
  match firstFailure (s.failing i) i.header.imageBytes, s.relocate i with
  | none, some (_, pl) =>
    let r := s.beginInstall i pl
    i.weights.foldl (fun (t : State) w => match w.kind, t.sectionCoach w with
      | 0, some c => if r.1.contains c then t else t.putFormat i w.layer c
      | _, _ => t) r.2
  | some c, _ => (s.loseLoad i 0 c.code).endRefused c.code
  | _, _ => s

/-- R370, R399 to R401: sources 0 channel 5, 1 the staged image, 2 a peer device; `i` is the image of sources 0 and 2. -/
def execImageLoad (dt cmd source : Nat) (bcast : Bool) (i : Image) (s : State) : Res :=
  .next <| (s.pass dt).command 0x100 cmd [1] fun t =>
    let st := t.get HEAD_IMAGE_STATUS.state
    let image := if source = 1 then t.img.staged else some i
    if 2 < source then t.respond 0x100 cmd stMalformed 0 true []
    else if st = 1 ∨ st = 3 then t.respond 0x100 cmd stNotReady 0 true []
    else
      match image with
      | none => t.respond 0x100 cmd stImage 0 true []
      | some j =>
        let want := if source = 0 then j.header.imageBytes else if source = 2 then peerWrites j else 0
        let t1 := (((t.startLong 0x100 cmd want (source == 0) [source] bcast).leaveShutdown.unloadImage.set HEAD_IMAGE_STATUS.load_error 0).setReg HEAD_IMPORT_STATUS.addr 0).setImageState 1
        let t2 := { t1 with img := { t1.img with load := some j } }
        if source = 1 then t2.loadWhole j bcast else if source = 2 then t2.loadFromPeer j else t2

/-- R342: a section write is relocated, written and counted, and goes on along the device tree; the last one of a load from a peer
completes it. -/
def execSectionWrite (dt k : Nat) (x : Tx) (s : State) : Res :=
  .next <| (s.pass dt).txIn k 11 { x with dstMember := s.member } fun t =>
    let t1 := { t.putSection x with cpl := { (t.putSection x).cpl with sections := t.cpl.sections + 1 } }
    let down := match t.group, t.img.load with
      | some g, _ => g.down
      | none, some i => (match i.group with | some g => g.down | none => [])
      | none, none => []
    let far := match t.img.load with | some i => i.sched.diameter | none => t.get HEAD_TURN_CONFIG.diameter
    let t2 := if far ≤ x.hops then t1
      else (down.filter (· != k)).foldl (fun (u : State) j => u.sendTx j { x with hops := x.hops + 1 }) t1
    match t2.port.long, t2.img.load with
    | some c, some i =>
      if c.opcode = 0x100 ∧ c.args = [2] then
        let t3 := { t2 with port := { t2.port with long := some { c with got := c.got + 1 } } }
        if c.want ≤ c.got + 1 then
          match t3.relocate i with
          | none => t3
          | some (d, _) => (t3.finishInstall i d).endLong stOk 0 []
        else t3
      else t2
    | _, _ => t2

/-! ### MODEL_STAGE (R277) -/

/-- The half that is not current. -/
def State.otherHalf (s : State) : Nat := 1 - s.currentHalf

/-- R277, R399. -/
def execModelStage (dt cmd : Nat) (i : Image) (s : State) : Res :=
  .next <| (s.pass dt).command 0x101 cmd [1] fun t =>
    if t.img.image.isNone ∨ !t.flag HEAD_SERVE_CONFIG.halves then t.respond 0x101 cmd stNotReady 0 true []
    else if t.get (halfState t.otherHalf) = 3 then t.respond 0x101 cmd stBusy 0 true []
    else
      let t1 := ((t.startLong 0x101 cmd i.header.imageBytes true [t.otherHalf] false).set (halfState t.otherHalf) 0).setReg HEAD_IMPORT_STATUS.addr 0
      { t1 with img := { t1.img with load := some i } }

/-- Checks of staged weight sections. -/
def stageChecks (i : Image) : List Check :=
  (match i.parseErr with | none => [] | some p => check true p 0 1)
    ++ (i.sects.flatMap fun e => check (e.crc != e.dataCrc) (e.offset + e.length - 1) 4 2) ++ weightChecks i

/-- The staged sections of half h: written, counted in HEAD_FMT_SAT (R140), and taken into the image in effect. -/
def State.stageHalf (s : State) (j : Image) (h : Nat) : State :=
  match s.img.image with
  | none => s
  | some i =>
    let mine (w : WDesc) : Bool := (w.flags.testBit 0) == (h == 1)
    let s1 := (j.weights.filter mine).foldl (fun (t : State) w => t.loadSection [] false j w) s
    let old := i.weights.map fun w => if mine w then { w with kind := 3 } else w
    let new := j.weights.map fun w => if mine w then { w with shadow := w.shadow + i.weights.length } else { w with kind := 3 }
    let k : Image := { i with weights := old ++ new }
    let s2 := (List.zip (List.range i.formats.length) i.formats).foldl (fun (t : State) (x : Nat × Fmt) =>
      t.set (HEAD_FMT_SAT.sat_blocks.ix x.1) (min (2 ^ 32 - 1) (satOf k x.1 x.2))) s1
    { s2 with img := { s2.img with image := some k, load := none } }.set (halfState h) 1

/-- A staged section is refused: the marks of the coaches that it reaches are cleared (R133, R160). -/
def State.refuseStage (s : State) (j : Image) (f : Check) : State :=
  let s1 := { s with img := { s.img with load := none } }
  let bad := if f.code = 9 then (j.weights.filter fun w => (sectionWords w).isNone).filterMap s.sectionCoach else []
  (bad.foldl (fun (t : State) c => t.setMark c false) s1).countBefore j f.pos

/-- The data of MODEL_STAGE is complete. -/
def State.stageDone (s : State) (j : Image) (h : Nat) : State :=
  match s.img.image with
  | none => s
  | some i =>
    if i.formats ≠ j.formats then { s with img := { s.img with load := none } }.endLong stImage 0 []
    else (s.stageHalf j h).endLong stOk 0 []

/-! ### ADAPTER_LOAD (R272) -/

/-- The copy that a load of slot a writes: 1 is A. -/
def State.targetCopy (s : State) (a : Nat) : Nat :=
  match s.currentCopy a with
  | 1 => 2
  | 2 => 1
  | _ => if s.get (copyState a 1) = 3 then 2 else 1

/-- R272, R399: `ws` holds the roof words of each logical coach's footprint, coach after coach. -/
def execAdapterLoad (dt cmd a : Nat) (ws : List Nat) (s : State) : Res :=
  .next <| (s.pass dt).command 0x103 cmd [1] fun t =>
    let c := t.targetCopy a
    if t.img.image.isNone then t.respond 0x103 cmd stNotReady 0 true []
    else if t.get HEAD_SERVE_CONFIG.adapter_slots ≤ a then t.respond 0x103 cmd stMalformed 0 true []
    else if t.get (copyState a c) = 3 then t.respond 0x103 cmd stBusy 0 true []
    else (t.startLong 0x103 cmd (68 * ws.length) true (a :: c :: ws) false).set (copyState a c) 0 |>.set (copyGen a c) 0 |>.setReg HEAD_IMPORT_STATUS.addr 0

/-- The data of ADAPTER_LOAD is complete: the copy becomes staged under the slot's next generation number. -/
def State.adapterDone (s : State) (a c : Nat) (ws : List Nat) : State :=
  match s.img.image with
  | none => s
  | some i =>
    let per := i.footprint / 64
    let off := 0x2000000 + (2 * a + (c - 1)) * i.footprint
    let s1 := (List.range i.header.logicalCoaches).foldl (fun (t : State) L =>
      match t.img.place.find? fun p => decide (p.1 / 256 = L ∧ p.2 < 9216) with
      | none => t
      | some p => t.putTable (p.2 / 144) off ((ws.drop (per * L)).take per)) s
    let g := (Sparse.find s.serv.adapterLast a).getD 0 % 0xFFFF + 1
    (((s1.setServ fun v => { v with adapterLast := Sparse.put v.adapterLast a g }).set (copyGen a c) g).set (copyState a c) 1).endLong stOk 0 []

/-! ### TOWER_STAGE and DRAIN_RELOAD (R279, R399) -/

/-- R399. -/
def execTowerStage (dt cmd : Nat) (i : Image) (s : State) : Res :=
  .next <| (s.pass dt).command 0x104 cmd [1] fun t =>
    let t1 := (t.startLong 0x104 cmd i.header.imageBytes true [] false).setReg HEAD_IMPORT_STATUS.addr 0
    { t1 with img := { t1.img with load := some i } }

/-- R279: `limit` is the drain limit in turns. -/
def execDrainReload (dt cmd limit : Nat) (s : State) : Res :=
  .next <| (s.pass dt).command 0x102 cmd [1] fun t =>
    if !t.running then t.respond 0x102 cmd stNotReady 0 true []
    else if t.img.staged.isNone then t.respond 0x102 cmd stImage 0 true []
    else (t.startLong 0x102 cmd 0 false [limit * (t.lenK * 8)] false).setServ fun v => { v with drain := some (cmd, t.turnNo + limit) }

/-- The drain has ended at a boundary: the image stops and the reload runs (R279 step 3). -/
def State.startReload (s : State) : State :=
  let s1 := ((s.stopImage.setServ fun v => { v with drain := none, reloading := true }).set HEAD_IMAGE_STATUS.load_error 0).setReg HEAD_IMPORT_STATUS.addr 0
  s1.setImageState 1

/-- R279: the reload from the towers completes; admission resumes at turn 0 of the new image. -/
def execReloadComplete (dt : Nat) (s : State) : Res :=
  let s := s.pass dt
  .next <|
    match s.img.staged with
    | none => s
    | some i =>
      if s.serv.reloading ∧ s.serv.drain.isNone ∧ s.longIs 0x102 then (s.unloadImage.setImageState 1).loadWhole i false
      else s

/-! ### Bulk data (R400) -/

/-- A file byte count has been reached: the running load command checks what has come, and completes with the last byte. -/
def State.bulkArrived (s : State) : State :=
  match s.port.long with
  | none => s
  | some c =>
    let all := decide (c.want ≤ c.got)
    let t := if all then { s with port := { s.port with long := some { c with bulk := false } } } else s
    match c.opcode, t.img.load with
    | 0x100, some i =>
      match firstFailure (t.failing i) c.got with
      | some f => ((t.loseLoad i c.got f.code).countBefore i f.pos).endRefused f.code
      | none => if all then (t.install i c.broadcast).endLong stOk 0 [] else t
    | 0x101, some i =>
      match firstFailure (stageChecks i) c.got with
      | some f => (t.refuseStage i f).endRefused f.code
      | none => if all then t.stageDone i (c.args.getD 0 0) else t
    | 0x103, _ => if all then t.adapterDone (c.args.getD 0 0) (c.args.getD 1 1) (c.args.drop 2) else t
    | 0x104, some i => if all then ({ t with img := { t.img with staged := some i, load := none } }).endLong stOk 0 [] else t
    | _, _ => t

/-- R400: the first channel 5 frame in the buffer is processed. -/
def execBulkFrame (dt : Nat) (s : State) : Res :=
  let s := s.pass dt
  .next <|
    match (s.chan 5).rx with
    | [] => s
    | p :: _ =>
      let t := s.consume 5 p.length
      match t.port.long with
      | none => t.badRecord.transmit
      | some c =>
        if !c.bulk ∨ p.length < 16 ∨ leNat (p.take 4) ≠ c.cmdId ∨ leNat ((p.drop 8).take 8) ≠ c.got then t.badRecord.transmit
        else
          let u := { t with port := { t.port with long := some { c with got := c.got + (p.length - 16), lastBulk := t.ticks } } }
          u.bulkArrived.transmit

/-! ### Time limits (R348, R399) -/

/-- Time limit of a running long command, in ticks. -/
def longLimit (c : LongCmd) : Nat :=
  match c.opcode with
  | 0x100 => usTicks 600000000
  | 0x101 => usTicks 600000000
  | 0x104 => usTicks 600000000
  | 0x102 => c.args.getD 0 0 + usTicks 10000000
  | 0x103 => usTicks 10000000
  | 0x111 => usTicks 10000000
  | _ => usTicks 1000000

/-- What a TIMEOUT leaves. -/
def State.timeoutEffect (s : State) (c : LongCmd) : State :=
  match c.opcode with
  | 0x100 => match s.img.load with | none => s | some i => s.loseLoad i c.got 0
  | 0x101 => { s with img := { s.img with load := none } }.set (halfState (c.args.getD 0 0)) 0
  | 0x102 =>
    let s1 := s.setServ fun v => { v with drain := none, reloading := false }
    if s.serv.reloading ∧ s.serv.drain.isNone then
      match s.img.staged with
      | none => s1.setImageState 2
      | some i => if (s.begun i i.header.imageBytes).isEmpty then s1.setImageState 2 else s.loseLoad i i.header.imageBytes 0
    else s1
  | 0x103 => (s.set (copyState (c.args.getD 0 0) (c.args.getD 1 1)) 0).set (copyGen (c.args.getD 0 0) (c.args.getD 1 1)) 0
  | 0x104 => { s with img := { s.img with load := none, staged := none } }
  | 0x111 => { s with port := { s.port with zeroiseFailed := true } }
  | 0x120 =>
    let l := c.args.getD 0 0
    { s with rep := { s.rep with rebuilds := s.rep.rebuilds.filter fun (b : Rebuild) => b.lost != l } }.repairFail (defectWord 2 l 0 0) [l]
  | 0x121 => (trainMask c).foldl (fun (t : State) k => if t.get (CPL_STATUS.state.cpl k) = 1 then t.set (CPL_STATUS.state.cpl k) 4 else t) s
  | _ => s

/-- A raw request of the RAW command that got no response within 1 ms (R398). -/
def State.rawTimeout (s : State) : State :=
  match s.port.raw with
  | none => s
  | some (cmd, _, t) =>
    if t + usTicks 1000 ≤ s.ticks then ({ s with port := { s.port with raw := none } }.respond 0x40 cmd stTimeout 0 true []).transmit else s

/-- R399: the running long command reaches its time limit. -/
def execLongCommandTimeout (dt : Nat) (s : State) : Res :=
  let s := (s.pass dt).rawTimeout
  .next <|
    match s.port.long with
    | none => s
    | some c => if c.start + longLimit c ≤ s.ticks then (s.timeoutEffect c).endLong stTimeout 0 [] else s

/-- R399: no channel 5 frame for 2 s while the command still expects data. -/
def execBulkDataTimeout (dt : Nat) (s : State) : Res :=
  let s := s.pass dt
  .next <|
    match s.port.long with
    | none => s
    | some c => if c.bulk ∧ c.lastBulk + usTicks 2000000 ≤ s.ticks then (s.timeoutEffect c).endLong stTimeout 0 [] else s

end Sys2Proof.Machine
end

