-- ==== Sys2Proof/Machine/Program.lean ====
section
/-! DEFINITION. The operations of a tile program: KV entries, the attention walker, panels, and the program step (R142, R143, R149,
R152, R191, R199, R206 to R211, R220, R239 to R242, R365). -/

namespace Sys2Proof.Machine

/-! ### KV entries (R211, R220, R240) -/

/-- Page x of a group, when tile n is its KV tile. -/
def State.kvPage (s : State) (n g x : Nat) : Option (KvGroup × KvPage) :=
  match s.kvGroups[g]? with
  | none => none
  | some k => match k.pages[x]? with
    | none => none
    | some p => if s.tileOf p.tile = some n then some (k, p) else none

/-- Read a span in units of 8 B through the vector port of a tile, whose accesses are of 128 B (R106): the 128 B cells that hold
it. -/
def State.readSpan (s : State) (n off len : Nat) : List Byte × State :=
  let k := s.spanTrap n .vector 8 off len localRead
  if k = 0 then
    let lo := off / 128 * 128
    let r := s.readSpad n .vector lo (ceilDiv (off + len - lo) 128 * 128)
    ((r.1.drop (off - lo)).take len, r.2)
  else (List.replicate len 0, s.trap n (portCode .vector) k 0 0 off)

/-- Write a span through the vector port. -/
def State.writeSpan (s : State) (n off : Nat) (bs : List Byte) : State :=
  let k := s.spanTrap n .vector 8 off bs.length localWrite
  if k = 0 then s.queueWrite n .vector off bs else s.trap n (portCode .vector) k 0 0 off

/-- Base of the page of set p of lane slot j as the selected tables give it: in the pool while it is resident or spilling, in the
staging bank of the turn when it is streamed (R215, R216, R224, R225). `before` counts the streamed sets below p. -/
def State.setBase (s : State) (k : KvGroup) (x : KvPage) (g c j p before : Nat) : Option Nat :=
  let w := s.tblWord g c j p
  let page := 128 * s.headDim
  match w / 2 ^ 62 with
  | 1 => some (x.pool + bits w 0 16 * page)
  | 3 => some (x.pool + bits w 0 16 * page)
  | 2 => some (x.staging + (s.turnNo % 3 * (16 * k.staging) + j * k.staging + before) * page)
  | _ => none

/-- Streamed sets of lane slot j below set p. -/
def State.streamedBelow (s : State) (g c j p : Nat) : Nat :=
  ((List.range p).filter fun q => s.tblWord g c j q / 2 ^ 62 == 2).length

/-- The base of set p of lane slot j. -/
def State.pageBase (s : State) (k : KvGroup) (x : KvPage) (g c j p : Nat) : Option Nat :=
  s.setBase k x g c j p (s.streamedBelow g c j p)

/-- The base of set p when it is resident: only a resident set takes new entries (R220, R242). -/
def State.residentBase (s : State) (k : KvGroup) (x : KvPage) (g c j p : Nat) : Option Nat :=
  if s.tblWord g c j p / 2 ^ 62 = 2 then none else s.setBase k x g c j p 0

/-- Round FP32 values to A8 in one vector operation on stream 0 (R152, R154, R155). -/
def State.roundRow (s : State) (n : Nat) (l : List Nat) : List Byte × State :=
  (List.zipWith (fun k x => BitVec.ofNat 8 (roundA8 (dec32 x) (s.srMode n 0 k))) (List.range l.length) l, s.srNext n 0)

/-- Read and round the K row and the V row of an entry, one vector operation each (DEDUCED, log entry 30). -/
def State.newEntry (s : State) (n src : Nat) : (List Byte × List Byte) × State :=
  let dh := s.headDim
  let r := s.readPort n .engine src (8 * dh)
  let l := cells 4 (2 * dh) r.1
  let k := r.2.roundRow n (l.take dh)
  let v := k.2.roundRow n (l.drop dh)
  ((k.1, v.1), v.2)

/-- R220: the entry of a node of lane slot j of the carriage in layer group g: an interleaved slot's at position n of its resident
set, a tree slot's in the provisional area of the pass, with its epoch as the tag (R240). -/
def State.kvWrite (s : State) (n g x j node src : Nat) : State :=
  match s.kvPage n g x with
  | none => s
  | some (k, p) =>
    let c := carAt s.depth s.turnNo g
    let l := s.laneRec g c j
    let dh := s.headDim
    if l.nodes ≤ node then s
    else
      let e := s.newEntry n src
      if c < s.treeCars then
        let r := provRows (provArea p c l.epoch) dh node
        ((e.2.writeSpan n r.1 e.1.1).writeSpan n r.2.1 e.1.2).queueWrite n .vector r.2.2 (leBytes 1 l.epoch)
      else
        match s.residentBase k p g c j (l.length / 64) with
        | none => e.2
        | some b =>
          let r := pageRows b dh (l.length % 64)
          (e.2.writeSpan n r.1 e.1.1).writeSpan n r.2 e.1.2

/-- Node of the carried entry k of a lane record (R217). -/
def LaneRec.carried (l : LaneRec) (k : Nat) : Nat := l.carryNodes / 16 ^ k % 16

/-- R242: the carried entries of lane slot j, in the area of the pass before, go to their positions in the resident set. -/
def State.copyIn (s : State) (n g x j : Nat) : State :=
  match s.kvPage n g x with
  | none => s
  | some (k, p) =>
    let c := carAt s.depth s.turnNo g
    let l := s.laneRec g c j
    let dh := s.headDim
    (List.range l.carries).foldl (fun t i =>
      let pos := l.length - l.carries + i
      match s.residentBase k p g c j (pos / 64) with
      | none => t
      | some b =>
        let a := provRows (provArea p c (l.epoch + 1)) dh (l.carried i)
        let r := pageRows b dh (pos % 64)
        let x := t.readSpan n a.1 dh
        let y := x.2.readSpan n a.2.1 dh
        (y.2.writeSpan n r.1 x.1).writeSpan n r.2 y.1) s

/-! ### The attention walker (R208 to R210, R239) -/

/-- Where the entries that a node of lane slot j sees lie, in ascending position: position, K row, V row (R208): the committed ones
below n, those still carried in the area of the pass before, and of the pass's own those in the node's mask row whose tag is the
pass's epoch, or an interleaved slot's own at position n. -/
def State.visible (s : State) (k : KvGroup) (p : KvPage) (n g c j node : Nat) : List (Nat × Nat × Nat) :=
  let l := s.laneRec g c j
  let dh := s.headDim
  let inPage (pos : Nat) : Option (Nat × Nat × Nat) :=
    (s.pageBase k p g c j (pos / 64)).map fun b => (pos, pageRows b dh (pos % 64))
  if l.nodes ≤ node then []
  else if c < s.treeCars then
    let paged := (List.range (l.length - l.carries)).filterMap inPage
    let carried := (List.range l.carries).map fun i =>
      let r := provRows (provArea p c (l.epoch + 1)) dh (l.carried i)
      (l.length - l.carries + i, r.1, r.2.1)
    let row := maskRow l.parent 16 node
    let nodes := ((List.range l.nodes).filter fun m => row.testBit m).filterMap fun m =>
      let r := provRows (provArea p c l.epoch) dh m
      if s.num (spadKey n r.2.2) 1 = l.epoch then some (l.length + nodeDepth l.parent 16 m, r.1, r.2.1) else none
    paged ++ carried ++ nodes
  else (List.range (l.length + 1)).filterMap inPage

/-- Group entries, in ascending position, by their set (R209). -/
def bySet (l : List (Nat × List Nat × List Nat)) : List (List (List Nat × List Nat)) :=
  ((l.map fun x => x.1 / 64).eraseDups).map fun p => (l.filter fun x => x.1 / 64 == p).map (·.2)

/-- Score scale of the layer of a page. -/
def State.sigma (s : State) (p : KvPage) : Nat :=
  match s.img.image with | none => 0 | some i => ((i.heads[p.layer]?).map (·.sigma)).getD 0

/-- The output of one query head over entries, written as FP32 (R209). -/
def State.attend (s : State) (n : Nat) (p : KvPage) (q out : Nat) (l : List (Nat × List Nat × List Nat)) : State :=
  let dh := s.headDim
  let a := s.readSpan n q (2 * dh)
  a.2.writePort n .vector out ((walkAll (cells 2 dh a.1) (s.sigma p) dh (bySet l)).flatMap fun y => leBytes 4 y)

/-- Read the rows of entries. -/
def State.readEntries (s : State) (n : Nat) (l : List (Nat × Nat × Nat)) : List (Nat × List Nat × List Nat) × State :=
  let dh := s.headDim
  l.foldl (fun (x : List (Nat × List Nat × List Nat) × State) v =>
    let k := x.2.readSpan n v.2.1 dh
    let w := k.2.readSpan n v.2.2 dh
    (x.1 ++ [(v.1, cells 1 dh k.1, cells 1 dh w.1)], w.2)) ([], s)

/-- R209: one query head of a node of lane slot j in layer group g. -/
def State.walk (s : State) (n g x j node q out : Nat) : State :=
  match s.kvPage n g x with
  | none => s
  | some (k, p) =>
    let r := s.readEntries n (s.visible k p n g (carAt s.depth s.turnNo g) j node)
    r.2.attend n p q out r.1

/-! ### The prefill engine's entries and attention (R199, R210) -/

/-- The chunk of the running round whose prompt belongs to a ring. -/
def State.chunkOf (s : State) (ring : Nat) : Option (Chunk × Req) :=
  match s.serv.round with
  | none => none
  | some rd => rd.batch.findSome? fun ch => match s.req? ch.req with
    | some r => if r.ring = ring then some (ch, r) else none
    | none => none

/-- R199: the entry of a chunk's token at `pos` goes to its page, whose set is allocated as the round runs. -/
def State.kvPrefill (s : State) (n g x ring pos src : Nat) : State :=
  match s.kvPage n g x, s.chunkOf ring with
  | some (_, p), some (ch, r) =>
    if pos < ch.start ∨ ch.start + ch.take ≤ pos then s
    else
      let t := s.prefillSet r.id g (pos + 1)
      let e := t.newEntry n src
      match (match t.req? r.id with | none => none | some q => (q.sets.getD g []).find? fun (k : KvSet) => k.p == pos / 64 && k.state != 2) with
      | none => e.2
      | some k =>
        let rows := pageRows (p.pool + k.res * 128 * s.headDim) s.headDim (pos % 64)
        (e.2.writeSpan n rows.1 e.1.1).writeSpan n rows.2 e.1.2
  | _, _ => s

/-- R210: the attention of a chunk's token at `pos` sees the prompt's entries up to its own: in the pool, or restored from the
tower pages of its streamed sets (R153; DEDUCED, log entry 61). -/
def State.walkPrefill (s : State) (n g x ring pos q out : Nat) : State :=
  match s.kvPage n g x, s.chunkOf ring with
  | some (k, p), some (ch, r) =>
    if pos < ch.start ∨ ch.start + ch.take ≤ pos then s
    else
      let dh := s.headDim
      let a := (r.sets.getD g []).foldl (fun (a : List (Nat × List Nat × List Nat) × State) (ks : KvSet) =>
        let here := (List.range (min 64 (pos + 1 - 64 * ks.p))).map fun t => 64 * ks.p + t
        if ks.state = 2 then
          let page := a.2.restored (towerPage k dh ks.tow x) dh
          (a.1 ++ here.map fun i =>
            let rows := pageRows 0 dh (i % 64)
            (i, cells 1 dh ((page.drop rows.1).take dh), cells 1 dh ((page.drop rows.2).take dh)), a.2)
        else
          let e := a.2.readEntries n (here.map fun i => (i, pageRows (p.pool + ks.res * 128 * dh) dh (i % 64)))
          (a.1 ++ e.1, e.2)) ([], s)
      a.2.attend n p q out a.1
  | _, _ => s

/-! ### The tile program's operations -/

/-- One prompt token through a panel (R142, R191): block by block into the token's accumulators, which are read and written as
coded words. -/
def State.panelMul (s : State) (n store layer src token : Nat) : State :=
  let f := s.fmt layer
  let a16 := s.a16 layer
  let r := s.readPort n .engine src (if a16 then 1024 else 512)
  let xs := cells (if a16 then 2 else 1) 512 r.1
  let bs := blockSize f.wfmt
  let bpb := blocksPerBurst f.wfmt
  let k := accKey n (2048 * token)
  let old := r.2.readCoded n k (2048 * token) 2048
  let new := (List.range 512).flatMap fun row =>
    leBytes 4 ((List.range (512 / bs)).foldl (fun a j =>
      let b := row * (512 / bs) + j
      let w := s.num (panelKey n store (68 * (b / bpb))) 68
      blockStep a f.wfmt w (b % bpb) f.satScale (s.flag (HEAD_FMT_ACTIVE.sub.ix layer)) a16 (s.actShift layer)
        ((xs.drop (bs * j)).take bs)) (leNat ((old.1.drop (4 * row)).take 4)))
  old.2.writeCoded k new

/-- A row group or a drain begins in the open CORE cycle. -/
def State.startArray (s : State) (o : ArrayOp) : State :=
  if o.left = 0 then s else { s with tile := { s.tile with arrays := s.tile.arrays ++ [o] } }

/-- Fill input-store entries from `entry` on, past the last from the first again, 32 a CORE cycle (R180). -/
def State.queueInput (s : State) (n entry : Nat) (bs : List Byte) : State :=
  let put (l : List Late) (j : Nat) : List Late :=
    insertLate ⟨n, 66, inputKey n (16 * ((entry + j) % 16384)), 6, 0, none, none, (bs.drop (16 * j)).take 16⟩ l
  { s with tile := { s.tile with late := (List.range (bs.length / 16)).foldl put s.tile.late } }

/-- One operation of a program step at tile n. -/
def State.progOp (s : State) (n off : Nat) (op : ProgOp) : State :=
  match op with
  | .read p a len => (s.readPort n p a len).2
  | .write p a d => s.writePort n p a d
  | .ringRead p c tail i b len => (s.ringRead n p c tail i b len).2
  | .ringWrite p c tail i b d => s.ringWrite n p c tail i b d
  | .push p c k => s.portCirc n p (c % 16) k false
  | .pop p c k => s.portCirc n p (c % 16) k true
  | .fillInput a entry count =>
    let r := s.readPort n .engine a (16 * count)
    r.2.queueInput n entry r.1
  | .rowGroup set line lines layer entry => s.startArray (.group n set line lines layer entry 0)
  | .drain set out layer row0 carriage sweep => s.startArray (.drain n set out layer row0 carriage sweep none 0)
  | .toA8 layer src dst count =>
    let r := s.readPort n .engine src (2 * count)
    r.2.writePort n .engine dst ((cells 2 count r.1).flatMap fun x => leBytes 1 (toA8 x (s.actShift layer)))
  | .residual r x dst count =>
    let a := s.readPort n .engine r (2 * count)
    let b := a.2.readPort n .engine x (4 * count)
    let ys := List.zipWith (fun l (p : Nat × Nat) => roundBf16 (sumVal (decBf16 p.1) (dec32 p.2)) (s.srMode n 1 l))
      (List.range count) (List.zip (cells 2 count a.1) (cells 4 count b.1))
    (b.2.writePort n .engine dst (ys.flatMap fun y => leBytes 2 y)).srNext n 1
  | .kvWrite g x j node src => s.kvWrite n g x j node src
  | .walk g x j node q out => s.walk n g x j node q out
  | .copyIn g x j => s.copyIn n g x j
  | .kvPrefill g x ring pos src => s.kvPrefill n g x ring pos src
  | .walkPrefill g x ring pos q out => s.walkPrefill n g x ring pos q out
  | .panelLoad store towerOff words =>
    s.wrBytes (panelKey n store 0) (s.bytes (towerBase ((n - 9216) / 32) + towerOff) (68 * words))
  | .panelMul store layer src token => s.panelMul n store layer src token
  | .panelDrain token layer row0 out =>
    let r := s.readCoded n (accKey n (2048 * token)) (2048 * token) 2048
    let cs := r.2.channelScales (s.layerCoach layer) (s.weightHalf n) layer row0 512 (s.flag (HEAD_FMT_ACTIVE.stab.ix layer))
    let bs := (List.range 512).flatMap fun w => leBytes 4 (mul32 (leNat ((r.1.drop (4 * w)).take 4)) (cs.1.getD w 0))
    (cs.2.writePort n .vector out bs).wipe (accKey n (2048 * token)) (accKey n (2048 * (token + 1)))
  | .inject p free =>
    let s1 := if free then s else s.creditOverflow n off
    s1.inject n p

/-- R365 kind 0x01: one program step, whose operations the tile program gives; `ups` are bits that flip as it reads. -/
def execActionProgramStep (dt n i : Nat) (ops : List ProgOp) (ups : List Upset) (s : State) : Res :=
  .next <| (s.pass dt).issue n i 1 fun t a => ops.foldl (fun u o => u.progOp n a.offset o) (t.upset ups)

end Sys2Proof.Machine
end

