-- ==== Sys2Proof/Machine/Turns.lean ====
section
/-! DEFINITION. Turns: turn 0, late arrivals, the work end, the boundary with its counts, its swap set and its repairs, and
inserted spokes (R69 to R91, R163 to R167, R236, R334, R335, R398, R417, R421, R423, R449, R460, R492). -/

namespace Sys2Proof.Machine

/-! ### The swap set (R77, R82, R165, R274, R276) -/

/-- Select a copy of adapter slot a, 0 for none: what was current drains, or is staged when nothing is bound to it (R271). -/
def State.selectCopy (s : State) (a sel : Nat) : State :=
  if sel ≠ 0 ∧ s.get (copyState a sel) = 0 then s
  else
    let s1 := [1, 2].foldl (fun (t : State) c =>
      if c ≠ sel ∧ t.get (copyState a c) = 2 then t.set (copyState a c) (if t.bound a c = 0 then 1 else 3) else t) s
    if sel = 0 then s1 else s1.set (copyState a sel) 2

/-- Select a weight half (R276). -/
def State.selectHalf (s : State) (h : Nat) : State :=
  if s.get (halfState h) = 0 then s
  else
    let o := 1 - h
    let s1 := if s.get (halfState o) = 2 then s.set (halfState o) (if s.boundHalf o = 0 then 1 else 3) else s
    s1.set (halfState h) 2

/-- A recipe takes effect with turn `turn`; one equal to the active copy changes nothing (R164, R165). -/
def State.applyRecipe (s : State) (l turn v : Nat) : State :=
  let k := (HEAD_FMT_ACTIVE.act.ix l).key
  if s.reg k = v then s
  else
    let s1 := (s.setReg k v).set (HEAD_FMT_STATUS.window_exceed.ix l) 0
    (s1.setFlag (HEAD_FMT_INFO.changed.ix l) true).set (HEAD_FMT_INFO.last_change.ix l) turn

/-- One shadow takes effect with turn `turn`. Coach power-on is joined over both writers beforehand. -/
def State.applyShadow (s : State) (turn : Nat) (x : Shadow) : State :=
  match x.key with
  | .recipe l => s.applyRecipe l turn x.value
  | .wide => s.setFlag HEAD_FMT_SET.req_active (x.value != 0)
  | .profile p => s.setReg (HEAD_SAMP_ACTIVE.temperature.ix p).key x.value
  | .adapter a => s.selectCopy a x.value
  | .model => s.selectHalf x.value
  | .stepCap => s.set PWR_GOV.cap_active x.value
  | .coachOn => s

/-- The shadows accepted before tick `at_` take effect with turn `turn` (R78, R81), coach power-on among them (R80, R461). -/
def State.applyShadows (s : State) (at_ turn : Nat) (drew : List (Nat × Nat)) : State :=
  let l := s.dueShadows at_
  let s1 := { s with turn := { s.turn with shadows := s.turn.shadows.filter fun (x : Shadow) => !l.contains x } }
  let s2 := l.foldl (fun (t : State) x => t.applyShadow turn x) s1
  ((s2.applyCoachOn (s.coachOnAfter l)).startCoaches drew).syncPending

/-! ### Starting a turn (R76, R170, R174, R419) -/

/-- Turn `turn` begins at absolute spoke `from_`: its turn-start values are noted and its attempt begins. -/
def State.beginTurn (s : State) (turn from_ : Nat) : State :=
  let s1 := (s.set HEAD_TURN_START.start (8 * from_)).set HEAD_TURN_STATE.turn turn
  let t1 := { s1.turn with origin := from_, q := none, reqStep := none, insertReq := [], msgOut := [], holdLog := [] }
  let s2 : State := { s1 with turn := { t1 with faulted := false, faultedBefore := false, voidSeen := false } }
  let s3 : State := { s2 with tile := { s2.tile with missed := [], sums := [], issued := [], arrived := [], lateOff := 0 } }
  let s4 := s3.set HEAD_REPAIR_STATUS.reruns 0
  let s5 := (s4.selectSamples turn).startWindows turn
  let s6 := if s5.net.degraded.any fun (d : Nat × Nat × List Nat) => isHitch (d.1, d.2.1) then s5.requestBatch else s5
  s6.takeSnap

/-- R70, R76, R82: the count that IMAGE_START named is reached; turn 0 begins at step 48. -/
def execTurn0Start (dt : Nat) (drew : List (Nat × Nat)) (s : State) : Res :=
  let s := s.pass dt
  .next <|
    match s.turn.startAt with
    | none => s
    | some c =>
      if s.running ∧ c ≤ s.count then
        let s1 := ((s.img.place.map (·.2)).foldl (fun (t : State) n => (t.resetRegs (tileBase n + 0xF000608) (tileBase n + 0xF000620)).emptyCircs n) s).set HEAD_TURN_CONFIG.step 48
        let grouped := match s.group with | none => false | some g => decide (1 < g.size)
        let t1 : TurnB := { s1.turn with startAt := none, grouped := grouped, holds := [], waves := [], msgs := [], msgsNext := [], settled := 48, since := c / 8 }
        let t2 : TurnB := { t1 with inserts := [], newStep := none }
        let carts := s1.net.carts.map fun (p : Nat × Cart) => (p.1, { p.2 with started := 0 })
        let s2 : State := { s1 with turn := t2, net := { s1.net with carts := carts }, pwr := { s1.pwr with asked := none, answered := none } }
        let waits := s2.mapReqs (fun _ => true) fun r => { r with waitFrom := none }
        let s3 := (waits.syncSched.setServ fun v => { v with pass := [], sampledNow := false, sampled := [], reloading := false }).applyShadows (s.ticks - (s.count - c)) 0 drew
        let s4 := (s3.takeViews 0).beginTurn 0 (c / 8)
        (if s.k = 48 then s4 else s4.sendSetPoints 48).syncPhase
      else s

/-- A unit that a prefill stream feeds: a P-tile or a bay. -/
def prefillUnit (u : Nat) : Bool := decide (9216 ≤ u ∧ u < 10240)

/-- R86: a compiled arrival deadline passes without the data: `kind` and `retried` give the cause (R89, R330), `via` the coupling. A
hold for a late page counts in `late_fetch` (R244). A prefill stream that a repair copy makes late has that copy's hold alone (R194). -/
def execArrivalDeadlineMissed (dt unit kind : Nat) (retried : Bool) (via : Option Nat) (s : State) : Res :=
  let s := s.pass dt
  let c := lateCause kind retried
  .next <|
    if !s.inTurn ∨ (c = 0xB ∧ kind ≠ 1 ∧ prefillUnit unit ∧ s.holding 6) then s
    else ((if c = 3 then s.inc HEAD_KV_STATS.late_fetch else s).raiseHold c unit via).syncPhase

/-! ### The work end (R85, R86, R334, R417) -/

/-- CRC-32C register over a whole action list (R417). -/
def listSum (l : ActList) : Nat := l.acts.foldl (fun c a => crcMore c (actionBytes a)) 0xFFFFFFFF

/-- Tiles of the image whose action checksum differs from the expected value (R417). -/
def State.checksumMisses (s : State) : List Nat :=
  match s.sched with
  | none => []
  | some c => c.lists.filterMap fun l =>
      match s.tileOf (l.lc * 256 + l.lt) with
      | none => none
      | some n => if (Sparse.find s.tile.sums n).getD 0xFFFFFFFF = listSum l then none else some n

/-- A checksum miss: the first of a tile in a turn voids it, a second loses the tile (R415). -/
def State.checksumMiss (s : State) (n : Nat) : State :=
  if s.tile.missed.contains n then s.loseTile n 1
  else { s with tile := { s.tile with missed := n :: s.tile.missed } }.voidTurn

/-- The turn message of this device (R334): the leader of a split set or chain adds its decisions, and the device that samples
its results (R235, R346, R347). -/
def State.ownMessage (s : State) (step q : Nat) : TurnMsg :=
  let wide := s.flag HEAD_FMT_SET.req_active
  let change := s.flag HEAD_FMT_SET.in_effect != (s.flag HEAD_FMT_SET.available && wide)
  let b := s.spokeB q
  let set := s.together.isSome
  ⟨s.member, s.turnNo, step, wide, if set ∧ s.leads then some (s.decide_ s.turnNo (8 * b) (b - s.turnStart) change) else none,
   if set ∧ s.samples then s.serv.pass else [], 0⟩

/-- The step request of the turn is fixed at its first Q, spoke q, and sent in the turn message of a group (R334, R335); a request
for another step asks for its insert on the stall wave (R87). -/
def State.requestAtQ (s : State) (q : Nat) : State :=
  if s.turn.reqStep.isSome then s
  else
    let k := s.requestStep
    let s1 : State := { s with turn := { s.turn with reqStep := some k, msgOut := if s.turn.grouped then [s.ownMessage k q] else [] } }
    if k = s.k then s1 else s1.sendWave true 9 q

/-- Pending reloads of roof words raise a ROOF_ROW hold of their unit at Q, spoke q (R42, R86). -/
def State.raiseReloads (s : State) (q : Nat) : State :=
  let units := ((s.tile.jobs.filter fun j => !j.loaded && !j.held).map fun j => j.unit).eraseDups
  let jobs := s.tile.jobs.map fun (j : RoofJob) => { j with held := true }
  units.foldl (fun (t : State) u => t.raiseHoldAt q 7 u none) { s with tile := { s.tile with jobs := jobs } }

/-- R85: the schedule clock has reached E_k: Q is the spoke at whose start it did. -/
def execWorkEndReached (dt : Nat) (s : State) : Res :=
  let s := s.pass dt
  .next <|
    if s.inTurn ∧ s.turn.q = none ∧ s.spokeQ ≤ s.spoke then
      let q := s.spokeQ
      let s1 : State := { s with turn := { s.turn with q := some q } }
      let s2 := (s1.requestAtQ q).raiseReloads q
      (s.checksumMisses.foldl (fun (t : State) n => t.checksumMiss n) s2).syncPhase
    else s

/-! ### Counts of a turn (R91) -/

/-- Cause code of an insert. -/
def insertCause : InsertKind → Nat
  | .hitchSub => 8
  | .freqStep => 9

/-- What was held or inserted in the turn of spokes `lo` to `b`: cause, in-force spokes, and whether it counts as raised in the
turn. A hold raised in a spoke inserted before the turn counts with it (DESIGN CHOICE, log entry 66). -/
def State.turnEvents (s : State) (lo b : Nat) (ins : List InsertKind) : List (Nat × Nat × Bool) :=
  (s.turn.holds.map fun h => (h.cause, h.length s.lead lo b, decide (s.turn.since ≤ h.raise ∧ h.raise < b)))
    ++ ins.map fun i => (insertCause i, 1, true)

/-- The counts of one cause move to its registers. -/
def State.countCause (s : State) (l : List (Nat × Nat × Bool)) (c : Nat) : State :=
  let here := l.filter fun x => x.1 == c
  let n := (here.map fun x => x.2.1).sum
  ((s.set (HEAD_STALL_TURN_n.events.off (8 * c)) (min 65535 (here.filter fun x => x.2.2).length)).set
    (HEAD_STALL_TURN_n.spokes.off (8 * c)) (min 65535 n)).inc (HEAD_STALL_TOTAL_n.spokes.off (8 * c)) n

/-- The longest hold or insert of the turn; where causes tie, which one is given is a free choice (DESIGN CHOICE, log entry 4). -/
def State.countLongest (s : State) (l : List (Nat × Nat × Bool)) : State :=
  let m := (l.map fun x => x.2.1).foldl max 0
  let cs := ((l.filter fun x => x.2.1 == m && m != 0).map (·.1)).eraseDups
  let r := if cs.length ≤ 1 then (0, s) else s.takeFree
  let c := cs.getD (r.1 % cs.length) 0
  let s1 := (r.2.set HEAD_TURN_LONGEST.turn_len_event (min 65535 m)).set HEAD_TURN_LONGEST.turn_cause c
  if s.get HEAD_TURN_LONGEST.max_len < min 65535 m then
    (s1.set HEAD_TURN_LONGEST.max_len (min 65535 m)).set HEAD_TURN_LONGEST.max_cause c
  else s1

/-- A hold for a late page or arrival lasted longer than R89 gives. -/
def Hold.overLong (h : Hold) (b : Nat) : Bool :=
  let n := (match h.withdraw with | none => b | some r => r) - h.raise
  h.member.isNone && ((h.cause == 3 && decide (40 < n)) || (h.cause == 0xB && decide (24 < n)))

/-- The ending turn's counts (R89, R91), at boundary spoke b. -/
def State.countTurn (s : State) (b : Nat) (ins : List InsertKind) : State :=
  let lo := s.turnStart
  let l := s.turnEvents lo b ins
  let len := b - lo
  let holds := l.take s.turn.holds.length
  let s1 := (List.range 16).foldl (fun (t : State) c => t.countCause l c) s
  let s2 := (s1.set HEAD_TURN_LAST.length (min 65535 len)).set HEAD_TURN_LAST.overrun (min 65535 (len - s.lenK))
  let s3 := (s2.set HEAD_TURN_LAST.hold_spokes (min 65535 ((holds.map fun x => x.2.1).sum))).set HEAD_TURN_LAST.inserts (min 255 ins.length)
  let s4 := (s3.set HEAD_TURN_LAST.holds_raised (min 255 (holds.filter fun x => x.2.2).length)).countLongest l
  if s.turn.holds.any fun h => h.overLong b then s4.raiseHead 91 s.turnNo (len - s.lenK) else s4

/-! ### The turn group (R70, R90, R167, R334, R335) -/

/-- Members whose message of the ending turn is missing. -/
def State.missingMembers (s : State) : List Nat :=
  match s.group with
  | none => []
  | some g => if s.turn.grouped then (List.range g.size).filter fun m => m != s.member && !(s.turn.msgs.any fun x => x.member == m && x.turn == s.turnNo) else []

/-- A missing message fails the coupling on which it was due, and this device's requests stand alone (R335). -/
def State.failMissing (s : State) : State :=
  if s.missingMembers.isEmpty then s
  else
    let s1 := s.missingMembers.foldl (fun (t : State) m => match t.relayOf m with | none => t.leaveGroup 2 | some k => (t.failCoupling k 4).leaveGroup 2) s
    { s1 with turn := { s1.turn with msgs := [] } }

/-- The step of the next turn: the lowest requested in the group (R70). -/
def State.nextStep (s : State) : Nat := (s.turn.msgs.map (·.step)).foldl min (s.turn.reqStep.getD s.k)

/-- A wide request was active in the ending turn on any device of the group (R167). -/
def State.wideWanted (s : State) : Bool :=
  s.flag HEAD_FMT_SET.available && (s.flag HEAD_FMT_SET.req_active || s.turn.msgs.any (·.wide))

/-- The device leaves its group, with TURN_GROUP_SPLIT; forwarded holds no longer count (R90). -/
def State.splitGroup (s : State) : State :=
  match s.turn.leave with
  | none => s
  | some why =>
    let s1 := { s with turn := { s.turn with grouped := false, leave := none, msgsNext := [], holds := s.turn.holds.filter fun (h : Hold) => h.member.isNone } }
    s1.raiseHead 4 why s.turnNo

/-! ### Repairs at the boundary (R42, R236, R423, R433) -/

/-- Repairs that took effect in the turn: defect-map entry, count and REPAIR_DONE (R423 step 6, R487). -/
def State.reportRepairs (s : State) : State :=
  let s1 := s.rep.done.foldl (fun (t : State) j =>
    let gone := decide (j.lost < 9216) && t.rep.isolated.contains (j.lost / 144)
    let moved := s.rep.rotating == some j.key
    let t1 := if gone || moved then t else (t.addDefect (tileDefect j.lost)).inc HEAD_REPAIR_COUNTS.tiles
    t1.raiseHead 71 (t1.relocEntry j.key) s.turnNo) s
  { s1 with rep := { s1.rep with done := [], rotating := none } }

/-- Spare rows and columns whose words are reloaded take effect (R42). -/
def State.applySpares (s : State) : State :=
  let s1 := (s.tile.jobs.filter fun j => j.loaded).foldl (fun (t : State) j => t.takeSpare j) s
  { s1 with tile := { s1.tile with jobs := s1.tile.jobs.filter fun (j : RoofJob) => !j.loaded } }

/-- Take the draft model from its tiles; those that a repair now uses keep their logical tile. -/
def State.evictDraft (s : State) : State :=
  let old := s.img.place.filter fun (p : Nat × Nat) => decide (64 ≤ p.1 / 256 ∧ p.1 / 256 < 72)
  let pl := s.img.place.filter fun (p : Nat × Nat) => !decide (64 ≤ p.1 / 256 ∧ p.1 / 256 < 72)
  let s1 := old.foldl (fun (t : State) p =>
    if pl.any fun q => q.2 == p.2 then t else t.vacate p.2 (if t.get (TILE_STATE.state.tile p.2) = 2 then 1 else t.get (TILE_STATE.state.tile p.2))) s
  { s1 with img := { s1.img with place := pl } }

/-- A repair took a coach of the draft model: the larger draft that fits is placed again, with DRAFT_CHANGE, and a guard resets
the coaches that lose the model (R236, R548). -/
def State.redraft (s : State) : State :=
  match s.rep.draftTaken, s.img.image with
  | some c, some i =>
    let was := coachesOf (s.img.place.filter fun (p : Nat × Nat) => decide (64 ≤ p.1 / 256 ∧ p.1 / 256 < 72))
    let s1 := s.evictDraft
    let d := s1.placeDraft i s1.homeCoaches s1.img.place
    let i := withDraft i d.1
    let s2 : State := { s1 with img := { s1.img with image := some i, place := sortPlace (s1.img.place ++ d.2) }, rep := { s1.rep with draftTaken := none } }
    let s3 := d.2.foldl (fun (t : State) p => ((t.loadTileRegs i p.1 p.2).activate p.2).copySlice i p.1 p.2) s2
    let s4 := (d.2.map fun p => (p.1 / 256, p.2 / 144)).eraseDups.foldl (fun (t : State) x => (t.copyTables i x.1 x.2).setMark x.2 true) s3
    let used := coachesOf s4.img.place
    let left := was.filter fun x => !used.contains x && !s4.boot.guardResets.contains x && !s4.rep.isolated.contains x
    let s5 : State := { s4 with boot := { s4.boot with guardResets := s4.boot.guardResets ++ left } }
    ((s5.loadRoutes i s5.img.place).set HEAD_SPEC_STATUS.draft d.1).raiseHead 84 d.1 c
  | _, _ => s

/-- `state` of HEAD_REPAIR_STATUS once a turn's repairs are in effect. -/
def State.syncRepair (s : State) : State :=
  if !s.rep.jobs.isEmpty then s
  else s.set HEAD_REPAIR_STATUS.state (if s.rep.advance.isSome then 3 else if !s.rep.restoring.isEmpty then 4 else 0)

/-- Everything that repairs change at a boundary. -/
def State.repairBoundary (s : State) : State :=
  let s1 := s.failDegraded.failStopped
  let s2 := s1.rep.chanDue.foldl (fun (t : State) x => t.replaceChannel x.1 x.2) { s1 with rep := { s1.rep with chanDue := [] } }
  let s3 := s2.applyJobs (s2.rep.jobs.filter fun j => j.prefill)
  (s3.reportRepairs.applySpares.redraft).syncRepair

/-! ### Governors (R70, R449, R450, R455, R460, R467, R481) -/

/-- The governors at the boundary b that ends the turn. -/
def State.governors (s : State) (b : Nat) (env : BoundaryEnv) : State :=
  let lo := s.turnStart
  let held := min (b - lo) (((s.turn.holds.filter fun h => h.cause == 4).map fun h => h.length s.lead lo b).sum)
  (((s.govern held (b - lo)).thermGovern s.turnNo).derate.adaptTrims env.trims).askStep

/-! ### Stopping at a boundary (R279, R398) -/

/-- IMAGE_STOP takes effect: the ending turn's results stand, and the image stops. -/
def State.stopAtBoundary (s : State) (cmd : Nat) : State :=
  let s1 := (s.commitTurn (carAt s.depth s.turnNo s.depth)).stopImage.setImageState 2
  let s2 := if cmd = 2 ^ 32 then s1 else s1.respond 0x21 cmd stOk 0 true (word8 s.turnNo)
  s2.set HEAD_REPAIR_STATUS.state 0

/-! ### The boundary (R76, R85) -/

/-- The next turn, after `ins` inserted spokes, begins: the sets of its schedule, the new step when no spoke brings it, copies in
advance, and messages held for it. -/
def State.nextTurn (s : State) (b : Nat) (ins : List InsertKind) : State :=
  let lead := s.lead
  let from_ := b + ins.length
  let holds := s.turn.holds.filter fun (h : Hold) => match h.withdraw with | none => true | some r => decide (b < r + lead)
  let t1 := { s.turn with holds := holds, since := b, inserts := ins, msgs := s.turn.msgsNext, msgsNext := [] }
  let s1 := ({ s with turn := t1 } : State).beginTurn (s.turnNo + 1) from_
  (s1.finishAdvance.startAdvance).syncPhase

/-- The wide set comes into or goes out of effect (R166, R167); true when it changes. -/
def State.changeSet (s : State) (wide : Bool) : Bool × State :=
  if s.flag HEAD_FMT_SET.in_effect = wide then (false, s) else (true, (s.setFlag HEAD_FMT_SET.in_effect wide).syncSched)

/-- The boundary at spoke b, with the drain, the swap set and the next turn. -/
def State.turnOver (s : State) (b : Nat) (env : BoundaryEnv) : State :=
  let g := s.failMissing
  let step := g.nextStep
  let wide := g.wideWanted
  let ins := (g.turn.insertReq.map fun _ => InsertKind.hitchSub) ++ (if step = s.k then [] else [.freqStep])
  let s1 := (g.countTurn b ins).splitGroup
  let s2 := (s1.governors b env).repairBoundary
  match s2.turn.stopCmd with
  | some cmd => s2.stopAtBoundary cmd
  | none =>
    let d := (s2.commitTurn (carAt s2.depth s2.turnNo s2.depth)).drainStep s2.turnNo
    if d.1 then d.2.startReload
    else
      let w := s2.changeSet wide
      let s3 := w.2.serveBoundary s2.turnNo (8 * b) (b - s.turnStart + ins.length) w.1
      let s4 := s3.applyShadows (s.ticks - (s.count - 8 * b)) (s2.turnNo + 1) env.drew
      let s5 : State := { s4 with turn := { s4.turn with newStep := if step = s.k then none else some step } }
      s5.nextTurn b ins

/-- R85: the boundary spoke B has begun, at whose start the turn ends. -/
def execTurnBoundary (dt : Nat) (env : BoundaryEnv) (s : State) : Res :=
  let s := s.pass dt
  .next <| match s.boundary? with | none => s | some b => s.turnOver b env

/-! ### Inserted spokes (R29, R87, R492) -/

/-- The step in effect changes at the first edge of its inserted spoke, with FREQ_STEP; set points for a lower step follow it
(R70, R449, R492). -/
def State.stepChange (s : State) : State :=
  match s.turn.newStep with
  | none => s
  | some k =>
    let s1 := (s.set HEAD_TURN_CONFIG.step k).syncSched.raiseHead 19 s.k k
    let s2 : State := { s1 with turn := { s1.turn with newStep := none, settled := if k < s.k then k else s1.turn.settled } }
    if k < s.k then s2.sendSetPoints k else s2

/-- R87: the next spoke inserted at the boundary begins; this device's own substitution batch is made in the first one. -/
def execInsertedSpoke (dt : Nat) (s : State) : Res :=
  let s := s.pass dt
  .next <|
    match s.turn.inserts with
    | [] => s
    | k :: rest =>
      if s.running ∧ s.turnStart ≤ s.spoke + rest.length + 1 then
        let s1 := match k with | .hitchSub => s.substitute | .freqStep => s.stepChange
        ({ s1 with turn := { s1.turn with inserts := rest } } : State).syncPhase
      else s

end Sys2Proof.Machine
end

