-- ==== Sys2Proof/Machine/TestPort.lean ====
section
/-! DEFINITION. The test access port and the analogue test buses (R568 to R574). A command of the port names the instruction
loaded and the data register that is shifted through once: captured, shifted, updated. -/

namespace Sys2Proof.Machine

/-- An instruction is loaded while the port is not reset (R568); one that replaces EXTEST leaves the rails to be read (R570). -/
def State.loadTap (s : State) (code : Nat) (f : State → State) : State :=
  if s.boot.pwrgood then
    let ended := s.extest && code != 0
    f { s with boot := { s.boot with tapInstr := code, extestEnded := s.boot.extestEnded || ended } }
  else s

/-- What the data register captured. -/
def State.capture (s : State) (v : Nat) : State := { s with boot := { s.boot with tapData := v } }

/-- A row of cells as a number, cell 0 lowest. -/
def cellBits (l : List Bool) : Nat := l.foldr (fun b a => (if b then 1 else 0) + 2 * a) 0

/-- TRST_N low, or PWRGOOD low, resets the port and selects IDCODE (R568). -/
def State.resetTap (s : State) : State :=
  let ended := s.extest
  { s with boot := { s.boot with tapInstr := 2, extestEnded := s.boot.extestEnded || ended } }

/-- R568. -/
def execTapReset (dt : Nat) (s : State) : Res := .next <| (s.pass dt).resetTap

/-- R568, R570: EXTEST drives the boundary register with what was shifted in, `pins` being the levels at the contacts; it acts as
BYPASS when `debug` is 0 or an image is loaded. -/
def execExtest (dt : Nat) (pins cells : List Bool) (s : State) : Res :=
  .next <| (s.pass dt).loadTap 0 fun t =>
    if t.extest then { t.capture (cellBits pins) with boot := { (t.capture (cellBits pins)).boot with boundary := cells } } else t.capture 0

/-- R568: SAMPLE/PRELOAD. -/
def execSamplePreload (dt : Nat) (pins cells : List Bool) (s : State) : Res :=
  .next <| (s.pass dt).loadTap 1 fun t =>
    { t.capture (cellBits pins) with boot := { (t.capture (cellBits pins)).boot with boundary := cells } }

/-- The identification register (R568). -/
def State.idcode (s : State) : Nat :=
  s.get HEAD_DEVICE_ID.stepping % 16 * 2 ^ 28 + 0x5725 * 2 ^ 12 + Config.idManufacturer.toNat * 2 + 1

/-- R568. -/
def execIdcode (dt : Nat) (s : State) : Res := .next <| (s.pass dt).loadTap 2 fun t => t.capture t.idcode

/-- R569: SBX_STATUS in bits 63:0 and HEAD_BOOT_STATUS in bits 127:64, at every start-up step and halt. -/
def execStatusRead (dt : Nat) (s : State) : Res :=
  .next <| (s.pass dt).loadTap 0x10 fun t => t.capture (t.reg SBX_STATUS.addr + t.reg HEAD_BOOT_STATUS.addr * 2 ^ 64)

/-- The 160 bits of the eight selections (R572). -/
def State.atbBits (s : State) : Nat :=
  ((List.range 8).map fun n => s.reg (HEAD_ATB_SEL_n.addr + 8 * n) % 2 ^ 19 * 2 ^ (20 * n)).sum

/-- R572: ATB_SEL captures the eight registers and writes all eight, in ascending order, at Update-DR. -/
def execAtbSel (dt v : Nat) (s : State) : Res :=
  .next <| (s.pass dt).loadTap 0x11 fun t =>
    (List.range 8).foldl (fun (u : State) n => u.atbWrite n (bits v (20 * n + 8) 6) (bits v (20 * n + 16) 3) (bits v (20 * n) 5)) (t.capture t.atbBits)

/-- R568: the 1-bit bypass register captures 0. -/
def execBypass (dt : Nat) (s : State) : Res := .next <| (s.pass dt).loadTap 0xFF fun t => t.capture 0

/-- R568: a production instruction acts as BYPASS while `debug` is 0. What it does while `debug` is 1 is not given. -/
def execProductionInstruction (dt code : Nat) (s : State) : Res :=
  let s := s.pass dt
  if code < 0x20 ∨ 0xFE < code ∨ !s.boot.pwrgood then .next s
  else if s.flag SBX_POLICY.debug then .refused .productionInstruction
  else .next (s.loadTap code fun t => t.capture 0)

/-- R570: after EXTEST has been replaced, the device reads the status of every rail. -/
def execExtestEnd (dt : Nat) (s : State) : Res :=
  let s := s.pass dt
  .next <|
    if s.boot.extestEnded ∧ !s.extest then
      (List.range 0xB5).foldl (fun (t : State) r => t.sendRail r 4 0) { s with boot := { s.boot with extestEnded := false } }
    else s

/-- R574: 1 µs after a change of pin n its connection closes; a diode node excludes its diode (R476). -/
def execAtbConnect (dt n : Nat) (s : State) : Res :=
  let s := s.pass dt
  .next <|
    if s.boot.atbDue.any fun x => x.1 == n && decide (x.2 ≤ s.ticks) then
      let s1 : State := { s with boot := { s.boot with atbDue := s.boot.atbDue.filter fun (x : Nat × Nat) => x.1 != n } }
      let s2 := s1.setFlag (HEAD_ATB_SEL_n.connected.pin n) true
      match atbDiode n (s.atbSel n).1 (s.atbSel n).2 with
      | none => s2
      | some d => { s2 with thm := { s2.thm with atb := d :: s2.thm.atb.filter (· != d) } }
    else s

/-- A connected pin forces current into diode d. -/
def State.diodeForced (s : State) (d : Nat) : Bool :=
  (List.range 8).any fun n => s.flag (HEAD_ATB_SEL_n.connected.pin n) && atbDiode n (s.atbSel n).1 (s.atbSel n).2 == some d

/-- R574: 1 ms after it was disconnected, diode d returns to use. -/
def execAtbDiodeReturn (dt d : Nat) (s : State) : Res :=
  let s := s.pass dt
  .next <|
    if s.boot.diodeDue.any fun x => x.1 == d && decide (x.2 ≤ s.ticks) then
      let s1 : State := { s with boot := { s.boot with diodeDue := s.boot.diodeDue.filter fun (x : Nat × Nat) => !(x.1 == d && decide (x.2 ≤ s.ticks)) } }
      if s1.diodeForced d then s1 else { s1 with thm := { s1.thm with atb := s1.thm.atb.filter (· != d) } }
    else s

end Sys2Proof.Machine
end

