-- ==== Sys2Proof/Machine/Dispatch.lean ====
section
/-! DEFINITION. The meaning of each command: one arm per row of the table. -/

namespace Sys2Proof.Machine

/-- What a command does to everything but the queue. -/
def exec (i : Instr) (s : State) : Host.Outcome State Fault Refusal :=
  match i with
  | .axleLockAcquired dt => Sys2Proof.Machine.execAxleLockAcquired dt s
  | .axleHoldoverEntry dt => Sys2Proof.Machine.execAxleHoldoverEntry dt s
  | .axleRefMisalignedEdge dt => Sys2Proof.Machine.execAxleRefMisalignedEdge dt s
  | .axleRefReturn dt => Sys2Proof.Machine.execAxleRefReturn dt s
  | .axleLockTimeout dt => Sys2Proof.Machine.execAxleLockTimeout dt s
  | .index dt => Sys2Proof.Machine.execIndex dt s
  | .arm dt cmd => Sys2Proof.Machine.execArm dt cmd s
  | .disarm dt cmd => Sys2Proof.Machine.execDisarm dt cmd s
  | .armTakesEffect dt => Sys2Proof.Machine.execArmTakesEffect dt s
  | .turn0Start dt drew => Sys2Proof.Machine.execTurn0Start dt drew s
  | .turnBoundary dt env => Sys2Proof.Machine.execTurnBoundary dt env s
  | .insertedSpoke dt => Sys2Proof.Machine.execInsertedSpoke dt s
  | .workEndReached dt => Sys2Proof.Machine.execWorkEndReached dt s
  | .actionProgramStep dt n k ops ups => Sys2Proof.Machine.execActionProgramStep dt n k ops ups s
  | .actionCartIssue dt n k => Sys2Proof.Machine.execActionCartIssue dt n k s
  | .actionBarrierArrive dt n k => Sys2Proof.Machine.execActionBarrierArrive dt n k s
  | .actionPush dt n k => Sys2Proof.Machine.execActionPush dt n k s
  | .actionPop dt n k => Sys2Proof.Machine.execActionPop dt n k s
  | .actionFill dt n k => Sys2Proof.Machine.execActionFill dt n k s
  | .actionCopy dt n k => Sys2Proof.Machine.execActionCopy dt n k s
  | .fillCopyComplete dt n ch => Sys2Proof.Machine.execFillCopyComplete dt n ch s
  | .arrivalDeadlineMissed dt unit kind retried via => Sys2Proof.Machine.execArrivalDeadlineMissed dt unit kind retried via s
  | .holdDataComplete dt id => Sys2Proof.Machine.execHoldDataComplete dt id s
  | .holdInForce dt => Sys2Proof.Machine.execHoldInForce dt s
  | .holdForceEnd dt => Sys2Proof.Machine.execHoldForceEnd dt s
  | .stallWaveItem dt k w => Sys2Proof.Machine.execStallWaveItem dt k w s
  | .scrubChunk dt n ups => Sys2Proof.Machine.execScrubChunk dt n ups s
  | .wsManagementRead dt cmd n w => Sys2Proof.Machine.execWsManagementRead dt cmd n w s
  | .wsManagementWrite dt cmd n w ws => Sys2Proof.Machine.execWsManagementWrite dt cmd n w ws s
  | .waitingPushApplied dt n c => Sys2Proof.Machine.execWaitingPushApplied dt n c s
  | .meshWrite dt p same => Sys2Proof.Machine.execMeshWrite dt p same s
  | .meshReadRequest dt p => Sys2Proof.Machine.execMeshReadRequest dt p s
  | .meshReadResponse dt p => Sys2Proof.Machine.execMeshReadResponse dt p s
  | .meshWriteAck dt p => Sys2Proof.Machine.execMeshWriteAck dt p s
  | .meshErrorResponse dt p => Sys2Proof.Machine.execMeshErrorResponse dt p s
  | .multicastWrite dt n port t same => Sys2Proof.Machine.execMulticastWrite dt n port t same s
  | .circularPush dt p => Sys2Proof.Machine.execCircularPush dt p s
  | .barrierArriveFlit dt n port b => Sys2Proof.Machine.execBarrierArriveFlit dt n port b s
  | .barrierReleaseFlit dt n port b => Sys2Proof.Machine.execBarrierReleaseFlit dt n port b s
  | .managementRequest dt p => Sys2Proof.Machine.execManagementRequest dt p s
  | .managementResponse dt p => Sys2Proof.Machine.execManagementResponse dt p s
  | .eventRecordPacket dt k => Sys2Proof.Machine.execEventRecordPacket dt k s
  | .flitReceive dt n port sent flips => Sys2Proof.Machine.execFlitReceive dt n port sent flips s
  | .linkNack dt n port => Sys2Proof.Machine.execLinkNack dt n port s
  | .patternTestComplete dt n port bad => Sys2Proof.Machine.execPatternTestComplete dt n port bad s
  | .mcastHold dt n t port => Sys2Proof.Machine.execMcastHold dt n t port s
  | .netStall dt n t => Sys2Proof.Machine.execNetStall dt n t s
  | .cartIssueWrite dt cmd n ch off => Sys2Proof.Machine.execCartIssueWrite dt cmd n ch off s
  | .cartDescriptorStart dt n ch free => Sys2Proof.Machine.execCartDescriptorStart dt n ch free s
  | .cartDescriptorComplete dt n ch => Sys2Proof.Machine.execCartDescriptorComplete dt n ch s
  | .heartbeatMissing dt n => Sys2Proof.Machine.execHeartbeatMissing dt n s
  | .rerunPoint dt => Sys2Proof.Machine.execRerunPoint dt s
  | .repairCopyPartComplete dt key => Sys2Proof.Machine.execRepairCopyPartComplete dt key s
  | .repairCopyEscalate dt key => Sys2Proof.Machine.execRepairCopyEscalate dt key s
  | .refillComplete dt key l => Sys2Proof.Machine.execRefillComplete dt key l s
  | .advanceCopyComplete dt => Sys2Proof.Machine.execAdvanceCopyComplete dt s
  | .towerChannelFailing dt t ch => Sys2Proof.Machine.execTowerChannelFailing dt t ch s
  | .channelRestoreComplete dt t ch bad => Sys2Proof.Machine.execChannelRestoreComplete dt t ch bad s
  | .watchdogExpiry dt g => Sys2Proof.Machine.execWatchdogExpiry dt g s
  | .guardReportsRunning dt g => Sys2Proof.Machine.execGuardReportsRunning dt g s
  | .admission dt ring => Sys2Proof.Machine.execAdmission dt ring s
  | .tailCopyComplete dt id => Sys2Proof.Machine.execTailCopyComplete dt id s
  | .submit dt b => Sys2Proof.Machine.execSubmit dt b s
  | .cancel dt b => Sys2Proof.Machine.execCancel dt b s
  | .tokenSampling dt logits tree => Sys2Proof.Machine.execTokenSampling dt logits tree s
  | .kvPrefetch dt g ahead => Sys2Proof.Machine.execKvPrefetch dt g ahead s
  | .spillWriteComplete dt id g p => Sys2Proof.Machine.execSpillWriteComplete dt id g p s
  | .shadowCopyComplete dt c => Sys2Proof.Machine.execShadowCopyComplete dt c s
  | .shadowSampleMissed dt c => Sys2Proof.Machine.execShadowSampleMissed dt c s
  | .shadowCompareComplete dt c => Sys2Proof.Machine.execShadowCompareComplete dt c s
  | .formatRecipeWrite dt cmd v => Sys2Proof.Machine.execFormatRecipeWrite dt cmd v s
  | .wideReqWrite dt cmd v => Sys2Proof.Machine.execWideReqWrite dt cmd v s
  | .swapHoldWrite dt cmd v => Sys2Proof.Machine.execSwapHoldWrite dt cmd v s
  | .shadowEnableWrite dt cmd v => Sys2Proof.Machine.execShadowEnableWrite dt cmd v s
  | .sampProfileWrite dt cmd v => Sys2Proof.Machine.execSampProfileWrite dt cmd v s
  | .adapterPtrWrite dt cmd v => Sys2Proof.Machine.execAdapterPtrWrite dt cmd v s
  | .modelPtrWrite dt cmd v => Sys2Proof.Machine.execModelPtrWrite dt cmd v s
  | .coachOnWrite dt cmd v => Sys2Proof.Machine.execCoachOnWrite dt cmd v s
  | .stepCapWrite dt cmd v => Sys2Proof.Machine.execStepCapWrite dt cmd v s
  | .prefixFlush dt cmd => Sys2Proof.Machine.execPrefixFlush dt cmd s
  | .hazardClear dt cmd n => Sys2Proof.Machine.execHazardClear dt cmd n s
  | .coachResetRequest dt cmd c => Sys2Proof.Machine.execCoachResetRequest dt cmd c s
  | .coachResetDone dt c => Sys2Proof.Machine.execCoachResetDone dt c s
  | .atbSelect dt cmd n v => Sys2Proof.Machine.execAtbSelect dt cmd n v s
  | .atbConnect dt n => Sys2Proof.Machine.execAtbConnect dt n s
  | .clkGate dt who cmd d k => Sys2Proof.Machine.execClkGate dt who cmd d k s
  | .clkUngate dt who cmd d k => Sys2Proof.Machine.execClkUngate dt who cmd d k s
  | .clkSwitch dt who cmd d seco => Sys2Proof.Machine.execClkSwitch dt who cmd d seco s
  | .pllReady dt d k => Sys2Proof.Machine.execPllReady dt d k s
  | .pllLockLost dt d k => Sys2Proof.Machine.execPllLockLost dt d k s
  | .clockSourceLost dt d => Sys2Proof.Machine.execClockSourceLost dt d s
  | .oscDelayExpiry dt => Sys2Proof.Machine.execOscDelayExpiry dt s
  | .refclkMeasurement dt khz => Sys2Proof.Machine.execRefclkMeasurement dt khz s
  | .refclkFail dt => Sys2Proof.Machine.execRefclkFail dt s
  | .eventArrival dt k => Sys2Proof.Machine.execEventArrival dt k s
  | .eventSelect dt g => Sys2Proof.Machine.execEventSelect dt g s
  | .eventDeliver dt g => Sys2Proof.Machine.execEventDeliver dt g s
  | .guardEndOfService dt g => Sys2Proof.Machine.execGuardEndOfService dt g s
  | .eventRecordEmit dt => Sys2Proof.Machine.execEventRecordEmit dt s
  | .telemetryPeriod dt => Sys2Proof.Machine.execTelemetryPeriod dt s
  | .progressRecord dt => Sys2Proof.Machine.execProgressRecord dt s
  | .streamRoomReturns dt => Sys2Proof.Machine.execStreamRoomReturns dt s
  | .read dt cmd a => Sys2Proof.Machine.execRead dt cmd a s
  | .write dt cmd a v => Sys2Proof.Machine.execWrite dt cmd a v s
  | .readBlock dt cmd a n => Sys2Proof.Machine.execReadBlock dt cmd a n s
  | .writeBlock dt cmd a ws => Sys2Proof.Machine.execWriteBlock dt cmd a ws s
  | .imageStart dt cmd count => Sys2Proof.Machine.execImageStart dt cmd count s
  | .imageStop dt cmd => Sys2Proof.Machine.execImageStop dt cmd s
  | .sessionClose dt cmd => Sys2Proof.Machine.execSessionClose dt cmd s
  | .raw dt cmd k chan a v wr => Sys2Proof.Machine.execRaw dt cmd k chan a v wr s
  | .imageLoad dt cmd source bcast k => Sys2Proof.Machine.execImageLoad dt cmd source bcast k s
  | .modelStage dt cmd k => Sys2Proof.Machine.execModelStage dt cmd k s
  | .drainReload dt cmd limit => Sys2Proof.Machine.execDrainReload dt cmd limit s
  | .adapterLoad dt cmd a ws => Sys2Proof.Machine.execAdapterLoad dt cmd a ws s
  | .towerStage dt cmd k => Sys2Proof.Machine.execTowerStage dt cmd k s
  | .attest dt cmd nonce => Sys2Proof.Machine.execAttest dt cmd nonce s
  | .zeroise dt cmd scope => Sys2Proof.Machine.execZeroise dt cmd scope s
  | .coachRepair dt cmd c => Sys2Proof.Machine.execCoachRepair dt cmd c s
  | .couplingTrain dt cmd mask => Sys2Proof.Machine.execCouplingTrain dt cmd mask s
  | .defectClear dt cmd kind place => Sys2Proof.Machine.execDefectClear dt cmd kind place s
  | .warmReset dt cmd => Sys2Proof.Machine.execWarmReset dt cmd s
  | .longCommandTimeout dt => Sys2Proof.Machine.execLongCommandTimeout dt s
  | .bulkDataTimeout dt => Sys2Proof.Machine.execBulkDataTimeout dt s
  | .bulkFrame dt => Sys2Proof.Machine.execBulkFrame dt s
  | .dataFrame dt f => Sys2Proof.Machine.execDataFrame dt f s
  | .linkControlFrame dt f => Sys2Proof.Machine.execLinkControlFrame dt f s
  | .resendTimeout dt c => Sys2Proof.Machine.execResendTimeout dt c s
  | .controlLinkDown dt lanes => Sys2Proof.Machine.execControlLinkDown dt lanes s
  | .controlLinkUp dt => Sys2Proof.Machine.execControlLinkUp dt s
  | .handshakeH1 dt m => Sys2Proof.Machine.execHandshakeH1 dt m s
  | .handshakeH2 dt m => Sys2Proof.Machine.execHandshakeH2 dt m s
  | .handshakeTimeout dt => Sys2Proof.Machine.execHandshakeTimeout dt s
  | .keyPhaseAdvance dt => Sys2Proof.Machine.execKeyPhaseAdvance dt s
  | .mbxSend dt host m e ident v => Sys2Proof.Machine.execMbxSend dt host m e ident v s
  | .mbxRecv dt host m e ident => Sys2Proof.Machine.execMbxRecv dt host m e ident s
  | .mbxRing dt host m e ident v => Sys2Proof.Machine.execMbxRing dt host m e ident v s
  | .mbxStatusRead dt host m e ident => Sys2Proof.Machine.execMbxStatusRead dt host m e ident s
  | .mbxBellClear dt host m e ident v => Sys2Proof.Machine.execMbxBellClear dt host m e ident v s
  | .mbxMaskWrite dt host m e ident v => Sys2Proof.Machine.execMbxMaskWrite dt host m e ident v s
  | .mbxCtrlWrite dt host m e ident v => Sys2Proof.Machine.execMbxCtrlWrite dt host m e ident v s
  | .mbxTimeout dt m e => Sys2Proof.Machine.execMbxTimeout dt m e s
  | .couplingBlockReceive dt k b => Sys2Proof.Machine.execCouplingBlockReceive dt k b s
  | .couplingReplay dt k => Sys2Proof.Machine.execCouplingReplay dt k s
  | .couplingTrainingEnd dt k good peerCpl peerMember => Sys2Proof.Machine.execCouplingTrainingEnd dt k good peerCpl peerMember s
  | .memberNumberFlit dt k m => Sys2Proof.Machine.execMemberNumberFlit dt k m s
  | .laneMirrorRequest dt k lane => Sys2Proof.Machine.execLaneMirrorRequest dt k lane s
  | .laneSwitchRequest dt k block => Sys2Proof.Machine.execLaneSwitchRequest dt k block s
  | .laneSwitch dt k => Sys2Proof.Machine.execLaneSwitch dt k s
  | .remoteWrite dt k x => Sys2Proof.Machine.execRemoteWrite dt k x s
  | .multicastWriteTx dt k x => Sys2Proof.Machine.execMulticastWriteTx dt k x s
  | .writeAckTx dt k x => Sys2Proof.Machine.execWriteAckTx dt k x s
  | .errorResponseTx dt k x => Sys2Proof.Machine.execErrorResponseTx dt k x s
  | .barrierArriveTx dt k x => Sys2Proof.Machine.execBarrierArriveTx dt k x s
  | .barrierReleaseTx dt k x => Sys2Proof.Machine.execBarrierReleaseTx dt k x s
  | .collectiveContribution dt k x => Sys2Proof.Machine.execCollectiveContribution dt k x s
  | .collectiveComplete dt c => Sys2Proof.Machine.execCollectiveComplete dt c s
  | .reduceComplete dt c => Sys2Proof.Machine.execReduceComplete dt c s
  | .turnMessage dt k m => Sys2Proof.Machine.execTurnMessage dt k m s
  | .rawRequest dt k x => Sys2Proof.Machine.execRawRequest dt k x s
  | .rawResponse dt k x => Sys2Proof.Machine.execRawResponse dt k x s
  | .sectionWrite dt k x => Sys2Proof.Machine.execSectionWrite dt k x s
  | .railBusResponse dt r => Sys2Proof.Machine.execRailBusResponse dt r s
  | .railAlert dt bus => Sys2Proof.Machine.execRailAlert dt bus s
  | .railStatusPoll dt rail => Sys2Proof.Machine.execRailStatusPoll dt rail s
  | .setPointSettled dt => Sys2Proof.Machine.execSetPointSettled dt s
  | .powerDroop dt d mv => Sys2Proof.Machine.execPowerDroop dt d mv s
  | .supplyShort dt rail => Sys2Proof.Machine.execSupplyShort dt rail s
  | .powerLimitExceeded dt watts => Sys2Proof.Machine.execPowerLimitExceeded dt watts s
  | .powerHoldRelease dt watts => Sys2Proof.Machine.execPowerHoldRelease dt watts s
  | .powerOnStageAdvance dt c => Sys2Proof.Machine.execPowerOnStageAdvance dt c s
  | .powerOnFail dt c => Sys2Proof.Machine.execPowerOnFail dt c s
  | .coachTilesResetDone dt c => Sys2Proof.Machine.execCoachTilesResetDone dt c s
  | .idleBoundary dt drew => Sys2Proof.Machine.execIdleBoundary dt drew s
  | .sensorSample dt l => Sys2Proof.Machine.execSensorSample dt l s
  | .sensorSkew dt h => Sys2Proof.Machine.execSensorSkew dt h s
  | .referenceUpdate dt => Sys2Proof.Machine.execReferenceUpdate dt s
  | .coolStatFrame dt v => Sys2Proof.Machine.execCoolStatFrame dt v s
  | .coolLost dt => Sys2Proof.Machine.execCoolLost dt s
  | .fastThrottleIn dt => Sys2Proof.Machine.execFastThrottleIn dt s
  | .thermalSustained dt => Sys2Proof.Machine.execThermalSustained dt s
  | .holdStateEntry dt => Sys2Proof.Machine.execHoldStateEntry dt s
  | .roofShutdownCheck dt => Sys2Proof.Machine.execRoofShutdownCheck dt s
  | .holdStateExit dt => Sys2Proof.Machine.execHoldStateExit dt s
  | .rotation dt spots => Sys2Proof.Machine.execRotation dt spots s
  | .pwrgoodRise dt strap => Sys2Proof.Machine.execPwrgoodRise dt strap s
  | .pwrgoodLost dt => Sys2Proof.Machine.execPwrgoodLost dt s
  | .powerOnResetEntry dt => Sys2Proof.Machine.execPowerOnResetEntry dt s
  | .resetN dt => Sys2Proof.Machine.execResetN dt s
  | .startupStepComplete dt e => Sys2Proof.Machine.execStartupStepComplete dt e s
  | .startupStepTimeout dt e => Sys2Proof.Machine.execStartupStepTimeout dt e s
  | .sbxAlarm dt code => Sys2Proof.Machine.execSbxAlarm dt code s
  | .sbxPolicyWrite dt cmd v => Sys2Proof.Machine.execSbxPolicyWrite dt cmd v s
  | .allowDebugClear dt cmd => Sys2Proof.Machine.execAllowDebugClear dt cmd s
  | .allowServiceClear dt cmd => Sys2Proof.Machine.execAllowServiceClear dt cmd s
  | .keyEnrol dt cmd slot => Sys2Proof.Machine.execKeyEnrol dt cmd slot s
  | .keyRemove dt cmd slot => Sys2Proof.Machine.execKeyRemove dt cmd slot s
  | .flashWindowWrite dt cmd off ws => Sys2Proof.Machine.execFlashWindowWrite dt cmd off ws s
  | .tapReset dt => Sys2Proof.Machine.execTapReset dt s
  | .extest dt pins cells => Sys2Proof.Machine.execExtest dt pins cells s
  | .samplePreload dt pins cells => Sys2Proof.Machine.execSamplePreload dt pins cells s
  | .idcode dt => Sys2Proof.Machine.execIdcode dt s
  | .statusRead dt => Sys2Proof.Machine.execStatusRead dt s
  | .atbSel dt v => Sys2Proof.Machine.execAtbSel dt v s
  | .bypass dt => Sys2Proof.Machine.execBypass dt s
  | .productionInstruction dt code => Sys2Proof.Machine.execProductionInstruction dt code s
  | .extestEnd dt => Sys2Proof.Machine.execExtestEnd dt s
  | .fastThrottleDeasserted dt => Sys2Proof.Machine.execFastThrottleDeasserted dt s
  | .laneLosesSignal dt k lane => Sys2Proof.Machine.execLaneLosesSignal dt k lane s
  | .watchdogRestart dt g => Sys2Proof.Machine.execWatchdogRestart dt g s
  | .guardMaskWrite dt g n m => Sys2Proof.Machine.execGuardMaskWrite dt g n m s
  | .globalDisableWrite dt b => Sys2Proof.Machine.execGlobalDisableWrite dt b s
  | .guardCoachOnWrite dt v => Sys2Proof.Machine.execGuardCoachOnWrite dt v s
  | .guardAsleep dt g => Sys2Proof.Machine.execGuardAsleep dt g s
  | .guardWakes dt g => Sys2Proof.Machine.execGuardWakes dt g s
  | .hostHoldRaise dt => Sys2Proof.Machine.execHostHoldRaise dt s
  | .hostHoldWithdraw dt => Sys2Proof.Machine.execHostHoldWithdraw dt s
  | .zeroiseComplete dt => Sys2Proof.Machine.execZeroiseComplete dt s
  | .reloadComplete dt => Sys2Proof.Machine.execReloadComplete dt s
  | .atbDiodeReturn dt d => Sys2Proof.Machine.execAtbDiodeReturn dt d s

end Sys2Proof.Machine
end

