-- ==== Sys2Proof/WellFormed.lean ====
section
/-! DEFINITION. Which commands are well formed: every operand fits the field of the spec that carries it (R7, R16, R37, R92,
R282, R286, R336, R384, R394). `exec` gives a meaning to every command, well formed or not; what a statement says about a
command that the interface can carry is said under `Instr.wellFormed`. -/

namespace Sys2Proof

/-- A source coordinate of a tile (R92). -/
def tileOk (n : Nat) : Bool := decide (n < 9984)

/-- A coach (R24). -/
def coachOk (c : Nat) : Bool := decide (c < 64)

/-- A bay, with its tower and its coupling (R37). -/
def bayOk (b : Nat) : Bool := decide (b < 24)

/-- A coupling, or 24 for a transaction that stays on its own device (R344). -/
def linkOk (k : Nat) : Bool := decide (k < 25)

/-- A guard (R410). -/
def guardOk (g : Nat) : Bool := decide (g < 4)

/-- A rail of R445. -/
def railOk (r : Nat) : Bool := decide (r < 0xB5)

/-- A pin of the analogue test buses (R572). -/
def pinOk (n : Nat) : Bool := decide (n < 8)

/-- A management address, of at most 48 bits (R7). -/
def addrOk (a : Nat) : Bool := decide (a < 2 ^ 48)

/-- The coupling a late arrival comes over. -/
def viaOk : Option Nat → Bool
  | none => true
  | some k => bayOk k

/-- The fields of a packet header have their widths (R286), and payloads whole bytes of at most 16 granules. -/
def packetOk (p : Packet) : Bool :=
  decide (p.ty < 16 ∧ p.vc < 4 ∧ p.yx < 2 ∧ p.src < 2 ^ 15 ∧ p.dst < 2 ^ 15 ∧ p.chan < 8 ∧ p.tag < 256)
    && decide (p.len < 32 ∧ p.space < 4 ∧ p.offset < 2 ^ 36 ∧ p.circ < 16 ∧ p.data.length ≤ 16 * 68)

/-- The fields of a transaction header have their widths (R336), and its payload at most 16,384 B. -/
def txOk (x : Tx) : Bool :=
  decide (x.ty < 256 ∧ x.vc < 4 ∧ x.flags < 256 ∧ x.srcMember < 256 ∧ x.dstMember < 256 ∧ x.dstEp < 65536 ∧ x.srcEp < 65536)
    && decide (x.space < 4 ∧ x.region < 16 ∧ x.push < 256 ∧ x.hops < 256 ∧ x.tag < 256 ∧ x.offset < 2 ^ 64 ∧ x.data.length ≤ 16384)

/-- The fields of a stall-wave item have their widths (R326). -/
def waveOk (w : WaveItem) : Bool := decide (w.cause < 16 ∧ w.spoke < 16 ∧ w.hops < 4 ∧ w.origin < 64 ∧ w.serial < 8)

/-- A turn message names a member and a step (R69, R334). -/
def msgOk (m : TurnMsg) : Bool := decide (m.member < 64 ∧ 48 ≤ m.step ∧ m.step ≤ 95)

/-- The fields of a frame header have their widths, and its payload at most 16,384 B (R384). -/
def frameOk (f : Frame) : Bool :=
  decide (f.chan < 16 ∧ f.version < 16 ∧ f.kind < 16 ∧ f.keyPhase < 2 ∧ f.recStart < 2 ∧ f.seq < 2 ^ 32 ∧ f.ack < 2 ^ 32)
    && decide (f.credit < 2 ^ 32 ∧ f.payload.length ≤ 16384)

/-- A request and a response on a rail bus have 40 bits (R447). -/
def respOk (r : Resp) : Bool := decide (r.req < 2 ^ 40 ∧ r.rsp < 2 ^ 40)

/-- Every operand of a command fits the field that carries it. -/
def Instr.wellFormed : Instr → Bool
  | .axleLockAcquired _ => true
  | .axleHoldoverEntry _ => true
  | .axleRefMisalignedEdge _ => true
  | .axleRefReturn _ => true
  | .axleLockTimeout _ => true
  | .index _ => true
  | .arm _ cmd => decide (cmd < 2 ^ 32)
  | .disarm _ cmd => decide (cmd < 2 ^ 32)
  | .armTakesEffect _ => true
  | .turn0Start _ drew => drew.all fun x => coachOk x.1
  | .turnBoundary _ _ => true
  | .insertedSpoke _ => true
  | .workEndReached _ => true
  | .actionProgramStep _ n _ _ _ => tileOk n
  | .actionCartIssue _ n _ => tileOk n
  | .actionBarrierArrive _ n _ => tileOk n
  | .actionPush _ n _ => tileOk n
  | .actionPop _ n _ => tileOk n
  | .actionFill _ n _ => tileOk n
  | .actionCopy _ n _ => tileOk n
  | .fillCopyComplete _ n ch => tileOk n && decide (ch < 8)
  | .arrivalDeadlineMissed _ unit kind _ via => decide (unit < 10496) && decide (kind < 4) && viaOk via
  | .holdDataComplete _ _ => true
  | .holdInForce _ => true
  | .holdForceEnd _ => true
  | .stallWaveItem _ k w => bayOk k && waveOk w
  | .scrubChunk _ n _ => tileOk n
  | .wsManagementRead _ cmd n w => decide (cmd < 2 ^ 32) && tileOk n && decide (w < 327680)
  | .wsManagementWrite _ cmd n w ws => decide (cmd < 2 ^ 32) && tileOk n && decide (w < 327680) && (ws.all fun x => decide (x < 2 ^ 64))
  | .waitingPushApplied _ n c => tileOk n && decide (c < 16)
  | .meshWrite _ p _ => packetOk p
  | .meshReadRequest _ p => packetOk p
  | .meshReadResponse _ p => packetOk p
  | .meshWriteAck _ p => packetOk p
  | .meshErrorResponse _ p => packetOk p
  | .multicastWrite _ n port t _ => tileOk n && decide (port < 5) && decide (t < 256)
  | .circularPush _ p => packetOk p
  | .barrierArriveFlit _ n port b => tileOk n && decide (port < 5) && decide (b < 64)
  | .barrierReleaseFlit _ n port b => tileOk n && decide (port < 5) && decide (b < 64)
  | .managementRequest _ p => packetOk p
  | .managementResponse _ p => packetOk p
  | .eventRecordPacket _ _ => true
  | .flitReceive _ n port sent flips => tileOk n && decide (port < 5) && decide (sent < 2 ^ 1024) && decide (flips < 2 ^ 1024)
  | .linkNack _ n port => tileOk n && decide (port < 5)
  | .patternTestComplete _ n port _ => tileOk n && decide (port < 5)
  | .mcastHold _ n t port => tileOk n && decide (t < 256) && decide (port < 5)
  | .netStall _ n t => tileOk n && decide (t < 256)
  | .cartIssueWrite _ cmd n ch off => decide (cmd < 2 ^ 32) && tileOk n && decide (ch < 8) && decide (off < 2 ^ 28)
  | .cartDescriptorStart _ n ch _ => tileOk n && decide (ch < 8)
  | .cartDescriptorComplete _ n ch => tileOk n && decide (ch < 8)
  | .heartbeatMissing _ n => tileOk n
  | .rerunPoint _ => true
  | .repairCopyPartComplete _ _ => true
  | .repairCopyEscalate _ _ => true
  | .refillComplete _ _ _ => true
  | .advanceCopyComplete _ => true
  | .towerChannelFailing _ t ch => bayOk t && decide (ch.ch < 32)
  | .channelRestoreComplete _ t ch _ => bayOk t && decide (ch < 32)
  | .watchdogExpiry _ g => guardOk g
  | .guardReportsRunning _ g => guardOk g
  | .admission _ _ => true
  | .tailCopyComplete _ _ => true
  | .submit _ _ => true
  | .cancel _ _ => true
  | .tokenSampling _ _ _ => true
  | .kvPrefetch _ _ _ => true
  | .spillWriteComplete _ _ _ _ => true
  | .shadowCopyComplete _ c => coachOk c
  | .shadowSampleMissed _ c => coachOk c
  | .shadowCompareComplete _ c => coachOk c
  | .formatRecipeWrite _ cmd v => decide (cmd < 2 ^ 32) && decide (v < 2 ^ 64)
  | .wideReqWrite _ cmd v => decide (cmd < 2 ^ 32) && decide (v < 2 ^ 64)
  | .swapHoldWrite _ cmd v => decide (cmd < 2 ^ 32) && decide (v < 2 ^ 64)
  | .shadowEnableWrite _ cmd v => decide (cmd < 2 ^ 32) && decide (v < 2 ^ 64)
  | .sampProfileWrite _ cmd v => decide (cmd < 2 ^ 32) && decide (v < 2 ^ 64)
  | .adapterPtrWrite _ cmd v => decide (cmd < 2 ^ 32) && decide (v < 2 ^ 64)
  | .modelPtrWrite _ cmd v => decide (cmd < 2 ^ 32) && decide (v < 2 ^ 64)
  | .coachOnWrite _ cmd v => decide (cmd < 2 ^ 32) && decide (v < 2 ^ 64)
  | .stepCapWrite _ cmd v => decide (cmd < 2 ^ 32) && decide (v < 2 ^ 64)
  | .prefixFlush _ cmd => decide (cmd < 2 ^ 32)
  | .hazardClear _ cmd n => decide (cmd < 2 ^ 32) && tileOk n
  | .coachResetRequest _ cmd c => decide (cmd < 2 ^ 32) && coachOk c
  | .coachResetDone _ c => coachOk c
  | .atbSelect _ cmd n v => decide (cmd < 2 ^ 32) && pinOk n && decide (v < 2 ^ 64)
  | .atbConnect _ n => pinOk n
  | .clkGate _ _ cmd d _ => decide (cmd < 2 ^ 32) && decide (d < 32)
  | .clkUngate _ _ cmd d _ => decide (cmd < 2 ^ 32) && decide (d < 32)
  | .clkSwitch _ _ cmd d _ => decide (cmd < 2 ^ 32) && decide (d < 32)
  | .pllReady _ d _ => decide (d < 32)
  | .pllLockLost _ d _ => decide (d < 32)
  | .clockSourceLost _ d => decide (d < 32)
  | .oscDelayExpiry _ => true
  | .refclkMeasurement _ _ => true
  | .refclkFail _ => true
  | .eventArrival _ _ => true
  | .eventSelect _ g => guardOk g
  | .eventDeliver _ g => guardOk g
  | .guardEndOfService _ g => guardOk g
  | .eventRecordEmit _ => true
  | .telemetryPeriod _ => true
  | .progressRecord _ => true
  | .streamRoomReturns _ => true
  | .read _ cmd a => decide (cmd < 2 ^ 32) && addrOk a
  | .write _ cmd a v => decide (cmd < 2 ^ 32) && addrOk a && decide (v < 2 ^ 64)
  | .readBlock _ cmd a n => decide (cmd < 2 ^ 32) && addrOk a && decide (n < 2 ^ 32)
  | .writeBlock _ cmd a ws => decide (cmd < 2 ^ 32) && addrOk a && (ws.all fun x => decide (x < 2 ^ 64))
  | .imageStart _ cmd count => decide (cmd < 2 ^ 32) && decide (count < 2 ^ 64)
  | .imageStop _ cmd => decide (cmd < 2 ^ 32)
  | .sessionClose _ cmd => decide (cmd < 2 ^ 32)
  | .raw _ cmd k _ a v _ => decide (cmd < 2 ^ 32) && bayOk k && addrOk a && decide (v < 2 ^ 64)
  | .imageLoad _ cmd _ _ _ => decide (cmd < 2 ^ 32)
  | .modelStage _ cmd _ => decide (cmd < 2 ^ 32)
  | .drainReload _ cmd _ => decide (cmd < 2 ^ 32)
  | .adapterLoad _ cmd _ ws => decide (cmd < 2 ^ 32) && (ws.all fun x => decide (x < 2 ^ 544))
  | .towerStage _ cmd _ => decide (cmd < 2 ^ 32)
  | .attest _ cmd _ => decide (cmd < 2 ^ 32)
  | .zeroise _ cmd _ => decide (cmd < 2 ^ 32)
  | .coachRepair _ cmd c => decide (cmd < 2 ^ 32) && coachOk c
  | .couplingTrain _ cmd mask => decide (cmd < 2 ^ 32) && decide (mask < 2 ^ 24)
  | .defectClear _ cmd _ _ => decide (cmd < 2 ^ 32)
  | .warmReset _ cmd => decide (cmd < 2 ^ 32)
  | .longCommandTimeout _ => true
  | .bulkDataTimeout _ => true
  | .bulkFrame _ => true
  | .dataFrame _ f => frameOk f.frame
  | .linkControlFrame _ f => frameOk f.frame
  | .resendTimeout _ c => decide (c < 6)
  | .controlLinkDown _ lanes => decide (lanes < 2 ^ 16)
  | .controlLinkUp _ => true
  | .handshakeH1 _ _ => true
  | .handshakeH2 _ _ => true
  | .handshakeTimeout _ => true
  | .keyPhaseAdvance _ => true
  | .mbxSend _ _ m e ident v => decide (m < 28) && decide (e < 2) && decide (ident < 2 ^ 32) && decide (v < 2 ^ 64)
  | .mbxRecv _ _ m e ident => decide (m < 28) && decide (e < 2) && decide (ident < 2 ^ 32)
  | .mbxRing _ _ m e ident v => decide (m < 28) && decide (e < 2) && decide (ident < 2 ^ 32) && decide (v < 2 ^ 64)
  | .mbxStatusRead _ _ m e ident => decide (m < 28) && decide (e < 2) && decide (ident < 2 ^ 32)
  | .mbxBellClear _ _ m e ident v => decide (m < 28) && decide (e < 2) && decide (ident < 2 ^ 32) && decide (v < 2 ^ 64)
  | .mbxMaskWrite _ _ m e ident v => decide (m < 28) && decide (e < 2) && decide (ident < 2 ^ 32) && decide (v < 2 ^ 64)
  | .mbxCtrlWrite _ _ m e ident v => decide (m < 28) && decide (e < 2) && decide (ident < 2 ^ 32) && decide (v < 2 ^ 64)
  | .mbxTimeout _ m e => decide (m < 28) && decide (e < 2)
  | .couplingBlockReceive _ k _ => bayOk k
  | .couplingReplay _ k => bayOk k
  | .couplingTrainingEnd _ k _ _ _ => bayOk k
  | .memberNumberFlit _ k _ => bayOk k
  | .laneMirrorRequest _ k lane => bayOk k && decide (lane < 16)
  | .laneSwitchRequest _ k _ => bayOk k
  | .laneSwitch _ k => bayOk k
  | .remoteWrite _ k x => linkOk k && txOk x
  | .multicastWriteTx _ k x => linkOk k && txOk x
  | .writeAckTx _ k x => linkOk k && txOk x
  | .errorResponseTx _ k x => linkOk k && txOk x
  | .barrierArriveTx _ k x => linkOk k && txOk x
  | .barrierReleaseTx _ k x => linkOk k && txOk x
  | .collectiveContribution _ k x => linkOk k && txOk x
  | .collectiveComplete _ _ => true
  | .reduceComplete _ _ => true
  | .turnMessage _ k m => bayOk k && msgOk m
  | .rawRequest _ k x => linkOk k && txOk x
  | .rawResponse _ k x => linkOk k && txOk x
  | .sectionWrite _ k x => linkOk k && txOk x
  | .railBusResponse _ r => respOk r
  | .railAlert _ bus => decide (bus < 4)
  | .railStatusPoll _ rail => railOk rail
  | .setPointSettled _ => true
  | .powerDroop _ d _ => decide (d < 512)
  | .supplyShort _ rail => railOk rail
  | .powerLimitExceeded _ _ => true
  | .powerHoldRelease _ _ => true
  | .powerOnStageAdvance _ c => coachOk c
  | .powerOnFail _ c => coachOk c
  | .coachTilesResetDone _ c => coachOk c
  | .idleBoundary _ drew => drew.all fun x => coachOk x.1
  | .sensorSample _ l => (l.all fun x => decide (x.1 < 408 ∧ x.2 < 4096))
  | .sensorSkew _ h => decide (h < 128)
  | .referenceUpdate _ => true
  | .coolStatFrame _ v => decide (v < 2 ^ 40)
  | .coolLost _ => true
  | .fastThrottleIn _ => true
  | .thermalSustained _ => true
  | .holdStateEntry _ => true
  | .roofShutdownCheck _ => true
  | .holdStateExit _ => true
  | .rotation _ l => l.all fun p => decide (p.spot < 128)
  | .pwrgoodRise _ strap => decide (strap < 16)
  | .pwrgoodLost _ => true
  | .powerOnResetEntry _ => true
  | .resetN _ => true
  | .startupStepComplete _ _ => true
  | .startupStepTimeout _ _ => true
  | .sbxAlarm _ code => decide (code < 256)
  | .sbxPolicyWrite _ cmd v => decide (cmd < 2 ^ 32) && decide (v < 2 ^ 64)
  | .allowDebugClear _ cmd => decide (cmd < 2 ^ 32)
  | .allowServiceClear _ cmd => decide (cmd < 2 ^ 32)
  | .keyEnrol _ cmd slot => decide (cmd < 2 ^ 32) && decide (slot < 8)
  | .keyRemove _ cmd slot => decide (cmd < 2 ^ 32) && decide (slot < 8)
  | .flashWindowWrite _ cmd off ws => decide (cmd < 2 ^ 32) && decide (off < 2 ^ 28) && (ws.all fun x => decide (x < 2 ^ 64))
  | .tapReset _ => true
  | .extest _ _ _ => true
  | .samplePreload _ _ _ => true
  | .idcode _ => true
  | .statusRead _ => true
  | .atbSel _ v => decide (v < 2 ^ 160)
  | .bypass _ => true
  | .productionInstruction _ code => decide (code < 256)
  | .extestEnd _ => true
  | .fastThrottleDeasserted _ => true
  | .laneLosesSignal _ k lane => bayOk k && decide (lane < 16)
  | .watchdogRestart _ g => guardOk g
  | .guardMaskWrite _ g n _ => guardOk g && decide (n < 256)
  | .globalDisableWrite _ _ => true
  | .guardCoachOnWrite _ v => decide (v < 2 ^ 64)
  | .guardAsleep _ g => guardOk g
  | .guardWakes _ g => guardOk g
  | .hostHoldRaise _ => true
  | .hostHoldWithdraw _ => true
  | .zeroiseComplete _ => true
  | .reloadComplete _ => true
  | .atbDiodeReturn _ d => decide (d < 256)
end Sys2Proof
end

