-- ==== Sys2Proof/Safety.lean ====
section
/-! DEFINITION. What the statements call a sound state, and a safe step. -/

namespace Sys2Proof.Machine

/-- The form every state of the block keeps: memory is canonical, every register has one home, the channel 4 store holds at
most 65,536 records (R403), the service log at most 4,096 (R443), and the port has its six channels (R387). -/
structure State.Sound (s : State) : Prop where
  mem : Memory.wf s.mem = true
  regs : Sparse.sorted s.regs = true
  stream : s.ev.stream.length ≤ 65536
  log : s.sbx.log.length ≤ 4096
  chans : s.port.chans.length = 6

/-- A command of channel 0 runs now: a session is open, and nothing denies it (R389, R394, R395, R399, R538). -/
def State.cmdRuns (s : State) (op : Nat) (roles : List Nat) : Bool := s.get CTL_PORT_STATUS.link == 2 && (s.denied op roles).isNone

/-- The last response that waits on channel 0 (R393). -/
def State.lastResponse (s : State) : Option Resp0 := s.port.resp.getLast?

/-- Number of the event raised last (R92). -/
def State.lastEvent (s : State) : Option (Nat × Nat × Nat) := s.ev.inflight.getLast?.map fun e => (e.num, e.a, e.b)

/-- The hold raised last. -/
def State.lastHold (s : State) : Option Hold := s.turn.holds.getLast?

/-- No command of the spec stops the block: a step is safe when it answers a next state. -/
def Safe (r : Res) : Prop := ∃ t, r = .next t

/-- The parts of a state, as frames name them. -/
inductive Part where
  | ticks | regs | mem | flips | free | axle | turn | ev | port | mbx | sbx | img | tile | net | serv | boot | cpl | rep | pwr | thm | pending
  deriving DecidableEq, Repr

/-- From `s` to `t` nothing changes but the parts listed. -/
def State.sameBut (s t : State) (l : List Part) : Prop :=
  (Part.ticks ∈ l ∨ t.ticks = s.ticks) ∧ (Part.regs ∈ l ∨ t.regs = s.regs) ∧ (Part.mem ∈ l ∨ t.mem = s.mem) ∧
  (Part.flips ∈ l ∨ t.flips = s.flips) ∧ (Part.free ∈ l ∨ t.free = s.free) ∧ (Part.axle ∈ l ∨ t.axle = s.axle) ∧
  (Part.turn ∈ l ∨ t.turn = s.turn) ∧ (Part.ev ∈ l ∨ t.ev = s.ev) ∧ (Part.port ∈ l ∨ t.port = s.port) ∧
  (Part.mbx ∈ l ∨ t.mbx = s.mbx) ∧ (Part.sbx ∈ l ∨ t.sbx = s.sbx) ∧ (Part.img ∈ l ∨ t.img = s.img) ∧
  (Part.tile ∈ l ∨ t.tile = s.tile) ∧ (Part.net ∈ l ∨ t.net = s.net) ∧ (Part.serv ∈ l ∨ t.serv = s.serv) ∧
  (Part.boot ∈ l ∨ t.boot = s.boot) ∧ (Part.cpl ∈ l ∨ t.cpl = s.cpl) ∧ (Part.rep ∈ l ∨ t.rep = s.rep) ∧
  (Part.pwr ∈ l ∨ t.pwr = s.pwr) ∧ (Part.thm ∈ l ∨ t.thm = s.thm) ∧ (Part.pending ∈ l ∨ t.pending = s.pending)

/-- From `s` to `t` every register keeps its value in all bits outside the fields listed: any field that shares no bit with
one of them reads as before. -/
def State.regsBut (s t : State) (l : List Fld) : Prop :=
  ∀ f : Fld, f.fits → (∀ g ∈ l, g.apart f) → t.get f = s.get f

/-- From `s` to `t` every byte of memory outside the spans listed, each a key and a length, reads as before. -/
def State.memBut (s t : State) (l : List (Nat × Nat)) : Prop :=
  ∀ k : Nat, (∀ p ∈ l, k < p.1 ∨ p.1 + p.2 ≤ k) → t.bytes k 1 = s.bytes k 1

/-- The hazard registers of tile n: status, counts, and the 31 log entries with their second words (R378). -/
def hazardFields (n : Nat) : List Fld :=
  [.whole (TILE_HAZ_STATUS.entries.tile n).key, .whole (TILE_HAZ_COUNT.same_row.tile n).key]
  ++ (List.range 31).flatMap fun (e : Nat) =>
    [.whole (tileBase n + TILE_HAZ_LOG_n.valid.key + 16 * e), .whole (tileBase n + TILE_HAZ_AUX_n.other.key + 16 * e)]

/-- The registers through which a guard's failure hands its work on: the four watchdogs, the sources in service and the global
disable of EVT_CTRL, and of every source whether it pends, is in service, and at which guard (R439, R501). -/
def watchFields : List Fld :=
  ((List.range 4).map fun (i : Nat) => .whole (GRD_WATCHDOG_i.state.guard i).key) ++ [.whole EVT_CTRL.addr]
  ++ (List.range 256).flatMap fun (n : Nat) => [EVT_SRC_n.pending.src n, EVT_SRC_n.in_service.src n, EVT_SRC_n.guard.src n]

end Sys2Proof.Machine
end

