-- ==== Sys2Proof/Certificates/Slice0/Obligations.lean ====
section
/-! DEFINITION. The statements for the provers. In each clause dt is the number of axle ticks that pass before the command
(DESIGN CHOICE, log entry 1), s the state before it, s' the
state once they have passed, with what the block itself does in them (State.elapse, and State.pass with the work of the tiles, the
routers and the transmitters), u that state once a scheduled action has been issued, t the state after the command; `sameBut`, `regsBut` and `memBut` (Safety.lean) give
the frame: the parts of the state, the fields of registers and the bytes of memory outside the lists keep their values. -/

open Sys2Proof Sys2Proof.Machine

/-- One step runs the command at the front of the queue on the state with the rest of the queue (R66). For every command c and state
s with c at the front of its queue, a step of s is exec of c on s with the rest of the queue; on an empty queue a step lets one
axle tick pass (log entry 1: the model's choice). What the spec leaves open in it is the model's choice or reading: log entry 1. -/
def Obligations.StepRunsTheFrontCommand : Prop :=
  (∀ (c : Instr) (r : List Instr) (s : State), s.pending = c :: r → step s = exec c { s with pending := r })
  ∧ (∀ s : State, s.pending = [] → step s = .next (s.pass 1))

/-- Every step keeps memory and registers in their one form, and the stores within their bounds (R387, R403, R443). From every sound
state, a step that answers a next state answers a sound one: memory stays in its canonical form, every register keeps one home,
the channel 4 store holds at most 65,536 records, the service log at most 4,096, and the port has its six channels. -/
def Obligations.SoundKeptByStep : Prop :=
  ∀ s t : State, s.Sound → step s = .next t → t.Sound

/-- The state after reset is sound, its queue is empty, and its registers hold what the spec gives (R66, R507, R389). State.reset is
sound, lists no byte of memory and has no command waiting; the AXLE count is 0 and loaded is 0, sources 0 to 191 stream and
sources 192 to 255 do not, no source is masked or pending, no session is open and no image is loaded. -/
def Obligations.SoundAtReset : Prop :=
  State.reset.Sound ∧ State.reset.pending = [] ∧ State.reset.mem = []
  ∧ State.reset.count = 0 ∧ State.reset.flag HEAD_AXLE_STATUS.loaded = false
  ∧ (∀ n : Nat, n < 192 → State.reset.flag (EVT_SRC_n.stream.src n) = true)
  ∧ (∀ n : Nat, 192 ≤ n → n < 256 → State.reset.flag (EVT_SRC_n.stream.src n) = false)
  ∧ (∀ n : Nat, n < 256 → State.reset.flag (EVT_SRC_n.mask.src n) = false ∧ State.reset.flag (EVT_SRC_n.pending.src n) = false)
  ∧ State.reset.get CTL_PORT_STATUS.link = 0 ∧ State.reset.get HEAD_IMAGE_STATUS.state = 0

/-- A recognised index loads the count, checks it, or only counts, as the table of R65 says (R65). At a recognised index (locked, or
in holdover after a slip): armed with no image running, the tick takes count V, loaded is set, slip and armed are cleared; armed
with an image running, the count is not changed, idx_match increments when V is the count and otherwise slip is set and
AXLE_SLIP raised, and armed is cleared; not armed, idx_unarmed increments and nothing else changes. In every clause, the parts
of the state, the register fields and the bytes of memory that it does not list keep their values. Each clause first lets the dt
axle ticks of its command pass. Its clauses conclude that exec ANSWERS A NEXT STATE with the command's own effect, for every
state and operands that meet hypotheses on these alone; so these COMPLETE: index. What the spec leaves open in it is the model's
choice or reading: log entry 1. -/
def Obligations.IndexRecognised : Prop :=
  -- index
    (∀ (dt : Nat) (s s' : State), s' = s.elapse dt →
      (s'.get HEAD_AXLE_STATUS.lock = 1 ∨ (s'.get HEAD_AXLE_STATUS.lock = 2 ∧ s'.axle.afterSlip = true)) →
      s'.axle.inForce = none →
      ∃ t, exec (.index dt) s = .next t
        ∧ t.get HEAD_AXLE_STATUS.idx_unarmed = min 255 (s'.get HEAD_AXLE_STATUS.idx_unarmed + 1) ∧ t.count = s'.count
        ∧ s'.sameBut t [.regs] ∧ s'.regsBut t [HEAD_AXLE_STATUS.idx_unarmed])
  ∧ -- index
    (∀ (dt : Nat) (v : Nat) (s s' : State), s' = s.elapse dt →
      (s'.get HEAD_AXLE_STATUS.lock = 1 ∨ (s'.get HEAD_AXLE_STATUS.lock = 2 ∧ s'.axle.afterSlip = true)) →
      s'.axle.inForce = some v → s'.running = false →
      ∃ t, exec (.index dt) s = .next t
        ∧ t.count = v % 2 ^ 64 ∧ t.flag HEAD_AXLE_STATUS.loaded = true ∧ t.flag HEAD_AXLE_STATUS.slip = false
        ∧ t.axle.inForce = none ∧ t.flag HEAD_AXLE_STATUS.armed = false ∧ s'.sameBut t [.regs, .axle]
        ∧ s'.regsBut t [HEAD_AXLE_STATUS.lock, HEAD_AXLE_STATUS.loaded, HEAD_AXLE_STATUS.slip, HEAD_AXLE_STATUS.armed,
          HEAD_AXLE_CTRL.arm, HEAD_AXLE_COUNT.count, HEAD_BOOT_STATUS.axle_free, CLK_STATUS.axle_ready])
  ∧ -- index
    (∀ (dt : Nat) (v : Nat) (s s' : State), s' = s.elapse dt →
      (s'.get HEAD_AXLE_STATUS.lock = 1 ∨ (s'.get HEAD_AXLE_STATUS.lock = 2 ∧ s'.axle.afterSlip = true)) →
      s'.axle.inForce = some v → s'.running = true → v = s'.count →
      ∃ t, exec (.index dt) s = .next t
        ∧ t.get HEAD_AXLE_STATUS.idx_match = min 255 (s'.get HEAD_AXLE_STATUS.idx_match + 1) ∧ t.count = s'.count
        ∧ t.axle.inForce = none ∧ t.flag HEAD_AXLE_STATUS.armed = false ∧ s'.sameBut t [.regs, .axle]
        ∧ s'.regsBut t [HEAD_AXLE_STATUS.idx_match, HEAD_AXLE_STATUS.armed, HEAD_AXLE_CTRL.arm])
  ∧ -- index
    (∀ (dt : Nat) (v : Nat) (s s' : State), s' = s.elapse dt →
      (s'.get HEAD_AXLE_STATUS.lock = 1 ∨ (s'.get HEAD_AXLE_STATUS.lock = 2 ∧ s'.axle.afterSlip = true)) →
      s'.axle.inForce = some v → s'.running = true → v ≠ s'.count →
      ∃ t, exec (.index dt) s = .next t
        ∧ t.flag HEAD_AXLE_STATUS.slip = true ∧ t.count = s'.count ∧ t.axle.inForce = none
        ∧ t.lastEvent = some (17, v % 2 ^ 64, s'.count % 2 ^ 64) ∧ t.flag HEAD_AXLE_STATUS.armed = false
        ∧ s'.sameBut t [.regs, .axle, .turn, .ev]
        ∧ s'.regsBut t [HEAD_AXLE_STATUS.slip, HEAD_AXLE_STATUS.armed, HEAD_AXLE_CTRL.arm])

/-- A member that arrives again while it waits is in error: the arrive is discarded and counted (R305). When the schedule of a tile
arrives at a barrier of which the tile is a member that waits, the second arrive is discarded, barrier_errors increments up to
its greatest value, BARRIER_ERROR (event 86) is raised with the number of the barrier, and no register but TILE_NET_ERR changes:
the state of the barrier stands. In every clause, the parts of the state, the register fields and the bytes of memory that it
does not list keep their values. Each clause first lets the dt axle ticks of its command pass. What the spec leaves open in it
is the model's choice or reading: log entry 1. -/
def Obligations.SecondArrival : Prop :=
  -- actionBarrierArrive
    (∀ (dt : Nat) (n i : Nat) (a : SchedAction) (s s' u : State), s' = s.pass dt → u = s'.issued n a →
      s'.action n i = some a → s'.clockAtOffset a.offset = true → i = s'.issuedBy n → a.kind = 3 →
      s'.get (TILE_STATE.state.tile n) ≠ 0 → s'.tileClock n = true → u.flag (TILE_BARRIER_b.valid.bar n (a.chan % 64)) = true →
      u.flag (TILE_BARRIER_b.member.bar n (a.chan % 64)) = true → u.flag (TILE_BARRIER_b.waiting.bar n (a.chan % 64)) = true →
      n < 10240 →
      ∃ t, exec (.actionBarrierArrive dt n i) s = .next t
        ∧ t.get (TILE_BARRIER_b.arrived.bar n (a.chan % 64)) = u.get (TILE_BARRIER_b.arrived.bar n (a.chan % 64))
        ∧ t.flag (TILE_BARRIER_b.waiting.bar n (a.chan % 64)) = true
        ∧ t.get (TILE_NET_ERR.barrier_errors.tile n) = min (2 ^ TILE_NET_ERR.barrier_errors.w - 1) (u.get
          (TILE_NET_ERR.barrier_errors.tile n) + 1)
        ∧ t.lastEvent = some (86, a.chan % 64, 0) ∧ u.sameBut t [.regs, .ev] ∧ u.regsBut t [TILE_NET_ERR.barrier_errors.tile n])

/-- STATUS_READ captures SBX_STATUS and HEAD_BOOT_STATUS at every start-up step (R569). While PWRGOOD is high, whatever the start-up
step, STATUS_READ captures SBX_STATUS into bits 63:0 of its data register and HEAD_BOOT_STATUS into bits 127:64, and changes
nothing outside the port. In every clause, the parts of the state, the register fields and the bytes of memory that it does not
list keep their values. Each clause first lets the dt axle ticks of its command pass. Its clauses conclude that exec ANSWERS A
NEXT STATE with the command's own effect, for every state and operands that meet hypotheses on these alone; so these COMPLETE:
statusRead. What the spec leaves open in it is the model's choice or reading: log entries 1, 25. -/
def Obligations.StatusRead : Prop :=
  -- statusRead
    (∀ (dt : Nat) (s s' : State), s' = s.pass dt →
      s'.boot.pwrgood = true →
      ∃ t, exec (.statusRead dt) s = .next t
        ∧ t.boot.tapInstr = 0x10 ∧ t.boot.tapData % 2 ^ 64 = s'.reg SBX_STATUS.addr
        ∧ t.boot.tapData / 2 ^ 64 = s'.reg HEAD_BOOT_STATUS.addr ∧ t.regs = s'.regs ∧ t.mem = s'.mem ∧ s'.sameBut t [.boot])

/-- While disable is 1 no source is selected, and arrivals still count; with disable 0 the lowest-numbered source is selected first
(R503). While disable is 1, the selection for a guard selects nothing and changes nothing; an event that arrives is still
counted and becomes pending; once disable is 0, the selection for an idle guard takes the lowest-numbered source that is
pending, routed to the guard and unmasked. In every clause, the parts of the state, the register fields and the bytes of memory
that it does not list keep their values. Each clause first lets the dt axle ticks of its command pass. Its clauses conclude that
exec ANSWERS A NEXT STATE with the command's own effect, for every state and operands that meet hypotheses on these alone; so
these COMPLETE: eventArrival, eventRecordPacket, eventSelect. What the spec leaves open in it is the model's choice or reading:
log entry 1. -/
def Obligations.GlobalDisable : Prop :=
  -- eventSelect
    (∀ (dt : Nat) (g : Nat) (s s' : State), s' = s.elapse dt →
      s'.flag EVT_CTRL.disable = true →
      exec (.eventSelect dt g) s = .next s')
  ∧ -- eventArrival
    (∀ (dt : Nat) (i : Nat) (e : EvRec) (s s' : State), s' = s.elapse dt →
      s'.flag EVT_CTRL.disable = true → s'.ev.inflight[i]? = some e →
      ∃ t, exec (.eventArrival dt i) s = .next t
        ∧ t.flag (EVT_SRC_n.pending.src e.num) = true
        ∧ t.get (EVT_SRC_n.count.src e.num) = min 255 (s'.get (EVT_SRC_n.count.src e.num) + 1) ∧ (e.num < 16 →
        ∀ g : Nat, g ∈ s'.liveGuards → (g, e.num) ∈ t.ev.pend) ∧ s'.sameBut t [.regs, .ev, .sbx]
        ∧ s'.regsBut t [EVT_SRC_n.pending.src e.num, EVT_SRC_n.count.src e.num])
  ∧ -- eventRecordPacket
    (∀ (dt : Nat) (i : Nat) (e : EvRec) (s s' : State), s' = s.elapse dt →
      s'.flag EVT_CTRL.disable = true → s'.ev.inflight[i]? = some e → e.coord < 10240 →
      ∃ t, exec (.eventRecordPacket dt i) s = .next t
        ∧ t.flag (EVT_SRC_n.pending.src e.num) = true
        ∧ t.get (EVT_SRC_n.count.src e.num) = min 255 (s'.get (EVT_SRC_n.count.src e.num) + 1) ∧ (e.num < 16 →
        ∀ g : Nat, g ∈ s'.liveGuards → (g, e.num) ∈ t.ev.pend) ∧ s'.sameBut t [.regs, .ev, .sbx]
        ∧ s'.regsBut t [EVT_SRC_n.pending.src e.num, EVT_SRC_n.count.src e.num])
  ∧ -- eventSelect
    (∀ (dt : Nat) (g n : Nat) (s s' : State), s' = s.elapse dt →
      g < 4 → n < 256 → s'.flag EVT_CTRL.disable = false → s'.flag (svcValid g) = false → (∀ p ∈ s'.ev.selected, p.1 ≠ g) →
      ((if n < 16 then (g, n) ∈ s'.ev.pend else s'.flag (EVT_SRC_n.pending.src n) = true ∧ s'.routeOf n = g
      ∧ s'.flag (EVT_SRC_n.mask.src n) = false)) →
      (∀ m < n, ¬ (if m < 16 then (g, m) ∈ s'.ev.pend else s'.flag (EVT_SRC_n.pending.src m) = true ∧ s'.routeOf m = g
      ∧ s'.flag (EVT_SRC_n.mask.src m) = false)) →
      ∃ t, exec (.eventSelect dt g) s = .next t
        ∧ t.ev.selected = s'.ev.selected ++ [(g, n)] ∧ t.regs = s'.regs ∧ s'.sameBut t [.ev])

/-- The axle lock states and what moves between them (R61, R62, R539). Acquiring ends locked once the reference is present with
REFCLK ready; the fourth missing edge takes a locked device to holdover with event 16; a misaligned edge takes it to holdover
with slip set; a return that is aligned locks again and one that is not slips; the start-up timeout enters holdover with
axle_free. In all of them the count never steps. In every clause, the parts of the state, the register fields and the bytes of
memory that it does not list keep their values. Each clause first lets the dt axle ticks of its command pass. Its clauses
conclude that exec ANSWERS A NEXT STATE with the command's own effect, for every state and operands that meet hypotheses on
these alone; so these COMPLETE: axleLockAcquired, axleHoldoverEntry, axleRefMisalignedEdge, axleRefReturn, axleLockTimeout. What
the spec leaves open in it is the model's choice or reading: log entry 1. -/
def Obligations.AxleLockStates : Prop :=
  -- axleLockAcquired
    (∀ (dt : Nat) (s s' : State), s' = s.elapse dt →
      s'.get HEAD_AXLE_STATUS.lock = 0 → s'.flag CLK_STATUS.refclk_ready = true →
      ∃ t, exec (.axleLockAcquired dt) s = .next t
        ∧ t.get HEAD_AXLE_STATUS.lock = 1 ∧ t.axle.refPresent = true ∧ t.count = s'.count ∧ s'.sameBut t [.regs, .axle]
        ∧ s'.regsBut t [HEAD_AXLE_STATUS.lock, CLK_STATUS.axle_ready, HEAD_BOOT_STATUS.axle_free])
  ∧ -- axleHoldoverEntry
    (∀ (dt : Nat) (s s' : State), s' = s.elapse dt →
      s'.get HEAD_AXLE_STATUS.lock = 1 →
      ∃ t, exec (.axleHoldoverEntry dt) s = .next t
        ∧ t.get HEAD_AXLE_STATUS.lock = 2 ∧ t.axle.refPresent = false ∧ t.lastEvent = some (16, 0, 0) ∧ t.count = s'.count
        ∧ s'.sameBut t [.regs, .axle, .ev] ∧ s'.regsBut t [HEAD_AXLE_STATUS.lock, CLK_STATUS.axle_ready])
  ∧ -- axleRefMisalignedEdge
    (∀ (dt : Nat) (s s' : State), s' = s.elapse dt →
      s'.get HEAD_AXLE_STATUS.lock = 1 → s'.aligned = false →
      ∃ t, exec (.axleRefMisalignedEdge dt) s = .next t
        ∧ t.get HEAD_AXLE_STATUS.lock = 2 ∧ t.flag HEAD_AXLE_STATUS.slip = true ∧ t.axle.afterSlip = true ∧ t.count = s'.count
        ∧ s'.sameBut t [.regs, .axle, .turn, .ev]
        ∧ s'.regsBut t [HEAD_AXLE_STATUS.slip, HEAD_AXLE_STATUS.lock, CLK_STATUS.axle_ready])
  ∧ -- axleRefReturn
    (∀ (dt : Nat) (s s' : State), s' = s.elapse dt →
      s'.get HEAD_AXLE_STATUS.lock = 2 → s'.axle.afterSlip = false → s'.aligned = true →
      ∃ t, exec (.axleRefReturn dt) s = .next t
        ∧ t.get HEAD_AXLE_STATUS.lock = 1 ∧ t.axle.refPresent = true ∧ t.count = s'.count ∧ s'.sameBut t [.regs, .axle]
        ∧ s'.regsBut t [HEAD_AXLE_STATUS.lock, CLK_STATUS.axle_ready, HEAD_BOOT_STATUS.axle_free])
  ∧ -- axleRefReturn
    (∀ (dt : Nat) (s s' : State), s' = s.elapse dt →
      s'.get HEAD_AXLE_STATUS.lock = 2 → s'.axle.afterSlip = false → s'.aligned = false →
      ∃ t, exec (.axleRefReturn dt) s = .next t
        ∧ t.get HEAD_AXLE_STATUS.lock = 2 ∧ t.flag HEAD_AXLE_STATUS.slip = true ∧ t.axle.afterSlip = true ∧ t.count = s'.count
        ∧ s'.sameBut t [.regs, .axle, .turn, .ev]
        ∧ s'.regsBut t [HEAD_AXLE_STATUS.slip, CLK_STATUS.axle_ready, HEAD_BOOT_STATUS.axle_free])
  ∧ -- axleLockTimeout
    (∀ (dt : Nat) (s s' : State), s' = s.elapse dt →
      s'.get HEAD_BOOT_STATUS.step = 5 → s'.get HEAD_AXLE_STATUS.lock = 0 → s'.flag CLK_STATUS.refclk_ready = true →
      ∃ t, exec (.axleLockTimeout dt) s = .next t
        ∧ t.get HEAD_AXLE_STATUS.lock = 2 ∧ t.flag HEAD_BOOT_STATUS.axle_free = true ∧ t.lastEvent = some (16, 0, 0)
        ∧ t.count = s'.count ∧ s'.sameBut t [.regs, .ev]
        ∧ s'.regsBut t [HEAD_AXLE_STATUS.lock, CLK_STATUS.axle_ready, HEAD_BOOT_STATUS.axle_free])

/-- An arm write latches V, takes effect after 1 µs, or is refused; disarm cancels every arm (R64). An accepted arm write latches a
V that is a multiple of 16 and refuses any other with arm_error; disarm cancels every arm; a pending arm comes into force once 1
µs has passed. In every clause, the parts of the state, the register fields and the bytes of memory that it does not list keep
their values. Each clause first lets the dt axle ticks of its command pass. Its clauses conclude that exec ANSWERS A NEXT STATE
with the command's own effect, for every state and operands that meet hypotheses on these alone; so these COMPLETE: arm, disarm,
armTakesEffect. What the spec leaves open in it is the model's choice or reading: log entry 1. -/
def Obligations.ArmingALoad : Prop :=
  -- arm
    (∀ (dt : Nat) (cmd : Nat) (s s' : State), s' = s.pass dt →
      s'.cmdRuns 2 [1, 2] = true → s'.get HEAD_AXLE_LOAD.value % 16 = 0 →
      ∃ t, exec (.arm dt cmd) s = .next t
        ∧ t.axle.pendingArms = s'.axle.pendingArms ++ [⟨s'.get HEAD_AXLE_LOAD.value, s'.ticks + 160⟩] ∧ t.count = s'.count
        ∧ t.lastResponse = some ⟨2, 0, 0, cmd, true, []⟩ ∧ s'.sameBut t [.regs, .axle, .port]
        ∧ s'.regsBut t [HEAD_AXLE_STATUS.armed, HEAD_AXLE_CTRL.arm])
  ∧ -- arm
    (∀ (dt : Nat) (cmd : Nat) (s s' : State), s' = s.pass dt →
      s'.cmdRuns 2 [1, 2] = true → s'.get HEAD_AXLE_LOAD.value % 16 ≠ 0 →
      ∃ t, exec (.arm dt cmd) s = .next t
        ∧ t.flag HEAD_AXLE_STATUS.arm_error = true ∧ t.axle = s'.axle ∧ s'.sameBut t [.regs, .port]
        ∧ s'.regsBut t [HEAD_AXLE_STATUS.arm_error])
  ∧ -- disarm
    (∀ (dt : Nat) (cmd : Nat) (s s' : State), s' = s.pass dt →
      s'.cmdRuns 2 [1, 2] = true →
      ∃ t, exec (.disarm dt cmd) s = .next t
        ∧ t.axle.pendingArms = [] ∧ t.axle.inForce = none ∧ t.flag HEAD_AXLE_STATUS.armed = false
        ∧ s'.sameBut t [.regs, .axle, .port] ∧ s'.regsBut t [HEAD_AXLE_STATUS.armed, HEAD_AXLE_CTRL.arm])
  ∧ -- armTakesEffect
    (∀ (dt : Nat) (a : Arm) (rest : List Arm) (s s' : State), s' = s.elapse dt →
      s'.axle.pendingArms = a :: rest → a.due ≤ s'.ticks →
      ∃ t, exec (.armTakesEffect dt) s = .next t
        ∧ t.axle.inForce = some a.value ∧ t.axle.pendingArms = rest ∧ t.flag HEAD_AXLE_STATUS.armed = true
        ∧ s'.sameBut t [.regs, .axle] ∧ s'.regsBut t [HEAD_AXLE_STATUS.armed, HEAD_AXLE_CTRL.arm])

/-- Events that arrive are counted, become pending and are streamed; channel 4 takes the records that are due (R95, R287, R402,
R403, R404, R500, R507). The event at position i of those on their way leaves them, its source counts it and becomes pending,
and a source whose stream bit is set holds its record for 64 axle ticks; a packet does the same for a unit that is not of the
head. After the emission no held record is older than 64 axle ticks; room that returns lets a loss record through; a progress
record of the running long command follows 10 ms after the one before, while there is room; and the telemetry period restarts
when it has passed. In every clause, the parts of the state, the register fields and the bytes of memory that it does not list
keep their values. Each clause first lets the dt axle ticks of its command pass. Its clauses conclude that exec ANSWERS A NEXT
STATE with the command's own effect, for every state and operands that meet hypotheses on these alone; so these COMPLETE:
eventArrival, eventRecordPacket, eventRecordEmit, streamRoomReturns, progressRecord, telemetryPeriod. What the spec leaves open
in it is the model's choice or reading: log entries 1, 10. -/
def Obligations.EventRecords : Prop :=
  -- eventArrival
    (∀ (dt : Nat) (i : Nat) (e : EvRec) (s s' : State), s' = s.elapse dt →
      s'.ev.inflight[i]? = some e →
      ∃ t, exec (.eventArrival dt i) s = .next t
        ∧ t.flag (EVT_SRC_n.pending.src e.num) = true
        ∧ t.get (EVT_SRC_n.count.src e.num) = min (2 ^ EVT_SRC_n.count.w - 1) (s'.get (EVT_SRC_n.count.src e.num) + 1)
        ∧ t.ev.inflight = s'.ev.inflight.eraseIdx i ∧ (e.num < 16 → t.ev.held = s'.ev.held ++ [e]) ∧ t.mem = s'.mem
        ∧ s'.sameBut t [.regs, .ev, .sbx] ∧ s'.regsBut t [EVT_SRC_n.pending.src e.num, EVT_SRC_n.count.src e.num])
  ∧ -- eventRecordPacket
    (∀ (dt : Nat) (i : Nat) (e : EvRec) (s s' : State), s' = s.elapse dt →
      s'.ev.inflight[i]? = some e → e.coord < 10240 →
      ∃ t, exec (.eventRecordPacket dt i) s = .next t
        ∧ t.flag (EVT_SRC_n.pending.src e.num) = true
        ∧ t.get (EVT_SRC_n.count.src e.num) = min (2 ^ EVT_SRC_n.count.w - 1) (s'.get (EVT_SRC_n.count.src e.num) + 1)
        ∧ t.ev.inflight = s'.ev.inflight.eraseIdx i ∧ (e.num < 16 → t.ev.held = s'.ev.held ++ [e]) ∧ t.mem = s'.mem
        ∧ s'.sameBut t [.regs, .ev, .sbx] ∧ s'.regsBut t [EVT_SRC_n.pending.src e.num, EVT_SRC_n.count.src e.num])
  ∧ -- eventRecordEmit
    (∀ (dt : Nat) (s s' : State), s' = s.elapse dt →
      ∃ t, exec (.eventRecordEmit dt) s = .next t
        ∧ t.ev.held = s'.ev.held.filter (fun e => !decide (e.tick + 64 ≤ s'.ticks)) ∧ t.ev.inflight = s'.ev.inflight
        ∧ s'.sameBut t [.regs, .ev] ∧ s'.regsBut t [EVT_STREAM.lost])
  ∧ -- streamRoomReturns
    (∀ (dt : Nat) (k n : Nat) (s s' : State), s' = s.elapse dt →
      s'.ev.lost = [(k, n)] → s'.ev.stream.length < 65536 →
      ∃ t, exec (.streamRoomReturns dt) s = .next t
        ∧ t.ev.lost = [] ∧ t.ev.stream = s'.ev.stream ++ [⟨4, s'.count, s'.spokeCycle, 0, k, n, 0⟩] ∧ s'.sameBut t [.ev])
  ∧ -- progressRecord
    (∀ (dt : Nat) (c : LongCmd) (s s' : State), s' = s.elapse dt →
      s'.port.long = some c → s'.port.progTick + 1600000 ≤ s'.ticks → s'.ev.stream.length < 65536 →
      ∃ t, exec (.progressRecord dt) s = .next t
        ∧ t.port.progTick = s'.ticks ∧ t.ev.stream = s'.ev.stream ++ [⟨3, s'.count, s'.spokeCycle, 0, c.opcode, c.got, c.cmdId⟩]
        ∧ s'.sameBut t [.ev, .port])
  ∧ -- telemetryPeriod
    (∀ (dt : Nat) (s s' : State), s' = s.pass dt →
      s'.get CTL_TELEM_CFG.period ≠ 0 → s'.port.teleTick + 160000 * s'.get CTL_TELEM_CFG.period ≤ s'.ticks → s'.flips = [] →
      ∃ t, exec (.telemetryPeriod dt) s = .next t
        ∧ t.port.teleTick = s'.ticks ∧ s'.sameBut t [.regs, .turn, .ev, .port, .sbx, .tile, .rep])
  ∧ -- telemetryPeriod
    (∀ (dt : Nat) (s s' : State), s' = s.pass dt →
      s'.get CTL_TELEM_CFG.period ≠ 0 → s'.port.teleTick + 160000 * s'.get CTL_TELEM_CFG.period ≤ s'.ticks →
      ∃ t, exec (.telemetryPeriod dt) s = .next t
        ∧ t.port.teleTick = s'.ticks)

/-- Selection, delivery and end of service at a guard, masks and the global disable (R502, R503, R505). An idle guard selects its
lowest selectable source; a selected source is delivered as the guard's service number and goes into service; the end of service
frees the guard; a guard masks a source routed to it; the global disable is what was written. In every clause, the parts of the
state, the register fields and the bytes of memory that it does not list keep their values. Each clause first lets the dt axle
ticks of its command pass. Its clauses conclude that exec ANSWERS A NEXT STATE with the command's own effect, for every state
and operands that meet hypotheses on these alone; so these COMPLETE: eventSelect, eventDeliver, guardEndOfService,
guardMaskWrite, globalDisableWrite. What the spec leaves open in it is the model's choice or reading: log entry 1. -/
def Obligations.EventService : Prop :=
  -- eventSelect
    (∀ (dt : Nat) (g n : Nat) (s s' : State), s' = s.elapse dt →
      g < 4 → s'.flag EVT_CTRL.disable = false → s'.flag (svcValid g) = false → (s'.ev.selected.any fun p => p.1 == g) = false →
      s'.selectable g = some n →
      ∃ t, exec (.eventSelect dt g) s = .next t
        ∧ t.ev.selected = s'.ev.selected ++ [(g, n)] ∧ t.regs = s'.regs ∧ s'.sameBut t [.ev])
  ∧ -- eventDeliver
    (∀ (dt : Nat) (g n : Nat) (s s' : State), s' = s.elapse dt →
      s'.ev.selected.find? (fun p => p.1 == g) = some (g, n) → g < 4 → n < 256 →
      ∃ t, exec (.eventDeliver dt g) s = .next t
        ∧ t.flag (svcValid g) = true ∧ t.get (svc g) = n ∧ t.flag (EVT_SRC_n.in_service.src n) = true
        ∧ (t.ev.selected.any fun p => p.1 == g) = false ∧ s'.sameBut t [.regs, .ev]
        ∧ s'.regsBut t [svc g, svcValid g, EVT_SRC_n.pending.src n, EVT_SRC_n.in_service.src n])
  ∧ -- guardEndOfService
    (∀ (dt : Nat) (g : Nat) (s s' : State), s' = s.elapse dt →
      g < 4 → s'.flag (svcValid g) = true →
      ∃ t, exec (.guardEndOfService dt g) s = .next t
        ∧ t.flag (svcValid g) = false ∧ t.get (svc g) = 0 ∧ t.mem = s'.mem ∧ s'.sameBut t [.regs]
        ∧ s'.regsBut t [svc g, svcValid g, EVT_SRC_n.in_service.src (s'.get (svc g))])
  ∧ -- guardMaskWrite
    (∀ (dt : Nat) (g n : Nat) (m : Bool) (s s' : State), s' = s.elapse dt →
      16 ≤ n → n < 256 → s'.routeOf n = g →
      ∃ t, exec (.guardMaskWrite dt g n m) s = .next t
        ∧ t.flag (EVT_SRC_n.mask.src n) = m ∧ t.mem = s'.mem ∧ t.ev = s'.ev ∧ s'.sameBut t [.regs]
        ∧ s'.regsBut t [EVT_SRC_n.mask.src n])
  ∧ -- globalDisableWrite
    (∀ (dt : Nat) (b : Bool) (s s' : State), s' = s.elapse dt →
      ∃ t, exec (.globalDisableWrite dt b) s = .next t
        ∧ t.flag EVT_CTRL.disable = b ∧ (∀ f : Fld, f.fits → EVT_CTRL.disable.apart f → t.get f = s'.get f) ∧ t.mem = s'.mem
        ∧ t.ev = s'.ev ∧ s'.sameBut t [.regs] ∧ s'.regsBut t [EVT_CTRL.disable])

/-- Words pass through a mailbox in order, eight at most, and the host is answered (R405, R406, R407, R409). A send at a guard end
with room appends the word; a receive takes the oldest word and leaves the rest; a receive with no word sets underrun; a send of
the host is answered on channel 1 with the status of its end; nothing in memory changes. In every clause, the parts of the
state, the register fields and the bytes of memory that it does not list keep their values. Each clause first lets the dt axle
ticks of its command pass. Its clauses conclude that exec ANSWERS A NEXT STATE with the command's own effect, for every state
and operands that meet hypotheses on these alone; so these COMPLETE: mbxSend, mbxRecv. What the spec leaves open in it is the
model's choice or reading: log entry 1. -/
def Obligations.MailboxWords : Prop :=
  -- mbxSend
    (∀ (dt : Nat) (m e ident v : Nat) (s s' : State), s' = s.elapse dt →
      m < 28 → e < 2 → (mbxGuard m e).isSome = true → (s'.mbxOutOf m e).words.length < 8 →
      ∃ t, exec (.mbxSend dt false m e ident v) s = .next t
        ∧ (t.mbxOutOf m e).words = (s'.mbxOutOf m e).words ++ [v % 2 ^ 64] ∧ t.mem = s'.mem
        ∧ s'.sameBut t [.regs, .ev, .port, .mbx] ∧ s'.regsBut t [MBX_BELL.bell.page m (1 - e)])
  ∧ -- mbxSend
    (∀ (dt : Nat) (m ident v : Nat) (s s' : State), s' = s.elapse dt →
      m < 16 → (s'.mbxOutOf m 0).words.length < 8 →
      ∃ t, exec (.mbxSend dt true m 0 ident v) s = .next t
        ∧ (t.mbxOutOf m 0).words = (s'.mbxOutOf m 0).words ++ [v % 2 ^ 64]
        ∧ t.port.mbxOut.getLast? = some ⟨1, m, 0, ident, t.mbxStatus m 0⟩ ∧ t.mem = s'.mem
        ∧ s'.sameBut t [.regs, .ev, .port, .mbx] ∧ s'.regsBut t [MBX_BELL.bell.page m 1])
  ∧ -- mbxRecv
    (∀ (dt : Nat) (m e ident w : Nat) (ws : List Nat) (s s' : State), s' = s.elapse dt →
      m < 28 → e < 2 → (mbxGuard m e).isSome = true → (s'.mbxOutOf m (1 - e)).words = w :: ws →
      ∃ t, exec (.mbxRecv dt false m e ident) s = .next t
        ∧ (t.mbxOutOf m (1 - e)).words = ws ∧ t.regs = s'.regs ∧ t.mem = s'.mem ∧ s'.sameBut t [.mbx])
  ∧ -- mbxRecv
    (∀ (dt : Nat) (m e ident : Nat) (s s' : State), s' = s.elapse dt →
      m < 28 → e < 2 → (mbxGuard m e).isSome = true → (s'.mbxOutOf m (1 - e)).words = [] →
      ∃ t, exec (.mbxRecv dt false m e ident) s = .next t
        ∧ t.flag (MBX_STATUS.underrun.page m e) = true ∧ t.mbx = s'.mbx ∧ s'.sameBut t [.regs]
        ∧ s'.regsBut t [MBX_STATUS.underrun.page m e])
  ∧ -- mbxRecv
    (∀ (dt : Nat) (m ident w : Nat) (ws : List Nat) (s s' : State), s' = s.elapse dt →
      m < 16 → (s'.mbxOutOf m 1).words = w :: ws →
      ∃ t, exec (.mbxRecv dt true m 0 ident) s = .next t
        ∧ (t.mbxOutOf m 1).words = ws ∧ t.port.mbxOut.getLast? = some ⟨2, m, 0, ident, w⟩ ∧ s'.sameBut t [.port, .mbx])

/-- Doorbells, masks, status, control and timeout of a mailbox (R407, R408, R409, R410, R504). A ring sets bits at the other end; a
clear clears the bits written; a mask write sets the mask; a status read of the host is answered with the status; a control
write sets the timeout within 1 to 1,000,000 µs; an expired timer sets timeout and raises event 232. In every clause, the parts
of the state, the register fields and the bytes of memory that it does not list keep their values. Each clause first lets the dt
axle ticks of its command pass. Its clauses conclude that exec ANSWERS A NEXT STATE with the command's own effect, for every
state and operands that meet hypotheses on these alone; so these COMPLETE: mbxRing, mbxBellClear, mbxMaskWrite, mbxStatusRead,
mbxCtrlWrite, mbxTimeout. What the spec leaves open in it is the model's choice or reading: log entry 1. -/
def Obligations.MailboxSignals : Prop :=
  -- mbxRing
    (∀ (dt : Nat) (m e ident v : Nat) (s s' : State), s' = s.elapse dt →
      m < 28 → e < 2 → (mbxGuard m e).isSome = true →
      ∃ t, exec (.mbxRing dt false m e ident v) s = .next t
        ∧ t.get (MBX_BELL.bell.page m (1 - e)) = (s'.get (MBX_BELL.bell.page m (1 - e)) ||| v % 2 ^ 32) ∧ t.mbx = s'.mbx
        ∧ t.mem = s'.mem ∧ s'.sameBut t [.regs, .ev, .port] ∧ s'.regsBut t [MBX_BELL.bell.page m (1 - e)])
  ∧ -- mbxBellClear
    (∀ (dt : Nat) (m e ident v : Nat) (s s' : State), s' = s.elapse dt →
      m < 28 → e < 2 → (mbxGuard m e).isSome = true →
      ∃ t, exec (.mbxBellClear dt false m e ident v) s = .next t
        ∧ t.get (MBX_BELL.bell.page m e) = (s'.get (MBX_BELL.bell.page m e) &&& (2 ^ 32 - 1 - v % 2 ^ 32)) ∧ t.mbx = s'.mbx
        ∧ t.mem = s'.mem ∧ s'.sameBut t [.regs] ∧ s'.regsBut t [MBX_BELL.bell.page m e])
  ∧ -- mbxMaskWrite
    (∀ (dt : Nat) (m e ident v : Nat) (s s' : State), s' = s.elapse dt →
      m < 28 → e < 2 → (mbxGuard m e).isSome = true →
      ∃ t, exec (.mbxMaskWrite dt false m e ident v) s = .next t
        ∧ t.get (MBX_MASK.mask.page m e) = v % 2 ^ 32 ∧ t.mbx = s'.mbx ∧ t.mem = s'.mem ∧ s'.sameBut t [.regs, .ev, .port]
        ∧ s'.regsBut t [MBX_MASK.mask.page m e])
  ∧ -- mbxStatusRead
    (∀ (dt : Nat) (m ident : Nat) (s s' : State), s' = s.elapse dt →
      m < 16 →
      ∃ t, exec (.mbxStatusRead dt true m 0 ident) s = .next t
        ∧ t.port.mbxOut.getLast? = some ⟨4, m, 0, ident, s'.mbxStatus m 0⟩ ∧ t.regs = s'.regs ∧ t.mbx = s'.mbx ∧ t.mem = s'.mem
        ∧ s'.sameBut t [.port])
  ∧ -- mbxCtrlWrite
    (∀ (dt : Nat) (m e ident v : Nat) (s s' : State), s' = s.elapse dt →
      m < 28 → e < 2 → (mbxGuard m e).isSome = true →
      ∃ t, exec (.mbxCtrlWrite dt false m e ident v) s = .next t
        ∧ t.get (MBX_CTRL.timeout.page m e) = max 1 (min (v % 2 ^ 20) 1000000) ∧ (v.testBit 32 = true →
        t.mbxOutOf m e = ⟨[], none⟩) ∧ t.mem = s'.mem ∧ s'.sameBut t [.regs, .mbx] ∧ s'.regsBut t [MBX_CTRL.timeout.page m e])
  ∧ -- mbxTimeout
    (∀ (dt : Nat) (m e x : Nat) (s s' : State), s' = s.elapse dt →
      (s'.mbxOutOf m e).timer = some x → x + 160 * s'.get (MBX_CTRL.timeout.page m e) ≤ s'.ticks →
      ∃ t, exec (.mbxTimeout dt m e) s = .next t
        ∧ t.flag (MBX_STATUS.timeout.page m e) = true ∧ t.mbxOutOf m e = ⟨(s'.mbxOutOf m e).words, none⟩
        ∧ t.lastEvent = some (232, m % 2 ^ 64, e % 2 ^ 64) ∧ s'.sameBut t [.regs, .ev, .port, .mbx]
        ∧ s'.regsBut t [MBX_STATUS.timeout.page m e])

/-- A program step issues at its offset, enters the checksum and runs its operations in order (R73, R74, R102, R106, R107, R192,
R287, R365, R417). While the schedule clock runs and reaches the offset of the next action of its list, the sequencer of a
working tile issues it: the 16 bytes of the action enter the CRC-32C register of the tile, and the operations of the step run
one after another on the state so reached. A write of a port that does not trap joins the writes of the open CORE cycle by the
port's priority; a row group runs on the array from then on; a panel load copies tower words into a panel store; an injection
sends its packet. In every clause, the parts of the state, the register fields and the bytes of memory that it does not list
keep their values. Each clause first lets the dt axle ticks of its command pass. Its clauses conclude that exec ANSWERS A NEXT
STATE with the command's own effect, for every state and operands that meet hypotheses on these alone; so these COMPLETE:
actionProgramStep. What the spec leaves open in it is the model's choice or reading: log entries 1, 9, 45. -/
def Obligations.ProgramStep : Prop :=
  -- actionProgramStep
    (∀ (dt : Nat) (n i : Nat) (a : SchedAction) (ops : List ProgOp) (ups : List Upset) (s s' u : State), s' = s.pass dt → u = s'.issued n a →
      s'.action n i = some a → s'.clockAtOffset a.offset = true → i = s'.issuedBy n → a.kind = 1 →
      s'.get (TILE_STATE.state.tile n) ≠ 0 → s'.tileClock n = true →
      exec (.actionProgramStep dt n i ops ups) s = .next (ops.foldl (fun (u : State) o => u.progOp n a.offset o) (u.upset ups)))
  ∧ -- actionProgramStep
    (∀ (dt : Nat) (n i : Nat) (a : SchedAction) (s s' : State), s' = s.pass dt →
      s'.action n i = some a → s'.clockAtOffset a.offset = true → i = s'.issuedBy n → a.kind = 1 →
      s'.get (TILE_STATE.state.tile n) ≠ 0 → s'.tileClock n = true →
      ∃ t, exec (.actionProgramStep dt n i [] []) s = .next t
        ∧ t.issuedBy n = (s'.atOffset a.offset).issuedBy n + 1
        ∧ Sparse.find t.tile.sums n = some (crcMore ((Sparse.find (s'.atOffset a.offset).tile.sums n).getD 0xFFFFFFFF) (actionBytes a))
        ∧ (s'.atOffset a.offset).sameBut t [.tile])
  ∧ -- actionProgramStep
    (∀ (dt : Nat) (n i : Nat) (a : SchedAction) (p : Port) (off : Nat) (d : List Byte) (s s' u : State), s' = s.pass dt → u = s'.issued n a →
      s'.action n i = some a → s'.clockAtOffset a.offset = true → i = s'.issuedBy n → a.kind = 1 →
      s'.get (TILE_STATE.state.tile n) ≠ 0 → s'.tileClock n = true → u.portTrap n p off d.length localWrite = 0 →
      ∃ t, exec (.actionProgramStep dt n i [.write p off d] []) s = .next t
        ∧ t.tile.late = (cutRows off d).foldl (fun (l : List Late) w => insertLate ⟨n, bankOf w.1, spadKey n w.1, portPrio p,
          0, none, none, w.2⟩ l) u.tile.late
        ∧ u.sameBut t [.regs, .ev, .tile] ∧ u.regsBut t (hazardFields n))
  ∧ -- actionProgramStep
    (∀ (dt : Nat) (n i : Nat) (a : SchedAction) (set line lines layer entry : Nat) (s s' u : State), s' = s.pass dt → u = s'.issued n a →
      s'.action n i = some a → s'.clockAtOffset a.offset = true → i = s'.issuedBy n → a.kind = 1 →
      s'.get (TILE_STATE.state.tile n) ≠ 0 → s'.tileClock n = true → 0 < lines →
      ∃ t, exec (.actionProgramStep dt n i [.rowGroup set line lines layer entry] []) s = .next t
        ∧ t.tile.arrays = u.tile.arrays ++ [.group n set line lines layer entry 0] ∧ u.sameBut t [.tile])
  ∧ -- actionProgramStep
    (∀ (dt : Nat) (n i : Nat) (a : SchedAction) (store o words : Nat) (s s' u : State), s' = s.pass dt → u = s'.issued n a →
      s'.action n i = some a → s'.clockAtOffset a.offset = true → i = s'.issuedBy n → a.kind = 1 →
      s'.get (TILE_STATE.state.tile n) ≠ 0 → s'.tileClock n = true → Memory.wf s'.mem = true →
      ∃ t, exec (.actionProgramStep dt n i [.panelLoad store o words] []) s = .next t
        ∧ t.bytes (panelKey n store 0) (68 * words) = u.bytes (towerBase ((n - 9216) / 32) + o) (68 * words)
        ∧ u.memBut t [(panelKey n store 0, 68 * words)] ∧ u.sameBut t [.mem])
  ∧ -- actionProgramStep
    (∀ (dt : Nat) (n i : Nat) (a : SchedAction) (p : Packet) (s s' u : State), s' = s.pass dt → u = s'.issued n a →
      s'.action n i = some a → s'.clockAtOffset a.offset = true → i = s'.issuedBy n → a.kind = 1 →
      s'.get (TILE_STATE.state.tile n) ≠ 0 → s'.tileClock n = true → p.ty ≠ 5 →
      ∃ t, exec (.actionProgramStep dt n i [.inject p true] []) s = .next t
        ∧ t.net.fly = u.net.fly ++ [p] ∧ u.sameBut t [.net])

/-- Scheduled pushes and pops move the pointers of a circular region, modulo its slots (R114, R115, R116, R117). A scheduled push or
pop joins the pushes and pops that are decided at the end of its CORE cycle. Where no other is there, a legal push of 1 to 16
slots then moves the tail by them and raises the count, a legal pop moves the head and lowers the count, both modulo N, with the
state of the region. One that is not legal changes no pointer and traps, with kind 0x4 for a push and 0x5 for a pop. A remote
push that has become legal is applied alike and waits no longer. In every clause, the parts of the state, the register fields
and the bytes of memory that it does not list keep their values. Each clause first lets the dt axle ticks of its command pass.
Its clauses conclude that exec ANSWERS A NEXT STATE with the command's own effect, for every state and operands that meet
hypotheses on these alone; so these COMPLETE: actionPush, actionPop, waitingPushApplied. What the spec leaves open in it is the
model's choice or reading: log entries 1, 45. -/
def Obligations.CircularRegions : Prop :=
  -- actionPush
    (∀ (dt : Nat) (n i : Nat) (a : SchedAction) (s s' u : State), s' = s.pass dt → u = s'.issued n a →
      s'.action n i = some a → s'.clockAtOffset a.offset = true → i = s'.issuedBy n → a.kind = 4 →
      s'.get (TILE_STATE.state.tile n) ≠ 0 → s'.tileClock n = true → u.circ n (a.chan % 16) TILE_CIRC_CFG_n.enable ≠ 0 →
      u.tile.circ = [] → 1 ≤ a.operand → a.operand ≤ 16 → u.pushLegal n (a.chan % 16) a.operand = true →
      ∃ t, exec (.actionPush dt n i) s = .next t
        ∧ t.tile.circ = [⟨n, (a.chan % 16), a.operand, 0, portCode .sequencer, false, none, false⟩]
        ∧ t.endCycle.circ n (a.chan % 16) TILE_CIRC_PTR_n.tail = (u.circ n (a.chan % 16) TILE_CIRC_PTR_n.tail + a.operand) %
          (u.circSlots n (a.chan % 16))
        ∧ t.endCycle.circ n (a.chan % 16) TILE_CIRC_PTR_n.count = u.circ n (a.chan % 16) TILE_CIRC_PTR_n.count + a.operand
        ∧ t.endCycle.circ n (a.chan % 16) TILE_CIRC_PTR_n.head = u.circ n (a.chan % 16) TILE_CIRC_PTR_n.head
        ∧ t.endCycle.circ n (a.chan % 16) TILE_CIRC_PTR_n.state = (if (u.circ n (a.chan % 16) TILE_CIRC_PTR_n.count +
          a.operand) = 0 then 1 else if (u.circ n (a.chan % 16) TILE_CIRC_PTR_n.count + a.operand) = (u.circSlots n (a.chan %
          16)) then 3 else 2)
        ∧ u.sameBut t [.tile])
  ∧ -- actionPush
    (∀ (dt : Nat) (n i : Nat) (a : SchedAction) (s s' u : State), s' = s.pass dt → u = s'.issued n a →
      s'.action n i = some a → s'.clockAtOffset a.offset = true → i = s'.issuedBy n → a.kind = 4 →
      s'.get (TILE_STATE.state.tile n) ≠ 0 → s'.tileClock n = true → u.circ n (a.chan % 16) TILE_CIRC_CFG_n.enable ≠ 0 →
      u.tile.circ = [] → u.pushLegal n (a.chan % 16) a.operand = false →
      ∃ t, exec (.actionPush dt n i) s = .next t
        ∧ t.tile.circ = [⟨n, (a.chan % 16), a.operand, 0, portCode .sequencer, false, none, false⟩]
        ∧ t.endCycle.tile.trapsDue = u.tile.trapsDue ++ [(n, portCode .sequencer, 4, (a.chan % 16))] ∧ t.endCycle.regs = u.regs
        ∧ u.sameBut t [.tile])
  ∧ -- actionPop
    (∀ (dt : Nat) (n i : Nat) (a : SchedAction) (s s' u : State), s' = s.pass dt → u = s'.issued n a →
      s'.action n i = some a → s'.clockAtOffset a.offset = true → i = s'.issuedBy n → a.kind = 5 →
      s'.get (TILE_STATE.state.tile n) ≠ 0 → s'.tileClock n = true → u.circ n (a.chan % 16) TILE_CIRC_CFG_n.enable ≠ 0 →
      u.tile.circ = [] → 1 ≤ a.operand → a.operand ≤ 16 → u.popLegal n (a.chan % 16) a.operand = true →
      ∃ t, exec (.actionPop dt n i) s = .next t
        ∧ t.tile.circ = [⟨n, (a.chan % 16), a.operand, 0, portCode .sequencer, true, none, false⟩]
        ∧ t.endCycle.circ n (a.chan % 16) TILE_CIRC_PTR_n.head = (u.circ n (a.chan % 16) TILE_CIRC_PTR_n.head + a.operand) %
          (u.circSlots n (a.chan % 16))
        ∧ t.endCycle.circ n (a.chan % 16) TILE_CIRC_PTR_n.count = u.circ n (a.chan % 16) TILE_CIRC_PTR_n.count - a.operand
        ∧ t.endCycle.circ n (a.chan % 16) TILE_CIRC_PTR_n.tail = u.circ n (a.chan % 16) TILE_CIRC_PTR_n.tail
        ∧ t.endCycle.circ n (a.chan % 16) TILE_CIRC_PTR_n.state = (if (u.circ n (a.chan % 16) TILE_CIRC_PTR_n.count -
          a.operand) = 0 then 1 else if (u.circ n (a.chan % 16) TILE_CIRC_PTR_n.count - a.operand) = (u.circSlots n (a.chan %
          16)) then 3 else 2)
        ∧ u.sameBut t [.tile])
  ∧ -- actionPop
    (∀ (dt : Nat) (n i : Nat) (a : SchedAction) (s s' u : State), s' = s.pass dt → u = s'.issued n a →
      s'.action n i = some a → s'.clockAtOffset a.offset = true → i = s'.issuedBy n → a.kind = 5 →
      s'.get (TILE_STATE.state.tile n) ≠ 0 → s'.tileClock n = true → u.circ n (a.chan % 16) TILE_CIRC_CFG_n.enable ≠ 0 →
      u.tile.circ = [] → u.popLegal n (a.chan % 16) a.operand = false →
      ∃ t, exec (.actionPop dt n i) s = .next t
        ∧ t.tile.circ = [⟨n, (a.chan % 16), a.operand, 0, portCode .sequencer, true, none, false⟩]
        ∧ t.endCycle.tile.trapsDue = u.tile.trapsDue ++ [(n, portCode .sequencer, 5, (a.chan % 16))] ∧ t.endCycle.regs = u.regs
        ∧ u.sameBut t [.tile])
  ∧ -- waitingPushApplied
    (∀ (dt : Nat) (n c : Nat) (w : Wait) (s s' : State), s' = s.pass dt →
      (s'.tile.waits.find? fun (x : Wait) => x.tile == n && x.circ == c && (if x.pop then s'.popLegal n c x.n else s'.pushLegal
        n c x.n)) = some w →
      w.origin = none → w.pop = false → c < 16 →
      ∃ t, exec (.waitingPushApplied dt n c) s = .next t
        ∧ t.circ n c TILE_CIRC_PTR_n.count = s'.circ n c TILE_CIRC_PTR_n.count + w.n
        ∧ t.circ n c TILE_CIRC_PTR_n.tail = (s'.circ n c TILE_CIRC_PTR_n.tail + w.n) % s'.circSlots n c
        ∧ t.tile.waits = s'.tile.waits.erase w ∧ t.mem = s'.mem ∧ s'.sameBut t [.regs, .tile]
        ∧ s'.regsBut t [(TILE_CIRC_PTR_n.state.tile n).off (16 * c), (TILE_CIRC_PTR_n.count.tile n).off (16 * c),
          (TILE_CIRC_PTR_n.tail.tile n).off (16 * c), (TILE_CIRC_PTR_n.head.tile n).off (16 * c)])

/-- Fills and copies of the sequencer write their rows, and their completion is reported (R111, R112, R309). A fill whose rows are
well placed queues the constant for every row; a copy, of which no two destination rows overlap, queues the bytes that its
source rows held when it began, as if the source had been read whole. Where no other write waits, every destination row holds
them once the write slots have run. Either is then under way at channel 8 of the tile until its last row has committed. A cart
issue places the descriptor in the queue of the channel, or counts an overrun when four wait. In every clause, the parts of the
state, the register fields and the bytes of memory that it does not list keep their values. Each clause first lets the dt axle
ticks of its command pass. Its clauses conclude that exec ANSWERS A NEXT STATE with the command's own effect, for every state
and operands that meet hypotheses on these alone; so these COMPLETE: actionFill, actionCopy, fillCopyComplete, actionCartIssue.
What the spec leaves open in it is the model's choice or reading: log entries 1, 48. -/
def Obligations.FillsAndCopies : Prop :=
  -- actionFill
    (∀ (dt : Nat) (n i : Nat) (a : SchedAction) (d : Desc) (s s' u : State), s' = s.pass dt → u = s'.issued n a →
      s'.action n i = some a → s'.clockAtOffset a.offset = true → i = s'.issuedBy n → a.kind = 6 →
      s'.get (TILE_STATE.state.tile n) ≠ 0 → s'.tileClock n = true → d = parseDesc (u.readPort n .fillCopy a.operand 64).1 →
      (u.readPort n .fillCopy a.operand 64).2.fillTrap n d false = none → u.tile.late = [] →
      ((∀ p ∈ u.flips, p.1 + 8 ≤ spadKey n a.operand ∨ spadKey n a.operand + 64 ≤ p.1)) → Memory.wf s'.mem = true →
      ∃ t, exec (.actionFill dt n i) s = .next t
        ∧ (n, 8) ∈ t.tile.fills
        ∧ (∀ r ∈ descRows d, (t.cycles t.tile.late.length).bytes (spadKey n r.1) d.rowBytes = ((List.range (d.rowBytes /
          8)).flatMap fun _ => leBytes 8 d.fill))
        ∧ u.sameBut t [.regs, .ev, .tile] ∧ u.regsBut t (hazardFields n))
  ∧ -- actionCopy
    (∀ (dt : Nat) (n i : Nat) (a : SchedAction) (d : Desc) (s s' u : State), s' = s.pass dt → u = s'.issued n a →
      s'.action n i = some a → s'.clockAtOffset a.offset = true → i = s'.issuedBy n → a.kind = 7 →
      s'.get (TILE_STATE.state.tile n) ≠ 0 → s'.tileClock n = true → d = parseDesc (u.readPort n .fillCopy a.operand 64).1 →
      (u.readPort n .fillCopy a.operand 64).2.fillTrap n d true = none → u.tile.late = [] →
      ((∀ p ∈ u.flips, p.1 + 8 ≤ spadKey n a.operand ∨ spadKey n a.operand + 64 ≤ p.1)) → Memory.wf s'.mem = true → (d.rows ≤ 1
      ∨ d.rowBytes ≤ d.dstStride) → (∀ r ∈ descRows d, ∀ p ∈ u.flips, p.1 + 8 ≤ spadKey n r.2
      ∨ spadKey n r.2 + d.rowBytes ≤ p.1) →
      ∃ t, exec (.actionCopy dt n i) s = .next t
        ∧ (n, 8) ∈ t.tile.fills
        ∧ (∀ r ∈ descRows d, (t.cycles t.tile.late.length).bytes (spadKey n r.1) d.rowBytes = (u.bytes (spadKey n r.2) d.rowBytes))
        ∧ u.sameBut t [.regs, .ev, .tile] ∧ u.regsBut t (hazardFields n))
  ∧ -- fillCopyComplete
    (∀ (dt : Nat) (n ch : Nat) (s s' : State), s' = s.pass dt →
      s'.writing n ch = false →
      ∃ t, exec (.fillCopyComplete dt n ch) s = .next t
        ∧ t.tile.fills = s'.tile.fills.erase (n, ch) ∧ t.regs = s'.regs ∧ t.mem = s'.mem ∧ t.net = s'.net ∧ s'.sameBut t [.tile])
  ∧ -- actionCartIssue
    (∀ (dt : Nat) (n i : Nat) (a : SchedAction) (s s' u : State), s' = s.pass dt → u = s'.issued n a →
      s'.action n i = some a → s'.clockAtOffset a.offset = true → i = s'.issuedBy n → a.kind = 2 →
      s'.get (TILE_STATE.state.tile n) ≠ 0 → s'.tileClock n = true → (u.cart n (a.chan % 8)).queue.length < 4 →
      ∃ t, exec (.actionCartIssue dt n i) s = .next t
        ∧ (t.cart n (a.chan % 8)).queue = (u.cart n (a.chan % 8)).queue ++ [a.operand]
        ∧ t.get (TILE_CART_STATUS_n.queued.cart n (a.chan % 8)) = (u.cart n (a.chan % 8)).queue.length + 1
        ∧ u.sameBut t [.regs, .net]
        ∧ u.regsBut t [TILE_CART_STATUS_n.state.cart n (a.chan % 8), TILE_CART_STATUS_n.queued.cart n (a.chan % 8),
          TILE_CART_STATUS_n.overruns.cart n (a.chan % 8), TILE_CART_STATUS_n.reads_out.cart n (a.chan % 8)])
  ∧ -- actionCartIssue
    (∀ (dt : Nat) (n i : Nat) (a : SchedAction) (s s' u : State), s' = s.pass dt → u = s'.issued n a →
      s'.action n i = some a → s'.clockAtOffset a.offset = true → i = s'.issuedBy n → a.kind = 2 →
      s'.get (TILE_STATE.state.tile n) ≠ 0 → s'.tileClock n = true → 4 ≤ (u.cart n (a.chan % 8)).queue.length →
      ∃ t, exec (.actionCartIssue dt n i) s = .next t
        ∧ t.net = u.net
        ∧ t.get (TILE_CART_STATUS_n.overruns.cart n (a.chan % 8)) = min 255 (u.get (TILE_CART_STATUS_n.overruns.cart n (a.chan % 8)) + 1)
        ∧ t.lastEvent = some (88, a.chan % 8, 0) ∧ u.sameBut t [.regs, .ev]
        ∧ u.regsBut t [TILE_CART_STATUS_n.state.cart n (a.chan % 8), TILE_CART_STATUS_n.queued.cart n (a.chan % 8),
          TILE_CART_STATUS_n.overruns.cart n (a.chan % 8), TILE_CART_STATUS_n.reads_out.cart n (a.chan % 8)])

/-- Arrivals gather up the tree of a barrier, and the release comes down it (R303). A member that is not waiting arrives and waits;
a router takes an arrive flit of the present generation from a child port; a release flips the generation, clears what has
arrived and frees a member, whose releases increment. In every clause, the parts of the state, the register fields and the bytes
of memory that it does not list keep their values. Each clause first lets the dt axle ticks of its command pass. Its clauses
conclude that exec ANSWERS A NEXT STATE with the command's own effect, for every state and operands that meet hypotheses on
these alone; so these COMPLETE: actionBarrierArrive, barrierArriveFlit, barrierReleaseFlit. What the spec leaves open in it is
the model's choice or reading: log entries 1, 16, 21. -/
def Obligations.Barriers : Prop :=
  -- actionBarrierArrive
    (∀ (dt : Nat) (n i : Nat) (a : SchedAction) (s s' u : State), s' = s.pass dt → u = s'.issued n a →
      s'.action n i = some a → s'.clockAtOffset a.offset = true → i = s'.issuedBy n → a.kind = 3 →
      s'.get (TILE_STATE.state.tile n) ≠ 0 → s'.tileClock n = true → u.flag (TILE_BARRIER_b.valid.bar n (a.chan % 64)) = true →
      u.flag (TILE_BARRIER_b.member.bar n (a.chan % 64)) = true → u.flag (TILE_BARRIER_b.waiting.bar n (a.chan % 64)) = false →
      setBits (u.get (TILE_BARRIER_b.arrived.bar n (a.chan % 64))) 4 1 1 ≠ u.get (TILE_BARRIER_b.children.bar n (a.chan % 64))
        + 16 * u.get (TILE_BARRIER_b.member.bar n (a.chan % 64)) →
      ∃ t, exec (.actionBarrierArrive dt n i) s = .next t
        ∧ t.flag (TILE_BARRIER_b.waiting.bar n (a.chan % 64)) = true
        ∧ t.get (TILE_BARRIER_b.arrived.bar n (a.chan % 64)) = setBits (u.get (TILE_BARRIER_b.arrived.bar n (a.chan % 64))) 4 1 1
        ∧ u.sameBut t [.regs]
        ∧ u.regsBut t [TILE_BARRIER_b.gen.bar n (a.chan % 64), TILE_BARRIER_b.waiting.bar n (a.chan % 64),
          TILE_BARRIER_b.arrived.bar n (a.chan % 64), TILE_BARRIER_b.releases.bar n (a.chan % 64)])
  ∧ -- actionBarrierArrive
    (∀ (dt : Nat) (n i m : Nat) (a : SchedAction) (s s' u : State), s' = s.pass dt → u = s'.issued n a →
      s'.action n i = some a → s'.clockAtOffset a.offset = true → i = s'.issuedBy n → a.kind = 3 →
      s'.get (TILE_STATE.state.tile n) ≠ 0 → s'.tileClock n = true → u.flag (TILE_BARRIER_b.valid.bar n (a.chan % 64)) = true →
      u.flag (TILE_BARRIER_b.member.bar n (a.chan % 64)) = true → u.flag (TILE_BARRIER_b.waiting.bar n (a.chan % 64)) = false →
      setBits (u.get (TILE_BARRIER_b.arrived.bar n (a.chan % 64))) 4 1 1 = u.get (TILE_BARRIER_b.children.bar n (a.chan % 64))
        + 16 * u.get (TILE_BARRIER_b.member.bar n (a.chan % 64)) →
      u.get (TILE_BARRIER_b.parent.bar n (a.chan % 64)) < 4 →
      neighbour n (u.get (TILE_BARRIER_b.parent.bar n (a.chan % 64))) = some m →
      ∃ t, exec (.actionBarrierArrive dt n i) s = .next t
        ∧ t.flag (TILE_BARRIER_b.waiting.bar n (a.chan % 64)) = true
        ∧ t.net.hops = u.net.hops ++ [⟨m, (u.get (TILE_BARRIER_b.parent.bar n (a.chan % 64)) + 2) % 4, ⟨7, 0, 0, endpoint n,
          (a.chan % 64), 0, u.get (TILE_BARRIER_b.gen.bar n (a.chan % 64)), 0, 0, 0, 0, []⟩⟩]
        ∧ u.sameBut t [.regs, .net]
        ∧ u.regsBut t [TILE_BARRIER_b.gen.bar n (a.chan % 64), TILE_BARRIER_b.waiting.bar n (a.chan % 64),
          TILE_BARRIER_b.arrived.bar n (a.chan % 64), TILE_BARRIER_b.releases.bar n (a.chan % 64)])
  ∧ -- barrierArriveFlit
    (∀ (dt : Nat) (n port b : Nat) (h : Hop) (s s' : State), s' = s.pass dt →
      (s'.net.hops.find? fun (h : Hop) => h.tile == n && h.port == port && h.pkt.ty == 7 && h.pkt.dst == b) = some h → n < 10240 →
      b < 64 → port < 4 → s'.flag (TILE_BARRIER_b.valid.bar n b) = true → h.pkt.tag = s'.get (TILE_BARRIER_b.gen.bar n b) →
      (s'.get (TILE_BARRIER_b.children.bar n b)).testBit port = true →
      setBits (s'.get (TILE_BARRIER_b.arrived.bar n b)) port 1 1 ≠ s'.get (TILE_BARRIER_b.children.bar n b) + 16 * s'.get
        (TILE_BARRIER_b.member.bar n b) →
      ∃ t, exec (.barrierArriveFlit dt n port b) s = .next t
        ∧ t.get (TILE_BARRIER_b.arrived.bar n b) = setBits (s'.get (TILE_BARRIER_b.arrived.bar n b)) port 1 1
        ∧ t.net.hops = s'.net.hops.erase h ∧ t.mem = s'.mem ∧ s'.sameBut t [.regs, .net]
        ∧ s'.regsBut t [TILE_BARRIER_b.gen.bar n b, TILE_BARRIER_b.waiting.bar n b, TILE_BARRIER_b.arrived.bar n b,
          TILE_BARRIER_b.releases.bar n b])
  ∧ -- barrierArriveFlit
    (∀ (dt : Nat) (n port b m : Nat) (h : Hop) (s s' : State), s' = s.pass dt →
      (s'.net.hops.find? fun (h : Hop) => h.tile == n && h.port == port && h.pkt.ty == 7 && h.pkt.dst == b) = some h → n < 10240 →
      b < 64 → port < 4 → s'.flag (TILE_BARRIER_b.valid.bar n b) = true → h.pkt.tag = s'.get (TILE_BARRIER_b.gen.bar n b) →
      (s'.get (TILE_BARRIER_b.children.bar n b)).testBit port = true →
      setBits (s'.get (TILE_BARRIER_b.arrived.bar n b)) port 1 1 = s'.get (TILE_BARRIER_b.children.bar n b) + 16 * s'.get
        (TILE_BARRIER_b.member.bar n b) →
      s'.get (TILE_BARRIER_b.parent.bar n b) < 4 → neighbour n (s'.get (TILE_BARRIER_b.parent.bar n b)) = some m →
      ∃ t, exec (.barrierArriveFlit dt n port b) s = .next t
        ∧ t.get (TILE_BARRIER_b.arrived.bar n b) = setBits (s'.get (TILE_BARRIER_b.arrived.bar n b)) port 1 1
        ∧ t.net.hops = s'.net.hops.erase h ++ [⟨m, (s'.get (TILE_BARRIER_b.parent.bar n b) + 2) % 4, ⟨7, 0, 0, endpoint n, b,
          0, s'.get (TILE_BARRIER_b.gen.bar n b), 0, 0, 0, 0, []⟩⟩]
        ∧ t.mem = s'.mem ∧ s'.sameBut t [.regs, .net]
        ∧ s'.regsBut t [TILE_BARRIER_b.gen.bar n b, TILE_BARRIER_b.waiting.bar n b, TILE_BARRIER_b.arrived.bar n b,
          TILE_BARRIER_b.releases.bar n b])
  ∧ -- barrierReleaseFlit
    (∀ (dt : Nat) (n port b : Nat) (h : Hop) (s s' : State), s' = s.pass dt →
      (s'.net.hops.find? fun (h : Hop) => h.tile == n && h.port == port && h.pkt.ty == 8 && h.pkt.dst == b) = some h → n < 10240 →
      b < 64 → s'.flag (TILE_BARRIER_b.valid.bar n b) = true → s'.get (TILE_BARRIER_b.parent.bar n b) = port →
      s'.flag (TILE_BARRIER_b.member.bar n b) = true →
      ∃ t, exec (.barrierReleaseFlit dt n port b) s = .next t
        ∧ t.get (TILE_BARRIER_b.gen.bar n b) = 1 - s'.get (TILE_BARRIER_b.gen.bar n b)
        ∧ t.get (TILE_BARRIER_b.arrived.bar n b) = 0 ∧ t.flag (TILE_BARRIER_b.waiting.bar n b) = false
        ∧ t.get (TILE_BARRIER_b.releases.bar n b) = min 65535 (s'.get (TILE_BARRIER_b.releases.bar n b) + 1) ∧ t.mem = s'.mem
        ∧ s'.sameBut t [.regs, .net]
        ∧ s'.regsBut t [TILE_BARRIER_b.gen.bar n b, TILE_BARRIER_b.waiting.bar n b, TILE_BARRIER_b.arrived.bar n b,
          TILE_BARRIER_b.releases.bar n b])

/-- Packets write, read and push at their target, within its declared regions (R107, R120, R121, R287, R117). A write packet that
its target region allows joins the writes of the CORE cycle it arrives in, by the network port's priority, and where no other
write waits its bytes stand there once the write slots have run; it is answered only where an acknowledgement was asked. One
outside the regions is answered with an error response and traps. A read request is answered with the bytes as they stand in the
cycle in which it wins its slots. A circular push joins the pushes and pops of its CORE cycle; at its end, legal and behind no
other, it moves the tail and the count of the region, and otherwise it waits. In every clause, the parts of the state, the
register fields and the bytes of memory that it does not list keep their values. Each clause first lets the dt axle ticks of its
command pass. Its clauses conclude that exec ANSWERS A NEXT STATE with the command's own effect, for every state and operands
that meet hypotheses on these alone; so these COMPLETE: meshWrite, meshReadRequest, circularPush. What the spec leaves open in
it is the model's choice or reading: log entries 1, 16, 39, 48. -/
def Obligations.RemoteAccesses : Prop :=
  -- meshWrite
    (∀ (dt : Nat) (p : Packet) (same : Bool) (u v : State) (n : Nat) (s s' : State), s' = s.pass dt →
      s'.take p = some u → badPacket p = false → p.ty = 0 → v = (if same then u else u.next.trapCircs) → epTile p.dst = some n →
      p.space = 0 → v.portTrap n .network p.offset p.data.length remoteWrite = 0 → v.wantsAck p = false →
      Memory.wf v.mem = true →
      ∃ t, exec (.meshWrite dt p same) s = .next t
        ∧ t.tile.late = (cutRows p.offset p.data).foldl (fun (l : List Late) (w : Nat × List Byte) => insertLate ⟨n, bankOf
          w.1, spadKey n w.1, portPrio .network, 0, none, some w.1, w.2⟩ l) v.tile.late
        ∧ (v.tile.late = [] → (t.cycles t.tile.late.length).bytes (spadKey n p.offset) p.data.length = p.data) ∧ t.net = v.net
        ∧ v.sameBut t [.regs, .ev, .tile] ∧ v.regsBut t (hazardFields n))
  ∧ -- meshWrite
    (∀ (dt : Nat) (p : Packet) (same : Bool) (u v : State) (n : Nat) (s s' : State), s' = s.pass dt →
      s'.take p = some u → badPacket p = false → p.ty = 0 → v = (if same then u else u.next.trapCircs) → epTile p.dst = some n →
      p.space = 0 → v.portTrap n .network p.offset p.data.length remoteWrite = 0 → v.wantsAck p = true →
      Memory.wf v.mem = true →
      ∃ t, exec (.meshWrite dt p same) s = .next t
        ∧ t.tile.late = (cutRows p.offset p.data).foldl (fun (l : List Late) (w : Nat × List Byte) => insertLate ⟨n, bankOf
          w.1, spadKey n w.1, portPrio .network, 0, none, some w.1, w.2⟩ l) v.tile.late
        ∧ (v.tile.late = [] → (t.cycles t.tile.late.length).bytes (spadKey n p.offset) p.data.length = p.data)
        ∧ t.net.fly.getLast?.map (fun (q : Packet) => (q.ty, q.src, q.dst, q.tag)) = some (3, p.dst, p.src, p.tag)
        ∧ v.sameBut t [.regs, .ev, .tile, .net] ∧ v.regsBut t (hazardFields n))
  ∧ -- meshWrite
    (∀ (dt : Nat) (p : Packet) (same : Bool) (u v : State) (n : Nat) (s s' : State), s' = s.pass dt →
      s'.take p = some u → badPacket p = false → p.ty = 0 → v = (if same then u else u.next.trapCircs) → epTile p.dst = some n →
      p.space = 0 → v.portTrap n .network p.offset p.data.length remoteWrite ≠ 0 →
      ∃ t, exec (.meshWrite dt p same) s = .next t
        ∧ t.flag (TILE_TRAP.valid.tile n) = true
        ∧ t.net.fly.getLast?.map (fun (q : Packet) => (q.ty, q.src, q.dst, q.tag)) = some (4, p.dst, p.src, p.tag)
        ∧ ((v.logicalOf n = none ∨ v.turning = false) → t.mem = v.mem ∧ v.sameBut t [.regs, .ev, .net]
        ∧ v.regsBut t [.whole (TILE_TRAP.valid.tile n).key])
        ∧ v.sameBut t [.regs, .mem, .turn, .ev, .img, .tile, .net, .serv, .rep])
  ∧ -- meshReadRequest
    (∀ (dt : Nat) (p : Packet) (u : State) (n : Nat) (s s' : State), s' = s.pass dt →
      s'.take p = some u → badPacket p = false → p.ty = 1 → epTile p.dst = some n → p.space = 0 →
      u.portTrap n .network p.offset (64 * p.len) remoteRead = 0 → u.flips = [] →
      ∃ t, exec (.meshReadRequest dt p) s = .next t
        ∧ t.mem = u.mem
        ∧ t.net.fly.getLast?.map (fun (q : Packet) => (q.ty, q.src, q.dst, q.tag, q.len)) = some (2, p.dst, p.src, p.tag, p.len)
        ∧ t.net.fly.getLast?.map (fun (q : Packet) => q.data) = some ((u.cycles (u.readWait n .network p.offset (64 *
          p.len))).bytes (spadKey n p.offset) (64 * p.len))
        ∧ u.sameBut t [.regs, .ev, .tile, .net] ∧ u.regsBut t (hazardFields n))
  ∧ -- circularPush
    (∀ (dt : Nat) (p : Packet) (u : State) (n : Nat) (s s' : State), s' = s.pass dt →
      s'.take p = some u → badPacket p = false → p.ty = 6 → epTile p.dst = some n → p.circ < 16 →
      u.circ n p.circ TILE_CIRC_CFG_n.enable ≠ 0 → u.tile.circ = [] →
      (u.tile.waits.any fun (w : Wait) => w.tile == n && w.circ == p.circ && w.pop == false) = false →
      u.pushLegal n p.circ p.len = true →
      ∃ t, exec (.circularPush dt p) s = .next t
        ∧ t.tile.circ = [⟨n, p.circ, p.len, portPrio .network, portCode .network, false, none, true⟩]
        ∧ t.endCycle.circ n p.circ TILE_CIRC_PTR_n.count = u.circ n p.circ TILE_CIRC_PTR_n.count + p.len
        ∧ t.endCycle.circ n p.circ TILE_CIRC_PTR_n.tail = (u.circ n p.circ TILE_CIRC_PTR_n.tail + p.len) % u.circSlots n p.circ
        ∧ u.sameBut t [.tile])
  ∧ -- circularPush
    (∀ (dt : Nat) (p : Packet) (u : State) (n : Nat) (s s' : State), s' = s.pass dt →
      s'.take p = some u → badPacket p = false → p.ty = 6 → epTile p.dst = some n → p.circ < 16 →
      u.circ n p.circ TILE_CIRC_CFG_n.enable ≠ 0 → u.tile.circ = [] →
      ((u.tile.waits.any fun (w : Wait) => w.tile == n && w.circ == p.circ && w.pop == false) = true
      ∨ u.pushLegal n p.circ p.len = false) →
      ∃ t, exec (.circularPush dt p) s = .next t
        ∧ t.tile.circ = [⟨n, p.circ, p.len, portPrio .network, portCode .network, false, none, true⟩]
        ∧ t.endCycle.tile.waits = u.tile.waits ++ [⟨n, p.circ, p.len, false, none⟩] ∧ t.endCycle.regs = u.regs
        ∧ u.sameBut t [.tile])

/-- A tree copies its packets to every branch and to its own tile (R306, R307, R308, R375). A router on a tree forwards a packet of
it to every branch of its mask and takes it off the link it came by; its own tile stores the payload when bit 4 of the mask is
set; a fork past mcast_limit raises the MCAST hold with event 87 and counts it; one that holds a flit for 65,536 cycles raises
event 8. In every clause, the parts of the state, the register fields and the bytes of memory that it does not list keep their
values. Each clause first lets the dt axle ticks of its command pass. Its clauses conclude that exec ANSWERS A NEXT STATE with
the command's own effect, for every state and operands that meet hypotheses on these alone; so these COMPLETE: multicastWrite,
mcastHold, netStall. What the spec leaves open in it is the model's choice or reading: log entries 1, 16, 21. -/
def Obligations.Multicast : Prop :=
  -- multicastWrite
    (∀ (dt : Nat) (n port b : Nat) (same : Bool) (h : Hop) (s s' : State), s' = s.pass dt →
      (s'.net.hops.find? fun (h : Hop) => h.tile == n && h.port == port && h.pkt.ty == 5 && h.pkt.dst == b) = some h →
      badPacket h.pkt = false → b < 256 → s'.flag ((TILE_MCAST_t.valid.tile n).off (8 * b)) = true →
      s'.get ((TILE_MCAST_t.vc.tile n).off (8 * b)) = h.pkt.vc →
      (s'.get ((TILE_MCAST_t.mask.tile n).off (8 * b))).testBit 4 = false →
      ∃ t, exec (.multicastWrite dt n port b same) s = .next t
        ∧ (∀ q m : Nat, q < 4 → (s'.get ((TILE_MCAST_t.mask.tile n).off (8 * b))).testBit q = true → neighbour n q = some m →
        (⟨m, (q + 2) % 4, h.pkt⟩ : Hop) ∈ t.net.hops) ∧ t.mem = s'.mem ∧ t.regs = s'.regs ∧ s'.sameBut t [.net])
  ∧ -- multicastWrite
    (∀ (dt : Nat) (n port b : Nat) (same : Bool) (h : Hop) (v : State) (s s' : State), s' = s.pass dt →
      (s'.net.hops.find? fun (h : Hop) => h.tile == n && h.port == port && h.pkt.ty == 5 && h.pkt.dst == b) = some h →
      badPacket h.pkt = false → b < 256 → s'.flag ((TILE_MCAST_t.valid.tile n).off (8 * b)) = true →
      s'.get ((TILE_MCAST_t.vc.tile n).off (8 * b)) = h.pkt.vc → s'.get ((TILE_MCAST_t.mask.tile n).off (8 * b)) = 16 →
      h.pkt.space = 0 →
      v = (if same then { s' with net := { s'.net with hops := s'.net.hops.erase h } } else ({ s' with net := { s'.net with
        hops := s'.net.hops.erase h } }).next.trapCircs) →
      v.portTrap n .network h.pkt.offset h.pkt.data.length remoteWrite = 0 → Memory.wf v.mem = true →
      ∃ t, exec (.multicastWrite dt n port b same) s = .next t
        ∧ t.tile.late = (cutRows h.pkt.offset h.pkt.data).foldl (fun (l : List Late) (w : Nat × List Byte) => insertLate ⟨n,
          bankOf w.1, spadKey n w.1, portPrio .network, 0, none, some w.1, w.2⟩ l) v.tile.late
        ∧ (v.tile.late = [] → (t.cycles t.tile.late.length).bytes (spadKey n h.pkt.offset) h.pkt.data.length = h.pkt.data)
        ∧ t.net = v.net ∧ v.sameBut t [.regs, .ev, .tile] ∧ v.regsBut t (hazardFields n))
  ∧ -- mcastHold
    (∀ (dt : Nat) (n b port : Nat) (s s' : State), s' = s.pass dt →
      n < 10240 → b < 256 → s'.flag ((TILE_MCAST_t.valid.tile n).off (8 * b)) = true → s'.deviceFork n b = false →
      s'.turning = true → s'.flag HEAD_IMAGE_STATUS.debug = false →
      ∃ t, exec (.mcastHold dt n b port) s = .next t
        ∧ t.get (TILE_NET_ERR.mcast_holds.tile n) = min (2 ^ TILE_NET_ERR.mcast_holds.w - 1) (s'.get (TILE_NET_ERR.mcast_holds.tile n) + 1)
        ∧ t.lastHold = some ⟨s'.turn.nextHold, 0xA, s'.spoke, none, none, n, none⟩ ∧ t.lastEvent = some (87, b, port % 2 ^ 64)
        ∧ t.mem = s'.mem ∧ s'.sameBut t [.regs, .turn, .ev] ∧ s'.regsBut t [TILE_NET_ERR.mcast_holds.tile n])
  ∧ -- netStall
    (∀ (dt : Nat) (n b : Nat) (s s' : State), s' = s.pass dt →
      b < 256 → s'.flag ((TILE_MCAST_t.valid.tile n).off (8 * b)) = true → s'.running = false →
      ∃ t, exec (.netStall dt n b) s = .next t
        ∧ t.lastEvent = some (8, s'.get ((TILE_MCAST_t.mask.tile n).off (8 * b)), b) ∧ t.regs = s'.regs ∧ t.mem = s'.mem
        ∧ t.turn = s'.turn ∧ s'.sameBut t [.ev])
  ∧ -- netStall
    (∀ (dt : Nat) (n b : Nat) (s s' : State), s' = s.pass dt →
      b < 256 → s'.flag ((TILE_MCAST_t.valid.tile n).off (8 * b)) = true → s'.running = true →
      ∃ t, exec (.netStall dt n b) s = .next t
        ∧ t.get HEAD_IMAGE_STATUS.state = 4 ∧ t.flag HEAD_IMAGE_FAULT.valid = true ∧ t.get HEAD_IMAGE_FAULT.cause = 2
        ∧ t.net.hops = [] ∧ (t.net.fly.all fun (p : Packet) => 9 ≤ p.ty) = true
        ∧ s'.sameBut t [.regs, .mem, .turn, .ev, .img, .tile, .net, .serv, .rep])

/-- Cart channels start, hold back and complete their descriptors, and the responses return to them (R287, R309, R311, R313, R314).
An idle channel starts its next descriptor: the channel runs with the tag of its count, and a malformed one sets the error with
code 0x2; one that waits for a barrier stays in the queue in state 2; a descriptor whose completion condition holds is counted
in done and leaves the channel idle; a cart issue of the host is queued. A read response takes its request off the outstanding
ones of the channel; a write acknowledgement lowers those still due; an error response sets TILE_CART_ERR_n with code 0x1 and
raises event 89; a management read is answered with status and word, and a management response reaches the head. In every
clause, the parts of the state, the register fields and the bytes of memory that it does not list keep their values. Each clause
first lets the dt axle ticks of its command pass. Its clauses conclude that exec ANSWERS A NEXT STATE with the command's own
effect, for every state and operands that meet hypotheses on these alone; so these COMPLETE: cartDescriptorStart,
cartDescriptorComplete, meshReadResponse, meshWriteAck, meshErrorResponse, managementRequest, managementResponse. What the spec
leaves open in it is the model's choice or reading: log entries 1, 19, 24, 48. -/
def Obligations.Carts : Prop :=
  -- cartDescriptorStart
    (∀ (dt : Nat) (n ch off k : Nat) (rest : List Nat) (free : Bool) (s s' : State), s' = s.pass dt →
      (s'.cart n ch) = ⟨off :: rest, none, none, k⟩ → s'.get (TILE_STATE.state.tile n) ≠ 0 → ch < 8 → n < 10240 →
      s'.pushing n ch = false → (parseDesc (s'.readPort n .cart off 64).1).flags / 4 % 2 = 1 →
      s'.flag (TILE_BARRIER_b.waiting.bar n ((parseDesc (s'.readPort n .cart off 64).1).barrier % 64)) = true →
      s'.portTrap n .cart off 64 localRead = 0 → ((∀ p ∈ s'.flips, p.1 + 8 ≤ spadKey n off ∨ spadKey n off + 64 ≤ p.1)) →
      ∃ t, exec (.cartDescriptorStart dt n ch free) s = .next t
        ∧ t.get (TILE_CART_STATUS_n.state.cart n ch) = 2 ∧ t.cart n ch = s'.cart n ch ∧ t.mem = s'.mem
        ∧ s'.sameBut t [.regs, .ev, .tile]
        ∧ s'.regsBut t ([TILE_CART_STATUS_n.state.cart n ch, TILE_CART_STATUS_n.queued.cart n ch,
          TILE_CART_STATUS_n.reads_out.cart n ch, TILE_CART_STATUS_n.last_tag.cart n ch] ++ (hazardFields n)))
  ∧ -- cartDescriptorStart
    (∀ (dt : Nat) (n ch off k : Nat) (rest : List Nat) (free : Bool) (s s' : State), s' = s.pass dt →
      (s'.cart n ch) = ⟨off :: rest, none, none, k⟩ → s'.get (TILE_STATE.state.tile n) ≠ 0 → ch < 8 → n < 10240 →
      s'.pushing n ch = false → ((parseDesc (s'.readPort n .cart off 64).1).flags / 4 % 2 = 0
      ∨ s'.flag (TILE_BARRIER_b.waiting.bar n ((parseDesc (s'.readPort n .cart off 64).1).barrier % 64)) = false) →
      s'.cooling = false → (3 ≤ (parseDesc (s'.readPort n .cart off 64).1).flags / 16 % 4 ∨ s'.inTurn = false
      ∨ s'.inForce s'.spoke = false) → s'.portTrap n .cart off 64 localRead = 0 → ((∀ p ∈ s'.flips, p.1 + 8 ≤ spadKey n off
      ∨ spadKey n off + 64 ≤ p.1)) → s'.malformed n (parseDesc (s'.readPort n .cart off 64).1) = true →
      s'.flag (TILE_CART_ERR_n.valid.cart n ch) = false →
      ∃ t, exec (.cartDescriptorStart dt n ch free) s = .next t
        ∧ t.get (TILE_CART_STATUS_n.state.cart n ch) = 1 ∧ t.get (TILE_CART_STATUS_n.last_tag.cart n ch) = k % 256
        ∧ t.get (TILE_CART_ERR_n.code.cart n ch) = 2 ∧ (t.cart n ch).queue = rest ∧ (t.cart n ch).started = k + 1
        ∧ t.mem = s'.mem ∧ s'.sameBut t [.regs, .ev, .tile, .net]
        ∧ s'.regsBut t ([TILE_CART_STATUS_n.state.cart n ch, TILE_CART_STATUS_n.queued.cart n ch,
          TILE_CART_STATUS_n.reads_out.cart n ch, TILE_CART_STATUS_n.last_tag.cart n ch, .whole (TILE_CART_ERR_n.valid.cart n
          ch).key] ++ (hazardFields n)))
  ∧ -- cartDescriptorStart
    (∀ (dt : Nat) (n ch off k : Nat) (rest : List Nat) (free : Bool) (s s' : State), s' = s.pass dt →
      (s'.cart n ch) = ⟨off :: rest, none, none, k⟩ → s'.get (TILE_STATE.state.tile n) ≠ 0 → ch < 8 → n < 10240 →
      s'.pushing n ch = false → ((parseDesc (s'.readPort n .cart off 64).1).flags / 4 % 2 = 0
      ∨ s'.flag (TILE_BARRIER_b.waiting.bar n ((parseDesc (s'.readPort n .cart off 64).1).barrier % 64)) = false) →
      s'.cooling = false → (3 ≤ (parseDesc (s'.readPort n .cart off 64).1).flags / 16 % 4 ∨ s'.inTurn = false
      ∨ s'.inForce s'.spoke = false) → s'.portTrap n .cart off 64 localRead = 0 → ((∀ p ∈ s'.flips, p.1 + 8 ≤ spadKey n off
      ∨ spadKey n off + 64 ≤ p.1)) → s'.malformed n (parseDesc (s'.readPort n .cart off 64).1) = false →
      (parseDesc (s'.readPort n .cart off 64).1).op = 1 →
      (s'.readPort n .cart off 64).2.fillTrap n (parseDesc (s'.readPort n .cart off 64).1) false = none → s'.tile.late = [] →
      Memory.wf s'.mem = true →
      ∃ t, exec (.cartDescriptorStart dt n ch free) s = .next t
        ∧ t.get (TILE_CART_STATUS_n.state.cart n ch) = 1 ∧ (n, ch) ∈ t.tile.fills
        ∧ (∀ r ∈ descRows (parseDesc (s'.readPort n .cart off 64).1), (t.cycles t.tile.late.length).bytes (spadKey n r.1)
          (parseDesc (s'.readPort n .cart off 64).1).rowBytes = ((List.range ((parseDesc (s'.readPort n .cart off
          64).1).rowBytes / 8)).flatMap fun _ => leBytes 8 (parseDesc (s'.readPort n .cart off 64).1).fill))
        ∧ s'.sameBut t [.regs, .ev, .tile, .net]
        ∧ s'.regsBut t ([TILE_CART_STATUS_n.state.cart n ch, TILE_CART_STATUS_n.queued.cart n ch,
          TILE_CART_STATUS_n.reads_out.cart n ch, TILE_CART_STATUS_n.last_tag.cart n ch] ++ (hazardFields n)))
  ∧ -- cartDescriptorComplete
    (∀ (dt : Nat) (n ch : Nat) (r : CartRun) (s s' : State), s' = s.pass dt →
      (s'.cart n ch).run = some r → s'.cartDone n ch r = true → r.desc.flags / 2 % 2 = 0 → n < 10240 → ch < 8 →
      ∃ t, exec (.cartDescriptorComplete dt n ch) s = .next t
        ∧ (t.cart n ch).run = none ∧ t.get (TILE_CART_STATUS_n.state.cart n ch) = 0
        ∧ t.get (TILE_CART_STATUS_n.done.cart n ch) = min 65535 (s'.get (TILE_CART_STATUS_n.done.cart n ch) + 1)
        ∧ (t.cart n ch).chain = (if r.desc.flags / 8 % 2 = 1 ∧ r.failed = false then some (r.at_ + 64) else none)
        ∧ t.mem = s'.mem ∧ s'.sameBut t [.regs, .net]
        ∧ s'.regsBut t [TILE_CART_STATUS_n.state.cart n ch, TILE_CART_STATUS_n.queued.cart n ch,
          TILE_CART_STATUS_n.reads_out.cart n ch, TILE_CART_STATUS_n.done.cart n ch])
  ∧ -- meshReadResponse
    (∀ (dt : Nat) (p : Packet) (u : State) (n : Nat) (r : CartRun) (q : ReadReq) (s s' : State), s' = s.pass dt →
      s'.take p = some u → badPacket p = false → p.ty = 2 → epTile p.dst = some n → (u.cart n p.chan).run = some r →
      (r.out.find? fun (x : ReadReq) => x.off == p.offset && r.tag == p.tag) = some q → r.out = [q] → r.todo = [] → r.got = [] →
      p.data.length < sideBytes r.desc.rowBytes (r.desc.spaces % 16) (r.desc.spaces / 16) → p.data.length ≤ q.n →
      ∃ t, exec (.meshReadResponse dt p) s = .next t
        ∧ (t.cart n p.chan).run.map (fun (x : CartRun) => (x.out, x.got)) = some ([], [(q.row, q.pos, p.data)]) ∧ t.mem = s'.mem
        ∧ s'.sameBut t [.regs, .net]
        ∧ s'.regsBut t [TILE_CART_STATUS_n.state.cart n p.chan, TILE_CART_STATUS_n.queued.cart n p.chan,
          TILE_CART_STATUS_n.reads_out.cart n p.chan])
  ∧ -- meshWriteAck
    (∀ (dt : Nat) (p : Packet) (u : State) (n : Nat) (r : CartRun) (s s' : State), s' = s.pass dt →
      s'.take p = some u → badPacket p = false → p.ty = 3 → epTile p.dst = some n → (u.cart n p.chan).run = some r →
      r.tag = p.tag →
      ∃ t, exec (.meshWriteAck dt p) s = .next t
        ∧ (t.cart n p.chan).run = some ⟨r.desc, r.at_, r.tag, r.out, r.todo, r.acks - 1, r.got, r.failed⟩ ∧ t.mem = s'.mem
        ∧ s'.sameBut t [.regs, .net]
        ∧ s'.regsBut t [TILE_CART_STATUS_n.queued.cart n p.chan, TILE_CART_STATUS_n.reads_out.cart n p.chan])
  ∧ -- meshErrorResponse
    (∀ (dt : Nat) (p : Packet) (u : State) (n : Nat) (s s' : State), s' = s.pass dt →
      s'.take p = some u → badPacket p = false → p.ty = 4 → epTile p.dst = some n → (u.cart n p.chan).run = none →
      u.flag (TILE_CART_ERR_n.valid.cart n p.chan) = false →
      ∃ t, exec (.meshErrorResponse dt p) s = .next t
        ∧ t.flag (TILE_CART_ERR_n.valid.cart n p.chan) = true ∧ t.get (TILE_CART_ERR_n.code.cart n p.chan) = 1
        ∧ t.get (TILE_CART_ERR_n.tag.cart n p.chan) = p.tag % 256
        ∧ (t.lastEvent.map fun (e : Nat × Nat × Nat) => (e.1, e.2.2)) = some (89, p.chan % 2 ^ 64) ∧ t.mem = s'.mem
        ∧ s'.sameBut t [.regs, .ev, .net]
        ∧ s'.regsBut t [.whole (TILE_CART_ERR_n.valid.cart n p.chan).key, TILE_CART_STATUS_n.state.cart n p.chan,
          TILE_CART_STATUS_n.queued.cart n p.chan, TILE_CART_STATUS_n.reads_out.cart n p.chan])
  ∧ -- managementRequest
    (∀ (dt : Nat) (p : Packet) (u : State) (a : Nat) (s s' : State), s' = s.pass dt →
      s'.take p = some u → badPacket p = false → p.ty = 9 → rawAddr p.dst 0 p.offset = some a → p.len = 0 →
      ∃ t, exec (.managementRequest dt p) s = .next t
        ∧ t.net.fly.getLast?.map (fun (q : Packet) => (q.ty, q.src, q.dst, q.tag, q.circ)) = some (10, p.dst, p.src, p.tag, (if
          (u.mgmtRead a).1 = stOk then 0 else 1))
        ∧ t.net.fly.getLast?.map (fun (q : Packet) => q.data) = some (word8 (u.mgmtRead a).2.1) ∧ t.mem = (u.mgmtRead a).2.2.mem
        ∧ s'.sameBut t [.regs, .turn, .ev, .sbx, .tile, .net, .rep])
  ∧ -- managementResponse
    (∀ (dt : Nat) (p : Packet) (u : State) (s s' : State), s' = s.pass dt →
      s'.take p = some u → badPacket p = false → p.ty = 10 →
      ∃ t, exec (.managementResponse dt p) s = .next t
        ∧ t.net.answers = s'.net.answers ++ [(p.tag, p.circ, leNat (p.data.take 8))] ∧ t.regs = s'.regs ∧ t.mem = s'.mem
        ∧ s'.sameBut t [.net])

/-- A link accepts flits in order, asks for a resend, and is tested after four resends (R285, R289, R290, R291, R294). A data flit
that checks and carries the number expected advances the number and joins the buffer of its class, with the output ports of its
packet; a credit frees a buffer at the transmitter; a flit of the router's own port joins its buffer. One whose check fails is
counted and asked for again. A nack sends every kept flit again from the one named, and after four resends of one flit the link
is tested. A test without bad wires puts the link back in use, and one with bad wires in one half leaves the other half in use,
with event 78. In every clause, the parts of the state, the register fields and the bytes of memory that it does not list keep
their values. Each clause first lets the dt axle ticks of its command pass. Its clauses conclude that exec ANSWERS A NEXT STATE
with the command's own effect, for every state and operands that meet hypotheses on these alone; so these COMPLETE: flitReceive,
linkNack, patternTestComplete. What the spec leaves open in it is the model's choice or reading: log entries 1, 9, 21, 52, 53. -/
def Obligations.MeshLinks : Prop :=
  -- flitReceive
    (∀ (dt : Nat) (n port m q x r src : Nat) (rest : List Nat) (s s' : State), s' = s.pass dt →
      linkEnd n port = some (m, q) → port ≠ 4 → (s'.meshLink n port).wire = x :: rest → (s'.meshLink n port).testing = false →
      s'.portHeld n port = false → x < 2 ^ 1024 → flitCrc x = bits x 0 16 → bits x 28 3 = (s'.meshLink n port).expect →
      x.testBit 31 = false → x.testBit 27 = false → bits x 18 2 = 2 →
      Sparse.find s'.net.routes (bufKey n port (vcClass x)) = some (r, src) → r ≠ 0 →
      ∃ t, exec (.flitReceive dt n port x 0) s = .next t
        ∧ (t.meshLink n port).expect = ((s'.meshLink n port).expect + 1) % 8 ∧ (t.meshLink n port).nacking = false
        ∧ (t.meshLink n port).wire = rest
        ∧ t.buf (bufKey n port (vcClass x)) = s'.buf (bufKey n port (vcClass x)) ++ [⟨plainFlit x, r, src, 0⟩]
        ∧ s'.sameBut t [.net])
  ∧ -- flitReceive
    (∀ (dt : Nat) (n port m q x : Nat) (rest : List Nat) (s s' : State), s' = s.pass dt →
      linkEnd n port = some (m, q) → port ≠ 4 → (s'.meshLink n port).wire = x :: rest → (s'.meshLink n port).testing = false →
      s'.portHeld n port = false → x < 2 ^ 1024 → flitCrc x = bits x 0 16 → bits x 28 3 = (s'.meshLink n port).expect →
      x.testBit 31 = false → x.testBit 27 = false → bits x 18 2 = 1 → badPacket (headOf (plainFlit x)) = false → bits x 32 4 ≠ 5 →
      s'.portsFor n (headOf (plainFlit x)) ≠ 0 →
      ∃ t, exec (.flitReceive dt n port x 0) s = .next t
        ∧ (t.meshLink n port).expect = ((s'.meshLink n port).expect + 1) % 8 ∧ (t.meshLink n port).nacking = false
        ∧ (t.meshLink n port).wire = rest
        ∧ t.buf (bufKey n port (vcClass x)) = s'.buf (bufKey n port (vcClass x)) ++ [⟨plainFlit x, s'.portsFor n (headOf
          (plainFlit x)), bits x 51 15, 0⟩]
        ∧ s'.sameBut t [.net])
  ∧ -- flitReceive
    (∀ (dt : Nat) (n port m q x : Nat) (rest : List Nat) (s s' : State), s' = s.pass dt →
      linkEnd n port = some (m, q) → port ≠ 4 → (s'.meshLink n port).wire = x :: rest → (s'.meshLink n port).testing = false →
      s'.portHeld n port = false → x < 2 ^ 1024 → flitCrc x = bits x 0 16 → bits x 28 3 = (s'.meshLink n port).expect →
      x.testBit 31 = false → bits x 18 2 = 0 → x.testBit 27 = true → m ≠ n →
      ∃ t, exec (.flitReceive dt n port x 0) s = .next t
        ∧ (t.meshLink n port).expect = ((s'.meshLink n port).expect + 1) % 8 ∧ (t.meshLink n port).nacking = false
        ∧ (t.meshLink n port).wire = rest
        ∧ Sparse.find (t.meshLink m q).used (bits x 25 2 * 4 + bits x 23 2) = some ((Sparse.find (s'.meshLink m q).used (bits x
          25 2 * 4 + bits x 23 2)).getD 0 - 1)
        ∧ s'.sameBut t [.net])
  ∧ -- flitReceive
    (∀ (dt : Nat) (n x r src : Nat) (rest : List Nat) (s s' : State), s' = s.pass dt →
      plainFlit x = x → bits x 18 2 = 2 → (s'.buf (bufKey n 4 (vcClass x))).length < 4 → s'.injectStopped n (vcClass x) = false →
      Sparse.find s'.net.sending (16 * n + vcClass x) = some (x :: rest) →
      Sparse.find s'.net.routes (bufKey n 4 (vcClass x)) = some (r, src) → r ≠ 0 →
      ∃ t, exec (.flitReceive dt n 4 x 0) s = .next t
        ∧ t.buf (bufKey n 4 (vcClass x)) = s'.buf (bufKey n 4 (vcClass x)) ++ [⟨x, r, src, 0⟩] ∧ (rest ≠ [] →
        Sparse.find t.net.sending (16 * n + vcClass x) = some rest) ∧ s'.sameBut t [.net])
  ∧ -- flitReceive
    (∀ (dt : Nat) (n port m q x y : Nat) (rest : List Nat) (s s' : State), s' = s.pass dt →
      linkEnd n port = some (m, q) → port ≠ 4 → (s'.meshLink n port).wire = x :: rest → (s'.meshLink n port).testing = false →
      s'.portHeld n port = false → n < 9216 → flitCrc ((x ^^^ y) % 2 ^ 1024) ≠ bits ((x ^^^ y) % 2 ^ 1024) 0 16 →
      ∃ t, exec (.flitReceive dt n port x y) s = .next t
        ∧ (t.meshLink n port).expect = (s'.meshLink n port).expect ∧ (t.meshLink n port).nacking = true
        ∧ (t.meshLink n port).wire = rest
        ∧ t.get (TILE_LINK_STATUS_p.check_fails.lnk n port) = min (2 ^ TILE_LINK_STATUS_p.check_fails.w - 1) (s'.get
          (TILE_LINK_STATUS_p.check_fails.lnk n port) + 1)
        ∧ s'.sameBut t [.regs, .net] ∧ s'.regsBut t [TILE_LINK_STATUS_p.check_fails.lnk n port])
  ∧ -- linkNack
    (∀ (dt : Nat) (n port m q : Nat) (f : Nat × Nat × Nat) (s s' : State), s' = s.pass dt →
      linkEnd n port = some (m, q) → m < 9216 → (s'.meshLink n port).testing = false → (s'.meshLink n port).nacking = true →
      (s'.meshLink n port).kept = [f] → f.1 = (s'.meshLink n port).expect → (s'.meshLink n port).resent = 0 →
      ∃ t, exec (.linkNack dt n port) s = .next t
        ∧ (t.meshLink n port).kept = [(f.1, f.2.1, s'.ticks)] ∧ (t.meshLink n port).wire = (s'.meshLink n port).wire ++ [f.2.1]
        ∧ (t.meshLink n port).resent = 1 ∧ (t.meshLink n port).named = (s'.meshLink n port).expect
        ∧ t.get (TILE_LINK_STATUS_p.resends.lnk m q) = min (2 ^ TILE_LINK_STATUS_p.resends.w - 1) (s'.get
          (TILE_LINK_STATUS_p.resends.lnk m q) + 1)
        ∧ s'.sameBut t [.regs, .net] ∧ s'.regsBut t [TILE_LINK_STATUS_p.resends.lnk m q])
  ∧ -- linkNack
    (∀ (dt : Nat) (n port m q : Nat) (f : Nat × Nat × Nat) (s s' : State), s' = s.pass dt →
      linkEnd n port = some (m, q) → m < 9216 → (s'.meshLink n port).testing = false → (s'.meshLink n port).nacking = true →
      (s'.meshLink n port).kept = [f] → f.1 = (s'.meshLink n port).expect → (s'.meshLink n port).resent = 4 →
      (s'.meshLink n port).named = (s'.meshLink n port).expect → (s'.meshLink n port).resentAt ≠ s'.ticks →
      ∃ t, exec (.linkNack dt n port) s = .next t
        ∧ (t.meshLink n port).testing = true ∧ s'.sameBut t [.net])
  ∧ -- patternTestComplete
    (∀ (dt : Nat) (n port m q : Nat) (s s' : State), s' = s.pass dt →
      linkEnd n port = some (m, q) → n < 9216 → m < 9216 → (s'.meshLink n port).testing = true →
      ∃ t, exec (.patternTestComplete dt n port []) s = .next t
        ∧ (t.meshLink n port).testing = false ∧ (t.meshLink n port).resent = 0
        ∧ t.get (TILE_LINK_STATUS_p.tests.lnk n port) = min (2 ^ TILE_LINK_STATUS_p.tests.w - 1) (s'.get
          (TILE_LINK_STATUS_p.tests.lnk n port) + 1)
        ∧ s'.sameBut t [.regs, .net] ∧ s'.regsBut t [TILE_LINK_STATUS_p.tests.lnk n port, TILE_LINK_STATUS_p.tests.lnk m q])
  ∧ -- patternTestComplete
    (∀ (dt : Nat) (n port m q g : Nat) (s s' : State), s' = s.pass dt →
      linkEnd n port = some (m, q) → n < 9216 → m < 9216 → (s'.meshLink n port).testing = true → g < 64 →
      (isHitch (m, q) = false ∨ s'.inTurn = false) →
      ∃ t, exec (.patternTestComplete dt n port [g]) s = .next t
        ∧ (t.meshLink n port).testing = false ∧ (m, q, [g]) ∈ t.net.degraded
        ∧ t.get (TILE_LINK_STATUS_p.in_state.lnk n port) = 2 ∧ t.get (TILE_LINK_STATUS_p.out_state.lnk m q) = 2
        ∧ t.get (TILE_LINK_STATUS_p.half.lnk m q) = 2 ∧ t.lastEvent = some (78, q, 2) ∧ s'.sameBut t [.regs, .ev, .net]
        ∧ s'.regsBut t [TILE_LINK_STATUS_p.tests.lnk n port, TILE_LINK_STATUS_p.tests.lnk m q, TILE_LINK_STATUS_p.in_state.lnk
          n port, TILE_LINK_STATUS_p.out_state.lnk m q, TILE_LINK_STATUS_p.half.lnk m q])

/-- A scrub engine runs its chunks in the play, and corrects what it reads (R124, R125, R127). While no image runs, or in the play
of one that runs, an enabled scrub engine of a tile that is on runs its next chunk: with no stored bit flipped it changes no
register and no byte, and the next chunk follows; one flipped data bit in the scratchpad of a V-tile or a P-tile, in a row of
the chunk, is corrected and written back, and counted as a scrub correction. In every clause, the parts of the state, the
register fields and the bytes of memory that it does not list keep their values. Each clause first lets the dt axle ticks of its
command pass. Its clauses conclude that exec ANSWERS A NEXT STATE with the command's own effect, for every state and operands
that meet hypotheses on these alone; so these COMPLETE: scrubChunk. What the spec leaves open in it is the model's choice or
reading: log entries 1, 9. -/
def Obligations.Scrubbing : Prop :=
  -- scrubChunk
    (∀ (dt : Nat) (n c : Nat) (s s' : State), s' = s.pass dt →
      n < 9984 → s'.get (TILE_STATE.state.tile n) ≠ 0 →
      s'.flag (s'.scrubFld n TILE_SCRUB_CTRL.enable BAY_SCRUB_CTRL.enable) = true →
      Sparse.find s'.tile.scrubSpoke n ≠ some (s'.spoke + 1) → (s'.running = false ∨ (s'.turn.q.isSome = true
      ∧ s'.boundary?.isNone = true ∧ s'.count % 8 = 0)) → s'.flips = [] → Sparse.find s'.tile.scrubAt n = some c →
      c + 1 < s'.scrubChunks n →
      ∃ t, exec (.scrubChunk dt n []) s = .next t
        ∧ Sparse.find t.tile.scrubAt n = some (c + 1) ∧ t.regs = s'.regs ∧ t.mem = s'.mem ∧ t.flips = s'.flips ∧ t.ev = s'.ev
        ∧ s'.sameBut t [.tile])
  ∧ -- scrubChunk
    (∀ (dt : Nat) (n c b w j : Nat) (s s' : State), s' = s.pass dt →
      n < 9984 → s'.get (TILE_STATE.state.tile n) ≠ 0 →
      s'.flag (s'.scrubFld n TILE_SCRUB_CTRL.enable BAY_SCRUB_CTRL.enable) = true →
      Sparse.find s'.tile.scrubSpoke n ≠ some (s'.spoke + 1) → (s'.running = false ∨ (s'.turn.q.isSome = true
      ∧ s'.boundary?.isNone = true ∧ s'.count % 8 = 0)) → ((tileClass n = 1 ∨ 9216 ≤ n)) →
      Sparse.find s'.tile.scrubAt n = some c → c + 1 < s'.scrubChunks n → b < spadBytes n / 0x20000 → w < 8 → j < 64 →
      s'.flips = [(spadKey n (b / 8 * 0x100000 + c % 2048 * 512 + b % 8 * 64 + 8 * w), 2 ^ j)] →
      ∃ t, exec (.scrubChunk dt n []) s = .next t
        ∧ ((s'.tile.late = [] ∧ s'.tile.arrays = []) → (t.cycles t.tile.late.length).flips = [])
        ∧ t.flag (TILE_ECC_LAST.scrub.tile n) = true ∧ t.flag (TILE_ECC_LAST.uncorrectable.tile n) = false
        ∧ t.get (TILE_ECC_LAST.bank.tile n) = b
        ∧ t.get ((TILE_ECC_COUNT.corrected.tile n).ix b) = min (2 ^ TILE_ECC_COUNT.corrected.w - 1) (s'.get
          ((TILE_ECC_COUNT.corrected.tile n).ix b) + 1)
        ∧ s'.sameBut t [.regs, .tile]
        ∧ s'.regsBut t [.whole (TILE_ECC_LAST.scrub.tile n).key, (TILE_ECC_COUNT.uncorrectable.tile n).ix b,
          (TILE_ECC_COUNT.corrected.tile n).ix b])

/-- READ and READ_BLOCK answer with the words at their addresses, or with the status that refuses them (R10, R103, R396, R397). A
read of an address that names nothing answers ADDRESS_ERROR; one of a scratchpad without flipped bits or of a tower answers its
word; a block of 0 words or of more than 512 is malformed; a block within a tower answers its bytes in ascending order; a roof
word is read as 8 words, with its side part in TILE_WS_SIDE. None of these changes memory. In every clause, the parts of the
state, the register fields and the bytes of memory that it does not list keep their values. Each clause first lets the dt axle
ticks of its command pass. Its clauses conclude that exec ANSWERS A NEXT STATE with the command's own effect, for every state
and operands that meet hypotheses on these alone; so these COMPLETE: read, readBlock, wsManagementRead. What the spec leaves
open in it is the model's choice or reading: log entries 1, 6, 35, 38, 48. -/
def Obligations.ManagementReads : Prop :=
  -- read
    (∀ (dt : Nat) (cmd a : Nat) (s s' : State), s' = s.pass dt →
      s'.cmdRuns 1 [1, 2] = true → s'.target a = none →
      ∃ t, exec (.read dt cmd a) s = .next t
        ∧ t.lastResponse = some ⟨1, 2, 0, cmd, true, []⟩ ∧ t.regs = s'.regs ∧ t.mem = s'.mem ∧ s'.sameBut t [.port])
  ∧ -- read
    (∀ (dt : Nat) (cmd a n off : Nat) (s s' : State), s' = s.pass dt →
      s'.cmdRuns 1 [1, 2] = true → s'.target a = some (.spad n off) → s'.flips = [] →
      ∃ t, exec (.read dt cmd a) s = .next t
        ∧ t.lastResponse = some ⟨1, 0, 0, cmd, true, ((s'.cycles (s'.readWait n .network off 8)).bytes (spadKey n off) 8)⟩
        ∧ t.regs = s'.regs ∧ t.mem = s'.mem ∧ s'.sameBut t [.regs, .ev, .port, .tile] ∧ s'.regsBut t (hazardFields n))
  ∧ -- read
    (∀ (dt : Nat) (cmd a n off : Nat) (s s' : State), s' = s.pass dt →
      s'.cmdRuns 1 [1, 2] = true → s'.target a = some (.tower n off) →
      ∃ t, exec (.read dt cmd a) s = .next t
        ∧ t.lastResponse = some ⟨1, 0, 0, cmd, true, s'.bytes (towerBase n + off) 8⟩ ∧ t.regs = s'.regs ∧ t.mem = s'.mem
        ∧ s'.sameBut t [.port])
  ∧ -- readBlock
    (∀ (dt : Nat) (cmd a n : Nat) (s s' : State), s' = s.pass dt →
      s'.cmdRuns 3 [1, 2] = true → ((n = 0 ∨ 512 < n)) →
      ∃ t, exec (.readBlock dt cmd a n) s = .next t
        ∧ t.lastResponse = some ⟨3, 6, 0, cmd, true, []⟩ ∧ t.regs = s'.regs ∧ t.mem = s'.mem ∧ s'.sameBut t [.port])
  ∧ -- readBlock
    (∀ (dt : Nat) (cmd a n k off : Nat) (s s' : State), s' = s.pass dt →
      s'.cmdRuns 3 [1, 2] = true → 0 < n → n ≤ 512 → ((∀ i : Nat, i < n →
      s'.target (a + 8 * i) = some (.tower k (off + 8 * i)))) →
      ∃ t, exec (.readBlock dt cmd a n) s = .next t
        ∧ t.lastResponse = some ⟨3, 0, 0, cmd, true, s'.bytes (towerBase k + off) (8 * n)⟩ ∧ t.regs = s'.regs ∧ t.mem = s'.mem
        ∧ s'.sameBut t [.port])
  ∧ -- wsManagementRead
    (∀ (dt : Nat) (cmd n w : Nat) (s s' : State), s' = s.pass dt →
      s'.cmdRuns 3 [1, 2] = true → n < 9216 → s'.target (tileBase n + 64 * w) = some (.weights n (64 * w)) → s'.flips = [] →
      ∃ t, exec (.wsManagementRead dt cmd n w) s = .next t
        ∧ t.lastResponse = some ⟨3, 0, 0, cmd, true, s'.bytes (tileBase n + 64 * w) 64⟩
        ∧ t.get (TILE_WS_SIDE.side.tile n) = s'.num (sideKey n w) 4 ∧ t.mem = s'.mem ∧ s'.sameBut t [.regs, .port]
        ∧ s'.regsBut t [TILE_WS_SIDE.side.tile n])

/-- WRITE and WRITE_BLOCK store at their addresses, or answer the status that refuses them (R10, R103, R396, R397, R523). A write to
an address that names nothing answers ADDRESS_ERROR and stores nothing; one to a scratchpad outside the device tables, or to a
tower below its reserved part, stores the word; a block of no words or of more than 512 is malformed; a roof word is written
whole with the side part of TILE_WS_SIDE; the first write of a flash sector stores it whole. In every clause, the parts of the
state, the register fields and the bytes of memory that it does not list keep their values. Each clause first lets the dt axle
ticks of its command pass. Its clauses conclude that exec ANSWERS A NEXT STATE with the command's own effect, for every state
and operands that meet hypotheses on these alone; so these COMPLETE: write, writeBlock, wsManagementWrite, flashWindowWrite.
What the spec leaves open in it is the model's choice or reading: log entries 1, 36, 38. -/
def Obligations.ManagementWrites : Prop :=
  -- write
    (∀ (dt : Nat) (cmd a v : Nat) (s s' : State), s' = s.pass dt →
      s'.cmdRuns 2 [1, 2] = true → s'.target a = none →
      ∃ t, exec (.write dt cmd a v) s = .next t
        ∧ t.lastResponse = some ⟨2, 2, 0, cmd, true, []⟩ ∧ t.regs = s'.regs ∧ t.mem = s'.mem ∧ s'.sameBut t [.port])
  ∧ -- write
    (∀ (dt : Nat) (cmd a v n off : Nat) (s s' : State), s' = s.pass dt →
      s'.cmdRuns 2 [1, 2] = true → s'.target a = some (.spad n off) → s'.inTable n off = false → off % 8 = 0 →
      Memory.wf s'.mem = true →
      ∃ t, exec (.write dt cmd a v) s = .next t
        ∧ t.lastResponse = some ⟨2, 0, 0, cmd, true, []⟩
        ∧ t.tile.late = (cutRows off (leBytes 8 v)).foldl (fun (l : List Late) (w : Nat × List Byte) => insertLate ⟨n, bankOf
          w.1, spadKey n w.1, portPrio .network, 0, none, none, w.2⟩ l) s'.tile.late
        ∧ (s'.tile.late = [] → (t.cycles t.tile.late.length).bytes (spadKey n off) 8 = (leBytes 8 v))
        ∧ s'.sameBut t [.regs, .ev, .port, .tile] ∧ s'.regsBut t (hazardFields n))
  ∧ -- write
    (∀ (dt : Nat) (cmd a v n off : Nat) (s s' : State), s' = s.pass dt →
      s'.cmdRuns 2 [1, 2] = true → s'.target a = some (.tower n off) → off < 0xFC0000000 → Memory.wf s'.mem = true →
      ∃ t, exec (.write dt cmd a v) s = .next t
        ∧ t.lastResponse = some ⟨2, 0, 0, cmd, true, []⟩ ∧ t.bytes (towerBase n + off) 8 = leBytes 8 v ∧ t.regs = s'.regs
        ∧ (∀ x : Nat, (x < towerBase n + off ∨ towerBase n + off + 8 ≤ x) → t.bytes x 1 = s'.bytes x 1)
        ∧ s'.sameBut t [.mem, .flips, .port])
  ∧ -- writeBlock
    (∀ (dt : Nat) (cmd a : Nat) (ws : List Nat) (s s' : State), s' = s.pass dt →
      s'.cmdRuns 4 [1, 2] = true → ((ws = [] ∨ 512 < ws.length)) →
      ∃ t, exec (.writeBlock dt cmd a ws) s = .next t
        ∧ t.lastResponse = some ⟨4, 6, 0, cmd, true, []⟩ ∧ t.regs = s'.regs ∧ t.mem = s'.mem ∧ s'.sameBut t [.port])
  ∧ -- writeBlock
    (∀ (dt : Nat) (cmd a v n off : Nat) (s s' : State), s' = s.pass dt →
      s'.cmdRuns 4 [1, 2] = true → s'.target a = some (.tower n off) → off < 0xFC0000000 → Memory.wf s'.mem = true →
      ∃ t, exec (.writeBlock dt cmd a [v]) s = .next t
        ∧ t.lastResponse = some ⟨4, 0, 0, cmd, true, []⟩ ∧ t.bytes (towerBase n + off) 8 = leBytes 8 (v % 2 ^ 64)
        ∧ t.regs = s'.regs ∧ s'.memBut t [(towerBase n + off, 8)] ∧ s'.sameBut t [.mem, .flips, .port])
  ∧ -- wsManagementWrite
    (∀ (dt : Nat) (cmd n w : Nat) (ws : List Nat) (s s' : State), s' = s.pass dt →
      s'.cmdRuns 4 [1, 2] = true → n < 9216 → s'.target (tileBase n + 64 * w) = some (.weights n (64 * w)) → w < 327680 →
      ws.length = 8 → Memory.wf s'.mem = true →
      ∃ t, exec (.wsManagementWrite dt cmd n w ws) s = .next t
        ∧ t.lastResponse = some ⟨4, 0, 0, cmd, true, []⟩ ∧ (s'.tile.late = [] →
        (t.cycles t.tile.late.length).bytes (tileBase n + 64 * w) 64 = ws.flatMap word8
        ∧ (t.cycles t.tile.late.length).num (sideKey n w) 4 = s'.get (TILE_WS_SIDE.side.tile n)) ∧ t.regs = s'.regs
        ∧ s'.sameBut t [.port, .tile])
  ∧ -- flashWindowWrite
    (∀ (dt : Nat) (cmd off : Nat) (ws : List Nat) (s s' : State), s' = s.pass dt →
      s'.cmdRuns 4 [1, 2] = true → s'.role = 1 → off % 4096 = 0 → off < 0x1000000 → ws.length = 512 →
      s'.target (0x400001000000 + off) = some (.flash off) → s'.extest = false → s'.sbx.erased.contains (off / 4096) = false →
      Memory.wf s'.mem = true →
      ∃ t, exec (.flashWindowWrite dt cmd off ws) s = .next t
        ∧ t.lastResponse = some ⟨4, 0, 0, cmd, true, []⟩
        ∧ t.bytes (flashKey (s'.flashSlot * 0x1000000 + off)) 4096 = ws.flatMap word8 ∧ (off / 4096) ∈ t.sbx.erased
        ∧ t.regs = s'.regs ∧ s'.memBut t [(flashKey (s'.flashSlot * 0x1000000 + off), 4096)]
        ∧ s'.sameBut t [.mem, .flips, .port, .sbx])

/-- An accepted write to the swap set becomes a shadow, and the answer names the turn in which it takes effect (R77, R78, R81, R262,
R274, R277, R460, R461). A write within its limits of the wide request, a sampling profile, an adapter or model pointer, coach
power-on or the frequency limit is held as the shadow of its setting, stamped with its time, until a boundary applies it; the
answer is OK with the number of that turn, and pending is set. A write outside the limits changes no shadow and is counted where
the spec gives a counter. The hold bit is what was written. In every clause, the parts of the state, the register fields and the
bytes of memory that it does not list keep their values. Each clause first lets the dt axle ticks of its command pass. Its
clauses conclude that exec ANSWERS A NEXT STATE with the command's own effect, for every state and operands that meet hypotheses
on these alone; so these COMPLETE: wideReqWrite, swapHoldWrite, sampProfileWrite, adapterPtrWrite, modelPtrWrite, coachOnWrite,
stepCapWrite, formatRecipeWrite. What the spec leaves open in it is the model's choice or reading: log entries 1, 13, 51. -/
def Obligations.SwapSetWrites : Prop :=
  -- wideReqWrite
    (∀ (dt : Nat) (cmd v : Nat) (s s' : State), s' = s.pass dt →
      s'.cmdRuns 2 [1, 2] = true → ((v.testBit 0 = false ∨ s'.flag HEAD_FMT_SET.available = true)) →
      ∃ t, exec (.wideReqWrite dt cmd v) s = .next t
        ∧ t.lastResponse = some ⟨2, 0, 0, cmd, true, (word8 s'.effectTurn)⟩
        ∧ t.turn.shadows.getLast? = some ⟨.wide, true, s'.ticks, (v % 2)⟩ ∧ t.flag HEAD_SWAP_CTRL.pending = true
        ∧ t.mem = s'.mem ∧ s'.sameBut t [.regs, .turn, .port] ∧ s'.regsBut t [HEAD_SWAP_CTRL.pending, HEAD_FMT_SET.wide_req])
  ∧ -- swapHoldWrite
    (∀ (dt : Nat) (cmd v : Nat) (s s' : State), s' = s.pass dt →
      s'.cmdRuns 2 [1, 2] = true →
      ∃ t, exec (.swapHoldWrite dt cmd v) s = .next t
        ∧ t.lastResponse = some ⟨2, 0, 0, cmd, true, []⟩ ∧ t.flag HEAD_SWAP_CTRL.hold = v.testBit 0
        ∧ t.turn.holdLog = (s'.ticks, s'.flag HEAD_SWAP_CTRL.hold) :: s'.turn.holdLog ∧ t.turn.shadows = s'.turn.shadows
        ∧ s'.sameBut t [.regs, .turn, .port] ∧ s'.regsBut t [HEAD_SWAP_CTRL.hold, HEAD_SWAP_CTRL.pending])
  ∧ -- sampProfileWrite
    (∀ (dt : Nat) (cmd v : Nat) (s s' : State), s' = s.pass dt →
      s'.cmdRuns 2 [1, 2] = true → profileOk v = true →
      ∃ t, exec (.sampProfileWrite dt cmd v) s = .next t
        ∧ t.lastResponse = some ⟨2, 0, 0, cmd, true, (word8 s'.effectTurn)⟩
        ∧ (t.turn.shadows.getLast?.map fun (x : Shadow) => (x.key, x.host, x.tick)) = some (.profile (s'.get
          HEAD_SAMP_INDEX.profile), true, s'.ticks)
        ∧ t.mem = s'.mem ∧ s'.sameBut t [.regs, .turn, .port]
        ∧ s'.regsBut t [HEAD_SWAP_CTRL.pending, .whole (HEAD_SAMP_PROFILE.addr + s'.get HEAD_SAMP_INDEX.profile * 281474976710656)])
  ∧ -- sampProfileWrite
    (∀ (dt : Nat) (cmd v : Nat) (s s' : State), s' = s.pass dt →
      s'.cmdRuns 2 [1, 2] = true → profileOk v = false →
      ∃ t, exec (.sampProfileWrite dt cmd v) s = .next t
        ∧ t.lastResponse = some ⟨2, 0, 0, cmd, true, []⟩
        ∧ t.get HEAD_SERVE_STATS.setting_refused = min (2 ^ HEAD_SERVE_STATS.setting_refused.w - 1) (s'.get
          HEAD_SERVE_STATS.setting_refused + 1)
        ∧ t.turn = s'.turn ∧ t.mem = s'.mem ∧ s'.sameBut t [.regs, .port] ∧ s'.regsBut t [HEAD_SERVE_STATS.setting_refused])
  ∧ -- adapterPtrWrite
    (∀ (dt : Nat) (cmd v a : Nat) (s s' : State), s' = s.pass dt →
      s'.cmdRuns 2 [1, 2] = true → s'.bankIx .adapter 0 = some a → v % 4 < 3 → ((v % 4 = 0
      ∨ s'.get (copyState a (v % 4)) ≠ 0)) →
      ∃ t, exec (.adapterPtrWrite dt cmd v) s = .next t
        ∧ t.lastResponse = some ⟨2, 0, 0, cmd, true, (word8 s'.effectTurn)⟩
        ∧ t.turn.shadows.getLast? = some ⟨(.adapter a), true, s'.ticks, (v % 4)⟩ ∧ t.mem = s'.mem
        ∧ s'.sameBut t [.regs, .turn, .port] ∧ s'.regsBut t [HEAD_SWAP_CTRL.pending, HEAD_ADAPTER_PTR.sel.ix a])
  ∧ -- modelPtrWrite
    (∀ (dt : Nat) (cmd v : Nat) (s s' : State), s' = s.pass dt →
      s'.cmdRuns 2 [1, 2] = true → v % 4 < 2 → ((v % 4 = 0 ∨ s'.flag HEAD_SERVE_CONFIG.halves = true)) →
      s'.get (halfState (v % 4)) ≠ 0 →
      ∃ t, exec (.modelPtrWrite dt cmd v) s = .next t
        ∧ t.lastResponse = some ⟨2, 0, 0, cmd, true, (word8 s'.effectTurn)⟩
        ∧ t.turn.shadows.getLast? = some ⟨.model, true, s'.ticks, (v % 4)⟩ ∧ t.mem = s'.mem ∧ s'.sameBut t [.regs, .turn, .port]
        ∧ s'.regsBut t [HEAD_SWAP_CTRL.pending, HEAD_MODEL_PTR.sel])
  ∧ -- coachOnWrite
    (∀ (dt : Nat) (cmd v : Nat) (s s' : State), s' = s.pass dt →
      s'.cmdRuns 2 [1, 2] = true →
      ((List.range 64).any fun c => (s'.get PWR_COACH_ON.on).testBit c && !v.testBit c && s'.coachInUse c) = false →
      ∃ t, exec (.coachOnWrite dt cmd v) s = .next t
        ∧ t.lastResponse = some ⟨2, 0, 0, cmd, true, (word8 s'.effectTurn)⟩
        ∧ t.turn.shadows.getLast? = some ⟨.coachOn, true, s'.ticks, (((List.range 64).filter fun c => v.testBit c &&
          !s'.coachDark c).foldl (fun a c => a + 2 ^ c) 0)⟩
        ∧ t.get PWR_COACH_ON.on = (((List.range 64).filter fun c => v.testBit c && !s'.coachDark c).foldl (fun a c => a + 2 ^ c) 0)
        ∧ t.mem = s'.mem ∧ s'.sameBut t [.regs, .turn, .port] ∧ s'.regsBut t [HEAD_SWAP_CTRL.pending, PWR_COACH_ON.on])
  ∧ -- stepCapWrite
    (∀ (dt : Nat) (cmd v : Nat) (s s' : State), s' = s.pass dt →
      s'.cmdRuns 2 [1, 2] = true →
      ∃ t, exec (.stepCapWrite dt cmd v) s = .next t
        ∧ t.lastResponse = some ⟨2, 0, 0, cmd, true, (word8 s'.effectTurn)⟩
        ∧ t.turn.shadows.getLast? = some ⟨.stepCap, true, s'.ticks, (max 48 (min 95 (bits v 48 7)))⟩
        ∧ t.get PWR_GOV.step_cap = max 48 (min 95 (bits v 48 7)) ∧ t.mem = s'.mem ∧ s'.sameBut t [.regs, .turn, .port]
        ∧ s'.regsBut t [HEAD_SWAP_CTRL.pending, PWR_GOV.step_cap])
  ∧ -- formatRecipeWrite
    (∀ (dt : Nat) (cmd v l : Nat) (s s' : State), s' = s.pass dt →
      s'.cmdRuns 2 [1, 2] = true → s'.bankIx .fmt 0 = some l → recipeBad (s'.fmt l) (s'.flag HEAD_FMT_SET.available) v = false →
      s'.flag (HEAD_FMT_INFO.changed.ix l) = false →
      ∃ t, exec (.formatRecipeWrite dt cmd v) s = .next t
        ∧ t.lastResponse = some ⟨2, 0, 0, cmd, true, (word8 s'.effectTurn)⟩
        ∧ (t.turn.shadows.getLast?.map fun (x : Shadow) => (x.key, x.host, x.tick)) = some (.recipe l, true, s'.ticks)
        ∧ t.mem = s'.mem ∧ s'.sameBut t [.regs, .turn, .port]
        ∧ s'.regsBut t [HEAD_SWAP_CTRL.pending, HEAD_FMT_RECIPE.act_shift.ix l, HEAD_FMT_RECIPE.stab.ix l,
          HEAD_FMT_RECIPE.sub.ix l, HEAD_FMT_RECIPE.act.ix l])
  ∧ -- formatRecipeWrite
    (∀ (dt : Nat) (cmd v l : Nat) (s s' : State), s' = s.pass dt →
      s'.cmdRuns 2 [1, 2] = true → s'.bankIx .fmt 0 = some l → recipeBad (s'.fmt l) (s'.flag HEAD_FMT_SET.available) v = true →
      l < 256 →
      ∃ t, exec (.formatRecipeWrite dt cmd v) s = .next t
        ∧ t.lastResponse = some ⟨2, 0, 0, cmd, true, []⟩ ∧ t.get (HEAD_FMT_STATUS.last_refusal.ix l) = 1 ∧ t.turn = s'.turn
        ∧ t.mem = s'.mem ∧ s'.sameBut t [.regs, .port]
        ∧ s'.regsBut t [HEAD_FMT_STATUS.last_refusal.ix l, HEAD_FMT_STATUS.refused.ix l])

/-- The other register writes that the table names have their own effects (R177, R234, R378, R309, R548, R461, R574). Clearing the
enable of shadow checking drops the samples in progress; a flush of the prefix cache drops every node that nobody holds and
marks the rest; clearing the hazard log empties it; a coach reset is taken up or refused with result 2; a cart issue is queued
while no image runs; a guard writes the shadow of coach power-on; an ATB selection connects after 1 µs. In every clause, the
parts of the state, the register fields and the bytes of memory that it does not list keep their values. Each clause first lets
the dt axle ticks of its command pass. Its clauses conclude that exec ANSWERS A NEXT STATE with the command's own effect, for
every state and operands that meet hypotheses on these alone; so these COMPLETE: shadowEnableWrite, prefixFlush, hazardClear,
coachResetRequest, cartIssueWrite, guardCoachOnWrite, atbSelect. What the spec leaves open in it is the model's choice or
reading: log entries 1, 13. -/
def Obligations.OtherRegisterWrites : Prop :=
  -- shadowEnableWrite
    (∀ (dt : Nat) (cmd v : Nat) (s s' : State), s' = s.pass dt →
      s'.cmdRuns 2 [1, 2] = true → v.testBit 32 = false →
      ∃ t, exec (.shadowEnableWrite dt cmd v) s = .next t
        ∧ t.lastResponse = some ⟨2, 0, 0, cmd, true, []⟩ ∧ t.serv.samples = [] ∧ t.mem = s'.mem ∧ t.turn = s'.turn
        ∧ s'.sameBut t [.regs, .port, .serv] ∧ s'.regsBut t [HEAD_SHADOW_CTRL.enable])
  ∧ -- prefixFlush
    (∀ (dt : Nat) (cmd : Nat) (s s' : State), s' = s.pass dt →
      s'.cmdRuns 2 [1, 2] = true →
      ∃ t, exec (.prefixFlush dt cmd) s = .next t
        ∧ t.lastResponse = some ⟨2, 0, 0, cmd, true, []⟩
        ∧ t.serv.nodes = (s'.serv.nodes.filter fun (x : Node) => x.refs != 0).map (fun (x : Node) => { x with flushed := true })
        ∧ t.flag HEAD_PREFIX_CTRL.enable = s'.flag HEAD_PREFIX_CTRL.enable ∧ t.mem = s'.mem ∧ s'.sameBut t [.regs, .port, .serv]
        ∧ s'.regsBut t [HEAD_PREFIX_CTRL.enable, HEAD_PREFIX_STATUS.nodes])
  ∧ -- hazardClear
    (∀ (dt : Nat) (cmd n : Nat) (s s' : State), s' = s.pass dt →
      s'.cmdRuns 2 [1, 2] = true → s'.target (tileBase n + TILE_HAZ_STATUS.addr) = some (.reg TILE_HAZ_STATUS 0 n) → n < 10240 →
      ∃ t, exec (.hazardClear dt cmd n) s = .next t
        ∧ t.lastResponse = some ⟨2, 0, 0, cmd, true, []⟩ ∧ t.get (TILE_HAZ_STATUS.entries.tile n) = 0 ∧ (∀ e : Nat, e < 31 →
        t.flag ((TILE_HAZ_LOG_n.valid.tile n).off (16 * e)) = false) ∧ t.mem = s'.mem ∧ s'.sameBut t [.regs, .port]
        ∧ s'.regsBut t (hazardFields n))
  ∧ -- coachResetRequest
    (∀ (dt : Nat) (cmd c : Nat) (s s' : State), s' = s.pass dt →
      s'.cmdRuns 2 [1, 2] = true → s'.flag HEAD_COACH_RESET.busy = false → s'.coachInUse (c % 64) = false → s'.rep.jobs = [] →
      s'.rep.rebuilds = [] → s'.rep.advance = none → s'.coachOn (c % 64) = true →
      ∃ t, exec (.coachResetRequest dt cmd c) s = .next t
        ∧ t.lastResponse = some ⟨2, 0, 0, cmd, true, []⟩ ∧ t.flag HEAD_COACH_RESET.busy = true
        ∧ t.boot.coachReset = some (c % 64) ∧ t.get HEAD_COACH_RESET.coach = c % 64 ∧ t.mem = s'.mem
        ∧ s'.sameBut t [.regs, .port, .boot]
        ∧ s'.regsBut t [HEAD_COACH_RESET.busy, HEAD_COACH_RESET.result, HEAD_COACH_RESET.coach])
  ∧ -- coachResetRequest
    (∀ (dt : Nat) (cmd c : Nat) (s s' : State), s' = s.pass dt →
      s'.cmdRuns 2 [1, 2] = true → s'.coachInUse (c % 64) = true →
      ∃ t, exec (.coachResetRequest dt cmd c) s = .next t
        ∧ t.lastResponse = some ⟨2, 0, 0, cmd, true, []⟩ ∧ t.get HEAD_COACH_RESET.result = 2 ∧ t.boot = s'.boot ∧ t.mem = s'.mem
        ∧ s'.sameBut t [.regs, .port] ∧ s'.regsBut t [HEAD_COACH_RESET.busy, HEAD_COACH_RESET.result, HEAD_COACH_RESET.coach])
  ∧ -- cartIssueWrite
    (∀ (dt : Nat) (cmd n ch off : Nat) (s s' : State), s' = s.pass dt →
      s'.cmdRuns 2 [1, 2] = true → s'.running = false → n < 9984 → (s'.cart n (ch % 8)).queue.length < 4 →
      s'.target (tileBase n + TILE_CART_ISSUE_n.addr + 32 * (ch % 8)) = some (.reg TILE_CART_ISSUE_n (ch % 8) n) →
      ∃ t, exec (.cartIssueWrite dt cmd n ch off) s = .next t
        ∧ t.lastResponse = some ⟨2, 0, 0, cmd, true, []⟩
        ∧ (t.cart n (ch % 8)).queue = (s'.cart n (ch % 8)).queue ++ [bits off 6 22 * 64] ∧ t.mem = s'.mem
        ∧ s'.sameBut t [.regs, .port, .net]
        ∧ s'.regsBut t [TILE_CART_STATUS_n.queued.cart n (ch % 8), TILE_CART_STATUS_n.overruns.cart n (ch % 8),
          TILE_CART_STATUS_n.reads_out.cart n (ch % 8)])
  ∧ -- guardCoachOnWrite
    (∀ (dt : Nat) (v : Nat) (s s' : State), s' = s.pass dt →
      ∃ t, exec (.guardCoachOnWrite dt v) s = .next t
        ∧ t.turn.shadows.getLast? = some ⟨.coachOn, false, s'.ticks, v % 2 ^ 64⟩ ∧ t.turn.holds = s'.turn.holds
        ∧ t.port = s'.port ∧ t.mem = s'.mem ∧ s'.sameBut t [.regs, .turn]
        ∧ s'.regsBut t [HEAD_SWAP_CTRL.pending, PWR_COACH_ON.on])
  ∧ -- atbSelect
    (∀ (dt : Nat) (cmd n v : Nat) (s s' : State), s' = s.pass dt →
      s'.cmdRuns 2 [1, 2] = true → n < 8 → v.testBit 63 = false →
      s'.atbRefused n (bits v 8 6) (bits v 16 3) (bits v 0 5) = false → bits v 8 6 ≠ 0x3F → bits v 0 5 ≠ 0 →
      s'.get (HEAD_ATB_SEL_n.node.pin n) ≠ bits v 0 5 →
      ∃ t, exec (.atbSelect dt cmd n v) s = .next t
        ∧ t.lastResponse = some ⟨2, 0, 0, cmd, true, []⟩ ∧ t.get (HEAD_ATB_SEL_n.bus.pin n) = bits v 8 6
        ∧ t.get (HEAD_ATB_SEL_n.node.pin n) = bits v 0 5 ∧ t.flag (HEAD_ATB_SEL_n.connected.pin n) = false
        ∧ (n, s'.ticks + 160) ∈ t.boot.atbDue ∧ t.mem = s'.mem ∧ s'.sameBut t [.regs, .port, .boot]
        ∧ s'.regsBut t [.whole (HEAD_ATB_SEL_n.bus.pin n).key])
  ∧ -- atbSelect
    (∀ (dt : Nat) (cmd n v : Nat) (s s' : State), s' = s.pass dt →
      s'.cmdRuns 2 [1, 2] = true → n < 8 → v.testBit 63 = false →
      s'.atbRefused n (bits v 8 6) (bits v 16 3) (bits v 0 5) = true →
      ∃ t, exec (.atbSelect dt cmd n v) s = .next t
        ∧ t.lastResponse = some ⟨2, 0, 0, cmd, true, []⟩ ∧ t.flag (HEAD_ATB_SEL_n.refused.pin n) = true ∧ t.boot = s'.boot
        ∧ t.mem = s'.mem ∧ s'.sameBut t [.regs, .port] ∧ s'.regsBut t [.whole (HEAD_ATB_SEL_n.bus.pin n).key])

/-- Blocks of a coupling are counted, discarded blocks are asked for again, and eight in a row fail it (R321, R327, R331). A block
that decodes clears the run of discarded blocks; one that does not is counted in uncorrectable, and the missing flits are asked
for; the eighth discarded in a row fails the coupling with event 82; an in-order flit that checks is taken; a nack replays what
is kept, and a fifth replay of the same flit fails the coupling. In every clause, the parts of the state, the register fields
and the bytes of memory that it does not list keep their values. Each clause first lets the dt axle ticks of its command pass.
Its clauses conclude that exec ANSWERS A NEXT STATE with the command's own effect, for every state and operands that meet
hypotheses on these alone; so these COMPLETE: couplingBlockReceive, couplingReplay. What the spec leaves open in it is the
model's choice or reading: log entries 1, 9, 21, 53. -/
def Obligations.CouplingBlocks : Prop :=
  -- couplingBlockReceive
    (∀ (dt : Nat) (k h : Nat) (fs : List LinkFlit) (s s' : State), s' = s.pass dt →
      k < 24 → s'.up k = true →
      ∃ t, exec (.couplingBlockReceive dt k ⟨true, [], h, fs⟩) s = .next t
        ∧ (t.link k).lost = 0 ∧ (t.link k).blocks = (s'.link k).blocks + 1 ∧ t.get (CPL_STATUS.state.cpl k) = 2 ∧ t.mem = s'.mem
        ∧ s'.sameBut t [.cpl])
  ∧ -- couplingBlockReceive
    (∀ (dt : Nat) (k h : Nat) (l : List Nat) (fs : List LinkFlit) (s s' : State), s' = s.pass dt →
      k < 24 → s'.up k = true → (s'.link k).lost < 7 → (s'.link k).nacking = false →
      ∃ t, exec (.couplingBlockReceive dt k ⟨false, l, h, fs⟩) s = .next t
        ∧ (t.link k).lost = (s'.link k).lost + 1 ∧ (t.link k).nacking = true ∧ (t.link k).expect = (s'.link k).expect
        ∧ t.get (CPL_ERRORS.uncorrectable.cpl k) = min (2 ^ CPL_ERRORS.uncorrectable.w - 1) (s'.get (CPL_ERRORS.uncorrectable.cpl k) + 1)
        ∧ t.get (CPL_ERRORS.retries.cpl k) = min (2 ^ CPL_ERRORS.retries.w - 1) (s'.get (CPL_ERRORS.retries.cpl k) + 1)
        ∧ t.get (CPL_STATUS.state.cpl k) = 2 ∧ t.mem = s'.mem ∧ s'.sameBut t [.regs, .cpl]
        ∧ s'.regsBut t [CPL_ERRORS.retries.cpl k, CPL_ERRORS.uncorrectable.cpl k, CPL_ERRORS.check_fails.cpl k, CPL_ERRORS.corrected.cpl k])
  ∧ -- couplingBlockReceive
    (∀ (dt : Nat) (k h : Nat) (l : List Nat) (fs : List LinkFlit) (s s' : State), s' = s.pass dt →
      k < 24 → s'.up k = true → 7 ≤ (s'.link k).lost →
      ∃ t, exec (.couplingBlockReceive dt k ⟨false, l, h, fs⟩) s = .next t
        ∧ t.get (CPL_STATUS.state.cpl k) = 3 ∧ (t.ev.inflight.any fun (e : EvRec) => e.num == 82 && e.a == 2) = true
        ∧ t.mem = s'.mem ∧ s'.sameBut t [.regs, .turn, .ev, .serv, .cpl]
        ∧ s'.regsBut t [CPL_STATUS.state.cpl k, CPL_ERRORS.retries.cpl k, CPL_ERRORS.uncorrectable.cpl k,
          CPL_ERRORS.check_fails.cpl k, CPL_ERRORS.corrected.cpl k])
  ∧ -- couplingBlockReceive
    (∀ (dt : Nat) (k h : Nat) (f : LinkFlit) (s s' : State), s' = s.pass dt →
      k < 24 → s'.up k = true → crc32c f.body = f.check → f.kind = 1 → f.last = 1 → f.seq = (s'.link k).expect →
      h.testBit 39 = false → (s'.link k).part = [] →
      ∃ t, exec (.couplingBlockReceive dt k ⟨true, [], h, [f]⟩) s = .next t
        ∧ (t.link k).expect = ((s'.link k).expect + 1) % 256 ∧ (t.link k).nacking = false
        ∧ (t.link k).inbox = (s'.link k).inbox ++ [[f]]
        ∧ (t.link k).credits = Sparse.put (s'.link k).credits (bits h 8 2) (bits h 2 6) ∧ t.mem = s'.mem ∧ s'.sameBut t [.cpl])
  ∧ -- couplingReplay
    (∀ (dt : Nat) (k a : Nat) (s s' : State), s' = s.pass dt →
      k < 24 → s'.up k = true → (s'.link k).nackAck = some a → (s'.link k).replayAck ≠ some a →
      ∃ t, exec (.couplingReplay dt k) s = .next t
        ∧ (t.link k).nackAck = none ∧ (t.link k).replayAck = some a ∧ (t.link k).replays = 1 ∧ (t.link k).replayTick = s'.ticks
        ∧ (t.link k).kept = (s'.link k).kept ∧ t.regs = s'.regs ∧ t.mem = s'.mem ∧ s'.sameBut t [.cpl])
  ∧ -- couplingReplay
    (∀ (dt : Nat) (k a : Nat) (s s' : State), s' = s.pass dt →
      k < 24 → s'.up k = true → (s'.link k).nackAck = some a → (s'.link k).replayAck = some a →
      512 ≤ (s'.ticks - (s'.link k).replayTick) * 25 → 4 ≤ (s'.link k).replays →
      ∃ t, exec (.couplingReplay dt k) s = .next t
        ∧ t.get (CPL_STATUS.state.cpl k) = 3 ∧ (t.ev.inflight.any fun (e : EvRec) => e.num == 82 && e.a == 1) = true
        ∧ t.mem = s'.mem ∧ s'.sameBut t [.regs, .turn, .ev, .serv, .cpl] ∧ s'.regsBut t [CPL_STATUS.state.cpl k])

/-- Training, the spare lane and the member number of a coupling (R322, R323, R324, R331). Training with 16 or 17 good lanes brings
a coupling up with the peer's numbers, and with fewer marks it failed in training with event 81; the member number of the peer
is stored; a mirror request puts the lane on the spare, and its switch is confirmed 64 blocks on; the switch takes the lane from
the spare with event 80; a lane that loses signal with the spare in use fails the coupling. In every clause, the parts of the
state, the register fields and the bytes of memory that it does not list keep their values. Each clause first lets the dt axle
ticks of its command pass. Its clauses conclude that exec ANSWERS A NEXT STATE with the command's own effect, for every state
and operands that meet hypotheses on these alone; so these COMPLETE: couplingTrainingEnd, memberNumberFlit, laneMirrorRequest,
laneSwitchRequest, laneSwitch, laneLosesSignal. What the spec leaves open in it is the model's choice or reading: log entries 1,
9. -/
def Obligations.CouplingLanes : Prop :=
  -- couplingTrainingEnd
    (∀ (dt : Nat) (k good pc pm : Nat) (s s' : State), s' = s.pass dt →
      k < 24 → s'.get (CPL_STATUS.state.cpl k) = 1 → 16 ≤ popcount 17 good → s'.port.long = none →
      ∃ t, exec (.couplingTrainingEnd dt k good pc pm) s = .next t
        ∧ t.get (CPL_STATUS.state.cpl k) = 2 ∧ t.get (CPL_STATUS.peer_cpl.cpl k) = pc % 32
        ∧ t.get (CPL_STATUS.peer_member.cpl k) = pm % 256 ∧ t.get (CPL_LANES.good.cpl k) = good % 2 ^ 17 ∧ t.mem = s'.mem
        ∧ s'.sameBut t [.regs, .cpl]
        ∧ s'.regsBut t [CPL_STATUS.peer_cpl.cpl k, CPL_STATUS.peer_member.cpl k, CPL_STATUS.state.cpl k, CPL_LANES.good.cpl k])
  ∧ -- couplingTrainingEnd
    (∀ (dt : Nat) (k good pc pm : Nat) (s s' : State), s' = s.pass dt →
      k < 24 → s'.get (CPL_STATUS.state.cpl k) = 1 → popcount 17 good < 16 → s'.port.long = none →
      ∃ t, exec (.couplingTrainingEnd dt k good pc pm) s = .next t
        ∧ t.get (CPL_STATUS.state.cpl k) = 4 ∧ t.lastEvent = some (81, good % 2 ^ 64, 0) ∧ t.mem = s'.mem
        ∧ s'.sameBut t [.regs, .ev, .cpl]
        ∧ s'.regsBut t [CPL_STATUS.peer_cpl.cpl k, CPL_STATUS.peer_member.cpl k, CPL_STATUS.state.cpl k, CPL_LANES.good.cpl k])
  ∧ -- memberNumberFlit
    (∀ (dt : Nat) (k m : Nat) (s s' : State), s' = s.pass dt →
      s'.up k = true →
      ∃ t, exec (.memberNumberFlit dt k m) s = .next t
        ∧ t.get (CPL_STATUS.peer_member.cpl k) = m % 256 ∧ t.cpl = s'.cpl ∧ t.mem = s'.mem ∧ s'.sameBut t [.regs]
        ∧ s'.regsBut t [CPL_STATUS.peer_member.cpl k])
  ∧ -- laneMirrorRequest
    (∀ (dt : Nat) (k lane : Nat) (s s' : State), s' = s.pass dt →
      s'.up k = true →
      ∃ t, exec (.laneMirrorRequest dt k lane) s = .next t
        ∧ (t.link k).outMirror = some lane ∧ t.regs = s'.regs ∧ t.mem = s'.mem ∧ s'.sameBut t [.cpl])
  ∧ -- laneSwitchRequest
    (∀ (dt : Nat) (k b : Nat) (s s' : State), s' = s.pass dt →
      s'.up k = true → (s'.link k).outMirror.isSome = true →
      ∃ t, exec (.laneSwitchRequest dt k b) s = .next t
        ∧ (t.link k).control = (s'.link k).control ++ [(3, b + 64)] ∧ t.regs = s'.regs ∧ t.mem = s'.mem ∧ s'.sameBut t [.cpl])
  ∧ -- laneSwitch
    (∀ (dt : Nat) (k : Nat) (s s' : State), s' = s.pass dt →
      k < 24 → s'.up k = true → s'.flag (CPL_LANES.mirroring.cpl k) = true → 256 ≤ (s'.link k).mirrorGood →
      ∃ t, exec (.laneSwitch dt k) s = .next t
        ∧ t.flag (CPL_LANES.mirroring.cpl k) = false ∧ t.flag (CPL_LANES.spare_used.cpl k) = true
        ∧ t.get (CPL_LANES.spared_lane.cpl k) = s'.get (CPL_LANES.mirror.cpl k)
        ∧ (t.lastEvent.map fun (e : Nat × Nat × Nat) => (e.1, e.2.1)) = some (80, s'.get (CPL_LANES.mirror.cpl k))
        ∧ t.mem = s'.mem ∧ s'.sameBut t [.regs, .ev]
        ∧ s'.regsBut t [CPL_LANES.spare_used.cpl k, CPL_LANES.spared_lane.cpl k, CPL_LANES.mirroring.cpl k])
  ∧ -- laneLosesSignal
    (∀ (dt : Nat) (k lane : Nat) (s s' : State), s' = s.pass dt →
      k < 24 → s'.up k = true → s'.flag (CPL_LANES.spare_used.cpl k) = true →
      ∃ t, exec (.laneLosesSignal dt k lane) s = .next t
        ∧ t.get (CPL_STATUS.state.cpl k) = 3
        ∧ t.get (CPL_LANES.weak_lanes.cpl k) = min (2 ^ CPL_LANES.weak_lanes.w - 1) (s'.get (CPL_LANES.weak_lanes.cpl k) + 1)
        ∧ (t.ev.inflight.any fun (e : EvRec) => e.num == 82 && e.a == 3) = true ∧ s'.sameBut t [.regs, .turn, .ev, .serv, .cpl]
        ∧ s'.regsBut t [CPL_STATUS.state.cpl k, CPL_LANES.weak_lanes.cpl k, CPL_LANES.mirror.cpl k, CPL_LANES.mirroring.cpl k])
  ∧ -- laneLosesSignal
    (∀ (dt : Nat) (k lane : Nat) (s s' : State), s' = s.pass dt →
      k < 24 → s'.up k = true → s'.flag (CPL_LANES.spare_used.cpl k) = false → s'.spareFree k = true →
      ∃ t, exec (.laneLosesSignal dt k lane) s = .next t
        ∧ t.flag (CPL_LANES.mirroring.cpl k) = true ∧ t.get (CPL_LANES.mirror.cpl k) = lane % 16
        ∧ (t.link k).control = (s'.link k).control ++ [(1, lane)] ∧ t.get (CPL_STATUS.state.cpl k) = 2
        ∧ s'.sameBut t [.regs, .cpl]
        ∧ s'.regsBut t [CPL_LANES.weak_lanes.cpl k, CPL_LANES.mirror.cpl k, CPL_LANES.mirroring.cpl k])

/-- The stall wave and the turn messages of a turn group (R326, R333, R334). An item of another member whose serial is one to four
ahead is applied once: a raise adds a hold of that member, a withdrawal ends its holds of that cause in the spoke it names; an
item of the own origin or with a serial already applied changes nothing; a turn message of this turn or of the next is kept
once. In every clause, the parts of the state, the register fields and the bytes of memory that it does not list keep their
values. Each clause first lets the dt axle ticks of its command pass. Its clauses conclude that exec ANSWERS A NEXT STATE with
the command's own effect, for every state and operands that meet hypotheses on these alone; so these COMPLETE: stallWaveItem,
turnMessage. What the spec leaves open in it is the model's choice or reading: log entries 1, 16, 44, 53. -/
def Obligations.TurnGroup : Prop :=
  -- stallWaveItem
    (∀ (dt : Nat) (k : Nat) (w : WaveItem) (s s' : State), s' = s.pass dt →
      s'.up k = true → s'.running = true → s'.turn.grouped = true → w.origin ≠ s'.member →
      1 ≤ (w.serial + 8 - (s'.turn.waves.find? fun (x : WaveState) => x.origin == w.origin && x.cause == w.cause).elim 0 (·.serial)) % 8 →
      (w.serial + 8 - (s'.turn.waves.find? fun (x : WaveState) => x.origin == w.origin && x.cause == w.cause).elim 0 (·.serial)) % 8 ≤ 4 →
      w.raise = true → w.cause ≠ 8 →
      ∃ t, exec (.stallWaveItem dt k w) s = .next t
        ∧ t.lastHold = some ⟨s'.turn.nextHold, w.cause, (s'.spoke - (s'.spoke + 16 - w.spoke) % 16), none, some w.origin, 0, none⟩
        ∧ t.turn.holds.length = s'.turn.holds.length + 1 ∧ t.regs = s'.regs ∧ t.mem = s'.mem ∧ s'.sameBut t [.turn, .cpl])
  ∧ -- stallWaveItem
    (∀ (dt : Nat) (k : Nat) (w : WaveItem) (s s' : State), s' = s.pass dt →
      s'.up k = true → s'.running = true → s'.turn.grouped = true → w.origin ≠ s'.member →
      1 ≤ (w.serial + 8 - (s'.turn.waves.find? fun (x : WaveState) => x.origin == w.origin && x.cause == w.cause).elim 0 (·.serial)) % 8 →
      (w.serial + 8 - (s'.turn.waves.find? fun (x : WaveState) => x.origin == w.origin && x.cause == w.cause).elim 0 (·.serial)) % 8 ≤ 4 →
      w.raise = false → w.cause ≠ 8 →
      ∃ t, exec (.stallWaveItem dt k w) s = .next t
        ∧ t.turn.holds = s'.turn.holds.map (fun (h : Hold) => if h.cause == w.cause && h.member == some w.origin &&
          h.withdraw.isNone then { h with withdraw := some (s'.spoke - (s'.spoke + 16 - w.spoke) % 16) } else h)
        ∧ t.regs = s'.regs ∧ t.mem = s'.mem ∧ s'.sameBut t [.turn, .cpl])
  ∧ -- stallWaveItem
    (∀ (dt : Nat) (k : Nat) (w : WaveItem) (s s' : State), s' = s.pass dt →
      ((w.origin = s'.member
      ∨ (w.serial + 8 - (s'.turn.waves.find? fun (x : WaveState) => x.origin == w.origin && x.cause == w.cause).elim 0
        (·.serial)) % 8 = 0)) →
      exec (.stallWaveItem dt k w) s = .next s')
  ∧ -- turnMessage
    (∀ (dt : Nat) (k : Nat) (m : TurnMsg) (s s' : State), s' = s.pass dt →
      s'.up k = true → s'.running = true → s'.turn.grouped = true → m.member ≠ s'.member → m.turn = s'.turnNo →
      ((s'.turn.msgs ++ s'.turn.msgsNext).any fun (x : TurnMsg) => x.member == m.member && x.turn == m.turn) = false →
      ∃ t, exec (.turnMessage dt k m) s = .next t
        ∧ t.turn.msgs = s'.turn.msgs ++ [m] ∧ t.turn.holds = s'.turn.holds ∧ t.regs = s'.regs ∧ t.mem = s'.mem
        ∧ s'.sameBut t [.turn, .cpl])
  ∧ -- turnMessage
    (∀ (dt : Nat) (k : Nat) (m : TurnMsg) (s s' : State), s' = s.pass dt →
      ((s'.turn.msgs ++ s'.turn.msgsNext).any fun (x : TurnMsg) => x.member == m.member && x.turn == m.turn) = true →
      exec (.turnMessage dt k m) s = .next s')

/-- Transactions of a coupling act at their member as packets do, and a relayed one goes on (R314, R336, R337, R338, R341). A remote
write for this member enters the mesh as write packets of at most 16 granules; a multicast write of a tree that is not here
changes nothing; an acknowledgement lowers the writes due of the channel whose descriptor has the tag; an error response sets
its error with code 0x1; one for another member is sent on with one hop more while the diameter allows; a type on a channel not
allowed to it is counted as discarded. In every clause, the parts of the state, the register fields and the bytes of memory that
it does not list keep their values. Each clause first lets the dt axle ticks of its command pass. Its clauses conclude that exec
ANSWERS A NEXT STATE with the command's own effect, for every state and operands that meet hypotheses on these alone; so these
COMPLETE: remoteWrite, multicastWriteTx, writeAckTx, errorResponseTx, barrierArriveTx, barrierReleaseTx. What the spec leaves
open in it is the model's choice or reading: log entries 1, 16, 21. -/
def Obligations.CouplingTransactions : Prop :=
  -- remoteWrite
    (∀ (dt : Nat) (k : Nat) (x : Tx) (s s' : State), s' = s.pass dt →
      k < 24 → s'.up k = true → txAllowed x = true → x.reservedZero = true → x.flags < 4 → x.push < 16 → x.ty = 1 →
      x.dstMember = s'.member → x.flags / 2 % 2 = 0 → x.space = 0 → 0 < x.data.length → x.data.length ≤ 1024 →
      ∃ t, exec (.remoteWrite dt k x) s = .next t
        ∧ (t.net.fly.getLast?.map fun (q : Packet) => (q.ty, q.vc, q.src, q.dst, q.tag)) = some (0, x.vc, bayEp k 0x22,
          x.dstEp, s'.net.nextTag)
        ∧ (t.net.fly.getLast?.map fun (q : Packet) => (q.offset, q.data)) = some (x.offset, x.data)
        ∧ t.net.fly.length = s'.net.fly.length + 1 ∧ t.mem = s'.mem ∧ t.regs = s'.regs ∧ s'.sameBut t [.net])
  ∧ -- multicastWriteTx
    (∀ (dt : Nat) (k : Nat) (x : Tx) (s s' : State), s' = s.pass dt →
      k < 24 → s'.up k = true → txAllowed x = true → x.reservedZero = true → x.flags < 4 → x.push < 16 → x.ty = 2 →
      s'.img.image = none →
      ∃ t, exec (.multicastWriteTx dt k x) s = .next t
        ∧ t.net = s'.net ∧ t.regs = s'.regs ∧ t.mem = s'.mem ∧ s'.sameBut t [])
  ∧ -- multicastWriteTx
    (∀ (dt : Nat) (k n : Nat) (x : Tx) (i : Image) (d : TreeDecl) (s s' : State), s' = s.pass dt →
      k < 24 → s'.up k = true → txAllowed x = true → x.reservedZero = true → x.flags < 4 → x.push < 16 → x.ty = 2 →
      s'.img.image = some i → (i.trees.find? fun (y : TreeDecl) => y.num == x.dstEp) = some d →
      s'.tileOf (d.lc * 256 + d.lt) = some n → 0 < x.data.length → x.data.length ≤ 1024 →
      ∃ t, exec (.multicastWriteTx dt k x) s = .next t
        ∧ (t.net.hops.getLast?.map fun (h : Hop) => (h.tile, h.port, h.pkt.ty, h.pkt.dst)) = some (n, 4, 5, x.dstEp)
        ∧ (t.net.hops.getLast?.map fun (h : Hop) => h.pkt.data) = some x.data ∧ t.mem = s'.mem ∧ s'.sameBut t [.net])
  ∧ -- writeAckTx
    (∀ (dt : Nat) (k n : Nat) (x : Tx) (r : CartRun) (s s' : State), s' = s.pass dt →
      k < 24 → s'.up k = true → txAllowed x = true → x.reservedZero = true → x.flags < 4 → x.push < 16 → x.ty = 3 →
      x.dstMember = s'.member → epTile x.dstEp = some n → (s'.cart n (s'.channelOf n x.tag)).run = some r → r.tag = x.tag →
      ∃ t, exec (.writeAckTx dt k x) s = .next t
        ∧ (t.cart n (s'.channelOf n x.tag)).run = some ⟨r.desc, r.at_, r.tag, r.out, r.todo, r.acks - 1, r.got, r.failed⟩
        ∧ t.mem = s'.mem ∧ s'.sameBut t [.regs, .net]
        ∧ s'.regsBut t [TILE_CART_STATUS_n.queued.cart n (s'.channelOf n x.tag), TILE_CART_STATUS_n.reads_out.cart n (s'.channelOf n x.tag)])
  ∧ -- errorResponseTx
    (∀ (dt : Nat) (k n : Nat) (x : Tx) (s s' : State), s' = s.pass dt →
      k < 24 → s'.up k = true → txAllowed x = true → x.reservedZero = true → x.flags < 4 → x.push < 16 → x.ty = 4 →
      x.dstMember = s'.member → epTile x.dstEp = some n → (s'.cart n (s'.channelOf n x.tag)).run = none →
      s'.flag (TILE_CART_ERR_n.valid.cart n (s'.channelOf n x.tag)) = false →
      ∃ t, exec (.errorResponseTx dt k x) s = .next t
        ∧ t.flag (TILE_CART_ERR_n.valid.cart n (s'.channelOf n x.tag)) = true
        ∧ t.get (TILE_CART_ERR_n.code.cart n (s'.channelOf n x.tag)) = 1 ∧ t.mem = s'.mem ∧ s'.sameBut t [.regs, .ev, .net]
        ∧ s'.regsBut t [.whole (TILE_CART_ERR_n.valid.cart n (s'.channelOf n x.tag)).key, TILE_CART_STATUS_n.queued.cart n
          (s'.channelOf n x.tag), TILE_CART_STATUS_n.reads_out.cart n (s'.channelOf n x.tag)])
  ∧ -- remoteWrite
    (∀ (dt : Nat) (k : Nat) (x : Tx) (s s' : State), s' = s.pass dt →
      k < 24 → s'.up k = true → txAllowed x = true → x.reservedZero = true → x.flags < 4 → x.push < 16 → x.ty = 1 →
      x.dstMember ≠ s'.member → x.hops < s'.get HEAD_TURN_CONFIG.diameter → s'.relayOf x.dstMember = some k →
      ∃ t, exec (.remoteWrite dt k x) s = .next t
        ∧ (t.link k).out = (s'.link k).out ++ [{ x with hops := x.hops + 1 }] ∧ t.net = s'.net ∧ t.regs = s'.regs
        ∧ t.mem = s'.mem ∧ s'.sameBut t [.cpl])
  ∧ -- remoteWrite
    (∀ (dt : Nat) (k : Nat) (x : Tx) (s s' : State), s' = s.pass dt →
      k < 24 → s'.up k = true → txAllowed x = false →
      ∃ t, exec (.remoteWrite dt k x) s = .next t
        ∧ t.get (CPL_STATUS.discarded.cpl k) = min (2 ^ CPL_STATUS.discarded.w - 1) (s'.get (CPL_STATUS.discarded.cpl k) + 1)
        ∧ t.net = s'.net ∧ t.mem = s'.mem ∧ s'.sameBut t [.regs] ∧ s'.regsBut t [CPL_STATUS.discarded.cpl k])
  ∧ -- barrierArriveTx
    (∀ (dt : Nat) (k : Nat) (x : Tx) (g : GBar) (up : Nat) (s s' : State), s' = s.pass dt →
      k < 24 → s'.up k = true → txAllowed x = true → x.reservedZero = true → x.flags < 4 → x.push < 16 → x.ty = 5 →
      x.dstMember = s'.member → s'.groupBarrier x.tag = some g → g.parent = some up → g.children = [k] → g.num = x.tag →
      s'.cpl.ownDone.contains g.num = true →
      ∃ t, exec (.barrierArriveTx dt k x) s = .next t
        ∧ ((t.link up).out.getLast?.map fun (y : Tx) => (y.ty, y.tag)) = some (5, x.tag) ∧ (x.tag, k) ∈ t.cpl.arrived
        ∧ t.mem = s'.mem ∧ s'.sameBut t [.cpl])
  ∧ -- barrierReleaseTx
    (∀ (dt : Nat) (k : Nat) (x : Tx) (g : GBar) (c : Nat) (s s' : State), s' = s.pass dt →
      k < 24 → s'.up k = true → txAllowed x = true → x.reservedZero = true → x.flags < 4 → x.push < 16 → x.ty = 6 →
      x.dstMember = s'.member → s'.groupBarrier x.tag = some g → g.children = [c] →
      ∃ t, exec (.barrierReleaseTx dt k x) s = .next t
        ∧ ((t.link c).out.getLast?.map fun (y : Tx) => (y.ty, y.tag)) = some (6, g.num)
        ∧ t.cpl.ownDone = s'.cpl.ownDone.filter (fun (y : Nat) => y != g.num) ∧ t.mem = s'.mem
        ∧ s'.sameBut t [.regs, .net, .cpl])

/-- Contributions gather, and a whole instance is reduced and pushed (R343, R344, R345). A contribution is stored at the gather base
of its part and counted; when every part is whole, an all-gather pushes a slot and goes on to the next instance, and an
all-reduce begins its reduce; the reduce stores its sums, pushes a slot, and goes on. In every clause, the parts of the state,
the register fields and the bytes of memory that it does not list keep their values. Each clause first lets the dt axle ticks of
its command pass. Its clauses conclude that exec ANSWERS A NEXT STATE with the command's own effect, for every state and
operands that meet hypotheses on these alone; so these COMPLETE: collectiveContribution, collectiveComplete, reduceComplete.
What the spec leaves open in it is the model's choice or reading: log entries 1, 16. -/
def Obligations.Collectives : Prop :=
  -- collectiveContribution
    (∀ (dt : Nat) (k n : Nat) (x : Tx) (d : CollDecl) (s s' : State), s' = s.pass dt →
      k < 24 → s'.up k = true → txAllowed x = true → x.reservedZero = true → x.flags < 4 → x.push < 16 → x.ty = 7 →
      x.dstMember = s'.member → s'.collective x.coll = some (d, n) → (s'.coll d).whole d.size = false →
      d.members.idxOf x.part < d.members.length → (s'.coll d).got.length = d.members.length → d.num = x.coll → 0 < x.data.length →
      (s'.coll d).got.getD (d.members.idxOf x.part) 0 + x.data.length ≤ d.size →
      s'.next.trapCircs.portTrap n .network (d.gather + d.members.idxOf x.part * d.size + x.offset) x.data.length remoteWrite = 0 →
      Memory.wf s'.mem = true →
      ∃ t, exec (.collectiveContribution dt k x) s = .next t
        ∧ t.tile.late = (cutRows (d.gather + d.members.idxOf x.part * d.size + x.offset) x.data).foldl (fun (l : List Late) (w
          : Nat × List Byte) => insertLate ⟨n, bankOf w.1, spadKey n w.1, portPrio .network, 0, none, some w.1, w.2⟩ l)
          s'.next.trapCircs.tile.late
        ∧ (s'.next.trapCircs.tile.late = [] →
        (t.cycles t.tile.late.length).bytes (spadKey n (d.gather + d.members.idxOf x.part * d.size + x.offset)) x.data.length = x.data)
        ∧ (t.coll d).got.getD (d.members.idxOf x.part) 0 = (s'.coll d).got.getD (d.members.idxOf x.part) 0 + x.data.length
        ∧ s'.next.trapCircs.sameBut t [.regs, .ev, .tile, .cpl] ∧ s'.next.trapCircs.regsBut t (hazardFields n))
  ∧ -- collectiveComplete
    (∀ (dt : Nat) (c n : Nat) (d : CollDecl) (s s' : State), s' = s.pass dt →
      s'.collective c = some (d, n) → (s'.coll d).whole d.size = true → (s'.coll d).reducing = false → d.kind = 0 →
      d.region < 16 → s'.tile.circ = [] → s'.circ n d.region TILE_CIRC_CFG_n.enable ≠ 0 →
      (s'.tile.waits.any fun (w : Wait) => w.tile == n && w.circ == d.region && w.pop == false) = false →
      s'.pushLegal n d.region 1 = true →
      ∃ t, exec (.collectiveComplete dt c) s = .next t
        ∧ t.tile.circ = [⟨n, d.region, 1, portPrio .network, portCode .network, false, none, true⟩]
        ∧ t.endCycle.circ n d.region TILE_CIRC_PTR_n.count = s'.circ n d.region TILE_CIRC_PTR_n.count + 1
        ∧ (t.coll d).got = (s'.coll d).next ∧ s'.sameBut t [.tile, .cpl])
  ∧ -- collectiveComplete
    (∀ (dt : Nat) (c n : Nat) (d : CollDecl) (s s' : State), s' = s.pass dt →
      s'.collective c = some (d, n) → (s'.coll d).whole d.size = true → (s'.coll d).reducing = false → d.kind = 1 →
      ∃ t, exec (.collectiveComplete dt c) s = .next t
        ∧ (t.coll d).reducing = true ∧ t.regs = s'.regs ∧ t.mem = s'.mem ∧ s'.sameBut t [.cpl])
  ∧ -- reduceComplete
    (∀ (dt : Nat) (c n : Nat) (d : CollDecl) (s s' : State), s' = s.pass dt →
      s'.collective c = some (d, n) → (s'.coll d).reducing = true → (∀ m : Nat, m < d.members.length →
      ∀ p ∈ s'.flips, p.1 + 8 ≤ spadKey n (d.gather + m * d.size) ∨ spadKey n (d.gather + m * d.size) + d.size ≤ p.1) →
      d.region < 16 → s'.tile.circ = [] → s'.circ n d.region TILE_CIRC_CFG_n.enable ≠ 0 →
      (s'.tile.waits.any fun (w : Wait) => w.tile == n && w.circ == d.region && w.pop == false) = false →
      s'.pushLegal n d.region 1 = true → Memory.wf s'.mem = true →
      ∃ t, exec (.reduceComplete dt c) s = .next t
        ∧ t.bytes (spadKey n d.result) (s'.reduced d n).1.length = (s'.reduced d n).1
        ∧ t.tile.circ = [⟨n, d.region, 1, portPrio .network, portCode .network, false, none, true⟩]
        ∧ t.endCycle.circ n d.region TILE_CIRC_PTR_n.count = s'.circ n d.region TILE_CIRC_PTR_n.count + 1
        ∧ (t.coll d).reducing = false ∧ (t.coll d).got = (s'.coll d).next
        ∧ s'.memBut t [(spadKey n d.result, (s'.reduced d n).1.length)] ∧ s'.sameBut t [.regs, .mem, .flips, .ev, .tile, .cpl]
        ∧ s'.regsBut t (hazardFields n))

/-- Raw requests cross a coupling, are executed where they are enabled, and are answered (R342, R348, R398). RAW sends a request and
waits for its response; a request of word 0 bytes reads, and the answer carries status and word; one on a coupling whose enable
is clear is answered with status 1 and changes nothing; the response ends the waiting command; a section write stores the bytes
at the place it names and is counted. In every clause, the parts of the state, the register fields and the bytes of memory that
it does not list keep their values. Each clause first lets the dt axle ticks of its command pass. Its clauses conclude that exec
ANSWERS A NEXT STATE with the command's own effect, for every state and operands that meet hypotheses on these alone; so these
COMPLETE: raw, rawRequest, rawResponse, sectionWrite. What the spec leaves open in it is the model's choice or reading: log
entries 1, 16, 21. -/
def Obligations.RawRequests : Prop :=
  -- raw
    (∀ (dt : Nat) (cmd k chan a v : Nat) (s s' : State), s' = s.pass dt →
      s'.cmdRuns 0x40 [1, 2] = true → k < 24 → chan < 2 → s'.up k = true →
      ∃ t, exec (.raw dt cmd k chan a v false) s = .next t
        ∧ t.port.raw = some (cmd, k, s'.ticks)
        ∧ ((t.link k).out.getLast?.map fun (y : Tx) => (y.ty, y.tag, y.part)) = some (9, s'.port.rawTag, chan) ∧ t.mem = s'.mem
        ∧ t.regs = s'.regs ∧ s'.sameBut t [.port, .cpl])
  ∧ -- raw
    (∀ (dt : Nat) (cmd k chan a v : Nat) (w : Bool) (s s' : State), s' = s.pass dt →
      s'.cmdRuns 0x40 [1, 2] = true → ((24 ≤ k ∨ 2 ≤ chan)) →
      ∃ t, exec (.raw dt cmd k chan a v w) s = .next t
        ∧ t.lastResponse = some ⟨0x40, 6, 0, cmd, true, []⟩ ∧ t.port.raw = s'.port.raw ∧ t.mem = s'.mem ∧ s'.sameBut t [.port])
  ∧ -- rawRequest
    (∀ (dt : Nat) (k : Nat) (x : Tx) (s s' : State), s' = s.pass dt →
      k < 24 → s'.up k = true → x.vc = 0 → x.reservedZero = true → x.flags < 4 → x.push < 16 → x.ty = 9 → x.part = 1 →
      s'.flag (CPL_CONFIG.raw_debug.cpl k) = false →
      ∃ t, exec (.rawRequest dt k x) s = .next t
        ∧ ((t.link k).out.getLast?.map fun (y : Tx) => (y.ty, y.status, y.tag, y.data)) = some (10, 1, x.tag, [])
        ∧ t.regs = s'.regs ∧ t.mem = s'.mem ∧ s'.sameBut t [.cpl])
  ∧ -- rawRequest
    (∀ (dt : Nat) (k a : Nat) (x : Tx) (s s' : State), s' = s.pass dt →
      k < 24 → s'.up k = true → x.vc = 0 → x.reservedZero = true → x.flags < 4 → x.push < 16 → x.ty = 9 → x.part = 0 →
      s'.flag (CPL_CONFIG.raw_loader.cpl k) = true → x.data = [] → rawAddr x.dstEp x.space x.offset = some a →
      ∃ t, exec (.rawRequest dt k x) s = .next t
        ∧ ((t.link k).out.getLast?.map fun (y : Tx) => (y.ty, y.status, y.tag, y.data)) = some (10, (if (s'.mgmtRead a).1 =
          stOk then 0 else 1), x.tag, word8 (s'.mgmtRead a).2.1)
        ∧ t.mem = (s'.mgmtRead a).2.2.mem ∧ s'.sameBut t [.regs, .turn, .ev, .sbx, .tile, .cpl, .rep])
  ∧ -- rawResponse
    (∀ (dt : Nat) (k cmd tk : Nat) (x : Tx) (s s' : State), s' = s.pass dt →
      k < 24 → s'.up k = true → x.vc = 0 → x.reservedZero = true → x.flags < 4 → x.push < 16 → x.ty = 10 →
      s'.port.raw = some (cmd, k, tk) → (x.tag + 1) % 256 = s'.port.rawTag →
      ∃ t, exec (.rawResponse dt k x) s = .next t
        ∧ t.port.raw = none ∧ t.lastResponse = some ⟨0x40, 0, 0, cmd, true, word8 x.status ++ word8 (leNat (x.data.take 8))⟩
        ∧ t.mem = s'.mem ∧ s'.sameBut t [.port])
  ∧ -- sectionWrite
    (∀ (dt : Nat) (k : Nat) (x : Tx) (s s' : State), s' = s.pass dt →
      k < 24 → s'.up k = true → x.vc = 3 → x.reservedZero = true → x.flags < 4 → x.push < 16 → x.ty = 11 → x.space = 3 →
      s'.towerFailed x.part = false → s'.group = none → s'.img.load = none → Memory.wf s'.mem = true →
      ∃ t, exec (.sectionWrite dt k x) s = .next t
        ∧ t.bytes (towerBase x.part + x.offset) x.data.length = x.data ∧ t.cpl.sections = s'.cpl.sections + 1 ∧ t.regs = s'.regs
        ∧ s'.memBut t [(towerBase x.part + x.offset, x.data.length)] ∧ s'.sameBut t [.mem, .flips, .cpl])

/-- Turn 0, the work end, the boundary and inserted spokes carry a running image through its turns (R70, R76, R82, R85, R398, R492).
Turn 0 begins at the count that IMAGE_START named, at step 48 and with turn number 0; the schedule clock reaches Q once at the
work end; at the boundary the turn number goes up by one and the next turn starts in the boundary's spoke when nothing is
inserted; an image that is to stop stops there and answers; a spoke inserted for a step change brings the new step with event
19. In every clause, the parts of the state, the register fields and the bytes of memory that it does not list keep their
values. Each clause first lets the dt axle ticks of its command pass. Its clauses conclude that exec ANSWERS A NEXT STATE with
the command's own effect, for every state and operands that meet hypotheses on these alone; so these COMPLETE: turn0Start,
workEndReached, turnBoundary, insertedSpoke. What the spec leaves open in it is the model's choice or reading: log entries 1,
14, 23. -/
def Obligations.TurnProgress : Prop :=
  -- turn0Start
    (∀ (dt : Nat) (hot : List Nat) (c : Nat) (s s' : State), s' = s.pass dt →
      s'.turn.startAt = some c → s'.running = true → c ≤ s'.count →
      ∃ t, exec (.turn0Start dt hot) s = .next t
        ∧ t.turn.startAt = none ∧ t.turnNo = 0 ∧ t.turn.origin = c / 8 ∧ t.turn.q = none ∧ t.k = 48
        ∧ t.get HEAD_TURN_START.start = 8 * (c / 8) % 2 ^ 64
        ∧ s'.sameBut t [.regs, .mem, .flips, .turn, .tile, .net, .serv, .boot, .pwr])
  ∧ -- workEndReached
    (∀ (dt : Nat) (s s' : State), s' = s.pass dt →
      s'.inTurn = true → s'.turn.q = none → s'.spokeQ ≤ s'.spoke → s'.checksumMisses = [] →
      ∃ t, exec (.workEndReached dt) s = .next t
        ∧ t.turn.q = some s'.spokeQ ∧ t.turn.reqStep.isSome = true ∧ t.mem = s'.mem ∧ s'.sameBut t [.regs, .turn, .tile]
        ∧ s'.regsBut t [HEAD_TURN_STATE.phase])
  ∧ -- workEndReached
    (∀ (dt : Nat) (n : Nat) (s s' : State), s' = s.pass dt →
      s'.inTurn = true → s'.turn.q = none → s'.spokeQ ≤ s'.spoke → s'.checksumMisses = [n] → s'.tile.missed.contains n = false →
      s'.holding 6 = false → s'.get HEAD_REPAIR_STATUS.reruns < 4 →
      ∃ t, exec (.workEndReached dt) s = .next t
        ∧ n ∈ t.tile.missed ∧ t.turn.q = some s'.spokeQ ∧ t.holding 6 = true ∧ t.mem = s'.mem
        ∧ s'.sameBut t [.regs, .turn, .ev, .tile]
        ∧ s'.regsBut t [HEAD_TURN_STATE.phase, HEAD_REPAIR_COUNTS.recovered, HEAD_REPAIR_COUNTS.voids, HEAD_REPAIR_COUNTS.failures])
  ∧ -- turnBoundary
    (∀ (dt : Nat) (b : Nat) (env : BoundaryEnv) (s s' : State), s' = s.pass dt →
      s'.boundary? = some b → s'.turn.grouped = false → s'.turn.msgs = [] → s'.turn.stopCmd = none → s'.serv.drain = none →
      s'.turn.insertReq = [] → s'.turn.reqStep = some s'.k →
      ∃ t, exec (.turnBoundary dt env) s = .next t
        ∧ t.turnNo = (s'.turnNo + 1) % 2 ^ 48 ∧ t.turn.origin = b ∧ t.turn.q = none ∧ t.turn.inserts = []
        ∧ t.get HEAD_TURN_START.start = 8 * b % 2 ^ 64
        ∧ s'.sameBut t [.regs, .mem, .flips, .free, .turn, .ev, .port, .sbx, .img, .tile, .net, .serv, .boot, .rep, .pwr, .thm])
  ∧ -- turnBoundary
    (∀ (dt : Nat) (b : Nat) (env : BoundaryEnv) (cmd : Nat) (s s' : State), s' = s.pass dt →
      s'.boundary? = some b → s'.turn.grouped = false → s'.turn.msgs = [] → s'.turn.stopCmd = some cmd → cmd < 2 ^ 32 →
      ∃ t, exec (.turnBoundary dt env) s = .next t
        ∧ t.get HEAD_IMAGE_STATUS.state = 2 ∧ t.lastResponse = some ⟨0x21, 0, 0, cmd, true, word8 s'.turnNo⟩
        ∧ s'.sameBut t [.regs, .mem, .flips, .free, .turn, .ev, .port, .sbx, .img, .tile, .net, .serv, .boot, .rep, .pwr, .thm])
  ∧ -- insertedSpoke
    (∀ (dt : Nat) (rest : List InsertKind) (k : Nat) (s s' : State), s' = s.pass dt →
      s'.turn.inserts = .freqStep :: rest → s'.turn.newStep = some k → s'.running = true →
      s'.turnStart ≤ s'.spoke + rest.length + 1 →
      ∃ t, exec (.insertedSpoke dt) s = .next t
        ∧ t.k = k % 128 ∧ t.turn.inserts = rest ∧ t.turn.newStep = none ∧ t.lastEvent = some (19, s'.k, k % 2 ^ 64)
        ∧ t.mem = s'.mem ∧ s'.sameBut t [.regs, .turn, .ev, .pwr])
  ∧ -- insertedSpoke
    (∀ (dt : Nat) (rest : List InsertKind) (s s' : State), s' = s.pass dt →
      s'.turn.inserts = .hitchSub :: rest → s'.net.degraded = [] → s'.running = true →
      s'.turnStart ≤ s'.spoke + rest.length + 1 →
      ∃ t, exec (.insertedSpoke dt) s = .next t
        ∧ t.turn.inserts = rest ∧ t.k = s'.k ∧ t.mem = s'.mem ∧ s'.sameBut t [.regs, .turn, .net]
        ∧ s'.regsBut t [HEAD_TURN_STATE.phase])

/-- Holds are raised, come into force and end, and a void leads to a rerun point (R83, R86, R89, R418, R419). A late arrival raises
a hold of the cause that its kind has; data that is complete withdraws the hold of that number in the present spoke; a spoke in
which a hold is in force shows phase 2, and the clock runs again when none is; a hold of cause 6 empties the cart queues once;
the rerun point restarts the schedule clock from the turn's start state. While an image runs and no hold of cause 0xC of this
device stands, the raise adds a hold of that cause that begins in the present spoke; the withdrawal ends every hold of that
cause of this device. Neither changes memory. In every clause, the parts of the state, the register fields and the bytes of
memory that it does not list keep their values. Each clause first lets the dt axle ticks of its command pass. Its clauses
conclude that exec ANSWERS A NEXT STATE with the command's own effect, for every state and operands that meet hypotheses on
these alone; so these COMPLETE: arrivalDeadlineMissed, holdDataComplete, holdInForce, holdForceEnd, rerunPoint, hostHoldRaise,
hostHoldWithdraw. What the spec leaves open in it is the model's choice or reading: log entries 1, 12. -/
def Obligations.HoldsInForce : Prop :=
  -- arrivalDeadlineMissed
    (∀ (dt : Nat) (unit kind : Nat) (r : Bool) (via : Option Nat) (s s' : State), s' = s.pass dt →
      s'.inTurn = true → (lateCause kind r ≠ 0xB ∨ kind = 1 ∨ prefillUnit unit = false ∨ s'.holding 6 = false) →
      ∃ t, exec (.arrivalDeadlineMissed dt unit kind r via) s = .next t
        ∧ t.lastHold = some ⟨s'.turn.nextHold, lateCause kind r, s'.spoke, none, none, unit, via⟩
        ∧ t.turn.nextHold = s'.turn.nextHold + 1
        ∧ t.get HEAD_KV_STATS.late_fetch = (if lateCause kind r = 3 then min (2 ^ HEAD_KV_STATS.late_fetch.w - 1) (s'.get
          HEAD_KV_STATS.late_fetch + 1) else s'.get HEAD_KV_STATS.late_fetch)
        ∧ t.turn.holds.length = s'.turn.holds.length + 1 ∧ t.mem = s'.mem ∧ s'.sameBut t [.regs, .turn]
        ∧ s'.regsBut t [HEAD_TURN_STATE.phase, HEAD_KV_STATS.late_fetch])
  ∧ -- holdDataComplete
    (∀ (dt : Nat) (id : Nat) (h : Hold) (s s' : State), s' = s.pass dt →
      (s'.turn.holds.find? fun (x : Hold) => x.id == id && x.member.isNone && x.withdraw.isNone) = some h → ((h.cause = 1
      ∨ h.cause = 2 ∨ h.cause = 3 ∨ h.cause = 0xA ∨ h.cause = 0xB)) →
      ∃ t, exec (.holdDataComplete dt id) s = .next t
        ∧ t.turn.holds = s'.turn.holds.map (fun (x : Hold) => if x.cause == h.cause && x.member.isNone && x.withdraw.isNone &&
          x.id == id then { x with withdraw := some s'.spoke } else x)
        ∧ t.regs = s'.regs ∧ t.mem = s'.mem ∧ s'.sameBut t [.turn])
  ∧ -- holdDataComplete
    (∀ (dt : Nat) (id : Nat) (h : Hold) (s s' : State), s' = s.pass dt →
      (s'.turn.holds.find? fun (x : Hold) => x.id == id && x.member.isNone && x.withdraw.isNone) = some h → h.cause = 6 →
      s'.causeInForce 6 s'.spoke = true → s'.copied = true →
      ∃ t, exec (.holdDataComplete dt id) s = .next t
        ∧ t.holding 6 = false ∧ t.net.hops = [] ∧ (t.net.fly.all fun (p : Packet) => 9 ≤ p.ty) = true ∧ t.mem = s'.mem
        ∧ s'.sameBut t [.regs, .turn, .net])
  ∧ -- holdInForce
    (∀ (dt : Nat) (s s' : State), s' = s.pass dt →
      s'.inTurn = true → s'.inForce s'.spoke = true → s'.causeInForce 6 s'.spoke = false →
      ∃ t, exec (.holdInForce dt) s = .next t
        ∧ t.get HEAD_TURN_STATE.phase = 2 ∧ t.turn = s'.turn ∧ t.net = s'.net ∧ t.mem = s'.mem ∧ s'.sameBut t [.regs]
        ∧ s'.regsBut t [HEAD_TURN_STATE.phase])
  ∧ -- holdInForce
    (∀ (dt : Nat) (s s' : State), s' = s.pass dt →
      s'.inTurn = true → s'.causeInForce 6 s'.spoke = true → s'.turn.voidSeen = false → Sparse.sorted s'.net.carts = true →
      ∃ t, exec (.holdInForce dt) s = .next t
        ∧ t.turn.voidSeen = true ∧ t.holding 6 = true
        ∧ (t.net.carts.all fun (p : Nat × Cart) => p.2.queue.isEmpty && p.2.run.isNone && p.2.chain.isNone) = true
        ∧ s'.sameBut t [.regs, .mem, .flips, .turn, .net, .boot, .pwr])
  ∧ -- holdForceEnd
    (∀ (dt : Nat) (s s' : State), s' = s.pass dt →
      s'.inTurn = true → s'.inForce s'.spoke = false → s'.net.carts = [] →
      ∃ t, exec (.holdForceEnd dt) s = .next t
        ∧ t.get HEAD_TURN_STATE.phase = (if s'.turn.q.isSome then 3 else 1) ∧ t.turn = s'.turn ∧ t.mem = s'.mem
        ∧ s'.sameBut t [.regs, .net] ∧ s'.regsBut t [HEAD_TURN_STATE.phase])
  ∧ -- rerunPoint
    (∀ (dt : Nat) (s s' : State), s' = s.pass dt →
      s'.inTurn = true → s'.turn.voidSeen = true → s'.causeInForce 6 s'.spoke = false → s'.holding 6 = false →
      ∃ t, exec (.rerunPoint dt) s = .next t
        ∧ t.turn.origin = s'.spoke ∧ t.turn.q = none ∧ t.turn.voidSeen = false ∧ t.turn.faulted = false ∧ t.tile.sums = []
        ∧ t.tile.late = [] ∧ t.tile.fills = [] ∧ t.cpl.colls = []
        ∧ s'.sameBut t [.regs, .mem, .flips, .turn, .ev, .port, .sbx, .img, .tile, .net, .serv, .boot, .cpl, .rep, .pwr])
  ∧ -- hostHoldRaise
    (∀ (dt : Nat) (s s' : State), s' = s.elapse dt →
      s'.running = true → s'.holding 0xC = false →
      ∃ t, exec (.hostHoldRaise dt) s = .next t
        ∧ t.lastHold = some ⟨s'.turn.nextHold, 0xC, s'.spoke, none, none, coordHead 0, none⟩ ∧ t.mem = s'.mem
        ∧ s'.sameBut t [.turn])
  ∧ -- hostHoldWithdraw
    (∀ (dt : Nat) (s s' : State), s' = s.elapse dt →
      ∃ t, exec (.hostHoldWithdraw dt) s = .next t
        ∧ t.localHolds 0xC = 0 ∧ t.mem = s'.mem ∧ t.turn.holds.length = s'.turn.holds.length ∧ s'.sameBut t [.turn])

/-- Repair copies, refills and copies in advance make progress under a void (R426, R427, R428, R429). A part of a repair copy takes
at most 5,120 lines off those left; a refill marks the job refilled and stores only what the transfer table sends to the tile; a
copy in advance becomes ready; a repair whose target fails too is given a new target, and the failed target is recorded in the
defect map. In every clause, the parts of the state, the register fields and the bytes of memory that it does not list keep
their values. Each clause first lets the dt axle ticks of its command pass. Its clauses conclude that exec ANSWERS A NEXT STATE
with the command's own effect, for every state and operands that meet hypotheses on these alone; so these COMPLETE:
repairCopyPartComplete, refillComplete, advanceCopyComplete, repairCopyEscalate. What the spec leaves open in it is the model's
choice or reading: log entries 1, 12, 28, 63. -/
def Obligations.RepairCopies : Prop :=
  -- repairCopyPartComplete
    (∀ (dt : Nat) (key : Nat) (j : RepJob) (i : Image) (s s' : State), s' = s.pass dt →
      s'.job? key = some j → s'.img.image = some i → s'.targetReady j.target = true → s'.causeInForce 6 s'.spoke = true →
      j.lines ≠ 0 → s'.shadowLost i key = false →
      ∃ t, exec (.repairCopyPartComplete dt key) s = .next t
        ∧ (t.job? key).map (fun (x : RepJob) => x.lines) = some (j.lines - min 5120 j.lines) ∧ t.regs = s'.regs
        ∧ t.port = s'.port ∧ s'.sameBut t [.mem, .flips, .turn, .rep])
  ∧ -- refillComplete
    (∀ (dt : Nat) (key : Nat) (j : RepJob) (i : Image) (l : List (Nat × List Byte)) (s s' : State), s' = s.pass dt →
      s'.job? key = some j → s'.img.image = some i → s'.targetReady j.target = true → s'.causeInForce 6 s'.spoke = true →
      j.prefill = false → j.refilled = false → s'.rep.rebuilds = [] →
      ∃ t, exec (.refillComplete dt key l) s = .next t
        ∧ (t.job? key).map (fun (x : RepJob) => x.refilled) = some true ∧ t.regs = s'.regs ∧ (l = [] → t.mem = s'.mem)
        ∧ s'.sameBut t [.mem, .flips, .rep])
  ∧ -- advanceCopyComplete
    (∀ (dt : Nat) (a : Advance) (i : Image) (s s' : State), s' = s.pass dt →
      s'.rep.advance = some a → s'.img.image = some i → a.ready = false → s'.turning = true → s'.targetReady a.target = true →
      s'.thm.selfRefresh = false → s'.shadowLost i a.key = false →
      ∃ t, exec (.advanceCopyComplete dt) s = .next t
        ∧ t.rep.advance = some ⟨a.key, a.lost, a.target, a.rotate, true⟩ ∧ t.regs = s'.regs ∧ t.turn = s'.turn
        ∧ s'.sameBut t [.mem, .flips, .rep])
  ∧ -- repairCopyEscalate
    (∀ (dt : Nat) (key m : Nat) (fails : Bool) (j : RepJob) (i : Image) (s s' : State), s' = s.pass dt →
      (fails = true ∨ s'.heldOver 6 2000 none = true) → s'.job? key = some j → j.key = key → s'.img.image = some i →
      j.prefill = true → s'.sbx.store.length < 4096 → 9216 ≤ j.target → j.target < 9984 →
      (s'.targetLost j).chooseP j.lost = some m →
      ∃ t, exec (.repairCopyEscalate dt ⟨key, fails⟩) s = .next t
        ∧ (t.job? key).map (fun (x : RepJob) => x.target) = some m ∧ t.get (TILE_STATE.state.tile j.target) = 4
        ∧ tileDefect j.target ∈ t.rep.defects ∧ t.lastEvent = some (69, 4, j.key % 2 ^ 64)
        ∧ s'.sameBut t [.regs, .mem, .flips, .turn, .ev, .sbx, .img, .tile, .net, .serv, .boot, .rep, .pwr])

/-- Missing heartbeats, failing tower channels and restores are acted on as the state of the device asks (R416, R433, R548). A tile
without a heartbeat that holds a logical tile of no running image is marked failed and recorded; one of a coach that holds
nothing makes a guard reset the coach; while an image runs, a failing tower channel waits for the boundary, and otherwise the
spare replaces it at once; a restore that read everything ends. In every clause, the parts of the state, the register fields and
the bytes of memory that it does not list keep their values. Each clause first lets the dt axle ticks of its command pass. Its
clauses conclude that exec ANSWERS A NEXT STATE with the command's own effect, for every state and operands that meet hypotheses
on these alone; so these COMPLETE: heartbeatMissing, towerChannelFailing, channelRestoreComplete. What the spec leaves open in
it is the model's choice or reading: log entries 1, 26, 55. -/
def Obligations.FailingUnits : Prop :=
  -- heartbeatMissing
    (∀ (dt : Nat) (n : Nat) (s s' : State), s' = s.pass dt →
      n < 9216 → s'.get (TILE_STATE.state.tile n) ≠ 0 → s'.get (TILE_STATE.state.tile n) ≠ 4 → s'.rep.jobs = [] →
      s'.rep.advance = none → s'.logicalOf n = none → s'.coachInUse (n / 144) = false →
      s'.boot.guardResets.contains (n / 144) = false →
      ∃ t, exec (.heartbeatMissing dt n) s = .next t
        ∧ t.boot.guardResets = s'.boot.guardResets ++ [n / 144] ∧ t.regs = s'.regs ∧ t.mem = s'.mem ∧ t.rep = s'.rep
        ∧ s'.sameBut t [.boot])
  ∧ -- heartbeatMissing
    (∀ (dt : Nat) (n key : Nat) (i : Image) (s s' : State), s' = s.pass dt →
      n < 9984 → s'.get (TILE_STATE.state.tile n) ≠ 0 → s'.get (TILE_STATE.state.tile n) ≠ 4 → s'.rep.jobs = [] →
      s'.rep.advance = none → s'.logicalOf n = some key → s'.img.image = some i → s'.get THM_STATUS.state ≠ 3 →
      s'.turning = false → s'.hasDefect 1 (placeOf n) (siteOf n) = false → s'.sbx.store.length < 4096 →
      ∃ t, exec (.heartbeatMissing dt n) s = .next t
        ∧ t.get (TILE_STATE.state.tile n) = 4 ∧ t.rep.defects = s'.rep.defects ++ [tileDefect n]
        ∧ t.sbx.store = s'.sbx.store ++ [tileDefect n] ∧ t.lastEvent = some (69, 2, key % 2 ^ 64) ∧ t.mem = s'.mem
        ∧ s'.sameBut t [.regs, .ev, .sbx, .rep]
        ∧ s'.regsBut t [TILE_STATE.state.tile n, HEAD_DEFECT_INDEX.entries, SBX_STATUS.alarm])
  ∧ -- towerChannelFailing
    (∀ (dt : Nat) (k ch : Nat) (ovr : Bool) (s s' : State), s' = s.pass dt →
      (ovr = false ∨ s'.heldOver 1 4 none = true) → k < 24 → ch < 32 → s'.get (TWR_STATUS.state.twr k) = 2 → s'.rep.chanDue = [] →
      s'.flag (TWR_STATUS.spare_used.twr k) = false → s'.turning = true →
      ∃ t, exec (.towerChannelFailing dt k ⟨ch, ovr⟩) s = .next t
        ∧ t.rep.chanDue = [(k, ch)] ∧ t.regs = s'.regs ∧ t.mem = s'.mem ∧ s'.sameBut t [.rep])
  ∧ -- towerChannelFailing
    (∀ (dt : Nat) (k ch : Nat) (ovr : Bool) (s s' : State), s' = s.pass dt →
      (ovr = false ∨ s'.heldOver 1 4 none = true) → k < 24 → ch < 32 → s'.get (TWR_STATUS.state.twr k) = 2 → s'.rep.chanDue = [] →
      s'.flag (TWR_STATUS.spare_used.twr k) = false → s'.turning = false → s'.sbx.store.length < 4096 →
      ∃ t, exec (.towerChannelFailing dt k ⟨ch, ovr⟩) s = .next t
        ∧ t.flag (TWR_STATUS.spare_used.twr k) = true ∧ t.get (TWR_STATUS.replaced_channel.twr k) = ch
        ∧ t.rep.defects = s'.rep.defects ++ [defectWord 6 k ch 0] ∧ (k, ch) ∈ t.rep.restoring
        ∧ t.lastEvent = some (76, defectWord 6 k ch 0, 0) ∧ t.mem = s'.mem ∧ s'.sameBut t [.regs, .ev, .sbx, .rep]
        ∧ s'.regsBut t [TWR_STATUS.state.twr k, TWR_STATUS.spare_used.twr k, TWR_STATUS.replaced_channel.twr k,
          HEAD_DEFECT_INDEX.entries, HEAD_REPAIR_STATUS.state, HEAD_REPAIR_STATUS.last_turn, SBX_STATUS.alarm])
  ∧ -- channelRestoreComplete
    (∀ (dt : Nat) (k ch : Nat) (s s' : State), s' = s.pass dt →
      s'.rep.restoring = [(k, ch)] → s'.thm.selfRefresh = false → s'.boxStopped = false → s'.copyBlocked k [] = false →
      ∃ t, exec (.channelRestoreComplete dt k ch []) s = .next t
        ∧ t.rep.restoring = []
        ∧ t.get HEAD_REPAIR_STATUS.state = (if s'.get HEAD_REPAIR_STATUS.state = 4 then 0 else s'.get HEAD_REPAIR_STATUS.state)
        ∧ t.mem = s'.mem ∧ t.img = s'.img ∧ s'.sameBut t [.regs, .img, .serv, .rep])

/-- A guard that does not restart its watchdog is reset, and is dead at the third expiry within a second (R439, R440). A restart of
the watchdog notes its tick; ten milliseconds without one take a running guard into reset and count the expiry, with event 83;
the third expiry within one second makes it dead, with event 5 and a defect-map entry; a guard in reset that reports running, or
one that wakes, runs again; a running guard that sleeps is asleep. In every clause, the parts of the state, the register fields
and the bytes of memory that it does not list keep their values. Each clause first lets the dt axle ticks of its command pass.
Its clauses conclude that exec ANSWERS A NEXT STATE with the command's own effect, for every state and operands that meet
hypotheses on these alone; so these COMPLETE: watchdogRestart, watchdogExpiry, guardReportsRunning, guardAsleep, guardWakes.
What the spec leaves open in it is the model's choice or reading: log entries 1, 37. -/
def Obligations.Watchdogs : Prop :=
  -- watchdogRestart
    (∀ (dt : Nat) (g : Nat) (s s' : State), s' = s.pass dt →
      g < 4 → s'.get (GRD_WATCHDOG_i.state.guard g) = 0 →
      ∃ t, exec (.watchdogRestart dt g) s = .next t
        ∧ Sparse.find t.rep.restarts g = some s'.ticks ∧ t.regs = s'.regs ∧ t.mem = s'.mem ∧ s'.sameBut t [.rep])
  ∧ -- watchdogExpiry
    (∀ (dt : Nat) (g : Nat) (s s' : State), s' = s.pass dt →
      g < 4 → s'.get (GRD_WATCHDOG_i.state.guard g) = 0 → (Sparse.find s'.rep.restarts g).getD 0 + 1600000 ≤ s'.ticks →
      Sparse.find s'.rep.expiries g = none →
      ∃ t, exec (.watchdogExpiry dt g) s = .next t
        ∧ t.get (GRD_WATCHDOG_i.state.guard g) = 1
        ∧ t.get (GRD_WATCHDOG_i.expiries.guard g) = min (2 ^ GRD_WATCHDOG_i.expiries.w - 1) (s'.get (GRD_WATCHDOG_i.expiries.guard g) + 1)
        ∧ Sparse.find t.rep.expiries g = some [s'.ticks]
        ∧ (t.lastEvent.map fun (e : Nat × Nat × Nat) => (e.1, e.2.1)) = some (83, g) ∧ t.flag (svcValid g) = false
        ∧ t.mem = s'.mem ∧ s'.sameBut t [.regs, .ev, .rep] ∧ s'.regsBut t watchFields)
  ∧ -- watchdogExpiry
    (∀ (dt : Nat) (g a b : Nat) (s s' : State), s' = s.pass dt →
      g < 4 → s'.get (GRD_WATCHDOG_i.state.guard g) = 0 → (Sparse.find s'.rep.restarts g).getD 0 + 1600000 ≤ s'.ticks →
      Sparse.find s'.rep.expiries g = some [a, b] → s'.ticks < a + 160000000 → s'.ticks < b + 160000000 →
      s'.sbx.store.length < 4096 →
      ∃ t, exec (.watchdogExpiry dt g) s = .next t
        ∧ t.get (GRD_WATCHDOG_i.state.guard g) = 3 ∧ defectWord 8 g 0 0 ∈ t.rep.defects ∧ t.lastEvent = some (5, g, 0)
        ∧ t.mem = s'.mem ∧ s'.sameBut t [.regs, .ev, .sbx, .rep]
        ∧ s'.regsBut t ([HEAD_DEFECT_INDEX.entries, SBX_STATUS.alarm] ++ watchFields))
  ∧ -- guardReportsRunning
    (∀ (dt : Nat) (g : Nat) (s s' : State), s' = s.pass dt →
      g < 4 → s'.get (GRD_WATCHDOG_i.state.guard g) = 1 →
      ∃ t, exec (.guardReportsRunning dt g) s = .next t
        ∧ t.get (GRD_WATCHDOG_i.state.guard g) = 0 ∧ Sparse.find t.rep.restarts g = some s'.ticks ∧ t.mem = s'.mem
        ∧ t.ev = s'.ev ∧ s'.sameBut t [.regs, .rep] ∧ s'.regsBut t watchFields)
  ∧ -- guardAsleep
    (∀ (dt : Nat) (g : Nat) (s s' : State), s' = s.pass dt →
      g < 4 → s'.get (GRD_WATCHDOG_i.state.guard g) = 0 →
      ∃ t, exec (.guardAsleep dt g) s = .next t
        ∧ t.get (GRD_WATCHDOG_i.state.guard g) = 2 ∧ t.rep = s'.rep ∧ t.mem = s'.mem ∧ t.ev = s'.ev ∧ s'.sameBut t [.regs]
        ∧ s'.regsBut t watchFields)
  ∧ -- guardWakes
    (∀ (dt : Nat) (g : Nat) (s s' : State), s' = s.pass dt →
      g < 4 → s'.get (GRD_WATCHDOG_i.state.guard g) = 2 →
      ∃ t, exec (.guardWakes dt g) s = .next t
        ∧ t.get (GRD_WATCHDOG_i.state.guard g) = 0 ∧ Sparse.find t.rep.restarts g = some s'.ticks ∧ t.mem = s'.mem
        ∧ t.ev = s'.ev ∧ s'.sameBut t [.regs, .rep] ∧ s'.regsBut t watchFields)

/-- A rail bus carries each request, reads back its answer, retries a failure, and reports the third (R447, R448, R449). Status
requests go to every rail of a bus whose alert falls, and a poll asks one rail for its status, voltage and current; a good
response to a voltage read is kept in read_mv and clears bus_fault; a response whose check fails sends the request again, and
the third failure in a row sets bus_fault and raises event 20; 100 microseconds after the last set point is answered the higher
step may be asked for. In every clause, the parts of the state, the register fields and the bytes of memory that it does not
list keep their values. Each clause first lets the dt axle ticks of its command pass. Its clauses conclude that exec ANSWERS A
NEXT STATE with the command's own effect, for every state and operands that meet hypotheses on these alone; so these COMPLETE:
setPointSettled, railBusResponse, railAlert, railStatusPoll. What the spec leaves open in it is the model's choice or reading:
log entries 1, 9, 33. -/
def Obligations.RailTransactions : Prop :=
  -- setPointSettled
    (∀ (dt : Nat) (a w : Nat) (s s' : State), s' = s.pass dt →
      s'.pwr.asked = some w → s'.pwr.answered = some a → a + 16000 ≤ s'.ticks →
      ∃ t, exec (.setPointSettled dt) s = .next t
        ∧ t.turn.settled = w ∧ t.pwr.asked = none ∧ t.pwr.answered = none ∧ t.regs = s'.regs ∧ t.mem = s'.mem
        ∧ s'.sameBut t [.turn, .pwr])
  ∧ -- railBusResponse
    (∀ (dt : Nat) (r : Resp) (n v : Nat) (s s' : State), s' = s.pass dt →
      s'.pwr.bus.contains r.req = true → r.req = railWord n 2 0 → r.rsp = railWord n 0 v → n < 181 → v < 4096 →
      ∃ t, exec (.railBusResponse dt r) s = .next t
        ∧ t.get (PWR_RAIL_STATUS.read_mv.ix n) = v ∧ t.flag (PWR_RAIL_STATUS.bus_fault.ix n) = false
        ∧ t.pwr.bus = s'.pwr.bus.erase r.req ∧ t.mem = s'.mem ∧ t.ev = s'.ev ∧ s'.sameBut t [.regs, .pwr]
        ∧ s'.regsBut t [PWR_RAIL_STATUS.bus_fault.ix n, PWR_RAIL_STATUS.current.ix n, PWR_RAIL_STATUS.set_mv.ix n,
          PWR_RAIL_STATUS.read_mv.ix n])
  ∧ -- railBusResponse
    (∀ (dt : Nat) (r : Resp) (n : Nat) (s s' : State), s' = s.pass dt →
      s'.pwr.bus.contains r.req = true → bits r.req 32 8 = n → crc8 (r.rsp / 256) ≠ r.rsp % 256 →
      Sparse.find s'.pwr.failures n = none →
      ∃ t, exec (.railBusResponse dt r) s = .next t
        ∧ t.pwr.bus = s'.pwr.bus.erase r.req ++ [r.req] ∧ Sparse.find t.pwr.failures n = some 1 ∧ t.regs = s'.regs
        ∧ t.mem = s'.mem ∧ t.ev = s'.ev ∧ s'.sameBut t [.pwr])
  ∧ -- railBusResponse
    (∀ (dt : Nat) (r : Resp) (n : Nat) (s s' : State), s' = s.pass dt →
      s'.pwr.bus.contains r.req = true → bits r.req 32 8 = n → crc8 (r.rsp / 256) ≠ r.rsp % 256 →
      Sparse.find s'.pwr.failures n = some 2 →
      ∃ t, exec (.railBusResponse dt r) s = .next t
        ∧ t.pwr.bus = s'.pwr.bus.erase r.req ∧ t.flag (PWR_RAIL_STATUS.bus_fault.ix n) = true ∧ t.lastEvent = some (20, n, 0)
        ∧ t.mem = s'.mem ∧ s'.sameBut t [.regs, .ev, .pwr]
        ∧ s'.regsBut t [PWR_RAIL_STATUS.bus_fault.ix n, PWR_RAIL_STATUS.current.ix n, PWR_RAIL_STATUS.set_mv.ix n,
          PWR_RAIL_STATUS.read_mv.ix n])
  ∧ -- railAlert
    (∀ (dt : Nat) (bus : Nat) (s s' : State), s' = s.pass dt →
      s'.extest = false →
      ∃ t, exec (.railAlert dt bus) s = .next t
        ∧ t.pwr.bus = s'.pwr.bus ++ ((List.range 0xB5).filter fun (n : Nat) => n % 4 == bus).map (fun (n : Nat) => railWord n 4 0)
        ∧ t.regs = s'.regs ∧ t.mem = s'.mem ∧ s'.sameBut t [.pwr])
  ∧ -- railStatusPoll
    (∀ (dt : Nat) (n : Nat) (s s' : State), s' = s.pass dt →
      s'.extest = false → n < 0xB5 →
      ∃ t, exec (.railStatusPoll dt n) s = .next t
        ∧ t.pwr.bus = s'.pwr.bus ++ [railWord n 4 0, railWord n 2 0, railWord n 3 0] ∧ t.regs = s'.regs ∧ t.mem = s'.mem
        ∧ s'.sameBut t [.pwr])

/-- Droops void the turn, shorts take units out of use, and the power plan exceeded raises the POWER hold (R454, R455, R459, R468).
A sample that lies more than 40 mV below the set point of a domain that is on is counted, reported with event 21, and voids a
turn; a sample within the limit is only kept; a short of a core rail isolates the coach, and one of a bay rail makes the bay
dark. While an image runs with no POWER hold, the plan exceeded raises a hold of cause 4 and counts it; the hold is withdrawn
once eight spokes have passed since the raise; both keep the average that was reported, and neither changes memory. In every
clause, the parts of the state, the register fields and the bytes of memory that it does not list keep their values. Each clause
first lets the dt axle ticks of its command pass. Its clauses conclude that exec ANSWERS A NEXT STATE with the command's own
effect, for every state and operands that meet hypotheses on these alone; so these COMPLETE: powerDroop, supplyShort,
powerLimitExceeded, powerHoldRelease. What the spec leaves open in it is the model's choice or reading: log entries 1, 9, 33. -/
def Obligations.DroopsAndPower : Prop :=
  -- powerDroop
    (∀ (dt : Nat) (d mv r : Nat) (s s' : State), s' = s.pass dt →
      domainRail d = some r → s'.get (PWR_DOM_STATE.state.dom d) = 2 → s'.get THM_STATUS.state < 2 →
      mv + 40 < s'.setPoint r s'.k → mv < 4096 → s'.turning = false →
      ∃ t, exec (.powerDroop dt d mv) s = .next t
        ∧ t.get (PWR_DOM_STATE.vnow.dom d) = mv
        ∧ t.get (PWR_DOM_STATE.droops.dom d) = min (2 ^ PWR_DOM_STATE.droops.w - 1) (s'.get (PWR_DOM_STATE.droops.dom d) + 1)
        ∧ t.lastEvent = some (21, d % 2 ^ 64, mv % 2 ^ 64) ∧ t.mem = s'.mem ∧ s'.sameBut t [.regs, .ev]
        ∧ s'.regsBut t [PWR_DOM_STATE.state.dom d, PWR_DOM_STATE.stage.dom d, PWR_DOM_STATE.droops.dom d,
          PWR_DOM_STATE.vnow.dom d, PWR_DOM_VMIN.spoke_cycle.ix d, PWR_DOM_VMIN.vmin.ix d, PWR_DOM_VMIN_TIME.axle.ix d])
  ∧ -- powerDroop
    (∀ (dt : Nat) (d mv r : Nat) (s s' : State), s' = s.pass dt →
      domainRail d = some r → s'.get (PWR_DOM_STATE.state.dom d) = 2 → s'.get THM_STATUS.state < 2 →
      mv + 40 < s'.setPoint r s'.k → mv < 4096 → s'.turning = true → Sparse.find s'.pwr.droopTurn d = none →
      ∃ t, exec (.powerDroop dt d mv) s = .next t
        ∧ t.holding 6 = true ∧ Sparse.find t.pwr.droopRun d = some 1
        ∧ t.get (PWR_DOM_STATE.droops.dom d) = min (2 ^ PWR_DOM_STATE.droops.w - 1) (s'.get (PWR_DOM_STATE.droops.dom d) + 1)
        ∧ t.mem = s'.mem ∧ s'.sameBut t [.regs, .turn, .ev, .pwr]
        ∧ s'.regsBut t [PWR_DOM_STATE.state.dom d, PWR_DOM_STATE.stage.dom d, PWR_DOM_STATE.droops.dom d,
          PWR_DOM_STATE.vnow.dom d, PWR_DOM_VMIN.spoke_cycle.ix d, PWR_DOM_VMIN.vmin.ix d, PWR_DOM_VMIN_TIME.axle.ix d,
          HEAD_REPAIR_COUNTS.voids, HEAD_REPAIR_COUNTS.failures])
  ∧ -- powerDroop
    (∀ (dt : Nat) (d mv r : Nat) (s s' : State), s' = s.pass dt →
      domainRail d = some r → mv < 4096 → s'.setPoint r s'.k ≤ mv + 40 → s'.get (PWR_DOM_VMIN.vmin.ix d) ≤ mv →
      ∃ t, exec (.powerDroop dt d mv) s = .next t
        ∧ t.get (PWR_DOM_STATE.vnow.dom d) = mv ∧ t.get (PWR_DOM_STATE.droops.dom d) = s'.get (PWR_DOM_STATE.droops.dom d)
        ∧ t.ev = s'.ev ∧ t.turn = s'.turn ∧ t.mem = s'.mem ∧ s'.sameBut t [.regs]
        ∧ s'.regsBut t [PWR_DOM_STATE.state.dom d, PWR_DOM_STATE.stage.dom d, PWR_DOM_STATE.droops.dom d, PWR_DOM_STATE.vnow.dom d])
  ∧ -- supplyShort
    (∀ (dt : Nat) (c : Nat) (s s' : State), s' = s.pass dt →
      c < 64 → s'.rep.isolated.contains c = false → s'.turning = false →
      ∃ t, exec (.supplyShort dt c) s = .next t
        ∧ t.rep.isolated = s'.rep.isolated ++ [c] ∧ t.lastEvent = some (70, 2, c) ∧ t.turn = s'.turn
        ∧ s'.sameBut t [.regs, .mem, .flips, .turn, .ev, .sbx, .img, .tile, .net, .serv, .boot, .rep, .pwr])
  ∧ -- supplyShort
    (∀ (dt : Nat) (b : Nat) (s s' : State), s' = s.pass dt →
      b < 24 → s'.rep.darkBays.contains b = false → s'.turning = false →
      ∃ t, exec (.supplyShort dt (0x80 + b)) s = .next t
        ∧ t.rep.darkBays = s'.rep.darkBays ++ [b] ∧ t.get (PWR_DOM_STATE.state.dom (320 + 2 * b)) = 4
        ∧ t.get (PWR_DOM_STATE.state.dom (321 + 2 * b)) = 4 ∧ t.turn = s'.turn
        ∧ s'.sameBut t [.regs, .mem, .flips, .turn, .ev, .sbx, .img, .tile, .net, .serv, .boot, .rep, .pwr])
  ∧ -- powerLimitExceeded
    (∀ (dt : Nat) (w : Nat) (s s' : State), s' = s.pass dt →
      s'.running = true → s'.holding 4 = false → w < 65536 →
      ∃ t, exec (.powerLimitExceeded dt w) s = .next t
        ∧ t.holding 4 = true ∧ t.get PWR_GOV.avg_power = w
        ∧ t.get PWR_GOV.power_holds = min (2 ^ PWR_GOV.power_holds.w - 1) (s'.get PWR_GOV.power_holds + 1)
        ∧ t.pwr.holdAt = some s'.spoke ∧ t.mem = s'.mem ∧ s'.sameBut t [.regs, .turn, .pwr]
        ∧ s'.regsBut t [PWR_GOV.power_holds, PWR_GOV.avg_power])
  ∧ -- powerHoldRelease
    (∀ (dt : Nat) (w a : Nat) (s s' : State), s' = s.pass dt →
      s'.pwr.holdAt = some a → s'.holding 4 = true → a + 8 ≤ s'.spoke → w < 65536 →
      ∃ t, exec (.powerHoldRelease dt w) s = .next t
        ∧ t.holding 4 = false ∧ t.get PWR_GOV.avg_power = w ∧ t.pwr.holdAt = none ∧ t.mem = s'.mem
        ∧ s'.sameBut t [.regs, .turn, .pwr] ∧ s'.regsBut t [PWR_GOV.avg_power])
  ∧ -- powerLimitExceeded
    (∀ (dt : Nat) (w : Nat) (s s' : State), s' = s.pass dt →
      s'.running = true → s'.holding 4 = true → w < 65536 →
      ∃ t, exec (.powerLimitExceeded dt w) s = .next t
        ∧ t.get PWR_GOV.avg_power = w ∧ t.turn = s'.turn ∧ t.pwr = s'.pwr ∧ t.mem = s'.mem ∧ t.ev = s'.ev ∧ s'.sameBut t [.regs]
        ∧ s'.regsBut t [PWR_GOV.avg_power])

/-- A coach powers on by stages, resets its tiles, and is taken out of use when a stage fails (R461, R462, R463, R464, R581). Eight
spokes and a settled stage advance the stage of all five domains of a coach; after the last stage they are on, the switch-ons
are counted and the tiles reset; when the reset is done every tile that is not failing is idle and the coach is usable from the
next boundary; a stage that does not advance within 200 spokes isolates the coach with event 22; while no image runs, a coach
power-on shadow takes effect at a count that is a multiple of 64. In every clause, the parts of the state, the register fields
and the bytes of memory that it does not list keep their values. Each clause first lets the dt axle ticks of its command pass.
Its clauses conclude that exec ANSWERS A NEXT STATE with the command's own effect, for every state and operands that meet
hypotheses on these alone; so these COMPLETE: powerOnStageAdvance, powerOnFail, coachTilesResetDone, idleBoundary. What the spec
leaves open in it is the model's choice or reading: log entries 1, 33. -/
def Obligations.CoachPowerUp : Prop :=
  -- powerOnStageAdvance
    (∀ (dt : Nat) (c : Nat) (p : PowerUp) (s s' : State), s' = s.pass dt →
      c < 64 → s'.powerUp? c = some p → s'.get (PWR_DOM_STATE.stage.dom (4 * c)) < 3 →
      p.from_ + 8 * (s'.get (PWR_DOM_STATE.stage.dom (4 * c)) + 1) ≤ s'.spoke →
      ∃ t, exec (.powerOnStageAdvance dt c) s = .next t
        ∧ ((s'.closing c).all fun (d : Nat) => t.get (PWR_DOM_STATE.stage.dom d) == s'.get (PWR_DOM_STATE.stage.dom (4 * c)) + 1) = true
        ∧ t.mem = s'.mem ∧ t.ev = s'.ev ∧ s'.sameBut t [.regs, .pwr]
        ∧ s'.regsBut t ((coachDomains c).flatMap fun (d : Nat) => [PWR_DOM_STATE.state.dom d, PWR_DOM_STATE.stage.dom d,
          PWR_DOM_STATE.switch_ons.dom d]))
  ∧ -- powerOnStageAdvance
    (∀ (dt : Nat) (c : Nat) (p : PowerUp) (s s' : State), s' = s.pass dt →
      c < 64 → s'.powerUp? c = some p → s'.get (PWR_DOM_STATE.stage.dom (4 * c)) = 3 → p.stageAt + 2 ≤ s'.spoke →
      ((coachDomains c).all fun (d : Nat) => s'.get (PWR_DOM_STATE.state.dom d) == 1 || s'.get (PWR_DOM_STATE.state.dom d) == 2) = true →
      ∃ t, exec (.powerOnStageAdvance dt c) s = .next t
        ∧ t.coachOn c = true ∧ t.powerUp? c = none ∧ t.pwr.resetting = s'.pwr.resetting ++ [c]
        ∧ ((s'.closing c).all fun (d : Nat) => t.get (PWR_DOM_STATE.switch_ons.dom d) == min (2 ^ PWR_DOM_STATE.switch_ons.w -
          1) (s'.get (PWR_DOM_STATE.switch_ons.dom d) + 1)) = true
        ∧ t.mem = s'.mem ∧ t.ev = s'.ev ∧ s'.sameBut t [.regs, .pwr]
        ∧ s'.regsBut t ((coachDomains c).flatMap fun (d : Nat) => [PWR_DOM_STATE.state.dom d, PWR_DOM_STATE.stage.dom d,
          PWR_DOM_STATE.switch_ons.dom d]))
  ∧ -- powerOnFail
    (∀ (dt : Nat) (c : Nat) (p : PowerUp) (s s' : State), s' = s.pass dt →
      c < 64 → s'.powerUp? c = some p → s'.get (PWR_DOM_STATE.stage.dom (4 * c)) < 3 → p.stageAt + 200 ≤ s'.spoke →
      s'.rep.isolated.contains c = false → s'.img.image = none → s'.sbx.store.length < 4096 →
      ∃ t, exec (.powerOnFail dt c) s = .next t
        ∧ t.rep.isolated = s'.rep.isolated ++ [c] ∧ t.lastEvent = some (22, c, s'.get (PWR_DOM_STATE.stage.dom (4 * c)) + 1)
        ∧ t.powerUp? c = none ∧ t.turn = s'.turn
        ∧ s'.sameBut t [.regs, .mem, .flips, .turn, .ev, .sbx, .img, .tile, .net, .serv, .boot, .rep, .pwr])
  ∧ -- coachTilesResetDone
    (∀ (dt : Nat) (c n : Nat) (s s' : State), s' = s.pass dt →
      c < 64 → n / 144 = c → s'.pwr.resetting.contains c = true →
      ∃ t, exec (.coachTilesResetDone dt c) s = .next t
        ∧ t.get (TILE_STATE.state.tile n) = (if s'.get (TILE_STATE.state.tile n) = 4 then 4 else 1)
        ∧ t.pwr.fresh = c :: s'.pwr.fresh ∧ t.pwr.resetting.contains c = false ∧ t.mem = s'.mem ∧ t.ev = s'.ev
        ∧ s'.sameBut t [.regs, .pwr] ∧ s'.regsBut t ((coachTiles c).map fun (m : Nat) => TILE_STATE.state.tile m))
  ∧ -- idleBoundary
    (∀ (dt : Nat) (hot : List Nat) (a v : Nat) (s s' : State), s' = s.pass dt →
      s'.running = false → s'.count % 64 = 0 → s'.turn.shadows = [⟨.coachOn, true, a, v⟩] → a < s'.ticks →
      s'.flag HEAD_SWAP_CTRL.hold = false → v < 2 ^ 64 → s'.rep.isolated = [] → s'.get PWR_COACH_ACTIVE.on = 0 →
      ∃ t, exec (.idleBoundary dt hot) s = .next t
        ∧ t.turn.shadows = [] ∧ t.get PWR_COACH_ACTIVE.on = v ∧ t.flag HEAD_SWAP_CTRL.pending = false ∧ t.mem = s'.mem
        ∧ s'.sameBut t [.regs, .mem, .flips, .turn, .ev, .sbx, .net, .boot, .rep, .pwr])

/-- Clock gate, ungate and switch requests act when the tree allows them, and are counted when it does not (R491, R494, R495). A
gate of an instance whose children are all gated stops it with result 0; one with a running child answers 1, is counted, and
changes no clock; an ungate under a running parent starts the instance; a switch to the secondary oscillator when it is ready is
done, and a switch of a domain other than 1 and 17 is denied; a host request on a domain that is not the host's is denied. In
every clause, the parts of the state, the register fields and the bytes of memory that it does not list keep their values. Each
clause first lets the dt axle ticks of its command pass. Its clauses conclude that exec ANSWERS A NEXT STATE with the command's
own effect, for every state and operands that meet hypotheses on these alone; so these COMPLETE: clkGate, clkUngate, clkSwitch.
What the spec leaves open in it is the model's choice or reading: log entry 1. -/
def Obligations.ClockRequests : Prop :=
  -- clkGate
    (∀ (dt : Nat) (cmd d i : Nat) (s s' : State), s' = s.pass dt →
      mayRequest .device d = true → d ≠ 1 → s'.running = false → i < clkInstances d → s'.childRuns d i = false →
      ∃ t, exec (.clkGate dt .device cmd d i) s = .next t
        ∧ t.isGated d i = true ∧ t.get (CLK_DOM_STATUS.result.ix d) = 0
        ∧ t.get (CLK_DOM_STATUS.refusals.ix d) = s'.get (CLK_DOM_STATUS.refusals.ix d) ∧ t.mem = s'.mem ∧ t.port = s'.port
        ∧ s'.sameBut t [.regs, .boot] ∧ s'.regsBut t [CLK_DOM_STATUS.result.ix d])
  ∧ -- clkGate
    (∀ (dt : Nat) (cmd d i : Nat) (s s' : State), s' = s.pass dt →
      mayRequest .device d = true → d ≠ 1 → s'.running = false → i < clkInstances d → s'.childRuns d i = true →
      ∃ t, exec (.clkGate dt .device cmd d i) s = .next t
        ∧ t.boot = s'.boot ∧ t.get (CLK_DOM_STATUS.result.ix d) = 1
        ∧ t.get (CLK_DOM_STATUS.refusals.ix d) = min (2 ^ CLK_DOM_STATUS.refusals.w - 1) (s'.get (CLK_DOM_STATUS.refusals.ix d) + 1)
        ∧ t.mem = s'.mem ∧ s'.sameBut t [.regs] ∧ s'.regsBut t [CLK_DOM_STATUS.result.ix d, CLK_DOM_STATUS.refusals.ix d])
  ∧ -- clkUngate
    (∀ (dt : Nat) (cmd d i p : Nat) (s s' : State), s' = s.pass dt →
      mayRequest .device d = true → d ≠ 1 → s'.running = false → i < clkInstances d → clkParent d = some p →
      s'.isGated p (clkFeeds d i) = false →
      ∃ t, exec (.clkUngate dt .device cmd d i) s = .next t
        ∧ t.isGated d i = false ∧ t.get (CLK_DOM_STATUS.result.ix d) = 0 ∧ t.mem = s'.mem ∧ t.port = s'.port
        ∧ s'.sameBut t [.regs, .boot] ∧ s'.regsBut t [CLK_DOM_STATUS.result.ix d])
  ∧ -- clkUngate
    (∀ (dt : Nat) (cmd d i p : Nat) (s s' : State), s' = s.pass dt →
      mayRequest .device d = true → d ≠ 1 → s'.running = false → i < clkInstances d → clkParent d = some p →
      s'.isGated p (clkFeeds d i) = true →
      ∃ t, exec (.clkUngate dt .device cmd d i) s = .next t
        ∧ t.boot = s'.boot ∧ t.get (CLK_DOM_STATUS.result.ix d) = 1
        ∧ t.get (CLK_DOM_STATUS.refusals.ix d) = min (2 ^ CLK_DOM_STATUS.refusals.w - 1) (s'.get (CLK_DOM_STATUS.refusals.ix d) + 1)
        ∧ t.mem = s'.mem ∧ s'.sameBut t [.regs] ∧ s'.regsBut t [CLK_DOM_STATUS.result.ix d, CLK_DOM_STATUS.refusals.ix d])
  ∧ -- clkSwitch
    (∀ (dt : Nat) (cmd d : Nat) (s s' : State), s' = s.pass dt →
      ((d = 1 ∨ d = 17)) → s'.flag CLK_STATUS.seco_ready = true →
      ∃ t, exec (.clkSwitch dt .device cmd d true) s = .next t
        ∧ t.flag (CLK_DOM_STATUS.on_seco.ix d) = true ∧ t.get (CLK_DOM_STATUS.result.ix d) = 0 ∧ t.boot = s'.boot
        ∧ t.mem = s'.mem ∧ s'.sameBut t [.regs] ∧ s'.regsBut t [CLK_DOM_STATUS.result.ix d, CLK_DOM_STATUS.on_seco.ix d])
  ∧ -- clkSwitch
    (∀ (dt : Nat) (cmd d : Nat) (b : Bool) (s s' : State), s' = s.pass dt →
      d ≠ 1 → d ≠ 17 → d < 26 →
      ∃ t, exec (.clkSwitch dt .device cmd d b) s = .next t
        ∧ t.flag (CLK_DOM_STATUS.on_seco.ix d) = s'.flag (CLK_DOM_STATUS.on_seco.ix d) ∧ t.get (CLK_DOM_STATUS.result.ix d) = 3
        ∧ t.boot = s'.boot ∧ t.mem = s'.mem ∧ s'.sameBut t [.regs]
        ∧ s'.regsBut t [CLK_DOM_STATUS.result.ix d, CLK_DOM_STATUS.refusals.ix d])
  ∧ -- clkGate
    (∀ (dt : Nat) (cmd d i : Nat) (s s' : State), s' = s.pass dt →
      s'.cmdRuns 2 [1, 2] = true → s'.get CLK_DOM_INDEX.domain = d → 1 ≤ d → d < 26 → mayRequest .host d = false →
      ∃ t, exec (.clkGate dt .host cmd d i) s = .next t
        ∧ t.lastResponse = some ⟨2, 0, 0, cmd, true, []⟩ ∧ t.get (CLK_DOM_STATUS.result.ix d) = 3
        ∧ t.get (CLK_DOM_STATUS.refusals.ix d) = min (2 ^ CLK_DOM_STATUS.refusals.w - 1) (s'.get (CLK_DOM_STATUS.refusals.ix d) + 1)
        ∧ t.boot = s'.boot ∧ t.mem = s'.mem ∧ s'.sameBut t [.regs, .port]
        ∧ s'.regsBut t [CLK_DOM_STATUS.result.ix d, CLK_DOM_STATUS.refusals.ix d])

/-- PLLs report ready and lose lock, a lost source is replaced, and REFCLK is measured from the strap delay on (R493, R496, R497,
R498). A fed PLL becomes ready; one that loses lock is not, with event 18; the loss of the reference of domain 17 moves it to
the secondary oscillator with event 9; the strap delay ends at its tick; a measurement between 95,000 and 105,000 kHz in or
after start-up step 5 makes REFCLK ready; none within 10 ms of the end of the delay in step 5 sets refclk_fail, with event 9. In
every clause, the parts of the state, the register fields and the bytes of memory that it does not list keep their values. Each
clause first lets the dt axle ticks of its command pass. Its clauses conclude that exec ANSWERS A NEXT STATE with the command's
own effect, for every state and operands that meet hypotheses on these alone; so these COMPLETE: pllReady, pllLockLost,
clockSourceLost, oscDelayExpiry, refclkMeasurement, refclkFail. What the spec leaves open in it is the model's choice or
reading: log entries 1, 9, 26. -/
def Obligations.ClockReadiness : Prop :=
  -- pllReady
    (∀ (dt : Nat) (d i : Nat) (s s' : State), s' = s.pass dt →
      isPll d i = true → s'.pllFed d = true → s'.boot.ready.contains (d, i) = false →
      ∃ t, exec (.pllReady dt d i) s = .next t
        ∧ t.boot.ready = s'.boot.ready ++ [(d, i)] ∧ (d = 6 → t.flag CLK_STATUS.ring_ready = true) ∧ (d = 17 →
        t.flag CLK_STATUS.guard_ready = true) ∧ (d = 14 → t.flag CLK_STATUS.port_ready = true) ∧ t.mem = s'.mem ∧ t.ev = s'.ev
        ∧ s'.sameBut t [.regs, .boot] ∧ s'.regsBut t [CLK_STATUS.port_ready, CLK_STATUS.guard_ready, CLK_STATUS.ring_ready])
  ∧ -- pllLockLost
    (∀ (dt : Nat) (d i : Nat) (s s' : State), s' = s.pass dt →
      s'.boot.ready.contains (d, i) = true → d < 26 → i < 64 →
      ∃ t, exec (.pllLockLost dt d i) s = .next t
        ∧ t.boot.ready = s'.boot.ready.erase (d, i) ∧ t.lastEvent = some (18, d, i) ∧ (d = 6 →
        t.flag CLK_STATUS.ring_ready = false) ∧ (d = 17 → t.flag CLK_STATUS.guard_ready = false) ∧ t.mem = s'.mem
        ∧ s'.sameBut t [.regs, .ev, .boot] ∧ s'.regsBut t [CLK_STATUS.port_ready, CLK_STATUS.guard_ready, CLK_STATUS.ring_ready])
  ∧ -- clockSourceLost
    (∀ (dt : Nat) (s s' : State), s' = s.pass dt →
      s'.flag (CLK_DOM_STATUS.on_seco.ix 17) = false →
      ∃ t, exec (.clockSourceLost dt 17) s = .next t
        ∧ t.flag (CLK_DOM_STATUS.on_seco.ix 17) = true ∧ t.flag CLK_STATUS.refclk_fail = true
        ∧ t.flag CLK_STATUS.guard_ready = false ∧ t.lastEvent = some (9, s'.get CLK_STATUS.refclk_khz, 0) ∧ t.mem = s'.mem
        ∧ s'.sameBut t [.regs, .ev, .boot]
        ∧ s'.regsBut t [CLK_DOM_STATUS.on_seco.ix 17, CLK_STATUS.refclk_fail, CLK_STATUS.port_ready, CLK_STATUS.guard_ready,
          CLK_STATUS.ring_ready, CLK_STATUS.refclk_ready, HEAD_BOOT_STATUS.halt])
  ∧ -- clockSourceLost
    (∀ (dt : Nat) (s s' : State), s' = s.pass dt →
      s'.flag (CLK_DOM_STATUS.on_seco.ix 1) = false → s'.running = false →
      ∃ t, exec (.clockSourceLost dt 1) s = .next t
        ∧ t.flag (CLK_DOM_STATUS.on_seco.ix 1) = true ∧ t.flag (CLK_DOM_STATUS.on_seco.ix 17) = true
        ∧ t.flag CLK_STATUS.refclk_ready = false ∧ t.flag CLK_STATUS.ring_ready = false
        ∧ t.lastEvent = some (9, s'.get CLK_STATUS.refclk_khz, 0) ∧ t.mem = s'.mem ∧ s'.sameBut t [.regs, .ev, .boot]
        ∧ s'.regsBut t [CLK_DOM_STATUS.on_seco.ix 1, CLK_DOM_STATUS.on_seco.ix 17, CLK_STATUS.refclk_fail,
          CLK_STATUS.port_ready, CLK_STATUS.guard_ready, CLK_STATUS.ring_ready, CLK_STATUS.refclk_ready, HEAD_AXLE_STATUS.lock,
          HEAD_BOOT_STATUS.halt])
  ∧ -- oscDelayExpiry
    (∀ (dt : Nat) (a : Nat) (s s' : State), s' = s.pass dt →
      s'.boot.oscDue = some a → a ≤ s'.ticks →
      ∃ t, exec (.oscDelayExpiry dt) s = .next t
        ∧ t.boot.oscDone = true ∧ t.regs = s'.regs ∧ t.mem = s'.mem ∧ s'.sameBut t [.boot])
  ∧ -- refclkMeasurement
    (∀ (dt : Nat) (khz : Nat) (s s' : State), s' = s.pass dt →
      s'.boot.oscDone = true → 5 ≤ s'.get HEAD_BOOT_STATUS.step → 95000 ≤ khz → khz ≤ 105000 →
      s'.flag CLK_STATUS.refclk_fail = false →
      ∃ t, exec (.refclkMeasurement dt khz) s = .next t
        ∧ t.get CLK_STATUS.refclk_khz = khz ∧ t.flag CLK_STATUS.refclk_ready = true ∧ t.boot = s'.boot ∧ t.mem = s'.mem
        ∧ s'.sameBut t [.regs] ∧ s'.regsBut t [CLK_STATUS.refclk_khz, CLK_STATUS.refclk_ready])
  ∧ -- refclkMeasurement
    (∀ (dt : Nat) (khz : Nat) (s s' : State), s' = s.pass dt →
      s'.boot.oscDone = true → 5 ≤ s'.get HEAD_BOOT_STATUS.step → ((khz < 95000 ∨ 105000 < khz)) → khz < 131072 →
      ∃ t, exec (.refclkMeasurement dt khz) s = .next t
        ∧ t.get CLK_STATUS.refclk_khz = khz ∧ t.flag CLK_STATUS.refclk_ready = s'.flag CLK_STATUS.refclk_ready
        ∧ t.boot = s'.boot ∧ t.mem = s'.mem ∧ s'.sameBut t [.regs]
        ∧ s'.regsBut t [CLK_STATUS.refclk_khz, CLK_STATUS.refclk_ready])
  ∧ -- refclkFail
    (∀ (dt : Nat) (a : Nat) (s s' : State), s' = s.pass dt →
      s'.boot.oscDue = some a → s'.boot.oscDone = true → s'.get HEAD_BOOT_STATUS.step = 5 →
      max a s'.boot.stepTick + 1600000 ≤ s'.ticks → s'.flag CLK_STATUS.refclk_ready = false →
      s'.flag CLK_STATUS.refclk_fail = false →
      ∃ t, exec (.refclkFail dt) s = .next t
        ∧ t.flag CLK_STATUS.refclk_fail = true ∧ t.lastEvent = some (9, s'.get CLK_STATUS.refclk_khz, 0) ∧ t.boot = s'.boot
        ∧ t.mem = s'.mem ∧ s'.sameBut t [.regs, .ev] ∧ s'.regsBut t [CLK_STATUS.refclk_fail, HEAD_BOOT_STATUS.halt])

/-- Sensors are sampled, failed ones stay failed, pairs that differ are reported, and references are learned (R472, R473, R475,
R476). A sample of a sensor in an on domain keeps the reading; a reading outside −40 to 150 degrees fails the sensor, and a
failed sensor stays failed; a pair of diodes that has differed for more than 100 ms is reported with event 25 and counted; once
a second the offset of a hot spot whose sensors agree is the mean of its diodes less its roof reading. In every clause, the
parts of the state, the register fields and the bytes of memory that it does not list keep their values. Each clause first lets
the dt axle ticks of its command pass. Its clauses conclude that exec ANSWERS A NEXT STATE with the command's own effect, for
every state and operands that meet hypotheses on these alone; so these COMPLETE: sensorSample, sensorSkew, referenceUpdate. What
the spec leaves open in it is the model's choice or reading: log entries 1, 9, 27. -/
def Obligations.TemperatureSensing : Prop :=
  -- sensorSample
    (∀ (dt : Nat) (l : List (Nat × Nat)) (n v : Nat) (s s' : State), s' = s.pass dt →
      n < 408 → Sparse.find l n = some v → v < 4096 → s'.get (THM_SENSOR.state.ix n) ≠ 2 →
      s'.get (PWR_DOM_STATE.state.ix (sensorDomain n)) = 2 → -160 ≤ quarter v → quarter v ≤ 600 →
      ∃ t, exec (.sensorSample dt l) s = .next t
        ∧ t.get (THM_SENSOR.reading.ix n) = v
        ∧ t.get (THM_SENSOR.state.ix n) = (if s'.get (THM_SENSOR.state.ix n) = 3 then 0 else s'.get (THM_SENSOR.state.ix n))
        ∧ s'.sameBut t [.regs, .mem, .flips, .turn, .ev, .img, .tile, .net, .serv, .rep, .thm])
  ∧ -- sensorSample
    (∀ (dt : Nat) (l : List (Nat × Nat)) (n v : Nat) (s s' : State), s' = s.pass dt →
      n < 408 → Sparse.find l n = some v → v < 4096 → s'.get (THM_SENSOR.state.ix n) ≠ 2 →
      s'.get (PWR_DOM_STATE.state.ix (sensorDomain n)) = 2 → ((quarter v < -160 ∨ 600 < quarter v)) →
      ∃ t, exec (.sensorSample dt l) s = .next t
        ∧ t.get (THM_SENSOR.state.ix n) = 2 ∧ t.get (THM_SENSOR.reading.ix n) = v
        ∧ s'.sameBut t [.regs, .mem, .flips, .turn, .ev, .img, .tile, .net, .serv, .rep, .thm])
  ∧ -- sensorSample
    (∀ (dt : Nat) (l : List (Nat × Nat)) (n : Nat) (s s' : State), s' = s.pass dt →
      n < 408 → s'.get (THM_SENSOR.state.ix n) = 2 →
      ∃ t, exec (.sensorSample dt l) s = .next t
        ∧ t.get (THM_SENSOR.state.ix n) = 2 ∧ t.get (THM_SENSOR.reading.ix n) = s'.get (THM_SENSOR.reading.ix n)
        ∧ s'.sameBut t [.regs, .mem, .flips, .turn, .ev, .img, .tile, .net, .serv, .rep, .thm])
  ∧ -- sensorSkew
    (∀ (dt : Nat) (h a : Nat) (s s' : State), s' = s.pass dt →
      Sparse.find s'.thm.skewFrom h = some a → a + 16000000 < s'.ticks → s'.thm.skewed.contains h = false →
      ∃ t, exec (.sensorSkew dt h) s = .next t
        ∧ t.thm.skewed = h :: s'.thm.skewed
        ∧ t.get THM_COUNTS.skews = min (2 ^ THM_COUNTS.skews.w - 1) (s'.get THM_COUNTS.skews + 1)
        ∧ t.lastEvent = some (25, h % 2 ^ 64, s'.get (THM_SENSOR.reading.ix (2 * h)) * 65536 + s'.get (THM_SENSOR.reading.ix (2 * h + 1)))
        ∧ t.mem = s'.mem ∧ s'.sameBut t [.regs, .ev, .thm] ∧ s'.regsBut t [THM_COUNTS.skews])
  ∧ -- referenceUpdate
    (∀ (dt : Nat) (h : Nat) (s s' : State), s' = s.pass dt →
      h < 128 → s'.sensorIn (2 * h) = true → s'.sensorIn (2 * h + 1) = true → s'.sensorIn (256 + h) = true →
      (s'.readingOf (2 * h) - s'.readingOf (2 * h + 1)).natAbs ≤ 8 →
      ∃ t, exec (.referenceUpdate dt) s = .next t
        ∧ Sparse.find t.thm.offsets h = some ((s'.readingOf (2 * h) + s'.readingOf (2 * h + 1)) / 2 - s'.readingOf (256 + h) + 4096).toNat
        ∧ t.mem = s'.mem ∧ t.ev = s'.ev ∧ s'.sameBut t [.regs, .thm]
        ∧ s'.regsBut t ([THM_COUNTS.exclusions] ++ ([2 * h, 2 * h + 1, 256 + h].map fun (i : Nat) => THM_SENSOR.state.ix i)))

/-- Coolant frames, fast throttle and sustained heat lead to the THERMAL hold and the hold state (R477, R478, R479, R482). A frame
whose check is good and whose flow code is not the reserved one is counted and sets flow, outlet and inlet, and ends a loss; a
bad frame is counted and changes nothing else of the coolant; a frame that reports stopped flow counts as an assertion of fast
throttle; no frame for 10 ms sets lost, with event 26. The first accepted assertion of the input is counted, reported with event
28, and takes a device that is not held to state 2 with cause 1; its deassertion is noted; 10 ms at or above 105 degrees at step
48 take the device to state 2 with cause 4, with a hold of cause 5 while an image runs. In every clause, the parts of the state,
the register fields and the bytes of memory that it does not list keep their values. Each clause first lets the dt axle ticks of
its command pass. Its clauses conclude that exec ANSWERS A NEXT STATE with the command's own effect, for every state and
operands that meet hypotheses on these alone; so these COMPLETE: coolStatFrame, coolLost, fastThrottleIn,
fastThrottleDeasserted, thermalSustained. What the spec leaves open in it is the model's choice or reading: log entries 1, 9,
34. -/
def Obligations.CoolantAndHeat : Prop :=
  -- coolStatFrame
    (∀ (dt : Nat) (v : Nat) (s s' : State), s' = s.pass dt →
      crc8 (v / 256) = v % 256 → bits v 14 2 ≠ 3 →
      ∃ t, exec (.coolStatFrame dt v) s = .next t
        ∧ t.get THM_COOL.frames = min (2 ^ THM_COOL.frames.w - 1) (s'.get THM_COOL.frames + 1)
        ∧ t.get THM_COOL.flow = bits v 14 2 ∧ t.get THM_COOL.outlet = bits v 16 12 ∧ t.get THM_COOL.inlet = bits v 28 12
        ∧ t.flag THM_COOL.lost = false ∧ t.thm.frameTick = s'.ticks ∧ t.mem = s'.mem ∧ s'.sameBut t [.regs, .turn, .ev, .thm]
        ∧ s'.regsBut t [.whole THM_COOL.addr, THM_COUNTS.fast_asserts, THM_STATUS.state])
  ∧ -- coolStatFrame
    (∀ (dt : Nat) (v : Nat) (s s' : State), s' = s.pass dt →
      ((crc8 (v / 256) ≠ v % 256 ∨ bits v 14 2 = 3)) →
      ∃ t, exec (.coolStatFrame dt v) s = .next t
        ∧ t.get THM_COOL.bad_frames = min (2 ^ THM_COOL.bad_frames.w - 1) (s'.get THM_COOL.bad_frames + 1)
        ∧ t.get THM_COOL.frames = s'.get THM_COOL.frames ∧ t.get THM_COOL.flow = s'.get THM_COOL.flow ∧ t.thm = s'.thm
        ∧ t.ev = s'.ev ∧ t.turn = s'.turn ∧ t.mem = s'.mem ∧ s'.sameBut t [.regs] ∧ s'.regsBut t [THM_COOL.bad_frames])
  ∧ -- coolStatFrame
    (∀ (dt : Nat) (v : Nat) (s s' : State), s' = s.pass dt →
      crc8 (v / 256) = v % 256 → bits v 14 2 = 2 → s'.thm.stopped = false →
      ∃ t, exec (.coolStatFrame dt v) s = .next t
        ∧ t.get THM_COUNTS.fast_asserts = min (2 ^ THM_COUNTS.fast_asserts.w - 1) (s'.get THM_COUNTS.fast_asserts + 1)
        ∧ t.thm.stopped = true ∧ 2 ≤ t.get THM_STATUS.state ∧ t.lastEvent = some (28, 1, 0) ∧ t.mem = s'.mem
        ∧ s'.sameBut t [.regs, .turn, .ev, .thm]
        ∧ s'.regsBut t [.whole THM_COOL.addr, THM_COUNTS.fast_asserts, THM_STATUS.state])
  ∧ -- coolLost
    (∀ (dt : Nat) (s s' : State), s' = s.pass dt →
      s'.thm.frameTick + 1600000 ≤ s'.ticks → s'.flag THM_COOL.lost = false →
      ∃ t, exec (.coolLost dt) s = .next t
        ∧ t.flag THM_COOL.lost = true ∧ t.lastEvent = some (26, 0, 0) ∧ t.mem = s'.mem ∧ t.turn = s'.turn
        ∧ s'.sameBut t [.regs, .ev, .thm] ∧ s'.regsBut t [THM_COOL.lost])
  ∧ -- fastThrottleIn
    (∀ (dt : Nat) (s s' : State), s' = s.pass dt →
      s'.thm.throttled = false → s'.get THM_STATUS.state < 2 →
      ∃ t, exec (.fastThrottleIn dt) s = .next t
        ∧ t.thm.throttled = true
        ∧ t.get THM_COUNTS.fast_asserts = min (2 ^ THM_COUNTS.fast_asserts.w - 1) (s'.get THM_COUNTS.fast_asserts + 1)
        ∧ t.get THM_STATUS.state = 2 ∧ t.thm.cause = 1 ∧ t.lastEvent = some (28, 0, 0) ∧ t.mem = s'.mem
        ∧ s'.sameBut t [.regs, .turn, .ev, .thm] ∧ s'.regsBut t [THM_COUNTS.fast_asserts, THM_STATUS.state])
  ∧ -- fastThrottleIn
    (∀ (dt : Nat) (s s' : State), s' = s.pass dt →
      s'.thm.throttled = true →
      ∃ t, exec (.fastThrottleIn dt) s = .next t
        ∧ t = s' ∧ s'.sameBut t [])
  ∧ -- fastThrottleDeasserted
    (∀ (dt : Nat) (s s' : State), s' = s.pass dt →
      ∃ t, exec (.fastThrottleDeasserted dt) s = .next t
        ∧ t.thm.throttled = false ∧ t.regs = s'.regs ∧ t.mem = s'.mem ∧ t.ev = s'.ev ∧ t.turn = s'.turn ∧ s'.sameBut t [.thm])
  ∧ -- thermalSustained
    (∀ (dt : Nat) (a : Nat) (s s' : State), s' = s.pass dt →
      s'.thm.hotFrom = some a → a + 1600000 ≤ s'.ticks → s'.k = 48 → s'.get THM_STATUS.state < 2 →
      ∃ t, exec (.thermalSustained dt) s = .next t
        ∧ t.get THM_STATUS.state = 2 ∧ t.thm.cause = 4 ∧ (s'.running = true → t.holding 5 = true) ∧ t.mem = s'.mem
        ∧ t.ev = s'.ev ∧ s'.sameBut t [.regs, .turn, .thm] ∧ s'.regsBut t [THM_STATUS.state])

/-- The device enters and leaves its hold state, and a rotation period moves the work of one coach after another (R483, R484, R485,
R486, R487). With state 2 and no flit left, the device enters state 3, counts the hold, reports event 30 with the cause, and its
towers keep themselves; 100 ms of exit conditions take it back to state 0 with event 31 and the length of the hold; 10 ms after
the first shutdown stage a reading at or above 115 degrees takes it to state 6 with event 1. The next coach of the period that
has a tile to move starts a copy of it in advance, and the target tile becomes a repair target; when no coach is left the period
is done. In every clause, the parts of the state, the register fields and the bytes of memory that it does not list keep their
values. Each clause first lets the dt axle ticks of its command pass. Its clauses conclude that exec ANSWERS A NEXT STATE with
the command's own effect, for every state and operands that meet hypotheses on these alone; so these COMPLETE: holdStateEntry,
holdStateExit, roofShutdownCheck, rotation. What the spec leaves open in it is the model's choice or reading: log entries 1, 27,
54. -/
def Obligations.HoldState : Prop :=
  -- holdStateEntry
    (∀ (dt : Nat) (s s' : State), s' = s.pass dt →
      s'.get THM_STATUS.state = 2 → s'.net.fly = [] → s'.net.hops = [] → s'.net.bufs = [] → s'.tooHot = false → s'.thm.cause ≠ 5 →
      s'.thm.cause < 16 →
      ∃ t, exec (.holdStateEntry dt) s = .next t
        ∧ t.get THM_STATUS.state = 3 ∧ t.get THM_COUNTS.holds = min (2 ^ THM_COUNTS.holds.w - 1) (s'.get THM_COUNTS.holds + 1)
        ∧ t.thm.selfRefresh = true ∧ t.thm.entryTick = s'.ticks ∧ t.lastEvent = some (30, s'.thm.cause, 0)
        ∧ s'.sameBut t [.regs, .mem, .flips, .turn, .ev, .img, .tile, .net, .serv, .boot, .rep, .pwr, .thm])
  ∧ -- holdStateExit
    (∀ (dt : Nat) (a : Nat) (s s' : State), s' = s.pass dt →
      s'.thm.clearFrom = some a → s'.get THM_STATUS.state = 3 → a + 16000000 ≤ s'.ticks → s'.turning = false →
      s'.rep.later = [] →
      ∃ t, exec (.holdStateExit dt) s = .next t
        ∧ t.get THM_STATUS.state = 0 ∧ t.thm.selfRefresh = false ∧ t.holding 5 = false
        ∧ t.lastEvent = some (31, (s'.ticks - s'.thm.entryTick) / 160 % 2 ^ 64, 0) ∧ t.mem = s'.mem
        ∧ s'.sameBut t [.regs, .mem, .flips, .turn, .ev, .sbx, .img, .tile, .net, .serv, .boot, .rep, .pwr, .thm])
  ∧ -- roofShutdownCheck
    (∀ (dt : Nat) (n : Nat) (s s' : State), s' = s.pass dt →
      s'.get THM_STATUS.state = 5 → s'.thm.stageTick + 1600000 ≤ s'.ticks → n < 408 → s'.sensorIn n = true →
      460 ≤ s'.readingOf n →
      ∃ t, exec (.roofShutdownCheck dt) s = .next t
        ∧ t.get THM_STATUS.state = 6 ∧ t.lastEvent = some (1, 2, s'.get THM_STATUS.hottest) ∧ t.turn = s'.turn
        ∧ s'.sameBut t [.regs, .mem, .flips, .ev])
  ∧ -- roofShutdownCheck
    (∀ (dt : Nat) (s s' : State), s' = s.pass dt →
      s'.get THM_STATUS.state ≠ 5 →
      ∃ t, exec (.roofShutdownCheck dt) s = .next t
        ∧ t = s' ∧ s'.sameBut t [])
  ∧ -- rotation
    (∀ (dt : Nat) (spots : List HourPart) (d a b key : Nat) (s s' : State), s' = s.pass dt →
      s'.turning = true → s'.get THM_CTRL.rotate_hours ≠ 0 → s'.thm.rotCoach < 64 → s'.rep.jobs = [] → s'.rep.advance = none →
      s'.get THM_STATUS.state < 2 → s'.rotateFrom spots s'.thm.rotCoach = some (d, a, b) → s'.logicalOf a = some key →
      ∃ t, exec (.rotation dt spots) s = .next t
        ∧ t.rep.advance = some ⟨key, a, b, true, false⟩ ∧ t.thm.rotCoach = d + 1 ∧ t.get (TILE_STATE.state.tile b) = 3
        ∧ t.mem = s'.mem ∧ t.turn = s'.turn ∧ s'.sameBut t [.regs, .rep, .thm] ∧ s'.regsBut t [TILE_STATE.state.tile b])
  ∧ -- rotation
    (∀ (dt : Nat) (spots : List HourPart) (s s' : State), s' = s.pass dt →
      s'.turning = true → s'.get THM_CTRL.rotate_hours ≠ 0 → s'.thm.rotCoach < 64 → s'.rep.jobs = [] → s'.rep.advance = none →
      s'.get THM_STATUS.state < 2 → s'.rotateFrom spots s'.thm.rotCoach = none →
      ∃ t, exec (.rotation dt spots) s = .next t
        ∧ t.thm.rotCoach = 64 ∧ t.regs = s'.regs ∧ t.mem = s'.mem ∧ t.rep = s'.rep ∧ t.turn = s'.turn ∧ s'.sameBut t [.thm])

/-- Start-up begins at step 2 when PWRGOOD rises, goes on step by step, and halts at a step that fails or times out (R536, R538,
R543). A rise of PWRGOOD takes the strap, starts the oscillator delay and begins step 2; a step 2 that finds no bootable slot
halts with code 2; step 3 makes each guard the watcher of its neighbour and the security version of the slot the least one; step
7 counts the couplings that are up, and step 8 lets every coach that is not isolated wait to power on; steps 3, 4 and 5 halt
with their own number when they exceed their limit. In every clause, the parts of the state, the register fields and the bytes
of memory that it does not list keep their values. Each clause first lets the dt axle ticks of its command pass. Its clauses
conclude that exec ANSWERS A NEXT STATE with the command's own effect, for every state and operands that meet hypotheses on
these alone; so these COMPLETE: pwrgoodRise, startupStepComplete, startupStepTimeout. What the spec leaves open in it is the
model's choice or reading: log entries 1, 9, 26. -/
def Obligations.StartUpSteps : Prop :=
  -- pwrgoodRise
    (∀ (dt : Nat) (strap : Nat) (s s' : State), s' = s.pass dt →
      s'.boot.pwrgood = false → s'.boot.fell = none →
      ∃ t, exec (.pwrgoodRise dt strap) s = .next t
        ∧ t.get HEAD_BOOT_STATUS.step = 2 ∧ t.get CLK_STATUS.osc_dly = strap % 16 ∧ t.boot.pwrgood = true
        ∧ t.boot.oscDue = some (s'.ticks + usTicks (50 * strapDelay (strap % 16))) ∧ t.boot.startTick = s'.ticks
        ∧ t.mem = s'.mem ∧ s'.sameBut t [.regs, .boot] ∧ s'.regsBut t [HEAD_BOOT_STATUS.step, CLK_STATUS.osc_dly])
  ∧ -- startupStepComplete
    (∀ (dt : Nat) (e : StartEnv) (s s' : State), s' = s.pass dt →
      s'.get HEAD_BOOT_STATUS.step = 2 → s'.get HEAD_BOOT_STATUS.halt = 0 → s'.get SBX_STATUS.mode = 0 → s'.bootSlot = none →
      ∃ t, exec (.startupStepComplete dt e) s = .next t
        ∧ t.get HEAD_BOOT_STATUS.halt = 2 ∧ t.get HEAD_BOOT_STATUS.step = 2 ∧ t.mem = s'.mem ∧ s'.sameBut t [.regs]
        ∧ s'.regsBut t [HEAD_BOOT_STATUS.step, HEAD_BOOT_STATUS.halt, HEAD_BOOT_STATUS.bist_fail,
          HEAD_BOOT_STATUS.towers_failed, HEAD_BOOT_STATUS.couplings_up, HEAD_BOOT_STATUS.ready_ms])
  ∧ -- startupStepComplete
    (∀ (dt : Nat) (e : StartEnv) (g : Nat) (s s' : State), s' = s.pass dt →
      s'.get HEAD_BOOT_STATUS.step = 3 → s'.get HEAD_BOOT_STATUS.halt = 0 → s'.sbx.notBootable = [] → g < 4 →
      ∃ t, exec (.startupStepComplete dt e) s = .next t
        ∧ t.get HEAD_BOOT_STATUS.step = 4 ∧ t.get (GRD_WATCHDOG_i.watcher.guard g) = (g + 1) % 4
        ∧ t.sbx.minSvn = s'.slotSvn (s'.get SBX_STATUS.boot_slot) ∧ t.boot.stepTick = s'.ticks ∧ t.mem = s'.mem ∧ t.ev = s'.ev
        ∧ s'.sameBut t [.regs, .sbx, .boot]
        ∧ s'.regsBut t ([HEAD_BOOT_STATUS.step, HEAD_BOOT_STATUS.halt, HEAD_BOOT_STATUS.bist_fail,
          HEAD_BOOT_STATUS.towers_failed, HEAD_BOOT_STATUS.couplings_up, HEAD_BOOT_STATUS.ready_ms] ++ ((List.range 4).flatMap
          fun (i : Nat) => [GRD_WATCHDOG_i.state.guard i, GRD_WATCHDOG_i.watcher.guard i])))
  ∧ -- startupStepComplete
    (∀ (dt : Nat) (e : StartEnv) (s s' : State), s' = s.pass dt →
      s'.get HEAD_BOOT_STATUS.step = 7 → s'.get HEAD_BOOT_STATUS.halt = 0 →
      ((List.range 24).all fun (b : Nat) => s'.get (CPL_STATUS.state.cpl b) != 1) = true →
      ∃ t, exec (.startupStepComplete dt e) s = .next t
        ∧ t.get HEAD_BOOT_STATUS.step = 8
        ∧ t.get HEAD_BOOT_STATUS.couplings_up = ((List.range 24).filter fun (b : Nat) => s'.get (CPL_STATUS.state.cpl b) == 2).length
        ∧ t.pwr.waiting = (List.range 64).filter (fun (c : Nat) => !s'.rep.isolated.contains c) ∧ t.mem = s'.mem
        ∧ s'.sameBut t [.regs, .boot, .pwr])
  ∧ -- startupStepTimeout
    (∀ (dt : Nat) (e : StartEnv) (s s' : State), s' = s.pass dt →
      ((s'.get HEAD_BOOT_STATUS.step = 3 ∨ s'.get HEAD_BOOT_STATUS.step = 4 ∨ s'.get HEAD_BOOT_STATUS.step = 5)) →
      s'.get HEAD_BOOT_STATUS.halt = 0 → s'.boot.stepTick + s'.stepLimit (s'.get HEAD_BOOT_STATUS.step) ≤ s'.ticks →
      ∃ t, exec (.startupStepTimeout dt e) s = .next t
        ∧ t.get HEAD_BOOT_STATUS.halt = s'.get HEAD_BOOT_STATUS.step
        ∧ t.get HEAD_BOOT_STATUS.step = s'.get HEAD_BOOT_STATUS.step ∧ t.mem = s'.mem ∧ t.boot = s'.boot ∧ s'.sameBut t [.regs]
        ∧ s'.regsBut t [HEAD_BOOT_STATUS.step, HEAD_BOOT_STATUS.halt, HEAD_BOOT_STATUS.bist_fail,
          HEAD_BOOT_STATUS.towers_failed, HEAD_BOOT_STATUS.couplings_up, HEAD_BOOT_STATUS.ready_ms])
  ∧ -- startupStepTimeout
    (∀ (dt : Nat) (e : StartEnv) (s s' : State), s' = s.pass dt →
      s'.get HEAD_BOOT_STATUS.step = 2 → s'.get HEAD_BOOT_STATUS.halt = 0 → 128000000 + s'.boot.stepTick ≤ s'.ticks →
      ∃ t, exec (.startupStepTimeout dt e) s = .next t
        ∧ t.get HEAD_BOOT_STATUS.halt = (if s'.get SBX_STATUS.mode = 2 then 1 else 2) ∧ t.get HEAD_BOOT_STATUS.step = 2
        ∧ t.mem = s'.mem ∧ s'.sameBut t [.regs]
        ∧ s'.regsBut t [HEAD_BOOT_STATUS.step, HEAD_BOOT_STATUS.halt, HEAD_BOOT_STATUS.bist_fail,
          HEAD_BOOT_STATUS.towers_failed, HEAD_BOOT_STATUS.couplings_up, HEAD_BOOT_STATUS.ready_ms])

/-- Power-on, warm and coach resets keep what the spec keeps, and nothing else (R537, R547, R549, R550). The fall of PWRGOOD is
reported with event 0, and opens what is not dark; 50 microseconds later only the strongbox's store, its kept registers and the
flash are left; a warm reset by RESET_N or by command begins step 2 with its kind, and keeps the strongbox's store and the
memory of marked coaches, towers and flash; a coach reset that ends clears busy, gives result 1, and leaves every tile that is
not failing idle. In every clause, the parts of the state, the register fields and the bytes of memory that it does not list
keep their values. Each clause first lets the dt axle ticks of its command pass. Its clauses conclude that exec ANSWERS A NEXT
STATE with the command's own effect, for every state and operands that meet hypotheses on these alone; so these COMPLETE:
pwrgoodLost, powerOnResetEntry, resetN, warmReset, coachResetDone. What the spec leaves open in it is the model's choice or
reading: log entries 1, 6, 26. -/
def Obligations.Resets : Prop :=
  -- pwrgoodLost
    (∀ (dt : Nat) (n : Nat) (s s' : State), s' = s.pass dt →
      s'.boot.pwrgood = true → n < 103 →
      ∃ t, exec (.pwrgoodLost dt) s = .next t
        ∧ t.boot.pwrgood = false ∧ t.boot.fell = some s'.ticks ∧ t.boot.tapInstr = 2 ∧ t.lastEvent = some (0, 0, 0)
        ∧ t.get (PWR_DOM_STATE.state.dom (320 + n)) = (if s'.get (PWR_DOM_STATE.state.dom (320 + n)) = 4 then 4 else 0)
        ∧ s'.sameBut t [.regs, .mem, .flips, .ev, .boot, .pwr])
  ∧ -- powerOnResetEntry
    (∀ (dt : Nat) (a : Nat) (s s' : State), s' = s.pass dt →
      s'.boot.fell = some a → a + 8000 ≤ s'.ticks → s'.boot.pwrgood = false →
      ∃ t, exec (.powerOnResetEntry dt) s = .next t
        ∧ t.mem = s'.mem.filter (fun (c : Host.Cell) => decide (flashKey 0 ≤ c.1 ∧ c.1 < flashKey 0x2000000))
        ∧ t.sbx = s'.sbx.keep ∧ t.get SBX_POLICY.allow_service = s'.get SBX_POLICY.allow_service
        ∧ t.get SBX_POLICY.allow_debug = s'.get SBX_POLICY.allow_debug ∧ t.get SBX_STATUS.reports = s'.get SBX_STATUS.reports
        ∧ t.boot = {} ∧ t.img = {} ∧ t.port = {} ∧ t.flips = [] ∧ t.pending = s'.pending
        ∧ s'.sameBut t [.regs, .mem, .flips, .axle, .turn, .ev, .port, .mbx, .sbx, .img, .tile, .net, .serv, .boot, .cpl, .rep, .pwr, .thm])
  ∧ -- resetN
    (∀ (dt : Nat) (s s' : State), s' = s.pass dt →
      s'.boot.pwrgood = true → s'.boot.fell = none → s'.running = false →
      ∃ t, exec (.resetN dt) s = .next t
        ∧ t.get HEAD_BOOT_STATUS.step = 2 ∧ t.get HEAD_BOOT_STATUS.reset_kind = 2 ∧ t.sbx = s'.sbx.keep
        ∧ t.get SBX_POLICY.allow_service = s'.get SBX_POLICY.allow_service
        ∧ t.get SBX_POLICY.allow_debug = s'.get SBX_POLICY.allow_debug ∧ t.get SBX_STATUS.reports = s'.get SBX_STATUS.reports
        ∧ t.boot.warm = true ∧ t.mem = s'.mem.filter (fun (c : Host.Cell) => s'.warmKey c.1) ∧ t.img.image = none
        ∧ t.pending = s'.pending ∧ t.port = {}
        ∧ s'.sameBut t [.regs, .mem, .flips, .axle, .turn, .ev, .port, .mbx, .sbx, .img, .tile, .net, .serv, .boot, .cpl, .rep, .pwr, .thm])
  ∧ -- warmReset
    (∀ (dt : Nat) (cmd : Nat) (s s' : State), s' = s.pass dt →
      s'.cmdRuns 0x130 [1, 2] = true → s'.running = false →
      ∃ t, exec (.warmReset dt cmd) s = .next t
        ∧ t.port.parting = some ⟨0x130, 0, 0, cmd, true, []⟩ ∧ t.get HEAD_BOOT_STATUS.step = 2
        ∧ t.get HEAD_BOOT_STATUS.reset_kind = 1 ∧ t.sbx = s'.sbx.keep
        ∧ t.get SBX_POLICY.allow_service = s'.get SBX_POLICY.allow_service
        ∧ t.get SBX_POLICY.allow_debug = s'.get SBX_POLICY.allow_debug ∧ t.get SBX_STATUS.reports = s'.get SBX_STATUS.reports
        ∧ t.boot.warm = true ∧ t.mem = s'.mem.filter (fun (c : Host.Cell) => s'.warmKey c.1) ∧ t.img.image = none
        ∧ t.pending = s'.pending
        ∧ s'.sameBut t [.regs, .mem, .flips, .axle, .turn, .ev, .port, .mbx, .sbx, .img, .tile, .net, .serv, .boot, .cpl, .rep, .pwr, .thm])
  ∧ -- coachResetDone
    (∀ (dt : Nat) (c n : Nat) (s s' : State), s' = s.pass dt →
      s'.boot.coachReset = some c → c < 64 → n / 144 = c → s'.rep.jobs = [] →
      ∃ t, exec (.coachResetDone dt c) s = .next t
        ∧ t.flag HEAD_COACH_RESET.busy = false ∧ t.get HEAD_COACH_RESET.result = 1 ∧ t.boot.coachReset = none
        ∧ t.get (TILE_STATE.state.tile n) = (if s'.get (TILE_STATE.state.tile n) = 4 then 4 else 1)
        ∧ s'.sameBut t [.regs, .mem, .flips, .net, .boot, .rep])

/-- What each instruction of the test access port captures, drives and selects, and what the analogue test bus connects (R568, R569,
R570, R572, R573, R574). A reset of the port selects IDCODE; EXTEST drives the boundary register only while debug is 1 and no
image is loaded, and acts as BYPASS otherwise; SAMPLE/PRELOAD, IDCODE, ATB_SEL and BYPASS capture what the spec gives them;
after EXTEST the status of every rail is read. With codes 0x20 to 0xFE and debug 0 the port captures 0 and nothing else changes;
with debug 1 what the instruction does is not given, and the command is refused under the name productionInstruction. A pin
whose microsecond has passed is connected; when its node is a diode the diode is out of use; 1 ms after it was disconnected a
diode that no pin forces returns to use. In every clause, the parts of the state, the register fields and the bytes of memory
that it does not list keep their values. Each clause first lets the dt axle ticks of its command pass. Its clauses conclude that
exec ANSWERS A NEXT STATE with the command's own effect, for every state and operands that meet hypotheses on these alone; so
these COMPLETE: tapReset, extest, samplePreload, idcode, atbSel, bypass, extestEnd, productionInstruction, atbConnect,
atbDiodeReturn. What the spec leaves open in it is the model's choice or reading: log entries 1, 25, 29. -/
def Obligations.TestAccessPort : Prop :=
  -- tapReset
    (∀ (dt : Nat) (s s' : State), s' = s.pass dt →
      ∃ t, exec (.tapReset dt) s = .next t
        ∧ t.boot.tapInstr = 2 ∧ t.boot.tapData = s'.boot.tapData ∧ t.regs = s'.regs ∧ t.mem = s'.mem ∧ s'.sameBut t [.boot])
  ∧ -- extest
    (∀ (dt : Nat) (pins cells : List Bool) (s s' : State), s' = s.pass dt →
      s'.boot.pwrgood = true → s'.flag SBX_POLICY.debug = true → s'.get HEAD_IMAGE_STATUS.state = 0 →
      ∃ t, exec (.extest dt pins cells) s = .next t
        ∧ t.boot.tapInstr = 0 ∧ t.boot.boundary = cells ∧ t.boot.tapData = cellBits pins ∧ t.extest = true ∧ t.regs = s'.regs
        ∧ t.mem = s'.mem ∧ s'.sameBut t [.boot])
  ∧ -- extest
    (∀ (dt : Nat) (pins cells : List Bool) (s s' : State), s' = s.pass dt →
      s'.boot.pwrgood = true → ((s'.flag SBX_POLICY.debug = false ∨ s'.get HEAD_IMAGE_STATUS.state ≠ 0)) →
      ∃ t, exec (.extest dt pins cells) s = .next t
        ∧ t.boot.tapInstr = 0 ∧ t.boot.boundary = s'.boot.boundary ∧ t.boot.tapData = 0 ∧ t.extest = false ∧ t.regs = s'.regs
        ∧ t.mem = s'.mem ∧ s'.sameBut t [.boot])
  ∧ -- samplePreload
    (∀ (dt : Nat) (pins cells : List Bool) (s s' : State), s' = s.pass dt →
      s'.boot.pwrgood = true →
      ∃ t, exec (.samplePreload dt pins cells) s = .next t
        ∧ t.boot.tapInstr = 1 ∧ t.boot.boundary = cells ∧ t.boot.tapData = cellBits pins ∧ t.extest = false ∧ t.regs = s'.regs
        ∧ t.mem = s'.mem ∧ s'.sameBut t [.boot])
  ∧ -- idcode
    (∀ (dt : Nat) (s s' : State), s' = s.pass dt →
      s'.boot.pwrgood = true →
      ∃ t, exec (.idcode dt) s = .next t
        ∧ t.boot.tapInstr = 2 ∧ t.boot.tapData = s'.idcode ∧ t.regs = s'.regs ∧ t.mem = s'.mem ∧ s'.sameBut t [.boot])
  ∧ -- atbSel
    (∀ (dt : Nat) (v : Nat) (s s' : State), s' = s.pass dt →
      s'.boot.pwrgood = true →
      ∃ t, exec (.atbSel dt v) s = .next t
        ∧ t.boot.tapInstr = 0x11 ∧ t.boot.tapData = s'.atbBits ∧ t.mem = s'.mem ∧ s'.sameBut t [.regs, .boot]
        ∧ s'.regsBut t ((List.range 8).map fun (i : Nat) => .whole (HEAD_ATB_SEL_n.bus.pin i).key))
  ∧ -- bypass
    (∀ (dt : Nat) (s s' : State), s' = s.pass dt →
      s'.boot.pwrgood = true →
      ∃ t, exec (.bypass dt) s = .next t
        ∧ t.boot.tapInstr = 0xFF ∧ t.boot.tapData = 0 ∧ t.regs = s'.regs ∧ t.mem = s'.mem ∧ s'.sameBut t [.boot])
  ∧ -- extestEnd
    (∀ (dt : Nat) (s s' : State), s' = s.pass dt →
      s'.boot.extestEnded = true → s'.extest = false →
      ∃ t, exec (.extestEnd dt) s = .next t
        ∧ t.pwr.bus = s'.pwr.bus ++ (List.range 0xB5).map (fun (n : Nat) => railWord n 4 0) ∧ t.boot.extestEnded = false
        ∧ t.regs = s'.regs ∧ t.mem = s'.mem ∧ s'.sameBut t [.boot, .pwr])
  ∧ -- productionInstruction
    (∀ (dt : Nat) (code : Nat) (s s' : State), s' = s.pass dt →
      s'.boot.pwrgood = true → 0x20 ≤ code → code ≤ 0xFE → s'.flag SBX_POLICY.debug = false →
      ∃ t, exec (.productionInstruction dt code) s = .next t
        ∧ t.boot.tapInstr = code ∧ t.boot.tapData = 0 ∧ t.boot.boundary = s'.boot.boundary ∧ t.regs = s'.regs ∧ t.mem = s'.mem
        ∧ s'.sameBut t [.boot])
  ∧ -- productionInstruction
    (∀ (dt : Nat) (code : Nat) (s s' : State), s' = s.pass dt →
      s'.boot.pwrgood = true → 0x20 ≤ code → code ≤ 0xFE → s'.flag SBX_POLICY.debug = true →
      exec (.productionInstruction dt code) s = .refused .productionInstruction)
  ∧ -- atbConnect
    (∀ (dt : Nat) (n : Nat) (s s' : State), s' = s.pass dt →
      (s'.boot.atbDue.any fun (x : Nat × Nat) => x.1 == n && decide (x.2 ≤ s'.ticks)) = true → n < 8 →
      atbDiode n (s'.atbSel n).1 (s'.atbSel n).2 = none →
      ∃ t, exec (.atbConnect dt n) s = .next t
        ∧ t.flag (HEAD_ATB_SEL_n.connected.pin n) = true ∧ t.thm = s'.thm ∧ t.mem = s'.mem ∧ t.ev = s'.ev
        ∧ s'.sameBut t [.regs, .boot] ∧ s'.regsBut t [HEAD_ATB_SEL_n.connected.pin n])
  ∧ -- atbConnect
    (∀ (dt : Nat) (n d : Nat) (s s' : State), s' = s.pass dt →
      (s'.boot.atbDue.any fun (x : Nat × Nat) => x.1 == n && decide (x.2 ≤ s'.ticks)) = true → n < 8 →
      atbDiode n (s'.atbSel n).1 (s'.atbSel n).2 = some d →
      ∃ t, exec (.atbConnect dt n) s = .next t
        ∧ t.flag (HEAD_ATB_SEL_n.connected.pin n) = true ∧ t.sensorIn d = false ∧ t.mem = s'.mem
        ∧ s'.sameBut t [.regs, .boot, .thm] ∧ s'.regsBut t [HEAD_ATB_SEL_n.connected.pin n])
  ∧ -- atbDiodeReturn
    (∀ (dt : Nat) (d a : Nat) (s s' : State), s' = s.pass dt →
      s'.boot.diodeDue = [(d, a)] → a ≤ s'.ticks → s'.diodeForced d = false →
      ∃ t, exec (.atbDiodeReturn dt d) s = .next t
        ∧ t.thm.atb.contains d = false ∧ t.boot.diodeDue = [] ∧ t.regs = s'.regs ∧ t.mem = s'.mem ∧ t.ev = s'.ev
        ∧ s'.sameBut t [.boot, .thm])

/-- IMAGE_START, IMAGE_STOP, SESSION_CLOSE, COACH_REPAIR, COUPLING_TRAIN and DEFECT_CLEAR (R76, R322, R389, R398, R441, R442). An
accepted IMAGE_START names its count, answers with it, and the image is in state 3; an IMAGE_STOP before turn 0 stops at once
and answers 0; one later waits for the boundary; a refused start answers NOT_READY; SESSION_CLOSE answers and ends the session
with its secrets. While no image runs, COACH_REPAIR of a coach in use isolates it and answers OK; COUPLING_TRAIN puts the
couplings of its mask in training and stays the running long command; DEFECT_CLEAR of everything by the service role removes the
entries found in service, from the map and the store. In every clause, the parts of the state, the register fields and the bytes
of memory that it does not list keep their values. Each clause first lets the dt axle ticks of its command pass. Its clauses
conclude that exec ANSWERS A NEXT STATE with the command's own effect, for every state and operands that meet hypotheses on
these alone; so these COMPLETE: imageStart, imageStop, sessionClose, coachRepair, couplingTrain, defectClear. What the spec
leaves open in it is the model's choice or reading: log entries 1, 14, 18. -/
def Obligations.ImageAndMaintenance : Prop :=
  -- imageStart
    (∀ (dt : Nat) (cmd c : Nat) (i : Image) (s s' : State), s' = s.pass dt →
      s'.cmdRuns 0x20 [1, 2] = true → s'.img.image = some i → s'.get HEAD_IMAGE_STATUS.state = 2 →
      s'.flag HEAD_AXLE_STATUS.loaded = true → c % 8 = 0 → s'.count + 160000 ≤ c → c ≤ s'.count + 1600000000 →
      s'.peerWrong i = false →
      ∃ t, exec (.imageStart dt cmd c) s = .next t
        ∧ t.lastResponse = some ⟨0x20, 0, 0, cmd, true, (word8 c)⟩ ∧ t.turn.startAt = some c ∧ t.turn.stopCmd = none
        ∧ t.running = true ∧ t.mem = s'.mem ∧ s'.sameBut t [.regs, .turn, .port]
        ∧ s'.regsBut t [HEAD_IMAGE_STATUS.state, HEAD_TURN_STATE.phase])
  ∧ -- imageStart
    (∀ (dt : Nat) (cmd c : Nat) (s s' : State), s' = s.pass dt →
      s'.cmdRuns 0x20 [1, 2] = true → s'.img.image = none →
      ∃ t, exec (.imageStart dt cmd c) s = .next t
        ∧ t.lastResponse = some ⟨0x20, 8, 0, cmd, true, []⟩ ∧ t.regs = s'.regs ∧ t.turn = s'.turn ∧ t.mem = s'.mem
        ∧ s'.sameBut t [.port])
  ∧ -- imageStop
    (∀ (dt : Nat) (cmd a : Nat) (s s' : State), s' = s.pass dt →
      s'.cmdRuns 0x21 [1, 2] = true → s'.running = true → s'.turn.startAt = some a →
      ∃ t, exec (.imageStop dt cmd) s = .next t
        ∧ t.lastResponse = some ⟨0x21, 0, 0, cmd, true, (word8 0)⟩ ∧ t.get HEAD_IMAGE_STATUS.state = 2
        ∧ s'.sameBut t [.regs, .mem, .turn, .port, .img, .tile, .net, .serv, .rep])
  ∧ -- imageStop
    (∀ (dt : Nat) (cmd : Nat) (s s' : State), s' = s.pass dt →
      s'.cmdRuns 0x21 [1, 2] = true → s'.running = true → s'.turn.startAt = none →
      ∃ t, exec (.imageStop dt cmd) s = .next t
        ∧ t.turn.stopCmd = some cmd ∧ t.port.resp = s'.port.resp ∧ t.regs = s'.regs ∧ t.mem = s'.mem
        ∧ s'.sameBut t [.turn, .port])
  ∧ -- sessionClose
    (∀ (dt : Nat) (cmd : Nat) (s s' : State), s' = s.pass dt →
      s'.cmdRuns 0x30 [1, 2] = true →
      ∃ t, exec (.sessionClose dt cmd) s = .next t
        ∧ t.lastResponse = some ⟨0x30, 0, 0, cmd, true, []⟩ ∧ t.get CTL_PORT_STATUS.link = 1 ∧ t.get CTL_PORT_STATUS.role = 0
        ∧ t.port.secret = [] ∧ t.port.transcript = [] ∧ t.mem = s'.mem ∧ s'.sameBut t [.regs, .port]
        ∧ s'.regsBut t [CTL_PORT_STATUS.role, CTL_PORT_STATUS.link])
  ∧ -- coachRepair
    (∀ (dt : Nat) (cmd c : Nat) (s s' : State), s' = s.pass dt →
      s'.cmdRuns 0x120 [1, 2] = true → c < 64 → s'.running = false → s'.rep.isolated.contains c = false → s'.rep.rebuilds = [] →
      ∃ t, exec (.coachRepair dt cmd c) s = .next t
        ∧ t.lastResponse = some ⟨0x120, 0, 0, cmd, true, []⟩ ∧ t.rep.isolated = s'.rep.isolated ++ [c] ∧ t.port.long = none
        ∧ t.turn = s'.turn
        ∧ s'.sameBut t [.regs, .mem, .flips, .turn, .ev, .port, .sbx, .img, .tile, .net, .serv, .boot, .rep, .pwr])
  ∧ -- couplingTrain
    (∀ (dt : Nat) (cmd k : Nat) (s s' : State), s' = s.pass dt →
      s'.cmdRuns 0x121 [1] = true → k < 24 → s'.running = false →
      ∃ t, exec (.couplingTrain dt cmd (2 ^ k)) s = .next t
        ∧ t.lastResponse = some ⟨0x121, 0, 0, cmd, false, []⟩ ∧ t.get (CPL_STATUS.state.cpl k) = 1 ∧ t.longIs 0x121 = true
        ∧ t.turn = s'.turn ∧ t.mem = s'.mem ∧ s'.sameBut t [.regs, .port, .cpl]
        ∧ s'.regsBut t [CPL_STATUS.state.cpl k, CTL_PORT_STATUS.long_cmd])
  ∧ -- defectClear
    (∀ (dt : Nat) (cmd : Nat) (s s' : State), s' = s.pass dt →
      s'.cmdRuns 0x122 [2] = true → s'.running = false →
      ∃ t, exec (.defectClear dt cmd 0xFF 0xFF) s = .next t
        ∧ t.lastResponse = some ⟨0x122, 0, 0, cmd, true, []⟩
        ∧ t.rep.defects = s'.rep.defects.filter (fun (w : Nat) => bits w 62 2 != 2)
        ∧ t.sbx.store = s'.sbx.store.filter (fun (w : Nat) => bits w 62 2 != 2)
        ∧ t.get HEAD_DEFECT_INDEX.entries = (s'.rep.defects.filter (fun (w : Nat) => bits w 62 2 != 2)).length % 2 ^
          HEAD_DEFECT_INDEX.entries.w
        ∧ t.port.long = none ∧ t.mem = s'.mem ∧ s'.sameBut t [.regs, .port, .sbx, .rep]
        ∧ s'.regsBut t [CTL_PORT_STATUS.long_cmd, HEAD_DEFECT_INDEX.entries])

/-- The load commands answer OK without final, and run until their data has come (R272, R277, R279, R370, R399, R400). IMAGE_LOAD
over channel 5 unloads the old image, shows state 1 and expects the file's bytes; MODEL_STAGE empties the other half,
ADAPTER_LOAD the copy it writes, and TOWER_STAGE expects an image for the towers; DRAIN_RELOAD of a running image with a staged
one sets the turn by which the drain ends; each is then the running long command. In every clause, the parts of the state, the
register fields and the bytes of memory that it does not list keep their values. Each clause first lets the dt axle ticks of its
command pass. Its clauses conclude that exec ANSWERS A NEXT STATE with the command's own effect, for every state and operands
that meet hypotheses on these alone; so these COMPLETE: imageLoad, modelStage, adapterLoad, towerStage, drainReload,
reloadComplete. What the spec leaves open in it is the model's choice or reading: log entries 1, 20, 22. -/
def Obligations.LoadCommands : Prop :=
  -- imageLoad
    (∀ (dt : Nat) (cmd : Nat) (b : Bool) (i : Image) (s s' : State), s' = s.pass dt →
      s'.cmdRuns 0x100 [1] = true → s'.get HEAD_IMAGE_STATUS.state ≠ 1 → s'.get HEAD_IMAGE_STATUS.state ≠ 3 →
      ∃ t, exec (.imageLoad dt cmd 0 b i) s = .next t
        ∧ t.lastResponse = some ⟨0x100, 0, 0, cmd, false, []⟩
        ∧ (t.port.long.map fun (c : LongCmd) => (c.opcode, c.cmdId, c.got, c.want, c.bulk, c.start)) = some (0x100, cmd, 0,
          i.header.imageBytes, true, s'.ticks)
        ∧ t.get HEAD_IMAGE_STATUS.state = 1 ∧ t.img.image = none ∧ t.img.load = some i ∧ t.mem = s'.mem
        ∧ s'.sameBut t [.regs, .port, .img, .boot, .pwr, .thm])
  ∧ -- modelStage
    (∀ (dt : Nat) (cmd : Nat) (i : Image) (s s' : State), s' = s.pass dt →
      s'.cmdRuns 0x101 [1] = true → s'.img.image.isSome = true → s'.flag HEAD_SERVE_CONFIG.halves = true →
      s'.get (halfState s'.otherHalf) ≠ 3 →
      ∃ t, exec (.modelStage dt cmd i) s = .next t
        ∧ t.lastResponse = some ⟨0x101, 0, 0, cmd, false, []⟩
        ∧ (t.port.long.map fun (c : LongCmd) => (c.opcode, c.cmdId, c.got, c.want, c.bulk, c.start)) = some (0x101, cmd, 0,
          i.header.imageBytes, true, s'.ticks)
        ∧ t.get (halfState s'.otherHalf) = 0 ∧ t.img.load = some i ∧ t.img.image = s'.img.image ∧ t.mem = s'.mem
        ∧ s'.sameBut t [.regs, .port, .img]
        ∧ s'.regsBut t [halfState s'.otherHalf, CTL_PORT_STATUS.long_cmd, HEAD_IMPORT_STATUS.blocks, HEAD_IMPORT_STATUS.saturated])
  ∧ -- adapterLoad
    (∀ (dt : Nat) (cmd a : Nat) (ws : List Nat) (s s' : State), s' = s.pass dt →
      s'.cmdRuns 0x103 [1] = true → s'.img.image.isSome = true → a < s'.get HEAD_SERVE_CONFIG.adapter_slots →
      s'.get (copyState a (s'.targetCopy a)) ≠ 3 →
      ∃ t, exec (.adapterLoad dt cmd a ws) s = .next t
        ∧ t.lastResponse = some ⟨0x103, 0, 0, cmd, false, []⟩
        ∧ (t.port.long.map fun (c : LongCmd) => (c.opcode, c.cmdId, c.got, c.want, c.bulk, c.start)) = some (0x103, cmd, 0, (68
          * ws.length), true, s'.ticks)
        ∧ t.get (copyState a (s'.targetCopy a)) = 0 ∧ t.img = s'.img ∧ t.mem = s'.mem ∧ s'.sameBut t [.regs, .port]
        ∧ s'.regsBut t [copyState a (s'.targetCopy a), copyGen a (s'.targetCopy a), CTL_PORT_STATUS.long_cmd,
          HEAD_IMPORT_STATUS.blocks, HEAD_IMPORT_STATUS.saturated])
  ∧ -- towerStage
    (∀ (dt : Nat) (cmd : Nat) (i : Image) (s s' : State), s' = s.pass dt →
      s'.cmdRuns 0x104 [1] = true →
      ∃ t, exec (.towerStage dt cmd i) s = .next t
        ∧ t.lastResponse = some ⟨0x104, 0, 0, cmd, false, []⟩
        ∧ (t.port.long.map fun (c : LongCmd) => (c.opcode, c.cmdId, c.got, c.want, c.bulk, c.start)) = some (0x104, cmd, 0,
          i.header.imageBytes, true, s'.ticks)
        ∧ t.get CTL_PORT_STATUS.long_cmd = 0x104 ∧ t.img.load = some i ∧ t.img.staged = s'.img.staged ∧ t.mem = s'.mem
        ∧ s'.sameBut t [.regs, .port, .img]
        ∧ s'.regsBut t [CTL_PORT_STATUS.long_cmd, HEAD_IMPORT_STATUS.blocks, HEAD_IMPORT_STATUS.saturated])
  ∧ -- drainReload
    (∀ (dt : Nat) (cmd n : Nat) (s s' : State), s' = s.pass dt →
      s'.cmdRuns 0x102 [1] = true → s'.running = true → s'.img.staged.isSome = true →
      ∃ t, exec (.drainReload dt cmd n) s = .next t
        ∧ t.lastResponse = some ⟨0x102, 0, 0, cmd, false, []⟩
        ∧ (t.port.long.map fun (c : LongCmd) => (c.opcode, c.cmdId, c.got, c.want, c.bulk, c.start)) = some (0x102, cmd, 0, 0,
          false, s'.ticks)
        ∧ t.serv.drain = some (cmd, s'.turnNo + n) ∧ t.turn = s'.turn ∧ t.mem = s'.mem ∧ s'.sameBut t [.regs, .port, .serv]
        ∧ s'.regsBut t [CTL_PORT_STATUS.long_cmd])
  ∧ -- reloadComplete
    (∀ (dt : Nat) (i : Image) (c : LongCmd) (s s' : State), s' = s.pass dt →
      s'.img.staged = some i → s'.serv.reloading = true → s'.serv.drain = none → s'.port.long = some c → c.opcode = 0x102 →
      ∃ t, exec (.reloadComplete dt) s = .next t
        ∧ t.port.long = none
        ∧ (t.lastResponse.map fun (x : Resp0) => (x.opcode, x.cmdId, x.final, x.status)) = some (0x102, c.cmdId, true,
          (firstFailure ((s'.unloadImage.setImageState 1).failing i) i.header.imageBytes).elim 0 fun (f : Check) => if f.code =
          9 then 4 else 3)
        ∧ t.get HEAD_IMAGE_STATUS.state = (if (firstFailure ((s'.unloadImage.setImageState 1).failing i)
          i.header.imageBytes).isNone then 2 else 0)
        ∧ s'.sameBut t [.regs, .mem, .flips, .turn, .port, .img, .tile, .serv, .cpl])

/-- Bulk data counts toward the running command, which ends with its last byte, or with TIMEOUT (R399, R400). A channel 5 frame of
the running TOWER_STAGE that begins at the byte expected counts its bytes; with the last one the image is staged and the command
answers OK; a frame for no command is a bad record; a command that reaches its time limit, or whose data stays away for 2 s,
answers TIMEOUT and leaves nothing staged. In every clause, the parts of the state, the register fields and the bytes of memory
that it does not list keep their values. Each clause first lets the dt axle ticks of its command pass. Its clauses conclude that
exec ANSWERS A NEXT STATE with the command's own effect, for every state and operands that meet hypotheses on these alone; so
these COMPLETE: bulkFrame, longCommandTimeout, bulkDataTimeout. What the spec leaves open in it is the model's choice or
reading: log entries 1, 20, 22. -/
def Obligations.LongCommandData : Prop :=
  -- bulkFrame
    (∀ (dt : Nat) (p : List Byte) (c : LongCmd) (i : Image) (s s' : State), s' = s.pass dt →
      s'.port.long = some c → c.opcode = 0x104 → s'.img.load = some i → s'.port.chans.length = 6 → (s'.chan 5).rx = [p] →
      16 ≤ p.length → leNat (p.take 4) = c.cmdId → leNat ((p.drop 8).take 8) = c.got → c.bulk = true →
      c.got + (p.length - 16) < c.want →
      ∃ t, exec (.bulkFrame dt) s = .next t
        ∧ t.port.long = some { c with got := c.got + (p.length - 16), lastBulk := s'.ticks } ∧ (t.chan 5).rx = []
        ∧ t.img = s'.img ∧ t.regs = s'.regs ∧ t.mem = s'.mem ∧ s'.sameBut t [.port])
  ∧ -- bulkFrame
    (∀ (dt : Nat) (p : List Byte) (c : LongCmd) (i : Image) (s s' : State), s' = s.pass dt →
      s'.port.long = some c → c.opcode = 0x104 → s'.img.load = some i → s'.port.chans.length = 6 → (s'.chan 5).rx = [p] →
      16 ≤ p.length → leNat (p.take 4) = c.cmdId → leNat ((p.drop 8).take 8) = c.got → c.bulk = true →
      c.want ≤ c.got + (p.length - 16) →
      ∃ t, exec (.bulkFrame dt) s = .next t
        ∧ t.port.long = none ∧ (t.chan 5).rx = [] ∧ t.img.staged = some i ∧ t.img.load = none
        ∧ t.lastResponse = some ⟨0x104, 0, 0, c.cmdId, true, []⟩ ∧ t.mem = s'.mem ∧ s'.sameBut t [.regs, .port, .img]
        ∧ s'.regsBut t [CTL_PORT_STATUS.long_cmd])
  ∧ -- longCommandTimeout
    (∀ (dt : Nat) (c : LongCmd) (s s' : State), s' = s.pass dt →
      s'.port.raw = none → s'.port.long = some c → c.opcode = 0x104 → c.start + 96000000000 ≤ s'.ticks →
      ∃ t, exec (.longCommandTimeout dt) s = .next t
        ∧ t.port.long = none ∧ t.img.load = none ∧ t.img.staged = none ∧ t.lastResponse = some ⟨0x104, 7, 0, c.cmdId, true, []⟩
        ∧ t.mem = s'.mem ∧ s'.sameBut t [.regs, .port, .img] ∧ s'.regsBut t [CTL_PORT_STATUS.long_cmd])
  ∧ -- bulkDataTimeout
    (∀ (dt : Nat) (c : LongCmd) (s s' : State), s' = s.pass dt →
      s'.port.long = some c → c.opcode = 0x104 → c.bulk = true → c.lastBulk + 320000000 ≤ s'.ticks →
      ∃ t, exec (.bulkDataTimeout dt) s = .next t
        ∧ t.port.long = none ∧ t.img.load = none ∧ t.img.staged = none ∧ t.lastResponse = some ⟨0x104, 7, 0, c.cmdId, true, []⟩
        ∧ t.mem = s'.mem ∧ s'.sameBut t [.regs, .port, .img] ∧ s'.regsBut t [CTL_PORT_STATUS.long_cmd])

/-- Attestation, erasure, the policy, the operator keys and the alarms act as the strongbox's rules say (R511, R515, R527, R529,
R530, R531, R532, R533). ATTEST of a 32-byte nonce counts a report and answers; ZEROISE puts the strongbox in mode 3 and the
image in state 0, and when it is complete the data is gone and event 7 is raised; a policy write sets the bits of its own role;
a grant of debug taken back ends debug; enrolment and removal give their result; a failing test puts the strongbox in its error
state, or waits for a zeroise. In every clause, the parts of the state, the register fields and the bytes of memory that it does
not list keep their values. Each clause first lets the dt axle ticks of its command pass. Its clauses conclude that exec ANSWERS
A NEXT STATE with the command's own effect, for every state and operands that meet hypotheses on these alone; so these COMPLETE:
attest, zeroise, zeroiseComplete, sbxPolicyWrite, allowDebugClear, allowServiceClear, keyEnrol, keyRemove, sbxAlarm. What the
spec leaves open in it is the model's choice or reading: log entries 1, 5, 18. -/
def Obligations.StrongboxCommands : Prop :=
  -- attest
    (∀ (dt : Nat) (cmd : Nat) (nonce : List Byte) (s s' : State), s' = s.pass dt →
      s'.cmdRuns 0x110 [1, 2] = true → nonce.length = 32 →
      ∃ t, exec (.attest dt cmd nonce) s = .next t
        ∧ t.get SBX_STATUS.reports = (s'.get SBX_STATUS.reports + 1) % 2 ^ 32 ∧ t.port.long = none
        ∧ (t.lastResponse.map fun (x : Resp0) => (x.opcode, x.status, x.detail, x.cmdId, x.final)) = some (0x110, 0, 0, cmd, true)
        ∧ t.mem = s'.mem ∧ s'.sameBut t [.regs, .port] ∧ s'.regsBut t [CTL_PORT_STATUS.long_cmd, SBX_STATUS.reports])
  ∧ -- zeroise
    (∀ (dt : Nat) (cmd n : Nat) (s s' : State), s' = s.pass dt →
      s'.cmdRuns 0x111 [1, 2] = true → ((n = 1 ∨ n = 2)) → s'.port.shake = none → s'.running = false →
      ∃ t, exec (.zeroise dt cmd n) s = .next t
        ∧ t.lastResponse = some ⟨0x111, 0, 0, cmd, false, []⟩ ∧ t.get SBX_STATUS.mode = 3 ∧ t.get HEAD_IMAGE_STATUS.state = 0
        ∧ t.longIs 0x111 = true ∧ s'.sameBut t [.regs, .mem, .turn, .port, .img, .tile, .net, .serv, .rep])
  ∧ -- zeroiseComplete
    (∀ (dt : Nat) (c : LongCmd) (s s' : State), s' = s.pass dt →
      s'.port.long = some c → c.opcode = 0x111 → c.args = [1] → s'.sbx.failing = none → s'.get CTL_PORT_STATUS.link = 2 →
      ∃ t, exec (.zeroiseComplete dt) s = .next t
        ∧ t.get SBX_STATUS.mode = 1 ∧ t.get HEAD_WEIGHTS_VALID.valid = 0 ∧ t.img.image = none ∧ t.img.staged = none ∧ t.mbx = []
        ∧ t.sbx.salt = s'.sbx.salt + 1 ∧ t.port.long = none ∧ t.mem = s'.mem.filter (fun (x : Host.Cell) => zeroiseKeeps x.1)
        ∧ t.lastEvent = some (7, 1, 0) ∧ t.get CTL_PORT_STATUS.link = 1 ∧ t.sbx.keys = s'.sbx.keys
        ∧ s'.sameBut t [.regs, .mem, .flips, .ev, .port, .mbx, .sbx, .img, .serv])
  ∧ -- zeroiseComplete
    (∀ (dt : Nat) (c : LongCmd) (s s' : State), s' = s.pass dt →
      s'.port.long = some c → c.opcode = 0x111 → c.args = [2] → s'.sbx.failing = none →
      ∃ t, exec (.zeroiseComplete dt) s = .next t
        ∧ t.get SBX_STATUS.mode = 1 ∧ t.get HEAD_WEIGHTS_VALID.valid = 0 ∧ t.img.image = none ∧ t.img.staged = none ∧ t.mbx = []
        ∧ t.sbx.salt = s'.sbx.salt + 1 ∧ t.port.long = none ∧ t.mem = s'.mem.filter (fun (x : Host.Cell) => zeroiseKeeps x.1)
        ∧ t.lastEvent = some (7, 2, 0) ∧ t.sbx.keys = [] ∧ t.flag SBX_POLICY.allow_service = true
        ∧ t.flag SBX_POLICY.allow_debug = true ∧ t.flag SBX_POLICY.debug = false
        ∧ s'.sameBut t [.regs, .mem, .flips, .ev, .port, .mbx, .sbx, .img, .serv])
  ∧ -- sbxPolicyWrite
    (∀ (dt : Nat) (cmd v : Nat) (s s' : State), s' = s.pass dt →
      s'.cmdRuns 2 [1, 2] = true → s'.role = 2 → v.testBit 0 = s'.flag SBX_POLICY.allow_service →
      v.testBit 1 = s'.flag SBX_POLICY.allow_debug → s'.flag SBX_POLICY.allow_debug = true → s'.get HEAD_IMAGE_STATUS.state = 0 →
      v.testBit 2 = true →
      ∃ t, exec (.sbxPolicyWrite dt cmd v) s = .next t
        ∧ t.lastResponse = some ⟨2, 0, 0, cmd, true, []⟩ ∧ t.flag SBX_POLICY.debug = true
        ∧ t.flag SBX_STATUS.debug_active = true ∧ t.flag SBX_POLICY.raw_debug = v.testBit 3
        ∧ t.flag SBX_POLICY.allow_debug = true ∧ t.mem = s'.mem ∧ s'.sameBut t [.regs, .port]
        ∧ s'.regsBut t ([SBX_POLICY.raw_debug, SBX_POLICY.debug, SBX_POLICY.allow_debug, SBX_POLICY.allow_service,
          SBX_STATUS.debug_active] ++ ((List.range 24).map fun (k : Nat) => CPL_CONFIG.raw_debug.cpl k)))
  ∧ -- allowDebugClear
    (∀ (dt : Nat) (cmd : Nat) (s s' : State), s' = s.pass dt →
      s'.cmdRuns 2 [1, 2] = true → s'.role = 1 → s'.flag SBX_POLICY.allow_debug = true →
      s'.flag HEAD_IMAGE_STATUS.debug = false →
      ∃ t, exec (.allowDebugClear dt cmd) s = .next t
        ∧ t.lastResponse = some ⟨2, 0, 0, cmd, true, []⟩ ∧ t.flag SBX_POLICY.allow_debug = false
        ∧ t.flag SBX_POLICY.debug = false ∧ t.flag SBX_POLICY.raw_debug = false ∧ t.flag SBX_STATUS.debug_active = false
        ∧ t.flag SBX_POLICY.allow_service = s'.flag SBX_POLICY.allow_service ∧ t.mem = s'.mem ∧ s'.sameBut t [.regs, .port]
        ∧ s'.regsBut t ([SBX_POLICY.raw_debug, SBX_POLICY.debug, SBX_POLICY.allow_debug, SBX_POLICY.allow_service,
          SBX_STATUS.debug_active] ++ ((List.range 24).map fun (k : Nat) => CPL_CONFIG.raw_debug.cpl k)))
  ∧ -- allowServiceClear
    (∀ (dt : Nat) (cmd : Nat) (s s' : State), s' = s.pass dt →
      s'.cmdRuns 2 [1, 2] = true → s'.role = 1 →
      ∃ t, exec (.allowServiceClear dt cmd) s = .next t
        ∧ t.lastResponse = some ⟨2, 0, 0, cmd, true, []⟩ ∧ t.flag SBX_POLICY.allow_service = false
        ∧ t.flag SBX_POLICY.allow_debug = s'.flag SBX_POLICY.allow_debug ∧ t.flag SBX_POLICY.debug = s'.flag SBX_POLICY.debug
        ∧ t.mem = s'.mem ∧ s'.sameBut t [.regs, .port]
        ∧ s'.regsBut t [SBX_POLICY.raw_debug, SBX_POLICY.debug, SBX_POLICY.allow_debug, SBX_POLICY.allow_service])
  ∧ -- keyEnrol
    (∀ (dt : Nat) (cmd n : Nat) (s s' : State), s' = s.pass dt →
      s'.cmdRuns 2 [1, 2] = true → s'.role = 1 → n < 8 →
      ∃ t, exec (.keyEnrol dt cmd n) s = .next t
        ∧ t.lastResponse = some ⟨2, 0, 0, cmd, true, []⟩
        ∧ t.get SBX_KEY_STATE.result = (if (Sparse.find s'.sbx.keys n).isSome then 1 else if !Config.mldsaKeyValid s'.stagedKey
          then 4 else 0)
        ∧ (t.get SBX_KEY_STATE.result = 0 → Sparse.find t.sbx.keys n = some s'.stagedKey) ∧ (t.get SBX_KEY_STATE.result ≠ 0 →
        t.sbx = s'.sbx) ∧ t.mem = s'.mem ∧ s'.sameBut t [.regs, .port, .sbx]
        ∧ s'.regsBut t [SBX_KEY_STATE.result, SBX_KEY_STATE.occupied, SBX_STATUS.claimed])
  ∧ -- keyRemove
    (∀ (dt : Nat) (cmd n : Nat) (s s' : State), s' = s.pass dt →
      s'.cmdRuns 2 [1, 2] = true → s'.role = 1 → n < 8 → Sparse.sorted s'.sbx.keys = true →
      ∃ t, exec (.keyRemove dt cmd n) s = .next t
        ∧ t.lastResponse = some ⟨2, 0, 0, cmd, true, []⟩
        ∧ t.get SBX_KEY_STATE.result = (if (Sparse.find s'.sbx.keys n).isNone then 2 else if s'.operatorKeys = [n] then 3 else 0)
        ∧ (t.get SBX_KEY_STATE.result = 0 → Sparse.find t.sbx.keys n = none) ∧ (t.get SBX_KEY_STATE.result ≠ 0 → t.sbx = s'.sbx)
        ∧ t.mem = s'.mem ∧ s'.sameBut t [.regs, .port, .sbx]
        ∧ s'.regsBut t [SBX_KEY_STATE.result, SBX_KEY_STATE.occupied, SBX_STATUS.claimed, SBX_STATUS.debug_active])
  ∧ -- sbxAlarm
    (∀ (dt : Nat) (code : Nat) (s s' : State), s' = s.pass dt →
      ((code = 3 ∨ code = 4)) → s'.get SBX_STATUS.mode ≠ 3 → s'.port.shake = none →
      ∃ t, exec (.sbxAlarm dt code) s = .next t
        ∧ t.get SBX_STATUS.mode = 2 ∧ t.get SBX_STATUS.alarm = code ∧ t.lastEvent = some (6, code, 0)
        ∧ t.get CTL_PORT_STATUS.link = (if s'.get CTL_PORT_STATUS.link = 2 then 1 else s'.get CTL_PORT_STATUS.link)
        ∧ t.mem = s'.mem ∧ s'.sameBut t [.regs, .ev, .port]
        ∧ s'.regsBut t [SBX_STATUS.mode, SBX_STATUS.alarm, SBX_STATUS.hs_fail, CTL_PORT_STATUS.role, CTL_PORT_STATUS.link])
  ∧ -- sbxAlarm
    (∀ (dt : Nat) (code : Nat) (s s' : State), s' = s.pass dt →
      ((code = 3 ∨ code = 4)) → s'.get SBX_STATUS.mode = 3 →
      ∃ t, exec (.sbxAlarm dt code) s = .next t
        ∧ t.sbx.failing = some code ∧ t.regs = s'.regs ∧ t.port = s'.port ∧ t.ev = s'.ev ∧ t.mem = s'.mem ∧ s'.sameBut t [.sbx])

/-- Frames are taken in order or counted as failed, the link goes down and comes back, and the key phase advances (R383, R384, R385,
R386, R387, R389, R520). In an open session, a data frame in sequence within the free buffer advances the expected number of its
channel when a session key opens it, and a link control frame of the host brings the credit; when no key opens the frame it is
counted as failed authentication and the channels stand. What a key opens is left uninterpreted (log entry 5). A handshake frame
that checks begins the handshake it carries. Symbols that the lanes' code corrected since the frame before, and codewords that
it could not, are counted. A link that goes down ends the session and shows the lanes that hold; one that comes up from step 7
of start-up on has link state 1 and every lane; the device's key phase advances by one when a counter of the present phase has
advanced by half its range and no frame of an earlier phase is unacknowledged. In every clause, the parts of the state, the
register fields and the bytes of memory that it does not list keep their values. Each clause first lets the dt axle ticks of its
command pass. Its clauses conclude that exec ANSWERS A NEXT STATE with the command's own effect, for every state and operands
that meet hypotheses on these alone; so these COMPLETE: dataFrame, linkControlFrame, resendTimeout, controlLinkDown,
controlLinkUp, keyPhaseAdvance. What the spec leaves open in it is the model's choice or reading: log entries 1, 5, 15. -/
def Obligations.PortFrames : Prop :=
  -- dataFrame
    (∀ (dt : Nat) (f : Frame) (fixed bad : Nat) (s s' : State), s' = s.pass dt →
      s'.get CTL_PORT_STATUS.link = 2 → frameBad f = false → f.kind = 0 → ((f.chan = 0 ∨ f.chan = 1 ∨ f.chan = 5)) →
      s'.port.chans.length = 6 → f.seq = (s'.chan f.chan).rxNext → (s'.chan f.chan).rx.length < rxFrames f.chan →
      ∃ t, exec (.dataFrame dt ⟨f, fixed, bad⟩) s = .next t
        ∧ ((s'.openFrame f).isSome = true → (t.chan f.chan).rxNext = mod32 ((s'.chan f.chan).rxNext + 1))
        ∧ ((s'.openFrame f).isSome = false → t.port = s'.port
        ∧ t.get CTL_PORT_ERRORS.auth_fail = min (2 ^ CTL_PORT_ERRORS.auth_fail.w - 1) (s'.get CTL_PORT_ERRORS.auth_fail + 1))
        ∧ t.get CTL_PORT_ERRORS.fec_corrected = min (2 ^ CTL_PORT_ERRORS.fec_corrected.w - 1) (s'.get CTL_PORT_ERRORS.fec_corrected + fixed)
        ∧ t.get CTL_PORT_ERRORS.fec_uncorrectable = min (2 ^ CTL_PORT_ERRORS.fec_uncorrectable.w - 1) (s'.get
          CTL_PORT_ERRORS.fec_uncorrectable + bad)
        ∧ t.mem = s'.mem ∧ s'.sameBut t [.regs, .port]
        ∧ s'.regsBut t [CTL_PORT_ERRORS.auth_fail, CTL_PORT_ERRORS.fec_corrected, CTL_PORT_ERRORS.fec_uncorrectable])
  ∧ -- linkControlFrame
    (∀ (dt : Nat) (f : Frame) (fixed bad : Nat) (s s' : State), s' = s.pass dt →
      s'.get CTL_PORT_STATUS.link = 2 → frameBad f = false → f.kind = 1 → f.chan < 6 → s'.port.chans.length = 6 →
      ∃ t, exec (.linkControlFrame dt ⟨f, fixed, bad⟩) s = .next t
        ∧ ((s'.openFrame f).isSome = true → (t.chan f.chan).txEnd = mod32 (f.credit + 1)
        ∧ (t.chan f.chan).rxNext = (s'.chan f.chan).rxNext) ∧ ((s'.openFrame f).isSome = false → t.port = s'.port
        ∧ t.get CTL_PORT_ERRORS.auth_fail = min (2 ^ CTL_PORT_ERRORS.auth_fail.w - 1) (s'.get CTL_PORT_ERRORS.auth_fail + 1))
        ∧ t.get CTL_PORT_ERRORS.fec_corrected = min (2 ^ CTL_PORT_ERRORS.fec_corrected.w - 1) (s'.get CTL_PORT_ERRORS.fec_corrected + fixed)
        ∧ t.get CTL_PORT_ERRORS.fec_uncorrectable = min (2 ^ CTL_PORT_ERRORS.fec_uncorrectable.w - 1) (s'.get
          CTL_PORT_ERRORS.fec_uncorrectable + bad)
        ∧ t.mem = s'.mem ∧ s'.sameBut t [.regs, .ev, .port, .serv]
        ∧ s'.regsBut t [CTL_PORT_ERRORS.auth_fail, CTL_PORT_ERRORS.fec_corrected, CTL_PORT_ERRORS.fec_uncorrectable])
  ∧ -- dataFrame
    (∀ (dt : Nat) (f : Frame) (fixed bad : Nat) (n : List Byte) (s s' : State), s' = s.pass dt →
      1 ≤ s'.get CTL_PORT_STATUS.link → frameBad f = false → f.kind = 2 → f.chan = 0 →
      f.trailer = leBytes 4 (crc32c (frameHeader f ++ f.payload)) → n.length = 32 → f.payload = [1, 1, 0, 0] ++ n →
      s'.get SBX_STATUS.mode ≠ 2 →
      ∃ t, exec (.dataFrame dt ⟨f, fixed, bad⟩) s = .next t
        ∧ (t.port.shake.map fun (x : Shake) => (x.h1, x.role, x.slot, x.tick)) = some (f.payload, 1, 0, s'.ticks)
        ∧ t.sbx.kems = s'.sbx.kems + 1
        ∧ t.get CTL_PORT_ERRORS.fec_corrected = min (2 ^ CTL_PORT_ERRORS.fec_corrected.w - 1) (s'.get CTL_PORT_ERRORS.fec_corrected + fixed)
        ∧ t.get CTL_PORT_ERRORS.fec_uncorrectable = min (2 ^ CTL_PORT_ERRORS.fec_uncorrectable.w - 1) (s'.get
          CTL_PORT_ERRORS.fec_uncorrectable + bad)
        ∧ t.mem = s'.mem ∧ s'.sameBut t [.regs, .free, .port, .sbx]
        ∧ s'.regsBut t [CTL_PORT_STATUS.key_phase, CTL_PORT_STATUS.role, CTL_PORT_STATUS.link, SBX_STATUS.claimed,
          SBX_STATUS.hs_fail, CTL_PORT_ERRORS.fec_corrected, CTL_PORT_ERRORS.fec_uncorrectable])
  ∧ -- resendTimeout
    (∀ (dt : Nat) (c : Nat) (s s' : State), s' = s.pass dt →
      s'.get CTL_PORT_STATUS.link = 2 → c < 6 → s'.port.chans.length = 6 → (s'.chan c).unacked ≠ [] →
      (s'.chan c).ackTick + 8000 ≤ s'.ticks →
      ∃ t, exec (.resendTimeout dt c) s = .next t
        ∧ (t.chan c).ackTick = s'.ticks ∧ (t.chan c).unacked = (s'.chan c).unacked ∧ (t.chan c).txNext = (s'.chan c).txNext
        ∧ t.regs = s'.regs ∧ t.mem = s'.mem ∧ s'.sameBut t [.port])
  ∧ -- controlLinkDown
    (∀ (dt : Nat) (l : Nat) (s s' : State), s' = s.pass dt →
      l < 16 →
      ∃ t, exec (.controlLinkDown dt l) s = .next t
        ∧ t.get CTL_PORT_STATUS.link = 0 ∧ t.get CTL_PORT_STATUS.lanes_locked = l
        ∧ t.get CTL_PORT_STATUS.role = (if s'.get CTL_PORT_STATUS.link = 2 then 0 else s'.get CTL_PORT_STATUS.role)
        ∧ t.port.chans = s'.port.chans ∧ t.port.resp = s'.port.resp ∧ t.mem = s'.mem ∧ s'.sameBut t [.regs, .port]
        ∧ s'.regsBut t [CTL_PORT_STATUS.lanes_locked, CTL_PORT_STATUS.role, CTL_PORT_STATUS.link])
  ∧ -- controlLinkUp
    (∀ (dt : Nat) (s s' : State), s' = s.pass dt →
      s'.get CTL_PORT_STATUS.link = 0 → 7 ≤ s'.get HEAD_BOOT_STATUS.step →
      ∃ t, exec (.controlLinkUp dt) s = .next t
        ∧ t.get CTL_PORT_STATUS.link = 1 ∧ t.get CTL_PORT_STATUS.lanes_locked = 15 ∧ t.port = s'.port ∧ t.mem = s'.mem
        ∧ s'.sameBut t [.regs] ∧ s'.regsBut t [CTL_PORT_STATUS.lanes_locked, CTL_PORT_STATUS.link])
  ∧ -- keyPhaseAdvance
    (∀ (dt : Nat) (x : Chan) (l : List Chan) (s s' : State), s' = s.pass dt →
      s'.get CTL_PORT_STATUS.link = 2 → s'.port.chans = x :: l → 2147483648 ≤ dist32 x.txMark x.txNext →
      ((x :: l).all fun (y : Chan) => y.unacked.all fun (f : Frame) => f.keyPhase == s'.port.txPhase % 2) = true →
      ∃ t, exec (.keyPhaseAdvance dt) s = .next t
        ∧ t.port.txPhase = s'.port.txPhase + 1 ∧ t.get CTL_PORT_STATUS.key_phase = (s'.port.txPhase + 1) % 2
        ∧ t.port.controlMark = s'.port.controls ∧ (t.chan 0).txMark = x.txNext ∧ t.port.resp = s'.port.resp ∧ t.mem = s'.mem
        ∧ s'.sameBut t [.regs, .port] ∧ s'.regsBut t [CTL_PORT_STATUS.key_phase])

/-- H1 begins a handshake that D1 answers, H2 opens the session or is turned away, and an unfinished one is dropped (R511, R515,
R516, R517, R518). A well-formed H1 ends an open session and begins a handshake with a new key pair; in the strongbox's error
state it is refused with status 4; a service H2 while the service is not allowed is refused with status 1; for an unclaimed
device the operator's H2 opens the session and enrols the key when its signature verifies, and is refused with status 3 when it
does not; a handshake not finished in one second is dropped and counted. In every clause, the parts of the state, the register
fields and the bytes of memory that it does not list keep their values. Each clause first lets the dt axle ticks of its command
pass. Its clauses conclude that exec ANSWERS A NEXT STATE with the command's own effect, for every state and operands that meet
hypotheses on these alone; so these COMPLETE: handshakeH1, handshakeH2, handshakeTimeout. What the spec leaves open in it is the
model's choice or reading: log entries 1, 5, 15. -/
def Obligations.Handshakes : Prop :=
  -- handshakeH1
    (∀ (dt : Nat) (n : List Byte) (s s' : State), s' = s.pass dt →
      1 ≤ s'.get CTL_PORT_STATUS.link → n.length = 32 → s'.get SBX_STATUS.mode ≠ 2 →
      ∃ t, exec (.handshakeH1 dt ([1, 1, 0, 0] ++ n)) s = .next t
        ∧ (t.port.shake.map fun (x : Shake) => (x.h1, x.role, x.slot, x.tick)) = some ([1, 1, 0, 0] ++ n, 1, 0, s'.ticks)
        ∧ t.sbx.kems = s'.sbx.kems + 1
        ∧ t.get CTL_PORT_STATUS.link = (if s'.get CTL_PORT_STATUS.link = 2 then 1 else s'.get CTL_PORT_STATUS.link)
        ∧ t.mem = s'.mem ∧ s'.sameBut t [.regs, .free, .port, .sbx]
        ∧ s'.regsBut t [CTL_PORT_STATUS.role, CTL_PORT_STATUS.link, SBX_STATUS.hs_fail])
  ∧ -- handshakeH1
    (∀ (dt : Nat) (n : List Byte) (s s' : State), s' = s.pass dt →
      1 ≤ s'.get CTL_PORT_STATUS.link → n.length = 32 → s'.get SBX_STATUS.mode = 2 → s'.port.shake = none →
      ∃ t, exec (.handshakeH1 dt ([1, 1, 0, 0] ++ n)) s = .next t
        ∧ t.port.shake = none ∧ t.port.shakeOut = [2, 4]
        ∧ t.get SBX_STATUS.hs_fail = min (2 ^ SBX_STATUS.hs_fail.w - 1) (s'.get SBX_STATUS.hs_fail + 1) ∧ t.sbx = s'.sbx
        ∧ t.mem = s'.mem ∧ s'.sameBut t [.regs, .port]
        ∧ s'.regsBut t [CTL_PORT_STATUS.role, CTL_PORT_STATUS.link, SBX_STATUS.hs_fail])
  ∧ -- handshakeH2
    (∀ (dt : Nat) (h : Shake) (m : List Byte) (s s' : State), s' = s.pass dt →
      s'.port.shake = some h → 1 ≤ s'.get CTL_PORT_STATUS.link → m.length = 4824 → m.take 4 = [3, 0, 0, 0] →
      s'.get SBX_STATUS.mode ≠ 2 → h.role = 2 → s'.flag SBX_POLICY.allow_service = false →
      ∃ t, exec (.handshakeH2 dt m) s = .next t
        ∧ t.port.shake = none ∧ t.port.shakeOut = [4, 1, 0, 0] ++ leBytes 32 0
        ∧ t.get SBX_STATUS.hs_fail = min (2 ^ SBX_STATUS.hs_fail.w - 1) (s'.get SBX_STATUS.hs_fail + 1)
        ∧ t.get CTL_PORT_STATUS.link = s'.get CTL_PORT_STATUS.link ∧ t.sbx = s'.sbx ∧ t.mem = s'.mem
        ∧ s'.sameBut t [.regs, .port] ∧ s'.regsBut t [SBX_STATUS.claimed, SBX_STATUS.hs_fail])
  ∧ -- handshakeH2
    (∀ (dt : Nat) (h : Shake) (m : List Byte) (s s' : State), s' = s.pass dt →
      s'.port.shake = some h → 1 ≤ s'.get CTL_PORT_STATUS.link → m.length = 4824 → m.take 4 = [3, 0, 0, 0] →
      s'.get SBX_STATUS.mode ≠ 2 → h.role = 1 → s'.flag SBX_STATUS.claimed = false →
      ∃ t, exec (.handshakeH2 dt m) s = .next t
        ∧ (Config.mldsaVerify 3 ((m.drop 1092).take 1312) (Config.sha3 (h.h1 ++ h.d1 ++ m.take 2404)) (m.drop 2404) = true →
        t.get CTL_PORT_STATUS.link = 2 ∧ t.get CTL_PORT_STATUS.role = 1 ∧ t.get CTL_PORT_STATUS.key_phase = 0
        ∧ Sparse.find t.sbx.keys 0 = some ((m.drop 1092).take 1312) ∧ t.flag SBX_STATUS.claimed = true)
        ∧ (Config.mldsaVerify 3 ((m.drop 1092).take 1312) (Config.sha3 (h.h1 ++ h.d1 ++ m.take 2404)) (m.drop 2404) = false →
        t.port.shakeOut = [4, 3, 0, 0] ++ leBytes 32 0 ∧ t.sbx = s'.sbx
        ∧ t.get SBX_STATUS.hs_fail = min (2 ^ SBX_STATUS.hs_fail.w - 1) (s'.get SBX_STATUS.hs_fail + 1)) ∧ t.port.shake = none
        ∧ t.mem = s'.mem ∧ s'.sameBut t [.regs, .port, .sbx]
        ∧ s'.regsBut t [SBX_STATUS.claimed, SBX_STATUS.hs_fail, CTL_PORT_STATUS.key_phase, CTL_PORT_STATUS.role,
          CTL_PORT_STATUS.link, SBX_KEY_STATE.occupied])
  ∧ -- handshakeTimeout
    (∀ (dt : Nat) (h : Shake) (s s' : State), s' = s.pass dt →
      s'.port.shake = some h → h.tick + 160000000 ≤ s'.ticks →
      ∃ t, exec (.handshakeTimeout dt) s = .next t
        ∧ t.port.shake = none ∧ t.get SBX_STATUS.hs_fail = min (2 ^ SBX_STATUS.hs_fail.w - 1) (s'.get SBX_STATUS.hs_fail + 1)
        ∧ t.sbx = s'.sbx ∧ t.mem = s'.mem ∧ t.ev = s'.ev ∧ s'.sameBut t [.regs, .port] ∧ s'.regsBut t [SBX_STATUS.hs_fail])

/-- A submit record is queued or refused with its code, and a cancel ends what it names or is counted as a miss (R246, R248, R251,
R268, R269). A submit record that passes the checks becomes the newest queued entry of its ring, with the next number, and
returns nothing yet; one that fails a check gets one refusal record with the first code that applies, and is counted; a cancel
of a queued entry returns an end record with code 4 and the entry is gone; one that names nothing is counted, and a malformed
one is a bad record. In every clause, the parts of the state, the register fields and the bytes of memory that it does not list
keep their values. Each clause first lets the dt axle ticks of its command pass. Its clauses conclude that exec ANSWERS A NEXT
STATE with the command's own effect, for every state and operands that meet hypotheses on these alone; so these COMPLETE:
submit, cancel. What the spec leaves open in it is the model's choice or reading: log entries 1, 17, 58. -/
def Obligations.SubmitsAndCancels : Prop :=
  -- submit
    (∀ (dt : Nat) (b : List Byte) (s s' : State), s' = s.pass dt →
      s'.leads = true → s'.reserved < 16384 → recField b 2 1 ≠ 2 → s'.submitRefusal b = none →
      (s'.allocBlocks ((recField b 0 2) % 24) (ceilDiv (recField b 16 4) 64)).isSome = true → Memory.wf s'.mem = true →
      ∃ t, exec (.submit dt b) s = .next t
        ∧ t.serv.reqs.map (fun (r : Req) => (r.id, r.ring, r.tag, r.tenant, r.promptLen, r.phase)) = s'.serv.reqs.map (fun (r :
          Req) => (r.id, r.ring, r.tag, r.tenant, r.promptLen, r.phase)) ++ [(s'.serv.nextId, (recField b 0 2), (recField b 4
          4), (recField b 8 2), recField b 16 4, .queued)]
        ∧ t.serv.nextId = s'.serv.nextId + 1 ∧ t.serv.rets = s'.serv.rets ∧ t.regs = s'.regs
        ∧ s'.memBut t [(ringRegion (recField b 0 2 % 24) + (recField b 0 2 / 24 * 1024 + (((List.range 8).find? fun (y : Nat)
          => !((s'.entries (recField b 0 2)).map fun (z : Req) => z.entry).contains y).getD 0) * 128), 96), (ringRegion
          ((recField b 0 2 % 24 + 12) % 24) + (0x80000 + (recField b 0 2 / 24 * 1024 + (((List.range 8).find? fun (y : Nat) =>
          !((s'.entries (recField b 0 2)).map fun (z : Req) => z.entry).contains y).getD 0) * 128)), 96), (ringRegion (recField
          b 0 2 % 24) + (0x400000 + 256 * (((s'.allocBlocks ((recField b 0 2) % 24) (ceilDiv (recField b 16 4) 64)).map fun (y
          : Nat × State) => y.1).getD 0)), 4 * (newReq b s'.serv.nextId (((List.range 8).find? fun (y : Nat) => !((s'.entries
          (recField b 0 2)).map fun (z : Req) => z.entry).contains y).getD 0) s'.count (((s'.allocBlocks ((recField b 0 2) %
          24) (ceilDiv (recField b 16 4) 64)).map fun (y : Nat × State) => y.1).getD 0)).prompt.length), (ringRegion ((recField
          b 0 2 % 24 + 12) % 24) + (0x20280000 + 256 * (((s'.allocBlocks ((recField b 0 2) % 24) (ceilDiv (recField b 16 4)
          64)).map fun (y : Nat × State) => y.1).getD 0)), 4 * (newReq b s'.serv.nextId (((List.range 8).find? fun (y : Nat) =>
          !((s'.entries (recField b 0 2)).map fun (z : Req) => z.entry).contains y).getD 0) s'.count (((s'.allocBlocks
          ((recField b 0 2) % 24) (ceilDiv (recField b 16 4) 64)).map fun (y : Nat × State) => y.1).getD 0)).prompt.length)]
        ∧ s'.sameBut t [.mem, .port, .serv])
  ∧ -- submit
    (∀ (dt : Nat) (b : List Byte) (c : Nat) (s s' : State), s' = s.pass dt →
      s'.leads = true → s'.reserved < 16384 → recField b 2 1 ≠ 2 → s'.submitRefusal b = some c → Memory.wf s'.mem = true →
      ∃ t, exec (.submit dt b) s = .next t
        ∧ t.serv.rets = s'.serv.rets ++ [⟨(recField b 0 2), 3, c, (recField b 4 4), 0, 0, true⟩] ∧ t.serv.reqs = s'.serv.reqs
        ∧ t.get HEAD_SERVE_STATS.refused = min (2 ^ HEAD_SERVE_STATS.refused.w - 1) (s'.get HEAD_SERVE_STATS.refused + 1)
        ∧ (s'.towerShut (s'.serv.retCount % 1572864 % 24) = false →
        t.bytes (ringRegion (s'.serv.retCount % 1572864 % 24) + (0x100000 + 16 * (s'.serv.retCount % 1572864 / 24))) 16 =
          retBytes ⟨(recField b 0 2), 3, c, (recField b 4 4), 0, 0, true⟩)
        ∧ s'.memBut t [(ringRegion (s'.serv.retCount % 1572864 % 24) + (0x100000 + 16 * (s'.serv.retCount % 1572864 / 24)),
          16), (ringRegion ((s'.serv.retCount % 1572864 % 24 + 12) % 24) + (0x20080000 + (0x100000 + 16 * (s'.serv.retCount %
          1572864 / 24))), 16)]
        ∧ s'.sameBut t [.regs, .mem, .port, .serv] ∧ s'.regsBut t [HEAD_RETURN_STATUS.peak, HEAD_SERVE_STATS.refused])
  ∧ -- cancel
    (∀ (dt : Nat) (b : List Byte) (r : Req) (s s' : State), s' = s.pass dt →
      s'.leads = true → recField b 2 1 = 2 → badCancel b = false → s'.serv.reqs = [r] → r.ring = (recField b 0 2) →
      (((recField b 4 4) = 0xFFFFFFFF ∨ r.tag = (recField b 4 4))) → r.phase = .queued → s'.reserved < 16384 →
      Memory.wf s'.mem = true →
      ∃ t, exec (.cancel dt b) s = .next t
        ∧ t.serv.rets = s'.serv.rets ++ [⟨r.ring, 2, 4, r.tag, 0, 0, true⟩] ∧ t.serv.reqs = [] ∧ t.turn = s'.turn
        ∧ s'.memBut t [(ringRegion (r.ring % 24) + (r.ring / 24 * 1024 + r.entry * 128 + 64), 1), (ringRegion ((r.ring % 24 +
          12) % 24) + (0x80000 + (r.ring / 24 * 1024 + r.entry * 128 + 64)), 1), (ringRegion (s'.serv.retCount % 1572864 % 24)
          + (0x100000 + 16 * (s'.serv.retCount % 1572864 / 24)), 16), (ringRegion ((s'.serv.retCount % 1572864 % 24 + 12) % 24)
          + (0x20080000 + (0x100000 + 16 * (s'.serv.retCount % 1572864 / 24))), 16)]
        ∧ s'.sameBut t [.regs, .mem, .port, .serv] ∧ s'.regsBut t [HEAD_RETURN_STATUS.peak, HEAD_PREFIX_STATUS.nodes])
  ∧ -- cancel
    (∀ (dt : Nat) (b : List Byte) (s s' : State), s' = s.pass dt →
      recField b 2 1 = 2 → badCancel b = false → s'.serv.reqs = [] →
      ∃ t, exec (.cancel dt b) s = .next t
        ∧ t.get HEAD_SERVE_STATS.cancel_miss = min (2 ^ HEAD_SERVE_STATS.cancel_miss.w - 1) (s'.get HEAD_SERVE_STATS.cancel_miss + 1)
        ∧ t.serv = s'.serv ∧ t.mem = s'.mem ∧ s'.sameBut t [.regs, .port] ∧ s'.regsBut t [HEAD_SERVE_STATS.cancel_miss])
  ∧ -- cancel
    (∀ (dt : Nat) (b : List Byte) (s s' : State), s' = s.pass dt →
      recField b 2 1 = 2 → badCancel b = true →
      ∃ t, exec (.cancel dt b) s = .next t
        ∧ t.get CTL_PORT_ERRORS.bad_records = min (2 ^ CTL_PORT_ERRORS.bad_records.w - 1) (s'.get CTL_PORT_ERRORS.bad_records + 1)
        ∧ t.serv = s'.serv ∧ t.mem = s'.mem ∧ s'.sameBut t [.regs, .port] ∧ s'.regsBut t [CTL_PORT_ERRORS.bad_records])

/-- Admission refuses or admits the oldest entry, the sampling turn chooses tokens, and the KV tiles fetch and spill sets (R224,
R225, R232, R241, R253, R254, R263). The only eligible entry is refused with the code of the first check it fails, and its
record is produced and counted; when every check passes it is admitted in this turn, which is counted; when the copy of a
matched tail node completes, the request waits for its prefill, or is ready when its whole prompt is there. In a turn in which
the sampling unit has not worked, a device that leads adds one result for every live slot of the carriage at the last position,
in order; a prefetch is noted for its group, carriage and turn; the tower write of a spilling set marks it written, counts it,
and ends the spill. In every clause, the parts of the state, the register fields and the bytes of memory that it does not list
keep their values. Each clause first lets the dt axle ticks of its command pass. Its clauses conclude that exec ANSWERS A NEXT
STATE with the command's own effect, for every state and operands that meet hypotheses on these alone; so these COMPLETE:
admission, tailCopyComplete, tokenSampling, kvPrefetch, spillWriteComplete. What the spec leaves open in it is the model's
choice or reading: log entries 1, 17, 60, 62. -/
def Obligations.AdmissionAndSampling : Prop :=
  -- admission
    (∀ (dt : Nat) (ring c : Nat) (r : Req) (s s' : State), s' = s.pass dt →
      s'.leads = true → s'.decided = false → s'.flag HEAD_SERVE_CTRL.admit_enable = true → s'.running = true →
      s'.serv.drain = none → s'.serv.reloading = false → s'.serv.eligible = [r.id] → s'.req? r.id = some r → r.ring = ring →
      s'.verdict r false = .refuse c → s'.reserved < 16384 → Memory.wf s'.mem = true →
      ∃ t, exec (.admission dt ring) s = .next t
        ∧ t.serv.rets = s'.serv.rets ++ [⟨r.ring, 3, c, r.tag, 0, 0, true⟩] ∧ (t.req? r.id).isSome = false
        ∧ t.get HEAD_SERVE_STATS.refused = min (2 ^ HEAD_SERVE_STATS.refused.w - 1) (s'.get HEAD_SERVE_STATS.refused + 1)
        ∧ t.turn = s'.turn
        ∧ s'.memBut t [(ringRegion (r.ring % 24) + (r.ring / 24 * 1024 + r.entry * 128 + 64), 1), (ringRegion ((r.ring % 24 +
          12) % 24) + (0x80000 + (r.ring / 24 * 1024 + r.entry * 128 + 64)), 1), (ringRegion (s'.serv.retCount % 1572864 % 24)
          + (0x100000 + 16 * (s'.serv.retCount % 1572864 / 24)), 16), (ringRegion ((s'.serv.retCount % 1572864 % 24 + 12) % 24)
          + (0x20080000 + (0x100000 + 16 * (s'.serv.retCount % 1572864 / 24))), 16)]
        ∧ s'.sameBut t [.regs, .mem, .serv]
        ∧ s'.regsBut t [HEAD_RETURN_STATUS.peak, HEAD_PREFIX_STATUS.nodes, HEAD_PREFIX_STATUS.collisions, HEAD_SERVE_STATS.refused])
  ∧ -- admission
    (∀ (dt : Nat) (ring : Nat) (r : Req) (s s' : State), s' = s.pass dt →
      s'.leads = true → s'.decided = false → s'.flag HEAD_SERVE_CTRL.admit_enable = true → s'.running = true →
      s'.serv.drain = none → s'.serv.reloading = false → s'.serv.eligible = [r.id] → s'.req? r.id = some r → r.ring = ring →
      s'.verdict r false = .admits →
      ∃ t, exec (.admission dt ring) s = .next t
        ∧ ((t.req? r.id).map fun (q : Req) => (q.id, q.admitted, q.ring)) = some (r.id, s'.turnNo, ring)
        ∧ t.get HEAD_SERVE_STATS.admitted = min (2 ^ HEAD_SERVE_STATS.admitted.w - 1) (s'.get HEAD_SERVE_STATS.admitted + 1)
        ∧ t.serv.rets = s'.serv.rets ∧ t.turn = s'.turn ∧ s'.sameBut t [.regs, .mem, .serv]
        ∧ s'.regsBut t [HEAD_PREFIX_STATUS.nodes, HEAD_PREFIX_STATUS.collisions, HEAD_PREFIX_STATS.hit_blocks,
          HEAD_PREFIX_STATS.lookup_blocks, HEAD_SERVE_STATS.admitted])
  ∧ -- tailCopyComplete
    (∀ (dt : Nat) (id : Nat) (r : Req) (s s' : State), s' = s.pass dt →
      s'.leads = true → s'.decided = false → s'.req? id = some r → r.phase = .tail →
      (s'.serv.tails.find? fun (x : Nat × List Nat × Nat) => x.1 == id) = none →
      ∃ t, exec (.tailCopyComplete dt id) s = .next t
        ∧ ((t.req? id).map fun (q : Req) => q.phase) = some (if r.pre + 1 < r.tokens.length then .prefill else .ready)
        ∧ t.regs = s'.regs ∧ t.mem = s'.mem ∧ t.turn = s'.turn ∧ s'.sameBut t [.serv])
  ∧ -- tokenSampling
    (∀ (dt : Nat) (N : Nat) (l : List SlotLogits) (tree : Option Tree) (s s' : State), s' = s.pass dt →
      s'.inTurn = true → s'.serv.sampledNow = false → s'.samples = true → (∀ r ∈ s'.serv.reqs, ∀ l ∈ r.sets, l.length + 2 ≤ N
      ∧ ∀ k ∈ l, k.p < N) → Memory.wf s'.mem = true →
      ∃ t, exec (.tokenSampling dt l tree) s = .next t
        ∧ t.serv.sampledNow = true
        ∧ t.serv.pass.map (fun (x : Pass) => x.req) = s'.serv.pass.map (fun (x : Pass) => x.req) ++ (s'.serv.reqs.filter fun (r
          : Req) => r.phase == .slot && r.live && !r.lost && r.carriage == carAt s'.depth s'.turnNo s'.depth).map (fun (r : Req) => r.id)
        ∧ t.serv.reqs.map (fun (r : Req) => (r.id, r.n, r.gen)) = s'.serv.reqs.map (fun (r : Req) => (r.id, r.n, r.gen))
        ∧ t.serv.rets = s'.serv.rets
        ∧ s'.memBut t ((List.range s'.depth).flatMap fun (g : Nat) => (List.range 16).filterMap fun (j : Nat) => (s'.tableBase
          g (carAt s'.depth s'.turnNo s'.depth) j).map fun (b : Nat) => (b, 128 + 16 * N))
        ∧ s'.sameBut t [.regs, .mem, .flips, .serv] ∧ s'.regsBut t [HEAD_SPEC_STATUS.invalid_trees])
  ∧ -- kvPrefetch
    (∀ (dt : Nat) (g a : Nat) (k : KvGroup) (due : List (Nat × Nat × Nat)) (s s' : State), s' = s.pass dt →
      s'.kvGroups[g]? = some k →
      ((s'.serv.fetchDue.find? fun (x : Nat × Nat × List (Nat × Nat × Nat)) => x.1 == g && x.2.1 == s'.turnNo + a).elim [] fun
        (x : Nat × Nat × List (Nat × Nat × Nat)) => x.2.2) = due →
      s'.boxStopped = false → s'.inTurn = true → 1 ≤ a → a ≤ 2 →
      s'.serv.staged.contains (g, carAt s'.depth (s'.turnNo + a) g, s'.turnNo + a) = false → Memory.wf s'.mem = true →
      ∃ t, exec (.kvPrefetch dt g a) s = .next t
        ∧ t.serv.staged = s'.serv.staged ++ [(g, carAt s'.depth (s'.turnNo + a) g, s'.turnNo + a)] ∧ t.serv.reqs = s'.serv.reqs
        ∧ t.turn = s'.turn
        ∧ s'.memBut t (due.flatMap fun (y : Nat × Nat × Nat) => (s'.pagesOf k).map fun (x : Nat × Nat × Nat × Nat) => (spadKey
          x.2.1 (x.2.2.2 + ((s'.turnNo + a) % 3 * (16 * k.staging) + y.1 * k.staging + y.2.1) * 128 * s'.headDim), 128 * s'.headDim))
        ∧ s'.sameBut t [.mem, .flips, .serv])
  ∧ -- spillWriteComplete
    (∀ (dt : Nat) (id g p : Nat) (r : Req) (k : KvSet) (kg : KvGroup) (s s' : State), s' = s.pass dt →
      s'.req? id = some r → ((r.sets.getD g []).find? fun (x : KvSet) => x.p == p && x.state == 3 && !x.written) = some k →
      s'.boxStopped = false → s'.kvGroups[g]? = some kg → s'.flips = [] → Memory.wf s'.mem = true →
      ∃ t, exec (.spillWriteComplete dt id g p) s = .next t
        ∧ ((t.req? id).map fun (q : Req) => (q.sets.getD g []).all fun (x : KvSet) => x.p != p || x.written) = some true
        ∧ t.get HEAD_KV_STATS.spills = min (2 ^ HEAD_KV_STATS.spills.w - 1) (s'.get HEAD_KV_STATS.spills + 1)
        ∧ t.serv.spills.contains (id, g, p) = false ∧ t.turn = s'.turn
        ∧ s'.memBut t ((s'.pagesOf kg).map fun (x : Nat × Nat × Nat × Nat) => (towerPage kg s'.headDim k.tow x.1, 68 * s'.headDim))
        ∧ s'.sameBut t [.regs, .mem, .serv]
        ∧ s'.regsBut t ([HEAD_KV_STATS.spills] ++ ((s'.pagesOf kg).map fun (x : Nat × Nat × Nat × Nat) =>
          ((TILE_SR_CTR_n.ctr.tile x.2.1).off 0))))

/-- A shadow sample is checked when its copies complete, counted when it is compared, and missed when it cannot be (R169, R171,
R174). When the three spans of a tap may be read, the completed copies give the sample its result; when the time passes without
one the sample is dropped and counted as missed; a comparison drops the sample and counts it for its layer and for the device,
and an exceedance of the present window within the limit is counted in it. In every clause, the parts of the state, the register
fields and the bytes of memory that it does not list keep their values. Each clause first lets the dt axle ticks of its command
pass. Its clauses conclude that exec ANSWERS A NEXT STATE with the command's own effect, for every state and operands that meet
hypotheses on these alone; so these COMPLETE: shadowCopyComplete, shadowSampleMissed, shadowCompareComplete. What the spec
leaves open in it is the model's choice or reading: log entries 1, 32, 50. -/
def Obligations.ShadowSamples : Prop :=
  -- shadowCopyComplete
    (∀ (dt : Nat) (c m a o : Nat) (x : Sample) (i : Image) (p : Tap) (s s' : State), s' = s.pass dt →
      s'.sample? c = some x → s'.img.image = some i → i.taps[x.tap]? = some p → x.result = none →
      s'.tileOf (p.mLc * 256 + p.mLt) = some m → s'.tileOf (p.aLc * 256 + p.aLt) = some a →
      s'.tileOf (p.oLc * 256 + p.oLt) = some o → s'.tapReadable (s'.fmt p.layer) p m a o = true →
      s'.pastOffset x p.writeOff = true → s'.pastOffset x p.releaseOff = false → s'.flips = [] → Memory.wf s'.mem = true →
      ∃ t, exec (.shadowCopyComplete dt c) s = .next t
        ∧ ((t.sample? c).map fun (y : Sample) => y.result) = some (some (s'.shadowCheck (s'.fmt p.layer) p x.by_ m a o).1)
        ∧ t.get HEAD_SHADOW_STATS.missed = s'.get HEAD_SHADOW_STATS.missed ∧ t.turn = s'.turn
        ∧ s'.memBut t [(spadKey x.by_ (shadowBase x.by_), spanLines (s'.fmt p.layer).wfmt * 2176 + 67584)]
        ∧ s'.sameBut t [.mem, .flips, .serv])
  ∧ -- shadowSampleMissed
    (∀ (dt : Nat) (c : Nat) (x : Sample) (s s' : State), s' = s.pass dt →
      s'.sample? c = some x → x.result = none →
      ∃ t, exec (.shadowSampleMissed dt c) s = .next t
        ∧ t.get HEAD_SHADOW_STATS.missed = min (2 ^ HEAD_SHADOW_STATS.missed.w - 1) (s'.get HEAD_SHADOW_STATS.missed + 1)
        ∧ (t.sample? c).isSome = false ∧ t.mem = s'.mem ∧ t.turn = s'.turn ∧ s'.sameBut t [.regs, .serv]
        ∧ s'.regsBut t [HEAD_SHADOW_STATS.missed])
  ∧ -- shadowCompareComplete
    (∀ (dt : Nat) (c : Nat) (x : Sample) (i : Image) (p : Tap) (b : Bool) (s s' : State), s' = s.pass dt →
      s'.sample? c = some x → s'.img.image = some i → i.taps[x.tap]? = some p → s'.sampleVoid x = false →
      x.result = some (false, b) →
      ∃ t, exec (.shadowCompareComplete dt c) s = .next t
        ∧ t.get (HEAD_FMT_STATUS.samples.ix p.layer) = min (2 ^ HEAD_FMT_STATUS.samples.w - 1) (s'.get
          (HEAD_FMT_STATUS.samples.ix p.layer) + 1)
        ∧ t.get HEAD_SHADOW_STATS.completed = min (2 ^ HEAD_SHADOW_STATS.completed.w - 1) (s'.get HEAD_SHADOW_STATS.completed + 1)
        ∧ (t.sample? c).isSome = false
        ∧ t.get (HEAD_FMT_STATUS.window_exceed.ix p.layer) = s'.get (HEAD_FMT_STATUS.window_exceed.ix p.layer) ∧ t.ev = s'.ev
        ∧ t.mem = s'.mem ∧ s'.sameBut t [.regs, .serv]
        ∧ s'.regsBut t [HEAD_FMT_STATUS.pressure.ix p.layer, HEAD_FMT_STATUS.nonfinite.ix p.layer,
          HEAD_FMT_STATUS.window_exceed.ix p.layer, HEAD_FMT_STATUS.samples.ix p.layer, HEAD_SHADOW_STATS.completed])
  ∧ -- shadowCompareComplete
    (∀ (dt : Nat) (c : Nat) (x : Sample) (i : Image) (p : Tap) (b : Bool) (s s' : State), s' = s.pass dt →
      s'.sample? c = some x → s'.img.image = some i → i.taps[x.tap]? = some p → s'.sampleVoid x = false →
      x.result = some (true, b) → s'.flag (HEAD_FMT_INFO.changed.ix p.layer) = false →
      x.turn / max 1 (s'.fmt p.layer).window = s'.turnNo / max 1 (s'.fmt p.layer).window →
      s'.get (HEAD_FMT_STATUS.window_exceed.ix p.layer) + 1 ≤ (s'.fmt p.layer).limit →
      ∃ t, exec (.shadowCompareComplete dt c) s = .next t
        ∧ t.get (HEAD_FMT_STATUS.samples.ix p.layer) = min (2 ^ HEAD_FMT_STATUS.samples.w - 1) (s'.get
          (HEAD_FMT_STATUS.samples.ix p.layer) + 1)
        ∧ t.get HEAD_SHADOW_STATS.completed = min (2 ^ HEAD_SHADOW_STATS.completed.w - 1) (s'.get HEAD_SHADOW_STATS.completed + 1)
        ∧ (t.sample? c).isSome = false
        ∧ t.get (HEAD_FMT_STATUS.window_exceed.ix p.layer) = min (2 ^ HEAD_FMT_STATUS.window_exceed.w - 1) (s'.get
          (HEAD_FMT_STATUS.window_exceed.ix p.layer) + 1)
        ∧ t.ev = s'.ev ∧ t.mem = s'.mem ∧ s'.sameBut t [.regs, .serv]
        ∧ s'.regsBut t [HEAD_FMT_STATUS.pressure.ix p.layer, HEAD_FMT_STATUS.nonfinite.ix p.layer,
          HEAD_FMT_STATUS.window_exceed.ix p.layer, HEAD_FMT_STATUS.samples.ix p.layer, HEAD_SHADOW_STATS.completed])

/-- A command leaves the queue of waiting commands alone, and neither time nor the count of free values runs back (R66). Whatever
command runs and whatever the state, when it answers a next state the queue is as it was, at least as many ticks have passed,
and at least as many free values (log entry 4) have been drawn. What the spec leaves open in it is the model's choice or
reading: log entry 4. -/
def Obligations.QueueAndTime : Prop :=
  ∀ (c : Instr) (s t : State), exec c s = .next t → t.pending = s.pending ∧ s.ticks ≤ t.ticks ∧ s.free ≤ t.free

/-- No command faults, and none is refused but a production instruction while debug is 1 (R568). For every command and state, exec
answers a next state, unless the command is a production instruction with a code of 0x20 to 0xFE given while PWRGOOD is high and
debug is 1, which the spec leaves undescribed; that one is refused by name. What the spec leaves open in it is the model's
choice or reading: log entry 29. -/
def Obligations.NothingStopsTheBlock : Prop :=
  ∀ (c : Instr) (s : State), (∃ t, exec c s = .next t)
  ∨ ∃ dt code : Nat, c = .productionInstruction dt code ∧ 0x20 ≤ code ∧ code ≤ 0xFE ∧ (s.pass dt).boot.pwrgood = true
    ∧ (s.pass dt).flag SBX_POLICY.debug = true ∧ exec c s = .refused .productionInstruction

/-- The scratchpad code corrects every flipped bit and finds every two, and both codes start from the vectors of R124 (R123, R124).
A word without flipped bits decodes with no error; one flipped bit, of the 64 data bits or the 8 check bits, is corrected and
leaves no data bit wrong; two flipped bits are uncorrectable. The vectors of both codes are distinct, of weight 3 or 5, and
enough for the data bits. -/
def Obligations.ScratchpadCode : Prop :=
  spadDecode 0 = (0, 0) ∧ (∀ i : Nat, i < 72 → spadDecode (2 ^ i) = (1, 0))
  ∧ (∀ i j : Nat, i < j → j < 72 → (spadDecode (2 ^ i + 2 ^ j)).1 = 2)
  ∧ (∀ r : Nat, (r = 8 ∨ r = 9) → (hamming r).Nodup ∧ (∀ v ∈ hamming r, v < 2 ^ r ∧ (popcount r v = 3 ∨ popcount r v = 5)) ∧ (if r = 8 then 64 else 136) ≤ (hamming r).length)
end

