-- ==== Sys2Proof/Laws/Memory.lean ====
section
/-! SUPPORT. Laws of sparse tables and byte memory: read after write, what a write leaves alone, and that every operation keeps
the canonical form. -/

set_option Elab.async false

namespace Sys2Proof.Machine

variable {α : Type}

@[simp] theorem Sparse.find_nil (k : Nat) : Sparse.find ([] : Sparse α) k = none := rfl

@[simp] theorem Sparse.find_put_same (m : Sparse α) (k : Nat) (v : α) : (Sparse.put m k v).find k = some v := by
  induction m with
  | nil => simp [Sparse.put, Sparse.find]
  | cons p l ih =>
    obtain ⟨a, b⟩ := p
    unfold Sparse.put
    split
    · simp [Sparse.find]
    · split
      · simp [Sparse.find]
      · simp [Sparse.find, *]

theorem Sparse.find_put_ne (m : Sparse α) {k j : Nat} (v : α) (h : j ≠ k) : (Sparse.put m k v).find j = Sparse.find m j := by
  induction m with
  | nil => simp [Sparse.put, Sparse.find, h]
  | cons p l ih =>
    obtain ⟨a, b⟩ := p
    unfold Sparse.put
    split
    · simp [Sparse.find, h]
    · split
      · subst_vars; simp [Sparse.find, h]
      · simp [Sparse.find, ih]

theorem Sparse.find_drop_ne (m : Sparse α) {k j : Nat} (h : j ≠ k) : (Sparse.drop m k).find j = Sparse.find m j := by
  induction m with
  | nil => rfl
  | cons p l ih =>
    obtain ⟨a, b⟩ := p
    unfold Sparse.drop
    split
    · subst_vars; simp [Sparse.find, h]
    · simp [Sparse.find, ih]

/-- Keys of a sorted table rise strictly and lie above the bound. -/
theorem Sparse.sortedFrom_iff (b : Option Nat) (m : Sparse α) :
    Sparse.sortedFrom b m = true ↔ (∀ c ∈ b, ∀ p ∈ m, c < p.1) ∧ m.Pairwise fun p q => p.1 < q.1 := by
  induction m generalizing b with
  | nil => simp [Sparse.sortedFrom]
  | cons p l ih =>
    obtain ⟨a, v⟩ := p
    cases b with
    | none => simp [Sparse.sortedFrom, ih]
    | some c =>
      simp only [Sparse.sortedFrom, ih, Option.mem_def, Option.some.injEq, forall_eq', List.mem_cons, forall_eq_or_imp,
        List.pairwise_cons, Bool.and_eq_true, decide_eq_true_eq]
      constructor
      · rintro ⟨h, h1, h2⟩; exact ⟨⟨h, fun q hq => lt_trans h (h1 q hq)⟩, h1, h2⟩
      · rintro ⟨⟨h, _⟩, h1, h2⟩; exact ⟨h, h1, h2⟩

theorem Sparse.sorted_iff (m : Sparse α) : Sparse.sorted m = true ↔ m.Pairwise fun p q => p.1 < q.1 := by
  simp [Sparse.sorted, Sparse.sortedFrom_iff]

theorem Sparse.mem_put {m : Sparse α} {k : Nat} {v : α} {p : Nat × α} (h : p ∈ Sparse.put m k v) : p = (k, v) ∨ p ∈ m := by
  induction m with
  | nil => simpa [Sparse.put] using h
  | cons q l ih =>
    unfold Sparse.put at h
    split at h
    · simpa using h
    · split at h
      · rcases List.mem_cons.1 h with h | h
        · exact .inl h
        · exact .inr (List.mem_cons_of_mem _ h)
      · rcases List.mem_cons.1 h with h | h
        · exact .inr (by simp [h])
        · rcases ih h with h | h
          · exact .inl h
          · exact .inr (List.mem_cons_of_mem _ h)

theorem Sparse.mem_drop {m : Sparse α} {k : Nat} {p : Nat × α} (h : p ∈ Sparse.drop m k) : p ∈ m := by
  induction m with
  | nil => simpa [Sparse.drop] using h
  | cons q l ih =>
    unfold Sparse.drop at h
    split at h
    · exact List.mem_cons_of_mem _ h
    · rcases List.mem_cons.1 h with h | h
      · simp [h]
      · exact List.mem_cons_of_mem _ (ih h)

/-- Listing a value keeps a table sorted. -/
theorem Sparse.sorted_put {m : Sparse α} (k : Nat) (v : α) (h : Sparse.sorted m = true) : Sparse.sorted (Sparse.put m k v) = true := by
  rw [Sparse.sorted_iff] at *
  induction m with
  | nil => simp [Sparse.put]
  | cons p l ih =>
    obtain ⟨a, b⟩ := p
    rw [List.pairwise_cons] at h
    unfold Sparse.put
    split
    · next hk =>
      refine List.pairwise_cons.2 ⟨fun q hq => ?_, List.pairwise_cons.2 h⟩
      rcases List.mem_cons.1 hq with hq | hq
      · subst hq; exact hk
      · exact lt_trans hk (h.1 q hq)
    · split
      · next hk => subst hk; exact List.pairwise_cons.2 h
      · refine List.pairwise_cons.2 ⟨fun q hq => ?_, ih h.2⟩
        rcases Sparse.mem_put hq with hq | hq
        · subst hq; simp only; omega
        · exact h.1 q hq

/-- Unlisting a key keeps a table sorted. -/
theorem Sparse.sorted_drop {m : Sparse α} (k : Nat) (h : Sparse.sorted m = true) : Sparse.sorted (Sparse.drop m k) = true := by
  rw [Sparse.sorted_iff] at *
  induction m with
  | nil => simp [Sparse.drop]
  | cons p l ih =>
    obtain ⟨a, b⟩ := p
    rw [List.pairwise_cons] at h
    unfold Sparse.drop
    split
    · exact h.2
    · exact List.pairwise_cons.2 ⟨fun q hq => h.1 q (Sparse.mem_drop hq), ih h.2⟩

/-- Unlisting keys by any test keeps a table sorted. -/
theorem Sparse.sorted_filter {m : Sparse α} (f : Nat × α → Bool) (h : Sparse.sorted m = true) : Sparse.sorted (m.filter f) = true := by
  rw [Sparse.sorted_iff] at *
  exact h.filter _

theorem Sparse.sorted_dropRange {m : Sparse α} (lo hi : Nat) (h : Sparse.sorted m = true) :
    Sparse.sorted (Sparse.dropRange m lo hi) = true := Sparse.sorted_filter _ h

theorem Sparse.find_eq_none_of {m : Sparse α} {k : Nat} (h : ∀ p ∈ m, p.1 ≠ k) : Sparse.find m k = none := by
  induction m with
  | nil => rfl
  | cons p l ih =>
    obtain ⟨a, b⟩ := p
    have h0 := h (a, b) (by simp)
    simp only [Sparse.find]
    rw [if_neg (fun e => h0 e.symm)]
    exact ih fun q hq => h q (List.mem_cons_of_mem _ hq)

theorem Sparse.find_drop_same {m : Sparse α} (k : Nat) (h : Sparse.sorted m = true) : (Sparse.drop m k).find k = none := by
  rw [Sparse.sorted_iff] at h
  induction m with
  | nil => rfl
  | cons p l ih =>
    obtain ⟨a, b⟩ := p
    rw [List.pairwise_cons] at h
    unfold Sparse.drop
    split
    · next hk => exact Sparse.find_eq_none_of fun q hq => by have := h.1 q hq; simp only at this; omega
    · next hk => simp only [Sparse.find, if_neg hk]; exact ih h.2

/-! ### Byte memory -/

/-- A byte written reads back. -/
theorem Memory.get_set_same {m : List Host.Cell} (a : Nat) (b : Byte) (h : Memory.wf m = true) : Memory.get (Memory.set m a b) a = b := by
  simp only [Memory.wf, Bool.and_eq_true] at h
  unfold Memory.set Memory.get
  split
  · next hb => rw [Sparse.find_drop_same a h.1]; exact hb.symm
  · rw [Sparse.find_put_same]; rfl

/-- A write leaves every other byte alone. -/
theorem Memory.get_set_ne (m : List Host.Cell) {a j : Nat} (b : Byte) (h : j ≠ a) : Memory.get (Memory.set m a b) j = Memory.get m j := by
  unfold Memory.set Memory.get
  split
  · rw [Sparse.find_drop_ne m h]
  · rw [Sparse.find_put_ne m b h]

/-- Writing one byte keeps the canonical form. -/
theorem Memory.wf_set {m : List Host.Cell} (a : Nat) (b : Byte) (h : Memory.wf m = true) : Memory.wf (Memory.set m a b) = true := by
  simp only [Memory.wf, Bool.and_eq_true, List.all_eq_true] at *
  unfold Memory.set
  split
  · exact ⟨Sparse.sorted_drop a h.1, fun p hp => h.2 p (Sparse.mem_drop hp)⟩
  · next hb =>
    refine ⟨Sparse.sorted_put a b h.1, fun p hp => ?_⟩
    rcases Sparse.mem_put hp with hp | hp
    · subst hp; simpa using hb
    · exact h.2 p hp

/-- Writing bytes keeps the canonical form. -/
theorem Memory.wf_setBytes {m : List Host.Cell} (a : Nat) (bs : List Byte) (h : Memory.wf m = true) :
    Memory.wf (Memory.setBytes m a bs) = true := by
  induction bs generalizing m a with
  | nil => exact h
  | cons b bs ih => exact ih _ (Memory.wf_set a b h)

/-- Unlisting bytes by any test keeps the canonical form. -/
theorem Memory.wf_filter {m : List Host.Cell} (f : Host.Cell → Bool) (h : Memory.wf m = true) : Memory.wf (m.filter f) = true := by
  simp only [Memory.wf, Bool.and_eq_true, List.all_eq_true] at *
  exact ⟨Sparse.sorted_filter f h.1, fun p hp => h.2 p (List.mem_of_mem_filter hp)⟩

theorem Memory.wf_dropRange {m : List Host.Cell} (lo hi : Nat) (h : Memory.wf m = true) :
    Memory.wf (Sparse.dropRange m lo hi) = true := Memory.wf_filter _ h

/-- A write of bytes leaves every byte outside them alone. -/
theorem Memory.get_setBytes_out (m : List Host.Cell) (a : Nat) (bs : List Byte) {j : Nat} (h : j < a ∨ a + bs.length ≤ j) :
    Memory.get (Memory.setBytes m a bs) j = Memory.get m j := by
  induction bs generalizing m a with
  | nil => rfl
  | cons b bs ih =>
    simp only [List.length_cons] at h
    unfold Memory.setBytes
    rw [ih _ _ (by omega), Memory.get_set_ne _ _ (by omega)]

/-- Bytes written read back. -/
theorem Memory.getBytes_setBytes {m : List Host.Cell} (a : Nat) (bs : List Byte) (h : Memory.wf m = true) :
    Memory.getBytes (Memory.setBytes m a bs) a bs.length = bs := by
  induction bs generalizing m a with
  | nil => rfl
  | cons b bs ih =>
    simp only [List.length_cons, Memory.getBytes, Memory.setBytes]
    rw [ih _ (Memory.wf_set a b h), Memory.get_setBytes_out _ _ _ (by omega), Memory.get_set_same a b h]

end Sys2Proof.Machine
end

