-- ==== Sys2Proof/Laws/Registers.lean ====
section
/-! SUPPORT. Laws of registers and their fields: a field that is set reads back, and no other field changes. -/

set_option Elab.async false

namespace Sys2Proof.Machine

theorem bits_mod (n lo w m : Nat) (h : lo + w ≤ m) : bits (n % 2 ^ m) lo w = bits n lo w := by
  unfold bits
  refine Nat.eq_of_testBit_eq fun i => ?_
  simp only [Nat.testBit_mod_two_pow, Nat.testBit_div_two_pow]
  by_cases hi : i < w
  · have : lo + i < m := by omega
    simp [hi, this, Nat.add_comm]
  · simp [hi]

theorem setBits_eq (v lo w x : Nat) : setBits v lo w x = v / 2 ^ (lo + w) * 2 ^ (lo + w) + x % 2 ^ w * 2 ^ lo + v % 2 ^ lo := by
  have h1 : v / 2 ^ lo = v / 2 ^ (lo + w) * 2 ^ w + bits v lo w := by
    unfold bits
    rw [Nat.pow_add, ← Nat.div_div_eq_div_mul]
    exact (Nat.div_add_mod' _ _).symm
  have h2 : v = v / 2 ^ (lo + w) * 2 ^ (lo + w) + bits v lo w * 2 ^ lo + v % 2 ^ lo := by
    have := Nat.div_add_mod' v (2 ^ lo)
    rw [h1] at this
    rw [Nat.add_mul] at this
    have e : v / 2 ^ (lo + w) * 2 ^ w * 2 ^ lo = v / 2 ^ (lo + w) * 2 ^ (lo + w) := by
      rw [Nat.mul_assoc, ← Nat.pow_add, Nat.add_comm w lo]
    omega
  unfold setBits
  omega

theorem setBits_low (v lo w x : Nat) : setBits v lo w x % 2 ^ lo = v % 2 ^ lo := by
  rw [setBits_eq, Nat.pow_add, Nat.mul_comm (2 ^ lo) (2 ^ w), ← Nat.mul_assoc, ← Nat.add_mul, Nat.add_comm, Nat.add_mul_mod_self_right,
    Nat.mod_mod]

theorem setBits_low_lt (v lo w x : Nat) : x % 2 ^ w * 2 ^ lo + v % 2 ^ lo < 2 ^ (lo + w) := by
  have h1 : x % 2 ^ w + 1 ≤ 2 ^ w := Nat.mod_lt _ (Nat.two_pow_pos w)
  have h2 : v % 2 ^ lo < 2 ^ lo := Nat.mod_lt _ (Nat.two_pow_pos lo)
  have h3 : (x % 2 ^ w + 1) * 2 ^ lo ≤ 2 ^ w * 2 ^ lo := Nat.mul_le_mul_right _ h1
  rw [Nat.pow_add, Nat.mul_comm (2 ^ lo)]
  rw [Nat.add_mul] at h3
  omega

theorem setBits_high (v lo w x : Nat) : setBits v lo w x / 2 ^ (lo + w) = v / 2 ^ (lo + w) := by
  rw [setBits_eq, Nat.add_assoc, Nat.add_comm, Nat.add_mul_div_right _ _ (Nat.two_pow_pos _),
    Nat.div_eq_of_lt (setBits_low_lt v lo w x), Nat.zero_add]

@[simp] theorem bits_setBits_same (v lo w x : Nat) : bits (setBits v lo w x) lo w = x % 2 ^ w := by
  have h : setBits v lo w x / 2 ^ lo = v / 2 ^ (lo + w) * 2 ^ w + x % 2 ^ w := by
    rw [setBits_eq]
    have e : v / 2 ^ (lo + w) * 2 ^ (lo + w) = v / 2 ^ (lo + w) * 2 ^ w * 2 ^ lo := by
      rw [Nat.mul_assoc, ← Nat.pow_add, Nat.add_comm w lo]
    rw [e, ← Nat.add_mul, Nat.add_comm, Nat.add_mul_div_right _ _ (Nat.two_pow_pos _), Nat.div_eq_of_lt (Nat.mod_lt _ (Nat.two_pow_pos _)),
      Nat.zero_add]
  unfold bits
  rw [h, Nat.add_comm, Nat.add_mul_mod_self_right, Nat.mod_mod]

theorem bits_setBits_apart (v x : Nat) {lo w lo' w' : Nat} (h : lo + w ≤ lo' ∨ lo' + w' ≤ lo) :
    bits (setBits v lo w x) lo' w' = bits v lo' w' := by
  rcases h with h | h
  · obtain ⟨d, rfl⟩ := Nat.exists_eq_add_of_le h
    unfold bits
    rw [Nat.pow_add, ← Nat.div_div_eq_div_mul, ← Nat.div_div_eq_div_mul, setBits_high]
  · rw [← bits_mod _ _ _ _ h, setBits_low, bits_mod _ _ _ _ h]

/-! ### Registers -/

@[simp] theorem State.reg_setReg_same (s : State) (k v : Nat) : (s.setReg k v).reg k = v % 2 ^ 64 := by
  simp [State.reg, State.setReg]

theorem State.reg_setReg_ne (s : State) {k j : Nat} (v : Nat) (h : j ≠ k) : (s.setReg k v).reg j = s.reg j := by
  simp [State.reg, State.setReg, Sparse.find_put_ne _ _ h]

/-- A field that is set reads back. -/
theorem State.get_set_same (s : State) (f : Fld) (v : Nat) (h : f.fits) : (s.set f v).get f = v % 2 ^ f.w := by
  unfold State.get State.set
  rw [State.reg_setReg_same, bits_mod _ _ _ _ h, bits_setBits_same]

/-- Setting a field changes no field that shares no bit with it. -/
theorem State.get_set_apart (s : State) {f g : Fld} (v : Nat) (h : g.fits) (ha : f.apart g) : (s.set f v).get g = s.get g := by
  unfold State.get State.set
  by_cases hk : g.key = f.key
  · rw [hk, State.reg_setReg_same, bits_mod _ _ _ _ h]
    rcases ha with ha | ha
    · exact absurd hk.symm ha
    · exact bits_setBits_apart _ _ ha
  · rw [State.reg_setReg_ne _ _ hk]

/-- Setting a field changes no other register. -/
theorem State.reg_set_ne (s : State) {f : Fld} {k : Nat} (v : Nat) (h : k ≠ f.key) : (s.set f v).reg k = s.reg k :=
  State.reg_setReg_ne s _ h

theorem State.get_lt (s : State) (f : Fld) : s.get f < 2 ^ f.w := Nat.mod_lt _ (Nat.two_pow_pos _)

/-- A counting field counts up to its largest value (R18). -/
theorem State.get_inc_same (s : State) (f : Fld) (d : Nat) (h : f.fits) : (s.inc f d).get f = min (2 ^ f.w - 1) (s.get f + d) := by
  unfold State.inc
  rw [State.get_set_same _ _ _ h]
  refine Nat.mod_eq_of_lt ?_
  have := Nat.two_pow_pos f.w
  simp only [satAdd]
  omega

theorem State.get_inc_apart (s : State) {f g : Fld} (d : Nat) (h : g.fits) (ha : f.apart g) : (s.inc f d).get g = s.get g :=
  State.get_set_apart s _ h ha

theorem State.get_setFlag_same (s : State) (f : Fld) (b : Bool) (h : f.fits) (hw : f.w = 1) :
    (s.setFlag f b).get f = if b then 1 else 0 := by
  unfold State.setFlag
  rw [State.get_set_same _ _ _ h, hw]
  cases b <;> rfl

theorem State.flag_setFlag_same (s : State) (f : Fld) (b : Bool) (h : f.fits) (hw : f.w = 1) : (s.setFlag f b).flag f = b := by
  unfold State.flag
  rw [State.get_setFlag_same _ _ _ h hw]
  cases b <;> rfl

theorem State.get_setFlag_apart (s : State) {f g : Fld} (b : Bool) (h : g.fits) (ha : f.apart g) : (s.setFlag f b).get g = s.get g :=
  State.get_set_apart s _ h ha

/-- Equal register tables read the same. -/
theorem State.get_congr {s t : State} (h : t.regs = s.regs) (f : Fld) : t.get f = s.get f := by
  unfold State.get State.reg; rw [h]

theorem State.flag_congr {s t : State} (h : t.regs = s.regs) (f : Fld) : t.flag f = s.flag f := by
  unfold State.flag; rw [State.get_congr h]

theorem State.reg_congr {s t : State} (h : t.regs = s.regs) (k : Nat) : t.reg k = s.reg k := by
  unfold State.reg; rw [h]

end Sys2Proof.Machine
end

