-- ==== Sys2Proof/Laws/State.lean ====
section
/-! SUPPORT. What each named update of the state leaves alone, one lemma per field, so that no later proof unfolds a record
update. -/

set_option Elab.async false

namespace Sys2Proof.Machine

variable (s : State)

/-! ### State.setReg -/

@[simp] theorem State.setReg_ticks (k v : Nat) : (s.setReg k v).ticks = s.ticks := rfl
@[simp] theorem State.setReg_mem (k v : Nat) : (s.setReg k v).mem = s.mem := rfl
@[simp] theorem State.setReg_flips (k v : Nat) : (s.setReg k v).flips = s.flips := rfl
@[simp] theorem State.setReg_free (k v : Nat) : (s.setReg k v).free = s.free := rfl
@[simp] theorem State.setReg_axle (k v : Nat) : (s.setReg k v).axle = s.axle := rfl
@[simp] theorem State.setReg_turn (k v : Nat) : (s.setReg k v).turn = s.turn := rfl
@[simp] theorem State.setReg_ev (k v : Nat) : (s.setReg k v).ev = s.ev := rfl
@[simp] theorem State.setReg_port (k v : Nat) : (s.setReg k v).port = s.port := rfl
@[simp] theorem State.setReg_mbx (k v : Nat) : (s.setReg k v).mbx = s.mbx := rfl
@[simp] theorem State.setReg_sbx (k v : Nat) : (s.setReg k v).sbx = s.sbx := rfl
@[simp] theorem State.setReg_img (k v : Nat) : (s.setReg k v).img = s.img := rfl
@[simp] theorem State.setReg_tile (k v : Nat) : (s.setReg k v).tile = s.tile := rfl
@[simp] theorem State.setReg_net (k v : Nat) : (s.setReg k v).net = s.net := rfl
@[simp] theorem State.setReg_serv (k v : Nat) : (s.setReg k v).serv = s.serv := rfl
@[simp] theorem State.setReg_boot (k v : Nat) : (s.setReg k v).boot = s.boot := rfl
@[simp] theorem State.setReg_cpl (k v : Nat) : (s.setReg k v).cpl = s.cpl := rfl
@[simp] theorem State.setReg_rep (k v : Nat) : (s.setReg k v).rep = s.rep := rfl
@[simp] theorem State.setReg_pwr (k v : Nat) : (s.setReg k v).pwr = s.pwr := rfl
@[simp] theorem State.setReg_thm (k v : Nat) : (s.setReg k v).thm = s.thm := rfl
@[simp] theorem State.setReg_pending (k v : Nat) : (s.setReg k v).pending = s.pending := rfl

/-! ### State.set -/

@[simp] theorem State.set_ticks (f : Fld) (v : Nat) : (s.set f v).ticks = s.ticks := rfl
@[simp] theorem State.set_mem (f : Fld) (v : Nat) : (s.set f v).mem = s.mem := rfl
@[simp] theorem State.set_flips (f : Fld) (v : Nat) : (s.set f v).flips = s.flips := rfl
@[simp] theorem State.set_free (f : Fld) (v : Nat) : (s.set f v).free = s.free := rfl
@[simp] theorem State.set_axle (f : Fld) (v : Nat) : (s.set f v).axle = s.axle := rfl
@[simp] theorem State.set_turn (f : Fld) (v : Nat) : (s.set f v).turn = s.turn := rfl
@[simp] theorem State.set_ev (f : Fld) (v : Nat) : (s.set f v).ev = s.ev := rfl
@[simp] theorem State.set_port (f : Fld) (v : Nat) : (s.set f v).port = s.port := rfl
@[simp] theorem State.set_mbx (f : Fld) (v : Nat) : (s.set f v).mbx = s.mbx := rfl
@[simp] theorem State.set_sbx (f : Fld) (v : Nat) : (s.set f v).sbx = s.sbx := rfl
@[simp] theorem State.set_img (f : Fld) (v : Nat) : (s.set f v).img = s.img := rfl
@[simp] theorem State.set_tile (f : Fld) (v : Nat) : (s.set f v).tile = s.tile := rfl
@[simp] theorem State.set_net (f : Fld) (v : Nat) : (s.set f v).net = s.net := rfl
@[simp] theorem State.set_serv (f : Fld) (v : Nat) : (s.set f v).serv = s.serv := rfl
@[simp] theorem State.set_boot (f : Fld) (v : Nat) : (s.set f v).boot = s.boot := rfl
@[simp] theorem State.set_cpl (f : Fld) (v : Nat) : (s.set f v).cpl = s.cpl := rfl
@[simp] theorem State.set_rep (f : Fld) (v : Nat) : (s.set f v).rep = s.rep := rfl
@[simp] theorem State.set_pwr (f : Fld) (v : Nat) : (s.set f v).pwr = s.pwr := rfl
@[simp] theorem State.set_thm (f : Fld) (v : Nat) : (s.set f v).thm = s.thm := rfl
@[simp] theorem State.set_pending (f : Fld) (v : Nat) : (s.set f v).pending = s.pending := rfl

/-! ### State.inc -/

@[simp] theorem State.inc_ticks (f : Fld) (d : Nat) : (s.inc f d).ticks = s.ticks := rfl
@[simp] theorem State.inc_mem (f : Fld) (d : Nat) : (s.inc f d).mem = s.mem := rfl
@[simp] theorem State.inc_flips (f : Fld) (d : Nat) : (s.inc f d).flips = s.flips := rfl
@[simp] theorem State.inc_free (f : Fld) (d : Nat) : (s.inc f d).free = s.free := rfl
@[simp] theorem State.inc_axle (f : Fld) (d : Nat) : (s.inc f d).axle = s.axle := rfl
@[simp] theorem State.inc_turn (f : Fld) (d : Nat) : (s.inc f d).turn = s.turn := rfl
@[simp] theorem State.inc_ev (f : Fld) (d : Nat) : (s.inc f d).ev = s.ev := rfl
@[simp] theorem State.inc_port (f : Fld) (d : Nat) : (s.inc f d).port = s.port := rfl
@[simp] theorem State.inc_mbx (f : Fld) (d : Nat) : (s.inc f d).mbx = s.mbx := rfl
@[simp] theorem State.inc_sbx (f : Fld) (d : Nat) : (s.inc f d).sbx = s.sbx := rfl
@[simp] theorem State.inc_img (f : Fld) (d : Nat) : (s.inc f d).img = s.img := rfl
@[simp] theorem State.inc_tile (f : Fld) (d : Nat) : (s.inc f d).tile = s.tile := rfl
@[simp] theorem State.inc_net (f : Fld) (d : Nat) : (s.inc f d).net = s.net := rfl
@[simp] theorem State.inc_serv (f : Fld) (d : Nat) : (s.inc f d).serv = s.serv := rfl
@[simp] theorem State.inc_boot (f : Fld) (d : Nat) : (s.inc f d).boot = s.boot := rfl
@[simp] theorem State.inc_cpl (f : Fld) (d : Nat) : (s.inc f d).cpl = s.cpl := rfl
@[simp] theorem State.inc_rep (f : Fld) (d : Nat) : (s.inc f d).rep = s.rep := rfl
@[simp] theorem State.inc_pwr (f : Fld) (d : Nat) : (s.inc f d).pwr = s.pwr := rfl
@[simp] theorem State.inc_thm (f : Fld) (d : Nat) : (s.inc f d).thm = s.thm := rfl
@[simp] theorem State.inc_pending (f : Fld) (d : Nat) : (s.inc f d).pending = s.pending := rfl

/-! ### State.setFlag -/

@[simp] theorem State.setFlag_ticks (f : Fld) (b : Bool) : (s.setFlag f b).ticks = s.ticks := rfl
@[simp] theorem State.setFlag_mem (f : Fld) (b : Bool) : (s.setFlag f b).mem = s.mem := rfl
@[simp] theorem State.setFlag_flips (f : Fld) (b : Bool) : (s.setFlag f b).flips = s.flips := rfl
@[simp] theorem State.setFlag_free (f : Fld) (b : Bool) : (s.setFlag f b).free = s.free := rfl
@[simp] theorem State.setFlag_axle (f : Fld) (b : Bool) : (s.setFlag f b).axle = s.axle := rfl
@[simp] theorem State.setFlag_turn (f : Fld) (b : Bool) : (s.setFlag f b).turn = s.turn := rfl
@[simp] theorem State.setFlag_ev (f : Fld) (b : Bool) : (s.setFlag f b).ev = s.ev := rfl
@[simp] theorem State.setFlag_port (f : Fld) (b : Bool) : (s.setFlag f b).port = s.port := rfl
@[simp] theorem State.setFlag_mbx (f : Fld) (b : Bool) : (s.setFlag f b).mbx = s.mbx := rfl
@[simp] theorem State.setFlag_sbx (f : Fld) (b : Bool) : (s.setFlag f b).sbx = s.sbx := rfl
@[simp] theorem State.setFlag_img (f : Fld) (b : Bool) : (s.setFlag f b).img = s.img := rfl
@[simp] theorem State.setFlag_tile (f : Fld) (b : Bool) : (s.setFlag f b).tile = s.tile := rfl
@[simp] theorem State.setFlag_net (f : Fld) (b : Bool) : (s.setFlag f b).net = s.net := rfl
@[simp] theorem State.setFlag_serv (f : Fld) (b : Bool) : (s.setFlag f b).serv = s.serv := rfl
@[simp] theorem State.setFlag_boot (f : Fld) (b : Bool) : (s.setFlag f b).boot = s.boot := rfl
@[simp] theorem State.setFlag_cpl (f : Fld) (b : Bool) : (s.setFlag f b).cpl = s.cpl := rfl
@[simp] theorem State.setFlag_rep (f : Fld) (b : Bool) : (s.setFlag f b).rep = s.rep := rfl
@[simp] theorem State.setFlag_pwr (f : Fld) (b : Bool) : (s.setFlag f b).pwr = s.pwr := rfl
@[simp] theorem State.setFlag_thm (f : Fld) (b : Bool) : (s.setFlag f b).thm = s.thm := rfl
@[simp] theorem State.setFlag_pending (f : Fld) (b : Bool) : (s.setFlag f b).pending = s.pending := rfl

/-! ### State.resetRegs -/

@[simp] theorem State.resetRegs_ticks (lo hi : Nat) : (s.resetRegs lo hi).ticks = s.ticks := rfl
@[simp] theorem State.resetRegs_mem (lo hi : Nat) : (s.resetRegs lo hi).mem = s.mem := rfl
@[simp] theorem State.resetRegs_flips (lo hi : Nat) : (s.resetRegs lo hi).flips = s.flips := rfl
@[simp] theorem State.resetRegs_free (lo hi : Nat) : (s.resetRegs lo hi).free = s.free := rfl
@[simp] theorem State.resetRegs_axle (lo hi : Nat) : (s.resetRegs lo hi).axle = s.axle := rfl
@[simp] theorem State.resetRegs_turn (lo hi : Nat) : (s.resetRegs lo hi).turn = s.turn := rfl
@[simp] theorem State.resetRegs_ev (lo hi : Nat) : (s.resetRegs lo hi).ev = s.ev := rfl
@[simp] theorem State.resetRegs_port (lo hi : Nat) : (s.resetRegs lo hi).port = s.port := rfl
@[simp] theorem State.resetRegs_mbx (lo hi : Nat) : (s.resetRegs lo hi).mbx = s.mbx := rfl
@[simp] theorem State.resetRegs_sbx (lo hi : Nat) : (s.resetRegs lo hi).sbx = s.sbx := rfl
@[simp] theorem State.resetRegs_img (lo hi : Nat) : (s.resetRegs lo hi).img = s.img := rfl
@[simp] theorem State.resetRegs_tile (lo hi : Nat) : (s.resetRegs lo hi).tile = s.tile := rfl
@[simp] theorem State.resetRegs_net (lo hi : Nat) : (s.resetRegs lo hi).net = s.net := rfl
@[simp] theorem State.resetRegs_serv (lo hi : Nat) : (s.resetRegs lo hi).serv = s.serv := rfl
@[simp] theorem State.resetRegs_boot (lo hi : Nat) : (s.resetRegs lo hi).boot = s.boot := rfl
@[simp] theorem State.resetRegs_cpl (lo hi : Nat) : (s.resetRegs lo hi).cpl = s.cpl := rfl
@[simp] theorem State.resetRegs_rep (lo hi : Nat) : (s.resetRegs lo hi).rep = s.rep := rfl
@[simp] theorem State.resetRegs_pwr (lo hi : Nat) : (s.resetRegs lo hi).pwr = s.pwr := rfl
@[simp] theorem State.resetRegs_thm (lo hi : Nat) : (s.resetRegs lo hi).thm = s.thm := rfl
@[simp] theorem State.resetRegs_pending (lo hi : Nat) : (s.resetRegs lo hi).pending = s.pending := rfl

/-! ### State.wrBytes -/

@[simp] theorem State.wrBytes_ticks (a : Nat) (bs : List Byte) : (s.wrBytes a bs).ticks = s.ticks := rfl
@[simp] theorem State.wrBytes_regs (a : Nat) (bs : List Byte) : (s.wrBytes a bs).regs = s.regs := rfl
@[simp] theorem State.wrBytes_flips (a : Nat) (bs : List Byte) : (s.wrBytes a bs).flips = s.flips := rfl
@[simp] theorem State.wrBytes_free (a : Nat) (bs : List Byte) : (s.wrBytes a bs).free = s.free := rfl
@[simp] theorem State.wrBytes_axle (a : Nat) (bs : List Byte) : (s.wrBytes a bs).axle = s.axle := rfl
@[simp] theorem State.wrBytes_turn (a : Nat) (bs : List Byte) : (s.wrBytes a bs).turn = s.turn := rfl
@[simp] theorem State.wrBytes_ev (a : Nat) (bs : List Byte) : (s.wrBytes a bs).ev = s.ev := rfl
@[simp] theorem State.wrBytes_port (a : Nat) (bs : List Byte) : (s.wrBytes a bs).port = s.port := rfl
@[simp] theorem State.wrBytes_mbx (a : Nat) (bs : List Byte) : (s.wrBytes a bs).mbx = s.mbx := rfl
@[simp] theorem State.wrBytes_sbx (a : Nat) (bs : List Byte) : (s.wrBytes a bs).sbx = s.sbx := rfl
@[simp] theorem State.wrBytes_img (a : Nat) (bs : List Byte) : (s.wrBytes a bs).img = s.img := rfl
@[simp] theorem State.wrBytes_tile (a : Nat) (bs : List Byte) : (s.wrBytes a bs).tile = s.tile := rfl
@[simp] theorem State.wrBytes_net (a : Nat) (bs : List Byte) : (s.wrBytes a bs).net = s.net := rfl
@[simp] theorem State.wrBytes_serv (a : Nat) (bs : List Byte) : (s.wrBytes a bs).serv = s.serv := rfl
@[simp] theorem State.wrBytes_boot (a : Nat) (bs : List Byte) : (s.wrBytes a bs).boot = s.boot := rfl
@[simp] theorem State.wrBytes_cpl (a : Nat) (bs : List Byte) : (s.wrBytes a bs).cpl = s.cpl := rfl
@[simp] theorem State.wrBytes_rep (a : Nat) (bs : List Byte) : (s.wrBytes a bs).rep = s.rep := rfl
@[simp] theorem State.wrBytes_pwr (a : Nat) (bs : List Byte) : (s.wrBytes a bs).pwr = s.pwr := rfl
@[simp] theorem State.wrBytes_thm (a : Nat) (bs : List Byte) : (s.wrBytes a bs).thm = s.thm := rfl
@[simp] theorem State.wrBytes_pending (a : Nat) (bs : List Byte) : (s.wrBytes a bs).pending = s.pending := rfl
@[simp] theorem State.wrBytes_reg (a : Nat) (bs : List Byte) (key : Nat) : (s.wrBytes a bs).reg key = s.reg key := rfl
@[simp] theorem State.wrBytes_get (a : Nat) (bs : List Byte) (g : Fld) : (s.wrBytes a bs).get g = s.get g := rfl
@[simp] theorem State.wrBytes_flag (a : Nat) (bs : List Byte) (g : Fld) : (s.wrBytes a bs).flag g = s.flag g := rfl

/-! ### State.wrNum -/

@[simp] theorem State.wrNum_ticks (a n v : Nat) : (s.wrNum a n v).ticks = s.ticks := rfl
@[simp] theorem State.wrNum_regs (a n v : Nat) : (s.wrNum a n v).regs = s.regs := rfl
@[simp] theorem State.wrNum_flips (a n v : Nat) : (s.wrNum a n v).flips = s.flips := rfl
@[simp] theorem State.wrNum_free (a n v : Nat) : (s.wrNum a n v).free = s.free := rfl
@[simp] theorem State.wrNum_axle (a n v : Nat) : (s.wrNum a n v).axle = s.axle := rfl
@[simp] theorem State.wrNum_turn (a n v : Nat) : (s.wrNum a n v).turn = s.turn := rfl
@[simp] theorem State.wrNum_ev (a n v : Nat) : (s.wrNum a n v).ev = s.ev := rfl
@[simp] theorem State.wrNum_port (a n v : Nat) : (s.wrNum a n v).port = s.port := rfl
@[simp] theorem State.wrNum_mbx (a n v : Nat) : (s.wrNum a n v).mbx = s.mbx := rfl
@[simp] theorem State.wrNum_sbx (a n v : Nat) : (s.wrNum a n v).sbx = s.sbx := rfl
@[simp] theorem State.wrNum_img (a n v : Nat) : (s.wrNum a n v).img = s.img := rfl
@[simp] theorem State.wrNum_tile (a n v : Nat) : (s.wrNum a n v).tile = s.tile := rfl
@[simp] theorem State.wrNum_net (a n v : Nat) : (s.wrNum a n v).net = s.net := rfl
@[simp] theorem State.wrNum_serv (a n v : Nat) : (s.wrNum a n v).serv = s.serv := rfl
@[simp] theorem State.wrNum_boot (a n v : Nat) : (s.wrNum a n v).boot = s.boot := rfl
@[simp] theorem State.wrNum_cpl (a n v : Nat) : (s.wrNum a n v).cpl = s.cpl := rfl
@[simp] theorem State.wrNum_rep (a n v : Nat) : (s.wrNum a n v).rep = s.rep := rfl
@[simp] theorem State.wrNum_pwr (a n v : Nat) : (s.wrNum a n v).pwr = s.pwr := rfl
@[simp] theorem State.wrNum_thm (a n v : Nat) : (s.wrNum a n v).thm = s.thm := rfl
@[simp] theorem State.wrNum_pending (a n v : Nat) : (s.wrNum a n v).pending = s.pending := rfl
@[simp] theorem State.wrNum_reg (a n v : Nat) (key : Nat) : (s.wrNum a n v).reg key = s.reg key := rfl
@[simp] theorem State.wrNum_get (a n v : Nat) (g : Fld) : (s.wrNum a n v).get g = s.get g := rfl
@[simp] theorem State.wrNum_flag (a n v : Nat) (g : Fld) : (s.wrNum a n v).flag g = s.flag g := rfl

/-! ### State.wipe -/

@[simp] theorem State.wipe_ticks (lo hi : Nat) : (s.wipe lo hi).ticks = s.ticks := rfl
@[simp] theorem State.wipe_regs (lo hi : Nat) : (s.wipe lo hi).regs = s.regs := rfl
@[simp] theorem State.wipe_free (lo hi : Nat) : (s.wipe lo hi).free = s.free := rfl
@[simp] theorem State.wipe_axle (lo hi : Nat) : (s.wipe lo hi).axle = s.axle := rfl
@[simp] theorem State.wipe_turn (lo hi : Nat) : (s.wipe lo hi).turn = s.turn := rfl
@[simp] theorem State.wipe_ev (lo hi : Nat) : (s.wipe lo hi).ev = s.ev := rfl
@[simp] theorem State.wipe_port (lo hi : Nat) : (s.wipe lo hi).port = s.port := rfl
@[simp] theorem State.wipe_mbx (lo hi : Nat) : (s.wipe lo hi).mbx = s.mbx := rfl
@[simp] theorem State.wipe_sbx (lo hi : Nat) : (s.wipe lo hi).sbx = s.sbx := rfl
@[simp] theorem State.wipe_img (lo hi : Nat) : (s.wipe lo hi).img = s.img := rfl
@[simp] theorem State.wipe_tile (lo hi : Nat) : (s.wipe lo hi).tile = s.tile := rfl
@[simp] theorem State.wipe_net (lo hi : Nat) : (s.wipe lo hi).net = s.net := rfl
@[simp] theorem State.wipe_serv (lo hi : Nat) : (s.wipe lo hi).serv = s.serv := rfl
@[simp] theorem State.wipe_boot (lo hi : Nat) : (s.wipe lo hi).boot = s.boot := rfl
@[simp] theorem State.wipe_cpl (lo hi : Nat) : (s.wipe lo hi).cpl = s.cpl := rfl
@[simp] theorem State.wipe_rep (lo hi : Nat) : (s.wipe lo hi).rep = s.rep := rfl
@[simp] theorem State.wipe_pwr (lo hi : Nat) : (s.wipe lo hi).pwr = s.pwr := rfl
@[simp] theorem State.wipe_thm (lo hi : Nat) : (s.wipe lo hi).thm = s.thm := rfl
@[simp] theorem State.wipe_pending (lo hi : Nat) : (s.wipe lo hi).pending = s.pending := rfl
@[simp] theorem State.wipe_reg (lo hi : Nat) (key : Nat) : (s.wipe lo hi).reg key = s.reg key := rfl
@[simp] theorem State.wipe_get (lo hi : Nat) (g : Fld) : (s.wipe lo hi).get g = s.get g := rfl
@[simp] theorem State.wipe_flag (lo hi : Nat) (g : Fld) : (s.wipe lo hi).flag g = s.flag g := rfl

/-! ### State.raise -/

@[simp] theorem State.raise_ticks (num coord a b : Nat) : (s.raise num coord a b).ticks = s.ticks := rfl
@[simp] theorem State.raise_regs (num coord a b : Nat) : (s.raise num coord a b).regs = s.regs := rfl
@[simp] theorem State.raise_mem (num coord a b : Nat) : (s.raise num coord a b).mem = s.mem := rfl
@[simp] theorem State.raise_flips (num coord a b : Nat) : (s.raise num coord a b).flips = s.flips := rfl
@[simp] theorem State.raise_free (num coord a b : Nat) : (s.raise num coord a b).free = s.free := rfl
@[simp] theorem State.raise_axle (num coord a b : Nat) : (s.raise num coord a b).axle = s.axle := rfl
@[simp] theorem State.raise_turn (num coord a b : Nat) : (s.raise num coord a b).turn = s.turn := rfl
@[simp] theorem State.raise_port (num coord a b : Nat) : (s.raise num coord a b).port = s.port := rfl
@[simp] theorem State.raise_mbx (num coord a b : Nat) : (s.raise num coord a b).mbx = s.mbx := rfl
@[simp] theorem State.raise_sbx (num coord a b : Nat) : (s.raise num coord a b).sbx = s.sbx := rfl
@[simp] theorem State.raise_img (num coord a b : Nat) : (s.raise num coord a b).img = s.img := rfl
@[simp] theorem State.raise_tile (num coord a b : Nat) : (s.raise num coord a b).tile = s.tile := rfl
@[simp] theorem State.raise_net (num coord a b : Nat) : (s.raise num coord a b).net = s.net := rfl
@[simp] theorem State.raise_serv (num coord a b : Nat) : (s.raise num coord a b).serv = s.serv := rfl
@[simp] theorem State.raise_boot (num coord a b : Nat) : (s.raise num coord a b).boot = s.boot := rfl
@[simp] theorem State.raise_cpl (num coord a b : Nat) : (s.raise num coord a b).cpl = s.cpl := rfl
@[simp] theorem State.raise_rep (num coord a b : Nat) : (s.raise num coord a b).rep = s.rep := rfl
@[simp] theorem State.raise_pwr (num coord a b : Nat) : (s.raise num coord a b).pwr = s.pwr := rfl
@[simp] theorem State.raise_thm (num coord a b : Nat) : (s.raise num coord a b).thm = s.thm := rfl
@[simp] theorem State.raise_pending (num coord a b : Nat) : (s.raise num coord a b).pending = s.pending := rfl
@[simp] theorem State.raise_reg (num coord a b : Nat) (key : Nat) : (s.raise num coord a b).reg key = s.reg key := rfl
@[simp] theorem State.raise_get (num coord a b : Nat) (g : Fld) : (s.raise num coord a b).get g = s.get g := rfl
@[simp] theorem State.raise_flag (num coord a b : Nat) (g : Fld) : (s.raise num coord a b).flag g = s.flag g := rfl

/-! ### State.raiseHead -/

@[simp] theorem State.raiseHead_ticks (num a b : Nat) : (s.raiseHead num a b).ticks = s.ticks := rfl
@[simp] theorem State.raiseHead_regs (num a b : Nat) : (s.raiseHead num a b).regs = s.regs := rfl
@[simp] theorem State.raiseHead_mem (num a b : Nat) : (s.raiseHead num a b).mem = s.mem := rfl
@[simp] theorem State.raiseHead_flips (num a b : Nat) : (s.raiseHead num a b).flips = s.flips := rfl
@[simp] theorem State.raiseHead_free (num a b : Nat) : (s.raiseHead num a b).free = s.free := rfl
@[simp] theorem State.raiseHead_axle (num a b : Nat) : (s.raiseHead num a b).axle = s.axle := rfl
@[simp] theorem State.raiseHead_turn (num a b : Nat) : (s.raiseHead num a b).turn = s.turn := rfl
@[simp] theorem State.raiseHead_port (num a b : Nat) : (s.raiseHead num a b).port = s.port := rfl
@[simp] theorem State.raiseHead_mbx (num a b : Nat) : (s.raiseHead num a b).mbx = s.mbx := rfl
@[simp] theorem State.raiseHead_sbx (num a b : Nat) : (s.raiseHead num a b).sbx = s.sbx := rfl
@[simp] theorem State.raiseHead_img (num a b : Nat) : (s.raiseHead num a b).img = s.img := rfl
@[simp] theorem State.raiseHead_tile (num a b : Nat) : (s.raiseHead num a b).tile = s.tile := rfl
@[simp] theorem State.raiseHead_net (num a b : Nat) : (s.raiseHead num a b).net = s.net := rfl
@[simp] theorem State.raiseHead_serv (num a b : Nat) : (s.raiseHead num a b).serv = s.serv := rfl
@[simp] theorem State.raiseHead_boot (num a b : Nat) : (s.raiseHead num a b).boot = s.boot := rfl
@[simp] theorem State.raiseHead_cpl (num a b : Nat) : (s.raiseHead num a b).cpl = s.cpl := rfl
@[simp] theorem State.raiseHead_rep (num a b : Nat) : (s.raiseHead num a b).rep = s.rep := rfl
@[simp] theorem State.raiseHead_pwr (num a b : Nat) : (s.raiseHead num a b).pwr = s.pwr := rfl
@[simp] theorem State.raiseHead_thm (num a b : Nat) : (s.raiseHead num a b).thm = s.thm := rfl
@[simp] theorem State.raiseHead_pending (num a b : Nat) : (s.raiseHead num a b).pending = s.pending := rfl
@[simp] theorem State.raiseHead_reg (num a b : Nat) (key : Nat) : (s.raiseHead num a b).reg key = s.reg key := rfl
@[simp] theorem State.raiseHead_get (num a b : Nat) (g : Fld) : (s.raiseHead num a b).get g = s.get g := rfl
@[simp] theorem State.raiseHead_flag (num a b : Nat) (g : Fld) : (s.raiseHead num a b).flag g = s.flag g := rfl

/-! ### State.respond -/

@[simp] theorem State.respond_ticks (op cmd st d : Nat) (fin : Bool) (r : List Byte) : (s.respond op cmd st d fin r).ticks = s.ticks := rfl
@[simp] theorem State.respond_regs (op cmd st d : Nat) (fin : Bool) (r : List Byte) : (s.respond op cmd st d fin r).regs = s.regs := rfl
@[simp] theorem State.respond_mem (op cmd st d : Nat) (fin : Bool) (r : List Byte) : (s.respond op cmd st d fin r).mem = s.mem := rfl
@[simp] theorem State.respond_flips (op cmd st d : Nat) (fin : Bool) (r : List Byte) : (s.respond op cmd st d fin r).flips = s.flips := rfl
@[simp] theorem State.respond_free (op cmd st d : Nat) (fin : Bool) (r : List Byte) : (s.respond op cmd st d fin r).free = s.free := rfl
@[simp] theorem State.respond_axle (op cmd st d : Nat) (fin : Bool) (r : List Byte) : (s.respond op cmd st d fin r).axle = s.axle := rfl
@[simp] theorem State.respond_turn (op cmd st d : Nat) (fin : Bool) (r : List Byte) : (s.respond op cmd st d fin r).turn = s.turn := rfl
@[simp] theorem State.respond_ev (op cmd st d : Nat) (fin : Bool) (r : List Byte) : (s.respond op cmd st d fin r).ev = s.ev := rfl
@[simp] theorem State.respond_mbx (op cmd st d : Nat) (fin : Bool) (r : List Byte) : (s.respond op cmd st d fin r).mbx = s.mbx := rfl
@[simp] theorem State.respond_sbx (op cmd st d : Nat) (fin : Bool) (r : List Byte) : (s.respond op cmd st d fin r).sbx = s.sbx := rfl
@[simp] theorem State.respond_img (op cmd st d : Nat) (fin : Bool) (r : List Byte) : (s.respond op cmd st d fin r).img = s.img := rfl
@[simp] theorem State.respond_tile (op cmd st d : Nat) (fin : Bool) (r : List Byte) : (s.respond op cmd st d fin r).tile = s.tile := rfl
@[simp] theorem State.respond_net (op cmd st d : Nat) (fin : Bool) (r : List Byte) : (s.respond op cmd st d fin r).net = s.net := rfl
@[simp] theorem State.respond_serv (op cmd st d : Nat) (fin : Bool) (r : List Byte) : (s.respond op cmd st d fin r).serv = s.serv := rfl
@[simp] theorem State.respond_boot (op cmd st d : Nat) (fin : Bool) (r : List Byte) : (s.respond op cmd st d fin r).boot = s.boot := rfl
@[simp] theorem State.respond_cpl (op cmd st d : Nat) (fin : Bool) (r : List Byte) : (s.respond op cmd st d fin r).cpl = s.cpl := rfl
@[simp] theorem State.respond_rep (op cmd st d : Nat) (fin : Bool) (r : List Byte) : (s.respond op cmd st d fin r).rep = s.rep := rfl
@[simp] theorem State.respond_pwr (op cmd st d : Nat) (fin : Bool) (r : List Byte) : (s.respond op cmd st d fin r).pwr = s.pwr := rfl
@[simp] theorem State.respond_thm (op cmd st d : Nat) (fin : Bool) (r : List Byte) : (s.respond op cmd st d fin r).thm = s.thm := rfl
@[simp] theorem State.respond_pending (op cmd st d : Nat) (fin : Bool) (r : List Byte) : (s.respond op cmd st d fin r).pending = s.pending := rfl
@[simp] theorem State.respond_reg (op cmd st d : Nat) (fin : Bool) (r : List Byte) (key : Nat) : (s.respond op cmd st d fin r).reg key = s.reg key := rfl
@[simp] theorem State.respond_get (op cmd st d : Nat) (fin : Bool) (r : List Byte) (g : Fld) : (s.respond op cmd st d fin r).get g = s.get g := rfl
@[simp] theorem State.respond_flag (op cmd st d : Nat) (fin : Bool) (r : List Byte) (g : Fld) : (s.respond op cmd st d fin r).flag g = s.flag g := rfl

/-! ### State.updChan -/

@[simp] theorem State.updChan_ticks (c : Nat) (f : Chan → Chan) : (s.updChan c f).ticks = s.ticks := rfl
@[simp] theorem State.updChan_regs (c : Nat) (f : Chan → Chan) : (s.updChan c f).regs = s.regs := rfl
@[simp] theorem State.updChan_mem (c : Nat) (f : Chan → Chan) : (s.updChan c f).mem = s.mem := rfl
@[simp] theorem State.updChan_flips (c : Nat) (f : Chan → Chan) : (s.updChan c f).flips = s.flips := rfl
@[simp] theorem State.updChan_free (c : Nat) (f : Chan → Chan) : (s.updChan c f).free = s.free := rfl
@[simp] theorem State.updChan_axle (c : Nat) (f : Chan → Chan) : (s.updChan c f).axle = s.axle := rfl
@[simp] theorem State.updChan_turn (c : Nat) (f : Chan → Chan) : (s.updChan c f).turn = s.turn := rfl
@[simp] theorem State.updChan_ev (c : Nat) (f : Chan → Chan) : (s.updChan c f).ev = s.ev := rfl
@[simp] theorem State.updChan_mbx (c : Nat) (f : Chan → Chan) : (s.updChan c f).mbx = s.mbx := rfl
@[simp] theorem State.updChan_sbx (c : Nat) (f : Chan → Chan) : (s.updChan c f).sbx = s.sbx := rfl
@[simp] theorem State.updChan_img (c : Nat) (f : Chan → Chan) : (s.updChan c f).img = s.img := rfl
@[simp] theorem State.updChan_tile (c : Nat) (f : Chan → Chan) : (s.updChan c f).tile = s.tile := rfl
@[simp] theorem State.updChan_net (c : Nat) (f : Chan → Chan) : (s.updChan c f).net = s.net := rfl
@[simp] theorem State.updChan_serv (c : Nat) (f : Chan → Chan) : (s.updChan c f).serv = s.serv := rfl
@[simp] theorem State.updChan_boot (c : Nat) (f : Chan → Chan) : (s.updChan c f).boot = s.boot := rfl
@[simp] theorem State.updChan_cpl (c : Nat) (f : Chan → Chan) : (s.updChan c f).cpl = s.cpl := rfl
@[simp] theorem State.updChan_rep (c : Nat) (f : Chan → Chan) : (s.updChan c f).rep = s.rep := rfl
@[simp] theorem State.updChan_pwr (c : Nat) (f : Chan → Chan) : (s.updChan c f).pwr = s.pwr := rfl
@[simp] theorem State.updChan_thm (c : Nat) (f : Chan → Chan) : (s.updChan c f).thm = s.thm := rfl
@[simp] theorem State.updChan_pending (c : Nat) (f : Chan → Chan) : (s.updChan c f).pending = s.pending := rfl
@[simp] theorem State.updChan_reg (c : Nat) (f : Chan → Chan) (key : Nat) : (s.updChan c f).reg key = s.reg key := rfl
@[simp] theorem State.updChan_get (c : Nat) (f : Chan → Chan) (g : Fld) : (s.updChan c f).get g = s.get g := rfl
@[simp] theorem State.updChan_flag (c : Nat) (f : Chan → Chan) (g : Fld) : (s.updChan c f).flag g = s.flag g := rfl

/-! ### State.setServ -/

@[simp] theorem State.setServ_ticks (f : ServB → ServB) : (s.setServ f).ticks = s.ticks := rfl
@[simp] theorem State.setServ_regs (f : ServB → ServB) : (s.setServ f).regs = s.regs := rfl
@[simp] theorem State.setServ_mem (f : ServB → ServB) : (s.setServ f).mem = s.mem := rfl
@[simp] theorem State.setServ_flips (f : ServB → ServB) : (s.setServ f).flips = s.flips := rfl
@[simp] theorem State.setServ_free (f : ServB → ServB) : (s.setServ f).free = s.free := rfl
@[simp] theorem State.setServ_axle (f : ServB → ServB) : (s.setServ f).axle = s.axle := rfl
@[simp] theorem State.setServ_turn (f : ServB → ServB) : (s.setServ f).turn = s.turn := rfl
@[simp] theorem State.setServ_ev (f : ServB → ServB) : (s.setServ f).ev = s.ev := rfl
@[simp] theorem State.setServ_port (f : ServB → ServB) : (s.setServ f).port = s.port := rfl
@[simp] theorem State.setServ_mbx (f : ServB → ServB) : (s.setServ f).mbx = s.mbx := rfl
@[simp] theorem State.setServ_sbx (f : ServB → ServB) : (s.setServ f).sbx = s.sbx := rfl
@[simp] theorem State.setServ_img (f : ServB → ServB) : (s.setServ f).img = s.img := rfl
@[simp] theorem State.setServ_tile (f : ServB → ServB) : (s.setServ f).tile = s.tile := rfl
@[simp] theorem State.setServ_net (f : ServB → ServB) : (s.setServ f).net = s.net := rfl
@[simp] theorem State.setServ_boot (f : ServB → ServB) : (s.setServ f).boot = s.boot := rfl
@[simp] theorem State.setServ_cpl (f : ServB → ServB) : (s.setServ f).cpl = s.cpl := rfl
@[simp] theorem State.setServ_rep (f : ServB → ServB) : (s.setServ f).rep = s.rep := rfl
@[simp] theorem State.setServ_pwr (f : ServB → ServB) : (s.setServ f).pwr = s.pwr := rfl
@[simp] theorem State.setServ_thm (f : ServB → ServB) : (s.setServ f).thm = s.thm := rfl
@[simp] theorem State.setServ_pending (f : ServB → ServB) : (s.setServ f).pending = s.pending := rfl
@[simp] theorem State.setServ_reg (f : ServB → ServB) (key : Nat) : (s.setServ f).reg key = s.reg key := rfl
@[simp] theorem State.setServ_get (f : ServB → ServB) (g : Fld) : (s.setServ f).get g = s.get g := rfl
@[simp] theorem State.setServ_flag (f : ServB → ServB) (g : Fld) : (s.setServ f).flag g = s.flag g := rfl

/-! ### State.setMbx -/

@[simp] theorem State.setMbx_ticks (m e : Nat) (q : MbxQueue) : (s.setMbx m e q).ticks = s.ticks := rfl
@[simp] theorem State.setMbx_regs (m e : Nat) (q : MbxQueue) : (s.setMbx m e q).regs = s.regs := rfl
@[simp] theorem State.setMbx_mem (m e : Nat) (q : MbxQueue) : (s.setMbx m e q).mem = s.mem := rfl
@[simp] theorem State.setMbx_flips (m e : Nat) (q : MbxQueue) : (s.setMbx m e q).flips = s.flips := rfl
@[simp] theorem State.setMbx_free (m e : Nat) (q : MbxQueue) : (s.setMbx m e q).free = s.free := rfl
@[simp] theorem State.setMbx_axle (m e : Nat) (q : MbxQueue) : (s.setMbx m e q).axle = s.axle := rfl
@[simp] theorem State.setMbx_turn (m e : Nat) (q : MbxQueue) : (s.setMbx m e q).turn = s.turn := rfl
@[simp] theorem State.setMbx_ev (m e : Nat) (q : MbxQueue) : (s.setMbx m e q).ev = s.ev := rfl
@[simp] theorem State.setMbx_port (m e : Nat) (q : MbxQueue) : (s.setMbx m e q).port = s.port := rfl
@[simp] theorem State.setMbx_sbx (m e : Nat) (q : MbxQueue) : (s.setMbx m e q).sbx = s.sbx := rfl
@[simp] theorem State.setMbx_img (m e : Nat) (q : MbxQueue) : (s.setMbx m e q).img = s.img := rfl
@[simp] theorem State.setMbx_tile (m e : Nat) (q : MbxQueue) : (s.setMbx m e q).tile = s.tile := rfl
@[simp] theorem State.setMbx_net (m e : Nat) (q : MbxQueue) : (s.setMbx m e q).net = s.net := rfl
@[simp] theorem State.setMbx_serv (m e : Nat) (q : MbxQueue) : (s.setMbx m e q).serv = s.serv := rfl
@[simp] theorem State.setMbx_boot (m e : Nat) (q : MbxQueue) : (s.setMbx m e q).boot = s.boot := rfl
@[simp] theorem State.setMbx_cpl (m e : Nat) (q : MbxQueue) : (s.setMbx m e q).cpl = s.cpl := rfl
@[simp] theorem State.setMbx_rep (m e : Nat) (q : MbxQueue) : (s.setMbx m e q).rep = s.rep := rfl
@[simp] theorem State.setMbx_pwr (m e : Nat) (q : MbxQueue) : (s.setMbx m e q).pwr = s.pwr := rfl
@[simp] theorem State.setMbx_thm (m e : Nat) (q : MbxQueue) : (s.setMbx m e q).thm = s.thm := rfl
@[simp] theorem State.setMbx_pending (m e : Nat) (q : MbxQueue) : (s.setMbx m e q).pending = s.pending := rfl
@[simp] theorem State.setMbx_reg (m e : Nat) (q : MbxQueue) (key : Nat) : (s.setMbx m e q).reg key = s.reg key := rfl
@[simp] theorem State.setMbx_get (m e : Nat) (q : MbxQueue) (g : Fld) : (s.setMbx m e q).get g = s.get g := rfl
@[simp] theorem State.setMbx_flag (m e : Nat) (q : MbxQueue) (g : Fld) : (s.setMbx m e q).flag g = s.flag g := rfl

/-! ### State.setLink -/

@[simp] theorem State.setLink_ticks (k : Nat) (c : Cpl) : (s.setLink k c).ticks = s.ticks := rfl
@[simp] theorem State.setLink_regs (k : Nat) (c : Cpl) : (s.setLink k c).regs = s.regs := rfl
@[simp] theorem State.setLink_mem (k : Nat) (c : Cpl) : (s.setLink k c).mem = s.mem := rfl
@[simp] theorem State.setLink_flips (k : Nat) (c : Cpl) : (s.setLink k c).flips = s.flips := rfl
@[simp] theorem State.setLink_free (k : Nat) (c : Cpl) : (s.setLink k c).free = s.free := rfl
@[simp] theorem State.setLink_axle (k : Nat) (c : Cpl) : (s.setLink k c).axle = s.axle := rfl
@[simp] theorem State.setLink_turn (k : Nat) (c : Cpl) : (s.setLink k c).turn = s.turn := rfl
@[simp] theorem State.setLink_ev (k : Nat) (c : Cpl) : (s.setLink k c).ev = s.ev := rfl
@[simp] theorem State.setLink_port (k : Nat) (c : Cpl) : (s.setLink k c).port = s.port := rfl
@[simp] theorem State.setLink_mbx (k : Nat) (c : Cpl) : (s.setLink k c).mbx = s.mbx := rfl
@[simp] theorem State.setLink_sbx (k : Nat) (c : Cpl) : (s.setLink k c).sbx = s.sbx := rfl
@[simp] theorem State.setLink_img (k : Nat) (c : Cpl) : (s.setLink k c).img = s.img := rfl
@[simp] theorem State.setLink_tile (k : Nat) (c : Cpl) : (s.setLink k c).tile = s.tile := rfl
@[simp] theorem State.setLink_net (k : Nat) (c : Cpl) : (s.setLink k c).net = s.net := rfl
@[simp] theorem State.setLink_serv (k : Nat) (c : Cpl) : (s.setLink k c).serv = s.serv := rfl
@[simp] theorem State.setLink_boot (k : Nat) (c : Cpl) : (s.setLink k c).boot = s.boot := rfl
@[simp] theorem State.setLink_rep (k : Nat) (c : Cpl) : (s.setLink k c).rep = s.rep := rfl
@[simp] theorem State.setLink_pwr (k : Nat) (c : Cpl) : (s.setLink k c).pwr = s.pwr := rfl
@[simp] theorem State.setLink_thm (k : Nat) (c : Cpl) : (s.setLink k c).thm = s.thm := rfl
@[simp] theorem State.setLink_pending (k : Nat) (c : Cpl) : (s.setLink k c).pending = s.pending := rfl
@[simp] theorem State.setLink_reg (k : Nat) (c : Cpl) (key : Nat) : (s.setLink k c).reg key = s.reg key := rfl
@[simp] theorem State.setLink_get (k : Nat) (c : Cpl) (g : Fld) : (s.setLink k c).get g = s.get g := rfl
@[simp] theorem State.setLink_flag (k : Nat) (c : Cpl) (g : Fld) : (s.setLink k c).flag g = s.flag g := rfl

/-! ### State.setCart -/

@[simp] theorem State.setCart_ticks (n ch : Nat) (c : Cart) : (s.setCart n ch c).ticks = s.ticks := rfl
@[simp] theorem State.setCart_mem (n ch : Nat) (c : Cart) : (s.setCart n ch c).mem = s.mem := rfl
@[simp] theorem State.setCart_flips (n ch : Nat) (c : Cart) : (s.setCart n ch c).flips = s.flips := rfl
@[simp] theorem State.setCart_free (n ch : Nat) (c : Cart) : (s.setCart n ch c).free = s.free := rfl
@[simp] theorem State.setCart_axle (n ch : Nat) (c : Cart) : (s.setCart n ch c).axle = s.axle := rfl
@[simp] theorem State.setCart_turn (n ch : Nat) (c : Cart) : (s.setCart n ch c).turn = s.turn := rfl
@[simp] theorem State.setCart_ev (n ch : Nat) (c : Cart) : (s.setCart n ch c).ev = s.ev := rfl
@[simp] theorem State.setCart_port (n ch : Nat) (c : Cart) : (s.setCart n ch c).port = s.port := rfl
@[simp] theorem State.setCart_mbx (n ch : Nat) (c : Cart) : (s.setCart n ch c).mbx = s.mbx := rfl
@[simp] theorem State.setCart_sbx (n ch : Nat) (c : Cart) : (s.setCart n ch c).sbx = s.sbx := rfl
@[simp] theorem State.setCart_img (n ch : Nat) (c : Cart) : (s.setCart n ch c).img = s.img := rfl
@[simp] theorem State.setCart_tile (n ch : Nat) (c : Cart) : (s.setCart n ch c).tile = s.tile := rfl
@[simp] theorem State.setCart_serv (n ch : Nat) (c : Cart) : (s.setCart n ch c).serv = s.serv := rfl
@[simp] theorem State.setCart_boot (n ch : Nat) (c : Cart) : (s.setCart n ch c).boot = s.boot := rfl
@[simp] theorem State.setCart_cpl (n ch : Nat) (c : Cart) : (s.setCart n ch c).cpl = s.cpl := rfl
@[simp] theorem State.setCart_rep (n ch : Nat) (c : Cart) : (s.setCart n ch c).rep = s.rep := rfl
@[simp] theorem State.setCart_pwr (n ch : Nat) (c : Cart) : (s.setCart n ch c).pwr = s.pwr := rfl
@[simp] theorem State.setCart_thm (n ch : Nat) (c : Cart) : (s.setCart n ch c).thm = s.thm := rfl
@[simp] theorem State.setCart_pending (n ch : Nat) (c : Cart) : (s.setCart n ch c).pending = s.pending := rfl

/-! ### State.writeCoded -/

@[simp] theorem State.writeCoded_ticks (key : Nat) (bs : List Byte) : (s.writeCoded key bs).ticks = s.ticks := rfl
@[simp] theorem State.writeCoded_regs (key : Nat) (bs : List Byte) : (s.writeCoded key bs).regs = s.regs := rfl
@[simp] theorem State.writeCoded_free (key : Nat) (bs : List Byte) : (s.writeCoded key bs).free = s.free := rfl
@[simp] theorem State.writeCoded_axle (key : Nat) (bs : List Byte) : (s.writeCoded key bs).axle = s.axle := rfl
@[simp] theorem State.writeCoded_turn (key : Nat) (bs : List Byte) : (s.writeCoded key bs).turn = s.turn := rfl
@[simp] theorem State.writeCoded_ev (key : Nat) (bs : List Byte) : (s.writeCoded key bs).ev = s.ev := rfl
@[simp] theorem State.writeCoded_port (key : Nat) (bs : List Byte) : (s.writeCoded key bs).port = s.port := rfl
@[simp] theorem State.writeCoded_mbx (key : Nat) (bs : List Byte) : (s.writeCoded key bs).mbx = s.mbx := rfl
@[simp] theorem State.writeCoded_sbx (key : Nat) (bs : List Byte) : (s.writeCoded key bs).sbx = s.sbx := rfl
@[simp] theorem State.writeCoded_img (key : Nat) (bs : List Byte) : (s.writeCoded key bs).img = s.img := rfl
@[simp] theorem State.writeCoded_tile (key : Nat) (bs : List Byte) : (s.writeCoded key bs).tile = s.tile := rfl
@[simp] theorem State.writeCoded_net (key : Nat) (bs : List Byte) : (s.writeCoded key bs).net = s.net := rfl
@[simp] theorem State.writeCoded_serv (key : Nat) (bs : List Byte) : (s.writeCoded key bs).serv = s.serv := rfl
@[simp] theorem State.writeCoded_boot (key : Nat) (bs : List Byte) : (s.writeCoded key bs).boot = s.boot := rfl
@[simp] theorem State.writeCoded_cpl (key : Nat) (bs : List Byte) : (s.writeCoded key bs).cpl = s.cpl := rfl
@[simp] theorem State.writeCoded_rep (key : Nat) (bs : List Byte) : (s.writeCoded key bs).rep = s.rep := rfl
@[simp] theorem State.writeCoded_pwr (key : Nat) (bs : List Byte) : (s.writeCoded key bs).pwr = s.pwr := rfl
@[simp] theorem State.writeCoded_thm (key : Nat) (bs : List Byte) : (s.writeCoded key bs).thm = s.thm := rfl
@[simp] theorem State.writeCoded_pending (key : Nat) (bs : List Byte) : (s.writeCoded key bs).pending = s.pending := rfl
@[simp] theorem State.writeCoded_reg (key : Nat) (bs : List Byte) (key : Nat) : (s.writeCoded key bs).reg key = s.reg key := rfl
@[simp] theorem State.writeCoded_get (key : Nat) (bs : List Byte) (g : Fld) : (s.writeCoded key bs).get g = s.get g := rfl
@[simp] theorem State.writeCoded_flag (key : Nat) (bs : List Byte) (g : Fld) : (s.writeCoded key bs).flag g = s.flag g := rfl

/-! ### State.writeRoof -/

@[simp] theorem State.writeRoof_ticks (main side v : Nat) : (s.writeRoof main side v).ticks = s.ticks := rfl
@[simp] theorem State.writeRoof_regs (main side v : Nat) : (s.writeRoof main side v).regs = s.regs := rfl
@[simp] theorem State.writeRoof_free (main side v : Nat) : (s.writeRoof main side v).free = s.free := rfl
@[simp] theorem State.writeRoof_axle (main side v : Nat) : (s.writeRoof main side v).axle = s.axle := rfl
@[simp] theorem State.writeRoof_turn (main side v : Nat) : (s.writeRoof main side v).turn = s.turn := rfl
@[simp] theorem State.writeRoof_ev (main side v : Nat) : (s.writeRoof main side v).ev = s.ev := rfl
@[simp] theorem State.writeRoof_port (main side v : Nat) : (s.writeRoof main side v).port = s.port := rfl
@[simp] theorem State.writeRoof_mbx (main side v : Nat) : (s.writeRoof main side v).mbx = s.mbx := rfl
@[simp] theorem State.writeRoof_sbx (main side v : Nat) : (s.writeRoof main side v).sbx = s.sbx := rfl
@[simp] theorem State.writeRoof_img (main side v : Nat) : (s.writeRoof main side v).img = s.img := rfl
@[simp] theorem State.writeRoof_tile (main side v : Nat) : (s.writeRoof main side v).tile = s.tile := rfl
@[simp] theorem State.writeRoof_net (main side v : Nat) : (s.writeRoof main side v).net = s.net := rfl
@[simp] theorem State.writeRoof_serv (main side v : Nat) : (s.writeRoof main side v).serv = s.serv := rfl
@[simp] theorem State.writeRoof_boot (main side v : Nat) : (s.writeRoof main side v).boot = s.boot := rfl
@[simp] theorem State.writeRoof_cpl (main side v : Nat) : (s.writeRoof main side v).cpl = s.cpl := rfl
@[simp] theorem State.writeRoof_rep (main side v : Nat) : (s.writeRoof main side v).rep = s.rep := rfl
@[simp] theorem State.writeRoof_pwr (main side v : Nat) : (s.writeRoof main side v).pwr = s.pwr := rfl
@[simp] theorem State.writeRoof_thm (main side v : Nat) : (s.writeRoof main side v).thm = s.thm := rfl
@[simp] theorem State.writeRoof_pending (main side v : Nat) : (s.writeRoof main side v).pending = s.pending := rfl
@[simp] theorem State.writeRoof_reg (main side v : Nat) (key : Nat) : (s.writeRoof main side v).reg key = s.reg key := rfl
@[simp] theorem State.writeRoof_get (main side v : Nat) (g : Fld) : (s.writeRoof main side v).get g = s.get g := rfl
@[simp] theorem State.writeRoof_flag (main side v : Nat) (g : Fld) : (s.writeRoof main side v).flag g = s.flag g := rfl

/-! ### State.setCirc -/

@[simp] theorem State.setCirc_ticks (n c head tail count : Nat) : (s.setCirc n c head tail count).ticks = s.ticks := rfl
@[simp] theorem State.setCirc_mem (n c head tail count : Nat) : (s.setCirc n c head tail count).mem = s.mem := rfl
@[simp] theorem State.setCirc_flips (n c head tail count : Nat) : (s.setCirc n c head tail count).flips = s.flips := rfl
@[simp] theorem State.setCirc_free (n c head tail count : Nat) : (s.setCirc n c head tail count).free = s.free := rfl
@[simp] theorem State.setCirc_axle (n c head tail count : Nat) : (s.setCirc n c head tail count).axle = s.axle := rfl
@[simp] theorem State.setCirc_turn (n c head tail count : Nat) : (s.setCirc n c head tail count).turn = s.turn := rfl
@[simp] theorem State.setCirc_ev (n c head tail count : Nat) : (s.setCirc n c head tail count).ev = s.ev := rfl
@[simp] theorem State.setCirc_port (n c head tail count : Nat) : (s.setCirc n c head tail count).port = s.port := rfl
@[simp] theorem State.setCirc_mbx (n c head tail count : Nat) : (s.setCirc n c head tail count).mbx = s.mbx := rfl
@[simp] theorem State.setCirc_sbx (n c head tail count : Nat) : (s.setCirc n c head tail count).sbx = s.sbx := rfl
@[simp] theorem State.setCirc_img (n c head tail count : Nat) : (s.setCirc n c head tail count).img = s.img := rfl
@[simp] theorem State.setCirc_tile (n c head tail count : Nat) : (s.setCirc n c head tail count).tile = s.tile := rfl
@[simp] theorem State.setCirc_net (n c head tail count : Nat) : (s.setCirc n c head tail count).net = s.net := rfl
@[simp] theorem State.setCirc_serv (n c head tail count : Nat) : (s.setCirc n c head tail count).serv = s.serv := rfl
@[simp] theorem State.setCirc_boot (n c head tail count : Nat) : (s.setCirc n c head tail count).boot = s.boot := rfl
@[simp] theorem State.setCirc_cpl (n c head tail count : Nat) : (s.setCirc n c head tail count).cpl = s.cpl := rfl
@[simp] theorem State.setCirc_rep (n c head tail count : Nat) : (s.setCirc n c head tail count).rep = s.rep := rfl
@[simp] theorem State.setCirc_pwr (n c head tail count : Nat) : (s.setCirc n c head tail count).pwr = s.pwr := rfl
@[simp] theorem State.setCirc_thm (n c head tail count : Nat) : (s.setCirc n c head tail count).thm = s.thm := rfl
@[simp] theorem State.setCirc_pending (n c head tail count : Nat) : (s.setCirc n c head tail count).pending = s.pending := rfl

/-! ### A state written out reads its registers as the state they come from -/

section

variable {ticks free : Nat} {mem : List Host.Cell} {flips : Sparse Nat} {axle : AxleB} {turn : TurnB} {ev : EvB} {port : PortB} {mbx : Sparse MbxQueue}
  {sbx : SbxB} {img : ImgB} {tile : TileB} {net : NetB} {serv : ServB} {boot : BootB} {cpl : CplB} {rep : RepB} {pwr : PwrB} {thm : ThmB}
  {pending : List Instr} {x : State}

@[simp] theorem State.get_mk (f : Fld) : State.get ⟨ticks, x.regs, mem, flips, free, axle, turn, ev, port, mbx, sbx, img, tile, net, serv, boot, cpl, rep, pwr, thm, pending⟩ f = x.get f := rfl
@[simp] theorem State.flag_mk (f : Fld) : State.flag ⟨ticks, x.regs, mem, flips, free, axle, turn, ev, port, mbx, sbx, img, tile, net, serv, boot, cpl, rep, pwr, thm, pending⟩ f = x.flag f := rfl
@[simp] theorem State.reg_mk (f : Nat) : State.reg ⟨ticks, x.regs, mem, flips, free, axle, turn, ev, port, mbx, sbx, img, tile, net, serv, boot, cpl, rep, pwr, thm, pending⟩ f = x.reg f := rfl
@[simp] theorem State.count_mk : State.count ⟨ticks, x.regs, mem, flips, free, axle, turn, ev, port, mbx, sbx, img, tile, net, serv, boot, cpl, rep, pwr, thm, pending⟩ = x.count := rfl
@[simp] theorem State.spoke_mk : State.spoke ⟨ticks, x.regs, mem, flips, free, axle, turn, ev, port, mbx, sbx, img, tile, net, serv, boot, cpl, rep, pwr, thm, pending⟩ = x.spoke := rfl
@[simp] theorem State.k_mk : State.k ⟨ticks, x.regs, mem, flips, free, axle, turn, ev, port, mbx, sbx, img, tile, net, serv, boot, cpl, rep, pwr, thm, pending⟩ = x.k := rfl
@[simp] theorem State.turnNo_mk : State.turnNo ⟨ticks, x.regs, mem, flips, free, axle, turn, ev, port, mbx, sbx, img, tile, net, serv, boot, cpl, rep, pwr, thm, pending⟩ = x.turnNo := rfl
@[simp] theorem State.running_mk : State.running ⟨ticks, x.regs, mem, flips, free, axle, turn, ev, port, mbx, sbx, img, tile, net, serv, boot, cpl, rep, pwr, thm, pending⟩ = x.running := rfl
@[simp] theorem State.lead_mk : State.lead ⟨ticks, x.regs, mem, flips, free, axle, turn, ev, port, mbx, sbx, img, tile, net, serv, boot, cpl, rep, pwr, thm, pending⟩ = x.lead := rfl
@[simp] theorem State.member_mk : State.member ⟨ticks, x.regs, mem, flips, free, axle, turn, ev, port, mbx, sbx, img, tile, net, serv, boot, cpl, rep, pwr, thm, pending⟩ = x.member := rfl
@[simp] theorem State.aligned_mk : State.aligned ⟨ticks, x.regs, mem, flips, free, axle, turn, ev, port, mbx, sbx, img, tile, net, serv, boot, cpl, rep, pwr, thm, pending⟩ = x.aligned := rfl
@[simp] theorem State.lenK_mk : State.lenK ⟨ticks, x.regs, mem, flips, free, axle, turn, ev, port, mbx, sbx, img, tile, net, serv, boot, cpl, rep, pwr, thm, pending⟩ = x.lenK := rfl
@[simp] theorem State.turnStart_mk : State.turnStart ⟨ticks, x.regs, mem, flips, free, axle, turn, ev, port, mbx, sbx, img, tile, net, serv, boot, cpl, rep, pwr, thm, pending⟩ = x.turnStart := rfl
@[simp] theorem State.role_mk : State.role ⟨ticks, x.regs, mem, flips, free, axle, turn, ev, port, mbx, sbx, img, tile, net, serv, boot, cpl, rep, pwr, thm, pending⟩ = x.role := rfl

end

/-! ### What changes -/

/-- A response joins the end of the queue of channel 0. -/
@[simp] theorem State.respond_resp (op cmd st d : Nat) (fin : Bool) (r : List Byte) :
    (s.respond op cmd st d fin r).port.resp = s.port.resp ++ [⟨op, st, d, cmd, fin, r⟩] := rfl

/-- An event starts toward the controller behind those on their way. -/
@[simp] theorem State.raise_inflight (num coord a b : Nat) :
    (s.raise num coord a b).ev.inflight =
      s.ev.inflight ++ [⟨num, s.count, s.spokeCycle, coord, a % 2 ^ 64, b % 2 ^ 64, s.ticks, s.axle.epoch⟩] := rfl

@[simp] theorem State.setServ_serv (f : ServB → ServB) : (s.setServ f).serv = f s.serv := rfl

@[simp] theorem State.wrBytes_mem (a : Nat) (bs : List Byte) : (s.wrBytes a bs).mem = Memory.setBytes s.mem a bs := rfl

/-- What time does to the state before the tiles run: the tick count, the CORE cycles owed, and the axle count while PWRGOOD is
high. -/
@[simp] theorem State.elapse_ticks (dt : Nat) : (s.elapse dt).ticks = s.ticks + dt := by
  unfold State.elapse; dsimp only; split <;> rfl

/-- The CORE cycles of the ticks wait for the tiles; no other part of the tiles changes. -/
theorem State.elapse_tile (dt : Nat) :
    (s.elapse dt).tile = { s.tile with
      owed := s.tile.owed + cyclesIn s.k (s.count % 8) dt s.tile.sub, sub := if dt = 0 then s.tile.sub else 0 } := by
  unfold State.elapse; dsimp only; split <;> rfl

@[simp] theorem State.elapse_mem (dt : Nat) : (s.elapse dt).mem = s.mem := by
  unfold State.elapse; dsimp only; split <;> rfl
@[simp] theorem State.elapse_flips (dt : Nat) : (s.elapse dt).flips = s.flips := by
  unfold State.elapse; dsimp only; split <;> rfl
@[simp] theorem State.elapse_free (dt : Nat) : (s.elapse dt).free = s.free := by
  unfold State.elapse; dsimp only; split <;> rfl
@[simp] theorem State.elapse_axle (dt : Nat) : (s.elapse dt).axle = s.axle := by
  unfold State.elapse; dsimp only; split <;> rfl
@[simp] theorem State.elapse_turn (dt : Nat) : (s.elapse dt).turn = s.turn := by
  unfold State.elapse; dsimp only; split <;> rfl
@[simp] theorem State.elapse_ev (dt : Nat) : (s.elapse dt).ev = s.ev := by
  unfold State.elapse; dsimp only; split <;> rfl
@[simp] theorem State.elapse_port (dt : Nat) : (s.elapse dt).port = s.port := by
  unfold State.elapse; dsimp only; split <;> rfl
@[simp] theorem State.elapse_mbx (dt : Nat) : (s.elapse dt).mbx = s.mbx := by
  unfold State.elapse; dsimp only; split <;> rfl
@[simp] theorem State.elapse_sbx (dt : Nat) : (s.elapse dt).sbx = s.sbx := by
  unfold State.elapse; dsimp only; split <;> rfl
@[simp] theorem State.elapse_img (dt : Nat) : (s.elapse dt).img = s.img := by
  unfold State.elapse; dsimp only; split <;> rfl
@[simp] theorem State.elapse_net (dt : Nat) : (s.elapse dt).net = s.net := by
  unfold State.elapse; dsimp only; split <;> rfl
@[simp] theorem State.elapse_serv (dt : Nat) : (s.elapse dt).serv = s.serv := by
  unfold State.elapse; dsimp only; split <;> rfl
@[simp] theorem State.elapse_boot (dt : Nat) : (s.elapse dt).boot = s.boot := by
  unfold State.elapse; dsimp only; split <;> rfl
@[simp] theorem State.elapse_cpl (dt : Nat) : (s.elapse dt).cpl = s.cpl := by
  unfold State.elapse; dsimp only; split <;> rfl
@[simp] theorem State.elapse_rep (dt : Nat) : (s.elapse dt).rep = s.rep := by
  unfold State.elapse; dsimp only; split <;> rfl
@[simp] theorem State.elapse_pwr (dt : Nat) : (s.elapse dt).pwr = s.pwr := by
  unfold State.elapse; dsimp only; split <;> rfl
@[simp] theorem State.elapse_thm (dt : Nat) : (s.elapse dt).thm = s.thm := by
  unfold State.elapse; dsimp only; split <;> rfl
@[simp] theorem State.elapse_pending (dt : Nat) : (s.elapse dt).pending = s.pending := by
  unfold State.elapse; dsimp only; split <;> rfl

/-- Time changes no register but the axle count. -/
theorem State.elapse_get (dt : Nat) {g : Fld} (h : g.fits) (ha : HEAD_AXLE_COUNT.count.apart g) : (s.elapse dt).get g = s.get g := by
  unfold State.elapse
  dsimp only
  split
  · exact State.get_set_apart _ _ h ha
  · rfl

end Sys2Proof.Machine
end

