-- ==== Sys2Proof/Laws/Port.lean ====
section
/-! SUPPORT. What running a command of channel 0 does around the command's own effect: its payload leaves the receive buffer, and the
transmitter sends; both change the channels and the transmitter's counts, and nothing else. -/

set_option Elab.async false

namespace Sys2Proof.Machine

variable (s : State)

/-- Only the channels of the port differ, with the transmitter's own counts. -/
def State.sameButChans (s t : State) : Prop := ∃ l n o, t = { s with port := { s.port with chans := l, controls := n, lastOut := o } }

theorem State.sameButChans.refl : s.sameButChans s := ⟨s.port.chans, s.port.controls, s.port.lastOut, rfl⟩

theorem State.sameButChans.trans {s t u : State} (h : s.sameButChans t) (k : t.sameButChans u) : s.sameButChans u := by
  obtain ⟨l, n, o, rfl⟩ := h
  obtain ⟨l', n', o', rfl⟩ := k
  exact ⟨l', n', o', rfl⟩

theorem State.updChan_same (c : Nat) (f : Chan → Chan) : s.sameButChans (s.updChan c f) := ⟨_, _, _, rfl⟩

theorem State.sendOne_same (c : Nat) : s.sameButChans (s.sendOne c) := ⟨_, _, _, rfl⟩

theorem State.tellHost_same (c : Nat) : s.sameButChans (s.tellHost c) := by
  unfold State.tellHost
  dsimp only
  split
  · exact ⟨_, _, _, rfl⟩
  · exact State.sameButChans.refl _

theorem State.sendFrames_same (k : Nat) : s.sameButChans (State.sendFrames k s) := by
  induction k generalizing s with
  | zero => exact State.sameButChans.refl _
  | succ k ih =>
    unfold State.sendFrames
    split
    · exact State.sameButChans.refl _
    · exact (State.sendOne_same _ _).trans (ih _)

theorem State.foldl_same {α : Type} (f : State → α → State) (hf : ∀ (t : State) (x : α), t.sameButChans (f t x)) (l : List α) :
    s.sameButChans (l.foldl f s) := by
  induction l generalizing s with
  | nil => exact State.sameButChans.refl _
  | cons x l ih => exact (hf s x).trans (ih (f s x))

theorem State.transmit_same : s.sameButChans s.transmit := by
  unfold State.transmit
  split
  · exact (State.sendFrames_same _ _).trans (State.foldl_same _ _ (fun t c => State.tellHost_same t c) _)
  · exact State.sameButChans.refl _

theorem State.takeCommand_same (op cmd : Nat) : s.sameButChans (s.takeCommand op cmd) := by
  unfold State.takeCommand
  split
  · exact State.sameButChans.refl _
  · split
    · exact State.updChan_same _ _ _
    · exact State.sameButChans.refl _

/-- A command that is admitted runs on the state without its payload, and the transmitter sends. -/
theorem State.command_runs {op cmd : Nat} {roles : List Nat} {body : State → State} (h : s.cmdRuns op roles = true) :
    s.command op cmd roles body = (body (s.takeCommand op cmd)).transmit := by
  obtain ⟨l, n, o, hl⟩ := State.takeCommand_same s op cmd
  simp only [State.cmdRuns, Bool.and_eq_true, beq_iff_eq, Option.isNone_iff_eq_none] at h
  have hd : (s.takeCommand op cmd).denied op roles = none := by rw [hl]; exact h.2
  simp [State.command, h.1, hd]

@[simp] theorem State.transmit_ticks : s.transmit.ticks = s.ticks := by obtain ⟨l, n, o, h⟩ := State.transmit_same s; rw [h]
@[simp] theorem State.takeCommand_ticks (op cmd : Nat) : (s.takeCommand op cmd).ticks = s.ticks := by obtain ⟨l, n, o, h⟩ := State.takeCommand_same s op cmd; rw [h]
@[simp] theorem State.transmit_regs : s.transmit.regs = s.regs := by obtain ⟨l, n, o, h⟩ := State.transmit_same s; rw [h]
@[simp] theorem State.takeCommand_regs (op cmd : Nat) : (s.takeCommand op cmd).regs = s.regs := by obtain ⟨l, n, o, h⟩ := State.takeCommand_same s op cmd; rw [h]
@[simp] theorem State.transmit_mem : s.transmit.mem = s.mem := by obtain ⟨l, n, o, h⟩ := State.transmit_same s; rw [h]
@[simp] theorem State.takeCommand_mem (op cmd : Nat) : (s.takeCommand op cmd).mem = s.mem := by obtain ⟨l, n, o, h⟩ := State.takeCommand_same s op cmd; rw [h]
@[simp] theorem State.transmit_flips : s.transmit.flips = s.flips := by obtain ⟨l, n, o, h⟩ := State.transmit_same s; rw [h]
@[simp] theorem State.takeCommand_flips (op cmd : Nat) : (s.takeCommand op cmd).flips = s.flips := by obtain ⟨l, n, o, h⟩ := State.takeCommand_same s op cmd; rw [h]
@[simp] theorem State.transmit_free : s.transmit.free = s.free := by obtain ⟨l, n, o, h⟩ := State.transmit_same s; rw [h]
@[simp] theorem State.takeCommand_free (op cmd : Nat) : (s.takeCommand op cmd).free = s.free := by obtain ⟨l, n, o, h⟩ := State.takeCommand_same s op cmd; rw [h]
@[simp] theorem State.transmit_axle : s.transmit.axle = s.axle := by obtain ⟨l, n, o, h⟩ := State.transmit_same s; rw [h]
@[simp] theorem State.takeCommand_axle (op cmd : Nat) : (s.takeCommand op cmd).axle = s.axle := by obtain ⟨l, n, o, h⟩ := State.takeCommand_same s op cmd; rw [h]
@[simp] theorem State.transmit_turn : s.transmit.turn = s.turn := by obtain ⟨l, n, o, h⟩ := State.transmit_same s; rw [h]
@[simp] theorem State.takeCommand_turn (op cmd : Nat) : (s.takeCommand op cmd).turn = s.turn := by obtain ⟨l, n, o, h⟩ := State.takeCommand_same s op cmd; rw [h]
@[simp] theorem State.transmit_ev : s.transmit.ev = s.ev := by obtain ⟨l, n, o, h⟩ := State.transmit_same s; rw [h]
@[simp] theorem State.takeCommand_ev (op cmd : Nat) : (s.takeCommand op cmd).ev = s.ev := by obtain ⟨l, n, o, h⟩ := State.takeCommand_same s op cmd; rw [h]
@[simp] theorem State.transmit_mbx : s.transmit.mbx = s.mbx := by obtain ⟨l, n, o, h⟩ := State.transmit_same s; rw [h]
@[simp] theorem State.takeCommand_mbx (op cmd : Nat) : (s.takeCommand op cmd).mbx = s.mbx := by obtain ⟨l, n, o, h⟩ := State.takeCommand_same s op cmd; rw [h]
@[simp] theorem State.transmit_sbx : s.transmit.sbx = s.sbx := by obtain ⟨l, n, o, h⟩ := State.transmit_same s; rw [h]
@[simp] theorem State.takeCommand_sbx (op cmd : Nat) : (s.takeCommand op cmd).sbx = s.sbx := by obtain ⟨l, n, o, h⟩ := State.takeCommand_same s op cmd; rw [h]
@[simp] theorem State.transmit_img : s.transmit.img = s.img := by obtain ⟨l, n, o, h⟩ := State.transmit_same s; rw [h]
@[simp] theorem State.takeCommand_img (op cmd : Nat) : (s.takeCommand op cmd).img = s.img := by obtain ⟨l, n, o, h⟩ := State.takeCommand_same s op cmd; rw [h]
@[simp] theorem State.transmit_tile : s.transmit.tile = s.tile := by obtain ⟨l, n, o, h⟩ := State.transmit_same s; rw [h]
@[simp] theorem State.takeCommand_tile (op cmd : Nat) : (s.takeCommand op cmd).tile = s.tile := by obtain ⟨l, n, o, h⟩ := State.takeCommand_same s op cmd; rw [h]
@[simp] theorem State.transmit_net : s.transmit.net = s.net := by obtain ⟨l, n, o, h⟩ := State.transmit_same s; rw [h]
@[simp] theorem State.takeCommand_net (op cmd : Nat) : (s.takeCommand op cmd).net = s.net := by obtain ⟨l, n, o, h⟩ := State.takeCommand_same s op cmd; rw [h]
@[simp] theorem State.transmit_serv : s.transmit.serv = s.serv := by obtain ⟨l, n, o, h⟩ := State.transmit_same s; rw [h]
@[simp] theorem State.takeCommand_serv (op cmd : Nat) : (s.takeCommand op cmd).serv = s.serv := by obtain ⟨l, n, o, h⟩ := State.takeCommand_same s op cmd; rw [h]
@[simp] theorem State.transmit_boot : s.transmit.boot = s.boot := by obtain ⟨l, n, o, h⟩ := State.transmit_same s; rw [h]
@[simp] theorem State.takeCommand_boot (op cmd : Nat) : (s.takeCommand op cmd).boot = s.boot := by obtain ⟨l, n, o, h⟩ := State.takeCommand_same s op cmd; rw [h]
@[simp] theorem State.transmit_cpl : s.transmit.cpl = s.cpl := by obtain ⟨l, n, o, h⟩ := State.transmit_same s; rw [h]
@[simp] theorem State.takeCommand_cpl (op cmd : Nat) : (s.takeCommand op cmd).cpl = s.cpl := by obtain ⟨l, n, o, h⟩ := State.takeCommand_same s op cmd; rw [h]
@[simp] theorem State.transmit_rep : s.transmit.rep = s.rep := by obtain ⟨l, n, o, h⟩ := State.transmit_same s; rw [h]
@[simp] theorem State.takeCommand_rep (op cmd : Nat) : (s.takeCommand op cmd).rep = s.rep := by obtain ⟨l, n, o, h⟩ := State.takeCommand_same s op cmd; rw [h]
@[simp] theorem State.transmit_pwr : s.transmit.pwr = s.pwr := by obtain ⟨l, n, o, h⟩ := State.transmit_same s; rw [h]
@[simp] theorem State.takeCommand_pwr (op cmd : Nat) : (s.takeCommand op cmd).pwr = s.pwr := by obtain ⟨l, n, o, h⟩ := State.takeCommand_same s op cmd; rw [h]
@[simp] theorem State.transmit_thm : s.transmit.thm = s.thm := by obtain ⟨l, n, o, h⟩ := State.transmit_same s; rw [h]
@[simp] theorem State.takeCommand_thm (op cmd : Nat) : (s.takeCommand op cmd).thm = s.thm := by obtain ⟨l, n, o, h⟩ := State.takeCommand_same s op cmd; rw [h]
@[simp] theorem State.transmit_pending : s.transmit.pending = s.pending := by obtain ⟨l, n, o, h⟩ := State.transmit_same s; rw [h]
@[simp] theorem State.takeCommand_pending (op cmd : Nat) : (s.takeCommand op cmd).pending = s.pending := by obtain ⟨l, n, o, h⟩ := State.takeCommand_same s op cmd; rw [h]
@[simp] theorem State.transmit_port_resp : s.transmit.port.resp = s.port.resp := by obtain ⟨l, n, o, h⟩ := State.transmit_same s; rw [h]
@[simp] theorem State.takeCommand_port_resp (op cmd : Nat) : (s.takeCommand op cmd).port.resp = s.port.resp := by obtain ⟨l, n, o, h⟩ := State.takeCommand_same s op cmd; rw [h]
@[simp] theorem State.transmit_port_long : s.transmit.port.long = s.port.long := by obtain ⟨l, n, o, h⟩ := State.transmit_same s; rw [h]
@[simp] theorem State.takeCommand_port_long (op cmd : Nat) : (s.takeCommand op cmd).port.long = s.port.long := by obtain ⟨l, n, o, h⟩ := State.takeCommand_same s op cmd; rw [h]
@[simp] theorem State.transmit_port_raw : s.transmit.port.raw = s.port.raw := by obtain ⟨l, n, o, h⟩ := State.transmit_same s; rw [h]
@[simp] theorem State.takeCommand_port_raw (op cmd : Nat) : (s.takeCommand op cmd).port.raw = s.port.raw := by obtain ⟨l, n, o, h⟩ := State.takeCommand_same s op cmd; rw [h]
@[simp] theorem State.transmit_port_mbxOut : s.transmit.port.mbxOut = s.port.mbxOut := by obtain ⟨l, n, o, h⟩ := State.transmit_same s; rw [h]
@[simp] theorem State.takeCommand_port_mbxOut (op cmd : Nat) : (s.takeCommand op cmd).port.mbxOut = s.port.mbxOut := by obtain ⟨l, n, o, h⟩ := State.takeCommand_same s op cmd; rw [h]
@[simp] theorem State.transmit_port_parting : s.transmit.port.parting = s.port.parting := by obtain ⟨l, n, o, h⟩ := State.transmit_same s; rw [h]
@[simp] theorem State.takeCommand_port_parting (op cmd : Nat) : (s.takeCommand op cmd).port.parting = s.port.parting := by obtain ⟨l, n, o, h⟩ := State.takeCommand_same s op cmd; rw [h]
@[simp] theorem State.transmit_port_recs : s.transmit.port.recs = s.port.recs := by obtain ⟨l, n, o, h⟩ := State.transmit_same s; rw [h]
@[simp] theorem State.takeCommand_port_recs (op cmd : Nat) : (s.takeCommand op cmd).port.recs = s.port.recs := by obtain ⟨l, n, o, h⟩ := State.takeCommand_same s op cmd; rw [h]
@[simp] theorem State.transmit_port_secret : s.transmit.port.secret = s.port.secret := by obtain ⟨l, n, o, h⟩ := State.transmit_same s; rw [h]
@[simp] theorem State.takeCommand_port_secret (op cmd : Nat) : (s.takeCommand op cmd).port.secret = s.port.secret := by obtain ⟨l, n, o, h⟩ := State.takeCommand_same s op cmd; rw [h]

@[simp] theorem State.transmit_get (f : Fld) : s.transmit.get f = s.get f := State.get_congr (by simp) f
@[simp] theorem State.takeCommand_get (op cmd : Nat) (f : Fld) : (s.takeCommand op cmd).get f = s.get f := State.get_congr (by simp) f
@[simp] theorem State.transmit_flag (f : Fld) : s.transmit.flag f = s.flag f := State.flag_congr (by simp) f
@[simp] theorem State.takeCommand_flag (op cmd : Nat) (f : Fld) : (s.takeCommand op cmd).flag f = s.flag f := State.flag_congr (by simp) f
@[simp] theorem State.transmit_reg (k : Nat) : s.transmit.reg k = s.reg k := State.reg_congr (by simp) k
@[simp] theorem State.takeCommand_reg (op cmd k : Nat) : (s.takeCommand op cmd).reg k = s.reg k := State.reg_congr (by simp) k
@[simp] theorem State.transmit_lastResponse : s.transmit.lastResponse = s.lastResponse := by simp [State.lastResponse]
@[simp] theorem State.respond_lastResponse (op cmd st d : Nat) (fin : Bool) (r : List Byte) :
    (s.respond op cmd st d fin r).lastResponse = some ⟨op, st, d, cmd, fin, r⟩ := by simp [State.lastResponse]
@[simp] theorem State.raise_lastEvent (num coord a b : Nat) : (s.raise num coord a b).lastEvent = some (num, a % 2 ^ 64, b % 2 ^ 64) := by
  simp [State.lastEvent]
@[simp] theorem State.raiseHead_lastEvent (num a b : Nat) : (s.raiseHead num a b).lastEvent = some (num, a % 2 ^ 64, b % 2 ^ 64) := by
  simp [State.raiseHead]

end Sys2Proof.Machine
end

