-- ==== Sys2Proof/Laws/Commands.lean ====
section
/-! SUPPORT. What a management write does at each register that the table of commands names: one equation each, so that no proof
walks the register tables. -/

set_option Elab.async false

namespace Sys2Proof.Machine

variable (t : State) (role v : Nat)

theorem State.mgmtWrite_axleCtrl : t.mgmtWrite role HEAD_AXLE_CTRL.addr v =
    wrote (if v.testBit 1 then t.disarmWrite else if v.testBit 0 then t.armWrite else t) := rfl

theorem State.mgmtWrite_swapCtrl : t.mgmtWrite role HEAD_SWAP_CTRL.addr v =
    wrote (t.writeHold (v.testBit 0)) := rfl

theorem State.mgmtWrite_recipe : t.mgmtWrite role HEAD_FMT_RECIPE.addr v =
    match t.bankIx .fmt 0 with
    | none => refused stAddress t
    | some x => t.writeRecipe x (HEAD_FMT_RECIPE.addr + x * 281474976710656) v := rfl

theorem State.mgmtWrite_fmtSet : t.mgmtWrite role HEAD_FMT_SET.addr v = t.writeWide v := rfl

theorem State.mgmtWrite_shadowCtrl : t.mgmtWrite role HEAD_SHADOW_CTRL.addr v =
    wrote (if v.testBit 32 then t.writeReg HEAD_SHADOW_CTRL HEAD_SHADOW_CTRL.addr v
      else (t.writeReg HEAD_SHADOW_CTRL HEAD_SHADOW_CTRL.addr v).setServ fun y => { y with samples := [] }) := rfl

theorem State.mgmtWrite_profile : t.mgmtWrite role HEAD_SAMP_PROFILE.addr v =
    t.writeProfile (t.get HEAD_SAMP_INDEX.profile) (HEAD_SAMP_PROFILE.addr + t.get HEAD_SAMP_INDEX.profile * 281474976710656) v := rfl

theorem State.mgmtWrite_adapter : t.mgmtWrite role HEAD_ADAPTER_PTR.addr v =
    match t.bankIx .adapter 0 with
    | none => refused stAddress t
    | some x => t.writeAdapter x v := rfl

theorem State.mgmtWrite_model : t.mgmtWrite role HEAD_MODEL_PTR.addr v = t.writeModel v := rfl

theorem State.mgmtWrite_coachOn : t.mgmtWrite role PWR_COACH_ON.addr v = t.writeCoachOn v := rfl

theorem State.mgmtWrite_gov : t.mgmtWrite role PWR_GOV.addr v = t.writeStepCap v := rfl

theorem State.mgmtWrite_prefix : t.mgmtWrite role HEAD_PREFIX_CTRL.addr v =
    wrote (if v.testBit 1 then (t.setFlag HEAD_PREFIX_CTRL.enable (v.testBit 0)).flushNodes
      else t.setFlag HEAD_PREFIX_CTRL.enable (v.testBit 0)) := rfl

theorem State.mgmtWrite_coachReset : t.mgmtWrite role HEAD_COACH_RESET.addr v =
    wrote (if v.testBit 8 then t.coachResetRequest (bits v 0 6) else t.writeReg HEAD_COACH_RESET HEAD_COACH_RESET.addr v) := rfl

theorem State.mgmtWrite_clkCtrl : t.mgmtWrite role CLK_DOM_CTRL.addr v =
    match t.bankIx .clkDom 0 with
    | none => wrote t
    | some x => wrote (t.clkRequest .host x (bits v 0 4) (v.testBit 4) none) := rfl

theorem State.mgmtWrite_policy : t.mgmtWrite role SBX_POLICY.addr v = t.writePolicy role v := rfl

theorem State.mgmtWrite_keyCtrl : t.mgmtWrite role SBX_KEY_CTRL.addr v = t.writeKeyCtrl role v := rfl

@[simp] theorem wrote_status (s : State) : (wrote s).status = stOk := rfl
@[simp] theorem wrote_swap (s : State) : (wrote s).swap = false := rfl
@[simp] theorem wrote_s (s : State) : (wrote s).s = s := rfl
@[simp] theorem shadowed_status (s : State) : (shadowed s).status = stOk := rfl
@[simp] theorem shadowed_swap (s : State) : (shadowed s).swap = true := rfl
@[simp] theorem shadowed_s (s : State) : (shadowed s).s = s := rfl

end Sys2Proof.Machine
end

