-- ==== Sys2Proof/Laws/Keeps.lean ====
section
/-! SUPPORT. What every operation keeps: a sound state stays sound, the queue of commands is left alone, and time and the
counter of free values never run backwards. This file holds the relation, its rules, and the operations that touch one of its
fields; the Laws/Keeps*.lean files carry it through every operation and every meaning. -/

set_option Elab.async false

namespace Sys2Proof.Machine

/-- `t` came from `s0` by operations of the block. -/
structure State.Keeps (s0 t : State) : Prop where
  sound : s0.Sound → t.Sound
  queue : t.pending = s0.pending
  time : s0.ticks ≤ t.ticks
  free : s0.free ≤ t.free

theorem State.Keeps.refl (s : State) : s.Keeps s := ⟨id, rfl, le_rfl, le_rfl⟩

/-- Every change to fields that the relation does not speak of keeps it. -/
theorem State.Keeps.upd {s0 x : State} (h : s0.Keeps x) {flips : Sparse Nat} {axle : AxleB} {turn : TurnB} {ev : EvB} {port : PortB}
    {mbx : Sparse MbxQueue} {sbx : SbxB} {img : ImgB} {tile : TileB} {net : NetB} {serv : ServB} {boot : BootB} {cpl : CplB}
    {rep : RepB} {pwr : PwrB} {thm : ThmB} (stream : ev.stream = x.ev.stream) (log : sbx.log = x.sbx.log)
    (chans : port.chans = x.port.chans) :
    s0.Keeps ⟨x.ticks, x.regs, x.mem, flips, x.free, axle, turn, ev, port, mbx, sbx, img, tile, net, serv, boot, cpl, rep, pwr, thm,
      x.pending⟩ :=
  ⟨fun h0 => ⟨(h.sound h0).mem, (h.sound h0).regs, stream ▸ (h.sound h0).stream, log ▸ (h.sound h0).log, chans ▸ (h.sound h0).chans⟩,
    h.queue, h.time, h.free⟩

/-- The relation on a state written out: what it says of the fields it speaks of. -/
def State.KeepsCore (s0 : State) (ticks : Nat) (regs : Sparse Word) (mem : List Host.Cell) (free : Nat) (stream : List Rec4)
    (log : List Rec4) (chans : List Chan) (pending : List Instr) : Prop :=
  ∀ t : State, t.ticks = ticks → t.regs = regs → t.mem = mem → t.free = free → t.ev.stream = stream → t.sbx.log = log →
    t.port.chans = chans → t.pending = pending → s0.Keeps t

theorem State.Keeps.mk_of {s0 : State} {ticks : Nat} {regs : Sparse Word} {mem : List Host.Cell} {flips : Sparse Nat} {free : Nat}
    {axle : AxleB} {turn : TurnB} {ev : EvB} {port : PortB}
    {mbx : Sparse MbxQueue} {sbx : SbxB} {img : ImgB} {tile : TileB} {net : NetB} {serv : ServB} {boot : BootB} {cpl : CplB}
    {rep : RepB} {pwr : PwrB} {thm : ThmB} {pending : List Instr} :
    s0.Keeps ⟨ticks, regs, mem, flips, free, axle, turn, ev, port, mbx, sbx, img, tile, net, serv, boot, cpl, rep, pwr, thm, pending⟩ =
      s0.KeepsCore ticks regs mem free ev.stream sbx.log port.chans pending := by
  refine propext ⟨fun h t h1 h2 h3 h4 h5 h6 h7 h8 => ?_, fun h => h _ rfl rfl rfl rfl rfl rfl rfl rfl⟩
  refine ⟨fun h0 => ⟨?_, ?_, ?_, ?_, ?_⟩, h8.trans h.queue, h1 ▸ h.time, h4 ▸ h.free⟩
  · rw [h3]; exact (h.sound h0).mem
  · rw [h2]; exact (h.sound h0).regs
  · rw [h5]; exact (h.sound h0).stream
  · rw [h6]; exact (h.sound h0).log
  · rw [h7]; exact (h.sound h0).chans

theorem State.Keeps.core {s0 x : State} (h : s0.Keeps x) :
    s0.KeepsCore x.ticks x.regs x.mem x.free x.ev.stream x.sbx.log x.port.chans x.pending := by
  have := h
  obtain ⟨⟩ := x
  rwa [State.Keeps.mk_of] at this

theorem State.Keeps.ite {s0 a b : State} {c : Prop} [Decidable c] (ha : s0.Keeps a) (hb : s0.Keeps b) : s0.Keeps (if c then a else b) := by
  split <;> assumption

theorem State.Keeps.ite_snd {α : Type} {s0 : State} {a b : α × State} {c : Prop} [Decidable c] (ha : s0.Keeps a.2) (hb : s0.Keeps b.2) :
    s0.Keeps (if c then a else b).2 := by
  split <;> assumption

theorem State.Keeps.foldl {α : Type} {s0 : State} {f : State → α → State} (l : List α) {s : State}
    (h : s0.Keeps s) (hf : ∀ t x, s0.Keeps t → s0.Keeps (f t x)) : s0.Keeps (l.foldl f s) := by
  induction l generalizing s with
  | nil => exact h
  | cons x l ih => exact ih (hf s x h)

theorem State.Keeps.foldl_snd {α β : Type} {s0 : State} {f : β × State → α → β × State} (l : List α) {s : β × State}
    (h : s0.Keeps s.2) (hf : ∀ t x, s0.Keeps t.2 → s0.Keeps (f t x).2) : s0.Keeps (l.foldl f s).2 := by
  induction l generalizing s with
  | nil => exact h
  | cons x l ih => exact ih (hf s x h)

theorem State.Keeps.foldl_fst {α β : Type} {s0 : State} {f : State × β → α → State × β} (l : List α) {s : State × β}
    (h : s0.Keeps s.1) (hf : ∀ t x, s0.Keeps t.1 → s0.Keeps (f t x).1) : s0.Keeps (l.foldl f s).1 := by
  induction l generalizing s with
  | nil => exact h
  | cons x l ih => exact ih (hf s x h)

/-- A property that every step of a fold keeps. -/
theorem foldl_inv {α β : Type} (P : β → Prop) {f : β → α → β} (l : List α) {b : β} (h : P b) (hf : ∀ b x, P b → P (f b x)) :
    P (l.foldl f b) := by
  induction l generalizing b with
  | nil => exact h
  | cons x l ih => exact ih (hf b x h)

theorem State.Keeps.of_eq {s0 a b : State} (e : a = b) (h : s0.Keeps a) : s0.Keeps b := e ▸ h

theorem State.Keeps.of_snd {α : Type} {s0 t : State} {p : α × State} {x : α} (e : p = (x, t)) (h : s0.Keeps p.2) : s0.Keeps t := by
  subst e; exact h

theorem State.Keeps.of_next {s0 a b : State} (e : (Host.Outcome.next a : Res) = .next b) (h : s0.Keeps a) : s0.Keeps b := by
  cases e; exact h

theorem State.Keeps.getD {s0 d : State} {o : Option State} (h : ∀ t, o = some t → s0.Keeps t) (hd : s0.Keeps d) : s0.Keeps (o.getD d) := by
  cases o with
  | none => exact hd
  | some t => exact h t rfl

variable {s0 s : State}

theorem State.setReg_keeps (key v : Nat) (h : s0.Keeps s) : s0.Keeps (s.setReg key v) :=
  ⟨fun h0 => ⟨(h.sound h0).mem, Sparse.sorted_put _ _ (h.sound h0).regs, (h.sound h0).stream, (h.sound h0).log, (h.sound h0).chans⟩,
    h.queue, h.time, h.free⟩

/-- Filtering the registers keeps them sorted. -/
theorem State.filterRegs_keeps (f : Nat × Word → Bool) (h : s0.Keeps s) : s0.Keeps { s with regs := s.regs.filter f } :=
  ⟨fun h0 => ⟨(h.sound h0).mem, Sparse.sorted_filter _ (h.sound h0).regs, (h.sound h0).stream, (h.sound h0).log, (h.sound h0).chans⟩,
    h.queue, h.time, h.free⟩

theorem State.resetRegs_keeps (lo hi : Nat) (h : s0.Keeps s) : s0.Keeps (s.resetRegs lo hi) := State.filterRegs_keeps _ h

/-- A memory that is canonical whenever the old one was. -/
theorem State.mem_keeps (m : List Host.Cell) (hm : Memory.wf s.mem = true → Memory.wf m = true) (h : s0.Keeps s) :
    s0.Keeps { s with mem := m } :=
  ⟨fun h0 => ⟨hm (h.sound h0).mem, (h.sound h0).regs, (h.sound h0).stream, (h.sound h0).log, (h.sound h0).chans⟩,
    h.queue, h.time, h.free⟩

theorem State.wrBytes_keeps (a : Nat) (bs : List Byte) (h : s0.Keeps s) : s0.Keeps (s.wrBytes a bs) :=
  State.mem_keeps _ (Memory.wf_setBytes a bs) h

theorem State.wipe_keeps (lo hi : Nat) (h : s0.Keeps s) : s0.Keeps (s.wipe lo hi) :=
  .upd (State.mem_keeps _ (Memory.wf_dropRange lo hi) h) rfl rfl rfl

theorem State.takeFree_keeps (h : s0.Keeps s) : s0.Keeps s.takeFree.2 :=
  ⟨fun h0 => ⟨(h.sound h0).mem, (h.sound h0).regs, (h.sound h0).stream, (h.sound h0).log, (h.sound h0).chans⟩,
    h.queue, h.time, Nat.le_succ_of_le h.free⟩

theorem State.takeBytes_keeps (n : Nat) (h : s0.Keeps s) : s0.Keeps (s.takeBytes n).2 :=
  ⟨fun h0 => ⟨(h.sound h0).mem, (h.sound h0).regs, (h.sound h0).stream, (h.sound h0).log, (h.sound h0).chans⟩,
    h.queue, h.time, Nat.le_add_right_of_le h.free⟩

theorem State.tick_keeps (n : Nat) (h : s0.Keeps s) : s0.Keeps { s with ticks := s.ticks + n } :=
  ⟨fun h0 => ⟨(h.sound h0).mem, (h.sound h0).regs, (h.sound h0).stream, (h.sound h0).log, (h.sound h0).chans⟩,
    h.queue, Nat.le_add_right_of_le h.time, h.free⟩

theorem State.set_keeps (f : Fld) (v : Nat) (h : s0.Keeps s) : s0.Keeps (s.set f v) := State.setReg_keeps _ _ h

theorem State.elapse_keeps (dt : Nat) (h : s0.Keeps s) : s0.Keeps (s.elapse dt) := by
  have h1 (tile : TileB) : s0.Keeps { s with ticks := s.ticks + dt, tile := tile } :=
    .upd (State.tick_keeps dt h) rfl rfl rfl
  exact .ite (State.set_keeps _ _ (h1 _)) (h1 _)

theorem State.iff_keeps (c : Bool) (f : State → State) (hf : ∀ t, s0.Keeps t → s0.Keeps (f t)) (h : s0.Keeps s) : s0.Keeps (s.iff c f) :=
  .ite (hf _ h) h

theorem State.queue4_keeps (r : Rec4) (h : s0.Keeps s) : s0.Keeps (s.queue4 r) := by
  unfold State.queue4
  split
  · next hl =>
    exact ⟨fun h0 => ⟨(h.sound h0).mem, (h.sound h0).regs, by simp; omega, (h.sound h0).log, (h.sound h0).chans⟩,
      h.queue, h.time, h.free⟩
  · exact State.setReg_keeps _ _ (.upd h rfl rfl rfl)

theorem State.updChan_keeps (c : Nat) (f : Chan → Chan) (h : s0.Keeps s) : s0.Keeps (s.updChan c f) :=
  ⟨fun h0 => ⟨(h.sound h0).mem, (h.sound h0).regs, (h.sound h0).stream, (h.sound h0).log, by simpa [State.updChan] using (h.sound h0).chans⟩,
    h.queue, h.time, h.free⟩

theorem State.Keeps.core_regs {x : State} (f : Nat × Word → Bool) (h : s0.Keeps x) :
    s0.KeepsCore x.ticks (x.regs.filter f) x.mem x.free x.ev.stream x.sbx.log x.port.chans x.pending :=
  State.Keeps.core (State.filterRegs_keeps f h)

theorem State.Keeps.core_mem {x : State} (f : Host.Cell → Bool) (h : s0.Keeps x) :
    s0.KeepsCore x.ticks x.regs (x.mem.filter f) x.free x.ev.stream x.sbx.log x.port.chans x.pending :=
  State.Keeps.core (State.mem_keeps _ (Memory.wf_filter f) h)

theorem State.Keeps.core_bytes {x : State} (a : Nat) (bs : List Byte) (h : s0.Keeps x) :
    s0.KeepsCore x.ticks x.regs (Memory.setBytes x.mem a bs) x.free x.ev.stream x.sbx.log x.port.chans x.pending :=
  State.Keeps.core (State.wrBytes_keeps a bs h)

theorem State.Keeps.core_drop {x : State} (n : Nat) (h : s0.Keeps x) :
    s0.KeepsCore x.ticks x.regs x.mem x.free (x.ev.stream.drop n) x.sbx.log x.port.chans x.pending := by
  intro t h1 h2 h3 h4 h5 h6 h7 h8
  refine ⟨fun h0 => ⟨h3 ▸ (h.sound h0).mem, h2 ▸ (h.sound h0).regs, ?_, h6 ▸ (h.sound h0).log, h7 ▸ (h.sound h0).chans⟩,
    h8.trans h.queue, h1 ▸ h.time, h4 ▸ h.free⟩
  rw [h5, List.length_drop]
  exact le_trans (Nat.sub_le _ _) (h.sound h0).stream

theorem State.Keeps.core_chans {x : State} (f : Chan → Chan) (h : s0.Keeps x) :
    s0.KeepsCore x.ticks x.regs x.mem x.free x.ev.stream x.sbx.log (x.port.chans.map f) x.pending := by
  intro t h1 h2 h3 h4 h5 h6 h7 h8
  refine ⟨fun h0 => ⟨h3 ▸ (h.sound h0).mem, h2 ▸ (h.sound h0).regs, h5 ▸ (h.sound h0).stream, h6 ▸ (h.sound h0).log, ?_⟩,
    h8.trans h.queue, h1 ▸ h.time, h4 ▸ h.free⟩
  rw [h7, List.length_map]
  exact (h.sound h0).chans

end Sys2Proof.Machine
end

