-- ==== Sys2Proof/Laws/KeepsBase.lean ====
section
/-! SUPPORT. What the operations and meanings of Ops, Place, Axle, Holds, Serve, Events, Routers, Slots, Channels, Mailboxes, Faults keep (Laws/Keeps.lean). -/

set_option Elab.async false

namespace Sys2Proof.Machine

set_option linter.unusedTactic false
set_option linter.unreachableTactic false
set_option linter.unusedSimpArgs false

variable {s0 s : State}

/-! ### Machine/Ops.lean -/

theorem State.inc_keeps (f : Fld) (d : Nat) (hs : s0.Keeps s) : s0.Keeps (State.inc s f d) := by
  unfold State.inc
  try dsimp only
  repeat' (first
    | with_reducible assumption
    | with_reducible refine State.Keeps.ite ?_ ?_
    | with_reducible apply State.set_keeps
    | (simp only [State.Keeps.mk_of]; with_reducible refine State.Keeps.core ?_)
    | intro _)

theorem State.setFlag_keeps (f : Fld) (b : Bool) (hs : s0.Keeps s) : s0.Keeps (State.setFlag s f b) := by
  unfold State.setFlag
  try dsimp only
  repeat' (first
    | with_reducible assumption
    | with_reducible refine State.Keeps.ite ?_ ?_
    | with_reducible apply State.set_keeps
    | (simp only [State.Keeps.mk_of]; with_reducible refine State.Keeps.core ?_)
    | intro _)

theorem State.wrNum_keeps (a n v : Nat) (hs : s0.Keeps s) : s0.Keeps (State.wrNum s a n v) := by
  unfold State.wrNum
  try dsimp only
  repeat' (first
    | with_reducible assumption
    | with_reducible refine State.Keeps.ite ?_ ?_
    | with_reducible apply State.wrBytes_keeps
    | (simp only [State.Keeps.mk_of]; with_reducible refine State.Keeps.core ?_)
    | intro _)

theorem State.writeCoded_keeps (key : Nat) (bs : List Byte) (hs : s0.Keeps s) : s0.Keeps (State.writeCoded s key bs) := by
  unfold State.writeCoded
  try dsimp only
  repeat' (first
    | with_reducible assumption
    | with_reducible refine State.Keeps.ite ?_ ?_
    | (simp only [State.Keeps.mk_of]; with_reducible refine State.Keeps.core ?_)
    | (simp only [State.Keeps.mk_of]; with_reducible refine State.Keeps.core_mem _ ?_)
    | (simp only [State.Keeps.mk_of]; with_reducible refine State.Keeps.core_bytes _ _ ?_)
    | intro _
    | dsimp only
    | refine State.Keeps.of_snd (by assumption) ?_)

theorem State.writeRoof_keeps (main side v : Nat) (hs : s0.Keeps s) : s0.Keeps (State.writeRoof s main side v) := by
  unfold State.writeRoof
  try dsimp only
  repeat' (first
    | with_reducible assumption
    | with_reducible refine State.Keeps.ite ?_ ?_
    | with_reducible apply State.wrNum_keeps
    | (simp only [State.Keeps.mk_of]; with_reducible refine State.Keeps.core ?_)
    | intro _)

theorem State.commit_keeps (w : Late) (hs : s0.Keeps s) : s0.Keeps (State.commit s w) := by
  unfold State.commit
  try dsimp only
  repeat' (first
    | with_reducible assumption
    | with_reducible refine State.Keeps.ite ?_ ?_
    | with_reducible apply State.writeCoded_keeps
    | with_reducible apply State.writeRoof_keeps
    | (simp only [State.Keeps.mk_of]; with_reducible refine State.Keeps.core ?_)
    | intro _
    | dsimp only
    | split
    | refine State.Keeps.of_snd (by assumption) ?_)

theorem State.commitRound_keeps (busy : List (Nat × Nat)) (l : List Late) (hs : s0.Keeps s) : s0.Keeps (State.commitRound s busy l).1 := by
  induction l generalizing s busy with
  | nil => exact hs
  | cons w l ih =>
    unfold State.commitRound
    split
    · exact ih _ (State.commit_keeps _ hs)
    · exact ih _ hs

theorem State.setCirc_keeps (n c head tail count : Nat) (hs : s0.Keeps s) : s0.Keeps (State.setCirc s n c head tail count) := by
  unfold State.setCirc
  try dsimp only
  repeat' (first
    | with_reducible assumption
    | with_reducible refine State.Keeps.ite ?_ ?_
    | with_reducible apply State.set_keeps
    | (simp only [State.Keeps.mk_of]; with_reducible refine State.Keeps.core ?_)
    | intro _)

theorem State.emptyCircs_keeps (n : Nat) (hs : s0.Keeps s) : s0.Keeps (State.emptyCircs s n) := by
  unfold State.emptyCircs
  try dsimp only
  repeat' (first
    | with_reducible assumption
    | with_reducible refine State.Keeps.ite ?_ ?_
    | with_reducible apply State.setCirc_keeps
    | (simp only [State.Keeps.mk_of]; with_reducible refine State.Keeps.core ?_)
    | with_reducible refine State.Keeps.foldl _ ?_ ?_
    | with_reducible refine State.Keeps.foldl_snd _ ?_ ?_
    | intro _)

theorem State.circApply_keeps (n c k : Nat) (pop : Bool) (hs : s0.Keeps s) : s0.Keeps (State.circApply s n c k pop) := by
  unfold State.circApply
  try dsimp only
  repeat' (first
    | with_reducible assumption
    | with_reducible refine State.Keeps.ite ?_ ?_
    | with_reducible apply State.setCirc_keeps
    | (simp only [State.Keeps.mk_of]; with_reducible refine State.Keeps.core ?_)
    | intro _)

theorem State.circDecide_keeps (o : CircOp) (hs : s0.Keeps s) : s0.Keeps (State.circDecide s o) := by
  unfold State.circDecide
  try dsimp only
  repeat' (first
    | with_reducible assumption
    | with_reducible refine State.Keeps.ite ?_ ?_
    | with_reducible apply State.set_keeps
    | with_reducible apply State.circApply_keeps
    | (simp only [State.Keeps.mk_of]; with_reducible refine State.Keeps.core ?_)
    | intro _
    | dsimp only
    | split
    | refine State.Keeps.of_snd (by assumption) ?_)

theorem State.endCycle_keeps  (hs : s0.Keeps s) : s0.Keeps (State.endCycle s) := by
  unfold State.endCycle
  try dsimp only
  repeat' (first
    | with_reducible assumption
    | with_reducible refine State.Keeps.ite ?_ ?_
    | with_reducible refine State.Keeps.ite_snd ?_ ?_
    | with_reducible apply State.commitRound_keeps
    | with_reducible apply State.circDecide_keeps
    | (simp only [State.Keeps.mk_of]; with_reducible refine State.Keeps.core ?_)
    | with_reducible refine State.Keeps.foldl _ ?_ ?_
    | with_reducible refine State.Keeps.foldl_snd _ ?_ ?_
    | intro _
    | dsimp only
    | refine State.Keeps.of_snd (by assumption) ?_)

theorem State.endCycles_keeps (n : Nat) (hs : s0.Keeps s) : s0.Keeps (State.endCycles n s) := by
  induction n generalizing s with
  | zero => exact hs
  | succ n ih => exact ih (State.endCycle_keeps hs)

theorem State.cycles_keeps (n : Nat) (hs : s0.Keeps s) : s0.Keeps (State.cycles s n) := by
  unfold State.cycles
  try dsimp only
  repeat' (first
    | with_reducible assumption
    | with_reducible refine State.Keeps.ite ?_ ?_
    | with_reducible apply State.endCycles_keeps
    | (simp only [State.Keeps.mk_of]; with_reducible refine State.Keeps.core ?_)
    | intro _)

theorem State.raise_keeps (num coord a b : Nat) (hs : s0.Keeps s) : s0.Keeps (State.raise s num coord a b) := by
  unfold State.raise
  try dsimp only
  repeat' (first
    | with_reducible assumption
    | with_reducible refine State.Keeps.ite ?_ ?_
    | (simp only [State.Keeps.mk_of]; with_reducible refine State.Keeps.core ?_)
    | intro _
    | dsimp only
    | refine State.Keeps.of_snd (by assumption) ?_)

theorem State.raiseHead_keeps (num a b : Nat) (hs : s0.Keeps s) : s0.Keeps (State.raiseHead s num a b) := by
  unfold State.raiseHead
  try dsimp only
  repeat' (first
    | with_reducible assumption
    | with_reducible refine State.Keeps.ite ?_ ?_
    | with_reducible apply State.raise_keeps
    | (simp only [State.Keeps.mk_of]; with_reducible refine State.Keeps.core ?_)
    | intro _)

theorem State.respond_keeps (opcode cmdId status detail : Nat) (final : Bool) (result : List Byte) (hs : s0.Keeps s) : s0.Keeps (State.respond s opcode cmdId status detail final result) := by
  unfold State.respond
  try dsimp only
  repeat' (first
    | with_reducible assumption
    | with_reducible refine State.Keeps.ite ?_ ?_
    | (simp only [State.Keeps.mk_of]; with_reducible refine State.Keeps.core ?_)
    | intro _
    | dsimp only
    | refine State.Keeps.of_snd (by assumption) ?_)

theorem State.consume_keeps (c n : Nat) (hs : s0.Keeps s) : s0.Keeps (State.consume s c n) := by
  unfold State.consume
  try dsimp only
  repeat' (first
    | with_reducible assumption
    | with_reducible refine State.Keeps.ite ?_ ?_
    | with_reducible apply State.updChan_keeps
    | (simp only [State.Keeps.mk_of]; with_reducible refine State.Keeps.core ?_)
    | intro _
    | split)

/-! ### Machine/Axle.lean -/

theorem State.syncArm_keeps  (hs : s0.Keeps s) : s0.Keeps (State.syncArm s) := by
  unfold State.syncArm
  try dsimp only
  repeat' (first
    | with_reducible assumption
    | with_reducible refine State.Keeps.ite ?_ ?_
    | with_reducible apply State.setFlag_keeps
    | (simp only [State.Keeps.mk_of]; with_reducible refine State.Keeps.core ?_)
    | intro _
    | split)

theorem State.leaveGroup_keeps (why : Nat) (hs : s0.Keeps s) : s0.Keeps (State.leaveGroup s why) := by
  unfold State.leaveGroup
  try dsimp only
  repeat' (first
    | with_reducible assumption
    | with_reducible refine State.Keeps.ite ?_ ?_
    | (simp only [State.Keeps.mk_of]; with_reducible refine State.Keeps.core ?_)
    | intro _)

theorem State.slip_keeps (v at_ : Nat) (hs : s0.Keeps s) : s0.Keeps (State.slip s v at_) := by
  unfold State.slip
  try dsimp only
  repeat' (first
    | with_reducible assumption
    | with_reducible refine State.Keeps.ite ?_ ?_
    | with_reducible apply State.setFlag_keeps
    | with_reducible apply State.raiseHead_keeps
    | with_reducible apply State.leaveGroup_keeps
    | (simp only [State.Keeps.mk_of]; with_reducible refine State.Keeps.core ?_)
    | intro _)

theorem State.lockAxle_keeps  (hs : s0.Keeps s) : s0.Keeps (State.lockAxle s) := by
  unfold State.lockAxle
  try dsimp only
  repeat' (first
    | with_reducible assumption
    | with_reducible refine State.Keeps.ite ?_ ?_
    | with_reducible apply State.set_keeps
    | with_reducible apply State.setFlag_keeps
    | (simp only [State.Keeps.mk_of]; with_reducible refine State.Keeps.core ?_)
    | intro _)

theorem State.holdover_keeps  (hs : s0.Keeps s) : s0.Keeps (State.holdover s) := by
  unfold State.holdover
  try dsimp only
  repeat' (first
    | with_reducible assumption
    | with_reducible refine State.Keeps.ite ?_ ?_
    | with_reducible apply State.set_keeps
    | with_reducible apply State.setFlag_keeps
    | (simp only [State.Keeps.mk_of]; with_reducible refine State.Keeps.core ?_)
    | intro _)

theorem State.slipHoldover_keeps  (hs : s0.Keeps s) : s0.Keeps (State.slipHoldover s) := by
  unfold State.slipHoldover
  try dsimp only
  repeat' (first
    | with_reducible assumption
    | with_reducible refine State.Keeps.ite ?_ ?_
    | with_reducible apply State.slip_keeps
    | with_reducible apply State.holdover_keeps
    | (simp only [State.Keeps.mk_of]; with_reducible refine State.Keeps.core ?_)
    | intro _)

theorem execAxleLockAcquired_keeps {tt : State} (dt : Nat) (ex : execAxleLockAcquired dt s = .next tt) : s.Keeps tt := by
  have hs := State.Keeps.refl s
  unfold execAxleLockAcquired at ex
  try dsimp only at ex
  refine State.Keeps.of_next ex ?_
  clear ex
  repeat' (first
    | with_reducible assumption
    | with_reducible refine State.Keeps.ite ?_ ?_
    | with_reducible apply State.elapse_keeps
    | with_reducible apply State.lockAxle_keeps
    | (simp only [State.Keeps.mk_of]; with_reducible refine State.Keeps.core ?_)
    | intro _)

theorem execAxleHoldoverEntry_keeps {tt : State} (dt : Nat) (ex : execAxleHoldoverEntry dt s = .next tt) : s.Keeps tt := by
  have hs := State.Keeps.refl s
  unfold execAxleHoldoverEntry at ex
  try dsimp only at ex
  refine State.Keeps.of_next ex ?_
  clear ex
  repeat' (first
    | with_reducible assumption
    | with_reducible refine State.Keeps.ite ?_ ?_
    | with_reducible apply State.elapse_keeps
    | with_reducible apply State.raiseHead_keeps
    | with_reducible apply State.holdover_keeps
    | (simp only [State.Keeps.mk_of]; with_reducible refine State.Keeps.core ?_)
    | intro _)

theorem execAxleRefMisalignedEdge_keeps {tt : State} (dt : Nat) (ex : execAxleRefMisalignedEdge dt s = .next tt) : s.Keeps tt := by
  have hs := State.Keeps.refl s
  unfold execAxleRefMisalignedEdge at ex
  try dsimp only at ex
  refine State.Keeps.of_next ex ?_
  clear ex
  repeat' (first
    | with_reducible assumption
    | with_reducible refine State.Keeps.ite ?_ ?_
    | with_reducible apply State.elapse_keeps
    | with_reducible apply State.slipHoldover_keeps
    | (simp only [State.Keeps.mk_of]; with_reducible refine State.Keeps.core ?_)
    | intro _
    | split)

theorem execAxleRefReturn_keeps {tt : State} (dt : Nat) (ex : execAxleRefReturn dt s = .next tt) : s.Keeps tt := by
  have hs := State.Keeps.refl s
  unfold execAxleRefReturn at ex
  try dsimp only at ex
  refine State.Keeps.of_next ex ?_
  clear ex
  repeat' (first
    | with_reducible assumption
    | with_reducible refine State.Keeps.ite ?_ ?_
    | with_reducible apply State.elapse_keeps
    | with_reducible apply State.lockAxle_keeps
    | with_reducible apply State.slipHoldover_keeps
    | (simp only [State.Keeps.mk_of]; with_reducible refine State.Keeps.core ?_)
    | intro _)

theorem execAxleLockTimeout_keeps {tt : State} (dt : Nat) (ex : execAxleLockTimeout dt s = .next tt) : s.Keeps tt := by
  have hs := State.Keeps.refl s
  unfold execAxleLockTimeout at ex
  try dsimp only at ex
  refine State.Keeps.of_next ex ?_
  clear ex
  repeat' (first
    | with_reducible assumption
    | with_reducible refine State.Keeps.ite ?_ ?_
    | with_reducible apply State.elapse_keeps
    | with_reducible apply State.setFlag_keeps
    | with_reducible apply State.raiseHead_keeps
    | with_reducible apply State.holdover_keeps
    | (simp only [State.Keeps.mk_of]; with_reducible refine State.Keeps.core ?_)
    | intro _)

theorem State.loadCount_keeps (v : Nat) (hs : s0.Keeps s) : s0.Keeps (State.loadCount s v) := by
  unfold State.loadCount
  try dsimp only
  repeat' (first
    | with_reducible assumption
    | with_reducible refine State.Keeps.ite ?_ ?_
    | with_reducible apply State.set_keeps
    | with_reducible apply State.setFlag_keeps
    | with_reducible apply State.syncArm_keeps
    | with_reducible apply State.slip_keeps
    | with_reducible apply State.lockAxle_keeps
    | (simp only [State.Keeps.mk_of]; with_reducible refine State.Keeps.core ?_)
    | intro _
    | dsimp only)

theorem State.checkCount_keeps (v : Nat) (hs : s0.Keeps s) : s0.Keeps (State.checkCount s v) := by
  unfold State.checkCount
  try dsimp only
  repeat' (first
    | with_reducible assumption
    | with_reducible refine State.Keeps.ite ?_ ?_
    | with_reducible apply State.inc_keeps
    | with_reducible apply State.syncArm_keeps
    | with_reducible apply State.slip_keeps
    | (simp only [State.Keeps.mk_of]; with_reducible refine State.Keeps.core ?_)
    | intro _)

theorem execIndex_keeps {tt : State} (dt : Nat) (ex : execIndex dt s = .next tt) : s.Keeps tt := by
  have hs := State.Keeps.refl s
  unfold execIndex at ex
  try dsimp only at ex
  refine State.Keeps.of_next ex ?_
  clear ex
  repeat' (first
    | with_reducible assumption
    | with_reducible refine State.Keeps.ite ?_ ?_
    | with_reducible apply State.elapse_keeps
    | with_reducible apply State.inc_keeps
    | with_reducible apply State.loadCount_keeps
    | with_reducible apply State.checkCount_keeps
    | (simp only [State.Keeps.mk_of]; with_reducible refine State.Keeps.core ?_)
    | intro _
    | split)

theorem State.armWrite_keeps  (hs : s0.Keeps s) : s0.Keeps (State.armWrite s) := by
  unfold State.armWrite
  try dsimp only
  repeat' (first
    | with_reducible assumption
    | with_reducible refine State.Keeps.ite ?_ ?_
    | with_reducible apply State.setFlag_keeps
    | with_reducible apply State.syncArm_keeps
    | (simp only [State.Keeps.mk_of]; with_reducible refine State.Keeps.core ?_)
    | intro _
    | dsimp only)

theorem State.disarmWrite_keeps  (hs : s0.Keeps s) : s0.Keeps (State.disarmWrite s) := by
  unfold State.disarmWrite
  try dsimp only
  repeat' (first
    | with_reducible assumption
    | with_reducible refine State.Keeps.ite ?_ ?_
    | with_reducible apply State.syncArm_keeps
    | (simp only [State.Keeps.mk_of]; with_reducible refine State.Keeps.core ?_)
    | intro _
    | dsimp only)

theorem execArmTakesEffect_keeps {tt : State} (dt : Nat) (ex : execArmTakesEffect dt s = .next tt) : s.Keeps tt := by
  have hs := State.Keeps.refl s
  unfold execArmTakesEffect at ex
  try dsimp only at ex
  refine State.Keeps.of_next ex ?_
  clear ex
  repeat' (first
    | with_reducible assumption
    | with_reducible refine State.Keeps.ite ?_ ?_
    | with_reducible apply State.elapse_keeps
    | with_reducible apply State.syncArm_keeps
    | (simp only [State.Keeps.mk_of]; with_reducible refine State.Keeps.core ?_)
    | intro _
    | dsimp only
    | split)

/-! ### Machine/Holds.lean -/

theorem State.sendWave_keeps (raise_ : Bool) (c : Nat) (at_ : Nat) (hs : s0.Keeps s) : s0.Keeps (State.sendWave s raise_ c at_) := by
  unfold State.sendWave
  try dsimp only
  repeat' (first
    | with_reducible assumption
    | with_reducible refine State.Keeps.ite ?_ ?_
    | (simp only [State.Keeps.mk_of]; with_reducible refine State.Keeps.core ?_)
    | with_reducible refine State.Keeps.getD ?_ ?_
    | intro _
    | dsimp only)

theorem State.raiseHoldAt_keeps (at_ c unit : Nat) (via : Option Nat) (hs : s0.Keeps s) : s0.Keeps (State.raiseHoldAt s at_ c unit via) := by
  unfold State.raiseHoldAt
  try dsimp only
  repeat' (first
    | with_reducible assumption
    | with_reducible refine State.Keeps.ite ?_ ?_
    | with_reducible apply State.sendWave_keeps
    | (simp only [State.Keeps.mk_of]; with_reducible refine State.Keeps.core ?_)
    | intro _
    | dsimp only)

theorem State.raiseHold_keeps (c unit : Nat) (via : Option Nat) (hs : s0.Keeps s) : s0.Keeps (State.raiseHold s c unit via) := by
  unfold State.raiseHold
  try dsimp only
  repeat' (first
    | with_reducible assumption
    | with_reducible refine State.Keeps.ite ?_ ?_
    | with_reducible apply State.raiseHoldAt_keeps
    | (simp only [State.Keeps.mk_of]; with_reducible refine State.Keeps.core ?_)
    | intro _)

theorem State.withdrawHolds_keeps (c : Nat) (p : Hold → Bool) (hs : s0.Keeps s) : s0.Keeps (State.withdrawHolds s c p) := by
  unfold State.withdrawHolds
  try dsimp only
  repeat' (first
    | with_reducible assumption
    | with_reducible refine State.Keeps.ite ?_ ?_
    | with_reducible apply State.sendWave_keeps
    | (simp only [State.Keeps.mk_of]; with_reducible refine State.Keeps.core ?_)
    | intro _)

theorem State.withdrawAll_keeps  (hs : s0.Keeps s) : s0.Keeps (State.withdrawAll s) := by
  unfold State.withdrawAll
  try dsimp only
  repeat' (first
    | with_reducible assumption
    | with_reducible refine State.Keeps.ite ?_ ?_
    | with_reducible apply State.withdrawHolds_keeps
    | (simp only [State.Keeps.mk_of]; with_reducible refine State.Keeps.core ?_)
    | with_reducible refine State.Keeps.foldl _ ?_ ?_
    | with_reducible refine State.Keeps.foldl_snd _ ?_ ?_
    | intro _)

theorem State.syncPhase_keeps  (hs : s0.Keeps s) : s0.Keeps (State.syncPhase s) := by
  unfold State.syncPhase
  try dsimp only
  repeat' (first
    | with_reducible assumption
    | with_reducible refine State.Keeps.ite ?_ ?_
    | with_reducible apply State.set_keeps
    | (simp only [State.Keeps.mk_of]; with_reducible refine State.Keeps.core ?_)
    | intro _)

theorem execHostHoldRaise_keeps {tt : State} (dt : Nat) (ex : execHostHoldRaise dt s = .next tt) : s.Keeps tt := by
  have hs := State.Keeps.refl s
  unfold execHostHoldRaise at ex
  try dsimp only at ex
  refine State.Keeps.of_next ex ?_
  clear ex
  repeat' (first
    | with_reducible assumption
    | with_reducible refine State.Keeps.ite ?_ ?_
    | with_reducible apply State.elapse_keeps
    | with_reducible apply State.raiseHold_keeps
    | (simp only [State.Keeps.mk_of]; with_reducible refine State.Keeps.core ?_)
    | intro _
    | split)

theorem execHostHoldWithdraw_keeps {tt : State} (dt : Nat) (ex : execHostHoldWithdraw dt s = .next tt) : s.Keeps tt := by
  have hs := State.Keeps.refl s
  unfold execHostHoldWithdraw at ex
  try dsimp only at ex
  refine State.Keeps.of_next ex ?_
  clear ex
  repeat' (first
    | with_reducible assumption
    | with_reducible refine State.Keeps.ite ?_ ?_
    | with_reducible apply State.elapse_keeps
    | with_reducible apply State.withdrawHolds_keeps
    | (simp only [State.Keeps.mk_of]; with_reducible refine State.Keeps.core ?_)
    | intro _
    | split)

/-! ### Machine/Serve.lean -/

theorem State.mapReqs_keeps (p : Req → Bool) (f : Req → Req) (hs : s0.Keeps s) : s0.Keeps (State.mapReqs s p f) := by
  unfold State.mapReqs
  try dsimp only
  repeat' (first
    | with_reducible assumption
    | with_reducible refine State.Keeps.ite ?_ ?_
    | (simp only [State.Keeps.mk_of]; with_reducible refine State.Keeps.core ?_)
    | intro _)

theorem State.updReq_keeps (id : Nat) (f : Req → Req) (hs : s0.Keeps s) : s0.Keeps (State.updReq s id f) := by
  unfold State.updReq
  try dsimp only
  repeat' (first
    | with_reducible assumption
    | with_reducible refine State.Keeps.ite ?_ ?_
    | with_reducible apply State.mapReqs_keeps
    | (simp only [State.Keeps.mk_of]; with_reducible refine State.Keeps.core ?_)
    | intro _)

theorem State.setServ_keeps (f : ServB → ServB) (hs : s0.Keeps s) : s0.Keeps (State.setServ s f) := by
  unfold State.setServ
  try dsimp only
  repeat' (first
    | with_reducible assumption
    | with_reducible refine State.Keeps.ite ?_ ?_
    | (simp only [State.Keeps.mk_of]; with_reducible refine State.Keeps.core ?_)
    | intro _)

theorem State.wrRegion_keeps (t off mirror : Nat) (bs : List Byte) (hs : s0.Keeps s) : s0.Keeps (State.wrRegion s t off mirror bs) := by
  unfold State.wrRegion
  try dsimp only
  repeat' (first
    | with_reducible assumption
    | with_reducible refine State.Keeps.ite ?_ ?_
    | with_reducible apply State.wrBytes_keeps
    | (simp only [State.Keeps.mk_of]; with_reducible refine State.Keeps.core ?_)
    | intro _)

theorem State.wrSlot_keeps (r : Req) (byte : Nat) (bs : List Byte) (hs : s0.Keeps s) : s0.Keeps (State.wrSlot s r byte bs) := by
  unfold State.wrSlot
  try dsimp only
  repeat' (first
    | with_reducible assumption
    | with_reducible refine State.Keeps.ite ?_ ?_
    | with_reducible apply State.wrRegion_keeps
    | (simp only [State.Keeps.mk_of]; with_reducible refine State.Keeps.core ?_)
    | intro _)

theorem State.wrTokens_keeps (r : Req) (b k : Nat) (ts : List Nat) (hs : s0.Keeps s) : s0.Keeps (State.wrTokens s r b k ts) := by
  unfold State.wrTokens
  try dsimp only
  repeat' (first
    | with_reducible assumption
    | with_reducible refine State.Keeps.ite ?_ ?_
    | with_reducible apply State.wrRegion_keeps
    | (simp only [State.Keeps.mk_of]; with_reducible refine State.Keeps.core ?_)
    | intro _)

theorem State.allocBlocks_keeps {tt : State} {zz : Nat} {t len : Nat} (e : State.allocBlocks s t len = some (zz, tt)) (hs : s0.Keeps s) : s0.Keeps tt := by
  unfold State.allocBlocks at e
  try dsimp only at e
  repeat' (first
    | (cases e; done)
    | (injection e with e; injection e with e1 e; subst e)
    | split at e)
  all_goals repeat' (first
    | with_reducible assumption
    | with_reducible refine State.Keeps.ite ?_ ?_
    | with_reducible refine State.Keeps.ite_snd ?_ ?_
    | with_reducible apply State.setServ_keeps
    | (simp only [State.Keeps.mk_of]; with_reducible refine State.Keeps.core ?_)
    | with_reducible refine State.Keeps.getD ?_ ?_
    | intro _
    | dsimp only
    | split
    | refine State.Keeps.of_snd (by assumption) ?_)

theorem State.produce_keeps (ring kind code tag value pos : Nat) (slot : Bool) (hs : s0.Keeps s) : s0.Keeps (State.produce s ring kind code tag value pos slot) := by
  unfold State.produce
  try dsimp only
  repeat' (first
    | with_reducible assumption
    | with_reducible refine State.Keeps.ite ?_ ?_
    | with_reducible apply State.set_keeps
    | with_reducible apply State.setServ_keeps
    | with_reducible apply State.wrRegion_keeps
    | (simp only [State.Keeps.mk_of]; with_reducible refine State.Keeps.core ?_)
    | intro _
    | dsimp only
    | refine State.Keeps.of_snd (by assumption) ?_)

theorem State.refuse_keeps (ring code tag : Nat) (hs : s0.Keeps s) : s0.Keeps (State.refuse s ring code tag) := by
  unfold State.refuse
  try dsimp only
  repeat' (first
    | with_reducible assumption
    | with_reducible refine State.Keeps.ite ?_ ?_
    | with_reducible apply State.inc_keeps
    | with_reducible apply State.produce_keeps
    | (simp only [State.Keeps.mk_of]; with_reducible refine State.Keeps.core ?_)
    | intro _)

theorem State.setLevel_keeps (t : Nat) (l : Int) (hs : s0.Keeps s) : s0.Keeps (State.setLevel s t l) := by
  unfold State.setLevel
  try dsimp only
  repeat' (first
    | with_reducible assumption
    | with_reducible refine State.Keeps.ite ?_ ?_
    | with_reducible apply State.set_keeps
    | (simp only [State.Keeps.mk_of]; with_reducible refine State.Keeps.core ?_)
    | intro _)

theorem State.charge_keeps (t u : Nat) (hs : s0.Keeps s) : s0.Keeps (State.charge s t u) := by
  unfold State.charge
  try dsimp only
  repeat' (first
    | with_reducible assumption
    | with_reducible refine State.Keeps.ite ?_ ?_
    | with_reducible apply State.setLevel_keeps
    | (simp only [State.Keeps.mk_of]; with_reducible refine State.Keeps.core ?_)
    | intro _)

theorem State.dropRefs_keeps (ids : List Nat) (hs : s0.Keeps s) : s0.Keeps (State.dropRefs s ids) := by
  unfold State.dropRefs
  try dsimp only
  repeat' (first
    | with_reducible assumption
    | with_reducible refine State.Keeps.ite ?_ ?_
    | with_reducible apply State.setServ_keeps
    | (simp only [State.Keeps.mk_of]; with_reducible refine State.Keeps.core ?_)
    | with_reducible refine State.Keeps.getD ?_ ?_
    | intro _
    | dsimp only
    | refine State.Keeps.of_snd (by assumption) ?_)

theorem State.syncNodes_keeps  (hs : s0.Keeps s) : s0.Keeps (State.syncNodes s) := by
  unfold State.syncNodes
  try dsimp only
  repeat' (first
    | with_reducible assumption
    | with_reducible refine State.Keeps.ite ?_ ?_
    | with_reducible apply State.set_keeps
    | (simp only [State.Keeps.mk_of]; with_reducible refine State.Keeps.core ?_)
    | intro _)

theorem State.syncEligible_keeps  (hs : s0.Keeps s) : s0.Keeps (State.syncEligible s) := by
  unfold State.syncEligible
  try dsimp only
  repeat' (first
    | with_reducible assumption
    | with_reducible refine State.Keeps.ite ?_ ?_
    | with_reducible apply State.setServ_keeps
    | (simp only [State.Keeps.mk_of]; with_reducible refine State.Keeps.core ?_)
    | intro _
    | split)

theorem State.forget_keeps (id : Nat) (hs : s0.Keeps s) : s0.Keeps (State.forget s id) := by
  unfold State.forget
  try dsimp only
  repeat' (first
    | with_reducible assumption
    | with_reducible refine State.Keeps.ite ?_ ?_
    | with_reducible apply State.setServ_keeps
    | with_reducible apply State.dropRefs_keeps
    | with_reducible apply State.syncNodes_keeps
    | with_reducible apply State.syncEligible_keeps
    | (simp only [State.Keeps.mk_of]; with_reducible refine State.Keeps.core ?_)
    | intro _
    | dsimp only
    | split
    | refine State.Keeps.of_snd (by assumption) ?_)

theorem State.unqueue_keeps (id : Nat) (hs : s0.Keeps s) : s0.Keeps (State.unqueue s id) := by
  unfold State.unqueue
  try dsimp only
  repeat' (first
    | with_reducible assumption
    | with_reducible refine State.Keeps.ite ?_ ?_
    | with_reducible apply State.setServ_keeps
    | (simp only [State.Keeps.mk_of]; with_reducible refine State.Keeps.core ?_)
    | intro _
    | dsimp only
    | refine State.Keeps.of_snd (by assumption) ?_)

theorem State.freeSlot_keeps (r : Req) (hs : s0.Keeps s) : s0.Keeps (State.freeSlot s r) := by
  unfold State.freeSlot
  try dsimp only
  repeat' (first
    | with_reducible assumption
    | with_reducible refine State.Keeps.ite ?_ ?_
    | with_reducible apply State.wrSlot_keeps
    | (simp only [State.Keeps.mk_of]; with_reducible refine State.Keeps.core ?_)
    | intro _)

theorem State.endReq_keeps (id code : Nat) (hs : s0.Keeps s) : s0.Keeps (State.endReq s id code) := by
  unfold State.endReq
  try dsimp only
  repeat' (first
    | with_reducible assumption
    | with_reducible refine State.Keeps.ite ?_ ?_
    | with_reducible apply State.updReq_keeps
    | with_reducible apply State.produce_keeps
    | with_reducible apply State.syncEligible_keeps
    | with_reducible apply State.unqueue_keeps
    | with_reducible apply State.freeSlot_keeps
    | (simp only [State.Keeps.mk_of]; with_reducible refine State.Keeps.core ?_)
    | intro _
    | dsimp only
    | split
    | refine State.Keeps.of_snd (by assumption) ?_)

theorem State.endAdmitted_keeps (code : Nat) (hs : s0.Keeps s) : s0.Keeps (State.endAdmitted s code) := by
  unfold State.endAdmitted
  try dsimp only
  repeat' (first
    | with_reducible assumption
    | with_reducible refine State.Keeps.ite ?_ ?_
    | with_reducible apply State.setFlag_keeps
    | with_reducible apply State.setServ_keeps
    | with_reducible apply State.forget_keeps
    | with_reducible apply State.freeSlot_keeps
    | with_reducible apply State.endReq_keeps
    | (simp only [State.Keeps.mk_of]; with_reducible refine State.Keeps.core ?_)
    | with_reducible refine State.Keeps.foldl _ ?_ ?_
    | with_reducible refine State.Keeps.foldl_snd _ ?_ ?_
    | intro _
    | dsimp only
    | split
    | refine State.Keeps.of_snd (by assumption) ?_)

theorem State.wrCopy_keeps (a len : Nat) (bs : List Byte) (hs : s0.Keeps s) : s0.Keeps (State.wrCopy s a len bs) := by
  unfold State.wrCopy
  try dsimp only
  repeat' (first
    | with_reducible assumption
    | with_reducible refine State.Keeps.ite ?_ ?_
    | with_reducible apply State.wrNum_keeps
    | with_reducible apply State.writeCoded_keeps
    | with_reducible apply State.setServ_keeps
    | (simp only [State.Keeps.mk_of]; with_reducible refine State.Keeps.core ?_)
    | intro _
    | dsimp only
    | refine State.Keeps.of_snd (by assumption) ?_)

theorem State.wrWord_keeps (g c j p w : Nat) (hs : s0.Keeps s) : s0.Keeps (State.wrWord s g c j p w) := by
  unfold State.wrWord
  try dsimp only
  repeat' (first
    | with_reducible assumption
    | with_reducible refine State.Keeps.ite ?_ ?_
    | with_reducible apply State.wrCopy_keeps
    | (simp only [State.Keeps.mk_of]; with_reducible refine State.Keeps.core ?_)
    | intro _
    | split)

theorem State.wrEntry_keeps (g c j : Nat) (k : KvSet) (hs : s0.Keeps s) : s0.Keeps (State.wrEntry s g c j k) := by
  unfold State.wrEntry
  try dsimp only
  repeat' (first
    | with_reducible assumption
    | with_reducible refine State.Keeps.ite ?_ ?_
    | with_reducible apply State.wrWord_keeps
    | (simp only [State.Keeps.mk_of]; with_reducible refine State.Keeps.core ?_)
    | intro _)

theorem State.wrLane_keeps (g c j : Nat) (n nodes epoch parent : Nat) (carry : List Nat) (hs : s0.Keeps s) : s0.Keeps (State.wrLane s g c j n nodes epoch parent carry) := by
  unfold State.wrLane
  try dsimp only
  repeat' (first
    | with_reducible assumption
    | with_reducible refine State.Keeps.ite ?_ ?_
    | with_reducible apply State.wrCopy_keeps
    | (simp only [State.Keeps.mk_of]; with_reducible refine State.Keeps.core ?_)
    | with_reducible refine State.Keeps.foldl _ ?_ ?_
    | with_reducible refine State.Keeps.foldl_snd _ ?_ ?_
    | with_reducible refine State.Keeps.getD ?_ ?_
    | intro _
    | dsimp only
    | split
    | refine State.Keeps.of_snd (by assumption) ?_)

theorem State.flipTables_keeps  (hs : s0.Keeps s) : s0.Keeps (State.flipTables s) := by
  unfold State.flipTables
  try dsimp only
  repeat' (first
    | with_reducible assumption
    | with_reducible refine State.Keeps.ite ?_ ?_
    | with_reducible refine State.Keeps.ite_snd ?_ ?_
    | with_reducible apply State.wrNum_keeps
    | with_reducible apply State.setServ_keeps
    | (simp only [State.Keeps.mk_of]; with_reducible refine State.Keeps.core ?_)
    | with_reducible refine State.Keeps.foldl _ ?_ ?_
    | with_reducible refine State.Keeps.foldl_snd _ ?_ ?_
    | intro _
    | dsimp only)

theorem State.allocPool_keeps {tt : State} {zz : Nat} {g : Nat} (e : State.allocPool s g = some (zz, tt)) (hs : s0.Keeps s) : s0.Keeps tt := by
  unfold State.allocPool at e
  try dsimp only at e
  repeat' (first
    | (cases e; done)
    | (injection e with e; injection e with e1 e; subst e)
    | split at e)
  all_goals repeat' (first
    | with_reducible assumption
    | with_reducible refine State.Keeps.ite ?_ ?_
    | with_reducible refine State.Keeps.ite_snd ?_ ?_
    | with_reducible apply State.setServ_keeps
    | (simp only [State.Keeps.mk_of]; with_reducible refine State.Keeps.core ?_)
    | with_reducible refine State.Keeps.getD ?_ ?_
    | intro _
    | dsimp only
    | split
    | refine State.Keeps.of_snd (by assumption) ?_)

theorem State.allocTow_keeps {tt : State} {zz : Nat} {g : Nat} (e : State.allocTow s g = some (zz, tt)) (hs : s0.Keeps s) : s0.Keeps tt := by
  unfold State.allocTow at e
  try dsimp only at e
  repeat' (first
    | (cases e; done)
    | (injection e with e; injection e with e1 e; subst e)
    | split at e)
  all_goals repeat' (first
    | with_reducible assumption
    | with_reducible refine State.Keeps.ite ?_ ?_
    | with_reducible refine State.Keeps.ite_snd ?_ ?_
    | with_reducible apply State.setServ_keeps
    | (simp only [State.Keeps.mk_of]; with_reducible refine State.Keeps.core ?_)
    | with_reducible refine State.Keeps.getD ?_ ?_
    | intro _
    | dsimp only
    | split
    | refine State.Keeps.of_snd (by assumption) ?_)

/-! ### Machine/Events.lean -/

theorem State.logRecord_keeps (r : Rec4) (h : s0.Keeps s) : s0.Keeps (s.logRecord r) :=
  ⟨fun h0 => ⟨(h.sound h0).mem, (h.sound h0).regs, (h.sound h0).stream, by simp [State.logRecord], (h.sound h0).chans⟩,
    h.queue, h.time, h.free⟩

theorem State.arrive_keeps (e : EvRec) (hs : s0.Keeps s) : s0.Keeps (State.arrive s e) := by
  unfold State.arrive
  try dsimp only
  repeat' (first
    | with_reducible assumption
    | with_reducible refine State.Keeps.ite ?_ ?_
    | with_reducible apply State.inc_keeps
    | with_reducible apply State.setFlag_keeps
    | with_reducible apply State.logRecord_keeps
    | (simp only [State.Keeps.mk_of]; with_reducible refine State.Keeps.core ?_)
    | intro _
    | dsimp only)

theorem execEventArrival_keeps {tt : State} (dt i : Nat) (ex : execEventArrival dt i s = .next tt) : s.Keeps tt := by
  have hs := State.Keeps.refl s
  unfold execEventArrival at ex
  try dsimp only at ex
  refine State.Keeps.of_next ex ?_
  clear ex
  repeat' (first
    | with_reducible assumption
    | with_reducible refine State.Keeps.ite ?_ ?_
    | with_reducible apply State.elapse_keeps
    | with_reducible apply State.arrive_keeps
    | (simp only [State.Keeps.mk_of]; with_reducible refine State.Keeps.core ?_)
    | intro _
    | split)

theorem execEventRecordPacket_keeps {tt : State} (dt i : Nat) (ex : execEventRecordPacket dt i s = .next tt) : s.Keeps tt := by
  have hs := State.Keeps.refl s
  unfold execEventRecordPacket at ex
  try dsimp only at ex
  refine State.Keeps.of_next ex ?_
  clear ex
  repeat' (first
    | with_reducible assumption
    | with_reducible refine State.Keeps.ite ?_ ?_
    | with_reducible apply State.elapse_keeps
    | with_reducible apply State.arrive_keeps
    | (simp only [State.Keeps.mk_of]; with_reducible refine State.Keeps.core ?_)
    | intro _
    | split)

theorem execEventSelect_keeps {tt : State} (dt g : Nat) (ex : execEventSelect dt g s = .next tt) : s.Keeps tt := by
  have hs := State.Keeps.refl s
  unfold execEventSelect at ex
  try dsimp only at ex
  refine State.Keeps.of_next ex ?_
  clear ex
  repeat' (first
    | with_reducible assumption
    | with_reducible refine State.Keeps.ite ?_ ?_
    | with_reducible apply State.elapse_keeps
    | (simp only [State.Keeps.mk_of]; with_reducible refine State.Keeps.core ?_)
    | intro _
    | dsimp only
    | split)

theorem execEventDeliver_keeps {tt : State} (dt g : Nat) (ex : execEventDeliver dt g s = .next tt) : s.Keeps tt := by
  have hs := State.Keeps.refl s
  unfold execEventDeliver at ex
  try dsimp only at ex
  refine State.Keeps.of_next ex ?_
  clear ex
  repeat' (first
    | with_reducible assumption
    | with_reducible refine State.Keeps.ite ?_ ?_
    | with_reducible refine State.Keeps.ite_snd ?_ ?_
    | with_reducible apply State.elapse_keeps
    | with_reducible apply State.set_keeps
    | with_reducible apply State.setFlag_keeps
    | (simp only [State.Keeps.mk_of]; with_reducible refine State.Keeps.core ?_)
    | intro _
    | dsimp only
    | split)

theorem execGuardEndOfService_keeps {tt : State} (dt g : Nat) (ex : execGuardEndOfService dt g s = .next tt) : s.Keeps tt := by
  have hs := State.Keeps.refl s
  unfold execGuardEndOfService at ex
  try dsimp only at ex
  refine State.Keeps.of_next ex ?_
  clear ex
  repeat' (first
    | with_reducible assumption
    | with_reducible refine State.Keeps.ite ?_ ?_
    | with_reducible apply State.elapse_keeps
    | with_reducible apply State.set_keeps
    | with_reducible apply State.setFlag_keeps
    | (simp only [State.Keeps.mk_of]; with_reducible refine State.Keeps.core ?_)
    | intro _)

theorem execGuardMaskWrite_keeps {tt : State} (dt g n : Nat) (m : Bool) (ex : execGuardMaskWrite dt g n m s = .next tt) : s.Keeps tt := by
  have hs := State.Keeps.refl s
  unfold execGuardMaskWrite at ex
  try dsimp only at ex
  refine State.Keeps.of_next ex ?_
  clear ex
  repeat' (first
    | with_reducible assumption
    | with_reducible refine State.Keeps.ite ?_ ?_
    | with_reducible apply State.elapse_keeps
    | with_reducible apply State.setFlag_keeps
    | (simp only [State.Keeps.mk_of]; with_reducible refine State.Keeps.core ?_)
    | intro _
    | split)

theorem execGlobalDisableWrite_keeps {tt : State} (dt : Nat) (b : Bool) (ex : execGlobalDisableWrite dt b s = .next tt) : s.Keeps tt := by
  have hs := State.Keeps.refl s
  unfold execGlobalDisableWrite at ex
  try dsimp only at ex
  refine State.Keeps.of_next ex ?_
  clear ex
  repeat' (first
    | with_reducible assumption
    | with_reducible refine State.Keeps.ite ?_ ?_
    | with_reducible apply State.elapse_keeps
    | with_reducible apply State.setFlag_keeps
    | (simp only [State.Keeps.mk_of]; with_reducible refine State.Keeps.core ?_)
    | intro _
    | split)

theorem execEventRecordEmit_keeps {tt : State} (dt : Nat) (ex : execEventRecordEmit dt s = .next tt) : s.Keeps tt := by
  have hs := State.Keeps.refl s
  unfold execEventRecordEmit at ex
  try dsimp only at ex
  refine State.Keeps.of_next ex ?_
  clear ex
  repeat' (first
    | with_reducible assumption
    | with_reducible refine State.Keeps.ite ?_ ?_
    | with_reducible apply State.elapse_keeps
    | with_reducible apply State.queue4_keeps
    | (simp only [State.Keeps.mk_of]; with_reducible refine State.Keeps.core ?_)
    | with_reducible refine State.Keeps.foldl _ ?_ ?_
    | with_reducible refine State.Keeps.foldl_snd _ ?_ ?_
    | intro _
    | split)

theorem State.sendLoss_keeps (h : s0.Keeps s) : s0.Keeps s.sendLoss := by
  unfold State.sendLoss
  refine State.Keeps.foldl _ h fun t p ht => ?_
  split
  · next hl =>
    exact ⟨fun h0 => ⟨(ht.sound h0).mem, (ht.sound h0).regs, by simp; omega, (ht.sound h0).log, (ht.sound h0).chans⟩,
      ht.queue, ht.time, ht.free⟩
  · exact ht

theorem execStreamRoomReturns_keeps {tt : State} (dt : Nat) (ex : execStreamRoomReturns dt s = .next tt) : s.Keeps tt := by
  have hs := State.Keeps.refl s
  unfold execStreamRoomReturns at ex
  try dsimp only at ex
  refine State.Keeps.of_next ex ?_
  clear ex
  repeat' (first
    | with_reducible assumption
    | with_reducible refine State.Keeps.ite ?_ ?_
    | with_reducible apply State.elapse_keeps
    | with_reducible apply State.sendLoss_keeps
    | (simp only [State.Keeps.mk_of]; with_reducible refine State.Keeps.core ?_)
    | intro _)

theorem execProgressRecord_keeps {tt : State} (dt : Nat) (ex : execProgressRecord dt s = .next tt) : s.Keeps tt := by
  have hs := State.Keeps.refl s
  unfold execProgressRecord at ex
  try dsimp only at ex
  refine State.Keeps.of_next ex ?_
  clear ex
  repeat' (first
    | with_reducible assumption
    | with_reducible refine State.Keeps.ite ?_ ?_
    | with_reducible apply State.elapse_keeps
    | with_reducible apply State.queue4_keeps
    | (simp only [State.Keeps.mk_of]; with_reducible refine State.Keeps.core ?_)
    | intro _
    | dsimp only
    | split)

/-! ### Machine/Routers.lean -/

theorem State.discard_keeps (n : Nat) (p : Packet) (hs : s0.Keeps s) : s0.Keeps (State.discard s n p) := by
  unfold State.discard
  try dsimp only
  repeat' (first
    | with_reducible assumption
    | with_reducible refine State.Keeps.ite ?_ ?_
    | with_reducible apply State.inc_keeps
    | with_reducible apply State.raise_keeps
    | (simp only [State.Keeps.mk_of]; with_reducible refine State.Keeps.core ?_)
    | intro _)

theorem State.setMeshLink_keeps (n port : Nat) (l : Link) (hs : s0.Keeps s) : s0.Keeps (State.setMeshLink s n port l) := by
  unfold State.setMeshLink
  try dsimp only
  repeat' (first
    | with_reducible assumption
    | with_reducible refine State.Keeps.ite ?_ ?_
    | (simp only [State.Keeps.mk_of]; with_reducible refine State.Keeps.core ?_)
    | intro _)

theorem State.setBuf_keeps (key : Nat) (l : List BufFlit) (hs : s0.Keeps s) : s0.Keeps (State.setBuf s key l) := by
  unfold State.setBuf
  try dsimp only
  repeat' (first
    | with_reducible assumption
    | with_reducible refine State.Keeps.ite ?_ ?_
    | (simp only [State.Keeps.mk_of]; with_reducible refine State.Keeps.core ?_)
    | intro _)

theorem State.setOut_keeps (node o : Nat) (x : OutPort) (hs : s0.Keeps s) : s0.Keeps (State.setOut s node o x) := by
  unfold State.setOut
  try dsimp only
  repeat' (first
    | with_reducible assumption
    | with_reducible refine State.Keeps.ite ?_ ?_
    | (simp only [State.Keeps.mk_of]; with_reducible refine State.Keeps.core ?_)
    | intro _)

theorem State.sendFlit_keeps (node o : Nat) (data : Option Nat) (hs : s0.Keeps s) : s0.Keeps (State.sendFlit s node o data) := by
  unfold State.sendFlit
  try dsimp only
  repeat' (first
    | with_reducible assumption
    | with_reducible refine State.Keeps.ite ?_ ?_
    | with_reducible apply State.setMeshLink_keeps
    | (simp only [State.Keeps.mk_of]; with_reducible refine State.Keeps.core ?_)
    | with_reducible refine State.Keeps.getD ?_ ?_
    | intro _
    | dsimp only
    | split)

theorem State.takeFlit_keeps (node vcc flit : Nat) (hs : s0.Keeps s) : s0.Keeps (State.takeFlit s node vcc flit) := by
  unfold State.takeFlit
  try dsimp only
  repeat' (first
    | with_reducible assumption
    | with_reducible refine State.Keeps.ite ?_ ?_
    | (simp only [State.Keeps.mk_of]; with_reducible refine State.Keeps.core ?_)
    | with_reducible refine State.Keeps.getD ?_ ?_
    | intro _
    | split)

theorem State.oweCredit_keeps (node port vcc : Nat) (hs : s0.Keeps s) : s0.Keeps (State.oweCredit s node port vcc) := by
  unfold State.oweCredit
  try dsimp only
  repeat' (first
    | with_reducible assumption
    | with_reducible refine State.Keeps.ite ?_ ?_
    | with_reducible apply State.setMeshLink_keeps
    | (simp only [State.Keeps.mk_of]; with_reducible refine State.Keeps.core ?_)
    | intro _)

theorem State.passFlit_keeps (node o : Nat) (c : Claim) (hs : s0.Keeps s) : s0.Keeps (State.passFlit s node o c) := by
  unfold State.passFlit
  try dsimp only
  repeat' (first
    | with_reducible assumption
    | with_reducible refine State.Keeps.ite ?_ ?_
    | with_reducible apply State.setBuf_keeps
    | with_reducible apply State.setOut_keeps
    | with_reducible apply State.sendFlit_keeps
    | with_reducible apply State.takeFlit_keeps
    | with_reducible apply State.oweCredit_keeps
    | (simp only [State.Keeps.mk_of]; with_reducible refine State.Keeps.core ?_)
    | intro _
    | dsimp only
    | split)

theorem State.noteWaits_keeps (node o : Nat) (g : Option Claim) (hs : s0.Keeps s) : s0.Keeps (State.noteWaits s node o g) := by
  unfold State.noteWaits
  try dsimp only
  repeat' (first
    | with_reducible assumption
    | with_reducible refine State.Keeps.ite ?_ ?_
    | with_reducible refine State.Keeps.ite_snd ?_ ?_
    | with_reducible apply State.setBuf_keeps
    | (simp only [State.Keeps.mk_of]; with_reducible refine State.Keeps.core ?_)
    | with_reducible refine State.Keeps.foldl _ ?_ ?_
    | with_reducible refine State.Keeps.foldl_snd _ ?_ ?_
    | intro _
    | dsimp only
    | split)

theorem State.routerCycle_keeps (node : Nat) (hs : s0.Keeps s) : s0.Keeps (State.routerCycle s node) := by
  unfold State.routerCycle
  try dsimp only
  repeat' (first
    | with_reducible assumption
    | with_reducible refine State.Keeps.ite ?_ ?_
    | with_reducible refine State.Keeps.ite_snd ?_ ?_
    | with_reducible apply State.sendFlit_keeps
    | with_reducible apply State.passFlit_keeps
    | with_reducible apply State.noteWaits_keeps
    | (simp only [State.Keeps.mk_of]; with_reducible refine State.Keeps.core ?_)
    | with_reducible refine State.Keeps.foldl _ ?_ ?_
    | with_reducible refine State.Keeps.foldl_snd _ ?_ ?_
    | intro _
    | dsimp only
    | split)

theorem State.routeCycles_keeps (n : Nat) (hs : s0.Keeps s) : s0.Keeps (State.routeCycles n s) := by
  induction n generalizing s with
  | zero => exact hs
  | succ n ih => exact ih (.upd (State.Keeps.foldl _ hs fun t x ht => State.routerCycle_keeps _ ht) rfl rfl rfl)

theorem State.route_keeps  (hs : s0.Keeps s) : s0.Keeps (State.route s) := by
  unfold State.route
  try dsimp only
  repeat' (first
    | with_reducible assumption
    | with_reducible refine State.Keeps.ite ?_ ?_
    | with_reducible refine State.Keeps.ite_snd ?_ ?_
    | with_reducible apply State.routeCycles_keeps
    | (simp only [State.Keeps.mk_of]; with_reducible refine State.Keeps.core ?_)
    | intro _
    | dsimp only)

theorem State.enter_keeps (node port flit : Nat) (ports : Option Nat) (hs : s0.Keeps s) : s0.Keeps (State.enter s node port flit ports) := by
  unfold State.enter
  try dsimp only
  repeat' (first
    | with_reducible assumption
    | with_reducible refine State.Keeps.ite ?_ ?_
    | with_reducible refine State.Keeps.ite_snd ?_ ?_
    | with_reducible apply State.iff_keeps
    | with_reducible apply State.discard_keeps
    | with_reducible apply State.setBuf_keeps
    | with_reducible apply State.oweCredit_keeps
    | with_reducible apply State.route_keeps
    | (simp only [State.Keeps.mk_of]; with_reducible refine State.Keeps.core ?_)
    | with_reducible refine State.Keeps.getD ?_ ?_
    | intro _
    | dsimp only
    | split)

theorem State.sendLocal_keeps (node flit : Nat) (hs : s0.Keeps s) : s0.Keeps (State.sendLocal s node flit) := by
  unfold State.sendLocal
  try dsimp only
  repeat' (first
    | with_reducible assumption
    | with_reducible refine State.Keeps.ite ?_ ?_
    | with_reducible apply State.enter_keeps
    | (simp only [State.Keeps.mk_of]; with_reducible refine State.Keeps.core ?_)
    | intro _
    | dsimp only
    | split)

theorem State.resendFrom_keeps (n port seq : Nat) (hs : s0.Keeps s) : s0.Keeps (State.resendFrom s n port seq) := by
  unfold State.resendFrom
  try dsimp only
  repeat' (first
    | with_reducible assumption
    | with_reducible refine State.Keeps.ite ?_ ?_
    | with_reducible refine State.Keeps.ite_snd ?_ ?_
    | with_reducible apply State.inc_keeps
    | with_reducible apply State.setMeshLink_keeps
    | (simp only [State.Keeps.mk_of]; with_reducible refine State.Keeps.core ?_)
    | intro _
    | dsimp only
    | split)

theorem State.dropFlits_keeps  (hs : s0.Keeps s) : s0.Keeps (State.dropFlits s) := by
  unfold State.dropFlits
  try dsimp only
  repeat' (first
    | with_reducible assumption
    | with_reducible refine State.Keeps.ite ?_ ?_
    | with_reducible refine State.Keeps.ite_snd ?_ ?_
    | (simp only [State.Keeps.mk_of]; with_reducible refine State.Keeps.core ?_)
    | intro _
    | dsimp only)

/-! ### Machine/Slots.lean -/

theorem State.setLink_keeps (k : Nat) (c : Cpl) (hs : s0.Keeps s) : s0.Keeps (State.setLink s k c) := by
  unfold State.setLink
  try dsimp only
  repeat' (first
    | with_reducible assumption
    | with_reducible refine State.Keeps.ite ?_ ?_
    | (simp only [State.Keeps.mk_of]; with_reducible refine State.Keeps.core ?_)
    | intro _)

theorem State.updLink_keeps (k : Nat) (f : Cpl → Cpl) (hs : s0.Keeps s) : s0.Keeps (State.updLink s k f) := by
  unfold State.updLink
  try dsimp only
  repeat' (first
    | with_reducible assumption
    | with_reducible refine State.Keeps.ite ?_ ?_
    | with_reducible apply State.setLink_keeps
    | (simp only [State.Keeps.mk_of]; with_reducible refine State.Keeps.core ?_)
    | intro _)

theorem State.sendTx_keeps (k : Nat) (t : Tx) (hs : s0.Keeps s) : s0.Keeps (State.sendTx s k t) := by
  unfold State.sendTx
  try dsimp only
  repeat' (first
    | with_reducible assumption
    | with_reducible refine State.Keeps.ite ?_ ?_
    | with_reducible apply State.setLink_keeps
    | (simp only [State.Keeps.mk_of]; with_reducible refine State.Keeps.core ?_)
    | intro _)

theorem State.transmitOn_keeps (k : Nat) (hs : s0.Keeps s) : s0.Keeps (State.transmitOn s k) := by
  unfold State.transmitOn
  try dsimp only
  repeat' (first
    | with_reducible assumption
    | with_reducible refine State.Keeps.ite ?_ ?_
    | with_reducible apply State.setLink_keeps
    | (simp only [State.Keeps.mk_of]; with_reducible refine State.Keeps.core ?_)
    | intro _
    | dsimp only)

theorem State.sendLinks_keeps  (hs : s0.Keeps s) : s0.Keeps (State.sendLinks s) := by
  unfold State.sendLinks
  try dsimp only
  repeat' (first
    | with_reducible assumption
    | with_reducible refine State.Keeps.ite ?_ ?_
    | with_reducible apply State.transmitOn_keeps
    | (simp only [State.Keeps.mk_of]; with_reducible refine State.Keeps.core ?_)
    | with_reducible refine State.Keeps.foldl _ ?_ ?_
    | with_reducible refine State.Keeps.foldl_snd _ ?_ ?_
    | intro _
    | dsimp only)

/-! ### Machine/Channels.lean -/

theorem State.sendOne_keeps (c : Nat) (hs : s0.Keeps s) : s0.Keeps (State.sendOne s c) := by
  unfold State.sendOne
  try dsimp only
  repeat' (first
    | with_reducible assumption
    | with_reducible refine State.Keeps.ite ?_ ?_
    | with_reducible apply State.updChan_keeps
    | (simp only [State.Keeps.mk_of]; with_reducible refine State.Keeps.core ?_)
    | with_reducible refine State.Keeps.getD ?_ ?_
    | intro _
    | dsimp only)

theorem State.sendFrames_keeps (n : Nat) (hs : s0.Keeps s) : s0.Keeps (State.sendFrames n s) := by
  induction n generalizing s with
  | zero => exact hs
  | succ n ih =>
    unfold State.sendFrames
    split
    · exact hs
    · exact ih (State.sendOne_keeps _ hs)

theorem State.tellHost_keeps (c : Nat) (hs : s0.Keeps s) : s0.Keeps (State.tellHost s c) := by
  unfold State.tellHost
  try dsimp only
  repeat' (first
    | with_reducible assumption
    | with_reducible refine State.Keeps.ite ?_ ?_
    | with_reducible apply State.updChan_keeps
    | (simp only [State.Keeps.mk_of]; with_reducible refine State.Keeps.core ?_)
    | intro _
    | dsimp only)

theorem State.transmit_keeps  (hs : s0.Keeps s) : s0.Keeps (State.transmit s) := by
  unfold State.transmit
  try dsimp only
  repeat' (first
    | with_reducible assumption
    | with_reducible refine State.Keeps.ite ?_ ?_
    | with_reducible apply State.sendFrames_keeps
    | with_reducible apply State.tellHost_keeps
    | (simp only [State.Keeps.mk_of]; with_reducible refine State.Keeps.core ?_)
    | with_reducible refine State.Keeps.foldl _ ?_ ?_
    | with_reducible refine State.Keeps.foldl_snd _ ?_ ?_
    | intro _)

/-! ### Machine/Mailboxes.lean -/

theorem State.setMbx_keeps (m e : Nat) (q : MbxQueue) (hs : s0.Keeps s) : s0.Keeps (State.setMbx s m e q) := by
  unfold State.setMbx
  try dsimp only
  repeat' (first
    | with_reducible assumption
    | with_reducible refine State.Keeps.ite ?_ ?_
    | (simp only [State.Keeps.mk_of]; with_reducible refine State.Keeps.core ?_)
    | intro _)

theorem State.mbxSignal_keeps (before : Bool × Bool × Bool) (m e : Nat) (hs : s0.Keeps s) : s0.Keeps (State.mbxSignal s before m e) := by
  unfold State.mbxSignal
  try dsimp only
  repeat' (first
    | with_reducible assumption
    | with_reducible refine State.Keeps.ite ?_ ?_
    | with_reducible refine State.Keeps.ite_snd ?_ ?_
    | with_reducible apply State.raiseHead_keeps
    | (simp only [State.Keeps.mk_of]; with_reducible refine State.Keeps.core ?_)
    | intro _
    | dsimp only
    | split
    | refine State.Keeps.of_snd (by assumption) ?_)

theorem State.mbxChange_keeps (m e : Nat) (f : State → State) (hf : ∀ t, s0.Keeps t → s0.Keeps (f t)) (hs : s0.Keeps s) : s0.Keeps (State.mbxChange s m e f) := by
  unfold State.mbxChange
  try dsimp only
  repeat' (first
    | with_reducible assumption
    | with_reducible apply hf
    | with_reducible refine State.Keeps.ite ?_ ?_
    | with_reducible apply State.mbxSignal_keeps
    | (simp only [State.Keeps.mk_of]; with_reducible refine State.Keeps.core ?_)
    | intro _)

theorem State.mbxAnswer_keeps (op m status ident value : Nat) (hs : s0.Keeps s) : s0.Keeps (State.mbxAnswer s op m status ident value) := by
  unfold State.mbxAnswer
  try dsimp only
  repeat' (first
    | with_reducible assumption
    | with_reducible refine State.Keeps.ite ?_ ?_
    | (simp only [State.Keeps.mk_of]; with_reducible refine State.Keeps.core ?_)
    | intro _
    | dsimp only
    | refine State.Keeps.of_snd (by assumption) ?_)

theorem State.mbxBell_keeps (m e b : Nat) (hs : s0.Keeps s) : s0.Keeps (State.mbxBell s m e b) := by
  unfold State.mbxBell
  try dsimp only
  repeat' (first
    | with_reducible assumption
    | with_reducible refine State.Keeps.ite ?_ ?_
    | with_reducible apply State.set_keeps
    | with_reducible apply State.mbxChange_keeps
    | (simp only [State.Keeps.mk_of]; with_reducible refine State.Keeps.core ?_)
    | intro _
    | split)

theorem State.mbxSend_keeps (m e v : Nat) (hs : s0.Keeps s) : s0.Keeps (State.mbxSend s m e v) := by
  unfold State.mbxSend
  try dsimp only
  repeat' (first
    | with_reducible assumption
    | with_reducible refine State.Keeps.ite ?_ ?_
    | with_reducible apply State.setFlag_keeps
    | with_reducible apply State.setMbx_keeps
    | with_reducible apply State.mbxChange_keeps
    | with_reducible apply State.mbxBell_keeps
    | (simp only [State.Keeps.mk_of]; with_reducible refine State.Keeps.core ?_)
    | intro _
    | dsimp only
    | refine State.Keeps.of_snd (by assumption) ?_)

theorem State.mbxRecv_keeps (m e : Nat) (hs : s0.Keeps s) : s0.Keeps (State.mbxRecv s m e).2 := by
  unfold State.mbxRecv
  try dsimp only
  repeat' (first
    | with_reducible assumption
    | with_reducible refine State.Keeps.ite ?_ ?_
    | with_reducible refine State.Keeps.ite_snd ?_ ?_
    | with_reducible apply State.setFlag_keeps
    | with_reducible apply State.setMbx_keeps
    | (simp only [State.Keeps.mk_of]; with_reducible refine State.Keeps.core ?_)
    | intro _
    | dsimp only
    | split
    | refine State.Keeps.of_snd (by assumption) ?_)

theorem State.mbxCtrl_keeps (m e v : Nat) (hs : s0.Keeps s) : s0.Keeps (State.mbxCtrl s m e v) := by
  unfold State.mbxCtrl
  try dsimp only
  repeat' (first
    | with_reducible assumption
    | with_reducible refine State.Keeps.ite ?_ ?_
    | with_reducible apply State.set_keeps
    | with_reducible apply State.setMbx_keeps
    | (simp only [State.Keeps.mk_of]; with_reducible refine State.Keeps.core ?_)
    | intro _
    | dsimp only
    | refine State.Keeps.of_snd (by assumption) ?_)

theorem mbxRun_keeps (host : Bool) (op m e ident : Nat) (f : State → Nat → Nat × State) (hf : ∀ t a0, s0.Keeps t → s0.Keeps (f t a0).2) (hs : s0.Keeps s) : s0.Keeps (mbxRun s host op m e ident f) := by
  unfold mbxRun
  try dsimp only
  repeat' (first
    | with_reducible assumption
    | with_reducible apply hf
    | with_reducible refine State.Keeps.ite ?_ ?_
    | with_reducible refine State.Keeps.ite_snd ?_ ?_
    | with_reducible apply State.consume_keeps
    | with_reducible apply State.mbxAnswer_keeps
    | (simp only [State.Keeps.mk_of]; with_reducible refine State.Keeps.core ?_)
    | intro _
    | dsimp only)

theorem execMbxSend_keeps {tt : State} (dt : Nat) (host : Bool) (m e ident v : Nat) (ex : execMbxSend dt host m e ident v s = .next tt) : s.Keeps tt := by
  have hs := State.Keeps.refl s
  unfold execMbxSend at ex
  try dsimp only at ex
  refine State.Keeps.of_next ex ?_
  clear ex
  repeat' (first
    | with_reducible assumption
    | with_reducible refine State.Keeps.ite ?_ ?_
    | with_reducible apply State.elapse_keeps
    | with_reducible apply State.mbxSend_keeps
    | with_reducible apply mbxRun_keeps
    | (simp only [State.Keeps.mk_of]; with_reducible refine State.Keeps.core ?_)
    | intro _
    | dsimp only
    | split
    | refine State.Keeps.of_snd (by assumption) ?_)

theorem execMbxRecv_keeps {tt : State} (dt : Nat) (host : Bool) (m e ident : Nat) (ex : execMbxRecv dt host m e ident s = .next tt) : s.Keeps tt := by
  have hs := State.Keeps.refl s
  unfold execMbxRecv at ex
  try dsimp only at ex
  refine State.Keeps.of_next ex ?_
  clear ex
  repeat' (first
    | with_reducible assumption
    | with_reducible refine State.Keeps.ite ?_ ?_
    | with_reducible apply State.elapse_keeps
    | with_reducible apply State.mbxRecv_keeps
    | with_reducible apply mbxRun_keeps
    | (simp only [State.Keeps.mk_of]; with_reducible refine State.Keeps.core ?_)
    | intro _
    | split)

theorem execMbxRing_keeps {tt : State} (dt : Nat) (host : Bool) (m e ident v : Nat) (ex : execMbxRing dt host m e ident v s = .next tt) : s.Keeps tt := by
  have hs := State.Keeps.refl s
  unfold execMbxRing at ex
  try dsimp only at ex
  refine State.Keeps.of_next ex ?_
  clear ex
  repeat' (first
    | with_reducible assumption
    | with_reducible refine State.Keeps.ite ?_ ?_
    | with_reducible apply State.elapse_keeps
    | with_reducible apply State.mbxBell_keeps
    | with_reducible apply mbxRun_keeps
    | (simp only [State.Keeps.mk_of]; with_reducible refine State.Keeps.core ?_)
    | intro _
    | dsimp only
    | split
    | refine State.Keeps.of_snd (by assumption) ?_)

theorem execMbxStatusRead_keeps {tt : State} (dt : Nat) (host : Bool) (m e ident : Nat) (ex : execMbxStatusRead dt host m e ident s = .next tt) : s.Keeps tt := by
  have hs := State.Keeps.refl s
  unfold execMbxStatusRead at ex
  try dsimp only at ex
  refine State.Keeps.of_next ex ?_
  clear ex
  repeat' (first
    | with_reducible assumption
    | with_reducible refine State.Keeps.ite ?_ ?_
    | with_reducible apply State.elapse_keeps
    | with_reducible apply mbxRun_keeps
    | (simp only [State.Keeps.mk_of]; with_reducible refine State.Keeps.core ?_)
    | intro _
    | dsimp only
    | split
    | refine State.Keeps.of_snd (by assumption) ?_)

theorem execMbxBellClear_keeps {tt : State} (dt : Nat) (host : Bool) (m e ident v : Nat) (ex : execMbxBellClear dt host m e ident v s = .next tt) : s.Keeps tt := by
  have hs := State.Keeps.refl s
  unfold execMbxBellClear at ex
  try dsimp only at ex
  refine State.Keeps.of_next ex ?_
  clear ex
  repeat' (first
    | with_reducible assumption
    | with_reducible refine State.Keeps.ite ?_ ?_
    | with_reducible apply State.elapse_keeps
    | with_reducible apply State.set_keeps
    | with_reducible apply mbxRun_keeps
    | (simp only [State.Keeps.mk_of]; with_reducible refine State.Keeps.core ?_)
    | intro _
    | dsimp only
    | split
    | refine State.Keeps.of_snd (by assumption) ?_)

theorem execMbxMaskWrite_keeps {tt : State} (dt : Nat) (host : Bool) (m e ident v : Nat) (ex : execMbxMaskWrite dt host m e ident v s = .next tt) : s.Keeps tt := by
  have hs := State.Keeps.refl s
  unfold execMbxMaskWrite at ex
  try dsimp only at ex
  refine State.Keeps.of_next ex ?_
  clear ex
  repeat' (first
    | with_reducible assumption
    | with_reducible refine State.Keeps.ite ?_ ?_
    | with_reducible apply State.elapse_keeps
    | with_reducible apply State.set_keeps
    | with_reducible apply State.mbxChange_keeps
    | with_reducible apply mbxRun_keeps
    | (simp only [State.Keeps.mk_of]; with_reducible refine State.Keeps.core ?_)
    | intro _
    | dsimp only
    | split
    | refine State.Keeps.of_snd (by assumption) ?_)

theorem execMbxCtrlWrite_keeps {tt : State} (dt : Nat) (host : Bool) (m e ident v : Nat) (ex : execMbxCtrlWrite dt host m e ident v s = .next tt) : s.Keeps tt := by
  have hs := State.Keeps.refl s
  unfold execMbxCtrlWrite at ex
  try dsimp only at ex
  refine State.Keeps.of_next ex ?_
  clear ex
  repeat' (first
    | with_reducible assumption
    | with_reducible refine State.Keeps.ite ?_ ?_
    | with_reducible apply State.elapse_keeps
    | with_reducible apply State.mbxCtrl_keeps
    | with_reducible apply mbxRun_keeps
    | (simp only [State.Keeps.mk_of]; with_reducible refine State.Keeps.core ?_)
    | intro _
    | dsimp only
    | split
    | refine State.Keeps.of_snd (by assumption) ?_)

theorem execMbxTimeout_keeps {tt : State} (dt m e : Nat) (ex : execMbxTimeout dt m e s = .next tt) : s.Keeps tt := by
  have hs := State.Keeps.refl s
  unfold execMbxTimeout at ex
  try dsimp only at ex
  refine State.Keeps.of_next ex ?_
  clear ex
  repeat' (first
    | with_reducible assumption
    | with_reducible refine State.Keeps.ite ?_ ?_
    | with_reducible apply State.elapse_keeps
    | with_reducible apply State.setFlag_keeps
    | with_reducible apply State.raiseHead_keeps
    | with_reducible apply State.setMbx_keeps
    | with_reducible apply State.mbxChange_keeps
    | (simp only [State.Keeps.mk_of]; with_reducible refine State.Keeps.core ?_)
    | intro _
    | dsimp only
    | split
    | refine State.Keeps.of_snd (by assumption) ?_)

/-! ### Machine/Faults.lean -/

theorem State.alarm_keeps (code : Nat) (hs : s0.Keeps s) : s0.Keeps (State.alarm s code) := by
  unfold State.alarm
  try dsimp only
  repeat' (first
    | with_reducible assumption
    | with_reducible refine State.Keeps.ite ?_ ?_
    | with_reducible apply State.set_keeps
    | with_reducible apply State.raiseHead_keeps
    | (simp only [State.Keeps.mk_of]; with_reducible refine State.Keeps.core ?_)
    | intro _)

theorem State.addDefect_keeps (w : Nat) (hs : s0.Keeps s) : s0.Keeps (State.addDefect s w) := by
  unfold State.addDefect
  try dsimp only
  repeat' (first
    | with_reducible assumption
    | with_reducible refine State.Keeps.ite ?_ ?_
    | with_reducible apply State.set_keeps
    | with_reducible apply State.alarm_keeps
    | (simp only [State.Keeps.mk_of]; with_reducible refine State.Keeps.core ?_)
    | intro _)

theorem State.setMark_keeps (c : Nat) (b : Bool) (hs : s0.Keeps s) : s0.Keeps (State.setMark s c b) := by
  unfold State.setMark
  try dsimp only
  repeat' (first
    | with_reducible assumption
    | with_reducible refine State.Keeps.ite ?_ ?_
    | with_reducible apply State.setFlag_keeps
    | (simp only [State.Keeps.mk_of]; with_reducible refine State.Keeps.core ?_)
    | intro _
    | dsimp only)

theorem State.setTiles_keeps (l : List Nat) (v : Nat) (hs : s0.Keeps s) : s0.Keeps (State.setTiles s l v) := by
  unfold State.setTiles
  try dsimp only
  repeat' (first
    | with_reducible assumption
    | with_reducible refine State.Keeps.ite ?_ ?_
    | with_reducible apply State.set_keeps
    | (simp only [State.Keeps.mk_of]; with_reducible refine State.Keeps.core ?_)
    | with_reducible refine State.Keeps.foldl _ ?_ ?_
    | with_reducible refine State.Keeps.foldl_snd _ ?_ ?_
    | intro _)

theorem State.loseQuadrants_keeps (c : Nat) (hs : s0.Keeps s) : s0.Keeps (State.loseQuadrants s c) := by
  unfold State.loseQuadrants
  try dsimp only
  repeat' (first
    | with_reducible assumption
    | with_reducible refine State.Keeps.ite ?_ ?_
    | with_reducible apply State.resetRegs_keeps
    | with_reducible apply State.wipe_keeps
    | (simp only [State.Keeps.mk_of]; with_reducible refine State.Keeps.core ?_)
    | with_reducible refine State.Keeps.foldl _ ?_ ?_
    | with_reducible refine State.Keeps.foldl_snd _ ?_ ?_
    | intro _)

theorem State.loseRoof_keeps (c : Nat) (hs : s0.Keeps s) : s0.Keeps (State.loseRoof s c) := by
  unfold State.loseRoof
  try dsimp only
  repeat' (first
    | with_reducible assumption
    | with_reducible refine State.Keeps.ite ?_ ?_
    | with_reducible apply State.wipe_keeps
    | with_reducible apply State.setMark_keeps
    | (simp only [State.Keeps.mk_of]; with_reducible refine State.Keeps.core ?_)
    | with_reducible refine State.Keeps.foldl _ ?_ ?_
    | with_reducible refine State.Keeps.foldl_snd _ ?_ ?_
    | intro _)

theorem State.openPin_keeps (n : Nat) (hs : s0.Keeps s) : s0.Keeps (State.openPin s n) := by
  unfold State.openPin
  try dsimp only
  repeat' (first
    | with_reducible assumption
    | with_reducible refine State.Keeps.ite ?_ ?_
    | with_reducible refine State.Keeps.ite_snd ?_ ?_
    | with_reducible apply State.setFlag_keeps
    | (simp only [State.Keeps.mk_of]; with_reducible refine State.Keeps.core ?_)
    | intro _
    | dsimp only
    | split)

theorem State.openCoach_keeps (c st : Nat) (hs : s0.Keeps s) : s0.Keeps (State.openCoach s c st) := by
  unfold State.openCoach
  try dsimp only
  repeat' (first
    | with_reducible assumption
    | with_reducible refine State.Keeps.ite ?_ ?_
    | with_reducible apply State.set_keeps
    | with_reducible apply State.setTiles_keeps
    | with_reducible apply State.loseQuadrants_keeps
    | with_reducible apply State.loseRoof_keeps
    | with_reducible apply State.openPin_keeps
    | (simp only [State.Keeps.mk_of]; with_reducible refine State.Keeps.core ?_)
    | with_reducible refine State.Keeps.foldl _ ?_ ?_
    | with_reducible refine State.Keeps.foldl_snd _ ?_ ?_
    | intro _)

theorem State.sendRail_keeps (rail op data : Nat) (hs : s0.Keeps s) : s0.Keeps (State.sendRail s rail op data) := by
  unfold State.sendRail
  try dsimp only
  repeat' (first
    | with_reducible assumption
    | with_reducible refine State.Keeps.ite ?_ ?_
    | with_reducible apply State.set_keeps
    | (simp only [State.Keeps.mk_of]; with_reducible refine State.Keeps.core ?_)
    | intro _)

theorem State.syncReserves_keeps  (hs : s0.Keeps s) : s0.Keeps (State.syncReserves s) := by
  unfold State.syncReserves
  try dsimp only
  repeat' (first
    | with_reducible assumption
    | with_reducible refine State.Keeps.ite ?_ ?_
    | with_reducible apply State.set_keeps
    | (simp only [State.Keeps.mk_of]; with_reducible refine State.Keeps.core ?_)
    | intro _)

theorem State.isolate_keeps (c : Nat) (hs : s0.Keeps s) : s0.Keeps (State.isolate s c) := by
  unfold State.isolate
  try dsimp only
  repeat' (first
    | with_reducible assumption
    | with_reducible refine State.Keeps.ite ?_ ?_
    | with_reducible apply State.set_keeps
    | with_reducible apply State.addDefect_keeps
    | with_reducible apply State.openCoach_keeps
    | with_reducible apply State.sendRail_keeps
    | with_reducible apply State.syncReserves_keeps
    | (simp only [State.Keeps.mk_of]; with_reducible refine State.Keeps.core ?_)
    | intro _)

theorem State.emptyCarts_keeps  (hs : s0.Keeps s) : s0.Keeps (State.emptyCarts s) := by
  unfold State.emptyCarts
  try dsimp only
  repeat' (first
    | with_reducible assumption
    | with_reducible refine State.Keeps.ite ?_ ?_
    | with_reducible refine State.Keeps.ite_snd ?_ ?_
    | with_reducible apply State.set_keeps
    | (simp only [State.Keeps.mk_of]; with_reducible refine State.Keeps.core ?_)
    | with_reducible refine State.Keeps.foldl _ ?_ ?_
    | with_reducible refine State.Keeps.foldl_snd _ ?_ ?_
    | intro _
    | dsimp only)

theorem State.dropPackets_keeps  (hs : s0.Keeps s) : s0.Keeps (State.dropPackets s) := by
  unfold State.dropPackets
  try dsimp only
  repeat' (first
    | with_reducible assumption
    | with_reducible refine State.Keeps.ite ?_ ?_
    | with_reducible apply State.dropFlits_keeps
    | (simp only [State.Keeps.mk_of]; with_reducible refine State.Keeps.core ?_)
    | intro _
    | dsimp only)

theorem State.stopImage_keeps  (hs : s0.Keeps s) : s0.Keeps (State.stopImage s) := by
  unfold State.stopImage
  try dsimp only
  repeat' (first
    | with_reducible assumption
    | with_reducible refine State.Keeps.ite ?_ ?_
    | with_reducible apply State.withdrawAll_keeps
    | with_reducible apply State.endAdmitted_keeps
    | with_reducible apply State.emptyCarts_keeps
    | (simp only [State.Keeps.mk_of]; with_reducible refine State.Keeps.core ?_)
    | intro _
    | dsimp only)

theorem State.setImageState_keeps (v : Nat) (hs : s0.Keeps s) : s0.Keeps (State.setImageState s v) := by
  unfold State.setImageState
  try dsimp only
  repeat' (first
    | with_reducible assumption
    | with_reducible refine State.Keeps.ite ?_ ?_
    | with_reducible apply State.set_keeps
    | with_reducible apply State.syncPhase_keeps
    | (simp only [State.Keeps.mk_of]; with_reducible refine State.Keeps.core ?_)
    | intro _)

theorem State.vacate_keeps (n st : Nat) (hs : s0.Keeps s) : s0.Keeps (State.vacate s n st) := by
  unfold State.vacate
  try dsimp only
  repeat' (first
    | with_reducible assumption
    | with_reducible refine State.Keeps.ite ?_ ?_
    | with_reducible apply State.set_keeps
    | (simp only [State.Keeps.mk_of]; with_reducible refine State.Keeps.core ?_)
    | intro _)

theorem State.dropBanks_keeps (lo hi : Nat) (hs : s0.Keeps s) : s0.Keeps (State.dropBanks s lo hi) := by
  unfold State.dropBanks
  try dsimp only
  repeat' (first
    | with_reducible assumption
    | with_reducible refine State.Keeps.ite ?_ ?_
    | (simp only [State.Keeps.mk_of]; with_reducible refine State.Keeps.core ?_)
    | (simp only [State.Keeps.mk_of]; with_reducible refine State.Keeps.core_regs _ ?_)
    | intro _)

theorem State.syncSched_keeps  (hs : s0.Keeps s) : s0.Keeps (State.syncSched s) := by
  unfold State.syncSched
  try dsimp only
  repeat' (first
    | with_reducible assumption
    | with_reducible refine State.Keeps.ite ?_ ?_
    | with_reducible apply State.set_keeps
    | (simp only [State.Keeps.mk_of]; with_reducible refine State.Keeps.core ?_)
    | intro _
    | split)

theorem State.syncConfig_keeps  (hs : s0.Keeps s) : s0.Keeps (State.syncConfig s) := by
  unfold State.syncConfig
  try dsimp only
  repeat' (first
    | with_reducible assumption
    | with_reducible refine State.Keeps.ite ?_ ?_
    | with_reducible refine State.Keeps.ite_snd ?_ ?_
    | with_reducible apply State.set_keeps
    | with_reducible apply State.dropBanks_keeps
    | with_reducible apply State.syncSched_keeps
    | (simp only [State.Keeps.mk_of]; with_reducible refine State.Keeps.core ?_)
    | with_reducible refine State.Keeps.foldl _ ?_ ?_
    | with_reducible refine State.Keeps.foldl_snd _ ?_ ?_
    | intro _
    | dsimp only
    | split)

theorem State.unloadImage_keeps  (hs : s0.Keeps s) : s0.Keeps (State.unloadImage s) := by
  unfold State.unloadImage
  try dsimp only
  repeat' (first
    | with_reducible assumption
    | with_reducible refine State.Keeps.ite ?_ ?_
    | with_reducible refine State.Keeps.ite_snd ?_ ?_
    | with_reducible apply State.set_keeps
    | with_reducible apply State.setFlag_keeps
    | with_reducible apply State.syncReserves_keeps
    | with_reducible apply State.setImageState_keeps
    | with_reducible apply State.vacate_keeps
    | with_reducible apply State.syncConfig_keeps
    | (simp only [State.Keeps.mk_of]; with_reducible refine State.Keeps.core ?_)
    | (simp only [State.Keeps.mk_of]; with_reducible refine State.Keeps.core_regs _ ?_)
    | with_reducible refine State.Keeps.foldl _ ?_ ?_
    | with_reducible refine State.Keeps.foldl_snd _ ?_ ?_
    | intro _
    | dsimp only)

theorem State.imageFault_keeps (cause : Nat) (hs : s0.Keeps s) : s0.Keeps (State.imageFault s cause) := by
  unfold State.imageFault
  try dsimp only
  repeat' (first
    | with_reducible assumption
    | with_reducible refine State.Keeps.ite ?_ ?_
    | with_reducible apply State.set_keeps
    | with_reducible apply State.setFlag_keeps
    | with_reducible apply State.raiseHead_keeps
    | with_reducible apply State.stopImage_keeps
    | with_reducible apply State.setImageState_keeps
    | (simp only [State.Keeps.mk_of]; with_reducible refine State.Keeps.core ?_)
    | intro _)

theorem State.repairFail_keeps (w : Nat) (cs : List Nat) (hs : s0.Keeps s) : s0.Keeps (State.repairFail s w cs) := by
  unfold State.repairFail
  try dsimp only
  repeat' (first
    | with_reducible assumption
    | with_reducible refine State.Keeps.ite ?_ ?_
    | with_reducible apply State.set_keeps
    | with_reducible apply State.inc_keeps
    | with_reducible apply State.raiseHead_keeps
    | with_reducible apply State.setMark_keeps
    | with_reducible apply State.stopImage_keeps
    | with_reducible apply State.setImageState_keeps
    | (simp only [State.Keeps.mk_of]; with_reducible refine State.Keeps.core ?_)
    | with_reducible refine State.Keeps.foldl _ ?_ ?_
    | with_reducible refine State.Keeps.foldl_snd _ ?_ ?_
    | intro _)

theorem State.voidTurn_keeps  (hs : s0.Keeps s) : s0.Keeps (State.voidTurn s) := by
  unfold State.voidTurn
  try dsimp only
  repeat' (first
    | with_reducible assumption
    | with_reducible refine State.Keeps.ite ?_ ?_
    | with_reducible apply State.inc_keeps
    | with_reducible apply State.raiseHead_keeps
    | with_reducible apply State.raiseHold_keeps
    | with_reducible apply State.repairFail_keeps
    | (simp only [State.Keeps.mk_of]; with_reducible refine State.Keeps.core ?_)
    | intro _)

theorem State.voidMore_keeps  (hs : s0.Keeps s) : s0.Keeps (State.voidMore s) := by
  unfold State.voidMore
  try dsimp only
  repeat' (first
    | with_reducible assumption
    | with_reducible refine State.Keeps.ite ?_ ?_
    | with_reducible apply State.voidTurn_keeps
    | (simp only [State.Keeps.mk_of]; with_reducible refine State.Keeps.core ?_)
    | intro _)

theorem State.faultTurn_keeps  (hs : s0.Keeps s) : s0.Keeps (State.faultTurn s) := by
  unfold State.faultTurn
  try dsimp only
  repeat' (first
    | with_reducible assumption
    | with_reducible refine State.Keeps.ite ?_ ?_
    | with_reducible apply State.inc_keeps
    | with_reducible apply State.imageFault_keeps
    | with_reducible apply State.voidTurn_keeps
    | (simp only [State.Keeps.mk_of]; with_reducible refine State.Keeps.core ?_)
    | intro _)

theorem State.creditOverflow_keeps (n off : Nat) (hs : s0.Keeps s) : s0.Keeps (State.creditOverflow s n off) := by
  unfold State.creditOverflow
  try dsimp only
  repeat' (first
    | with_reducible assumption
    | with_reducible refine State.Keeps.ite ?_ ?_
    | with_reducible apply State.inc_keeps
    | with_reducible apply State.raise_keeps
    | with_reducible apply State.faultTurn_keeps
    | (simp only [State.Keeps.mk_of]; with_reducible refine State.Keeps.core ?_)
    | intro _)

theorem State.loadTileRegs_keeps (i : Image) (key n : Nat) (fresh : Bool) (hs : s0.Keeps s) : s0.Keeps (State.loadTileRegs s i key n fresh) := by
  unfold State.loadTileRegs
  try dsimp only
  repeat' (first
    | with_reducible assumption
    | with_reducible refine State.Keeps.ite ?_ ?_
    | with_reducible refine State.Keeps.ite_snd ?_ ?_
    | with_reducible apply State.set_keeps
    | with_reducible apply State.setReg_keeps
    | with_reducible apply State.emptyCircs_keeps
    | (simp only [State.Keeps.mk_of]; with_reducible refine State.Keeps.core ?_)
    | with_reducible refine State.Keeps.foldl _ ?_ ?_
    | with_reducible refine State.Keeps.foldl_snd _ ?_ ?_
    | intro _
    | dsimp only
    | split)

theorem State.loadBarrier_keeps (i : Image) (pl : Sparse Nat) (d : TreeDecl) (hs : s0.Keeps s) : s0.Keeps (State.loadBarrier s i pl d) := by
  unfold State.loadBarrier
  try dsimp only
  repeat' (first
    | with_reducible assumption
    | with_reducible refine State.Keeps.ite ?_ ?_
    | with_reducible refine State.Keeps.ite_snd ?_ ?_
    | with_reducible apply State.set_keeps
    | with_reducible apply State.setFlag_keeps
    | (simp only [State.Keeps.mk_of]; with_reducible refine State.Keeps.core ?_)
    | with_reducible refine State.Keeps.foldl _ ?_ ?_
    | with_reducible refine State.Keeps.foldl_snd _ ?_ ?_
    | intro _
    | dsimp only
    | split)

theorem State.loadMcast_keeps (i : Image) (pl : Sparse Nat) (d : TreeDecl) (hs : s0.Keeps s) : s0.Keeps (State.loadMcast s i pl d) := by
  unfold State.loadMcast
  try dsimp only
  repeat' (first
    | with_reducible assumption
    | with_reducible refine State.Keeps.ite ?_ ?_
    | with_reducible refine State.Keeps.ite_snd ?_ ?_
    | with_reducible apply State.set_keeps
    | with_reducible apply State.setFlag_keeps
    | (simp only [State.Keeps.mk_of]; with_reducible refine State.Keeps.core ?_)
    | with_reducible refine State.Keeps.foldl _ ?_ ?_
    | with_reducible refine State.Keeps.foldl_snd _ ?_ ?_
    | intro _
    | dsimp only
    | split)

theorem State.loadRoutes_keeps (i : Image) (pl : Sparse Nat) (hs : s0.Keeps s) : s0.Keeps (State.loadRoutes s i pl) := by
  unfold State.loadRoutes
  try dsimp only
  repeat' (first
    | with_reducible assumption
    | with_reducible refine State.Keeps.ite ?_ ?_
    | with_reducible apply State.resetRegs_keeps
    | with_reducible apply State.set_keeps
    | with_reducible apply State.loadBarrier_keeps
    | with_reducible apply State.loadMcast_keeps
    | (simp only [State.Keeps.mk_of]; with_reducible refine State.Keeps.core ?_)
    | with_reducible refine State.Keeps.foldl _ ?_ ?_
    | with_reducible refine State.Keeps.foldl_snd _ ?_ ?_
    | intro _
    | dsimp only)

theorem State.activate_keeps (n : Nat) (hs : s0.Keeps s) : s0.Keeps (State.activate s n) := by
  unfold State.activate
  try dsimp only
  repeat' (first
    | with_reducible assumption
    | with_reducible refine State.Keeps.ite ?_ ?_
    | with_reducible apply State.set_keeps
    | (simp only [State.Keeps.mk_of]; with_reducible refine State.Keeps.core ?_)
    | intro _)

theorem State.copyRegs_keeps (a b lo hi : Nat) (hs : s0.Keeps s) : s0.Keeps (State.copyRegs s a b lo hi) := by
  unfold State.copyRegs
  try dsimp only
  repeat' (first
    | with_reducible assumption
    | with_reducible refine State.Keeps.ite ?_ ?_
    | with_reducible refine State.Keeps.ite_snd ?_ ?_
    | with_reducible apply State.resetRegs_keeps
    | with_reducible apply State.setReg_keeps
    | (simp only [State.Keeps.mk_of]; with_reducible refine State.Keeps.core ?_)
    | with_reducible refine State.Keeps.foldl _ ?_ ?_
    | with_reducible refine State.Keeps.foldl_snd _ ?_ ?_
    | intro _
    | dsimp only)

theorem State.moveTile_keeps (key old new oldState : Nat) (hs : s0.Keeps s) : s0.Keeps (State.moveTile s key old new oldState) := by
  unfold State.moveTile
  try dsimp only
  repeat' (first
    | with_reducible assumption
    | with_reducible refine State.Keeps.ite ?_ ?_
    | with_reducible apply State.vacate_keeps
    | with_reducible apply State.loadTileRegs_keeps
    | with_reducible apply State.activate_keeps
    | with_reducible apply State.copyRegs_keeps
    | (simp only [State.Keeps.mk_of]; with_reducible refine State.Keeps.core ?_)
    | intro _
    | split)

theorem State.copySlice_keeps (i : Image) (key n : Nat) (hs : s0.Keeps s) : s0.Keeps (State.copySlice s i key n) := by
  unfold State.copySlice
  try dsimp only
  repeat' (first
    | with_reducible assumption
    | with_reducible refine State.Keeps.ite ?_ ?_
    | with_reducible apply State.wrBytes_keeps
    | (simp only [State.Keeps.mk_of]; with_reducible refine State.Keeps.core ?_)
    | with_reducible refine State.Keeps.foldl _ ?_ ?_
    | with_reducible refine State.Keeps.foldl_snd _ ?_ ?_
    | intro _
    | split)

theorem State.putFormat_keeps (i : Image) (layer c : Nat) (hs : s0.Keeps s) : s0.Keeps (State.putFormat s i layer c) := by
  unfold State.putFormat
  try dsimp only
  repeat' (first
    | with_reducible assumption
    | with_reducible refine State.Keeps.ite ?_ ?_
    | with_reducible apply State.writeRoof_keeps
    | (simp only [State.Keeps.mk_of]; with_reducible refine State.Keeps.core ?_)
    | intro _
    | split)

theorem State.copyTables_keeps (i : Image) (lc c : Nat) (hs : s0.Keeps s) : s0.Keeps (State.copyTables s i lc c) := by
  unfold State.copyTables
  try dsimp only
  repeat' (first
    | with_reducible assumption
    | with_reducible refine State.Keeps.ite ?_ ?_
    | with_reducible apply State.wrBytes_keeps
    | with_reducible apply State.putFormat_keeps
    | (simp only [State.Keeps.mk_of]; with_reducible refine State.Keeps.core ?_)
    | with_reducible refine State.Keeps.foldl _ ?_ ?_
    | with_reducible refine State.Keeps.foldl_snd _ ?_ ?_
    | intro _)

theorem State.loseSequences_keeps (p : Req → Bool) (hs : s0.Keeps s) : s0.Keeps (State.loseSequences s p) := by
  unfold State.loseSequences
  try dsimp only
  repeat' (first
    | with_reducible assumption
    | with_reducible refine State.Keeps.ite ?_ ?_
    | with_reducible apply State.mapReqs_keeps
    | (simp only [State.Keeps.mk_of]; with_reducible refine State.Keeps.core ?_)
    | intro _
    | dsimp only)

theorem State.takeCoach_keeps (c : Nat) (hs : s0.Keeps s) : s0.Keeps (State.takeCoach s c) := by
  unfold State.takeCoach
  try dsimp only
  repeat' (first
    | with_reducible assumption
    | with_reducible refine State.Keeps.ite ?_ ?_
    | with_reducible refine State.Keeps.ite_snd ?_ ?_
    | with_reducible apply State.setServ_keeps
    | (simp only [State.Keeps.mk_of]; with_reducible refine State.Keeps.core ?_)
    | intro _
    | dsimp only)

theorem State.missSamples_keeps (n : Nat) (hs : s0.Keeps s) : s0.Keeps (State.missSamples s n) := by
  unfold State.missSamples
  try dsimp only
  repeat' (first
    | with_reducible assumption
    | with_reducible refine State.Keeps.ite ?_ ?_
    | with_reducible apply State.inc_keeps
    | with_reducible apply State.setServ_keeps
    | (simp only [State.Keeps.mk_of]; with_reducible refine State.Keeps.core ?_)
    | intro _)

theorem State.noteRepair_keeps (st : Nat) (hs : s0.Keeps s) : s0.Keeps (State.noteRepair s st) := by
  unfold State.noteRepair
  try dsimp only
  repeat' (first
    | with_reducible assumption
    | with_reducible refine State.Keeps.ite ?_ ?_
    | with_reducible apply State.set_keeps
    | (simp only [State.Keeps.mk_of]; with_reducible refine State.Keeps.core ?_)
    | intro _)

theorem State.voidForLoss_keeps  (hs : s0.Keeps s) : s0.Keeps (State.voidForLoss s) := by
  unfold State.voidForLoss
  try dsimp only
  repeat' (first
    | with_reducible assumption
    | with_reducible refine State.Keeps.ite ?_ ?_
    | with_reducible apply State.voidTurn_keeps
    | (simp only [State.Keeps.mk_of]; with_reducible refine State.Keeps.core ?_)
    | intro _)

theorem State.startJob_keeps (i : Image) (key old m : Nat) (copied : Bool) (hs : s0.Keeps s) : s0.Keeps (State.startJob s i key old m copied) := by
  unfold State.startJob
  try dsimp only
  repeat' (first
    | with_reducible assumption
    | with_reducible refine State.Keeps.ite ?_ ?_
    | with_reducible apply State.set_keeps
    | with_reducible apply State.takeCoach_keeps
    | with_reducible apply State.noteRepair_keeps
    | with_reducible apply State.voidForLoss_keeps
    | (simp only [State.Keeps.mk_of]; with_reducible refine State.Keeps.core ?_)
    | intro _
    | dsimp only)

theorem State.rebuild_keeps (i : Image) (lc c : Nat) (cmd : Option Nat) (hs : s0.Keeps s) : s0.Keeps (State.rebuild s i lc c cmd) := by
  unfold State.rebuild
  try dsimp only
  repeat' (first
    | with_reducible assumption
    | with_reducible refine State.Keeps.ite ?_ ?_
    | with_reducible refine State.Keeps.ite_snd ?_ ?_
    | with_reducible apply State.setTiles_keeps
    | with_reducible apply State.repairFail_keeps
    | with_reducible apply State.takeCoach_keeps
    | with_reducible apply State.noteRepair_keeps
    | with_reducible apply State.voidForLoss_keeps
    | (simp only [State.Keeps.mk_of]; with_reducible refine State.Keeps.core ?_)
    | with_reducible refine State.Keeps.getD ?_ ?_
    | intro _
    | dsimp only
    | split)

theorem State.moveStray_keeps (i : Image) (c key n : Nat) (hs : s0.Keeps s) : s0.Keeps (State.moveStray s i c key n) := by
  unfold State.moveStray
  try dsimp only
  repeat' (first
    | with_reducible assumption
    | with_reducible refine State.Keeps.ite ?_ ?_
    | with_reducible apply State.repairFail_keeps
    | with_reducible apply State.startJob_keeps
    | (simp only [State.Keeps.mk_of]; with_reducible refine State.Keeps.core ?_)
    | intro _
    | split)

theorem State.loseCoach_keeps (c finding : Nat) (cmd : Option Nat) (hs : s0.Keeps s) : s0.Keeps (State.loseCoach s c finding cmd) := by
  unfold State.loseCoach
  try dsimp only
  repeat' (first
    | with_reducible assumption
    | with_reducible refine State.Keeps.ite ?_ ?_
    | with_reducible refine State.Keeps.ite_snd ?_ ?_
    | with_reducible apply State.raiseHead_keeps
    | with_reducible apply State.isolate_keeps
    | with_reducible apply State.repairFail_keeps
    | with_reducible apply State.loseSequences_keeps
    | with_reducible apply State.takeCoach_keeps
    | with_reducible apply State.rebuild_keeps
    | with_reducible apply State.moveStray_keeps
    | (simp only [State.Keeps.mk_of]; with_reducible refine State.Keeps.core ?_)
    | with_reducible refine State.Keeps.foldl _ ?_ ?_
    | with_reducible refine State.Keeps.foldl_snd _ ?_ ?_
    | intro _
    | dsimp only
    | split)

theorem State.loseTile_keeps (n finding : Nat) (copied : Option Nat) (hs : s0.Keeps s) : s0.Keeps (State.loseTile s n finding copied) := by
  unfold State.loseTile
  try dsimp only
  repeat' (first
    | with_reducible assumption
    | with_reducible refine State.Keeps.ite ?_ ?_
    | with_reducible apply State.set_keeps
    | with_reducible apply State.raise_keeps
    | with_reducible apply State.setServ_keeps
    | with_reducible apply State.addDefect_keeps
    | with_reducible apply State.repairFail_keeps
    | with_reducible apply State.loseSequences_keeps
    | with_reducible apply State.takeCoach_keeps
    | with_reducible apply State.missSamples_keeps
    | with_reducible apply State.noteRepair_keeps
    | with_reducible apply State.voidForLoss_keeps
    | with_reducible apply State.startJob_keeps
    | with_reducible apply State.loseCoach_keeps
    | (simp only [State.Keeps.mk_of]; with_reducible refine State.Keeps.core ?_)
    | intro _
    | dsimp only
    | split)

theorem State.targetLost_keeps (j : RepJob) (hs : s0.Keeps s) : s0.Keeps (State.targetLost s j) := by
  unfold State.targetLost
  try dsimp only
  repeat' (first
    | with_reducible assumption
    | with_reducible refine State.Keeps.ite ?_ ?_
    | with_reducible apply State.set_keeps
    | with_reducible apply State.raise_keeps
    | with_reducible apply State.addDefect_keeps
    | (simp only [State.Keeps.mk_of]; with_reducible refine State.Keeps.core ?_)
    | intro _)

theorem State.escalate_keeps (j : RepJob) (hs : s0.Keeps s) : s0.Keeps (State.escalate s j) := by
  unfold State.escalate
  try dsimp only
  repeat' (first
    | with_reducible assumption
    | with_reducible refine State.Keeps.ite ?_ ?_
    | with_reducible apply State.repairFail_keeps
    | with_reducible apply State.startJob_keeps
    | with_reducible apply State.loseCoach_keeps
    | with_reducible apply State.targetLost_keeps
    | (simp only [State.Keeps.mk_of]; with_reducible refine State.Keeps.core ?_)
    | intro _
    | dsimp only
    | split)

theorem State.failTile_keeps (n : Nat) (hs : s0.Keeps s) : s0.Keeps (State.failTile s n) := by
  unfold State.failTile
  try dsimp only
  repeat' (first
    | with_reducible assumption
    | with_reducible refine State.Keeps.ite ?_ ?_
    | with_reducible apply State.set_keeps
    | with_reducible apply State.addDefect_keeps
    | (simp only [State.Keeps.mk_of]; with_reducible refine State.Keeps.core ?_)
    | intro _)

end Sys2Proof.Machine
end

