-- ==== Sys2Proof/Laws/KeepsTiles.lean ====
section
/-! SUPPORT. What the operations and meanings of Tiles, Mesh, Carts, Links keep (Laws/Keeps.lean). -/

set_option Elab.async false

namespace Sys2Proof.Machine

set_option linter.unusedTactic false
set_option linter.unreachableTactic false
set_option linter.unusedSimpArgs false

variable {s0 s : State}

/-! ### Machine/Tiles.lean -/

theorem State.upset_keeps (us : List Upset) (hs : s0.Keeps s) : s0.Keeps (State.upset s us) := by
  unfold State.upset
  try dsimp only
  repeat' (first
    | with_reducible assumption
    | with_reducible refine State.Keeps.ite ?_ ?_
    | (simp only [State.Keeps.mk_of]; with_reducible refine State.Keeps.core ?_)
    | with_reducible refine State.Keeps.foldl _ ?_ ?_
    | with_reducible refine State.Keeps.foldl_snd _ ?_ ?_
    | with_reducible refine State.Keeps.getD ?_ ?_
    | intro _)

theorem State.eccCount_keeps (n bank off : Nat) (ue scrub : Bool) (hs : s0.Keeps s) : s0.Keeps (State.eccCount s n bank off ue scrub) := by
  unfold State.eccCount
  try dsimp only
  repeat' (first
    | with_reducible assumption
    | with_reducible refine State.Keeps.ite ?_ ?_
    | with_reducible apply State.set_keeps
    | with_reducible apply State.inc_keeps
    | with_reducible apply State.setFlag_keeps
    | (simp only [State.Keeps.mk_of]; with_reducible refine State.Keeps.core ?_)
    | intro _)

theorem State.rowError_keeps (row : Nat) (hs : s0.Keeps s) : s0.Keeps (State.rowError s row).2 := by
  unfold State.rowError
  try dsimp only
  repeat' (first
    | with_reducible assumption
    | with_reducible refine State.Keeps.ite ?_ ?_
    | with_reducible refine State.Keeps.ite_snd ?_ ?_
    | (simp only [State.Keeps.mk_of]; with_reducible refine State.Keeps.core ?_)
    | with_reducible refine State.Keeps.getD ?_ ?_
    | intro _
    | dsimp only
    | refine State.Keeps.of_snd (by assumption) ?_)

theorem State.spadUe_keeps (n key off : Nat) (who : Reader) (hs : s0.Keeps s) : s0.Keeps (State.spadUe s n key off who) := by
  unfold State.spadUe
  try dsimp only
  repeat' (first
    | with_reducible assumption
    | with_reducible refine State.Keeps.ite ?_ ?_
    | with_reducible refine State.Keeps.ite_snd ?_ ?_
    | with_reducible apply State.raise_keeps
    | with_reducible apply State.voidTurn_keeps
    | with_reducible apply State.failTile_keeps
    | with_reducible apply State.eccCount_keeps
    | with_reducible apply State.rowError_keeps
    | (simp only [State.Keeps.mk_of]; with_reducible refine State.Keeps.core ?_)
    | intro _
    | dsimp only)

theorem State.readCoded_keeps (n key off len : Nat) (who : Reader) (hs : s0.Keeps s) : s0.Keeps (State.readCoded s n key off len who).2 := by
  unfold State.readCoded
  try dsimp only
  repeat' (first
    | with_reducible assumption
    | with_reducible refine State.Keeps.ite ?_ ?_
    | with_reducible refine State.Keeps.ite_snd ?_ ?_
    | with_reducible apply State.eccCount_keeps
    | with_reducible apply State.spadUe_keeps
    | (simp only [State.Keeps.mk_of]; with_reducible refine State.Keeps.core ?_)
    | with_reducible refine State.Keeps.foldl _ ?_ ?_
    | with_reducible refine State.Keeps.foldl_snd _ ?_ ?_
    | with_reducible refine State.Keeps.getD ?_ ?_
    | intro _
    | dsimp only
    | refine State.Keeps.of_snd (by assumption) ?_)

theorem State.writeSpad_keeps (n off : Nat) (bs : List Byte) (hs : s0.Keeps s) : s0.Keeps (State.writeSpad s n off bs) := by
  unfold State.writeSpad
  try dsimp only
  repeat' (first
    | with_reducible assumption
    | with_reducible refine State.Keeps.ite ?_ ?_
    | with_reducible apply State.writeCoded_keeps
    | (simp only [State.Keeps.mk_of]; with_reducible refine State.Keeps.core ?_)
    | intro _)

theorem State.reloadWord_keeps (key : Nat) (hs : s0.Keeps s) : s0.Keeps (State.reloadWord s key).2 := by
  unfold State.reloadWord
  try dsimp only
  repeat' (first
    | with_reducible assumption
    | with_reducible refine State.Keeps.ite ?_ ?_
    | with_reducible refine State.Keeps.ite_snd ?_ ?_
    | with_reducible apply State.writeRoof_keeps
    | (simp only [State.Keeps.mk_of]; with_reducible refine State.Keeps.core ?_)
    | intro _
    | dsimp only
    | split
    | refine State.Keeps.of_snd (by assumption) ?_)

theorem State.reloadRow_keeps (key : Nat) (row : Bool) (hs : s0.Keeps s) : s0.Keeps (State.reloadRow s key row).2 := by
  unfold State.reloadRow
  try dsimp only
  repeat' (first
    | with_reducible assumption
    | with_reducible refine State.Keeps.ite ?_ ?_
    | with_reducible refine State.Keeps.ite_snd ?_ ?_
    | with_reducible apply State.reloadWord_keeps
    | (simp only [State.Keeps.mk_of]; with_reducible refine State.Keeps.core ?_)
    | with_reducible refine State.Keeps.foldl _ ?_ ?_
    | with_reducible refine State.Keeps.foldl_snd _ ?_ ?_
    | intro _
    | dsimp only
    | refine State.Keeps.of_snd (by assumption) ?_)

theorem State.takeSpare_keeps (j : RoofJob) (hs : s0.Keeps s) : s0.Keeps (State.takeSpare s j) := by
  unfold State.takeSpare
  try dsimp only
  repeat' (first
    | with_reducible assumption
    | with_reducible refine State.Keeps.ite ?_ ?_
    | with_reducible apply State.raise_keeps
    | with_reducible apply State.addDefect_keeps
    | (simp only [State.Keeps.mk_of]; with_reducible refine State.Keeps.core ?_)
    | intro _
    | split)

theorem State.queueJob_keeps (j : RoofJob) (hs : s0.Keeps s) : s0.Keeps (State.queueJob s j) := by
  unfold State.queueJob
  try dsimp only
  repeat' (first
    | with_reducible assumption
    | with_reducible refine State.Keeps.ite ?_ ?_
    | with_reducible refine State.Keeps.ite_snd ?_ ?_
    | with_reducible apply State.reloadRow_keeps
    | with_reducible apply State.takeSpare_keeps
    | (simp only [State.Keeps.mk_of]; with_reducible refine State.Keeps.core ?_)
    | intro _
    | dsimp only)

theorem State.roofJob_keeps (key : Nat) (hs : s0.Keeps s) : s0.Keeps (State.roofJob s key) := by
  unfold State.roofJob
  try dsimp only
  repeat' (first
    | with_reducible assumption
    | with_reducible refine State.Keeps.ite ?_ ?_
    | with_reducible refine State.Keeps.ite_snd ?_ ?_
    | with_reducible apply State.failTile_keeps
    | with_reducible apply State.rowError_keeps
    | with_reducible apply State.queueJob_keeps
    | (simp only [State.Keeps.mk_of]; with_reducible refine State.Keeps.core ?_)
    | with_reducible refine State.Keeps.getD ?_ ?_
    | intro _
    | dsimp only
    | split
    | refine State.Keeps.of_snd (by assumption) ?_)

theorem State.readRoof_keeps (key : Nat) (who : Reader) (hs : s0.Keeps s) : s0.Keeps (State.readRoof s key who).2 := by
  unfold State.readRoof
  try dsimp only
  repeat' (first
    | with_reducible assumption
    | with_reducible refine State.Keeps.ite ?_ ?_
    | with_reducible refine State.Keeps.ite_snd ?_ ?_
    | with_reducible apply State.raise_keeps
    | with_reducible apply State.voidTurn_keeps
    | with_reducible apply State.eccCount_keeps
    | with_reducible apply State.roofJob_keeps
    | (simp only [State.Keeps.mk_of]; with_reducible refine State.Keeps.core ?_)
    | intro _
    | dsimp only
    | split
    | refine State.Keeps.of_snd (by assumption) ?_)

theorem State.readWord_keeps (n w : Nat) (who : Reader) (hs : s0.Keeps s) : s0.Keeps (State.readWord s n w who).2 := by
  unfold State.readWord
  try dsimp only
  repeat' (first
    | with_reducible assumption
    | with_reducible refine State.Keeps.ite ?_ ?_
    | with_reducible refine State.Keeps.ite_snd ?_ ?_
    | with_reducible apply State.readRoof_keeps
    | (simp only [State.Keeps.mk_of]; with_reducible refine State.Keeps.core ?_)
    | intro _
    | dsimp only)

theorem State.queueRoof_keeps (tile key v port op : Nat) (hs : s0.Keeps s) : s0.Keeps (State.queueRoof s tile key v port op) := by
  unfold State.queueRoof
  try dsimp only
  repeat' (first
    | with_reducible assumption
    | with_reducible refine State.Keeps.ite ?_ ?_
    | (simp only [State.Keeps.mk_of]; with_reducible refine State.Keeps.core ?_)
    | intro _
    | dsimp only
    | refine State.Keeps.of_snd (by assumption) ?_)

theorem State.trap_keeps (n port kind circ space off : Nat) (faults : Bool) (hs : s0.Keeps s) : s0.Keeps (State.trap s n port kind circ space off faults) := by
  unfold State.trap
  try dsimp only
  repeat' (first
    | with_reducible assumption
    | with_reducible refine State.Keeps.ite ?_ ?_
    | with_reducible apply State.setReg_keeps
    | with_reducible apply State.inc_keeps
    | with_reducible apply State.raise_keeps
    | with_reducible apply State.faultTurn_keeps
    | (simp only [State.Keeps.mk_of]; with_reducible refine State.Keeps.core ?_)
    | intro _)

theorem State.hazard_keeps (n kind port addr other : Nat) (hs : s0.Keeps s) : s0.Keeps (State.hazard s n kind port addr other) := by
  unfold State.hazard
  try dsimp only
  repeat' (first
    | with_reducible assumption
    | with_reducible refine State.Keeps.ite ?_ ?_
    | with_reducible apply State.set_keeps
    | with_reducible apply State.setReg_keeps
    | with_reducible apply State.inc_keeps
    | with_reducible apply State.setFlag_keeps
    | with_reducible apply State.raise_keeps
    | (simp only [State.Keeps.mk_of]; with_reducible refine State.Keeps.core ?_)
    | intro _)

theorem State.noteRead_keeps (n : Nat) (p : Port) (off len : Nat) (hs : s0.Keeps s) : s0.Keeps (State.noteRead s n p off len) := by
  unfold State.noteRead
  try dsimp only
  repeat' (first
    | with_reducible assumption
    | with_reducible refine State.Keeps.ite ?_ ?_
    | with_reducible refine State.Keeps.ite_snd ?_ ?_
    | with_reducible apply State.hazard_keeps
    | (simp only [State.Keeps.mk_of]; with_reducible refine State.Keeps.core ?_)
    | with_reducible refine State.Keeps.foldl _ ?_ ?_
    | with_reducible refine State.Keeps.foldl_snd _ ?_ ?_
    | intro _
    | dsimp only
    | split
    | refine State.Keeps.of_snd (by assumption) ?_)

theorem State.noteWrite_keeps (n : Nat) (p : Port) (off len : Nat) (hs : s0.Keeps s) : s0.Keeps (State.noteWrite s n p off len) := by
  unfold State.noteWrite
  try dsimp only
  repeat' (first
    | with_reducible assumption
    | with_reducible refine State.Keeps.ite ?_ ?_
    | with_reducible refine State.Keeps.ite_snd ?_ ?_
    | with_reducible apply State.hazard_keeps
    | (simp only [State.Keeps.mk_of]; with_reducible refine State.Keeps.core ?_)
    | with_reducible refine State.Keeps.foldl _ ?_ ?_
    | with_reducible refine State.Keeps.foldl_snd _ ?_ ?_
    | intro _
    | dsimp only
    | refine State.Keeps.of_snd (by assumption) ?_)

theorem State.readSpad_keeps (n : Nat) (p : Port) (off len : Nat) (who : Reader) (hs : s0.Keeps s) : s0.Keeps (State.readSpad s n p off len who).2 := by
  unfold State.readSpad
  try dsimp only
  repeat' (first
    | with_reducible assumption
    | with_reducible refine State.Keeps.ite ?_ ?_
    | with_reducible refine State.Keeps.ite_snd ?_ ?_
    | with_reducible apply State.cycles_keeps
    | with_reducible apply State.readCoded_keeps
    | with_reducible apply State.noteRead_keeps
    | (simp only [State.Keeps.mk_of]; with_reducible refine State.Keeps.core ?_)
    | intro _
    | dsimp only
    | refine State.Keeps.of_snd (by assumption) ?_)

theorem State.readPort_keeps (n : Nat) (p : Port) (off len : Nat) (hs : s0.Keeps s) : s0.Keeps (State.readPort s n p off len).2 := by
  unfold State.readPort
  try dsimp only
  repeat' (first
    | with_reducible assumption
    | with_reducible refine State.Keeps.ite ?_ ?_
    | with_reducible refine State.Keeps.ite_snd ?_ ?_
    | with_reducible apply State.trap_keeps
    | with_reducible apply State.readSpad_keeps
    | (simp only [State.Keeps.mk_of]; with_reducible refine State.Keeps.core ?_)
    | intro _
    | dsimp only
    | refine State.Keeps.of_snd (by assumption) ?_)

theorem State.queueRows_keeps (n port op : Nat) (remote : Bool) (rows : List (Nat × List Byte)) (hs : s0.Keeps s) : s0.Keeps (State.queueRows s n port op remote rows) := by
  unfold State.queueRows
  try dsimp only
  repeat' (first
    | with_reducible assumption
    | with_reducible refine State.Keeps.ite ?_ ?_
    | with_reducible refine State.Keeps.ite_snd ?_ ?_
    | (simp only [State.Keeps.mk_of]; with_reducible refine State.Keeps.core ?_)
    | with_reducible refine State.Keeps.foldl _ ?_ ?_
    | with_reducible refine State.Keeps.foldl_snd _ ?_ ?_
    | intro _
    | dsimp only
    | refine State.Keeps.of_snd (by assumption) ?_)

theorem State.queueWrite_keeps (n : Nat) (p : Port) (off : Nat) (bs : List Byte) (op : Nat) (remote : Bool) (hs : s0.Keeps s) : s0.Keeps (State.queueWrite s n p off bs op remote) := by
  unfold State.queueWrite
  try dsimp only
  repeat' (first
    | with_reducible assumption
    | with_reducible refine State.Keeps.ite ?_ ?_
    | with_reducible apply State.noteWrite_keeps
    | with_reducible apply State.queueRows_keeps
    | (simp only [State.Keeps.mk_of]; with_reducible refine State.Keeps.core ?_)
    | intro _)

theorem State.writePort_keeps (n : Nat) (p : Port) (off : Nat) (bs : List Byte) (hs : s0.Keeps s) : s0.Keeps (State.writePort s n p off bs) := by
  unfold State.writePort
  try dsimp only
  repeat' (first
    | with_reducible assumption
    | with_reducible refine State.Keeps.ite ?_ ?_
    | with_reducible apply State.trap_keeps
    | with_reducible apply State.queueWrite_keeps
    | (simp only [State.Keeps.mk_of]; with_reducible refine State.Keeps.core ?_)
    | intro _)

theorem State.tableEntries_keeps (c off count : Nat) (hs : s0.Keeps s) : s0.Keeps (State.tableEntries s c off count).2 := by
  unfold State.tableEntries
  try dsimp only
  repeat' (first
    | with_reducible assumption
    | with_reducible refine State.Keeps.ite ?_ ?_
    | with_reducible refine State.Keeps.ite_snd ?_ ?_
    | with_reducible apply State.readRoof_keeps
    | (simp only [State.Keeps.mk_of]; with_reducible refine State.Keeps.core ?_)
    | with_reducible refine State.Keeps.foldl _ ?_ ?_
    | with_reducible refine State.Keeps.foldl_snd _ ?_ ?_
    | intro _
    | dsimp only
    | refine State.Keeps.of_snd (by assumption) ?_)

theorem State.channelScales_keeps (c half layer row count : Nat) (alt : Bool) (hs : s0.Keeps s) : s0.Keeps (State.channelScales s c half layer row count alt).2 := by
  unfold State.channelScales
  try dsimp only
  repeat' (first
    | with_reducible assumption
    | with_reducible refine State.Keeps.ite ?_ ?_
    | with_reducible refine State.Keeps.ite_snd ?_ ?_
    | with_reducible apply State.tableEntries_keeps
    | (simp only [State.Keeps.mk_of]; with_reducible refine State.Keeps.core ?_)
    | intro _
    | dsimp only)

theorem State.readLine_keeps (n line : Nat) (hs : s0.Keeps s) : s0.Keeps (State.readLine s n line).2 := by
  unfold State.readLine
  try dsimp only
  repeat' (first
    | with_reducible assumption
    | with_reducible refine State.Keeps.ite ?_ ?_
    | with_reducible refine State.Keeps.ite_snd ?_ ?_
    | with_reducible apply State.readWord_keeps
    | with_reducible apply State.trap_keeps
    | (simp only [State.Keeps.mk_of]; with_reducible refine State.Keeps.core ?_)
    | with_reducible refine State.Keeps.foldl _ ?_ ?_
    | with_reducible refine State.Keeps.foldl_snd _ ?_ ?_
    | intro _
    | dsimp only
    | refine State.Keeps.of_snd (by assumption) ?_)

theorem State.groupLine_keeps (n set line layer entry l : Nat) (hs : s0.Keeps s) : s0.Keeps (State.groupLine s n set line layer entry l) := by
  unfold State.groupLine
  try dsimp only
  repeat' (first
    | with_reducible assumption
    | with_reducible refine State.Keeps.ite ?_ ?_
    | with_reducible refine State.Keeps.ite_snd ?_ ?_
    | with_reducible apply State.set_keeps
    | with_reducible apply State.wipe_keeps
    | with_reducible apply State.wrNum_keeps
    | with_reducible apply State.readLine_keeps
    | (simp only [State.Keeps.mk_of]; with_reducible refine State.Keeps.core ?_)
    | with_reducible refine State.Keeps.foldl _ ?_ ?_
    | with_reducible refine State.Keeps.foldl_snd _ ?_ ?_
    | with_reducible refine State.Keeps.getD ?_ ?_
    | intro _
    | dsimp only)

theorem State.drainLatch_keeps (n layer row0 carriage sweep : Nat) (hs : s0.Keeps s) : s0.Keeps (State.drainLatch s n layer row0 carriage sweep).2 := by
  unfold State.drainLatch
  try dsimp only
  repeat' (first
    | with_reducible assumption
    | with_reducible refine State.Keeps.ite ?_ ?_
    | with_reducible refine State.Keeps.ite_snd ?_ ?_
    | with_reducible apply State.channelScales_keeps
    | (simp only [State.Keeps.mk_of]; with_reducible refine State.Keeps.core ?_)
    | intro _
    | dsimp only
    | refine State.Keeps.of_snd (by assumption) ?_)

theorem State.drainRows_keeps (n set out : Nat) (latch : List Nat × List Bool) (j : Nat) (hs : s0.Keeps s) : s0.Keeps (State.drainRows s n set out latch j) := by
  unfold State.drainRows
  try dsimp only
  repeat' (first
    | with_reducible assumption
    | with_reducible refine State.Keeps.ite ?_ ?_
    | with_reducible refine State.Keeps.ite_snd ?_ ?_
    | with_reducible apply State.set_keeps
    | with_reducible apply State.readCoded_keeps
    | with_reducible apply State.writePort_keeps
    | (simp only [State.Keeps.mk_of]; with_reducible refine State.Keeps.core ?_)
    | with_reducible refine State.Keeps.getD ?_ ?_
    | intro _
    | dsimp only)

theorem State.drainCycle_keeps (older : List ArrayOp) (o : ArrayOp) (hs : s0.Keeps s) : s0.Keeps (State.drainCycle s older o).1 := by
  unfold State.drainCycle
  split
  · exact hs
  · split
    · exact hs
    · refine State.drainRows_keeps _ _ _ _ _ ?_
      split
      · exact hs
      · exact State.drainLatch_keeps _ _ _ _ _ hs

theorem State.groupCycle_keeps (o : ArrayOp) (hs : s0.Keeps s) : s0.Keeps (State.groupCycle s o).1 := by
  unfold State.groupCycle
  split
  · exact State.groupLine_keeps _ _ _ _ _ _ hs
  · exact hs

theorem State.arrayCycle_keeps (hs : s0.Keeps s) : s0.Keeps (State.arrayCycle s) := by
  unfold State.arrayCycle
  dsimp only
  simp only [State.Keeps.mk_of]
  refine State.Keeps.core (State.Keeps.foldl_fst _ ?_ fun t x ht => State.groupCycle_keeps _ ht)
  exact State.Keeps.foldl_fst _ hs fun t x ht => State.drainCycle_keeps _ _ ht

theorem State.workCycles_keeps (n : Nat) (hs : s0.Keeps s) : s0.Keeps (State.workCycles n s) := by
  induction n generalizing s with
  | zero => exact hs
  | succ n ih => exact ih (State.cycles_keeps _ (State.arrayCycle_keeps hs))

theorem State.work_keeps (n : Nat) (hs : s0.Keeps s) : s0.Keeps (State.work s n) := by
  unfold State.work
  try dsimp only
  repeat' (first
    | with_reducible assumption
    | with_reducible refine State.Keeps.ite ?_ ?_
    | with_reducible apply State.cycles_keeps
    | with_reducible apply State.workCycles_keeps
    | (simp only [State.Keeps.mk_of]; with_reducible refine State.Keeps.core ?_)
    | intro _)

theorem State.trapCircs_keeps  (hs : s0.Keeps s) : s0.Keeps (State.trapCircs s) := by
  unfold State.trapCircs
  try dsimp only
  repeat' (first
    | with_reducible assumption
    | with_reducible refine State.Keeps.ite ?_ ?_
    | with_reducible refine State.Keeps.ite_snd ?_ ?_
    | with_reducible apply State.trap_keeps
    | (simp only [State.Keeps.mk_of]; with_reducible refine State.Keeps.core ?_)
    | with_reducible refine State.Keeps.foldl _ ?_ ?_
    | with_reducible refine State.Keeps.foldl_snd _ ?_ ?_
    | intro _
    | dsimp only)

theorem State.logWaits_keeps  (hs : s0.Keeps s) : s0.Keeps (State.logWaits s) := by
  unfold State.logWaits
  try dsimp only
  repeat' (first
    | with_reducible assumption
    | with_reducible refine State.Keeps.ite ?_ ?_
    | with_reducible refine State.Keeps.ite_snd ?_ ?_
    | with_reducible apply State.hazard_keeps
    | (simp only [State.Keeps.mk_of]; with_reducible refine State.Keeps.core ?_)
    | with_reducible refine State.Keeps.foldl _ ?_ ?_
    | with_reducible refine State.Keeps.foldl_snd _ ?_ ?_
    | intro _
    | dsimp only)

theorem State.catchUp_keeps  (hs : s0.Keeps s) : s0.Keeps (State.catchUp s) := by
  unfold State.catchUp
  try dsimp only
  repeat' (first
    | with_reducible assumption
    | with_reducible refine State.Keeps.ite ?_ ?_
    | with_reducible apply State.work_keeps
    | (simp only [State.Keeps.mk_of]; with_reducible refine State.Keeps.core ?_)
    | intro _)

theorem State.pass_keeps (dt : Nat) (hs : s0.Keeps s) : s0.Keeps (State.pass s dt) := by
  unfold State.pass
  try dsimp only
  repeat' (first
    | with_reducible assumption
    | with_reducible refine State.Keeps.ite ?_ ?_
    | with_reducible apply State.elapse_keeps
    | with_reducible apply State.route_keeps
    | with_reducible apply State.sendLinks_keeps
    | with_reducible apply State.transmit_keeps
    | with_reducible apply State.trapCircs_keeps
    | with_reducible apply State.logWaits_keeps
    | with_reducible apply State.catchUp_keeps
    | (simp only [State.Keeps.mk_of]; with_reducible refine State.Keeps.core ?_)
    | intro _)

theorem State.next_keeps (n : Nat) (hs : s0.Keeps s) : s0.Keeps (State.next s n) := by
  unfold State.next
  try dsimp only
  repeat' (first
    | with_reducible assumption
    | with_reducible refine State.Keeps.ite ?_ ?_
    | with_reducible apply State.work_keeps
    | (simp only [State.Keeps.mk_of]; with_reducible refine State.Keeps.core ?_)
    | intro _)

theorem State.atOffset_keeps (off : Nat) (hs : s0.Keeps s) : s0.Keeps (State.atOffset s off) := by
  unfold State.atOffset
  try dsimp only
  repeat' (first
    | with_reducible assumption
    | with_reducible refine State.Keeps.ite ?_ ?_
    | with_reducible apply State.trapCircs_keeps
    | with_reducible apply State.next_keeps
    | (simp only [State.Keeps.mk_of]; with_reducible refine State.Keeps.core ?_)
    | intro _)

theorem State.portCirc_keeps (n : Nat) (p : Port) (c k : Nat) (pop : Bool) (hs : s0.Keeps s) : s0.Keeps (State.portCirc s n p c k pop) := by
  unfold State.portCirc
  try dsimp only
  repeat' (first
    | with_reducible assumption
    | with_reducible refine State.Keeps.ite ?_ ?_
    | with_reducible apply State.trap_keeps
    | (simp only [State.Keeps.mk_of]; with_reducible refine State.Keeps.core ?_)
    | intro _
    | dsimp only
    | refine State.Keeps.of_snd (by assumption) ?_)

theorem State.seqCirc_keeps (n c k : Nat) (pop : Bool) (hs : s0.Keeps s) : s0.Keeps (State.seqCirc s n c k pop) := by
  unfold State.seqCirc
  try dsimp only
  repeat' (first
    | with_reducible assumption
    | with_reducible refine State.Keeps.ite ?_ ?_
    | with_reducible apply State.portCirc_keeps
    | (simp only [State.Keeps.mk_of]; with_reducible refine State.Keeps.core ?_)
    | intro _)

theorem State.remoteCirc_keeps (n c k : Nat) (pop : Bool) (origin : Option (Nat × Nat)) (hs : s0.Keeps s) : s0.Keeps (State.remoteCirc s n c k pop origin) := by
  unfold State.remoteCirc
  try dsimp only
  repeat' (first
    | with_reducible assumption
    | with_reducible refine State.Keeps.ite ?_ ?_
    | (simp only [State.Keeps.mk_of]; with_reducible refine State.Keeps.core ?_)
    | intro _
    | dsimp only
    | refine State.Keeps.of_snd (by assumption) ?_)

theorem State.ringRead_keeps (n : Nat) (p : Port) (c : Nat) (tail : Bool) (i b len : Nat) (hs : s0.Keeps s) : s0.Keeps (State.ringRead s n p c tail i b len).2 := by
  unfold State.ringRead
  try dsimp only
  repeat' (first
    | with_reducible assumption
    | with_reducible refine State.Keeps.ite ?_ ?_
    | with_reducible refine State.Keeps.ite_snd ?_ ?_
    | with_reducible apply State.trap_keeps
    | with_reducible apply State.readPort_keeps
    | (simp only [State.Keeps.mk_of]; with_reducible refine State.Keeps.core ?_)
    | intro _
    | dsimp only
    | refine State.Keeps.of_snd (by assumption) ?_)

theorem State.ringWrite_keeps (n : Nat) (p : Port) (c : Nat) (tail : Bool) (i b : Nat) (bs : List Byte) (hs : s0.Keeps s) : s0.Keeps (State.ringWrite s n p c tail i b bs) := by
  unfold State.ringWrite
  try dsimp only
  repeat' (first
    | with_reducible assumption
    | with_reducible refine State.Keeps.ite ?_ ?_
    | with_reducible apply State.trap_keeps
    | with_reducible apply State.writePort_keeps
    | (simp only [State.Keeps.mk_of]; with_reducible refine State.Keeps.core ?_)
    | intro _)

theorem State.updFills_keeps (f : List (Nat × Nat) → List (Nat × Nat)) (hs : s0.Keeps s) : s0.Keeps (State.updFills s f) := by
  unfold State.updFills
  try dsimp only
  repeat' (first
    | with_reducible assumption
    | with_reducible refine State.Keeps.ite ?_ ?_
    | (simp only [State.Keeps.mk_of]; with_reducible refine State.Keeps.core ?_)
    | intro _)

theorem State.fillCopy_keeps {tt : State} {n ch : Nat} {d : Desc} {copy : Bool} (e : State.fillCopy s n ch d copy = some tt) (hs : s0.Keeps s) : s0.Keeps tt := by
  unfold State.fillCopy at e
  try dsimp only at e
  repeat' (first
    | (cases e; done)
    | (injection e with e; subst e)
    | split at e)
  all_goals repeat' (first
    | with_reducible assumption
    | with_reducible refine State.Keeps.ite ?_ ?_
    | with_reducible refine State.Keeps.ite_snd ?_ ?_
    | with_reducible apply State.noteWrite_keeps
    | with_reducible apply State.readSpad_keeps
    | with_reducible apply State.queueRows_keeps
    | with_reducible apply State.updFills_keeps
    | (simp only [State.Keeps.mk_of]; with_reducible refine State.Keeps.core ?_)
    | with_reducible refine State.Keeps.foldl _ ?_ ?_
    | with_reducible refine State.Keeps.foldl_snd _ ?_ ?_
    | intro _
    | dsimp only
    | split
    | refine State.Keeps.of_snd (by assumption) ?_)

theorem State.srNext_keeps (n x : Nat) (hs : s0.Keeps s) : s0.Keeps (State.srNext s n x) := by
  unfold State.srNext
  try dsimp only
  repeat' (first
    | with_reducible assumption
    | with_reducible refine State.Keeps.ite ?_ ?_
    | with_reducible apply State.set_keeps
    | (simp only [State.Keeps.mk_of]; with_reducible refine State.Keeps.core ?_)
    | intro _)

theorem State.send_keeps (p : Packet) (hs : s0.Keeps s) : s0.Keeps (State.send s p) := by
  unfold State.send
  try dsimp only
  repeat' (first
    | with_reducible assumption
    | with_reducible refine State.Keeps.ite ?_ ?_
    | (simp only [State.Keeps.mk_of]; with_reducible refine State.Keeps.core ?_)
    | intro _)

theorem State.hop_keeps (n port : Nat) (p : Packet) (hs : s0.Keeps s) : s0.Keeps (State.hop s n port p) := by
  unfold State.hop
  try dsimp only
  repeat' (first
    | with_reducible assumption
    | with_reducible refine State.Keeps.ite ?_ ?_
    | (simp only [State.Keeps.mk_of]; with_reducible refine State.Keeps.core ?_)
    | intro _
    | dsimp only
    | refine State.Keeps.of_snd (by assumption) ?_)

theorem State.inject_keeps (n : Nat) (p : Packet) (hs : s0.Keeps s) : s0.Keeps (State.inject s n p) := by
  unfold State.inject
  try dsimp only
  repeat' (first
    | with_reducible assumption
    | with_reducible refine State.Keeps.ite ?_ ?_
    | with_reducible apply State.send_keeps
    | with_reducible apply State.hop_keeps
    | (simp only [State.Keeps.mk_of]; with_reducible refine State.Keeps.core ?_)
    | intro _)

theorem State.issued_keeps (n : Nat) (a : SchedAction) (hs : s0.Keeps s) : s0.Keeps (State.issued s n a) := by
  unfold State.issued
  try dsimp only
  repeat' (first
    | with_reducible assumption
    | with_reducible refine State.Keeps.ite ?_ ?_
    | with_reducible apply State.atOffset_keeps
    | (simp only [State.Keeps.mk_of]; with_reducible refine State.Keeps.core ?_)
    | with_reducible refine State.Keeps.getD ?_ ?_
    | intro _
    | dsimp only
    | refine State.Keeps.of_snd (by assumption) ?_)

theorem State.issue_keeps (n i kind : Nat) (f : State → SchedAction → State) (hf : ∀ t a0, s0.Keeps t → s0.Keeps (f t a0)) (hs : s0.Keeps s) : s0.Keeps (State.issue s n i kind f) := by
  unfold State.issue
  try dsimp only
  repeat' (first
    | with_reducible assumption
    | with_reducible apply hf
    | with_reducible refine State.Keeps.ite ?_ ?_
    | with_reducible apply State.issued_keeps
    | (simp only [State.Keeps.mk_of]; with_reducible refine State.Keeps.core ?_)
    | intro _
    | split)

theorem execActionPush_keeps {tt : State} (dt n i : Nat) (ex : execActionPush dt n i s = .next tt) : s.Keeps tt := by
  have hs := State.Keeps.refl s
  unfold execActionPush at ex
  try dsimp only at ex
  refine State.Keeps.of_next ex ?_
  clear ex
  repeat' (first
    | with_reducible assumption
    | with_reducible refine State.Keeps.ite ?_ ?_
    | with_reducible apply State.pass_keeps
    | with_reducible apply State.next_keeps
    | with_reducible apply State.seqCirc_keeps
    | with_reducible apply State.issue_keeps
    | (simp only [State.Keeps.mk_of]; with_reducible refine State.Keeps.core ?_)
    | intro _
    | split)

theorem execActionPop_keeps {tt : State} (dt n i : Nat) (ex : execActionPop dt n i s = .next tt) : s.Keeps tt := by
  have hs := State.Keeps.refl s
  unfold execActionPop at ex
  try dsimp only at ex
  refine State.Keeps.of_next ex ?_
  clear ex
  repeat' (first
    | with_reducible assumption
    | with_reducible refine State.Keeps.ite ?_ ?_
    | with_reducible apply State.pass_keeps
    | with_reducible apply State.next_keeps
    | with_reducible apply State.seqCirc_keeps
    | with_reducible apply State.issue_keeps
    | (simp only [State.Keeps.mk_of]; with_reducible refine State.Keeps.core ?_)
    | intro _
    | split)

theorem State.seqFill_keeps (n : Nat) (a : SchedAction) (copy : Bool) (hs : s0.Keeps s) : s0.Keeps (State.seqFill s n a copy) := by
  unfold State.seqFill
  try dsimp only
  repeat' (first
    | with_reducible assumption
    | with_reducible refine State.Keeps.ite ?_ ?_
    | with_reducible refine State.Keeps.ite_snd ?_ ?_
    | with_reducible apply State.trap_keeps
    | with_reducible apply State.readPort_keeps
    | (simp only [State.Keeps.mk_of]; with_reducible refine State.Keeps.core ?_)
    | with_reducible refine State.Keeps.getD ?_ ?_
    | intro _
    | dsimp only
    | split
    | refine State.Keeps.of_snd (by assumption) ?_
    | refine State.fillCopy_keeps (by assumption) ?_)

theorem execActionFill_keeps {tt : State} (dt n i : Nat) (ex : execActionFill dt n i s = .next tt) : s.Keeps tt := by
  have hs := State.Keeps.refl s
  unfold execActionFill at ex
  try dsimp only at ex
  refine State.Keeps.of_next ex ?_
  clear ex
  repeat' (first
    | with_reducible assumption
    | with_reducible refine State.Keeps.ite ?_ ?_
    | with_reducible apply State.pass_keeps
    | with_reducible apply State.next_keeps
    | with_reducible apply State.issue_keeps
    | with_reducible apply State.seqFill_keeps
    | (simp only [State.Keeps.mk_of]; with_reducible refine State.Keeps.core ?_)
    | intro _
    | split)

theorem execActionCopy_keeps {tt : State} (dt n i : Nat) (ex : execActionCopy dt n i s = .next tt) : s.Keeps tt := by
  have hs := State.Keeps.refl s
  unfold execActionCopy at ex
  try dsimp only at ex
  refine State.Keeps.of_next ex ?_
  clear ex
  repeat' (first
    | with_reducible assumption
    | with_reducible refine State.Keeps.ite ?_ ?_
    | with_reducible apply State.pass_keeps
    | with_reducible apply State.next_keeps
    | with_reducible apply State.issue_keeps
    | with_reducible apply State.seqFill_keeps
    | (simp only [State.Keeps.mk_of]; with_reducible refine State.Keeps.core ?_)
    | intro _
    | split)

theorem State.clearHazards_keeps (n : Nat) (hs : s0.Keeps s) : s0.Keeps (State.clearHazards s n) := by
  unfold State.clearHazards
  try dsimp only
  repeat' (first
    | with_reducible assumption
    | with_reducible refine State.Keeps.ite ?_ ?_
    | with_reducible apply State.set_keeps
    | with_reducible apply State.setReg_keeps
    | (simp only [State.Keeps.mk_of]; with_reducible refine State.Keeps.core ?_)
    | with_reducible refine State.Keeps.foldl _ ?_ ?_
    | with_reducible refine State.Keeps.foldl_snd _ ?_ ?_
    | intro _)

theorem State.scrubRow_keeps (n bank key off : Nat) (hs : s0.Keeps s) : s0.Keeps (State.scrubRow s n bank key off) := by
  unfold State.scrubRow
  try dsimp only
  repeat' (first
    | with_reducible assumption
    | with_reducible refine State.Keeps.ite ?_ ?_
    | with_reducible refine State.Keeps.ite_snd ?_ ?_
    | with_reducible apply State.eccCount_keeps
    | with_reducible apply State.spadUe_keeps
    | (simp only [State.Keeps.mk_of]; with_reducible refine State.Keeps.core ?_)
    | with_reducible refine State.Keeps.foldl _ ?_ ?_
    | with_reducible refine State.Keeps.foldl_snd _ ?_ ?_
    | intro _
    | dsimp only
    | refine State.Keeps.of_snd (by assumption) ?_)

theorem State.scrubWord_keeps (n key : Nat) (hs : s0.Keeps s) : s0.Keeps (State.scrubWord s n key) := by
  unfold State.scrubWord
  try dsimp only
  repeat' (first
    | with_reducible assumption
    | with_reducible refine State.Keeps.ite ?_ ?_
    | with_reducible refine State.Keeps.ite_snd ?_ ?_
    | with_reducible apply State.readRoof_keeps
    | with_reducible apply State.queueRoof_keeps
    | (simp only [State.Keeps.mk_of]; with_reducible refine State.Keeps.core ?_)
    | intro _
    | dsimp only
    | split)

theorem State.scrubChunk_keeps (n : Nat) (hs : s0.Keeps s) : s0.Keeps (State.scrubChunk s n) := by
  unfold State.scrubChunk
  try dsimp only
  repeat' (first
    | with_reducible assumption
    | with_reducible refine State.Keeps.ite ?_ ?_
    | with_reducible apply State.iff_keeps
    | with_reducible apply State.noteRead_keeps
    | with_reducible apply State.scrubRow_keeps
    | with_reducible apply State.scrubWord_keeps
    | (simp only [State.Keeps.mk_of]; with_reducible refine State.Keeps.core ?_)
    | with_reducible refine State.Keeps.foldl _ ?_ ?_
    | with_reducible refine State.Keeps.foldl_snd _ ?_ ?_
    | with_reducible refine State.Keeps.getD ?_ ?_
    | intro _
    | refine State.fillCopy_keeps (by assumption) ?_)

theorem State.scrubNext_keeps (n : Nat) (hs : s0.Keeps s) : s0.Keeps (State.scrubNext s n) := by
  unfold State.scrubNext
  try dsimp only
  repeat' (first
    | with_reducible assumption
    | with_reducible refine State.Keeps.ite ?_ ?_
    | with_reducible refine State.Keeps.ite_snd ?_ ?_
    | with_reducible apply State.set_keeps
    | with_reducible apply State.inc_keeps
    | (simp only [State.Keeps.mk_of]; with_reducible refine State.Keeps.core ?_)
    | with_reducible refine State.Keeps.getD ?_ ?_
    | intro _
    | dsimp only
    | refine State.Keeps.of_snd (by assumption) ?_)

theorem execScrubChunk_keeps {tt : State} (dt n : Nat) (ups : List Upset) (ex : execScrubChunk dt n ups s = .next tt) : s.Keeps tt := by
  have hs := State.Keeps.refl s
  unfold execScrubChunk at ex
  try dsimp only at ex
  refine State.Keeps.of_next ex ?_
  clear ex
  repeat' (first
    | with_reducible assumption
    | with_reducible refine State.Keeps.ite ?_ ?_
    | with_reducible apply State.upset_keeps
    | with_reducible apply State.pass_keeps
    | with_reducible apply State.next_keeps
    | with_reducible apply State.scrubChunk_keeps
    | with_reducible apply State.scrubNext_keeps
    | (simp only [State.Keeps.mk_of]; with_reducible refine State.Keeps.core ?_)
    | intro _)

/-! ### Machine/Mesh.lean -/

theorem State.respondTo_keeps (p : Packet) (ty len : Nat) (data : List Byte) (hs : s0.Keeps s) : s0.Keeps (State.respondTo s p ty len data) := by
  unfold State.respondTo
  try dsimp only
  repeat' (first
    | with_reducible assumption
    | with_reducible refine State.Keeps.ite ?_ ?_
    | with_reducible apply State.send_keeps
    | (simp only [State.Keeps.mk_of]; with_reducible refine State.Keeps.core ?_)
    | intro _
    | dsimp only
    | refine State.Keeps.of_snd (by assumption) ?_)

theorem State.take_keeps {tt : State} {p : Packet} (e : State.take s p = some tt) (hs : s0.Keeps s) : s0.Keeps tt := by
  unfold State.take at e
  try dsimp only at e
  repeat' (first
    | (cases e; done)
    | (injection e with e; subst e)
    | split at e)
  all_goals repeat' (first
    | with_reducible assumption
    | with_reducible refine State.Keeps.ite ?_ ?_
    | (simp only [State.Keeps.mk_of]; with_reducible refine State.Keeps.core ?_)
    | intro _
    | split)

theorem State.receive_keeps (ty : Nat) (p : Packet) (f : State → State) (hf : ∀ t, s0.Keeps t → s0.Keeps (f t)) (hs : s0.Keeps s) : s0.Keeps (State.receive s ty p f) := by
  unfold State.receive
  try dsimp only
  repeat' (first
    | with_reducible assumption
    | with_reducible apply hf
    | with_reducible refine State.Keeps.ite ?_ ?_
    | with_reducible apply State.discard_keeps
    | (simp only [State.Keeps.mk_of]; with_reducible refine State.Keeps.core ?_)
    | with_reducible refine State.Keeps.getD ?_ ?_
    | intro _
    | split
    | refine State.take_keeps (by assumption) ?_)

theorem State.sendTo_keeps (b m : Nat) (t : Tx) (hs : s0.Keeps s) : s0.Keeps (State.sendTo s b m t) := by
  unfold State.sendTo
  try dsimp only
  repeat' (first
    | with_reducible assumption
    | with_reducible refine State.Keeps.ite ?_ ?_
    | with_reducible apply State.inc_keeps
    | with_reducible apply State.sendTx_keeps
    | (simp only [State.Keeps.mk_of]; with_reducible refine State.Keeps.core ?_)
    | intro _
    | split)

theorem State.window_keeps (b off vc srcEp tag : Nat) (ack : Bool) (push : Option (Nat × Nat)) (data : List Byte) (hs : s0.Keeps s) : s0.Keeps (State.window s b off vc srcEp tag ack push data).2 := by
  unfold State.window
  try dsimp only
  repeat' (first
    | with_reducible assumption
    | with_reducible refine State.Keeps.ite ?_ ?_
    | with_reducible refine State.Keeps.ite_snd ?_ ?_
    | with_reducible apply State.sendTx_keeps
    | with_reducible apply State.sendTo_keeps
    | (simp only [State.Keeps.mk_of]; with_reducible refine State.Keeps.core ?_)
    | with_reducible refine State.Keeps.foldl _ ?_ ?_
    | with_reducible refine State.Keeps.foldl_snd _ ?_ ?_
    | with_reducible refine State.Keeps.getD ?_ ?_
    | intro _
    | dsimp only
    | split
    | refine State.Keeps.of_snd (by assumption) ?_)

theorem State.remoteTrap_keeps (n kind circ : Nat) (p : Packet) (hs : s0.Keeps s) : s0.Keeps (State.remoteTrap s n kind circ p) := by
  unfold State.remoteTrap
  try dsimp only
  repeat' (first
    | with_reducible assumption
    | with_reducible refine State.Keeps.ite ?_ ?_
    | with_reducible apply State.trap_keeps
    | (simp only [State.Keeps.mk_of]; with_reducible refine State.Keeps.core ?_)
    | intro _
    | split)

theorem State.putRoof_keeps (key : Nat) (ws : List Nat) (hs : s0.Keeps s) : s0.Keeps (State.putRoof s key ws) := by
  unfold State.putRoof
  try dsimp only
  repeat' (first
    | with_reducible assumption
    | with_reducible refine State.Keeps.ite ?_ ?_
    | with_reducible refine State.Keeps.ite_snd ?_ ?_
    | with_reducible apply State.writeRoof_keeps
    | (simp only [State.Keeps.mk_of]; with_reducible refine State.Keeps.core ?_)
    | with_reducible refine State.Keeps.foldl _ ?_ ?_
    | with_reducible refine State.Keeps.foldl_snd _ ?_ ?_
    | intro _
    | dsimp only)

theorem State.putWords_keeps (n off : Nat) (ws : List Nat) (hs : s0.Keeps s) : s0.Keeps (State.putWords s n off ws) := by
  unfold State.putWords
  try dsimp only
  repeat' (first
    | with_reducible assumption
    | with_reducible refine State.Keeps.ite ?_ ?_
    | with_reducible apply State.putRoof_keeps
    | (simp only [State.Keeps.mk_of]; with_reducible refine State.Keeps.core ?_)
    | intro _)

theorem State.putTable_keeps (c off : Nat) (ws : List Nat) (hs : s0.Keeps s) : s0.Keeps (State.putTable s c off ws) := by
  unfold State.putTable
  try dsimp only
  repeat' (first
    | with_reducible assumption
    | with_reducible refine State.Keeps.ite ?_ ?_
    | with_reducible apply State.putRoof_keeps
    | (simp only [State.Keeps.mk_of]; with_reducible refine State.Keeps.core ?_)
    | intro _)

theorem State.queueWords_keeps (n key port op : Nat) (ws : List Nat) (hs : s0.Keeps s) : s0.Keeps (State.queueWords s n key port op ws) := by
  unfold State.queueWords
  try dsimp only
  repeat' (first
    | with_reducible assumption
    | with_reducible refine State.Keeps.ite ?_ ?_
    | with_reducible refine State.Keeps.ite_snd ?_ ?_
    | with_reducible apply State.queueRoof_keeps
    | (simp only [State.Keeps.mk_of]; with_reducible refine State.Keeps.core ?_)
    | with_reducible refine State.Keeps.foldl _ ?_ ?_
    | with_reducible refine State.Keeps.foldl_snd _ ?_ ?_
    | intro _
    | dsimp only)

theorem State.getRoof_keeps (key count : Nat) (hs : s0.Keeps s) : s0.Keeps (State.getRoof s key count).2 := by
  unfold State.getRoof
  try dsimp only
  repeat' (first
    | with_reducible assumption
    | with_reducible refine State.Keeps.ite ?_ ?_
    | with_reducible refine State.Keeps.ite_snd ?_ ?_
    | with_reducible apply State.readRoof_keeps
    | (simp only [State.Keeps.mk_of]; with_reducible refine State.Keeps.core ?_)
    | with_reducible refine State.Keeps.foldl _ ?_ ?_
    | with_reducible refine State.Keeps.foldl_snd _ ?_ ?_
    | intro _
    | dsimp only
    | refine State.Keeps.of_snd (by assumption) ?_)

theorem State.getWords_keeps (n off count : Nat) (hs : s0.Keeps s) : s0.Keeps (State.getWords s n off count).2 := by
  unfold State.getWords
  try dsimp only
  repeat' (first
    | with_reducible assumption
    | with_reducible refine State.Keeps.ite ?_ ?_
    | with_reducible refine State.Keeps.ite_snd ?_ ?_
    | with_reducible apply State.getRoof_keeps
    | (simp only [State.Keeps.mk_of]; with_reducible refine State.Keeps.core ?_)
    | intro _
    | dsimp only)

theorem State.getTable_keeps (n off count : Nat) (hs : s0.Keeps s) : s0.Keeps (State.getTable s n off count).2 := by
  unfold State.getTable
  try dsimp only
  repeat' (first
    | with_reducible assumption
    | with_reducible refine State.Keeps.ite ?_ ?_
    | with_reducible refine State.Keeps.ite_snd ?_ ?_
    | with_reducible apply State.getRoof_keeps
    | (simp only [State.Keeps.mk_of]; with_reducible refine State.Keeps.core ?_)
    | intro _
    | dsimp only)

theorem State.deliver_keeps (n : Nat) (p : Packet) (same : Bool) (hs : s0.Keeps s) : s0.Keeps (State.deliver s n p same).2 := by
  unfold State.deliver
  try dsimp only
  repeat' (first
    | with_reducible assumption
    | with_reducible refine State.Keeps.ite ?_ ?_
    | with_reducible refine State.Keeps.ite_snd ?_ ?_
    | with_reducible apply State.queueWrite_keeps
    | with_reducible apply State.trapCircs_keeps
    | with_reducible apply State.next_keeps
    | with_reducible apply State.remoteTrap_keeps
    | with_reducible apply State.queueWords_keeps
    | (simp only [State.Keeps.mk_of]; with_reducible refine State.Keeps.core ?_)
    | intro _
    | dsimp only
    | split
    | refine State.Keeps.of_snd (by assumption) ?_)

theorem State.answerWrite_keeps (p : Packet) (ok : Bool) (hs : s0.Keeps s) : s0.Keeps (State.answerWrite s p ok) := by
  unfold State.answerWrite
  try dsimp only
  repeat' (first
    | with_reducible assumption
    | with_reducible refine State.Keeps.ite ?_ ?_
    | with_reducible apply State.respondTo_keeps
    | (simp only [State.Keeps.mk_of]; with_reducible refine State.Keeps.core ?_)
    | intro _)

theorem execMeshWrite_keeps {tt : State} (dt : Nat) (p : Packet) (same : Bool) (ex : execMeshWrite dt p same s = .next tt) : s.Keeps tt := by
  have hs := State.Keeps.refl s
  unfold execMeshWrite at ex
  try dsimp only at ex
  refine State.Keeps.of_next ex ?_
  clear ex
  repeat' (first
    | with_reducible assumption
    | with_reducible refine State.Keeps.ite ?_ ?_
    | with_reducible refine State.Keeps.ite_snd ?_ ?_
    | with_reducible apply State.iff_keeps
    | with_reducible apply State.wrBytes_keeps
    | with_reducible apply State.pass_keeps
    | with_reducible apply State.next_keeps
    | with_reducible apply State.respondTo_keeps
    | with_reducible apply State.receive_keeps
    | with_reducible apply State.window_keeps
    | with_reducible apply State.deliver_keeps
    | with_reducible apply State.answerWrite_keeps
    | (simp only [State.Keeps.mk_of]; with_reducible refine State.Keeps.core ?_)
    | intro _
    | dsimp only
    | split
    | refine State.Keeps.of_snd (by assumption) ?_)

theorem execMeshReadRequest_keeps {tt : State} (dt : Nat) (p : Packet) (ex : execMeshReadRequest dt p s = .next tt) : s.Keeps tt := by
  have hs := State.Keeps.refl s
  unfold execMeshReadRequest at ex
  try dsimp only at ex
  refine State.Keeps.of_next ex ?_
  clear ex
  repeat' (first
    | with_reducible assumption
    | with_reducible refine State.Keeps.ite ?_ ?_
    | with_reducible refine State.Keeps.ite_snd ?_ ?_
    | with_reducible apply State.readSpad_keeps
    | with_reducible apply State.pass_keeps
    | with_reducible apply State.next_keeps
    | with_reducible apply State.respondTo_keeps
    | with_reducible apply State.receive_keeps
    | with_reducible apply State.remoteTrap_keeps
    | with_reducible apply State.getWords_keeps
    | with_reducible apply State.getTable_keeps
    | (simp only [State.Keeps.mk_of]; with_reducible refine State.Keeps.core ?_)
    | intro _
    | dsimp only
    | split
    | refine State.Keeps.of_snd (by assumption) ?_)

theorem execCircularPush_keeps {tt : State} (dt : Nat) (p : Packet) (ex : execCircularPush dt p s = .next tt) : s.Keeps tt := by
  have hs := State.Keeps.refl s
  unfold execCircularPush at ex
  try dsimp only at ex
  refine State.Keeps.of_next ex ?_
  clear ex
  repeat' (first
    | with_reducible assumption
    | with_reducible refine State.Keeps.ite ?_ ?_
    | with_reducible refine State.Keeps.ite_snd ?_ ?_
    | with_reducible apply State.pass_keeps
    | with_reducible apply State.next_keeps
    | with_reducible apply State.remoteCirc_keeps
    | with_reducible apply State.respondTo_keeps
    | with_reducible apply State.receive_keeps
    | with_reducible apply State.window_keeps
    | with_reducible apply State.remoteTrap_keeps
    | (simp only [State.Keeps.mk_of]; with_reducible refine State.Keeps.core ?_)
    | intro _
    | dsimp only
    | split
    | refine State.Keeps.of_snd (by assumption) ?_)

theorem execWaitingPushApplied_keeps {tt : State} (dt n c : Nat) (ex : execWaitingPushApplied dt n c s = .next tt) : s.Keeps tt := by
  have hs := State.Keeps.refl s
  unfold execWaitingPushApplied at ex
  try dsimp only at ex
  refine State.Keeps.of_next ex ?_
  clear ex
  repeat' (first
    | with_reducible assumption
    | with_reducible refine State.Keeps.ite ?_ ?_
    | with_reducible apply State.set_keeps
    | with_reducible apply State.circApply_keeps
    | with_reducible apply State.pass_keeps
    | with_reducible apply State.next_keeps
    | (simp only [State.Keeps.mk_of]; with_reducible refine State.Keeps.core ?_)
    | intro _
    | dsimp only
    | split
    | refine State.Keeps.of_snd (by assumption) ?_)

theorem State.barrierFlit_keeps (n q ty b : Nat) (hs : s0.Keeps s) : s0.Keeps (State.barrierFlit s n q ty b) := by
  unfold State.barrierFlit
  try dsimp only
  repeat' (first
    | with_reducible assumption
    | with_reducible refine State.Keeps.ite ?_ ?_
    | with_reducible apply State.hop_keeps
    | (simp only [State.Keeps.mk_of]; with_reducible refine State.Keeps.core ?_)
    | intro _
    | dsimp only
    | split
    | refine State.Keeps.of_snd (by assumption) ?_)

theorem State.release_keeps (n b : Nat) (hs : s0.Keeps s) : s0.Keeps (State.release s n b) := by
  unfold State.release
  try dsimp only
  repeat' (first
    | with_reducible assumption
    | with_reducible refine State.Keeps.ite ?_ ?_
    | with_reducible apply State.set_keeps
    | with_reducible apply State.inc_keeps
    | with_reducible apply State.barrierFlit_keeps
    | (simp only [State.Keeps.mk_of]; with_reducible refine State.Keeps.core ?_)
    | with_reducible refine State.Keeps.foldl _ ?_ ?_
    | with_reducible refine State.Keeps.foldl_snd _ ?_ ?_
    | intro _)

theorem State.barrierTx_keeps (k ty b : Nat) (hs : s0.Keeps s) : s0.Keeps (State.barrierTx s k ty b) := by
  unfold State.barrierTx
  try dsimp only
  repeat' (first
    | with_reducible assumption
    | with_reducible refine State.Keeps.ite ?_ ?_
    | with_reducible apply State.sendTx_keeps
    | (simp only [State.Keeps.mk_of]; with_reducible refine State.Keeps.core ?_)
    | intro _
    | dsimp only
    | refine State.Keeps.of_snd (by assumption) ?_)

theorem State.groupRelease_keeps (g : GBar) (hs : s0.Keeps s) : s0.Keeps (State.groupRelease s g) := by
  unfold State.groupRelease
  try dsimp only
  repeat' (first
    | with_reducible assumption
    | with_reducible refine State.Keeps.ite ?_ ?_
    | with_reducible apply State.release_keeps
    | with_reducible apply State.barrierTx_keeps
    | (simp only [State.Keeps.mk_of]; with_reducible refine State.Keeps.core ?_)
    | with_reducible refine State.Keeps.foldl _ ?_ ?_
    | with_reducible refine State.Keeps.foldl_snd _ ?_ ?_
    | intro _
    | split)

theorem State.groupCheck_keeps (g : GBar) (hs : s0.Keeps s) : s0.Keeps (State.groupCheck s g) := by
  unfold State.groupCheck
  try dsimp only
  repeat' (first
    | with_reducible assumption
    | with_reducible refine State.Keeps.ite ?_ ?_
    | with_reducible apply State.barrierTx_keeps
    | with_reducible apply State.groupRelease_keeps
    | (simp only [State.Keeps.mk_of]; with_reducible refine State.Keeps.core ?_)
    | intro _
    | dsimp only
    | split
    | refine State.Keeps.of_snd (by assumption) ?_)

theorem State.barrierCheck_keeps (n b : Nat) (hs : s0.Keeps s) : s0.Keeps (State.barrierCheck s n b) := by
  unfold State.barrierCheck
  try dsimp only
  repeat' (first
    | with_reducible assumption
    | with_reducible refine State.Keeps.ite ?_ ?_
    | with_reducible apply State.barrierFlit_keeps
    | with_reducible apply State.release_keeps
    | with_reducible apply State.groupCheck_keeps
    | (simp only [State.Keeps.mk_of]; with_reducible refine State.Keeps.core ?_)
    | intro _
    | split)

theorem State.arrived_keeps (n b port : Nat) (hs : s0.Keeps s) : s0.Keeps (State.arrived s n b port) := by
  unfold State.arrived
  try dsimp only
  repeat' (first
    | with_reducible assumption
    | with_reducible refine State.Keeps.ite ?_ ?_
    | with_reducible apply State.set_keeps
    | with_reducible apply State.barrierCheck_keeps
    | (simp only [State.Keeps.mk_of]; with_reducible refine State.Keeps.core ?_)
    | intro _)

theorem State.barrierArrive_keeps (n b : Nat) (hs : s0.Keeps s) : s0.Keeps (State.barrierArrive s n b) := by
  unfold State.barrierArrive
  try dsimp only
  repeat' (first
    | with_reducible assumption
    | with_reducible refine State.Keeps.ite ?_ ?_
    | with_reducible apply State.set_keeps
    | with_reducible apply State.inc_keeps
    | with_reducible apply State.raise_keeps
    | with_reducible apply State.arrived_keeps
    | (simp only [State.Keeps.mk_of]; with_reducible refine State.Keeps.core ?_)
    | intro _
    | split)

theorem execActionBarrierArrive_keeps {tt : State} (dt n i : Nat) (ex : execActionBarrierArrive dt n i s = .next tt) : s.Keeps tt := by
  have hs := State.Keeps.refl s
  unfold execActionBarrierArrive at ex
  try dsimp only at ex
  refine State.Keeps.of_next ex ?_
  clear ex
  repeat' (first
    | with_reducible assumption
    | with_reducible refine State.Keeps.ite ?_ ?_
    | with_reducible apply State.pass_keeps
    | with_reducible apply State.next_keeps
    | with_reducible apply State.issue_keeps
    | with_reducible apply State.barrierArrive_keeps
    | (simp only [State.Keeps.mk_of]; with_reducible refine State.Keeps.core ?_)
    | intro _
    | split)

theorem State.takeHop_keeps {tt : State} {zz : Packet} {n port ty num : Nat} (e : State.takeHop s n port ty num = some (zz, tt)) (hs : s0.Keeps s) : s0.Keeps tt := by
  unfold State.takeHop at e
  try dsimp only at e
  repeat' (first
    | (cases e; done)
    | (injection e with e; injection e with e1 e; subst e)
    | split at e)
  all_goals repeat' (first
    | with_reducible assumption
    | with_reducible refine State.Keeps.ite ?_ ?_
    | with_reducible refine State.Keeps.ite_snd ?_ ?_
    | (simp only [State.Keeps.mk_of]; with_reducible refine State.Keeps.core ?_)
    | intro _
    | dsimp only
    | split
    | refine State.Keeps.of_snd (by assumption) ?_)

theorem execBarrierArriveFlit_keeps {tt : State} (dt n port b : Nat) (ex : execBarrierArriveFlit dt n port b s = .next tt) : s.Keeps tt := by
  have hs := State.Keeps.refl s
  unfold execBarrierArriveFlit at ex
  try dsimp only at ex
  refine State.Keeps.of_next ex ?_
  clear ex
  repeat' (first
    | with_reducible assumption
    | with_reducible refine State.Keeps.ite ?_ ?_
    | with_reducible apply State.pass_keeps
    | with_reducible apply State.next_keeps
    | with_reducible apply State.arrived_keeps
    | (simp only [State.Keeps.mk_of]; with_reducible refine State.Keeps.core ?_)
    | intro _
    | dsimp only
    | split
    | refine State.Keeps.of_snd (by assumption) ?_
    | refine State.takeHop_keeps (by assumption) ?_)

theorem execBarrierReleaseFlit_keeps {tt : State} (dt n port b : Nat) (ex : execBarrierReleaseFlit dt n port b s = .next tt) : s.Keeps tt := by
  have hs := State.Keeps.refl s
  unfold execBarrierReleaseFlit at ex
  try dsimp only at ex
  refine State.Keeps.of_next ex ?_
  clear ex
  repeat' (first
    | with_reducible assumption
    | with_reducible refine State.Keeps.ite ?_ ?_
    | with_reducible apply State.pass_keeps
    | with_reducible apply State.next_keeps
    | with_reducible apply State.release_keeps
    | (simp only [State.Keeps.mk_of]; with_reducible refine State.Keeps.core ?_)
    | intro _
    | dsimp only
    | split
    | refine State.Keeps.of_snd (by assumption) ?_
    | refine State.takeHop_keeps (by assumption) ?_)

theorem execMulticastWrite_keeps {tt : State} (dt n port t : Nat) (same : Bool) (ex : execMulticastWrite dt n port t same s = .next tt) : s.Keeps tt := by
  have hs := State.Keeps.refl s
  unfold execMulticastWrite at ex
  try dsimp only at ex
  refine State.Keeps.of_next ex ?_
  clear ex
  repeat' (first
    | with_reducible assumption
    | with_reducible refine State.Keeps.ite ?_ ?_
    | with_reducible refine State.Keeps.ite_snd ?_ ?_
    | with_reducible apply State.discard_keeps
    | with_reducible apply State.pass_keeps
    | with_reducible apply State.next_keeps
    | with_reducible apply State.hop_keeps
    | with_reducible apply State.deliver_keeps
    | (simp only [State.Keeps.mk_of]; with_reducible refine State.Keeps.core ?_)
    | with_reducible refine State.Keeps.foldl _ ?_ ?_
    | with_reducible refine State.Keeps.foldl_snd _ ?_ ?_
    | intro _
    | dsimp only
    | split
    | refine State.Keeps.of_snd (by assumption) ?_
    | refine State.takeHop_keeps (by assumption) ?_)

theorem execMcastHold_keeps {tt : State} (dt n t port : Nat) (ex : execMcastHold dt n t port s = .next tt) : s.Keeps tt := by
  have hs := State.Keeps.refl s
  unfold execMcastHold at ex
  try dsimp only at ex
  refine State.Keeps.of_next ex ?_
  clear ex
  repeat' (first
    | with_reducible assumption
    | with_reducible refine State.Keeps.ite ?_ ?_
    | with_reducible apply State.inc_keeps
    | with_reducible apply State.raise_keeps
    | with_reducible apply State.raiseHold_keeps
    | with_reducible apply State.hazard_keeps
    | with_reducible apply State.pass_keeps
    | with_reducible apply State.next_keeps
    | (simp only [State.Keeps.mk_of]; with_reducible refine State.Keeps.core ?_)
    | intro _)

theorem execNetStall_keeps {tt : State} (dt n t : Nat) (ex : execNetStall dt n t s = .next tt) : s.Keeps tt := by
  have hs := State.Keeps.refl s
  unfold execNetStall at ex
  try dsimp only at ex
  refine State.Keeps.of_next ex ?_
  clear ex
  repeat' (first
    | with_reducible assumption
    | with_reducible refine State.Keeps.ite ?_ ?_
    | with_reducible apply State.raise_keeps
    | with_reducible apply State.dropPackets_keeps
    | with_reducible apply State.imageFault_keeps
    | with_reducible apply State.pass_keeps
    | with_reducible apply State.next_keeps
    | (simp only [State.Keeps.mk_of]; with_reducible refine State.Keeps.core ?_)
    | intro _)

/-! ### Machine/Carts.lean -/

theorem State.setCart_keeps (n ch : Nat) (c : Cart) (hs : s0.Keeps s) : s0.Keeps (State.setCart s n ch c) := by
  unfold State.setCart
  try dsimp only
  repeat' (first
    | with_reducible assumption
    | with_reducible refine State.Keeps.ite ?_ ?_
    | with_reducible apply State.set_keeps
    | (simp only [State.Keeps.mk_of]; with_reducible refine State.Keeps.core ?_)
    | intro _
    | split)

theorem State.cartIssue_keeps (n ch off : Nat) (hs : s0.Keeps s) : s0.Keeps (State.cartIssue s n ch off) := by
  unfold State.cartIssue
  try dsimp only
  repeat' (first
    | with_reducible assumption
    | with_reducible refine State.Keeps.ite ?_ ?_
    | with_reducible apply State.inc_keeps
    | with_reducible apply State.raise_keeps
    | with_reducible apply State.setCart_keeps
    | (simp only [State.Keeps.mk_of]; with_reducible refine State.Keeps.core ?_)
    | intro _)

theorem execActionCartIssue_keeps {tt : State} (dt n i : Nat) (ex : execActionCartIssue dt n i s = .next tt) : s.Keeps tt := by
  have hs := State.Keeps.refl s
  unfold execActionCartIssue at ex
  try dsimp only at ex
  refine State.Keeps.of_next ex ?_
  clear ex
  repeat' (first
    | with_reducible assumption
    | with_reducible refine State.Keeps.ite ?_ ?_
    | with_reducible apply State.pass_keeps
    | with_reducible apply State.next_keeps
    | with_reducible apply State.issue_keeps
    | with_reducible apply State.cartIssue_keeps
    | (simp only [State.Keeps.mk_of]; with_reducible refine State.Keeps.core ?_)
    | intro _
    | split)

theorem State.cartError_keeps (n ch code tag ep off : Nat) (late : Bool) (hs : s0.Keeps s) : s0.Keeps (State.cartError s n ch code tag ep off late) := by
  unfold State.cartError
  try dsimp only
  repeat' (first
    | with_reducible assumption
    | with_reducible refine State.Keeps.ite ?_ ?_
    | with_reducible apply State.setReg_keeps
    | with_reducible apply State.raise_keeps
    | (simp only [State.Keeps.mk_of]; with_reducible refine State.Keeps.core ?_)
    | intro _)

theorem State.convert_keeps (bs : List Byte) (from_ to_ : Nat) (hs : s0.Keeps s) : s0.Keeps (State.convert s bs from_ to_).2 := by
  unfold State.convert
  try dsimp only
  repeat' (first
    | with_reducible assumption
    | with_reducible refine State.Keeps.ite ?_ ?_
    | with_reducible refine State.Keeps.ite_snd ?_ ?_
    | with_reducible apply State.takeBytes_keeps
    | (simp only [State.Keeps.mk_of]; with_reducible refine State.Keeps.core ?_)
    | with_reducible refine State.Keeps.foldl _ ?_ ?_
    | with_reducible refine State.Keeps.foldl_snd _ ?_ ?_
    | intro _
    | dsimp only
    | refine State.Keeps.of_snd (by assumption) ?_
    | refine State.take_keeps (by assumption) ?_)

theorem State.runError_keeps (n ch code tag ep off : Nat) (hs : s0.Keeps s) : s0.Keeps (State.runError s n ch code tag ep off) := by
  unfold State.runError
  try dsimp only
  repeat' (first
    | with_reducible assumption
    | with_reducible refine State.Keeps.ite ?_ ?_
    | with_reducible apply State.setCart_keeps
    | with_reducible apply State.cartError_keeps
    | (simp only [State.Keeps.mk_of]; with_reducible refine State.Keeps.core ?_)
    | intro _
    | split)

theorem State.cartRead_keeps (n ch tag sp off len : Nat) (hs : s0.Keeps s) : s0.Keeps (State.cartRead s n ch tag sp off len).2 := by
  unfold State.cartRead
  try dsimp only
  repeat' (first
    | with_reducible assumption
    | with_reducible refine State.Keeps.ite ?_ ?_
    | with_reducible refine State.Keeps.ite_snd ?_ ?_
    | with_reducible apply State.trap_keeps
    | with_reducible apply State.readSpad_keeps
    | with_reducible apply State.getWords_keeps
    | with_reducible apply State.getTable_keeps
    | with_reducible apply State.runError_keeps
    | (simp only [State.Keeps.mk_of]; with_reducible refine State.Keeps.core ?_)
    | intro _
    | dsimp only
    | split
    | refine State.Keeps.of_snd (by assumption) ?_)

theorem State.cartWrite_keeps (n ch tag sp off : Nat) (bs : List Byte) (hs : s0.Keeps s) : s0.Keeps (State.cartWrite s n ch tag sp off bs) := by
  unfold State.cartWrite
  try dsimp only
  repeat' (first
    | with_reducible assumption
    | with_reducible refine State.Keeps.ite ?_ ?_
    | with_reducible apply State.trap_keeps
    | with_reducible apply State.queueWrite_keeps
    | with_reducible apply State.queueWords_keeps
    | with_reducible apply State.runError_keeps
    | (simp only [State.Keeps.mk_of]; with_reducible refine State.Keeps.core ?_)
    | intro _
    | split)

theorem State.cartFeed_keeps (n ch : Nat) (hs : s0.Keeps s) : s0.Keeps (State.cartFeed s n ch) := by
  unfold State.cartFeed
  try dsimp only
  repeat' (first
    | with_reducible assumption
    | with_reducible refine State.Keeps.ite ?_ ?_
    | with_reducible apply State.send_keeps
    | with_reducible apply State.setCart_keeps
    | (simp only [State.Keeps.mk_of]; with_reducible refine State.Keeps.core ?_)
    | with_reducible refine State.Keeps.foldl _ ?_ ?_
    | with_reducible refine State.Keeps.foldl_snd _ ?_ ?_
    | intro _
    | dsimp only
    | split
    | refine State.Keeps.of_snd (by assumption) ?_
    | refine State.take_keeps (by assumption) ?_)

theorem State.pauseCarts_keeps  (hs : s0.Keeps s) : s0.Keeps (State.pauseCarts s) := by
  unfold State.pauseCarts
  try dsimp only
  repeat' (first
    | with_reducible assumption
    | with_reducible refine State.Keeps.ite ?_ ?_
    | with_reducible refine State.Keeps.ite_snd ?_ ?_
    | with_reducible apply State.set_keeps
    | with_reducible apply State.iff_keeps
    | (simp only [State.Keeps.mk_of]; with_reducible refine State.Keeps.core ?_)
    | with_reducible refine State.Keeps.foldl _ ?_ ?_
    | with_reducible refine State.Keeps.foldl_snd _ ?_ ?_
    | intro _
    | dsimp only
    | split)

theorem State.resumeCarts_keeps  (hs : s0.Keeps s) : s0.Keeps (State.resumeCarts s) := by
  unfold State.resumeCarts
  try dsimp only
  repeat' (first
    | with_reducible assumption
    | with_reducible refine State.Keeps.ite ?_ ?_
    | with_reducible refine State.Keeps.ite_snd ?_ ?_
    | with_reducible apply State.set_keeps
    | with_reducible apply State.iff_keeps
    | with_reducible apply State.cartFeed_keeps
    | (simp only [State.Keeps.mk_of]; with_reducible refine State.Keeps.core ?_)
    | with_reducible refine State.Keeps.foldl _ ?_ ?_
    | with_reducible refine State.Keeps.foldl_snd _ ?_ ?_
    | intro _
    | dsimp only)

theorem State.moveOut_keeps (n ch tag : Nat) (d : Desc) (hs : s0.Keeps s) : s0.Keeps (State.moveOut s n ch tag d).2 := by
  unfold State.moveOut
  try dsimp only
  repeat' (first
    | with_reducible assumption
    | with_reducible refine State.Keeps.ite ?_ ?_
    | with_reducible refine State.Keeps.ite_snd ?_ ?_
    | with_reducible apply State.inject_keeps
    | with_reducible apply State.convert_keeps
    | with_reducible apply State.cartRead_keeps
    | (simp only [State.Keeps.mk_of]; with_reducible refine State.Keeps.core ?_)
    | with_reducible refine State.Keeps.foldl _ ?_ ?_
    | with_reducible refine State.Keeps.foldl_snd _ ?_ ?_
    | intro _
    | dsimp only
    | refine State.Keeps.of_snd (by assumption) ?_
    | refine State.take_keeps (by assumption) ?_)

theorem State.moveLocal_keeps (n ch tag : Nat) (d : Desc) (hs : s0.Keeps s) : s0.Keeps (State.moveLocal s n ch tag d) := by
  unfold State.moveLocal
  try dsimp only
  repeat' (first
    | with_reducible assumption
    | with_reducible refine State.Keeps.ite ?_ ?_
    | with_reducible refine State.Keeps.ite_snd ?_ ?_
    | with_reducible apply State.convert_keeps
    | with_reducible apply State.cartRead_keeps
    | with_reducible apply State.cartWrite_keeps
    | (simp only [State.Keeps.mk_of]; with_reducible refine State.Keeps.core ?_)
    | with_reducible refine State.Keeps.foldl _ ?_ ?_
    | with_reducible refine State.Keeps.foldl_snd _ ?_ ?_
    | intro _
    | dsimp only)

theorem State.landRow_keeps (n ch row : Nat) (hs : s0.Keeps s) : s0.Keeps (State.landRow s n ch row) := by
  unfold State.landRow
  try dsimp only
  repeat' (first
    | with_reducible assumption
    | with_reducible refine State.Keeps.ite ?_ ?_
    | with_reducible refine State.Keeps.ite_snd ?_ ?_
    | with_reducible apply State.setCart_keeps
    | with_reducible apply State.convert_keeps
    | with_reducible apply State.cartWrite_keeps
    | (simp only [State.Keeps.mk_of]; with_reducible refine State.Keeps.core ?_)
    | intro _
    | dsimp only
    | split)

theorem State.readAnswered_keeps (n ch tag off : Nat) (data : Option (List Byte)) (hs : s0.Keeps s) : s0.Keeps (State.readAnswered s n ch tag off data) := by
  unfold State.readAnswered
  try dsimp only
  repeat' (first
    | with_reducible assumption
    | with_reducible refine State.Keeps.ite ?_ ?_
    | with_reducible apply State.setCart_keeps
    | with_reducible apply State.cartFeed_keeps
    | with_reducible apply State.landRow_keeps
    | (simp only [State.Keeps.mk_of]; with_reducible refine State.Keeps.core ?_)
    | intro _
    | dsimp only
    | split
    | refine State.Keeps.of_snd (by assumption) ?_
    | refine State.take_keeps (by assumption) ?_)

theorem State.writeAnswered_keeps (n ch tag : Nat) (hs : s0.Keeps s) : s0.Keeps (State.writeAnswered s n ch tag) := by
  unfold State.writeAnswered
  try dsimp only
  repeat' (first
    | with_reducible assumption
    | with_reducible refine State.Keeps.ite ?_ ?_
    | with_reducible apply State.setCart_keeps
    | (simp only [State.Keeps.mk_of]; with_reducible refine State.Keeps.core ?_)
    | intro _
    | split)

theorem State.cartPush_keeps (n ch tag ep addr : Nat) (d : Desc) (hs : s0.Keeps s) : s0.Keeps (State.cartPush s n ch tag ep addr d) := by
  unfold State.cartPush
  try dsimp only
  repeat' (first
    | with_reducible assumption
    | with_reducible refine State.Keeps.ite ?_ ?_
    | with_reducible apply State.trap_keeps
    | with_reducible apply State.remoteCirc_keeps
    | with_reducible apply State.send_keeps
    | with_reducible apply State.runError_keeps
    | (simp only [State.Keeps.mk_of]; with_reducible refine State.Keeps.core ?_)
    | intro _
    | dsimp only
    | refine State.Keeps.of_snd (by assumption) ?_)

theorem State.runDesc_keeps (n ch tag : Nat) (d : Desc) (free : Bool) (hs : s0.Keeps s) : s0.Keeps (State.runDesc s n ch tag d free) := by
  unfold State.runDesc
  try dsimp only
  repeat' (first
    | with_reducible assumption
    | with_reducible refine State.Keeps.ite ?_ ?_
    | with_reducible refine State.Keeps.ite_snd ?_ ?_
    | with_reducible apply State.iff_keeps
    | with_reducible apply State.creditOverflow_keeps
    | with_reducible apply State.trap_keeps
    | with_reducible apply State.barrierArrive_keeps
    | with_reducible apply State.setCart_keeps
    | with_reducible apply State.runError_keeps
    | with_reducible apply State.cartFeed_keeps
    | with_reducible apply State.moveOut_keeps
    | with_reducible apply State.moveLocal_keeps
    | with_reducible apply State.cartPush_keeps
    | (simp only [State.Keeps.mk_of]; with_reducible refine State.Keeps.core ?_)
    | with_reducible refine State.Keeps.getD ?_ ?_
    | intro _
    | dsimp only
    | split
    | refine State.Keeps.of_snd (by assumption) ?_
    | refine State.fillCopy_keeps (by assumption) ?_)

theorem execCartDescriptorStart_keeps {tt : State} (dt n ch : Nat) (free : Bool) (ex : execCartDescriptorStart dt n ch free s = .next tt) : s.Keeps tt := by
  have hs := State.Keeps.refl s
  unfold execCartDescriptorStart at ex
  try dsimp only at ex
  refine State.Keeps.of_next ex ?_
  clear ex
  repeat' (first
    | with_reducible assumption
    | with_reducible refine State.Keeps.ite ?_ ?_
    | with_reducible refine State.Keeps.ite_snd ?_ ?_
    | with_reducible apply State.set_keeps
    | with_reducible apply State.iff_keeps
    | with_reducible apply State.readPort_keeps
    | with_reducible apply State.pass_keeps
    | with_reducible apply State.next_keeps
    | with_reducible apply State.setCart_keeps
    | with_reducible apply State.runError_keeps
    | with_reducible apply State.runDesc_keeps
    | (simp only [State.Keeps.mk_of]; with_reducible refine State.Keeps.core ?_)
    | intro _
    | dsimp only
    | split
    | refine State.Keeps.of_snd (by assumption) ?_)

theorem execCartDescriptorComplete_keeps {tt : State} (dt n ch : Nat) (ex : execCartDescriptorComplete dt n ch s = .next tt) : s.Keeps tt := by
  have hs := State.Keeps.refl s
  unfold execCartDescriptorComplete at ex
  try dsimp only at ex
  refine State.Keeps.of_next ex ?_
  clear ex
  repeat' (first
    | with_reducible assumption
    | with_reducible refine State.Keeps.ite ?_ ?_
    | with_reducible apply State.set_keeps
    | with_reducible apply State.inc_keeps
    | with_reducible apply State.pass_keeps
    | with_reducible apply State.next_keeps
    | with_reducible apply State.setCart_keeps
    | with_reducible apply State.cartPush_keeps
    | (simp only [State.Keeps.mk_of]; with_reducible refine State.Keeps.core ?_)
    | intro _
    | dsimp only
    | split
    | refine State.Keeps.of_snd (by assumption) ?_)

theorem execFillCopyComplete_keeps {tt : State} (dt n ch : Nat) (ex : execFillCopyComplete dt n ch s = .next tt) : s.Keeps tt := by
  have hs := State.Keeps.refl s
  unfold execFillCopyComplete at ex
  try dsimp only at ex
  refine State.Keeps.of_next ex ?_
  clear ex
  repeat' (first
    | with_reducible assumption
    | with_reducible refine State.Keeps.ite ?_ ?_
    | with_reducible apply State.pass_keeps
    | with_reducible apply State.next_keeps
    | with_reducible apply State.updFills_keeps
    | (simp only [State.Keeps.mk_of]; with_reducible refine State.Keeps.core ?_)
    | intro _
    | dsimp only
    | split
    | refine State.Keeps.of_snd (by assumption) ?_)

theorem State.proxied_keeps (b tag : Nat) (ty status : Nat) (hs : s0.Keeps s) : s0.Keeps (State.proxied s b tag ty status) := by
  unfold State.proxied
  try dsimp only
  repeat' (first
    | with_reducible assumption
    | with_reducible refine State.Keeps.ite ?_ ?_
    | with_reducible apply State.iff_keeps
    | with_reducible apply State.sendTo_keeps
    | (simp only [State.Keeps.mk_of]; with_reducible refine State.Keeps.core ?_)
    | intro _
    | dsimp only
    | split
    | refine State.Keeps.of_snd (by assumption) ?_)

theorem execMeshReadResponse_keeps {tt : State} (dt : Nat) (p : Packet) (ex : execMeshReadResponse dt p s = .next tt) : s.Keeps tt := by
  have hs := State.Keeps.refl s
  unfold execMeshReadResponse at ex
  try dsimp only at ex
  refine State.Keeps.of_next ex ?_
  clear ex
  repeat' (first
    | with_reducible assumption
    | with_reducible refine State.Keeps.ite ?_ ?_
    | with_reducible apply State.pass_keeps
    | with_reducible apply State.next_keeps
    | with_reducible apply State.receive_keeps
    | with_reducible apply State.readAnswered_keeps
    | (simp only [State.Keeps.mk_of]; with_reducible refine State.Keeps.core ?_)
    | intro _
    | split)

theorem execMeshWriteAck_keeps {tt : State} (dt : Nat) (p : Packet) (ex : execMeshWriteAck dt p s = .next tt) : s.Keeps tt := by
  have hs := State.Keeps.refl s
  unfold execMeshWriteAck at ex
  try dsimp only at ex
  refine State.Keeps.of_next ex ?_
  clear ex
  repeat' (first
    | with_reducible assumption
    | with_reducible refine State.Keeps.ite ?_ ?_
    | with_reducible apply State.pass_keeps
    | with_reducible apply State.next_keeps
    | with_reducible apply State.receive_keeps
    | with_reducible apply State.writeAnswered_keeps
    | with_reducible apply State.proxied_keeps
    | (simp only [State.Keeps.mk_of]; with_reducible refine State.Keeps.core ?_)
    | intro _
    | dsimp only
    | split
    | refine State.Keeps.of_snd (by assumption) ?_)

theorem execMeshErrorResponse_keeps {tt : State} (dt : Nat) (p : Packet) (ex : execMeshErrorResponse dt p s = .next tt) : s.Keeps tt := by
  have hs := State.Keeps.refl s
  unfold execMeshErrorResponse at ex
  try dsimp only at ex
  refine State.Keeps.of_next ex ?_
  clear ex
  repeat' (first
    | with_reducible assumption
    | with_reducible refine State.Keeps.ite ?_ ?_
    | with_reducible apply State.pass_keeps
    | with_reducible apply State.next_keeps
    | with_reducible apply State.receive_keeps
    | with_reducible apply State.runError_keeps
    | with_reducible apply State.readAnswered_keeps
    | with_reducible apply State.writeAnswered_keeps
    | with_reducible apply State.proxied_keeps
    | (simp only [State.Keeps.mk_of]; with_reducible refine State.Keeps.core ?_)
    | intro _
    | dsimp only
    | split
    | refine State.Keeps.of_snd (by assumption) ?_)

/-! ### Machine/Links.lean -/

theorem State.incLink_keeps (node port : Nat) (f : Fld) (hs : s0.Keeps s) : s0.Keeps (State.incLink s node port f) := by
  unfold State.incLink
  try dsimp only
  repeat' (first
    | with_reducible assumption
    | with_reducible refine State.Keeps.ite ?_ ?_
    | with_reducible apply State.inc_keeps
    | (simp only [State.Keeps.mk_of]; with_reducible refine State.Keeps.core ?_)
    | intro _)

theorem execFlitReceive_keeps {tt : State} (dt n port sent flips : Nat) (ex : execFlitReceive dt n port sent flips s = .next tt) : s.Keeps tt := by
  have hs := State.Keeps.refl s
  unfold execFlitReceive at ex
  try dsimp only at ex
  refine State.Keeps.of_next ex ?_
  clear ex
  repeat' (first
    | with_reducible assumption
    | with_reducible refine State.Keeps.ite ?_ ?_
    | with_reducible apply State.setMeshLink_keeps
    | with_reducible apply State.oweCredit_keeps
    | with_reducible apply State.enter_keeps
    | with_reducible apply State.sendLocal_keeps
    | with_reducible apply State.resendFrom_keeps
    | with_reducible apply State.pass_keeps
    | with_reducible apply State.next_keeps
    | with_reducible apply State.incLink_keeps
    | (simp only [State.Keeps.mk_of]; with_reducible refine State.Keeps.core ?_)
    | with_reducible refine State.Keeps.getD ?_ ?_
    | intro _
    | dsimp only
    | split)

theorem execLinkNack_keeps {tt : State} (dt n port : Nat) (ex : execLinkNack dt n port s = .next tt) : s.Keeps tt := by
  have hs := State.Keeps.refl s
  unfold execLinkNack at ex
  try dsimp only at ex
  refine State.Keeps.of_next ex ?_
  clear ex
  repeat' (first
    | with_reducible assumption
    | with_reducible refine State.Keeps.ite ?_ ?_
    | with_reducible apply State.resendFrom_keeps
    | with_reducible apply State.pass_keeps
    | with_reducible apply State.next_keeps
    | (simp only [State.Keeps.mk_of]; with_reducible refine State.Keeps.core ?_)
    | intro _
    | split)

theorem State.stopLink_keeps (m q : Nat) (hs : s0.Keeps s) : s0.Keeps (State.stopLink s m q) := by
  unfold State.stopLink
  try dsimp only
  repeat' (first
    | with_reducible assumption
    | with_reducible refine State.Keeps.ite ?_ ?_
    | with_reducible apply State.set_keeps
    | (simp only [State.Keeps.mk_of]; with_reducible refine State.Keeps.core ?_)
    | intro _
    | split)

theorem State.markFailed_keeps (m q : Nat) (hs : s0.Keeps s) : s0.Keeps (State.markFailed s m q) := by
  unfold State.markFailed
  try dsimp only
  repeat' (first
    | with_reducible assumption
    | with_reducible refine State.Keeps.ite ?_ ?_
    | with_reducible apply State.set_keeps
    | with_reducible apply State.stopLink_keeps
    | (simp only [State.Keeps.mk_of]; with_reducible refine State.Keeps.core ?_)
    | intro _
    | split)

theorem State.failPort_keeps (m q : Nat) (hs : s0.Keeps s) : s0.Keeps (State.failPort s m q) := by
  unfold State.failPort
  try dsimp only
  repeat' (first
    | with_reducible assumption
    | with_reducible refine State.Keeps.ite ?_ ?_
    | with_reducible apply State.addDefect_keeps
    | with_reducible apply State.markFailed_keeps
    | (simp only [State.Keeps.mk_of]; with_reducible refine State.Keeps.core ?_)
    | intro _)

theorem State.failStopped_keeps  (hs : s0.Keeps s) : s0.Keeps (State.failStopped s) := by
  unfold State.failStopped
  try dsimp only
  repeat' (first
    | with_reducible assumption
    | with_reducible refine State.Keeps.ite ?_ ?_
    | with_reducible refine State.Keeps.ite_snd ?_ ?_
    | with_reducible apply State.failPort_keeps
    | (simp only [State.Keeps.mk_of]; with_reducible refine State.Keeps.core ?_)
    | with_reducible refine State.Keeps.foldl _ ?_ ?_
    | with_reducible refine State.Keeps.foldl_snd _ ?_ ?_
    | intro _
    | dsimp only)

theorem State.applyStopped_keeps  (hs : s0.Keeps s) : s0.Keeps (State.applyStopped s) := by
  unfold State.applyStopped
  try dsimp only
  repeat' (first
    | with_reducible assumption
    | with_reducible refine State.Keeps.ite ?_ ?_
    | with_reducible apply State.loadRoutes_keeps
    | with_reducible apply State.loseCoach_keeps
    | (simp only [State.Keeps.mk_of]; with_reducible refine State.Keeps.core ?_)
    | with_reducible refine State.Keeps.foldl _ ?_ ?_
    | with_reducible refine State.Keeps.foldl_snd _ ?_ ?_
    | intro _
    | split)

theorem State.stopPort_keeps (m q : Nat) (hs : s0.Keeps s) : s0.Keeps (State.stopPort s m q) := by
  unfold State.stopPort
  try dsimp only
  repeat' (first
    | with_reducible assumption
    | with_reducible refine State.Keeps.ite ?_ ?_
    | with_reducible refine State.Keeps.ite_snd ?_ ?_
    | with_reducible apply State.voidForLoss_keeps
    | with_reducible apply State.stopLink_keeps
    | with_reducible apply State.failPort_keeps
    | with_reducible apply State.applyStopped_keeps
    | (simp only [State.Keeps.mk_of]; with_reducible refine State.Keeps.core ?_)
    | intro _
    | dsimp only)

theorem State.substitute_keeps {sx : State}  (hs : s0.Keeps sx) : s0.Keeps (State.substitute sx) := by
  unfold State.substitute
  try dsimp only
  repeat' (first
    | with_reducible assumption
    | with_reducible refine State.Keeps.ite ?_ ?_
    | with_reducible refine State.Keeps.ite_snd ?_ ?_
    | with_reducible apply State.set_keeps
    | with_reducible apply State.inc_keeps
    | with_reducible apply State.raise_keeps
    | with_reducible apply State.addDefect_keeps
    | with_reducible apply State.stopPort_keeps
    | (simp only [State.Keeps.mk_of]; with_reducible refine State.Keeps.core ?_)
    | with_reducible refine State.Keeps.foldl _ ?_ ?_
    | with_reducible refine State.Keeps.foldl_snd _ ?_ ?_
    | intro _
    | dsimp only
    | split)

theorem State.requestBatch_keeps  (hs : s0.Keeps s) : s0.Keeps (State.requestBatch s) := by
  unfold State.requestBatch
  try dsimp only
  repeat' (first
    | with_reducible assumption
    | with_reducible refine State.Keeps.ite ?_ ?_
    | with_reducible apply State.sendWave_keeps
    | (simp only [State.Keeps.mk_of]; with_reducible refine State.Keeps.core ?_)
    | intro _)

theorem State.failDegraded_keeps  (hs : s0.Keeps s) : s0.Keeps (State.failDegraded s) := by
  unfold State.failDegraded
  try dsimp only
  repeat' (first
    | with_reducible assumption
    | with_reducible refine State.Keeps.ite ?_ ?_
    | with_reducible refine State.Keeps.ite_snd ?_ ?_
    | with_reducible apply State.failTile_keeps
    | (simp only [State.Keeps.mk_of]; with_reducible refine State.Keeps.core ?_)
    | with_reducible refine State.Keeps.foldl _ ?_ ?_
    | with_reducible refine State.Keeps.foldl_snd _ ?_ ?_
    | intro _
    | dsimp only
    | split)

theorem execPatternTestComplete_keeps {tt : State} (dt n port : Nat) (bad : List Nat) (ex : execPatternTestComplete dt n port bad s = .next tt) : s.Keeps tt := by
  have hs := State.Keeps.refl s
  unfold execPatternTestComplete at ex
  try dsimp only at ex
  refine State.Keeps.of_next ex ?_
  clear ex
  repeat' (first
    | with_reducible assumption
    | with_reducible refine State.Keeps.ite ?_ ?_
    | with_reducible refine State.Keeps.ite_snd ?_ ?_
    | with_reducible apply State.set_keeps
    | with_reducible apply State.raise_keeps
    | with_reducible apply State.setMeshLink_keeps
    | with_reducible apply State.voidMore_keeps
    | with_reducible apply State.loseTile_keeps
    | with_reducible apply State.pass_keeps
    | with_reducible apply State.next_keeps
    | with_reducible apply State.incLink_keeps
    | with_reducible apply State.stopPort_keeps
    | with_reducible apply State.requestBatch_keeps
    | (simp only [State.Keeps.mk_of]; with_reducible refine State.Keeps.core ?_)
    | intro _
    | dsimp only
    | split)

end Sys2Proof.Machine
end

