-- ==== Sys2Proof/Laws/KeepsCouplings.lean ====
section
/-! SUPPORT. What the operations and meanings of Couplings, Kv keep (Laws/Keeps.lean). -/

set_option Elab.async false

namespace Sys2Proof.Machine

set_option linter.unusedTactic false
set_option linter.unreachableTactic false
set_option linter.unusedSimpArgs false

variable {s0 s : State}

/-! ### Machine/Couplings.lean -/

theorem State.failCoupling_keeps (k why : Nat) (hs : s0.Keeps s) : s0.Keeps (State.failCoupling s k why) := by
  unfold State.failCoupling
  try dsimp only
  repeat' (first
    | with_reducible assumption
    | with_reducible refine State.Keeps.ite ?_ ?_
    | with_reducible apply State.set_keeps
    | with_reducible apply State.raise_keeps
    | with_reducible apply State.leaveGroup_keeps
    | with_reducible apply State.withdrawHolds_keeps
    | with_reducible apply State.mapReqs_keeps
    | (simp only [State.Keeps.mk_of]; with_reducible refine State.Keeps.core ?_)
    | with_reducible refine State.Keeps.foldl _ ?_ ?_
    | with_reducible refine State.Keeps.foldl_snd _ ?_ ?_
    | intro _)

theorem State.wantReplay_keeps (k : Nat) (hs : s0.Keeps s) : s0.Keeps (State.wantReplay s k) := by
  unfold State.wantReplay
  try dsimp only
  repeat' (first
    | with_reducible assumption
    | with_reducible refine State.Keeps.ite ?_ ?_
    | with_reducible apply State.inc_keeps
    | with_reducible apply State.updLink_keeps
    | (simp only [State.Keeps.mk_of]; with_reducible refine State.Keeps.core ?_)
    | intro _)

theorem State.flitIn_keeps (k : Nat) (f : LinkFlit) (hs : s0.Keeps s) : s0.Keeps (State.flitIn s k f) := by
  unfold State.flitIn
  try dsimp only
  repeat' (first
    | with_reducible assumption
    | with_reducible refine State.Keeps.ite ?_ ?_
    | with_reducible apply State.inc_keeps
    | with_reducible apply State.updLink_keeps
    | with_reducible apply State.wantReplay_keeps
    | (simp only [State.Keeps.mk_of]; with_reducible refine State.Keeps.core ?_)
    | intro _
    | dsimp only
    | refine State.Keeps.of_snd (by assumption) ?_)

theorem State.weakLane_keeps (k lane : Nat) (hs : s0.Keeps s) : s0.Keeps (State.weakLane s k lane) := by
  unfold State.weakLane
  try dsimp only
  repeat' (first
    | with_reducible assumption
    | with_reducible refine State.Keeps.ite ?_ ?_
    | with_reducible apply State.set_keeps
    | with_reducible apply State.inc_keeps
    | with_reducible apply State.setFlag_keeps
    | with_reducible apply State.updLink_keeps
    | (simp only [State.Keeps.mk_of]; with_reducible refine State.Keeps.core ?_)
    | intro _
    | dsimp only
    | refine State.Keeps.of_snd (by assumption) ?_)

theorem State.countSymbols_keeps (k : Nat) (l : List Nat) (hs : s0.Keeps s) : s0.Keeps (State.countSymbols s k l) := by
  unfold State.countSymbols
  try dsimp only
  repeat' (first
    | with_reducible assumption
    | with_reducible refine State.Keeps.ite ?_ ?_
    | with_reducible refine State.Keeps.ite_snd ?_ ?_
    | with_reducible apply State.inc_keeps
    | with_reducible apply State.updLink_keeps
    | with_reducible apply State.weakLane_keeps
    | (simp only [State.Keeps.mk_of]; with_reducible refine State.Keeps.core ?_)
    | with_reducible refine State.Keeps.foldl _ ?_ ?_
    | with_reducible refine State.Keeps.foldl_snd _ ?_ ?_
    | with_reducible refine State.Keeps.getD ?_ ?_
    | intro _
    | dsimp only)

theorem State.mirrorBlock_keeps (k : Nat) (hs : s0.Keeps s) : s0.Keeps (State.mirrorBlock s k) := by
  unfold State.mirrorBlock
  try dsimp only
  repeat' (first
    | with_reducible assumption
    | with_reducible refine State.Keeps.ite ?_ ?_
    | with_reducible apply State.updLink_keeps
    | (simp only [State.Keeps.mk_of]; with_reducible refine State.Keeps.core ?_)
    | intro _
    | dsimp only
    | refine State.Keeps.of_snd (by assumption) ?_)

theorem State.waveIn_keeps (k : Nat) (w : WaveItem) (hs : s0.Keeps s) : s0.Keeps (State.waveIn s k w) := by
  unfold State.waveIn
  try dsimp only
  repeat' (first
    | with_reducible assumption
    | with_reducible refine State.Keeps.ite ?_ ?_
    | with_reducible apply State.raise_keeps
    | with_reducible apply State.leaveGroup_keeps
    | with_reducible apply State.updLink_keeps
    | (simp only [State.Keeps.mk_of]; with_reducible refine State.Keeps.core ?_)
    | with_reducible refine State.Keeps.foldl _ ?_ ?_
    | with_reducible refine State.Keeps.foldl_snd _ ?_ ?_
    | intro _
    | dsimp only
    | refine State.Keeps.of_snd (by assumption) ?_)

theorem execStallWaveItem_keeps {tt : State} (dt k : Nat) (w : WaveItem) (ex : execStallWaveItem dt k w s = .next tt) : s.Keeps tt := by
  have hs := State.Keeps.refl s
  unfold execStallWaveItem at ex
  try dsimp only at ex
  refine State.Keeps.of_next ex ?_
  clear ex
  repeat' (first
    | with_reducible assumption
    | with_reducible refine State.Keeps.ite ?_ ?_
    | with_reducible apply State.pass_keeps
    | with_reducible apply State.next_keeps
    | with_reducible apply State.waveIn_keeps
    | (simp only [State.Keeps.mk_of]; with_reducible refine State.Keeps.core ?_)
    | intro _
    | split)

theorem State.headerIn_keeps (k h : Nat) (hs : s0.Keeps s) : s0.Keeps (State.headerIn s k h) := by
  unfold State.headerIn
  try dsimp only
  repeat' (first
    | with_reducible assumption
    | with_reducible refine State.Keeps.ite ?_ ?_
    | with_reducible apply State.updLink_keeps
    | with_reducible apply State.waveIn_keeps
    | (simp only [State.Keeps.mk_of]; with_reducible refine State.Keeps.core ?_)
    | with_reducible refine State.Keeps.getD ?_ ?_
    | intro _
    | dsimp only
    | refine State.Keeps.of_snd (by assumption) ?_)

theorem execCouplingBlockReceive_keeps {tt : State} (dt k : Nat) (b : CplBlock) (ex : execCouplingBlockReceive dt k b s = .next tt) : s.Keeps tt := by
  have hs := State.Keeps.refl s
  unfold execCouplingBlockReceive at ex
  try dsimp only at ex
  refine State.Keeps.of_next ex ?_
  clear ex
  repeat' (first
    | with_reducible assumption
    | with_reducible refine State.Keeps.ite ?_ ?_
    | with_reducible apply State.inc_keeps
    | with_reducible apply State.updLink_keeps
    | with_reducible apply State.pass_keeps
    | with_reducible apply State.next_keeps
    | with_reducible apply State.failCoupling_keeps
    | with_reducible apply State.wantReplay_keeps
    | with_reducible apply State.flitIn_keeps
    | with_reducible apply State.countSymbols_keeps
    | with_reducible apply State.mirrorBlock_keeps
    | with_reducible apply State.headerIn_keeps
    | (simp only [State.Keeps.mk_of]; with_reducible refine State.Keeps.core ?_)
    | with_reducible refine State.Keeps.foldl _ ?_ ?_
    | with_reducible refine State.Keeps.foldl_snd _ ?_ ?_
    | intro _
    | dsimp only
    | refine State.Keeps.of_snd (by assumption) ?_)

theorem execCouplingReplay_keeps {tt : State} (dt k : Nat) (ex : execCouplingReplay dt k s = .next tt) : s.Keeps tt := by
  have hs := State.Keeps.refl s
  unfold execCouplingReplay at ex
  try dsimp only at ex
  refine State.Keeps.of_next ex ?_
  clear ex
  repeat' (first
    | with_reducible assumption
    | with_reducible refine State.Keeps.ite ?_ ?_
    | with_reducible apply State.setLink_keeps
    | with_reducible apply State.pass_keeps
    | with_reducible apply State.next_keeps
    | with_reducible apply State.failCoupling_keeps
    | (simp only [State.Keeps.mk_of]; with_reducible refine State.Keeps.core ?_)
    | intro _
    | dsimp only
    | split
    | refine State.Keeps.of_snd (by assumption) ?_)

theorem execMemberNumberFlit_keeps {tt : State} (dt k m : Nat) (ex : execMemberNumberFlit dt k m s = .next tt) : s.Keeps tt := by
  have hs := State.Keeps.refl s
  unfold execMemberNumberFlit at ex
  try dsimp only at ex
  refine State.Keeps.of_next ex ?_
  clear ex
  repeat' (first
    | with_reducible assumption
    | with_reducible refine State.Keeps.ite ?_ ?_
    | with_reducible apply State.set_keeps
    | with_reducible apply State.pass_keeps
    | with_reducible apply State.next_keeps
    | (simp only [State.Keeps.mk_of]; with_reducible refine State.Keeps.core ?_)
    | intro _
    | split)

theorem execLaneMirrorRequest_keeps {tt : State} (dt k lane : Nat) (ex : execLaneMirrorRequest dt k lane s = .next tt) : s.Keeps tt := by
  have hs := State.Keeps.refl s
  unfold execLaneMirrorRequest at ex
  try dsimp only at ex
  refine State.Keeps.of_next ex ?_
  clear ex
  repeat' (first
    | with_reducible assumption
    | with_reducible refine State.Keeps.ite ?_ ?_
    | with_reducible apply State.updLink_keeps
    | with_reducible apply State.pass_keeps
    | with_reducible apply State.next_keeps
    | (simp only [State.Keeps.mk_of]; with_reducible refine State.Keeps.core ?_)
    | intro _
    | split)

theorem execLaneSwitchRequest_keeps {tt : State} (dt k block : Nat) (ex : execLaneSwitchRequest dt k block s = .next tt) : s.Keeps tt := by
  have hs := State.Keeps.refl s
  unfold execLaneSwitchRequest at ex
  try dsimp only at ex
  refine State.Keeps.of_next ex ?_
  clear ex
  repeat' (first
    | with_reducible assumption
    | with_reducible refine State.Keeps.ite ?_ ?_
    | with_reducible apply State.updLink_keeps
    | with_reducible apply State.pass_keeps
    | with_reducible apply State.next_keeps
    | (simp only [State.Keeps.mk_of]; with_reducible refine State.Keeps.core ?_)
    | intro _
    | dsimp only
    | refine State.Keeps.of_snd (by assumption) ?_)

theorem execLaneSwitch_keeps {tt : State} (dt k : Nat) (ex : execLaneSwitch dt k s = .next tt) : s.Keeps tt := by
  have hs := State.Keeps.refl s
  unfold execLaneSwitch at ex
  try dsimp only at ex
  refine State.Keeps.of_next ex ?_
  clear ex
  repeat' (first
    | with_reducible assumption
    | with_reducible refine State.Keeps.ite ?_ ?_
    | with_reducible apply State.set_keeps
    | with_reducible apply State.setFlag_keeps
    | with_reducible apply State.raise_keeps
    | with_reducible apply State.pass_keeps
    | with_reducible apply State.next_keeps
    | (simp only [State.Keeps.mk_of]; with_reducible refine State.Keeps.core ?_)
    | intro _)

theorem execLaneLosesSignal_keeps {tt : State} (dt k lane : Nat) (ex : execLaneLosesSignal dt k lane s = .next tt) : s.Keeps tt := by
  have hs := State.Keeps.refl s
  unfold execLaneLosesSignal at ex
  try dsimp only at ex
  refine State.Keeps.of_next ex ?_
  clear ex
  repeat' (first
    | with_reducible assumption
    | with_reducible refine State.Keeps.ite ?_ ?_
    | with_reducible apply State.pass_keeps
    | with_reducible apply State.next_keeps
    | with_reducible apply State.failCoupling_keeps
    | with_reducible apply State.weakLane_keeps
    | (simp only [State.Keeps.mk_of]; with_reducible refine State.Keeps.core ?_)
    | intro _)

theorem execTurnMessage_keeps {tt : State} (dt k : Nat) (m : TurnMsg) (ex : execTurnMessage dt k m s = .next tt) : s.Keeps tt := by
  have hs := State.Keeps.refl s
  unfold execTurnMessage at ex
  try dsimp only at ex
  refine State.Keeps.of_next ex ?_
  clear ex
  repeat' (first
    | with_reducible assumption
    | with_reducible refine State.Keeps.ite ?_ ?_
    | with_reducible apply State.updLink_keeps
    | with_reducible apply State.pass_keeps
    | with_reducible apply State.next_keeps
    | (simp only [State.Keeps.mk_of]; with_reducible refine State.Keeps.core ?_)
    | with_reducible refine State.Keeps.foldl _ ?_ ?_
    | with_reducible refine State.Keeps.foldl_snd _ ?_ ?_
    | intro _)

theorem State.discardTx_keeps (k : Nat) (hs : s0.Keeps s) : s0.Keeps (State.discardTx s k) := by
  unfold State.discardTx
  try dsimp only
  repeat' (first
    | with_reducible assumption
    | with_reducible refine State.Keeps.ite ?_ ?_
    | with_reducible apply State.inc_keeps
    | (simp only [State.Keeps.mk_of]; with_reducible refine State.Keeps.core ?_)
    | intro _)

theorem State.freeFlits_keeps (k : Nat) (x : Tx) (hs : s0.Keeps s) : s0.Keeps (State.freeFlits s k x) := by
  unfold State.freeFlits
  try dsimp only
  repeat' (first
    | with_reducible assumption
    | with_reducible refine State.Keeps.ite ?_ ?_
    | with_reducible apply State.updLink_keeps
    | (simp only [State.Keeps.mk_of]; with_reducible refine State.Keeps.core ?_)
    | with_reducible refine State.Keeps.getD ?_ ?_
    | intro _
    | dsimp only
    | split
    | refine State.Keeps.of_snd (by assumption) ?_
    | refine State.take_keeps (by assumption) ?_)

theorem State.txIn_keeps (k ty : Nat) (x : Tx) (f : State → State) (hf : ∀ t, s0.Keeps t → s0.Keeps (f t)) (hs : s0.Keeps s) : s0.Keeps (State.txIn s k ty x f) := by
  unfold State.txIn
  try dsimp only
  repeat' (first
    | with_reducible assumption
    | with_reducible apply hf
    | with_reducible refine State.Keeps.ite ?_ ?_
    | with_reducible apply State.updLink_keeps
    | with_reducible apply State.sendTo_keeps
    | with_reducible apply State.discardTx_keeps
    | with_reducible apply State.freeFlits_keeps
    | (simp only [State.Keeps.mk_of]; with_reducible refine State.Keeps.core ?_)
    | intro _
    | split)

theorem execRemoteWrite_keeps {tt : State} (dt k : Nat) (x : Tx) (ex : execRemoteWrite dt k x s = .next tt) : s.Keeps tt := by
  have hs := State.Keeps.refl s
  unfold execRemoteWrite at ex
  try dsimp only at ex
  refine State.Keeps.of_next ex ?_
  clear ex
  repeat' (first
    | with_reducible assumption
    | with_reducible refine State.Keeps.ite ?_ ?_
    | with_reducible apply State.pass_keeps
    | with_reducible apply State.next_keeps
    | with_reducible apply State.send_keeps
    | with_reducible apply State.txIn_keeps
    | (simp only [State.Keeps.mk_of]; with_reducible refine State.Keeps.core ?_)
    | with_reducible refine State.Keeps.foldl _ ?_ ?_
    | with_reducible refine State.Keeps.foldl_snd _ ?_ ?_
    | intro _
    | dsimp only
    | split
    | refine State.Keeps.of_snd (by assumption) ?_)

theorem execMulticastWriteTx_keeps {tt : State} (dt k : Nat) (x : Tx) (ex : execMulticastWriteTx dt k x s = .next tt) : s.Keeps tt := by
  have hs := State.Keeps.refl s
  unfold execMulticastWriteTx at ex
  try dsimp only at ex
  refine State.Keeps.of_next ex ?_
  clear ex
  repeat' (first
    | with_reducible assumption
    | with_reducible refine State.Keeps.ite ?_ ?_
    | with_reducible apply State.sendTx_keeps
    | with_reducible apply State.pass_keeps
    | with_reducible apply State.next_keeps
    | with_reducible apply State.hop_keeps
    | with_reducible apply State.discardTx_keeps
    | with_reducible apply State.txIn_keeps
    | (simp only [State.Keeps.mk_of]; with_reducible refine State.Keeps.core ?_)
    | with_reducible refine State.Keeps.foldl _ ?_ ?_
    | with_reducible refine State.Keeps.foldl_snd _ ?_ ?_
    | intro _
    | split)

theorem execWriteAckTx_keeps {tt : State} (dt k : Nat) (x : Tx) (ex : execWriteAckTx dt k x s = .next tt) : s.Keeps tt := by
  have hs := State.Keeps.refl s
  unfold execWriteAckTx at ex
  try dsimp only at ex
  refine State.Keeps.of_next ex ?_
  clear ex
  repeat' (first
    | with_reducible assumption
    | with_reducible refine State.Keeps.ite ?_ ?_
    | with_reducible apply State.pass_keeps
    | with_reducible apply State.next_keeps
    | with_reducible apply State.writeAnswered_keeps
    | with_reducible apply State.txIn_keeps
    | (simp only [State.Keeps.mk_of]; with_reducible refine State.Keeps.core ?_)
    | intro _
    | split)

theorem execErrorResponseTx_keeps {tt : State} (dt k : Nat) (x : Tx) (ex : execErrorResponseTx dt k x s = .next tt) : s.Keeps tt := by
  have hs := State.Keeps.refl s
  unfold execErrorResponseTx at ex
  try dsimp only at ex
  refine State.Keeps.of_next ex ?_
  clear ex
  repeat' (first
    | with_reducible assumption
    | with_reducible refine State.Keeps.ite ?_ ?_
    | with_reducible apply State.pass_keeps
    | with_reducible apply State.next_keeps
    | with_reducible apply State.runError_keeps
    | with_reducible apply State.writeAnswered_keeps
    | with_reducible apply State.txIn_keeps
    | (simp only [State.Keeps.mk_of]; with_reducible refine State.Keeps.core ?_)
    | intro _
    | split)

theorem execBarrierArriveTx_keeps {tt : State} (dt k : Nat) (x : Tx) (ex : execBarrierArriveTx dt k x s = .next tt) : s.Keeps tt := by
  have hs := State.Keeps.refl s
  unfold execBarrierArriveTx at ex
  try dsimp only at ex
  refine State.Keeps.of_next ex ?_
  clear ex
  repeat' (first
    | with_reducible assumption
    | with_reducible refine State.Keeps.ite ?_ ?_
    | with_reducible apply State.pass_keeps
    | with_reducible apply State.next_keeps
    | with_reducible apply State.groupCheck_keeps
    | with_reducible apply State.arrived_keeps
    | with_reducible apply State.txIn_keeps
    | (simp only [State.Keeps.mk_of]; with_reducible refine State.Keeps.core ?_)
    | intro _
    | dsimp only
    | split
    | refine State.Keeps.of_snd (by assumption) ?_)

theorem execBarrierReleaseTx_keeps {tt : State} (dt k : Nat) (x : Tx) (ex : execBarrierReleaseTx dt k x s = .next tt) : s.Keeps tt := by
  have hs := State.Keeps.refl s
  unfold execBarrierReleaseTx at ex
  try dsimp only at ex
  refine State.Keeps.of_next ex ?_
  clear ex
  repeat' (first
    | with_reducible assumption
    | with_reducible refine State.Keeps.ite ?_ ?_
    | with_reducible apply State.pass_keeps
    | with_reducible apply State.next_keeps
    | with_reducible apply State.groupRelease_keeps
    | with_reducible apply State.txIn_keeps
    | (simp only [State.Keeps.mk_of]; with_reducible refine State.Keeps.core ?_)
    | intro _
    | split)

theorem State.setColl_keeps (c : Coll) (hs : s0.Keeps s) : s0.Keeps (State.setColl s c) := by
  unfold State.setColl
  try dsimp only
  repeat' (first
    | with_reducible assumption
    | with_reducible refine State.Keeps.ite ?_ ?_
    | (simp only [State.Keeps.mk_of]; with_reducible refine State.Keeps.core ?_)
    | intro _)

theorem execCollectiveContribution_keeps {tt : State} (dt k : Nat) (x : Tx) (ex : execCollectiveContribution dt k x s = .next tt) : s.Keeps tt := by
  have hs := State.Keeps.refl s
  unfold execCollectiveContribution at ex
  try dsimp only at ex
  refine State.Keeps.of_next ex ?_
  clear ex
  repeat' (first
    | with_reducible assumption
    | with_reducible refine State.Keeps.ite ?_ ?_
    | with_reducible refine State.Keeps.ite_snd ?_ ?_
    | with_reducible apply State.set_keeps
    | with_reducible apply State.inc_keeps
    | with_reducible apply State.raise_keeps
    | with_reducible apply State.pass_keeps
    | with_reducible apply State.next_keeps
    | with_reducible apply State.deliver_keeps
    | with_reducible apply State.txIn_keeps
    | with_reducible apply State.setColl_keeps
    | (simp only [State.Keeps.mk_of]; with_reducible refine State.Keeps.core ?_)
    | with_reducible refine State.Keeps.getD ?_ ?_
    | intro _
    | dsimp only
    | split
    | refine State.Keeps.of_snd (by assumption) ?_
    | refine State.take_keeps (by assumption) ?_)

theorem execCollectiveComplete_keeps {tt : State} (dt c : Nat) (ex : execCollectiveComplete dt c s = .next tt) : s.Keeps tt := by
  have hs := State.Keeps.refl s
  unfold execCollectiveComplete at ex
  try dsimp only at ex
  refine State.Keeps.of_next ex ?_
  clear ex
  repeat' (first
    | with_reducible assumption
    | with_reducible refine State.Keeps.ite ?_ ?_
    | with_reducible apply State.pass_keeps
    | with_reducible apply State.next_keeps
    | with_reducible apply State.remoteCirc_keeps
    | with_reducible apply State.setColl_keeps
    | (simp only [State.Keeps.mk_of]; with_reducible refine State.Keeps.core ?_)
    | intro _
    | dsimp only
    | split
    | refine State.Keeps.of_snd (by assumption) ?_)

theorem State.reduced_keeps (d : CollDecl) (n : Nat) (hs : s0.Keeps s) : s0.Keeps (State.reduced s d n).2 := by
  unfold State.reduced
  try dsimp only
  repeat' (first
    | with_reducible assumption
    | with_reducible refine State.Keeps.ite ?_ ?_
    | with_reducible refine State.Keeps.ite_snd ?_ ?_
    | with_reducible apply State.readSpad_keeps
    | (simp only [State.Keeps.mk_of]; with_reducible refine State.Keeps.core ?_)
    | with_reducible refine State.Keeps.foldl _ ?_ ?_
    | with_reducible refine State.Keeps.foldl_snd _ ?_ ?_
    | intro _
    | dsimp only
    | refine State.Keeps.of_snd (by assumption) ?_
    | refine State.fillCopy_keeps (by assumption) ?_
    | refine State.take_keeps (by assumption) ?_)

theorem execReduceComplete_keeps {tt : State} (dt c : Nat) (ex : execReduceComplete dt c s = .next tt) : s.Keeps tt := by
  have hs := State.Keeps.refl s
  unfold execReduceComplete at ex
  try dsimp only at ex
  refine State.Keeps.of_next ex ?_
  clear ex
  repeat' (first
    | with_reducible assumption
    | with_reducible refine State.Keeps.ite ?_ ?_
    | with_reducible refine State.Keeps.ite_snd ?_ ?_
    | with_reducible apply State.writeSpad_keeps
    | with_reducible apply State.pass_keeps
    | with_reducible apply State.next_keeps
    | with_reducible apply State.remoteCirc_keeps
    | with_reducible apply State.setColl_keeps
    | with_reducible apply State.reduced_keeps
    | (simp only [State.Keeps.mk_of]; with_reducible refine State.Keeps.core ?_)
    | intro _
    | dsimp only
    | split
    | refine State.Keeps.of_snd (by assumption) ?_)

theorem State.putSection_keeps (x : Tx) (hs : s0.Keeps s) : s0.Keeps (State.putSection s x) := by
  unfold State.putSection
  try dsimp only
  repeat' (first
    | with_reducible assumption
    | with_reducible refine State.Keeps.ite ?_ ?_
    | with_reducible refine State.Keeps.ite_snd ?_ ?_
    | with_reducible apply State.wrBytes_keeps
    | with_reducible apply State.putWords_keeps
    | with_reducible apply State.putTable_keeps
    | (simp only [State.Keeps.mk_of]; with_reducible refine State.Keeps.core ?_)
    | intro _
    | dsimp only
    | split)

/-! ### Machine/Kv.lean -/

theorem State.spillPage_keeps (n off dh dst : Nat) (hs : s0.Keeps s) : s0.Keeps (State.spillPage s n off dh dst) := by
  unfold State.spillPage
  try dsimp only
  repeat' (first
    | with_reducible assumption
    | with_reducible refine State.Keeps.ite ?_ ?_
    | with_reducible refine State.Keeps.ite_snd ?_ ?_
    | with_reducible apply State.wrBytes_keeps
    | with_reducible apply State.readCoded_keeps
    | with_reducible apply State.srNext_keeps
    | (simp only [State.Keeps.mk_of]; with_reducible refine State.Keeps.core ?_)
    | with_reducible refine State.Keeps.foldl _ ?_ ?_
    | with_reducible refine State.Keeps.foldl_snd _ ?_ ?_
    | intro _
    | dsimp only
    | refine State.take_keeps (by assumption) ?_)

theorem State.spillSet_keeps (g : Nat) (k : KvSet) (hs : s0.Keeps s) : s0.Keeps (State.spillSet s g k) := by
  unfold State.spillSet
  try dsimp only
  repeat' (first
    | with_reducible assumption
    | with_reducible refine State.Keeps.ite ?_ ?_
    | with_reducible refine State.Keeps.ite_snd ?_ ?_
    | with_reducible apply State.spillPage_keeps
    | (simp only [State.Keeps.mk_of]; with_reducible refine State.Keeps.core ?_)
    | with_reducible refine State.Keeps.foldl _ ?_ ?_
    | with_reducible refine State.Keeps.foldl_snd _ ?_ ?_
    | intro _
    | dsimp only
    | split)

theorem State.fetchSet_keeps (g tow slot : Nat) (staging : Bool) (hs : s0.Keeps s) : s0.Keeps (State.fetchSet s g tow slot staging) := by
  unfold State.fetchSet
  try dsimp only
  repeat' (first
    | with_reducible assumption
    | with_reducible refine State.Keeps.ite ?_ ?_
    | with_reducible refine State.Keeps.ite_snd ?_ ?_
    | with_reducible apply State.writeSpad_keeps
    | (simp only [State.Keeps.mk_of]; with_reducible refine State.Keeps.core ?_)
    | with_reducible refine State.Keeps.foldl _ ?_ ?_
    | with_reducible refine State.Keeps.foldl_snd _ ?_ ?_
    | intro _
    | dsimp only
    | split)

theorem State.fetchTail_keeps (g tow slot len : Nat) (hs : s0.Keeps s) : s0.Keeps (State.fetchTail s g tow slot len) := by
  unfold State.fetchTail
  try dsimp only
  repeat' (first
    | with_reducible assumption
    | with_reducible refine State.Keeps.ite ?_ ?_
    | with_reducible refine State.Keeps.ite_snd ?_ ?_
    | with_reducible apply State.writeSpad_keeps
    | (simp only [State.Keeps.mk_of]; with_reducible refine State.Keeps.core ?_)
    | with_reducible refine State.Keeps.foldl _ ?_ ?_
    | with_reducible refine State.Keeps.foldl_snd _ ?_ ?_
    | intro _
    | dsimp only
    | split
    | refine State.take_keeps (by assumption) ?_)

theorem execSpillWriteComplete_keeps {tt : State} (dt id g p : Nat) (ex : execSpillWriteComplete dt id g p s = .next tt) : s.Keeps tt := by
  have hs := State.Keeps.refl s
  unfold execSpillWriteComplete at ex
  try dsimp only at ex
  refine State.Keeps.of_next ex ?_
  clear ex
  repeat' (first
    | with_reducible assumption
    | with_reducible refine State.Keeps.ite ?_ ?_
    | with_reducible apply State.set_keeps
    | with_reducible apply State.inc_keeps
    | with_reducible apply State.updReq_keeps
    | with_reducible apply State.setServ_keeps
    | with_reducible apply State.pass_keeps
    | with_reducible apply State.next_keeps
    | with_reducible apply State.spillSet_keeps
    | (simp only [State.Keeps.mk_of]; with_reducible refine State.Keeps.core ?_)
    | with_reducible refine State.Keeps.getD ?_ ?_
    | intro _
    | dsimp only
    | split)

theorem execKvPrefetch_keeps {tt : State} (dt g ahead : Nat) (ex : execKvPrefetch dt g ahead s = .next tt) : s.Keeps tt := by
  have hs := State.Keeps.refl s
  unfold execKvPrefetch at ex
  try dsimp only at ex
  refine State.Keeps.of_next ex ?_
  clear ex
  repeat' (first
    | with_reducible assumption
    | with_reducible refine State.Keeps.ite ?_ ?_
    | with_reducible refine State.Keeps.ite_snd ?_ ?_
    | with_reducible apply State.setServ_keeps
    | with_reducible apply State.pass_keeps
    | with_reducible apply State.next_keeps
    | with_reducible apply State.fetchSet_keeps
    | (simp only [State.Keeps.mk_of]; with_reducible refine State.Keeps.core ?_)
    | with_reducible refine State.Keeps.foldl _ ?_ ?_
    | with_reducible refine State.Keeps.foldl_snd _ ?_ ?_
    | intro _
    | dsimp only
    | split)

end Sys2Proof.Machine
end

