-- ==== Sys2Proof/Laws/KeepsServing.lean ====
section
/-! SUPPORT. What the operations and meanings of Admission, Sampling, Serving, Program keep (Laws/Keeps.lean). -/

set_option Elab.async false

namespace Sys2Proof.Machine

set_option linter.unusedTactic false
set_option linter.unreachableTactic false
set_option linter.unusedSimpArgs false

variable {s0 s : State}

/-! ### Machine/Admission.lean -/

theorem State.takeRecord_keeps (b : List Byte) (hs : s0.Keeps s) : s0.Keeps (State.takeRecord s b) := by
  unfold State.takeRecord
  try dsimp only
  repeat' (first
    | with_reducible assumption
    | with_reducible refine State.Keeps.ite ?_ ?_
    | (simp only [State.Keeps.mk_of]; with_reducible refine State.Keeps.core ?_)
    | intro _)

theorem execSubmit_keeps {tt : State} (dt : Nat) (b : List Byte) (ex : execSubmit dt b s = .next tt) : s.Keeps tt := by
  have hs := State.Keeps.refl s
  unfold execSubmit at ex
  try dsimp only at ex
  refine State.Keeps.of_next ex ?_
  clear ex
  repeat' (first
    | with_reducible assumption
    | with_reducible refine State.Keeps.ite ?_ ?_
    | with_reducible apply State.setServ_keeps
    | with_reducible apply State.wrSlot_keeps
    | with_reducible apply State.wrTokens_keeps
    | with_reducible apply State.refuse_keeps
    | with_reducible apply State.syncEligible_keeps
    | with_reducible apply State.pass_keeps
    | with_reducible apply State.next_keeps
    | with_reducible apply State.takeRecord_keeps
    | (simp only [State.Keeps.mk_of]; with_reducible refine State.Keeps.core ?_)
    | with_reducible refine State.Keeps.getD ?_ ?_
    | intro _
    | dsimp only
    | split
    | refine State.Keeps.of_snd (by assumption) ?_
    | refine State.allocBlocks_keeps (by assumption) ?_
    | refine State.take_keeps (by assumption) ?_)

theorem State.cancelReq_keeps (r : Req) (hs : s0.Keeps s) : s0.Keeps (State.cancelReq s r) := by
  unfold State.cancelReq
  try dsimp only
  repeat' (first
    | with_reducible assumption
    | with_reducible refine State.Keeps.ite ?_ ?_
    | with_reducible apply State.setServ_keeps
    | with_reducible apply State.produce_keeps
    | with_reducible apply State.forget_keeps
    | with_reducible apply State.freeSlot_keeps
    | with_reducible apply State.endReq_keeps
    | with_reducible apply State.pass_keeps
    | (simp only [State.Keeps.mk_of]; with_reducible refine State.Keeps.core ?_)
    | intro _)

theorem execCancel_keeps {tt : State} (dt : Nat) (b : List Byte) (ex : execCancel dt b s = .next tt) : s.Keeps tt := by
  have hs := State.Keeps.refl s
  unfold execCancel at ex
  try dsimp only at ex
  refine State.Keeps.of_next ex ?_
  clear ex
  repeat' (first
    | with_reducible assumption
    | with_reducible refine State.Keeps.ite ?_ ?_
    | with_reducible apply State.inc_keeps
    | with_reducible apply State.pass_keeps
    | with_reducible apply State.next_keeps
    | with_reducible apply State.takeRecord_keeps
    | with_reducible apply State.cancelReq_keeps
    | (simp only [State.Keeps.mk_of]; with_reducible refine State.Keeps.core ?_)
    | with_reducible refine State.Keeps.foldl _ ?_ ?_
    | with_reducible refine State.Keeps.foldl_snd _ ?_ ?_
    | intro _
    | split)

theorem State.touch_keeps (ids : List Nat) (ref : Bool) (hs : s0.Keeps s) : s0.Keeps (State.touch s ids ref) := by
  unfold State.touch
  try dsimp only
  repeat' (first
    | with_reducible assumption
    | with_reducible refine State.Keeps.ite ?_ ?_
    | with_reducible apply State.setServ_keeps
    | (simp only [State.Keeps.mk_of]; with_reducible refine State.Keeps.core ?_)
    | intro _
    | dsimp only
    | refine State.Keeps.of_snd (by assumption) ?_)

theorem State.newSet_keeps (id g p : Nat) (hs : s0.Keeps s) : s0.Keeps (State.newSet s id g p) := by
  unfold State.newSet
  try dsimp only
  repeat' (first
    | with_reducible assumption
    | with_reducible refine State.Keeps.ite ?_ ?_
    | with_reducible apply State.updReq_keeps
    | (simp only [State.Keeps.mk_of]; with_reducible refine State.Keeps.core ?_)
    | with_reducible refine State.Keeps.getD ?_ ?_
    | intro _
    | dsimp only
    | split
    | refine State.Keeps.of_snd (by assumption) ?_
    | refine State.allocPool_keeps (by assumption) ?_
    | refine State.allocTow_keeps (by assumption) ?_)

theorem State.enqueue_keeps (r : Req) (hs : s0.Keeps s) : s0.Keeps (State.enqueue s r) := by
  unfold State.enqueue
  try dsimp only
  repeat' (first
    | with_reducible assumption
    | with_reducible refine State.Keeps.ite ?_ ?_
    | with_reducible apply State.setServ_keeps
    | (simp only [State.Keeps.mk_of]; with_reducible refine State.Keeps.core ?_)
    | intro _
    | split)

theorem State.queuePrompt_keeps (id : Nat) (hs : s0.Keeps s) : s0.Keeps (State.queuePrompt s id) := by
  unfold State.queuePrompt
  try dsimp only
  repeat' (first
    | with_reducible assumption
    | with_reducible refine State.Keeps.ite ?_ ?_
    | with_reducible apply State.updReq_keeps
    | with_reducible apply State.setServ_keeps
    | with_reducible apply State.enqueue_keeps
    | (simp only [State.Keeps.mk_of]; with_reducible refine State.Keeps.core ?_)
    | intro _
    | dsimp only
    | split
    | refine State.Keeps.of_snd (by assumption) ?_)

theorem State.lookup_keeps (id : Nat) (hs : s0.Keeps s) : s0.Keeps (State.lookup s id) := by
  unfold State.lookup
  try dsimp only
  repeat' (first
    | with_reducible assumption
    | with_reducible refine State.Keeps.ite ?_ ?_
    | with_reducible apply State.inc_keeps
    | with_reducible apply State.updReq_keeps
    | with_reducible apply State.setServ_keeps
    | with_reducible apply State.touch_keeps
    | with_reducible apply State.newSet_keeps
    | with_reducible apply State.queuePrompt_keeps
    | (simp only [State.Keeps.mk_of]; with_reducible refine State.Keeps.core ?_)
    | with_reducible refine State.Keeps.foldl _ ?_ ?_
    | with_reducible refine State.Keeps.foldl_snd _ ?_ ?_
    | intro _
    | dsimp only
    | split
    | refine State.Keeps.of_snd (by assumption) ?_)

theorem execTailCopyComplete_keeps {tt : State} (dt id : Nat) (ex : execTailCopyComplete dt id s = .next tt) : s.Keeps tt := by
  have hs := State.Keeps.refl s
  unfold execTailCopyComplete at ex
  try dsimp only at ex
  refine State.Keeps.of_next ex ?_
  clear ex
  repeat' (first
    | with_reducible assumption
    | with_reducible refine State.Keeps.ite ?_ ?_
    | with_reducible apply State.setServ_keeps
    | with_reducible apply State.pass_keeps
    | with_reducible apply State.next_keeps
    | with_reducible apply State.fetchTail_keeps
    | with_reducible apply State.queuePrompt_keeps
    | (simp only [State.Keeps.mk_of]; with_reducible refine State.Keeps.core ?_)
    | with_reducible refine State.Keeps.foldl _ ?_ ?_
    | with_reducible refine State.Keeps.foldl_snd _ ?_ ?_
    | with_reducible refine State.Keeps.getD ?_ ?_
    | intro _
    | dsimp only
    | split
    | refine State.Keeps.of_snd (by assumption) ?_)

theorem State.admitReq_keeps (r : Req) (hs : s0.Keeps s) : s0.Keeps (State.admitReq s r) := by
  unfold State.admitReq
  try dsimp only
  repeat' (first
    | with_reducible assumption
    | with_reducible refine State.Keeps.ite ?_ ?_
    | with_reducible apply State.inc_keeps
    | with_reducible apply State.updReq_keeps
    | with_reducible apply State.wrSlot_keeps
    | with_reducible apply State.wrTokens_keeps
    | with_reducible apply State.syncEligible_keeps
    | with_reducible apply State.lookup_keeps
    | (simp only [State.Keeps.mk_of]; with_reducible refine State.Keeps.core ?_)
    | intro _
    | dsimp only
    | split
    | refine State.Keeps.of_snd (by assumption) ?_
    | refine State.allocBlocks_keeps (by assumption) ?_)

theorem execAdmission_keeps {tt : State} (dt ring : Nat) (ex : execAdmission dt ring s = .next tt) : s.Keeps tt := by
  have hs := State.Keeps.refl s
  unfold execAdmission at ex
  try dsimp only at ex
  refine State.Keeps.of_next ex ?_
  clear ex
  repeat' (first
    | with_reducible assumption
    | with_reducible refine State.Keeps.ite ?_ ?_
    | with_reducible apply State.updReq_keeps
    | with_reducible apply State.refuse_keeps
    | with_reducible apply State.forget_keeps
    | with_reducible apply State.freeSlot_keeps
    | with_reducible apply State.pass_keeps
    | with_reducible apply State.next_keeps
    | with_reducible apply State.admitReq_keeps
    | (simp only [State.Keeps.mk_of]; with_reducible refine State.Keeps.core ?_)
    | with_reducible refine State.Keeps.getD ?_ ?_
    | intro _
    | split)

theorem State.flushNodes_keeps  (hs : s0.Keeps s) : s0.Keeps (State.flushNodes s) := by
  unfold State.flushNodes
  try dsimp only
  repeat' (first
    | with_reducible assumption
    | with_reducible refine State.Keeps.ite ?_ ?_
    | with_reducible apply State.setServ_keeps
    | with_reducible apply State.syncNodes_keeps
    | (simp only [State.Keeps.mk_of]; with_reducible refine State.Keeps.core ?_)
    | with_reducible refine State.Keeps.getD ?_ ?_
    | intro _
    | dsimp only
    | refine State.Keeps.of_snd (by assumption) ?_)

theorem State.removeNode_keeps (n : Node) (hs : s0.Keeps s) : s0.Keeps (State.removeNode s n) := by
  unfold State.removeNode
  try dsimp only
  repeat' (first
    | with_reducible assumption
    | with_reducible refine State.Keeps.ite ?_ ?_
    | with_reducible apply State.setServ_keeps
    | with_reducible apply State.syncNodes_keeps
    | (simp only [State.Keeps.mk_of]; with_reducible refine State.Keeps.core ?_)
    | with_reducible refine State.Keeps.getD ?_ ?_
    | intro _
    | dsimp only
    | refine State.Keeps.of_snd (by assumption) ?_)

theorem State.roomFor_keeps {tt : State} {parent : Option Nat} {tail : Bool} (e : s.roomFor parent tail = some tt) (hs : s0.Keeps s) :
    s0.Keeps tt := by
  unfold State.roomFor at e
  dsimp only at e
  have step (u : State) (hu : s0.Keeps u) (n : Node) : s0.Keeps ((u.removeNode n).inc HEAD_PREFIX_STATUS.evictions) :=
    State.inc_keeps _ _ (State.removeNode_keeps _ hu)
  split at e
  · cases e
  · next u heq =>
    have hu : s0.Keeps u := by
      split at heq
      · split at heq
        · cases heq
        · cases heq; exact step _ hs _
      · cases heq; exact hs
    split at e
    · cases e; exact hu
    · split at e
      · cases e
      · cases e; exact step _ hu _

theorem State.insertNode_keeps (r : Req) (p : Nat) (parent : Option Nat) (hash handle : Nat) (toks : List Nat) (tail : Bool) (hs : s0.Keeps s) :
    s0.Keeps (s.insertNode r p parent hash handle toks tail).2 := by
  unfold State.insertNode
  dsimp only
  split
  · exact hs
  · next s1 heq =>
    have h1 : s0.Keeps s1 := State.roomFor_keeps heq hs
    split
    · exact h1
    · next slots s2 hgot =>
      have h2 : s0.Keeps s2 := by
        refine foldl_inv (fun (a : Option (List Nat × State)) => ∀ l u, a = some (l, u) → s0.Keeps u) _ ?_ ?_ slots s2 hgot
        · intro l u h; cases h; exact h1
        · intro b g hb l u h
          split at h
          · cases h
          · next l' u' =>
            split at h
            · cases h
            · split at h
              · cases h
              · next m u1 halloc =>
                cases h
                exact State.setServ_keeps _ (State.allocTow_keeps halloc (hb _ _ rfl))
      exact State.syncNodes_keeps (State.wrBytes_keeps _ _ (State.setServ_keeps _ h2))

theorem State.insertPrompt_keeps (r : Req) (hs : s0.Keeps s) : s0.Keeps (s.insertPrompt r) := by
  unfold State.insertPrompt
  dsimp only
  refine .ite hs ?_
  have hf := foldl_inv (fun (a : Option (Option Nat × Nat) × State) => s0.Keeps a.2) (b := (some (none, s.prefixRoot r), s))
    (f := fun (a : Option (Option Nat × Nat) × State) (k : Nat) =>
      match a.1 with
      | none => a
      | some (par, h) =>
        match a.2.serv.nodes.find? fun n => !n.tail && !n.flushed && n.hash == blockHash h (blockOf r.tokens k) && n.parent == par && n.half == r.half with
        | some n => if n.tokens = blockOf r.tokens k then (some (some n.id, blockHash h (blockOf r.tokens k)), a.2) else (none, a.2)
        | none =>
          match (a.2.insertNode r k par (blockHash h (blockOf r.tokens k)) r.handle (blockOf r.tokens k) false).1 with
          | none => (none, (a.2.insertNode r k par (blockHash h (blockOf r.tokens k)) r.handle (blockOf r.tokens k) false).2)
          | some id => (some (some id, blockHash h (blockOf r.tokens k)), (a.2.insertNode r k par (blockHash h (blockOf r.tokens k)) r.handle (blockOf r.tokens k) false).2))
    (List.range ((r.tokens.length - 1) / 64)) hs ?_
  · split
    · exact hf
    · refine .ite hf ?_
      exact State.insertNode_keeps _ _ _ _ _ _ _ hf
  · intro b k hb
    try dsimp only
    split
    · exact hb
    · split
      · split <;> exact hb
      · split <;> exact State.insertNode_keeps _ _ _ _ _ _ _ hb

/-! ### Machine/Sampling.lean -/

theorem State.setCar_keeps (c : Nat) (x : Car) (hs : s0.Keeps s) : s0.Keeps (State.setCar s c x) := by
  unfold State.setCar
  try dsimp only
  repeat' (first
    | with_reducible assumption
    | with_reducible refine State.Keeps.ite ?_ ?_
    | with_reducible apply State.setServ_keeps
    | (simp only [State.Keeps.mk_of]; with_reducible refine State.Keeps.core ?_)
    | intro _)

theorem State.draftTree_keeps (c : Nat) (t : Option Tree) (newN : Nat) (hs : s0.Keeps s) : s0.Keeps (State.draftTree s c t newN) := by
  unfold State.draftTree
  try dsimp only
  repeat' (first
    | with_reducible assumption
    | with_reducible refine State.Keeps.ite ?_ ?_
    | with_reducible apply State.inc_keeps
    | with_reducible apply State.next_keeps
    | with_reducible apply State.setCar_keeps
    | (simp only [State.Keeps.mk_of]; with_reducible refine State.Keeps.core ?_)
    | intro _
    | split)

theorem State.sampleReq_keeps (r : Req) (logits : List SlotLogits) (tree : Option Tree) (hs : s0.Keeps s) : s0.Keeps (State.sampleReq s r logits tree) := by
  unfold State.sampleReq
  try dsimp only
  repeat' (first
    | with_reducible assumption
    | with_reducible refine State.Keeps.ite ?_ ?_
    | with_reducible refine State.Keeps.ite_snd ?_ ?_
    | with_reducible apply State.setServ_keeps
    | with_reducible apply State.pass_keeps
    | with_reducible apply State.draftTree_keeps
    | (simp only [State.Keeps.mk_of]; with_reducible refine State.Keeps.core ?_)
    | intro _
    | dsimp only
    | split
    | refine State.Keeps.of_snd (by assumption) ?_
    | refine State.take_keeps (by assumption) ?_)

theorem State.growGroup_keeps (id g last fuel : Nat) (hs : s0.Keeps s) : s0.Keeps (s.growGroup id g last fuel).2 := by
  induction fuel generalizing s with
  | zero => exact hs
  | succ n ih =>
    unfold State.growGroup
    split
    · exact hs
    · dsimp only
      split
      · exact hs
      · split
        · exact hs
        · exact ih (State.newSet_keeps _ _ _ hs)

theorem State.writeTables_keeps (r : Req) (x : Car) (hs : s0.Keeps s) : s0.Keeps (State.writeTables s r x) := by
  unfold State.writeTables
  try dsimp only
  repeat' (first
    | with_reducible assumption
    | with_reducible refine State.Keeps.ite ?_ ?_
    | with_reducible apply State.wrEntry_keeps
    | with_reducible apply State.wrLane_keeps
    | (simp only [State.Keeps.mk_of]; with_reducible refine State.Keeps.core ?_)
    | with_reducible refine State.Keeps.foldl _ ?_ ?_
    | with_reducible refine State.Keeps.foldl_snd _ ?_ ?_
    | with_reducible refine State.Keeps.getD ?_ ?_
    | intro _
    | split)

theorem State.prepareNext_keeps (p : Pass) (hs : s0.Keeps s) : s0.Keeps (State.prepareNext s p) := by
  unfold State.prepareNext
  try dsimp only
  repeat' (first
    | with_reducible assumption
    | with_reducible refine State.Keeps.ite ?_ ?_
    | with_reducible refine State.Keeps.ite_snd ?_ ?_
    | with_reducible apply State.next_keeps
    | with_reducible apply State.growGroup_keeps
    | with_reducible apply State.writeTables_keeps
    | (simp only [State.Keeps.mk_of]; with_reducible refine State.Keeps.core ?_)
    | with_reducible refine State.Keeps.foldl _ ?_ ?_
    | with_reducible refine State.Keeps.foldl_snd _ ?_ ?_
    | intro _
    | dsimp only
    | split
    | refine State.Keeps.of_snd (by assumption) ?_)

theorem execTokenSampling_keeps {tt : State} (dt : Nat) (logits : List SlotLogits) (tree : Option Tree) (ex : execTokenSampling dt logits tree s = .next tt) : s.Keeps tt := by
  have hs := State.Keeps.refl s
  unfold execTokenSampling at ex
  try dsimp only at ex
  refine State.Keeps.of_next ex ?_
  clear ex
  repeat' (first
    | with_reducible assumption
    | with_reducible refine State.Keeps.ite ?_ ?_
    | with_reducible apply State.setServ_keeps
    | with_reducible apply State.pass_keeps
    | with_reducible apply State.next_keeps
    | with_reducible apply State.sampleReq_keeps
    | with_reducible apply State.prepareNext_keeps
    | (simp only [State.Keeps.mk_of]; with_reducible refine State.Keeps.core ?_)
    | with_reducible refine State.Keeps.foldl _ ?_ ?_
    | with_reducible refine State.Keeps.foldl_snd _ ?_ ?_
    | intro _)

/-! ### Machine/Serving.lean -/

theorem State.commitPass_keeps (p : Pass) (hs : s0.Keeps s) : s0.Keeps (State.commitPass s p) := by
  unfold State.commitPass
  try dsimp only
  repeat' (first
    | with_reducible assumption
    | with_reducible refine State.Keeps.ite ?_ ?_
    | with_reducible refine State.Keeps.ite_snd ?_ ?_
    | with_reducible apply State.inc_keeps
    | with_reducible apply State.updReq_keeps
    | with_reducible apply State.wrSlot_keeps
    | with_reducible apply State.wrTokens_keeps
    | with_reducible apply State.produce_keeps
    | with_reducible apply State.charge_keeps
    | with_reducible apply State.endReq_keeps
    | (simp only [State.Keeps.mk_of]; with_reducible refine State.Keeps.core ?_)
    | with_reducible refine State.Keeps.foldl _ ?_ ?_
    | with_reducible refine State.Keeps.foldl_snd _ ?_ ?_
    | intro _
    | dsimp only
    | split)

theorem State.commitTurn_keeps (c : Nat) (hs : s0.Keeps s) : s0.Keeps (State.commitTurn s c) := by
  unfold State.commitTurn
  try dsimp only
  repeat' (first
    | with_reducible assumption
    | with_reducible refine State.Keeps.ite ?_ ?_
    | with_reducible apply State.mapReqs_keeps
    | with_reducible apply State.setServ_keeps
    | with_reducible apply State.pass_keeps
    | with_reducible apply State.next_keeps
    | with_reducible apply State.setCar_keeps
    | with_reducible apply State.commitPass_keeps
    | (simp only [State.Keeps.mk_of]; with_reducible refine State.Keeps.core ?_)
    | with_reducible refine State.Keeps.foldl _ ?_ ?_
    | with_reducible refine State.Keeps.foldl_snd _ ?_ ?_
    | intro _
    | dsimp only
    | refine State.Keeps.of_snd (by assumption) ?_)

theorem State.moveReservations_keeps  (hs : s0.Keeps s) : s0.Keeps (State.moveReservations s) := by
  unfold State.moveReservations
  try dsimp only
  repeat' (first
    | with_reducible assumption
    | with_reducible refine State.Keeps.ite ?_ ?_
    | with_reducible apply State.set_keeps
    | with_reducible apply State.updReq_keeps
    | (simp only [State.Keeps.mk_of]; with_reducible refine State.Keeps.core ?_)
    | with_reducible refine State.Keeps.foldl _ ?_ ?_
    | with_reducible refine State.Keeps.foldl_snd _ ?_ ?_
    | with_reducible refine State.Keeps.getD ?_ ?_
    | intro _
    | dsimp only
    | split
    | refine State.Keeps.of_snd (by assumption) ?_
    | refine State.allocTow_keeps (by assumption) ?_)

theorem State.preparePass_keeps (id : Nat) (hs : s0.Keeps s) : s0.Keeps (State.preparePass s id) := by
  unfold State.preparePass
  try dsimp only
  repeat' (first
    | with_reducible assumption
    | with_reducible refine State.Keeps.ite ?_ ?_
    | with_reducible refine State.Keeps.ite_snd ?_ ?_
    | with_reducible apply State.inc_keeps
    | with_reducible apply State.updReq_keeps
    | with_reducible apply State.growGroup_keeps
    | (simp only [State.Keeps.mk_of]; with_reducible refine State.Keeps.core ?_)
    | with_reducible refine State.Keeps.foldl _ ?_ ?_
    | with_reducible refine State.Keeps.foldl_snd _ ?_ ?_
    | intro _
    | dsimp only
    | split
    | refine State.Keeps.of_snd (by assumption) ?_)

theorem State.startSpills_keeps (id : Nat) (hs : s0.Keeps s) : s0.Keeps (State.startSpills s id) := by
  unfold State.startSpills
  try dsimp only
  repeat' (first
    | with_reducible assumption
    | with_reducible refine State.Keeps.ite ?_ ?_
    | with_reducible apply State.updReq_keeps
    | with_reducible apply State.setServ_keeps
    | with_reducible apply State.window_keeps
    | (simp only [State.Keeps.mk_of]; with_reducible refine State.Keeps.core ?_)
    | with_reducible refine State.Keeps.getD ?_ ?_
    | intro _
    | dsimp only
    | split
    | refine State.Keeps.of_snd (by assumption) ?_
    | refine State.take_keeps (by assumption) ?_)

theorem State.endVisits_keeps (t : Nat) (hs : s0.Keeps s) : s0.Keeps (State.endVisits s t) := by
  unfold State.endVisits
  try dsimp only
  repeat' (first
    | with_reducible assumption
    | with_reducible refine State.Keeps.ite ?_ ?_
    | with_reducible apply State.mapReqs_keeps
    | with_reducible apply State.wrEntry_keeps
    | (simp only [State.Keeps.mk_of]; with_reducible refine State.Keeps.core ?_)
    | with_reducible refine State.Keeps.foldl _ ?_ ?_
    | with_reducible refine State.Keeps.foldl_snd _ ?_ ?_
    | with_reducible refine State.Keeps.getD ?_ ?_
    | intro _)

theorem State.clearLane_keeps (c j : Nat) (hs : s0.Keeps s) : s0.Keeps (State.clearLane s c j) := by
  unfold State.clearLane
  try dsimp only
  repeat' (first
    | with_reducible assumption
    | with_reducible refine State.Keeps.ite ?_ ?_
    | with_reducible apply State.wrLane_keeps
    | (simp only [State.Keeps.mk_of]; with_reducible refine State.Keeps.core ?_)
    | with_reducible refine State.Keeps.foldl _ ?_ ?_
    | with_reducible refine State.Keeps.foldl_snd _ ?_ ?_
    | intro _)

theorem State.tablesOf_keeps (c : Nat) (hs : s0.Keeps s) : s0.Keeps (State.tablesOf s c) := by
  unfold State.tablesOf
  try dsimp only
  repeat' (first
    | with_reducible assumption
    | with_reducible refine State.Keeps.ite ?_ ?_
    | with_reducible apply State.writeTables_keeps
    | (simp only [State.Keeps.mk_of]; with_reducible refine State.Keeps.core ?_)
    | with_reducible refine State.Keeps.foldl _ ?_ ?_
    | with_reducible refine State.Keeps.foldl_snd _ ?_ ?_
    | intro _)

theorem State.refillTenant_keeps (t : Nat) (hs : s0.Keeps s) : s0.Keeps (State.refillTenant s t) := by
  unfold State.refillTenant
  try dsimp only
  repeat' (first
    | with_reducible assumption
    | with_reducible refine State.Keeps.ite ?_ ?_
    | with_reducible apply State.setLevel_keeps
    | (simp only [State.Keeps.mk_of]; with_reducible refine State.Keeps.core ?_)
    | intro _)

theorem State.refill_keeps  (hs : s0.Keeps s) : s0.Keeps (State.refill s) := by
  unfold State.refill
  try dsimp only
  repeat' (first
    | with_reducible assumption
    | with_reducible refine State.Keeps.ite ?_ ?_
    | with_reducible apply State.setServ_keeps
    | with_reducible apply State.refillTenant_keeps
    | (simp only [State.Keeps.mk_of]; with_reducible refine State.Keeps.core ?_)
    | with_reducible refine State.Keeps.foldl _ ?_ ?_
    | with_reducible refine State.Keeps.foldl_snd _ ?_ ?_
    | intro _)

theorem State.leaveSlot_keeps (r : Req) (hs : s0.Keeps s) : s0.Keeps (State.leaveSlot s r) := by
  unfold State.leaveSlot
  try dsimp only
  repeat' (first
    | with_reducible assumption
    | with_reducible refine State.Keeps.ite ?_ ?_
    | with_reducible apply State.wrWord_keeps
    | with_reducible apply State.clearLane_keeps
    | (simp only [State.Keeps.mk_of]; with_reducible refine State.Keeps.core ?_)
    | with_reducible refine State.Keeps.foldl _ ?_ ?_
    | with_reducible refine State.Keeps.foldl_snd _ ?_ ?_
    | with_reducible refine State.Keeps.getD ?_ ?_
    | intro _)

theorem State.park_keeps (r : Req) (hs : s0.Keeps s) : s0.Keeps (State.park s r) := by
  unfold State.park
  try dsimp only
  repeat' (first
    | with_reducible assumption
    | with_reducible refine State.Keeps.ite ?_ ?_
    | with_reducible apply State.updReq_keeps
    | with_reducible apply State.setServ_keeps
    | with_reducible apply State.leaveSlot_keeps
    | (simp only [State.Keeps.mk_of]; with_reducible refine State.Keeps.core ?_)
    | intro _
    | dsimp only
    | refine State.Keeps.of_snd (by assumption) ?_)

theorem State.releaseEnded_keeps (c : Nat) (hs : s0.Keeps s) : s0.Keeps (State.releaseEnded s c) := by
  unfold State.releaseEnded
  try dsimp only
  repeat' (first
    | with_reducible assumption
    | with_reducible refine State.Keeps.ite ?_ ?_
    | with_reducible apply State.forget_keeps
    | with_reducible apply State.freeSlot_keeps
    | with_reducible apply State.leaveSlot_keeps
    | (simp only [State.Keeps.mk_of]; with_reducible refine State.Keeps.core ?_)
    | with_reducible refine State.Keeps.foldl _ ?_ ?_
    | with_reducible refine State.Keeps.foldl_snd _ ?_ ?_
    | intro _
    | split)

theorem State.parkOver_keeps (c : Nat) (hs : s0.Keeps s) : s0.Keeps (State.parkOver s c) := by
  unfold State.parkOver
  try dsimp only
  repeat' (first
    | with_reducible assumption
    | with_reducible refine State.Keeps.ite ?_ ?_
    | with_reducible apply State.updReq_keeps
    | with_reducible apply State.park_keeps
    | (simp only [State.Keeps.mk_of]; with_reducible refine State.Keeps.core ?_)
    | with_reducible refine State.Keeps.foldl _ ?_ ?_
    | with_reducible refine State.Keeps.foldl_snd _ ?_ ?_
    | intro _)

theorem State.unpark_keeps (ids : List Nat) (hs : s0.Keeps s) : s0.Keeps (State.unpark s ids) := by
  unfold State.unpark
  try dsimp only
  repeat' (first
    | with_reducible assumption
    | with_reducible refine State.Keeps.ite ?_ ?_
    | with_reducible apply State.mapReqs_keeps
    | with_reducible apply State.setServ_keeps
    | (simp only [State.Keeps.mk_of]; with_reducible refine State.Keeps.core ?_)
    | intro _
    | dsimp only
    | split
    | refine State.Keeps.of_snd (by assumption) ?_)

theorem State.recover_keeps (r : Req) (hs : s0.Keeps s) : s0.Keeps (State.recover s r) := by
  unfold State.recover
  try dsimp only
  repeat' (first
    | with_reducible assumption
    | with_reducible refine State.Keeps.ite ?_ ?_
    | with_reducible apply State.inc_keeps
    | with_reducible apply State.raise_keeps
    | with_reducible apply State.updReq_keeps
    | with_reducible apply State.dropRefs_keeps
    | with_reducible apply State.syncNodes_keeps
    | with_reducible apply State.unqueue_keeps
    | with_reducible apply State.lookup_keeps
    | with_reducible apply State.leaveSlot_keeps
    | (simp only [State.Keeps.mk_of]; with_reducible refine State.Keeps.core ?_)
    | intro _
    | dsimp only
    | refine State.Keeps.of_snd (by assumption) ?_)

theorem State.recoverLost_keeps  (hs : s0.Keeps s) : s0.Keeps (State.recoverLost s) := by
  unfold State.recoverLost
  try dsimp only
  repeat' (first
    | with_reducible assumption
    | with_reducible refine State.Keeps.ite ?_ ?_
    | with_reducible apply State.recover_keeps
    | (simp only [State.Keeps.mk_of]; with_reducible refine State.Keeps.core ?_)
    | with_reducible refine State.Keeps.foldl _ ?_ ?_
    | with_reducible refine State.Keeps.foldl_snd _ ?_ ?_
    | intro _)

theorem State.accrue_keeps (len : Nat) (hs : s0.Keeps s) : s0.Keeps (State.accrue s len) := by
  unfold State.accrue
  try dsimp only
  repeat' (first
    | with_reducible assumption
    | with_reducible refine State.Keeps.ite ?_ ?_
    | with_reducible apply State.set_keeps
    | with_reducible apply State.setServ_keeps
    | (simp only [State.Keeps.mk_of]; with_reducible refine State.Keeps.core ?_)
    | intro _
    | split)

theorem State.prefillSet_keeps (id g upto : Nat) (hs : s0.Keeps s) : s0.Keeps (State.prefillSet s id g upto) := by
  unfold State.prefillSet
  try dsimp only
  repeat' (first
    | with_reducible assumption
    | with_reducible refine State.Keeps.ite ?_ ?_
    | with_reducible apply State.set_keeps
    | with_reducible apply State.updReq_keeps
    | with_reducible apply State.window_keeps
    | with_reducible apply State.spillSet_keeps
    | with_reducible apply State.newSet_keeps
    | (simp only [State.Keeps.mk_of]; with_reducible refine State.Keeps.core ?_)
    | with_reducible refine State.Keeps.foldl _ ?_ ?_
    | with_reducible refine State.Keeps.foldl_snd _ ?_ ?_
    | with_reducible refine State.Keeps.getD ?_ ?_
    | intro _
    | dsimp only
    | split
    | refine State.Keeps.of_snd (by assumption) ?_)

theorem State.prefillSets_keeps (id upto : Nat) (hs : s0.Keeps s) : s0.Keeps (State.prefillSets s id upto) := by
  unfold State.prefillSets
  try dsimp only
  repeat' (first
    | with_reducible assumption
    | with_reducible refine State.Keeps.ite ?_ ?_
    | with_reducible apply State.prefillSet_keeps
    | (simp only [State.Keeps.mk_of]; with_reducible refine State.Keeps.core ?_)
    | with_reducible refine State.Keeps.foldl _ ?_ ?_
    | with_reducible refine State.Keeps.foldl_snd _ ?_ ?_
    | intro _)

theorem State.copyNodes_keeps (r : Req) (old : List Node) (hs : s0.Keeps s) : s0.Keeps (State.copyNodes s r old) := by
  unfold State.copyNodes
  try dsimp only
  repeat' (first
    | with_reducible assumption
    | with_reducible refine State.Keeps.ite ?_ ?_
    | with_reducible refine State.Keeps.ite_snd ?_ ?_
    | with_reducible apply State.wrBytes_keeps
    | with_reducible apply State.spillSet_keeps
    | (simp only [State.Keeps.mk_of]; with_reducible refine State.Keeps.core ?_)
    | with_reducible refine State.Keeps.foldl _ ?_ ?_
    | with_reducible refine State.Keeps.foldl_snd _ ?_ ?_
    | with_reducible refine State.Keeps.getD ?_ ?_
    | intro _
    | dsimp only
    | split)

theorem State.endRound_keeps  (hs : s0.Keeps s) : s0.Keeps (State.endRound s).2 := by
  unfold State.endRound
  try dsimp only
  repeat' (first
    | with_reducible assumption
    | with_reducible refine State.Keeps.ite ?_ ?_
    | with_reducible refine State.Keeps.ite_snd ?_ ?_
    | with_reducible apply State.setFlag_keeps
    | with_reducible apply State.updReq_keeps
    | with_reducible apply State.setServ_keeps
    | with_reducible apply State.insertPrompt_keeps
    | with_reducible apply State.prefillSets_keeps
    | with_reducible apply State.copyNodes_keeps
    | (simp only [State.Keeps.mk_of]; with_reducible refine State.Keeps.core ?_)
    | with_reducible refine State.Keeps.foldl _ ?_ ?_
    | with_reducible refine State.Keeps.foldl_snd _ ?_ ?_
    | intro _
    | dsimp only
    | split
    | refine State.Keeps.of_snd (by assumption) ?_
    | refine State.take_keeps (by assumption) ?_)

theorem State.abandonRound_keeps  (hs : s0.Keeps s) : s0.Keeps (State.abandonRound s) := by
  unfold State.abandonRound
  try dsimp only
  repeat' (first
    | with_reducible assumption
    | with_reducible refine State.Keeps.ite ?_ ?_
    | with_reducible apply State.inc_keeps
    | with_reducible apply State.setFlag_keeps
    | with_reducible apply State.mapReqs_keeps
    | with_reducible apply State.updReq_keeps
    | with_reducible apply State.setServ_keeps
    | (simp only [State.Keeps.mk_of]; with_reducible refine State.Keeps.core ?_)
    | with_reducible refine State.Keeps.foldl _ ?_ ?_
    | with_reducible refine State.Keeps.foldl_snd _ ?_ ?_
    | intro _
    | dsimp only
    | split
    | refine State.Keeps.of_snd (by assumption) ?_
    | refine State.take_keeps (by assumption) ?_)

theorem State.startRound_keeps (t start : Nat) (hs : s0.Keeps s) : s0.Keeps (State.startRound s t start) := by
  unfold State.startRound
  try dsimp only
  repeat' (first
    | with_reducible assumption
    | with_reducible refine State.Keeps.ite ?_ ?_
    | with_reducible apply State.set_keeps
    | with_reducible apply State.inc_keeps
    | with_reducible apply State.setFlag_keeps
    | with_reducible apply State.mapReqs_keeps
    | with_reducible apply State.updReq_keeps
    | with_reducible apply State.setServ_keeps
    | with_reducible apply State.charge_keeps
    | (simp only [State.Keeps.mk_of]; with_reducible refine State.Keeps.core ?_)
    | with_reducible refine State.Keeps.foldl _ ?_ ?_
    | with_reducible refine State.Keeps.foldl_snd _ ?_ ?_
    | intro _
    | dsimp only
    | split
    | refine State.Keeps.of_snd (by assumption) ?_
    | refine State.take_keeps (by assumption) ?_)

theorem State.place_keeps (r : Req) (c j : Nat) (hs : s0.Keeps s) : s0.Keeps (State.place s r c j) := by
  unfold State.place
  try dsimp only
  repeat' (first
    | with_reducible assumption
    | with_reducible refine State.Keeps.ite ?_ ?_
    | with_reducible apply State.updReq_keeps
    | with_reducible apply State.unqueue_keeps
    | with_reducible apply State.next_keeps
    | with_reducible apply State.setCar_keeps
    | (simp only [State.Keeps.mk_of]; with_reducible refine State.Keeps.core ?_)
    | intro _
    | dsimp only
    | refine State.Keeps.of_snd (by assumption) ?_)

theorem State.offer_keeps (c : Nat) (id : Nat) (hs : s0.Keeps s) : s0.Keeps (State.offer s c id).2 := by
  unfold State.offer
  try dsimp only
  repeat' (first
    | with_reducible assumption
    | with_reducible refine State.Keeps.ite ?_ ?_
    | with_reducible refine State.Keeps.ite_snd ?_ ?_
    | with_reducible apply State.inc_keeps
    | with_reducible apply State.updReq_keeps
    | with_reducible apply State.setServ_keeps
    | with_reducible apply State.unqueue_keeps
    | with_reducible apply State.place_keeps
    | (simp only [State.Keeps.mk_of]; with_reducible refine State.Keeps.core ?_)
    | with_reducible refine State.Keeps.getD ?_ ?_
    | intro _
    | dsimp only
    | split
    | refine State.Keeps.of_snd (by assumption) ?_)

theorem State.assignTo_keeps (c : Nat) (hs : s0.Keeps s) : s0.Keeps (State.assignTo s c) := by
  unfold State.assignTo
  try dsimp only
  repeat' (first
    | with_reducible assumption
    | with_reducible refine State.Keeps.ite ?_ ?_
    | with_reducible refine State.Keeps.ite_snd ?_ ?_
    | with_reducible apply State.offer_keeps
    | (simp only [State.Keeps.mk_of]; with_reducible refine State.Keeps.core ?_)
    | with_reducible refine State.Keeps.foldl _ ?_ ?_
    | with_reducible refine State.Keeps.foldl_snd _ ?_ ?_
    | intro _
    | dsimp only
    | refine State.Keeps.of_snd (by assumption) ?_)

theorem State.drainCopies_keeps  (hs : s0.Keeps s) : s0.Keeps (State.drainCopies s) := by
  unfold State.drainCopies
  try dsimp only
  repeat' (first
    | with_reducible assumption
    | with_reducible refine State.Keeps.ite ?_ ?_
    | with_reducible apply State.set_keeps
    | with_reducible apply State.raiseHead_keeps
    | with_reducible apply State.setServ_keeps
    | (simp only [State.Keeps.mk_of]; with_reducible refine State.Keeps.core ?_)
    | with_reducible refine State.Keeps.foldl _ ?_ ?_
    | with_reducible refine State.Keeps.foldl_snd _ ?_ ?_
    | intro _
    | dsimp only
    | refine State.Keeps.of_snd (by assumption) ?_)

theorem State.dropDrained_keeps  (hs : s0.Keeps s) : s0.Keeps (State.dropDrained s) := by
  unfold State.dropDrained
  try dsimp only
  repeat' (first
    | with_reducible assumption
    | with_reducible refine State.Keeps.ite ?_ ?_
    | with_reducible apply State.removeNode_keeps
    | (simp only [State.Keeps.mk_of]; with_reducible refine State.Keeps.core ?_)
    | with_reducible refine State.Keeps.foldl _ ?_ ?_
    | with_reducible refine State.Keeps.foldl_snd _ ?_ ?_
    | intro _)

theorem State.drainStep_keeps (t : Nat) (hs : s0.Keeps s) : s0.Keeps (State.drainStep s t).2 := by
  unfold State.drainStep
  try dsimp only
  repeat' (first
    | with_reducible assumption
    | with_reducible refine State.Keeps.ite ?_ ?_
    | with_reducible refine State.Keeps.ite_snd ?_ ?_
    | with_reducible apply State.setFlag_keeps
    | with_reducible apply State.updReq_keeps
    | with_reducible apply State.setServ_keeps
    | with_reducible apply State.wrSlot_keeps
    | with_reducible apply State.dropRefs_keeps
    | with_reducible apply State.syncNodes_keeps
    | with_reducible apply State.syncEligible_keeps
    | with_reducible apply State.forget_keeps
    | with_reducible apply State.unqueue_keeps
    | with_reducible apply State.freeSlot_keeps
    | with_reducible apply State.endReq_keeps
    | (simp only [State.Keeps.mk_of]; with_reducible refine State.Keeps.core ?_)
    | with_reducible refine State.Keeps.foldl _ ?_ ?_
    | with_reducible refine State.Keeps.foldl_snd _ ?_ ?_
    | intro _
    | dsimp only
    | split
    | refine State.Keeps.of_snd (by assumption) ?_)

theorem State.takeViews_keeps (t : Nat) (hs : s0.Keeps s) : s0.Keeps (State.takeViews s t) := by
  unfold State.takeViews
  try dsimp only
  repeat' (first
    | with_reducible assumption
    | with_reducible refine State.Keeps.ite ?_ ?_
    | with_reducible refine State.Keeps.ite_snd ?_ ?_
    | with_reducible apply State.setServ_keeps
    | (simp only [State.Keeps.mk_of]; with_reducible refine State.Keeps.core ?_)
    | intro _
    | dsimp only
    | refine State.Keeps.of_snd (by assumption) ?_)

theorem State.followNodes_keeps (l : List Node) (hs : s0.Keeps s) : s0.Keeps (State.followNodes s l) := by
  unfold State.followNodes
  try dsimp only
  repeat' (first
    | with_reducible assumption
    | with_reducible refine State.Keeps.ite ?_ ?_
    | with_reducible refine State.Keeps.ite_snd ?_ ?_
    | with_reducible apply State.setServ_keeps
    | with_reducible apply State.syncNodes_keeps
    | (simp only [State.Keeps.mk_of]; with_reducible refine State.Keeps.core ?_)
    | with_reducible refine State.Keeps.foldl _ ?_ ?_
    | with_reducible refine State.Keeps.foldl_snd _ ?_ ?_
    | intro _
    | dsimp only
    | split
    | refine State.Keeps.of_snd (by assumption) ?_
    | refine State.allocTow_keeps (by assumption) ?_)

theorem State.followReq_keeps (r : Req) (hs : s0.Keeps s) : s0.Keeps (State.followReq s r) := by
  unfold State.followReq
  try dsimp only
  repeat' (first
    | with_reducible assumption
    | with_reducible refine State.Keeps.ite ?_ ?_
    | with_reducible apply State.updReq_keeps
    | with_reducible apply State.setServ_keeps
    | with_reducible apply State.fetchTail_keeps
    | with_reducible apply State.newSet_keeps
    | with_reducible apply State.leaveSlot_keeps
    | (simp only [State.Keeps.mk_of]; with_reducible refine State.Keeps.core ?_)
    | with_reducible refine State.Keeps.foldl _ ?_ ?_
    | with_reducible refine State.Keeps.foldl_snd _ ?_ ?_
    | with_reducible refine State.Keeps.getD ?_ ?_
    | intro _
    | dsimp only
    | split
    | refine State.Keeps.of_snd (by assumption) ?_)

theorem State.follow_keeps (d : Decisions) (t : Nat) (hs : s0.Keeps s) : s0.Keeps (State.follow s d t) := by
  unfold State.follow
  try dsimp only
  repeat' (first
    | with_reducible assumption
    | with_reducible refine State.Keeps.ite ?_ ?_
    | with_reducible apply State.setFlag_keeps
    | with_reducible apply State.setServ_keeps
    | with_reducible apply State.pass_keeps
    | with_reducible apply State.endVisits_keeps
    | with_reducible apply State.leaveSlot_keeps
    | with_reducible apply State.prefillSets_keeps
    | with_reducible apply State.copyNodes_keeps
    | with_reducible apply State.followNodes_keeps
    | with_reducible apply State.followReq_keeps
    | (simp only [State.Keeps.mk_of]; with_reducible refine State.Keeps.core ?_)
    | with_reducible refine State.Keeps.foldl _ ?_ ?_
    | with_reducible refine State.Keeps.foldl_snd _ ?_ ?_
    | intro _
    | dsimp only
    | split
    | refine State.Keeps.of_snd (by assumption) ?_)

theorem State.nextPasses_keeps (c : Nat) (hs : s0.Keeps s) : s0.Keeps (State.nextPasses s c) := by
  unfold State.nextPasses
  try dsimp only
  repeat' (first
    | with_reducible assumption
    | with_reducible refine State.Keeps.ite ?_ ?_
    | with_reducible refine State.Keeps.ite_snd ?_ ?_
    | with_reducible apply State.flipTables_keeps
    | with_reducible apply State.growGroup_keeps
    | with_reducible apply State.preparePass_keeps
    | with_reducible apply State.startSpills_keeps
    | with_reducible apply State.tablesOf_keeps
    | (simp only [State.Keeps.mk_of]; with_reducible refine State.Keeps.core ?_)
    | with_reducible refine State.Keeps.foldl _ ?_ ?_
    | with_reducible refine State.Keeps.foldl_snd _ ?_ ?_
    | intro _
    | dsimp only)

theorem State.leadBoundary_keeps (t start len : Nat) (drop : Bool) (hs : s0.Keeps s) : s0.Keeps (State.leadBoundary s t start len drop) := by
  unfold State.leadBoundary
  try dsimp only
  repeat' (first
    | with_reducible assumption
    | with_reducible refine State.Keeps.ite ?_ ?_
    | with_reducible refine State.Keeps.ite_snd ?_ ?_
    | with_reducible apply State.set_keeps
    | with_reducible apply State.setServ_keeps
    | with_reducible apply State.commitPass_keeps
    | with_reducible apply State.commitTurn_keeps
    | with_reducible apply State.moveReservations_keeps
    | with_reducible apply State.endVisits_keeps
    | with_reducible apply State.refill_keeps
    | with_reducible apply State.releaseEnded_keeps
    | with_reducible apply State.parkOver_keeps
    | with_reducible apply State.unpark_keeps
    | with_reducible apply State.recoverLost_keeps
    | with_reducible apply State.accrue_keeps
    | with_reducible apply State.endRound_keeps
    | with_reducible apply State.abandonRound_keeps
    | with_reducible apply State.startRound_keeps
    | with_reducible apply State.assignTo_keeps
    | with_reducible apply State.drainCopies_keeps
    | with_reducible apply State.dropDrained_keeps
    | with_reducible apply State.takeViews_keeps
    | with_reducible apply State.nextPasses_keeps
    | (simp only [State.Keeps.mk_of]; with_reducible refine State.Keeps.core ?_)
    | with_reducible refine State.Keeps.foldl _ ?_ ?_
    | with_reducible refine State.Keeps.foldl_snd _ ?_ ?_
    | intro _
    | dsimp only
    | split
    | refine State.Keeps.of_snd (by assumption) ?_)

theorem State.serveBoundary_keeps (t start len : Nat) (drop : Bool) (hs : s0.Keeps s) : s0.Keeps (State.serveBoundary s t start len drop) := by
  unfold State.serveBoundary
  try dsimp only
  repeat' (first
    | with_reducible assumption
    | with_reducible refine State.Keeps.ite ?_ ?_
    | with_reducible apply State.set_keeps
    | with_reducible apply State.pass_keeps
    | with_reducible apply State.commitPass_keeps
    | with_reducible apply State.abandonRound_keeps
    | with_reducible apply State.takeViews_keeps
    | with_reducible apply State.follow_keeps
    | with_reducible apply State.nextPasses_keeps
    | with_reducible apply State.leadBoundary_keeps
    | (simp only [State.Keeps.mk_of]; with_reducible refine State.Keeps.core ?_)
    | with_reducible refine State.Keeps.foldl _ ?_ ?_
    | with_reducible refine State.Keeps.foldl_snd _ ?_ ?_
    | intro _
    | split)

/-! ### Machine/Program.lean -/

theorem State.readSpan_keeps (n off len : Nat) (hs : s0.Keeps s) : s0.Keeps (State.readSpan s n off len).2 := by
  unfold State.readSpan
  try dsimp only
  repeat' (first
    | with_reducible assumption
    | with_reducible refine State.Keeps.ite ?_ ?_
    | with_reducible refine State.Keeps.ite_snd ?_ ?_
    | with_reducible apply State.trap_keeps
    | with_reducible apply State.readSpad_keeps
    | (simp only [State.Keeps.mk_of]; with_reducible refine State.Keeps.core ?_)
    | intro _
    | dsimp only
    | refine State.Keeps.of_snd (by assumption) ?_
    | refine State.take_keeps (by assumption) ?_)

theorem State.writeSpan_keeps (n off : Nat) (bs : List Byte) (hs : s0.Keeps s) : s0.Keeps (State.writeSpan s n off bs) := by
  unfold State.writeSpan
  try dsimp only
  repeat' (first
    | with_reducible assumption
    | with_reducible refine State.Keeps.ite ?_ ?_
    | with_reducible apply State.trap_keeps
    | with_reducible apply State.queueWrite_keeps
    | (simp only [State.Keeps.mk_of]; with_reducible refine State.Keeps.core ?_)
    | intro _)

theorem State.roundRow_keeps (n : Nat) (l : List Nat) (hs : s0.Keeps s) : s0.Keeps (State.roundRow s n l).2 := by
  unfold State.roundRow
  try dsimp only
  repeat' (first
    | with_reducible assumption
    | with_reducible refine State.Keeps.ite ?_ ?_
    | with_reducible refine State.Keeps.ite_snd ?_ ?_
    | with_reducible apply State.srNext_keeps
    | (simp only [State.Keeps.mk_of]; with_reducible refine State.Keeps.core ?_)
    | intro _
    | dsimp only
    | refine State.Keeps.of_snd (by assumption) ?_)

theorem State.newEntry_keeps (n src : Nat) (hs : s0.Keeps s) : s0.Keeps (State.newEntry s n src).2 := by
  unfold State.newEntry
  try dsimp only
  repeat' (first
    | with_reducible assumption
    | with_reducible refine State.Keeps.ite ?_ ?_
    | with_reducible refine State.Keeps.ite_snd ?_ ?_
    | with_reducible apply State.readPort_keeps
    | with_reducible apply State.roundRow_keeps
    | (simp only [State.Keeps.mk_of]; with_reducible refine State.Keeps.core ?_)
    | intro _
    | dsimp only
    | refine State.Keeps.of_snd (by assumption) ?_
    | refine State.take_keeps (by assumption) ?_)

theorem State.kvWrite_keeps (n g x j node src : Nat) (hs : s0.Keeps s) : s0.Keeps (State.kvWrite s n g x j node src) := by
  unfold State.kvWrite
  try dsimp only
  repeat' (first
    | with_reducible assumption
    | with_reducible refine State.Keeps.ite ?_ ?_
    | with_reducible refine State.Keeps.ite_snd ?_ ?_
    | with_reducible apply State.queueWrite_keeps
    | with_reducible apply State.writeSpan_keeps
    | with_reducible apply State.newEntry_keeps
    | (simp only [State.Keeps.mk_of]; with_reducible refine State.Keeps.core ?_)
    | intro _
    | dsimp only
    | split
    | refine State.Keeps.of_snd (by assumption) ?_)

theorem State.copyIn_keeps (n g x j : Nat) (hs : s0.Keeps s) : s0.Keeps (State.copyIn s n g x j) := by
  unfold State.copyIn
  try dsimp only
  repeat' (first
    | with_reducible assumption
    | with_reducible refine State.Keeps.ite ?_ ?_
    | with_reducible refine State.Keeps.ite_snd ?_ ?_
    | with_reducible apply State.readSpan_keeps
    | with_reducible apply State.writeSpan_keeps
    | (simp only [State.Keeps.mk_of]; with_reducible refine State.Keeps.core ?_)
    | with_reducible refine State.Keeps.foldl _ ?_ ?_
    | with_reducible refine State.Keeps.foldl_snd _ ?_ ?_
    | intro _
    | dsimp only
    | split
    | refine State.Keeps.of_snd (by assumption) ?_)

theorem State.attend_keeps (n : Nat) (p : KvPage) (q out : Nat) (l : List (Nat × List Nat × List Nat)) (hs : s0.Keeps s) : s0.Keeps (State.attend s n p q out l) := by
  unfold State.attend
  try dsimp only
  repeat' (first
    | with_reducible assumption
    | with_reducible refine State.Keeps.ite ?_ ?_
    | with_reducible refine State.Keeps.ite_snd ?_ ?_
    | with_reducible apply State.writePort_keeps
    | with_reducible apply State.readSpan_keeps
    | (simp only [State.Keeps.mk_of]; with_reducible refine State.Keeps.core ?_)
    | intro _
    | dsimp only)

theorem State.readEntries_keeps (n : Nat) (l : List (Nat × Nat × Nat)) (hs : s0.Keeps s) : s0.Keeps (State.readEntries s n l).2 := by
  unfold State.readEntries
  try dsimp only
  repeat' (first
    | with_reducible assumption
    | with_reducible refine State.Keeps.ite ?_ ?_
    | with_reducible refine State.Keeps.ite_snd ?_ ?_
    | with_reducible apply State.readSpan_keeps
    | (simp only [State.Keeps.mk_of]; with_reducible refine State.Keeps.core ?_)
    | with_reducible refine State.Keeps.foldl _ ?_ ?_
    | with_reducible refine State.Keeps.foldl_snd _ ?_ ?_
    | intro _
    | dsimp only
    | refine State.Keeps.of_snd (by assumption) ?_)

theorem State.walk_keeps (n g x j node q out : Nat) (hs : s0.Keeps s) : s0.Keeps (State.walk s n g x j node q out) := by
  unfold State.walk
  try dsimp only
  repeat' (first
    | with_reducible assumption
    | with_reducible refine State.Keeps.ite ?_ ?_
    | with_reducible refine State.Keeps.ite_snd ?_ ?_
    | with_reducible apply State.attend_keeps
    | with_reducible apply State.readEntries_keeps
    | (simp only [State.Keeps.mk_of]; with_reducible refine State.Keeps.core ?_)
    | intro _
    | dsimp only
    | split
    | refine State.Keeps.of_snd (by assumption) ?_)

theorem State.kvPrefill_keeps (n g x ring pos src : Nat) (hs : s0.Keeps s) : s0.Keeps (State.kvPrefill s n g x ring pos src) := by
  unfold State.kvPrefill
  try dsimp only
  repeat' (first
    | with_reducible assumption
    | with_reducible refine State.Keeps.ite ?_ ?_
    | with_reducible refine State.Keeps.ite_snd ?_ ?_
    | with_reducible apply State.prefillSet_keeps
    | with_reducible apply State.writeSpan_keeps
    | with_reducible apply State.newEntry_keeps
    | (simp only [State.Keeps.mk_of]; with_reducible refine State.Keeps.core ?_)
    | with_reducible refine State.Keeps.getD ?_ ?_
    | intro _
    | dsimp only
    | split
    | refine State.Keeps.of_snd (by assumption) ?_
    | refine State.take_keeps (by assumption) ?_)

theorem State.walkPrefill_keeps (n g x ring pos q out : Nat) (hs : s0.Keeps s) : s0.Keeps (State.walkPrefill s n g x ring pos q out) := by
  unfold State.walkPrefill
  try dsimp only
  repeat' (first
    | with_reducible assumption
    | with_reducible refine State.Keeps.ite ?_ ?_
    | with_reducible refine State.Keeps.ite_snd ?_ ?_
    | with_reducible apply State.attend_keeps
    | with_reducible apply State.readEntries_keeps
    | (simp only [State.Keeps.mk_of]; with_reducible refine State.Keeps.core ?_)
    | with_reducible refine State.Keeps.foldl _ ?_ ?_
    | with_reducible refine State.Keeps.foldl_snd _ ?_ ?_
    | with_reducible refine State.Keeps.getD ?_ ?_
    | intro _
    | dsimp only
    | split
    | refine State.Keeps.of_snd (by assumption) ?_
    | refine State.take_keeps (by assumption) ?_)

theorem State.panelMul_keeps (n store layer src token : Nat) (hs : s0.Keeps s) : s0.Keeps (State.panelMul s n store layer src token) := by
  unfold State.panelMul
  try dsimp only
  repeat' (first
    | with_reducible assumption
    | with_reducible refine State.Keeps.ite ?_ ?_
    | with_reducible refine State.Keeps.ite_snd ?_ ?_
    | with_reducible apply State.writeCoded_keeps
    | with_reducible apply State.readCoded_keeps
    | with_reducible apply State.readPort_keeps
    | (simp only [State.Keeps.mk_of]; with_reducible refine State.Keeps.core ?_)
    | with_reducible refine State.Keeps.foldl _ ?_ ?_
    | with_reducible refine State.Keeps.foldl_snd _ ?_ ?_
    | intro _
    | dsimp only
    | refine State.take_keeps (by assumption) ?_)

theorem State.startArray_keeps (o : ArrayOp) (hs : s0.Keeps s) : s0.Keeps (State.startArray s o) := by
  unfold State.startArray
  try dsimp only
  repeat' (first
    | with_reducible assumption
    | with_reducible refine State.Keeps.ite ?_ ?_
    | (simp only [State.Keeps.mk_of]; with_reducible refine State.Keeps.core ?_)
    | intro _)

theorem State.queueInput_keeps (n entry : Nat) (bs : List Byte) (hs : s0.Keeps s) : s0.Keeps (State.queueInput s n entry bs) := by
  unfold State.queueInput
  try dsimp only
  repeat' (first
    | with_reducible assumption
    | with_reducible refine State.Keeps.ite ?_ ?_
    | (simp only [State.Keeps.mk_of]; with_reducible refine State.Keeps.core ?_)
    | with_reducible refine State.Keeps.foldl _ ?_ ?_
    | with_reducible refine State.Keeps.foldl_snd _ ?_ ?_
    | intro _
    | dsimp only
    | refine State.Keeps.of_snd (by assumption) ?_
    | refine State.take_keeps (by assumption) ?_)

theorem State.progOp_keeps (n off : Nat) (op : ProgOp) (hs : s0.Keeps s) : s0.Keeps (State.progOp s n off op) := by
  unfold State.progOp
  try dsimp only
  repeat' (first
    | with_reducible assumption
    | with_reducible refine State.Keeps.ite ?_ ?_
    | with_reducible refine State.Keeps.ite_snd ?_ ?_
    | with_reducible apply State.set_keeps
    | with_reducible apply State.wipe_keeps
    | with_reducible apply State.wrBytes_keeps
    | with_reducible apply State.creditOverflow_keeps
    | with_reducible apply State.readCoded_keeps
    | with_reducible apply State.readPort_keeps
    | with_reducible apply State.writePort_keeps
    | with_reducible apply State.channelScales_keeps
    | with_reducible apply State.portCirc_keeps
    | with_reducible apply State.ringRead_keeps
    | with_reducible apply State.ringWrite_keeps
    | with_reducible apply State.srNext_keeps
    | with_reducible apply State.inject_keeps
    | with_reducible apply State.kvWrite_keeps
    | with_reducible apply State.copyIn_keeps
    | with_reducible apply State.walk_keeps
    | with_reducible apply State.kvPrefill_keeps
    | with_reducible apply State.walkPrefill_keeps
    | with_reducible apply State.panelMul_keeps
    | with_reducible apply State.startArray_keeps
    | with_reducible apply State.queueInput_keeps
    | (simp only [State.Keeps.mk_of]; with_reducible refine State.Keeps.core ?_)
    | with_reducible refine State.Keeps.getD ?_ ?_
    | intro _
    | dsimp only
    | split
    | refine State.take_keeps (by assumption) ?_)

theorem execActionProgramStep_keeps {tt : State} (dt n i : Nat) (ops : List ProgOp) (ups : List Upset) (ex : execActionProgramStep dt n i ops ups s = .next tt) : s.Keeps tt := by
  have hs := State.Keeps.refl s
  unfold execActionProgramStep at ex
  try dsimp only at ex
  refine State.Keeps.of_next ex ?_
  clear ex
  repeat' (first
    | with_reducible assumption
    | with_reducible refine State.Keeps.ite ?_ ?_
    | with_reducible apply State.upset_keeps
    | with_reducible apply State.pass_keeps
    | with_reducible apply State.next_keeps
    | with_reducible apply State.issue_keeps
    | with_reducible apply State.progOp_keeps
    | (simp only [State.Keeps.mk_of]; with_reducible refine State.Keeps.core ?_)
    | with_reducible refine State.Keeps.foldl _ ?_ ?_
    | with_reducible refine State.Keeps.foldl_snd _ ?_ ?_
    | intro _
    | split)

end Sys2Proof.Machine
end

