-- ==== Sys2Proof/Laws/KeepsPower.lean ====
section
/-! SUPPORT. What the operations and meanings of Formats, Sensors, Power, Thermal, Clocks, Startup keep (Laws/Keeps.lean). -/

set_option Elab.async false

namespace Sys2Proof.Machine

set_option linter.unusedTactic false
set_option linter.unreachableTactic false
set_option linter.unusedSimpArgs false

variable {s0 s : State}

/-! ### Machine/Formats.lean -/

theorem State.dropSample_keeps (c : Nat) (hs : s0.Keeps s) : s0.Keeps (State.dropSample s c) := by
  unfold State.dropSample
  try dsimp only
  repeat' (first
    | with_reducible assumption
    | with_reducible refine State.Keeps.ite ?_ ?_
    | with_reducible apply State.setServ_keeps
    | (simp only [State.Keeps.mk_of]; with_reducible refine State.Keeps.core ?_)
    | intro _)

theorem State.selectSample_keeps (i : Image) (turn c : Nat) (hs : s0.Keeps s) : s0.Keeps (State.selectSample s i turn c) := by
  unfold State.selectSample
  try dsimp only
  repeat' (first
    | with_reducible assumption
    | with_reducible refine State.Keeps.ite ?_ ?_
    | with_reducible apply State.setServ_keeps
    | with_reducible apply State.srNext_keeps
    | (simp only [State.Keeps.mk_of]; with_reducible refine State.Keeps.core ?_)
    | with_reducible refine State.Keeps.getD ?_ ?_
    | intro _
    | dsimp only
    | split
    | refine State.Keeps.of_snd (by assumption) ?_)

theorem State.selectSamples_keeps (turn : Nat) (hs : s0.Keeps s) : s0.Keeps (State.selectSamples s turn) := by
  unfold State.selectSamples
  try dsimp only
  repeat' (first
    | with_reducible assumption
    | with_reducible refine State.Keeps.ite ?_ ?_
    | with_reducible apply State.selectSample_keeps
    | (simp only [State.Keeps.mk_of]; with_reducible refine State.Keeps.core ?_)
    | with_reducible refine State.Keeps.foldl _ ?_ ?_
    | with_reducible refine State.Keeps.foldl_snd _ ?_ ?_
    | intro _
    | split)

theorem State.startWindows_keeps (turn : Nat) (hs : s0.Keeps s) : s0.Keeps (State.startWindows s turn) := by
  unfold State.startWindows
  try dsimp only
  repeat' (first
    | with_reducible assumption
    | with_reducible refine State.Keeps.ite ?_ ?_
    | with_reducible apply State.set_keeps
    | with_reducible apply State.setServ_keeps
    | with_reducible apply State.window_keeps
    | (simp only [State.Keeps.mk_of]; with_reducible refine State.Keeps.core ?_)
    | with_reducible refine State.Keeps.foldl _ ?_ ?_
    | with_reducible refine State.Keeps.foldl_snd _ ?_ ?_
    | intro _
    | split)

theorem State.missSample_keeps (c : Nat) (hs : s0.Keeps s) : s0.Keeps (State.missSample s c) := by
  unfold State.missSample
  try dsimp only
  repeat' (first
    | with_reducible assumption
    | with_reducible refine State.Keeps.ite ?_ ?_
    | with_reducible apply State.inc_keeps
    | with_reducible apply State.dropSample_keeps
    | (simp only [State.Keeps.mk_of]; with_reducible refine State.Keeps.core ?_)
    | intro _)

theorem State.shadowCheck_keeps (f : Fmt) (t : Tap) (n m a o : Nat) (hs : s0.Keeps s) : s0.Keeps (State.shadowCheck s f t n m a o).2 := by
  unfold State.shadowCheck
  try dsimp only
  repeat' (first
    | with_reducible assumption
    | with_reducible refine State.Keeps.ite ?_ ?_
    | with_reducible refine State.Keeps.ite_snd ?_ ?_
    | with_reducible apply State.readCoded_keeps
    | with_reducible apply State.writeSpad_keeps
    | with_reducible apply State.channelScales_keeps
    | with_reducible apply State.getWords_keeps
    | (simp only [State.Keeps.mk_of]; with_reducible refine State.Keeps.core ?_)
    | with_reducible refine State.Keeps.getD ?_ ?_
    | intro _
    | dsimp only
    | refine State.Keeps.of_snd (by assumption) ?_)

theorem execShadowCopyComplete_keeps {tt : State} (dt c : Nat) (ex : execShadowCopyComplete dt c s = .next tt) : s.Keeps tt := by
  have hs := State.Keeps.refl s
  unfold execShadowCopyComplete at ex
  try dsimp only at ex
  refine State.Keeps.of_next ex ?_
  clear ex
  repeat' (first
    | with_reducible assumption
    | with_reducible refine State.Keeps.ite ?_ ?_
    | with_reducible refine State.Keeps.ite_snd ?_ ?_
    | with_reducible apply State.setServ_keeps
    | with_reducible apply State.pass_keeps
    | with_reducible apply State.next_keeps
    | with_reducible apply State.missSample_keeps
    | with_reducible apply State.shadowCheck_keeps
    | (simp only [State.Keeps.mk_of]; with_reducible refine State.Keeps.core ?_)
    | intro _
    | dsimp only
    | split
    | refine State.Keeps.of_snd (by assumption) ?_)

theorem execShadowSampleMissed_keeps {tt : State} (dt c : Nat) (ex : execShadowSampleMissed dt c s = .next tt) : s.Keeps tt := by
  have hs := State.Keeps.refl s
  unfold execShadowSampleMissed at ex
  try dsimp only at ex
  refine State.Keeps.of_next ex ?_
  clear ex
  repeat' (first
    | with_reducible assumption
    | with_reducible refine State.Keeps.ite ?_ ?_
    | with_reducible apply State.pass_keeps
    | with_reducible apply State.next_keeps
    | with_reducible apply State.missSample_keeps
    | (simp only [State.Keeps.mk_of]; with_reducible refine State.Keeps.core ?_)
    | intro _
    | split)

theorem State.modelPressure_keeps  (hs : s0.Keeps s) : s0.Keeps (State.modelPressure s) := by
  unfold State.modelPressure
  try dsimp only
  repeat' (first
    | with_reducible assumption
    | with_reducible refine State.Keeps.ite ?_ ?_
    | with_reducible apply State.setFlag_keeps
    | with_reducible apply State.raiseHead_keeps
    | (simp only [State.Keeps.mk_of]; with_reducible refine State.Keeps.core ?_)
    | intro _)

theorem State.exceed_keeps (l : Nat) (nf : Bool) (hs : s0.Keeps s) : s0.Keeps (State.exceed s l nf) := by
  unfold State.exceed
  try dsimp only
  repeat' (first
    | with_reducible assumption
    | with_reducible refine State.Keeps.ite ?_ ?_
    | with_reducible apply State.iff_keeps
    | with_reducible apply State.inc_keeps
    | with_reducible apply State.setFlag_keeps
    | with_reducible apply State.raiseHead_keeps
    | with_reducible apply State.setServ_keeps
    | with_reducible apply State.modelPressure_keeps
    | (simp only [State.Keeps.mk_of]; with_reducible refine State.Keeps.core ?_)
    | intro _)

theorem execShadowCompareComplete_keeps {tt : State} (dt c : Nat) (ex : execShadowCompareComplete dt c s = .next tt) : s.Keeps tt := by
  have hs := State.Keeps.refl s
  unfold execShadowCompareComplete at ex
  try dsimp only at ex
  refine State.Keeps.of_next ex ?_
  clear ex
  repeat' (first
    | with_reducible assumption
    | with_reducible refine State.Keeps.ite ?_ ?_
    | with_reducible refine State.Keeps.ite_snd ?_ ?_
    | with_reducible apply State.inc_keeps
    | with_reducible apply State.pass_keeps
    | with_reducible apply State.next_keeps
    | with_reducible apply State.window_keeps
    | with_reducible apply State.dropSample_keeps
    | with_reducible apply State.exceed_keeps
    | (simp only [State.Keeps.mk_of]; with_reducible refine State.Keeps.core ?_)
    | intro _
    | dsimp only
    | split
    | refine State.Keeps.of_snd (by assumption) ?_)

/-! ### Machine/Power.lean -/

theorem State.sendSetPoints_keeps (k : Nat) (hs : s0.Keeps s) : s0.Keeps (State.sendSetPoints s k) := by
  unfold State.sendSetPoints
  try dsimp only
  repeat' (first
    | with_reducible assumption
    | with_reducible refine State.Keeps.ite ?_ ?_
    | with_reducible apply State.sendRail_keeps
    | (simp only [State.Keeps.mk_of]; with_reducible refine State.Keeps.core ?_)
    | with_reducible refine State.Keeps.foldl _ ?_ ?_
    | with_reducible refine State.Keeps.foldl_snd _ ?_ ?_
    | intro _)

theorem State.askStep_keeps  (hs : s0.Keeps s) : s0.Keeps (State.askStep s) := by
  unfold State.askStep
  try dsimp only
  repeat' (first
    | with_reducible assumption
    | with_reducible refine State.Keeps.ite ?_ ?_
    | with_reducible apply State.sendSetPoints_keeps
    | (simp only [State.Keeps.mk_of]; with_reducible refine State.Keeps.core ?_)
    | intro _
    | dsimp only)

theorem execSetPointSettled_keeps {tt : State} (dt : Nat) (ex : execSetPointSettled dt s = .next tt) : s.Keeps tt := by
  have hs := State.Keeps.refl s
  unfold execSetPointSettled at ex
  try dsimp only at ex
  refine State.Keeps.of_next ex ?_
  clear ex
  repeat' (first
    | with_reducible assumption
    | with_reducible refine State.Keeps.ite ?_ ?_
    | with_reducible apply State.pass_keeps
    | with_reducible apply State.next_keeps
    | (simp only [State.Keeps.mk_of]; with_reducible refine State.Keeps.core ?_)
    | intro _
    | dsimp only
    | split)

theorem State.derate_keeps  (hs : s0.Keeps s) : s0.Keeps (State.derate s) := by
  unfold State.derate
  try dsimp only
  repeat' (first
    | with_reducible assumption
    | with_reducible refine State.Keeps.ite ?_ ?_
    | with_reducible apply State.set_keeps
    | (simp only [State.Keeps.mk_of]; with_reducible refine State.Keeps.core ?_)
    | with_reducible refine State.Keeps.foldl _ ?_ ?_
    | with_reducible refine State.Keeps.foldl_snd _ ?_ ?_
    | intro _
    | split)

theorem State.darkBay_keeps (b : Nat) (hs : s0.Keeps s) : s0.Keeps (State.darkBay s b) := by
  unfold State.darkBay
  try dsimp only
  repeat' (first
    | with_reducible assumption
    | with_reducible refine State.Keeps.ite ?_ ?_
    | with_reducible apply State.set_keeps
    | with_reducible apply State.wipe_keeps
    | with_reducible apply State.addDefect_keeps
    | with_reducible apply State.setTiles_keeps
    | with_reducible apply State.sendRail_keeps
    | with_reducible apply State.repairFail_keeps
    | (simp only [State.Keeps.mk_of]; with_reducible refine State.Keeps.core ?_)
    | with_reducible refine State.Keeps.foldl _ ?_ ?_
    | with_reducible refine State.Keeps.foldl_snd _ ?_ ?_
    | intro _)

theorem State.shorted_keeps (r : Nat) (hs : s0.Keeps s) : s0.Keeps (State.shorted s r) := by
  unfold State.shorted
  try dsimp only
  repeat' (first
    | with_reducible assumption
    | with_reducible refine State.Keeps.ite ?_ ?_
    | with_reducible apply State.voidMore_keeps
    | with_reducible apply State.loseCoach_keeps
    | with_reducible apply State.darkBay_keeps
    | (simp only [State.Keeps.mk_of]; with_reducible refine State.Keeps.core ?_)
    | intro _)

theorem State.phases_keeps (r old : Nat) (hs : s0.Keeps s) : s0.Keeps (State.phases s r old) := by
  unfold State.phases
  try dsimp only
  repeat' (first
    | with_reducible assumption
    | with_reducible refine State.Keeps.ite ?_ ?_
    | with_reducible apply State.raiseHead_keeps
    | with_reducible apply State.shorted_keeps
    | (simp only [State.Keeps.mk_of]; with_reducible refine State.Keeps.core ?_)
    | intro _)

theorem State.railDone_keeps (r : Nat) (hs : s0.Keeps s) : s0.Keeps (State.railDone s r) := by
  unfold State.railDone
  try dsimp only
  repeat' (first
    | with_reducible assumption
    | with_reducible refine State.Keeps.ite ?_ ?_
    | with_reducible apply State.setFlag_keeps
    | (simp only [State.Keeps.mk_of]; with_reducible refine State.Keeps.core ?_)
    | intro _)

theorem State.railFailed_keeps (r req : Nat) (hs : s0.Keeps s) : s0.Keeps (State.railFailed s r req) := by
  unfold State.railFailed
  try dsimp only
  repeat' (first
    | with_reducible assumption
    | with_reducible refine State.Keeps.ite ?_ ?_
    | with_reducible apply State.setFlag_keeps
    | with_reducible apply State.raiseHead_keeps
    | (simp only [State.Keeps.mk_of]; with_reducible refine State.Keeps.core ?_)
    | with_reducible refine State.Keeps.getD ?_ ?_
    | intro _
    | dsimp only)

theorem State.railAnswer_keeps (r op data : Nat) (hs : s0.Keeps s) : s0.Keeps (State.railAnswer s r op data) := by
  unfold State.railAnswer
  try dsimp only
  repeat' (first
    | with_reducible assumption
    | with_reducible refine State.Keeps.ite ?_ ?_
    | with_reducible apply State.set_keeps
    | with_reducible apply State.shorted_keeps
    | with_reducible apply State.phases_keeps
    | (simp only [State.Keeps.mk_of]; with_reducible refine State.Keeps.core ?_)
    | intro _
    | split)

theorem execRailBusResponse_keeps {tt : State} (dt : Nat) (r : Resp) (ex : execRailBusResponse dt r s = .next tt) : s.Keeps tt := by
  have hs := State.Keeps.refl s
  unfold execRailBusResponse at ex
  try dsimp only at ex
  refine State.Keeps.of_next ex ?_
  clear ex
  repeat' (first
    | with_reducible assumption
    | with_reducible refine State.Keeps.ite ?_ ?_
    | with_reducible apply State.pass_keeps
    | with_reducible apply State.next_keeps
    | with_reducible apply State.railDone_keeps
    | with_reducible apply State.railFailed_keeps
    | with_reducible apply State.railAnswer_keeps
    | (simp only [State.Keeps.mk_of]; with_reducible refine State.Keeps.core ?_)
    | intro _)

theorem execRailAlert_keeps {tt : State} (dt bus : Nat) (ex : execRailAlert dt bus s = .next tt) : s.Keeps tt := by
  have hs := State.Keeps.refl s
  unfold execRailAlert at ex
  try dsimp only at ex
  refine State.Keeps.of_next ex ?_
  clear ex
  repeat' (first
    | with_reducible assumption
    | with_reducible refine State.Keeps.ite ?_ ?_
    | with_reducible apply State.sendRail_keeps
    | with_reducible apply State.pass_keeps
    | with_reducible apply State.next_keeps
    | (simp only [State.Keeps.mk_of]; with_reducible refine State.Keeps.core ?_)
    | with_reducible refine State.Keeps.foldl _ ?_ ?_
    | with_reducible refine State.Keeps.foldl_snd _ ?_ ?_
    | intro _
    | split)

theorem execRailStatusPoll_keeps {tt : State} (dt rail : Nat) (ex : execRailStatusPoll dt rail s = .next tt) : s.Keeps tt := by
  have hs := State.Keeps.refl s
  unfold execRailStatusPoll at ex
  try dsimp only at ex
  refine State.Keeps.of_next ex ?_
  clear ex
  repeat' (first
    | with_reducible assumption
    | with_reducible refine State.Keeps.ite ?_ ?_
    | with_reducible apply State.sendRail_keeps
    | with_reducible apply State.pass_keeps
    | with_reducible apply State.next_keeps
    | (simp only [State.Keeps.mk_of]; with_reducible refine State.Keeps.core ?_)
    | intro _
    | split)

theorem State.sampleVolts_keeps (d mv : Nat) (hs : s0.Keeps s) : s0.Keeps (State.sampleVolts s d mv) := by
  unfold State.sampleVolts
  try dsimp only
  repeat' (first
    | with_reducible assumption
    | with_reducible refine State.Keeps.ite ?_ ?_
    | with_reducible apply State.set_keeps
    | (simp only [State.Keeps.mk_of]; with_reducible refine State.Keeps.core ?_)
    | intro _)

theorem State.droopTurns_keeps (d r : Nat) (hs : s0.Keeps s) : s0.Keeps (State.droopTurns s d r) := by
  unfold State.droopTurns
  try dsimp only
  repeat' (first
    | with_reducible assumption
    | with_reducible refine State.Keeps.ite ?_ ?_
    | with_reducible apply State.phases_keeps
    | (simp only [State.Keeps.mk_of]; with_reducible refine State.Keeps.core ?_)
    | with_reducible refine State.Keeps.getD ?_ ?_
    | intro _
    | dsimp only)

theorem execPowerDroop_keeps {tt : State} (dt d mv : Nat) (ex : execPowerDroop dt d mv s = .next tt) : s.Keeps tt := by
  have hs := State.Keeps.refl s
  unfold execPowerDroop at ex
  try dsimp only at ex
  refine State.Keeps.of_next ex ?_
  clear ex
  repeat' (first
    | with_reducible assumption
    | with_reducible refine State.Keeps.ite ?_ ?_
    | with_reducible apply State.inc_keeps
    | with_reducible apply State.raiseHead_keeps
    | with_reducible apply State.voidTurn_keeps
    | with_reducible apply State.pass_keeps
    | with_reducible apply State.next_keeps
    | with_reducible apply State.sampleVolts_keeps
    | with_reducible apply State.droopTurns_keeps
    | (simp only [State.Keeps.mk_of]; with_reducible refine State.Keeps.core ?_)
    | intro _
    | split)

theorem execSupplyShort_keeps {tt : State} (dt rail : Nat) (ex : execSupplyShort dt rail s = .next tt) : s.Keeps tt := by
  have hs := State.Keeps.refl s
  unfold execSupplyShort at ex
  try dsimp only at ex
  refine State.Keeps.of_next ex ?_
  clear ex
  repeat' (first
    | with_reducible assumption
    | with_reducible refine State.Keeps.ite ?_ ?_
    | with_reducible apply State.pass_keeps
    | with_reducible apply State.next_keeps
    | with_reducible apply State.shorted_keeps
    | (simp only [State.Keeps.mk_of]; with_reducible refine State.Keeps.core ?_)
    | intro _
    | split)

theorem execPowerLimitExceeded_keeps {tt : State} (dt watts : Nat) (ex : execPowerLimitExceeded dt watts s = .next tt) : s.Keeps tt := by
  have hs := State.Keeps.refl s
  unfold execPowerLimitExceeded at ex
  try dsimp only at ex
  refine State.Keeps.of_next ex ?_
  clear ex
  repeat' (first
    | with_reducible assumption
    | with_reducible refine State.Keeps.ite ?_ ?_
    | with_reducible apply State.set_keeps
    | with_reducible apply State.inc_keeps
    | with_reducible apply State.raiseHold_keeps
    | with_reducible apply State.pass_keeps
    | with_reducible apply State.next_keeps
    | (simp only [State.Keeps.mk_of]; with_reducible refine State.Keeps.core ?_)
    | intro _)

theorem execPowerHoldRelease_keeps {tt : State} (dt watts : Nat) (ex : execPowerHoldRelease dt watts s = .next tt) : s.Keeps tt := by
  have hs := State.Keeps.refl s
  unfold execPowerHoldRelease at ex
  try dsimp only at ex
  refine State.Keeps.of_next ex ?_
  clear ex
  repeat' (first
    | with_reducible assumption
    | with_reducible refine State.Keeps.ite ?_ ?_
    | with_reducible apply State.set_keeps
    | with_reducible apply State.withdrawHolds_keeps
    | with_reducible apply State.pass_keeps
    | with_reducible apply State.next_keeps
    | (simp only [State.Keeps.mk_of]; with_reducible refine State.Keeps.core ?_)
    | intro _
    | split)

theorem State.govern_keeps (held len : Nat) (hs : s0.Keeps s) : s0.Keeps (State.govern s held len) := by
  unfold State.govern
  try dsimp only
  repeat' (first
    | with_reducible assumption
    | with_reducible refine State.Keeps.ite ?_ ?_
    | with_reducible refine State.Keeps.ite_snd ?_ ?_
    | with_reducible apply State.set_keeps
    | (simp only [State.Keeps.mk_of]; with_reducible refine State.Keeps.core ?_)
    | intro _
    | dsimp only
    | refine State.take_keeps (by assumption) ?_)

theorem State.adaptTrims_keeps (l : List (Nat × Bool)) (hs : s0.Keeps s) : s0.Keeps (State.adaptTrims s l) := by
  unfold State.adaptTrims
  try dsimp only
  repeat' (first
    | with_reducible assumption
    | with_reducible refine State.Keeps.ite ?_ ?_
    | with_reducible refine State.Keeps.ite_snd ?_ ?_
    | (simp only [State.Keeps.mk_of]; with_reducible refine State.Keeps.core ?_)
    | with_reducible refine State.Keeps.foldl _ ?_ ?_
    | with_reducible refine State.Keeps.foldl_snd _ ?_ ?_
    | intro _
    | dsimp only
    | split)

theorem State.applyCoachOn_keeps (v : Nat) (hs : s0.Keeps s) : s0.Keeps (State.applyCoachOn s v) := by
  unfold State.applyCoachOn
  try dsimp only
  repeat' (first
    | with_reducible assumption
    | with_reducible refine State.Keeps.ite ?_ ?_
    | with_reducible apply State.set_keeps
    | with_reducible apply State.openCoach_keeps
    | (simp only [State.Keeps.mk_of]; with_reducible refine State.Keeps.core ?_)
    | with_reducible refine State.Keeps.foldl _ ?_ ?_
    | with_reducible refine State.Keeps.foldl_snd _ ?_ ?_
    | intro _)

theorem State.startCoaches_keeps (drew : List (Nat × Nat)) (hs : s0.Keeps s) : s0.Keeps (State.startCoaches s drew) := by
  unfold State.startCoaches
  try dsimp only
  repeat' (first
    | with_reducible assumption
    | with_reducible refine State.Keeps.ite ?_ ?_
    | with_reducible refine State.Keeps.ite_snd ?_ ?_
    | with_reducible apply State.set_keeps
    | (simp only [State.Keeps.mk_of]; with_reducible refine State.Keeps.core ?_)
    | with_reducible refine State.Keeps.foldl _ ?_ ?_
    | with_reducible refine State.Keeps.foldl_snd _ ?_ ?_
    | intro _
    | dsimp only)

theorem execPowerOnStageAdvance_keeps {tt : State} (dt c : Nat) (ex : execPowerOnStageAdvance dt c s = .next tt) : s.Keeps tt := by
  have hs := State.Keeps.refl s
  unfold execPowerOnStageAdvance at ex
  try dsimp only at ex
  refine State.Keeps.of_next ex ?_
  clear ex
  repeat' (first
    | with_reducible assumption
    | with_reducible refine State.Keeps.ite ?_ ?_
    | with_reducible apply State.set_keeps
    | with_reducible apply State.inc_keeps
    | with_reducible apply State.pass_keeps
    | with_reducible apply State.next_keeps
    | (simp only [State.Keeps.mk_of]; with_reducible refine State.Keeps.core ?_)
    | with_reducible refine State.Keeps.foldl _ ?_ ?_
    | with_reducible refine State.Keeps.foldl_snd _ ?_ ?_
    | intro _
    | dsimp only
    | split)

theorem State.retarget_keeps (c : Nat) (hs : s0.Keeps s) : s0.Keeps (State.retarget s c) := by
  unfold State.retarget
  try dsimp only
  repeat' (first
    | with_reducible assumption
    | with_reducible refine State.Keeps.ite ?_ ?_
    | with_reducible apply State.startJob_keeps
    | with_reducible apply State.rebuild_keeps
    | with_reducible apply State.loseCoach_keeps
    | (simp only [State.Keeps.mk_of]; with_reducible refine State.Keeps.core ?_)
    | with_reducible refine State.Keeps.foldl _ ?_ ?_
    | with_reducible refine State.Keeps.foldl_snd _ ?_ ?_
    | intro _
    | split)

theorem execPowerOnFail_keeps {tt : State} (dt c : Nat) (ex : execPowerOnFail dt c s = .next tt) : s.Keeps tt := by
  have hs := State.Keeps.refl s
  unfold execPowerOnFail at ex
  try dsimp only at ex
  refine State.Keeps.of_next ex ?_
  clear ex
  repeat' (first
    | with_reducible assumption
    | with_reducible refine State.Keeps.ite ?_ ?_
    | with_reducible apply State.raiseHead_keeps
    | with_reducible apply State.isolate_keeps
    | with_reducible apply State.pass_keeps
    | with_reducible apply State.next_keeps
    | with_reducible apply State.retarget_keeps
    | (simp only [State.Keeps.mk_of]; with_reducible refine State.Keeps.core ?_)
    | intro _
    | split)

theorem State.idleTiles_keeps (c : Nat) (hs : s0.Keeps s) : s0.Keeps (State.idleTiles s c) := by
  unfold State.idleTiles
  try dsimp only
  repeat' (first
    | with_reducible assumption
    | with_reducible refine State.Keeps.ite ?_ ?_
    | with_reducible apply State.setTiles_keeps
    | (simp only [State.Keeps.mk_of]; with_reducible refine State.Keeps.core ?_)
    | intro _)

theorem execCoachTilesResetDone_keeps {tt : State} (dt c : Nat) (ex : execCoachTilesResetDone dt c s = .next tt) : s.Keeps tt := by
  have hs := State.Keeps.refl s
  unfold execCoachTilesResetDone at ex
  try dsimp only at ex
  refine State.Keeps.of_next ex ?_
  clear ex
  repeat' (first
    | with_reducible assumption
    | with_reducible refine State.Keeps.ite ?_ ?_
    | with_reducible apply State.pass_keeps
    | with_reducible apply State.next_keeps
    | with_reducible apply State.idleTiles_keeps
    | (simp only [State.Keeps.mk_of]; with_reducible refine State.Keeps.core ?_)
    | intro _
    | dsimp only)

theorem State.syncPending_keeps  (hs : s0.Keeps s) : s0.Keeps (State.syncPending s) := by
  unfold State.syncPending
  try dsimp only
  repeat' (first
    | with_reducible assumption
    | with_reducible refine State.Keeps.ite ?_ ?_
    | with_reducible apply State.setFlag_keeps
    | (simp only [State.Keeps.mk_of]; with_reducible refine State.Keeps.core ?_)
    | intro _)

theorem State.putShadow_keeps (k : SwapKey) (host : Bool) (v : Nat) (hs : s0.Keeps s) : s0.Keeps (State.putShadow s k host v) := by
  unfold State.putShadow
  try dsimp only
  repeat' (first
    | with_reducible assumption
    | with_reducible refine State.Keeps.ite ?_ ?_
    | with_reducible apply State.syncPending_keeps
    | (simp only [State.Keeps.mk_of]; with_reducible refine State.Keeps.core ?_)
    | intro _
    | dsimp only
    | split)

theorem execIdleBoundary_keeps {tt : State} (dt : Nat) (drew : List (Nat × Nat)) (ex : execIdleBoundary dt drew s = .next tt) : s.Keeps tt := by
  have hs := State.Keeps.refl s
  unfold execIdleBoundary at ex
  try dsimp only at ex
  refine State.Keeps.of_next ex ?_
  clear ex
  repeat' (first
    | with_reducible assumption
    | with_reducible refine State.Keeps.ite ?_ ?_
    | with_reducible apply State.pass_keeps
    | with_reducible apply State.next_keeps
    | with_reducible apply State.failStopped_keeps
    | with_reducible apply State.applyCoachOn_keeps
    | with_reducible apply State.startCoaches_keeps
    | with_reducible apply State.syncPending_keeps
    | (simp only [State.Keeps.mk_of]; with_reducible refine State.Keeps.core ?_)
    | intro _)

theorem execGuardCoachOnWrite_keeps {tt : State} (dt v : Nat) (ex : execGuardCoachOnWrite dt v s = .next tt) : s.Keeps tt := by
  have hs := State.Keeps.refl s
  unfold execGuardCoachOnWrite at ex
  try dsimp only at ex
  refine State.Keeps.of_next ex ?_
  clear ex
  repeat' (first
    | with_reducible assumption
    | with_reducible refine State.Keeps.ite ?_ ?_
    | with_reducible apply State.pass_keeps
    | with_reducible apply State.next_keeps
    | with_reducible apply State.putShadow_keeps
    | (simp only [State.Keeps.mk_of]; with_reducible refine State.Keeps.core ?_)
    | intro _
    | split)

/-! ### Machine/Thermal.lean -/

theorem State.failSensor_keeps (n : Nat) (hs : s0.Keeps s) : s0.Keeps (State.failSensor s n) := by
  unfold State.failSensor
  try dsimp only
  repeat' (first
    | with_reducible assumption
    | with_reducible refine State.Keeps.ite ?_ ?_
    | with_reducible apply State.set_keeps
    | with_reducible apply State.raiseHead_keeps
    | (simp only [State.Keeps.mk_of]; with_reducible refine State.Keeps.core ?_)
    | intro _)

theorem State.sampleSensor_keeps (n : Nat) (v : Option Nat) (hs : s0.Keeps s) : s0.Keeps (State.sampleSensor s n v) := by
  unfold State.sampleSensor
  try dsimp only
  repeat' (first
    | with_reducible assumption
    | with_reducible refine State.Keeps.ite ?_ ?_
    | with_reducible apply State.set_keeps
    | with_reducible apply State.failSensor_keeps
    | (simp only [State.Keeps.mk_of]; with_reducible refine State.Keeps.core ?_)
    | intro _
    | split)

theorem State.followPair_keeps (h : Nat) (hs : s0.Keeps s) : s0.Keeps (State.followPair s h) := by
  unfold State.followPair
  try dsimp only
  repeat' (first
    | with_reducible assumption
    | with_reducible refine State.Keeps.ite ?_ ?_
    | (simp only [State.Keeps.mk_of]; with_reducible refine State.Keeps.core ?_)
    | with_reducible refine State.Keeps.getD ?_ ?_
    | intro _
    | dsimp only
    | split)

theorem State.followExit_keeps  (hs : s0.Keeps s) : s0.Keeps (State.followExit s) := by
  unfold State.followExit
  try dsimp only
  repeat' (first
    | with_reducible assumption
    | with_reducible refine State.Keeps.ite ?_ ?_
    | (simp only [State.Keeps.mk_of]; with_reducible refine State.Keeps.core ?_)
    | with_reducible refine State.Keeps.getD ?_ ?_
    | intro _)

theorem State.thermalHold_keeps (cause : Nat) (hs : s0.Keeps s) : s0.Keeps (State.thermalHold s cause) := by
  unfold State.thermalHold
  try dsimp only
  repeat' (first
    | with_reducible assumption
    | with_reducible refine State.Keeps.ite ?_ ?_
    | with_reducible apply State.set_keeps
    | with_reducible apply State.raiseHold_keeps
    | (simp only [State.Keeps.mk_of]; with_reducible refine State.Keeps.core ?_)
    | intro _)

theorem State.shutdown1_keeps  (hs : s0.Keeps s) : s0.Keeps (State.shutdown1 s) := by
  unfold State.shutdown1
  try dsimp only
  repeat' (first
    | with_reducible assumption
    | with_reducible refine State.Keeps.ite ?_ ?_
    | with_reducible apply State.set_keeps
    | with_reducible apply State.raiseHead_keeps
    | with_reducible apply State.setTiles_keeps
    | with_reducible apply State.loseQuadrants_keeps
    | with_reducible apply State.stopImage_keeps
    | with_reducible apply State.setImageState_keeps
    | (simp only [State.Keeps.mk_of]; with_reducible refine State.Keeps.core ?_)
    | with_reducible refine State.Keeps.foldl _ ?_ ?_
    | with_reducible refine State.Keeps.foldl_snd _ ?_ ?_
    | intro _
    | dsimp only)

theorem execSensorSample_keeps {tt : State} (dt : Nat) (l : List (Nat × Nat)) (ex : execSensorSample dt l s = .next tt) : s.Keeps tt := by
  have hs := State.Keeps.refl s
  unfold execSensorSample at ex
  try dsimp only at ex
  refine State.Keeps.of_next ex ?_
  clear ex
  repeat' (first
    | with_reducible assumption
    | with_reducible refine State.Keeps.ite ?_ ?_
    | with_reducible apply State.set_keeps
    | with_reducible apply State.inc_keeps
    | with_reducible apply State.pass_keeps
    | with_reducible apply State.next_keeps
    | with_reducible apply State.sampleSensor_keeps
    | with_reducible apply State.followPair_keeps
    | with_reducible apply State.followExit_keeps
    | with_reducible apply State.thermalHold_keeps
    | with_reducible apply State.shutdown1_keeps
    | (simp only [State.Keeps.mk_of]; with_reducible refine State.Keeps.core ?_)
    | with_reducible refine State.Keeps.foldl _ ?_ ?_
    | with_reducible refine State.Keeps.foldl_snd _ ?_ ?_
    | with_reducible refine State.Keeps.getD ?_ ?_
    | intro _
    | dsimp only
    | split
    | refine State.take_keeps (by assumption) ?_)

theorem execSensorSkew_keeps {tt : State} (dt h : Nat) (ex : execSensorSkew dt h s = .next tt) : s.Keeps tt := by
  have hs := State.Keeps.refl s
  unfold execSensorSkew at ex
  try dsimp only at ex
  refine State.Keeps.of_next ex ?_
  clear ex
  repeat' (first
    | with_reducible assumption
    | with_reducible refine State.Keeps.ite ?_ ?_
    | with_reducible apply State.inc_keeps
    | with_reducible apply State.raiseHead_keeps
    | with_reducible apply State.pass_keeps
    | with_reducible apply State.next_keeps
    | (simp only [State.Keeps.mk_of]; with_reducible refine State.Keeps.core ?_)
    | intro _
    | split)

theorem State.updateReference_keeps (h : Nat) (hs : s0.Keeps s) : s0.Keeps (State.updateReference s h) := by
  unfold State.updateReference
  try dsimp only
  repeat' (first
    | with_reducible assumption
    | with_reducible refine State.Keeps.ite ?_ ?_
    | with_reducible apply State.set_keeps
    | with_reducible apply State.inc_keeps
    | (simp only [State.Keeps.mk_of]; with_reducible refine State.Keeps.core ?_)
    | with_reducible refine State.Keeps.foldl _ ?_ ?_
    | with_reducible refine State.Keeps.foldl_snd _ ?_ ?_
    | intro _
    | dsimp only
    | split)

theorem execReferenceUpdate_keeps {tt : State} (dt : Nat) (ex : execReferenceUpdate dt s = .next tt) : s.Keeps tt := by
  have hs := State.Keeps.refl s
  unfold execReferenceUpdate at ex
  try dsimp only at ex
  refine State.Keeps.of_next ex ?_
  clear ex
  repeat' (first
    | with_reducible assumption
    | with_reducible refine State.Keeps.ite ?_ ?_
    | with_reducible apply State.pass_keeps
    | with_reducible apply State.next_keeps
    | with_reducible apply State.updateReference_keeps
    | (simp only [State.Keeps.mk_of]; with_reducible refine State.Keeps.core ?_)
    | with_reducible refine State.Keeps.foldl _ ?_ ?_
    | with_reducible refine State.Keeps.foldl_snd _ ?_ ?_
    | intro _
    | split)

theorem State.fastThrottle_keeps (by_ : Nat) (hs : s0.Keeps s) : s0.Keeps (State.fastThrottle s by_) := by
  unfold State.fastThrottle
  try dsimp only
  repeat' (first
    | with_reducible assumption
    | with_reducible refine State.Keeps.ite ?_ ?_
    | with_reducible apply State.inc_keeps
    | with_reducible apply State.raiseHead_keeps
    | with_reducible apply State.thermalHold_keeps
    | (simp only [State.Keeps.mk_of]; with_reducible refine State.Keeps.core ?_)
    | intro _)

theorem execCoolStatFrame_keeps {tt : State} (dt v : Nat) (ex : execCoolStatFrame dt v s = .next tt) : s.Keeps tt := by
  have hs := State.Keeps.refl s
  unfold execCoolStatFrame at ex
  try dsimp only at ex
  refine State.Keeps.of_next ex ?_
  clear ex
  repeat' (first
    | with_reducible assumption
    | with_reducible refine State.Keeps.ite ?_ ?_
    | with_reducible apply State.set_keeps
    | with_reducible apply State.inc_keeps
    | with_reducible apply State.setFlag_keeps
    | with_reducible apply State.raiseHead_keeps
    | with_reducible apply State.pass_keeps
    | with_reducible apply State.next_keeps
    | with_reducible apply State.followExit_keeps
    | with_reducible apply State.fastThrottle_keeps
    | (simp only [State.Keeps.mk_of]; with_reducible refine State.Keeps.core ?_)
    | intro _
    | dsimp only)

theorem execCoolLost_keeps {tt : State} (dt : Nat) (ex : execCoolLost dt s = .next tt) : s.Keeps tt := by
  have hs := State.Keeps.refl s
  unfold execCoolLost at ex
  try dsimp only at ex
  refine State.Keeps.of_next ex ?_
  clear ex
  repeat' (first
    | with_reducible assumption
    | with_reducible refine State.Keeps.ite ?_ ?_
    | with_reducible apply State.setFlag_keeps
    | with_reducible apply State.raiseHead_keeps
    | with_reducible apply State.pass_keeps
    | with_reducible apply State.next_keeps
    | with_reducible apply State.followExit_keeps
    | (simp only [State.Keeps.mk_of]; with_reducible refine State.Keeps.core ?_)
    | intro _)

theorem execFastThrottleIn_keeps {tt : State} (dt : Nat) (ex : execFastThrottleIn dt s = .next tt) : s.Keeps tt := by
  have hs := State.Keeps.refl s
  unfold execFastThrottleIn at ex
  try dsimp only at ex
  refine State.Keeps.of_next ex ?_
  clear ex
  repeat' (first
    | with_reducible assumption
    | with_reducible refine State.Keeps.ite ?_ ?_
    | with_reducible apply State.pass_keeps
    | with_reducible apply State.next_keeps
    | with_reducible apply State.followExit_keeps
    | with_reducible apply State.fastThrottle_keeps
    | (simp only [State.Keeps.mk_of]; with_reducible refine State.Keeps.core ?_)
    | intro _)

theorem execFastThrottleDeasserted_keeps {tt : State} (dt : Nat) (ex : execFastThrottleDeasserted dt s = .next tt) : s.Keeps tt := by
  have hs := State.Keeps.refl s
  unfold execFastThrottleDeasserted at ex
  try dsimp only at ex
  refine State.Keeps.of_next ex ?_
  clear ex
  repeat' (first
    | with_reducible assumption
    | with_reducible refine State.Keeps.ite ?_ ?_
    | with_reducible apply State.pass_keeps
    | with_reducible apply State.next_keeps
    | with_reducible apply State.followExit_keeps
    | (simp only [State.Keeps.mk_of]; with_reducible refine State.Keeps.core ?_)
    | intro _)

theorem execThermalSustained_keeps {tt : State} (dt : Nat) (ex : execThermalSustained dt s = .next tt) : s.Keeps tt := by
  have hs := State.Keeps.refl s
  unfold execThermalSustained at ex
  try dsimp only at ex
  refine State.Keeps.of_next ex ?_
  clear ex
  repeat' (first
    | with_reducible assumption
    | with_reducible refine State.Keeps.ite ?_ ?_
    | with_reducible apply State.pass_keeps
    | with_reducible apply State.next_keeps
    | with_reducible apply State.thermalHold_keeps
    | (simp only [State.Keeps.mk_of]; with_reducible refine State.Keeps.core ?_)
    | intro _
    | split)

theorem State.abandonCopies_keeps  (hs : s0.Keeps s) : s0.Keeps (State.abandonCopies s) := by
  unfold State.abandonCopies
  try dsimp only
  repeat' (first
    | with_reducible assumption
    | with_reducible refine State.Keeps.ite ?_ ?_
    | with_reducible apply State.set_keeps
    | (simp only [State.Keeps.mk_of]; with_reducible refine State.Keeps.core ?_)
    | intro _
    | dsimp only
    | split)

theorem execHoldStateEntry_keeps {tt : State} (dt : Nat) (ex : execHoldStateEntry dt s = .next tt) : s.Keeps tt := by
  have hs := State.Keeps.refl s
  unfold execHoldStateEntry at ex
  try dsimp only at ex
  refine State.Keeps.of_next ex ?_
  clear ex
  repeat' (first
    | with_reducible assumption
    | with_reducible refine State.Keeps.ite ?_ ?_
    | with_reducible apply State.set_keeps
    | with_reducible apply State.wipe_keeps
    | with_reducible apply State.inc_keeps
    | with_reducible apply State.raiseHead_keeps
    | with_reducible apply State.setServ_keeps
    | with_reducible apply State.sendRail_keeps
    | with_reducible apply State.pass_keeps
    | with_reducible apply State.next_keeps
    | with_reducible apply State.followExit_keeps
    | with_reducible apply State.shutdown1_keeps
    | with_reducible apply State.abandonCopies_keeps
    | (simp only [State.Keeps.mk_of]; with_reducible refine State.Keeps.core ?_)
    | with_reducible refine State.Keeps.foldl _ ?_ ?_
    | with_reducible refine State.Keeps.foldl_snd _ ?_ ?_
    | intro _
    | dsimp only)

theorem execRoofShutdownCheck_keeps {tt : State} (dt : Nat) (ex : execRoofShutdownCheck dt s = .next tt) : s.Keeps tt := by
  have hs := State.Keeps.refl s
  unfold execRoofShutdownCheck at ex
  try dsimp only at ex
  refine State.Keeps.of_next ex ?_
  clear ex
  repeat' (first
    | with_reducible assumption
    | with_reducible refine State.Keeps.ite ?_ ?_
    | with_reducible apply State.set_keeps
    | with_reducible apply State.raiseHead_keeps
    | with_reducible apply State.loseRoof_keeps
    | with_reducible apply State.pass_keeps
    | with_reducible apply State.next_keeps
    | (simp only [State.Keeps.mk_of]; with_reducible refine State.Keeps.core ?_)
    | with_reducible refine State.Keeps.foldl _ ?_ ?_
    | with_reducible refine State.Keeps.foldl_snd _ ?_ ?_
    | intro _
    | dsimp only
    | split)

theorem State.leaveHold_keeps  (hs : s0.Keeps s) : s0.Keeps (State.leaveHold s) := by
  unfold State.leaveHold
  try dsimp only
  repeat' (first
    | with_reducible assumption
    | with_reducible refine State.Keeps.ite ?_ ?_
    | with_reducible apply State.set_keeps
    | with_reducible apply State.sendRail_keeps
    | with_reducible apply State.sendSetPoints_keeps
    | (simp only [State.Keeps.mk_of]; with_reducible refine State.Keeps.core ?_)
    | with_reducible refine State.Keeps.foldl _ ?_ ?_
    | with_reducible refine State.Keeps.foldl_snd _ ?_ ?_
    | intro _
    | dsimp only)

theorem execHoldStateExit_keeps {tt : State} (dt : Nat) (ex : execHoldStateExit dt s = .next tt) : s.Keeps tt := by
  have hs := State.Keeps.refl s
  unfold execHoldStateExit at ex
  try dsimp only at ex
  refine State.Keeps.of_next ex ?_
  clear ex
  repeat' (first
    | with_reducible assumption
    | with_reducible refine State.Keeps.ite ?_ ?_
    | with_reducible refine State.Keeps.ite_snd ?_ ?_
    | with_reducible apply State.set_keeps
    | with_reducible apply State.raiseHead_keeps
    | with_reducible apply State.withdrawHolds_keeps
    | with_reducible apply State.voidTurn_keeps
    | with_reducible apply State.loseTile_keeps
    | with_reducible apply State.pass_keeps
    | with_reducible apply State.next_keeps
    | with_reducible apply State.resumeCarts_keeps
    | with_reducible apply State.leaveHold_keeps
    | (simp only [State.Keeps.mk_of]; with_reducible refine State.Keeps.core ?_)
    | with_reducible refine State.Keeps.foldl _ ?_ ?_
    | with_reducible refine State.Keeps.foldl_snd _ ?_ ?_
    | intro _
    | dsimp only
    | split)

theorem State.thermGovern_keeps (turn : Nat) (hs : s0.Keeps s) : s0.Keeps (State.thermGovern s turn) := by
  unfold State.thermGovern
  try dsimp only
  repeat' (first
    | with_reducible assumption
    | with_reducible refine State.Keeps.ite ?_ ?_
    | with_reducible refine State.Keeps.ite_snd ?_ ?_
    | with_reducible apply State.set_keeps
    | with_reducible apply State.raiseHead_keeps
    | (simp only [State.Keeps.mk_of]; with_reducible refine State.Keeps.core ?_)
    | intro _
    | dsimp only
    | split)

theorem execRotation_keeps {tt : State} (dt : Nat) (spots : List HourPart) (ex : execRotation dt spots s = .next tt) : s.Keeps tt := by
  have hs := State.Keeps.refl s
  unfold execRotation at ex
  try dsimp only at ex
  refine State.Keeps.of_next ex ?_
  clear ex
  repeat' (first
    | with_reducible assumption
    | with_reducible refine State.Keeps.ite ?_ ?_
    | with_reducible apply State.set_keeps
    | with_reducible apply State.pass_keeps
    | with_reducible apply State.next_keeps
    | (simp only [State.Keeps.mk_of]; with_reducible refine State.Keeps.core ?_)
    | intro _
    | dsimp only
    | split)

/-! ### Machine/Clocks.lean -/

theorem State.clkReport_keeps (d r : Nat) (hs : s0.Keeps s) : s0.Keeps (State.clkReport s d r) := by
  unfold State.clkReport
  try dsimp only
  repeat' (first
    | with_reducible assumption
    | with_reducible refine State.Keeps.ite ?_ ?_
    | with_reducible apply State.set_keeps
    | with_reducible apply State.inc_keeps
    | (simp only [State.Keeps.mk_of]; with_reducible refine State.Keeps.core ?_)
    | intro _)

theorem State.clkRequest_keeps (who : Requester) (d op : Nat) (seco : Bool) (inst : Option Nat) (hs : s0.Keeps s) : s0.Keeps (State.clkRequest s who d op seco inst) := by
  unfold State.clkRequest
  try dsimp only
  repeat' (first
    | with_reducible assumption
    | with_reducible refine State.Keeps.ite ?_ ?_
    | with_reducible refine State.Keeps.ite_snd ?_ ?_
    | with_reducible apply State.setFlag_keeps
    | with_reducible apply State.clkReport_keeps
    | (simp only [State.Keeps.mk_of]; with_reducible refine State.Keeps.core ?_)
    | intro _
    | dsimp only
    | split)

theorem State.setReady_keeps (d : Nat) (b : Bool) (hs : s0.Keeps s) : s0.Keeps (State.setReady s d b) := by
  unfold State.setReady
  try dsimp only
  repeat' (first
    | with_reducible assumption
    | with_reducible refine State.Keeps.ite ?_ ?_
    | with_reducible apply State.setFlag_keeps
    | (simp only [State.Keeps.mk_of]; with_reducible refine State.Keeps.core ?_)
    | intro _)

theorem State.haltTiles_keeps (d i : Nat) (stop : Bool) (hs : s0.Keeps s) : s0.Keeps (State.haltTiles s d i stop) := by
  unfold State.haltTiles
  try dsimp only
  repeat' (first
    | with_reducible assumption
    | with_reducible refine State.Keeps.ite ?_ ?_
    | (simp only [State.Keeps.mk_of]; with_reducible refine State.Keeps.core ?_)
    | intro _
    | dsimp only)

theorem execPllReady_keeps {tt : State} (dt d i : Nat) (ex : execPllReady dt d i s = .next tt) : s.Keeps tt := by
  have hs := State.Keeps.refl s
  unfold execPllReady at ex
  try dsimp only at ex
  refine State.Keeps.of_next ex ?_
  clear ex
  repeat' (first
    | with_reducible assumption
    | with_reducible refine State.Keeps.ite ?_ ?_
    | with_reducible apply State.pass_keeps
    | with_reducible apply State.next_keeps
    | with_reducible apply State.setReady_keeps
    | with_reducible apply State.haltTiles_keeps
    | (simp only [State.Keeps.mk_of]; with_reducible refine State.Keeps.core ?_)
    | intro _
    | dsimp only)

theorem execPllLockLost_keeps {tt : State} (dt d i : Nat) (ex : execPllLockLost dt d i s = .next tt) : s.Keeps tt := by
  have hs := State.Keeps.refl s
  unfold execPllLockLost at ex
  try dsimp only at ex
  refine State.Keeps.of_next ex ?_
  clear ex
  repeat' (first
    | with_reducible assumption
    | with_reducible refine State.Keeps.ite ?_ ?_
    | with_reducible apply State.raiseHead_keeps
    | with_reducible apply State.pass_keeps
    | with_reducible apply State.next_keeps
    | with_reducible apply State.setReady_keeps
    | with_reducible apply State.haltTiles_keeps
    | (simp only [State.Keeps.mk_of]; with_reducible refine State.Keeps.core ?_)
    | intro _
    | dsimp only)

theorem State.refclkFail_keeps  (hs : s0.Keeps s) : s0.Keeps (State.refclkFail s) := by
  unfold State.refclkFail
  try dsimp only
  repeat' (first
    | with_reducible assumption
    | with_reducible refine State.Keeps.ite ?_ ?_
    | with_reducible apply State.set_keeps
    | with_reducible apply State.setFlag_keeps
    | with_reducible apply State.raiseHead_keeps
    | (simp only [State.Keeps.mk_of]; with_reducible refine State.Keeps.core ?_)
    | intro _)

theorem State.loseRefclk_keeps  (hs : s0.Keeps s) : s0.Keeps (State.loseRefclk s) := by
  unfold State.loseRefclk
  try dsimp only
  repeat' (first
    | with_reducible assumption
    | with_reducible refine State.Keeps.ite ?_ ?_
    | with_reducible apply State.set_keeps
    | with_reducible apply State.setFlag_keeps
    | with_reducible apply State.stopImage_keeps
    | with_reducible apply State.setImageState_keeps
    | with_reducible apply State.setReady_keeps
    | (simp only [State.Keeps.mk_of]; with_reducible refine State.Keeps.core ?_)
    | intro _
    | split)

theorem execClockSourceLost_keeps {tt : State} (dt d : Nat) (ex : execClockSourceLost dt d s = .next tt) : s.Keeps tt := by
  have hs := State.Keeps.refl s
  unfold execClockSourceLost at ex
  try dsimp only at ex
  refine State.Keeps.of_next ex ?_
  clear ex
  repeat' (first
    | with_reducible assumption
    | with_reducible refine State.Keeps.ite ?_ ?_
    | with_reducible apply State.setFlag_keeps
    | with_reducible apply State.raiseHead_keeps
    | with_reducible apply State.pass_keeps
    | with_reducible apply State.next_keeps
    | with_reducible apply State.setReady_keeps
    | with_reducible apply State.refclkFail_keeps
    | with_reducible apply State.loseRefclk_keeps
    | (simp only [State.Keeps.mk_of]; with_reducible refine State.Keeps.core ?_)
    | intro _
    | dsimp only)

theorem execOscDelayExpiry_keeps {tt : State} (dt : Nat) (ex : execOscDelayExpiry dt s = .next tt) : s.Keeps tt := by
  have hs := State.Keeps.refl s
  unfold execOscDelayExpiry at ex
  try dsimp only at ex
  refine State.Keeps.of_next ex ?_
  clear ex
  repeat' (first
    | with_reducible assumption
    | with_reducible refine State.Keeps.ite ?_ ?_
    | with_reducible apply State.pass_keeps
    | with_reducible apply State.next_keeps
    | (simp only [State.Keeps.mk_of]; with_reducible refine State.Keeps.core ?_)
    | intro _
    | split)

theorem execRefclkMeasurement_keeps {tt : State} (dt khz : Nat) (ex : execRefclkMeasurement dt khz s = .next tt) : s.Keeps tt := by
  have hs := State.Keeps.refl s
  unfold execRefclkMeasurement at ex
  try dsimp only at ex
  refine State.Keeps.of_next ex ?_
  clear ex
  repeat' (first
    | with_reducible assumption
    | with_reducible refine State.Keeps.ite ?_ ?_
    | with_reducible apply State.set_keeps
    | with_reducible apply State.setFlag_keeps
    | with_reducible apply State.pass_keeps
    | with_reducible apply State.next_keeps
    | (simp only [State.Keeps.mk_of]; with_reducible refine State.Keeps.core ?_)
    | intro _)

theorem execRefclkFail_keeps {tt : State} (dt : Nat) (ex : execRefclkFail dt s = .next tt) : s.Keeps tt := by
  have hs := State.Keeps.refl s
  unfold execRefclkFail at ex
  try dsimp only at ex
  refine State.Keeps.of_next ex ?_
  clear ex
  repeat' (first
    | with_reducible assumption
    | with_reducible refine State.Keeps.ite ?_ ?_
    | with_reducible apply State.pass_keeps
    | with_reducible apply State.next_keeps
    | with_reducible apply State.refclkFail_keeps
    | (simp only [State.Keeps.mk_of]; with_reducible refine State.Keeps.core ?_)
    | intro _
    | split)

/-! ### Machine/Startup.lean -/

theorem State.syncKeys_keeps  (hs : s0.Keeps s) : s0.Keeps (State.syncKeys s) := by
  unfold State.syncKeys
  try dsimp only
  repeat' (first
    | with_reducible assumption
    | with_reducible refine State.Keeps.ite ?_ ?_
    | with_reducible apply State.set_keeps
    | with_reducible apply State.setFlag_keeps
    | (simp only [State.Keeps.mk_of]; with_reducible refine State.Keeps.core ?_)
    | intro _)

theorem State.useSpare_keeps (n q : Nat) (incoming : Bool) (hs : s0.Keeps s) : s0.Keeps (State.useSpare s n q incoming) := by
  unfold State.useSpare
  try dsimp only
  repeat' (first
    | with_reducible assumption
    | with_reducible refine State.Keeps.ite ?_ ?_
    | with_reducible apply State.set_keeps
    | with_reducible apply State.inc_keeps
    | (simp only [State.Keeps.mk_of]; with_reducible refine State.Keeps.core ?_)
    | intro _
    | split)

theorem State.applyDefect_keeps (w : Nat) (hs : s0.Keeps s) : s0.Keeps (State.applyDefect s w) := by
  unfold State.applyDefect
  try dsimp only
  repeat' (first
    | with_reducible assumption
    | with_reducible refine State.Keeps.ite ?_ ?_
    | with_reducible refine State.Keeps.ite_snd ?_ ?_
    | with_reducible apply State.set_keeps
    | with_reducible apply State.setFlag_keeps
    | with_reducible apply State.markFailed_keeps
    | with_reducible apply State.place_keeps
    | with_reducible apply State.useSpare_keeps
    | (simp only [State.Keeps.mk_of]; with_reducible refine State.Keeps.core ?_)
    | with_reducible refine State.Keeps.foldl _ ?_ ?_
    | with_reducible refine State.Keeps.foldl_snd _ ?_ ?_
    | with_reducible refine State.Keeps.getD ?_ ?_
    | intro _
    | dsimp only
    | split)

theorem State.goodHitches_keeps  (hs : s0.Keeps s) : s0.Keeps (State.goodHitches s) := by
  unfold State.goodHitches
  try dsimp only
  repeat' (first
    | with_reducible assumption
    | with_reducible refine State.Keeps.ite ?_ ?_
    | with_reducible refine State.Keeps.ite_snd ?_ ?_
    | with_reducible apply State.set_keeps
    | (simp only [State.Keeps.mk_of]; with_reducible refine State.Keeps.core ?_)
    | with_reducible refine State.Keeps.foldl _ ?_ ?_
    | with_reducible refine State.Keeps.foldl_snd _ ?_ ?_
    | intro _
    | dsimp only)

theorem State.applyDefects_keeps  (hs : s0.Keeps s) : s0.Keeps (State.applyDefects s) := by
  unfold State.applyDefects
  try dsimp only
  repeat' (first
    | with_reducible assumption
    | with_reducible refine State.Keeps.ite ?_ ?_
    | with_reducible apply State.set_keeps
    | with_reducible apply State.applyDefect_keeps
    | with_reducible apply State.goodHitches_keeps
    | (simp only [State.Keeps.mk_of]; with_reducible refine State.Keeps.core ?_)
    | with_reducible refine State.Keeps.foldl _ ?_ ?_
    | with_reducible refine State.Keeps.foldl_snd _ ?_ ?_
    | intro _
    | dsimp only)

theorem State.beginStep_keeps (n : Nat) (hs : s0.Keeps s) : s0.Keeps (State.beginStep s n) := by
  unfold State.beginStep
  try dsimp only
  repeat' (first
    | with_reducible assumption
    | with_reducible refine State.Keeps.ite ?_ ?_
    | with_reducible apply State.set_keeps
    | with_reducible apply State.sendRail_keeps
    | (simp only [State.Keeps.mk_of]; with_reducible refine State.Keeps.core ?_)
    | with_reducible refine State.Keeps.foldl _ ?_ ?_
    | with_reducible refine State.Keeps.foldl_snd _ ?_ ?_
    | intro _
    | dsimp only
    | split)

theorem State.trainTower_keeps (t : Nat) (found : List Nat) (hs : s0.Keeps s) : s0.Keeps (State.trainTower s t found) := by
  unfold State.trainTower
  try dsimp only
  repeat' (first
    | with_reducible assumption
    | with_reducible refine State.Keeps.ite ?_ ?_
    | with_reducible apply State.set_keeps
    | with_reducible apply State.setFlag_keeps
    | with_reducible apply State.addDefect_keeps
    | (simp only [State.Keeps.mk_of]; with_reducible refine State.Keeps.core ?_)
    | intro _
    | split)

theorem State.testRoof_keeps (c : Nat) (hs : s0.Keeps s) : s0.Keeps (State.testRoof s c) := by
  unfold State.testRoof
  try dsimp only
  repeat' (first
    | with_reducible assumption
    | with_reducible refine State.Keeps.ite ?_ ?_
    | with_reducible refine State.Keeps.ite_snd ?_ ?_
    | with_reducible apply State.loseRoof_keeps
    | (simp only [State.Keeps.mk_of]; with_reducible refine State.Keeps.core ?_)
    | with_reducible refine State.Keeps.foldl _ ?_ ?_
    | with_reducible refine State.Keeps.foldl_snd _ ?_ ?_
    | intro _
    | dsimp only)

theorem State.testWire_keeps (w : Nat × Nat × Nat) (hs : s0.Keeps s) : s0.Keeps (State.testWire s w) := by
  unfold State.testWire
  try dsimp only
  repeat' (first
    | with_reducible assumption
    | with_reducible refine State.Keeps.ite ?_ ?_
    | with_reducible refine State.Keeps.ite_snd ?_ ?_
    | with_reducible apply State.addDefect_keeps
    | with_reducible apply State.failPort_keeps
    | with_reducible apply State.useSpare_keeps
    | (simp only [State.Keeps.mk_of]; with_reducible refine State.Keeps.core ?_)
    | intro _
    | dsimp only)

theorem State.selfTest_keeps (e : StartEnv) (hs : s0.Keeps s) : s0.Keeps (State.selfTest s e) := by
  unfold State.selfTest
  try dsimp only
  repeat' (first
    | with_reducible assumption
    | with_reducible refine State.Keeps.ite ?_ ?_
    | with_reducible apply State.set_keeps
    | with_reducible apply State.inc_keeps
    | with_reducible apply State.addDefect_keeps
    | with_reducible apply State.loseQuadrants_keeps
    | with_reducible apply State.isolate_keeps
    | with_reducible apply State.testRoof_keeps
    | with_reducible apply State.testWire_keeps
    | (simp only [State.Keeps.mk_of]; with_reducible refine State.Keeps.core ?_)
    | with_reducible refine State.Keeps.foldl _ ?_ ?_
    | with_reducible refine State.Keeps.foldl_snd _ ?_ ?_
    | intro _)

theorem State.bayOn_keeps (b : Nat) (hs : s0.Keeps s) : s0.Keeps (State.bayOn s b) := by
  unfold State.bayOn
  try dsimp only
  repeat' (first
    | with_reducible assumption
    | with_reducible refine State.Keeps.ite ?_ ?_
    | with_reducible apply State.set_keeps
    | with_reducible apply State.setTiles_keeps
    | (simp only [State.Keeps.mk_of]; with_reducible refine State.Keeps.core ?_)
    | intro _)

theorem State.finishStep_keeps (n : Nat) (e : StartEnv) (hs : s0.Keeps s) : s0.Keeps (State.finishStep s n e) := by
  unfold State.finishStep
  try dsimp only
  repeat' (first
    | with_reducible assumption
    | with_reducible refine State.Keeps.ite ?_ ?_
    | with_reducible refine State.Keeps.ite_snd ?_ ?_
    | with_reducible apply State.set_keeps
    | with_reducible apply State.setFlag_keeps
    | with_reducible apply State.alarm_keeps
    | with_reducible apply State.syncKeys_keeps
    | with_reducible apply State.applyDefects_keeps
    | with_reducible apply State.beginStep_keeps
    | with_reducible apply State.trainTower_keeps
    | with_reducible apply State.selfTest_keeps
    | with_reducible apply State.bayOn_keeps
    | (simp only [State.Keeps.mk_of]; with_reducible refine State.Keeps.core ?_)
    | with_reducible refine State.Keeps.foldl _ ?_ ?_
    | with_reducible refine State.Keeps.foldl_snd _ ?_ ?_
    | intro _
    | dsimp only
    | split)

theorem execStartupStepComplete_keeps {tt : State} (dt : Nat) (e : StartEnv) (ex : execStartupStepComplete dt e s = .next tt) : s.Keeps tt := by
  have hs := State.Keeps.refl s
  unfold execStartupStepComplete at ex
  try dsimp only at ex
  refine State.Keeps.of_next ex ?_
  clear ex
  repeat' (first
    | with_reducible assumption
    | with_reducible refine State.Keeps.ite ?_ ?_
    | with_reducible apply State.pass_keeps
    | with_reducible apply State.next_keeps
    | with_reducible apply State.finishStep_keeps
    | (simp only [State.Keeps.mk_of]; with_reducible refine State.Keeps.core ?_)
    | intro _
    | split)

theorem execStartupStepTimeout_keeps {tt : State} (dt : Nat) (e : StartEnv) (ex : execStartupStepTimeout dt e s = .next tt) : s.Keeps tt := by
  have hs := State.Keeps.refl s
  unfold execStartupStepTimeout at ex
  try dsimp only at ex
  refine State.Keeps.of_next ex ?_
  clear ex
  repeat' (first
    | with_reducible assumption
    | with_reducible refine State.Keeps.ite ?_ ?_
    | with_reducible apply State.set_keeps
    | with_reducible apply State.pass_keeps
    | with_reducible apply State.next_keeps
    | with_reducible apply State.finishStep_keeps
    | (simp only [State.Keeps.mk_of]; with_reducible refine State.Keeps.core ?_)
    | with_reducible refine State.Keeps.foldl _ ?_ ?_
    | with_reducible refine State.Keeps.foldl_snd _ ?_ ?_
    | intro _
    | split)


/-- Fresh registers, queues and channels, with memory filtered and what the strongbox keeps. -/
theorem State.Keeps.core_reset {x : State} (f : Host.Cell → Bool) (h : s0.Keeps x) :
    s0.KeepsCore x.ticks State.reset.regs (x.mem.filter f) x.free State.reset.ev.stream x.sbx.keep.log State.reset.port.chans x.pending := by
  intro t h1 h2 h3 h4 h5 h6 h7 h8
  refine ⟨fun h0 => ⟨?_, ?_, ?_, ?_, ?_⟩, h8.trans h.queue, h1 ▸ h.time, h4 ▸ h.free⟩
  · rw [h3]; exact Memory.wf_filter f (h.sound h0).mem
  · rw [h2]; rfl
  · rw [h5]; exact Nat.zero_le _
  · rw [h6]; exact (h.sound h0).log
  · rw [h7]; rfl

theorem State.keepSbx_keeps {old : State} (hs : s0.Keeps s) : s0.Keeps (s.keepSbx old) :=
  State.set_keeps _ _ (State.set_keeps _ _ (State.set_keeps _ _ hs))

theorem State.powerOnReset_keeps (hs : s0.Keeps s) : s0.Keeps s.powerOnReset := by
  unfold State.powerOnReset
  refine State.keepSbx_keeps ?_
  simp only [State.Keeps.mk_of]
  exact State.Keeps.core_reset _ hs

theorem State.startUp_keeps (strap : Nat) (hs : s0.Keeps s) : s0.Keeps (State.startUp s strap) := by
  unfold State.startUp
  try dsimp only
  repeat' (first
    | with_reducible assumption
    | with_reducible refine State.Keeps.ite ?_ ?_
    | with_reducible apply State.set_keeps
    | with_reducible apply State.beginStep_keeps
    | (simp only [State.Keeps.mk_of]; with_reducible refine State.Keeps.core ?_)
    | intro _
    | dsimp only)

theorem execPwrgoodRise_keeps {tt : State} (dt strap : Nat) (ex : execPwrgoodRise dt strap s = .next tt) : s.Keeps tt := by
  have hs := State.Keeps.refl s
  unfold execPwrgoodRise at ex
  try dsimp only at ex
  refine State.Keeps.of_next ex ?_
  clear ex
  repeat' (first
    | with_reducible assumption
    | with_reducible refine State.Keeps.ite ?_ ?_
    | with_reducible apply State.set_keeps
    | with_reducible apply State.pass_keeps
    | with_reducible apply State.next_keeps
    | with_reducible apply State.startUp_keeps
    | (simp only [State.Keeps.mk_of]; with_reducible refine State.Keeps.core ?_)
    | intro _)

theorem execPwrgoodLost_keeps {tt : State} (dt : Nat) (ex : execPwrgoodLost dt s = .next tt) : s.Keeps tt := by
  have hs := State.Keeps.refl s
  unfold execPwrgoodLost at ex
  try dsimp only at ex
  refine State.Keeps.of_next ex ?_
  clear ex
  repeat' (first
    | with_reducible assumption
    | with_reducible refine State.Keeps.ite ?_ ?_
    | with_reducible apply State.set_keeps
    | with_reducible apply State.raiseHead_keeps
    | with_reducible apply State.openCoach_keeps
    | with_reducible apply State.sendRail_keeps
    | with_reducible apply State.pass_keeps
    | with_reducible apply State.next_keeps
    | (simp only [State.Keeps.mk_of]; with_reducible refine State.Keeps.core ?_)
    | with_reducible refine State.Keeps.foldl _ ?_ ?_
    | with_reducible refine State.Keeps.foldl_snd _ ?_ ?_
    | intro _
    | dsimp only)

theorem execPowerOnResetEntry_keeps {tt : State} (dt : Nat) (ex : execPowerOnResetEntry dt s = .next tt) : s.Keeps tt := by
  have hs := State.Keeps.refl s
  unfold execPowerOnResetEntry at ex
  try dsimp only at ex
  refine State.Keeps.of_next ex ?_
  clear ex
  repeat' (first
    | with_reducible assumption
    | with_reducible refine State.Keeps.ite ?_ ?_
    | with_reducible apply State.pass_keeps
    | with_reducible apply State.next_keeps
    | with_reducible apply State.powerOnReset_keeps
    | with_reducible apply State.startUp_keeps
    | (simp only [State.Keeps.mk_of]; with_reducible refine State.Keeps.core ?_)
    | intro _
    | split)

theorem State.warmBase_keeps (hs : s0.Keeps s) : s0.Keeps s.warmBase := by
  unfold State.warmBase
  simp only [State.Keeps.mk_of]
  exact State.Keeps.core_reset _ hs

theorem State.warmStart_keeps (kind : Nat) (hs : s0.Keeps s) : s0.Keeps (State.warmStart s kind) := by
  unfold State.warmStart
  try dsimp only
  repeat' (first
    | with_reducible assumption
    | with_reducible refine State.Keeps.ite ?_ ?_
    | with_reducible apply State.set_keeps
    | with_reducible apply State.setFlag_keeps
    | with_reducible apply State.beginStep_keeps
    | with_reducible apply State.keepSbx_keeps
    | with_reducible apply State.warmBase_keeps
    | (simp only [State.Keeps.mk_of]; with_reducible refine State.Keeps.core ?_)
    | with_reducible refine State.Keeps.foldl _ ?_ ?_
    | with_reducible refine State.Keeps.foldl_snd _ ?_ ?_
    | intro _)

theorem State.warmReset_keeps (kind : Nat) (hs : s0.Keeps s) : s0.Keeps (State.warmReset s kind) := by
  unfold State.warmReset
  try dsimp only
  repeat' (first
    | with_reducible assumption
    | with_reducible refine State.Keeps.ite ?_ ?_
    | with_reducible apply State.stopImage_keeps
    | with_reducible apply State.place_keeps
    | with_reducible apply State.warmStart_keeps
    | (simp only [State.Keeps.mk_of]; with_reducible refine State.Keeps.core ?_)
    | intro _)

theorem execResetN_keeps {tt : State} (dt : Nat) (ex : execResetN dt s = .next tt) : s.Keeps tt := by
  have hs := State.Keeps.refl s
  unfold execResetN at ex
  try dsimp only at ex
  refine State.Keeps.of_next ex ?_
  clear ex
  repeat' (first
    | with_reducible assumption
    | with_reducible refine State.Keeps.ite ?_ ?_
    | with_reducible apply State.pass_keeps
    | with_reducible apply State.next_keeps
    | with_reducible apply State.warmReset_keeps
    | (simp only [State.Keeps.mk_of]; with_reducible refine State.Keeps.core ?_)
    | intro _
    | split)

theorem State.coachResetRequest_keeps (c : Nat) (hs : s0.Keeps s) : s0.Keeps (State.coachResetRequest s c) := by
  unfold State.coachResetRequest
  try dsimp only
  repeat' (first
    | with_reducible assumption
    | with_reducible refine State.Keeps.ite ?_ ?_
    | with_reducible apply State.set_keeps
    | with_reducible apply State.setFlag_keeps
    | (simp only [State.Keeps.mk_of]; with_reducible refine State.Keeps.core ?_)
    | intro _)

theorem State.resetCoach_keeps (c : Nat) (hs : s0.Keeps s) : s0.Keeps (State.resetCoach s c) := by
  unfold State.resetCoach
  try dsimp only
  repeat' (first
    | with_reducible assumption
    | with_reducible refine State.Keeps.ite ?_ ?_
    | with_reducible apply State.resetRegs_keeps
    | with_reducible apply State.set_keeps
    | with_reducible apply State.loseQuadrants_keeps
    | (simp only [State.Keeps.mk_of]; with_reducible refine State.Keeps.core ?_)
    | with_reducible refine State.Keeps.foldl _ ?_ ?_
    | with_reducible refine State.Keeps.foldl_snd _ ?_ ?_
    | intro _)

theorem execCoachResetDone_keeps {tt : State} (dt c : Nat) (ex : execCoachResetDone dt c s = .next tt) : s.Keeps tt := by
  have hs := State.Keeps.refl s
  unfold execCoachResetDone at ex
  try dsimp only at ex
  refine State.Keeps.of_next ex ?_
  clear ex
  repeat' (first
    | with_reducible assumption
    | with_reducible refine State.Keeps.ite ?_ ?_
    | with_reducible apply State.set_keeps
    | with_reducible apply State.setFlag_keeps
    | with_reducible apply State.pass_keeps
    | with_reducible apply State.next_keeps
    | with_reducible apply State.resetCoach_keeps
    | (simp only [State.Keeps.mk_of]; with_reducible refine State.Keeps.core ?_)
    | intro _
    | split)

end Sys2Proof.Machine
end

