-- ==== Sys2Proof/Laws/KeepsPort.lean ====
section
/-! SUPPORT. What the operations and meanings of Access, Settings, Port, Commands, Secure keep (Laws/Keeps.lean). -/

set_option Elab.async false

namespace Sys2Proof.Machine

set_option linter.unusedTactic false
set_option linter.unreachableTactic false
set_option linter.unusedSimpArgs false

variable {s0 s : State}

/-! ### Machine/Access.lean -/

theorem State.clearRc_keeps (r : RegRow) (key : Nat) (hs : s0.Keeps s) : s0.Keeps (State.clearRc s r key) := by
  unfold State.clearRc
  try dsimp only
  repeat' (first
    | with_reducible assumption
    | with_reducible refine State.Keeps.ite ?_ ?_
    | with_reducible apply State.set_keeps
    | (simp only [State.Keeps.mk_of]; with_reducible refine State.Keeps.core ?_)
    | with_reducible refine State.Keeps.foldl _ ?_ ?_
    | with_reducible refine State.Keeps.foldl_snd _ ?_ ?_
    | intro _
    | dsimp only
    | refine State.Keeps.of_snd (by assumption) ?_)

theorem State.readReg_keeps (r : RegRow) (a i n : Nat) (hs : s0.Keeps s) : s0.Keeps (State.readReg s r a i n).2 := by
  unfold State.readReg
  try dsimp only
  repeat' (first
    | with_reducible assumption
    | with_reducible refine State.Keeps.ite ?_ ?_
    | with_reducible refine State.Keeps.ite_snd ?_ ?_
    | with_reducible apply State.clearRc_keeps
    | (simp only [State.Keeps.mk_of]; with_reducible refine State.Keeps.core ?_)
    | intro _
    | dsimp only
    | split
    | refine State.Keeps.of_snd (by assumption) ?_)

theorem State.mgmtRead_keeps (a : Nat) (hs : s0.Keeps s) : s0.Keeps (State.mgmtRead s a).2.2 := by
  unfold State.mgmtRead
  try dsimp only
  repeat' (first
    | with_reducible assumption
    | with_reducible refine State.Keeps.ite ?_ ?_
    | with_reducible refine State.Keeps.ite_snd ?_ ?_
    | with_reducible apply State.readSpad_keeps
    | with_reducible apply State.readReg_keeps
    | (simp only [State.Keeps.mk_of]; with_reducible refine State.Keeps.core ?_)
    | intro _
    | dsimp only
    | split
    | refine State.Keeps.of_snd (by assumption) ?_)

theorem State.readWeights_keeps (n off : Nat) (hs : s0.Keeps s) : s0.Keeps (State.readWeights s n off).2 := by
  unfold State.readWeights
  try dsimp only
  repeat' (first
    | with_reducible assumption
    | with_reducible refine State.Keeps.ite ?_ ?_
    | with_reducible refine State.Keeps.ite_snd ?_ ?_
    | with_reducible apply State.set_keeps
    | with_reducible apply State.cycles_keeps
    | with_reducible apply State.readWord_keeps
    | (simp only [State.Keeps.mk_of]; with_reducible refine State.Keeps.core ?_)
    | intro _
    | dsimp only
    | refine State.Keeps.of_snd (by assumption) ?_)

theorem State.writeWeights_keeps (n off : Nat) (bs : List Byte) (hs : s0.Keeps s) : s0.Keeps (State.writeWeights s n off bs) := by
  unfold State.writeWeights
  try dsimp only
  repeat' (first
    | with_reducible assumption
    | with_reducible refine State.Keeps.ite ?_ ?_
    | with_reducible apply State.queueRoof_keeps
    | (simp only [State.Keeps.mk_of]; with_reducible refine State.Keeps.core ?_)
    | intro _)

theorem State.writeReg_keeps (r : RegRow) (key v : Nat) (hs : s0.Keeps s) : s0.Keeps (State.writeReg s r key v) := by
  unfold State.writeReg
  try dsimp only
  repeat' (first
    | with_reducible assumption
    | with_reducible refine State.Keeps.ite ?_ ?_
    | with_reducible apply State.set_keeps
    | (simp only [State.Keeps.mk_of]; with_reducible refine State.Keeps.core ?_)
    | with_reducible refine State.Keeps.foldl _ ?_ ?_
    | with_reducible refine State.Keeps.foldl_snd _ ?_ ?_
    | intro _
    | dsimp only
    | split
    | refine State.Keeps.of_snd (by assumption) ?_)

/-! ### Machine/Settings.lean -/

theorem State.Keeps.ite_s {a b : Wrote} {c : Prop} [Decidable c] (ha : s0.Keeps a.s) (hb : s0.Keeps b.s) :
    s0.Keeps (if c then a else b).s := by
  split <;> assumption

theorem wrote_keeps (hs : s0.Keeps s) : s0.Keeps (wrote s).s := hs

theorem refused_keeps (st : Nat) (hs : s0.Keeps s) : s0.Keeps (refused st s).s := hs

theorem shadowed_keeps (hs : s0.Keeps s) : s0.Keeps (shadowed s).s := hs

theorem State.writeRecipe_keeps (l key v : Nat) (hs : s0.Keeps s) : s0.Keeps (State.writeRecipe s l key v).s := by
  unfold State.writeRecipe
  try dsimp only
  repeat' (first
    | with_reducible assumption
    | with_reducible refine State.Keeps.ite ?_ ?_
    | with_reducible refine State.Keeps.ite_s ?_ ?_
    | with_reducible apply State.set_keeps
    | with_reducible apply State.inc_keeps
    | with_reducible apply State.putShadow_keeps
    | with_reducible apply State.writeReg_keeps
    | with_reducible apply wrote_keeps
    | with_reducible apply refused_keeps
    | with_reducible apply shadowed_keeps
    | (simp only [State.Keeps.mk_of]; with_reducible refine State.Keeps.core ?_)
    | split
    | dsimp only
    | intro _)

theorem State.writeWide_keeps (v : Nat) (hs : s0.Keeps s) : s0.Keeps (State.writeWide s v).s := by
  unfold State.writeWide
  try dsimp only
  repeat' (first
    | with_reducible assumption
    | with_reducible refine State.Keeps.ite ?_ ?_
    | with_reducible refine State.Keeps.ite_s ?_ ?_
    | with_reducible apply State.setFlag_keeps
    | with_reducible apply State.putShadow_keeps
    | with_reducible apply wrote_keeps
    | with_reducible apply shadowed_keeps
    | (simp only [State.Keeps.mk_of]; with_reducible refine State.Keeps.core ?_)
    | split
    | dsimp only
    | intro _)

theorem State.writeProfile_keeps (p key v : Nat) (hs : s0.Keeps s) : s0.Keeps (State.writeProfile s p key v).s := by
  unfold State.writeProfile
  try dsimp only
  repeat' (first
    | with_reducible assumption
    | with_reducible refine State.Keeps.ite ?_ ?_
    | with_reducible refine State.Keeps.ite_s ?_ ?_
    | with_reducible apply State.inc_keeps
    | with_reducible apply State.putShadow_keeps
    | with_reducible apply State.writeReg_keeps
    | with_reducible apply wrote_keeps
    | with_reducible apply shadowed_keeps
    | (simp only [State.Keeps.mk_of]; with_reducible refine State.Keeps.core ?_)
    | split
    | dsimp only
    | intro _)

theorem State.writeAdapter_keeps (a v : Nat) (hs : s0.Keeps s) : s0.Keeps (State.writeAdapter s a v).s := by
  unfold State.writeAdapter
  try dsimp only
  repeat' (first
    | with_reducible assumption
    | with_reducible refine State.Keeps.ite ?_ ?_
    | with_reducible refine State.Keeps.ite_s ?_ ?_
    | with_reducible apply State.set_keeps
    | with_reducible apply State.inc_keeps
    | with_reducible apply State.putShadow_keeps
    | with_reducible apply wrote_keeps
    | with_reducible apply shadowed_keeps
    | (simp only [State.Keeps.mk_of]; with_reducible refine State.Keeps.core ?_)
    | split
    | dsimp only
    | intro _)

theorem State.writeModel_keeps (v : Nat) (hs : s0.Keeps s) : s0.Keeps (State.writeModel s v).s := by
  unfold State.writeModel
  try dsimp only
  repeat' (first
    | with_reducible assumption
    | with_reducible refine State.Keeps.ite ?_ ?_
    | with_reducible refine State.Keeps.ite_s ?_ ?_
    | with_reducible apply State.set_keeps
    | with_reducible apply State.inc_keeps
    | with_reducible apply State.putShadow_keeps
    | with_reducible apply wrote_keeps
    | with_reducible apply shadowed_keeps
    | (simp only [State.Keeps.mk_of]; with_reducible refine State.Keeps.core ?_)
    | split
    | dsimp only
    | intro _)

theorem State.writeCoachOn_keeps (v : Nat) (hs : s0.Keeps s) : s0.Keeps (State.writeCoachOn s v).s := by
  unfold State.writeCoachOn
  try dsimp only
  repeat' (first
    | with_reducible assumption
    | with_reducible refine State.Keeps.ite ?_ ?_
    | with_reducible refine State.Keeps.ite_s ?_ ?_
    | with_reducible apply State.set_keeps
    | with_reducible apply State.inc_keeps
    | with_reducible apply State.putShadow_keeps
    | with_reducible apply wrote_keeps
    | with_reducible apply refused_keeps
    | with_reducible apply shadowed_keeps
    | (simp only [State.Keeps.mk_of]; with_reducible refine State.Keeps.core ?_)
    | with_reducible refine State.Keeps.foldl _ ?_ ?_
    | with_reducible refine State.Keeps.foldl_snd _ ?_ ?_
    | split
    | dsimp only
    | intro _)

theorem State.writeStepCap_keeps (v : Nat) (hs : s0.Keeps s) : s0.Keeps (State.writeStepCap s v).s := by
  unfold State.writeStepCap
  try dsimp only
  repeat' (first
    | with_reducible assumption
    | with_reducible refine State.Keeps.ite ?_ ?_
    | with_reducible refine State.Keeps.ite_s ?_ ?_
    | with_reducible apply State.set_keeps
    | with_reducible apply State.putShadow_keeps
    | with_reducible apply shadowed_keeps
    | (simp only [State.Keeps.mk_of]; with_reducible refine State.Keeps.core ?_)
    | split
    | dsimp only
    | intro _)

theorem State.atbWrite_keeps (n bus unit node : Nat) (hs : s0.Keeps s) : s0.Keeps (State.atbWrite s n bus unit node) := by
  unfold State.atbWrite
  try dsimp only
  repeat' (first
    | with_reducible assumption
    | with_reducible refine State.Keeps.ite ?_ ?_
    | with_reducible apply State.set_keeps
    | with_reducible apply State.setFlag_keeps
    | with_reducible apply State.openPin_keeps
    | with_reducible apply refused_keeps
    | (simp only [State.Keeps.mk_of]; with_reducible refine State.Keeps.core ?_)
    | intro _
    | dsimp only)

theorem State.writeAtb_keeps (n v : Nat) (hs : s0.Keeps s) : s0.Keeps (State.writeAtb s n v) := by
  unfold State.writeAtb
  try dsimp only
  repeat' (first
    | with_reducible assumption
    | with_reducible refine State.Keeps.ite ?_ ?_
    | with_reducible apply State.setFlag_keeps
    | with_reducible apply refused_keeps
    | with_reducible apply State.atbWrite_keeps
    | (simp only [State.Keeps.mk_of]; with_reducible refine State.Keeps.core ?_)
    | intro _)

theorem State.endSession_keeps  (hs : s0.Keeps s) : s0.Keeps (State.endSession s) := by
  unfold State.endSession
  try dsimp only
  repeat' (first
    | with_reducible assumption
    | with_reducible refine State.Keeps.ite ?_ ?_
    | with_reducible apply State.set_keeps
    | (simp only [State.Keeps.mk_of]; with_reducible refine State.Keeps.core ?_)
    | intro _
    | dsimp only)

theorem State.setDebug_keeps (d r : Bool) (hs : s0.Keeps s) : s0.Keeps (State.setDebug s d r) := by
  unfold State.setDebug
  try dsimp only
  repeat' (first
    | with_reducible assumption
    | with_reducible refine State.Keeps.ite ?_ ?_
    | with_reducible apply State.setFlag_keeps
    | (simp only [State.Keeps.mk_of]; with_reducible refine State.Keeps.core ?_)
    | with_reducible refine State.Keeps.foldl _ ?_ ?_
    | with_reducible refine State.Keeps.foldl_snd _ ?_ ?_
    | intro _)

theorem State.dropDebugImage_keeps  (hs : s0.Keeps s) : s0.Keeps (State.dropDebugImage s) := by
  unfold State.dropDebugImage
  try dsimp only
  repeat' (first
    | with_reducible assumption
    | with_reducible refine State.Keeps.ite ?_ ?_
    | with_reducible apply State.unloadImage_keeps
    | (simp only [State.Keeps.mk_of]; with_reducible refine State.Keeps.core ?_)
    | intro _)

theorem State.writePolicy_keeps (role v : Nat) (hs : s0.Keeps s) : s0.Keeps (State.writePolicy s role v).s := by
  unfold State.writePolicy
  try dsimp only
  repeat' (first
    | with_reducible assumption
    | with_reducible refine State.Keeps.ite ?_ ?_
    | with_reducible refine State.Keeps.ite_s ?_ ?_
    | with_reducible apply State.setFlag_keeps
    | with_reducible apply wrote_keeps
    | with_reducible apply refused_keeps
    | with_reducible apply State.setDebug_keeps
    | with_reducible apply State.dropDebugImage_keeps
    | (simp only [State.Keeps.mk_of]; with_reducible refine State.Keeps.core ?_)
    | split
    | dsimp only
    | intro _)

theorem State.enrolKey_keeps (slot : Nat) (hs : s0.Keeps s) : s0.Keeps (State.enrolKey s slot) := by
  unfold State.enrolKey
  try dsimp only
  repeat' (first
    | with_reducible assumption
    | with_reducible refine State.Keeps.ite ?_ ?_
    | with_reducible apply State.set_keeps
    | with_reducible apply State.syncKeys_keeps
    | (simp only [State.Keeps.mk_of]; with_reducible refine State.Keeps.core ?_)
    | intro _)

theorem State.removeKey_keeps (slot : Nat) (hs : s0.Keeps s) : s0.Keeps (State.removeKey s slot) := by
  unfold State.removeKey
  try dsimp only
  repeat' (first
    | with_reducible assumption
    | with_reducible refine State.Keeps.ite ?_ ?_
    | with_reducible apply State.set_keeps
    | with_reducible apply State.syncKeys_keeps
    | (simp only [State.Keeps.mk_of]; with_reducible refine State.Keeps.core ?_)
    | intro _)

theorem State.writeKeyCtrl_keeps (role v : Nat) (hs : s0.Keeps s) : s0.Keeps (State.writeKeyCtrl s role v).s := by
  unfold State.writeKeyCtrl
  try dsimp only
  repeat' (first
    | with_reducible assumption
    | with_reducible refine State.Keeps.ite ?_ ?_
    | with_reducible refine State.Keeps.ite_s ?_ ?_
    | with_reducible apply wrote_keeps
    | with_reducible apply refused_keeps
    | with_reducible apply State.enrolKey_keeps
    | with_reducible apply State.removeKey_keeps
    | (simp only [State.Keeps.mk_of]; with_reducible refine State.Keeps.core ?_)
    | split
    | dsimp only
    | intro _
    | split)

theorem State.writeSector_keeps (off : Nat) (bs : List Byte) (hs : s0.Keeps s) : s0.Keeps (State.writeSector s off bs) := by
  unfold State.writeSector
  try dsimp only
  repeat' (first
    | with_reducible assumption
    | with_reducible refine State.Keeps.ite ?_ ?_
    | with_reducible apply State.wrBytes_keeps
    | (simp only [State.Keeps.mk_of]; with_reducible refine State.Keeps.core ?_)
    | intro _)

theorem State.writeHold_keeps (b : Bool) (hs : s0.Keeps s) : s0.Keeps (State.writeHold s b) := by
  unfold State.writeHold
  try dsimp only
  repeat' (first
    | with_reducible assumption
    | with_reducible refine State.Keeps.ite ?_ ?_
    | with_reducible apply State.setFlag_keeps
    | with_reducible apply State.syncPending_keeps
    | (simp only [State.Keeps.mk_of]; with_reducible refine State.Keeps.core ?_)
    | intro _
    | dsimp only)

theorem State.writeHead_keeps (r : RegRow) (a i x v : Nat) (hs : s0.Keeps s) : s0.Keeps (State.writeHead s r a i x v).s := by
  unfold State.writeHead
  try dsimp only
  repeat' (first
    | with_reducible assumption
    | with_reducible refine State.Keeps.ite ?_ ?_
    | with_reducible refine State.Keeps.ite_s ?_ ?_
    | with_reducible apply State.set_keeps
    | with_reducible apply State.setFlag_keeps
    | with_reducible apply State.armWrite_keeps
    | with_reducible apply State.disarmWrite_keeps
    | with_reducible apply State.setServ_keeps
    | with_reducible apply State.flushNodes_keeps
    | with_reducible apply State.clkRequest_keeps
    | with_reducible apply State.coachResetRequest_keeps
    | with_reducible apply State.writeReg_keeps
    | with_reducible apply wrote_keeps
    | with_reducible apply State.writeRecipe_keeps
    | with_reducible apply State.writeWide_keeps
    | with_reducible apply State.writeProfile_keeps
    | with_reducible apply State.writeAdapter_keeps
    | with_reducible apply State.writeModel_keeps
    | with_reducible apply State.writeCoachOn_keeps
    | with_reducible apply State.writeStepCap_keeps
    | with_reducible apply State.writeAtb_keeps
    | with_reducible apply State.writeHold_keeps
    | (simp only [State.Keeps.mk_of]; with_reducible refine State.Keeps.core ?_)
    | split
    | dsimp only
    | intro _)

theorem State.writeTile_keeps (r : RegRow) (a i n v : Nat) (hs : s0.Keeps s) : s0.Keeps (State.writeTile s r a i n v).s := by
  unfold State.writeTile
  try dsimp only
  repeat' (first
    | with_reducible assumption
    | with_reducible refine State.Keeps.ite ?_ ?_
    | with_reducible refine State.Keeps.ite_s ?_ ?_
    | with_reducible apply State.set_keeps
    | with_reducible apply State.iff_keeps
    | with_reducible apply State.clearHazards_keeps
    | with_reducible apply State.cartIssue_keeps
    | with_reducible apply State.writeReg_keeps
    | with_reducible apply wrote_keeps
    | with_reducible apply refused_keeps
    | (simp only [State.Keeps.mk_of]; with_reducible refine State.Keeps.core ?_)
    | split
    | dsimp only
    | intro _)

theorem State.writeBay_keeps (r : RegRow) (a b v : Nat) (hs : s0.Keeps s) : s0.Keeps (State.writeBay s r a b v).s := by
  unfold State.writeBay
  try dsimp only
  repeat' (first
    | with_reducible assumption
    | with_reducible refine State.Keeps.ite ?_ ?_
    | with_reducible refine State.Keeps.ite_s ?_ ?_
    | with_reducible apply State.set_keeps
    | with_reducible apply State.writeReg_keeps
    | with_reducible apply wrote_keeps
    | (simp only [State.Keeps.mk_of]; with_reducible refine State.Keeps.core ?_)
    | split
    | dsimp only
    | intro _)

theorem State.writeRow_keeps (r : RegRow) (role a i n v : Nat) (hs : s0.Keeps s) : s0.Keeps (State.writeRow s r role a i n v).s := by
  unfold State.writeRow
  try dsimp only
  repeat' (first
    | with_reducible assumption
    | with_reducible refine State.Keeps.ite ?_ ?_
    | with_reducible refine State.Keeps.ite_s ?_ ?_
    | with_reducible apply State.writeReg_keeps
    | with_reducible apply wrote_keeps
    | with_reducible apply refused_keeps
    | with_reducible apply State.writePolicy_keeps
    | with_reducible apply State.writeKeyCtrl_keeps
    | with_reducible apply State.writeHead_keeps
    | with_reducible apply State.writeTile_keeps
    | with_reducible apply State.writeBay_keeps
    | (simp only [State.Keeps.mk_of]; with_reducible refine State.Keeps.core ?_)
    | split
    | dsimp only
    | intro _
    | split)

theorem State.mgmtWrite_keeps (role a v : Nat) (hs : s0.Keeps s) : s0.Keeps (State.mgmtWrite s role a v).s := by
  unfold State.mgmtWrite
  try dsimp only
  repeat' (first
    | with_reducible assumption
    | with_reducible refine State.Keeps.ite ?_ ?_
    | with_reducible refine State.Keeps.ite_s ?_ ?_
    | with_reducible apply State.wrNum_keeps
    | with_reducible apply State.queueWrite_keeps
    | with_reducible apply wrote_keeps
    | with_reducible apply refused_keeps
    | with_reducible apply State.writeRow_keeps
    | (simp only [State.Keeps.mk_of]; with_reducible refine State.Keeps.core ?_)
    | split
    | dsimp only
    | intro _
    | split)

/-! ### Machine/Port.lean -/

theorem State.acknowledged_keeps (c n : Nat) (hs : s0.Keeps s) : s0.Keeps (State.acknowledged s c n) := by
  unfold State.acknowledged
  try dsimp only
  repeat' (first
    | with_reducible assumption
    | with_reducible refine State.Keeps.ite ?_ ?_
    | with_reducible apply State.setServ_keeps
    | (simp only [State.Keeps.mk_of]; with_reducible refine State.Keeps.core ?_)
    | (simp only [State.Keeps.mk_of]; with_reducible refine State.Keeps.core_drop _ ?_)
    | intro _
    | split)

theorem State.applyAck_keeps (c ack credit : Nat) (hs : s0.Keeps s) : s0.Keeps (State.applyAck s c ack credit) := by
  unfold State.applyAck
  try dsimp only
  repeat' (first
    | with_reducible assumption
    | with_reducible refine State.Keeps.ite ?_ ?_
    | with_reducible apply State.updChan_keeps
    | with_reducible apply State.acknowledged_keeps
    | (simp only [State.Keeps.mk_of]; with_reducible refine State.Keeps.core ?_)
    | intro _
    | dsimp only
    | refine State.Keeps.of_snd (by assumption) ?_)

theorem State.authFail_keeps  (hs : s0.Keeps s) : s0.Keeps (State.authFail s) := by
  unfold State.authFail
  try dsimp only
  repeat' (first
    | with_reducible assumption
    | with_reducible refine State.Keeps.ite ?_ ?_
    | with_reducible apply State.inc_keeps
    | (simp only [State.Keeps.mk_of]; with_reducible refine State.Keeps.core ?_)
    | intro _)

theorem State.badRecord_keeps  (hs : s0.Keeps s) : s0.Keeps (State.badRecord s) := by
  unfold State.badRecord
  try dsimp only
  repeat' (first
    | with_reducible assumption
    | with_reducible refine State.Keeps.ite ?_ ?_
    | with_reducible apply State.inc_keeps
    | (simp only [State.Keeps.mk_of]; with_reducible refine State.Keeps.core ?_)
    | intro _)

theorem State.cutRecords_keeps (k : Nat) (b : List Byte) (hs : s0.Keeps s) : s0.Keeps (State.cutRecords k s b) := by
  induction k generalizing s b with
  | zero => unfold State.cutRecords; exact .upd hs rfl rfl rfl
  | succ k ih =>
    unfold State.cutRecords
    dsimp only
    split
    · exact .upd hs rfl rfl rfl
    · split
      · exact State.badRecord_keeps (.upd hs rfl rfl rfl)
      · split
        · exact .upd hs rfl rfl rfl
        · exact ih _ (.upd hs rfl rfl rfl)

theorem State.chan2In_keeps (recStart : Bool) (b : List Byte) (hs : s0.Keeps s) : s0.Keeps (State.chan2In s recStart b) := by
  unfold State.chan2In
  try dsimp only
  repeat' (first
    | with_reducible assumption
    | with_reducible refine State.Keeps.ite ?_ ?_
    | with_reducible apply State.badRecord_keeps
    | with_reducible apply State.cutRecords_keeps
    | (simp only [State.Keeps.mk_of]; with_reducible refine State.Keeps.core ?_)
    | intro _
    | dsimp only
    | refine State.Keeps.of_snd (by assumption) ?_)

theorem State.boxRecords_keeps (k : Nat) (b : List Byte) (hs : s0.Keeps s) : s0.Keeps (State.boxRecords s k b).2 := by
  induction k generalizing s b with
  | zero => exact hs
  | succ k ih =>
    unfold State.boxRecords
    exact ih _ (.ite hs (.upd hs rfl rfl rfl))

theorem State.accept_keeps (f : Frame) (hs : s0.Keeps s) : s0.Keeps (State.accept s f) := by
  unfold State.accept
  try dsimp only
  repeat' (first
    | with_reducible assumption
    | with_reducible refine State.Keeps.ite ?_ ?_
    | with_reducible refine State.Keeps.ite_snd ?_ ?_
    | with_reducible apply State.updChan_keeps
    | with_reducible apply State.respond_keeps
    | with_reducible apply State.chan2In_keeps
    | with_reducible apply State.boxRecords_keeps
    | (simp only [State.Keeps.mk_of]; with_reducible refine State.Keeps.core ?_)
    | intro _
    | dsimp only
    | refine State.take_keeps (by assumption) ?_)

theorem State.sealedIn_keeps (f : Frame) (g : Frame → State → State) (hg : ∀ a t, s0.Keeps t → s0.Keeps (g a t)) (hs : s0.Keeps s) : s0.Keeps (State.sealedIn s f g) := by
  unfold State.sealedIn
  try dsimp only
  repeat' (first
    | with_reducible assumption
    | with_reducible apply hg
    | with_reducible refine State.Keeps.ite ?_ ?_
    | with_reducible apply State.transmit_keeps
    | with_reducible apply State.applyAck_keeps
    | with_reducible apply State.authFail_keeps
    | (simp only [State.Keeps.mk_of]; with_reducible refine State.Keeps.core ?_)
    | intro _
    | dsimp only
    | split
    | refine State.Keeps.of_snd (by assumption) ?_)

theorem State.dropShake_keeps  (hs : s0.Keeps s) : s0.Keeps (State.dropShake s) := by
  unfold State.dropShake
  try dsimp only
  repeat' (first
    | with_reducible assumption
    | with_reducible refine State.Keeps.ite ?_ ?_
    | with_reducible apply State.inc_keeps
    | (simp only [State.Keeps.mk_of]; with_reducible refine State.Keeps.core ?_)
    | intro _)

theorem State.sendShake_keeps (m : List Byte) (hs : s0.Keeps s) : s0.Keeps (State.sendShake s m) := by
  unfold State.sendShake
  try dsimp only
  repeat' (first
    | with_reducible assumption
    | with_reducible refine State.Keeps.ite ?_ ?_
    | (simp only [State.Keeps.mk_of]; with_reducible refine State.Keeps.core ?_)
    | intro _)

theorem State.helloIn_keeps (m : List Byte) (hs : s0.Keeps s) : s0.Keeps (State.helloIn s m) := by
  unfold State.helloIn
  try dsimp only
  repeat' (first
    | with_reducible assumption
    | with_reducible refine State.Keeps.ite ?_ ?_
    | with_reducible refine State.Keeps.ite_snd ?_ ?_
    | with_reducible apply State.takeBytes_keeps
    | with_reducible apply State.inc_keeps
    | with_reducible apply State.endSession_keeps
    | with_reducible apply State.dropShake_keeps
    | with_reducible apply State.sendShake_keeps
    | (simp only [State.Keeps.mk_of]; with_reducible refine State.Keeps.core ?_)
    | intro _
    | dsimp only
    | split
    | refine State.Keeps.of_snd (by assumption) ?_
    | refine State.take_keeps (by assumption) ?_)

theorem State.reseal_keeps  (hs : s0.Keeps s) : s0.Keeps (State.reseal s) := by
  unfold State.reseal
  try dsimp only
  repeat' (first
    | with_reducible assumption
    | with_reducible refine State.Keeps.ite ?_ ?_
    | with_reducible apply State.updChan_keeps
    | (simp only [State.Keeps.mk_of]; with_reducible refine State.Keeps.core ?_)
    | with_reducible refine State.Keeps.foldl _ ?_ ?_
    | with_reducible refine State.Keeps.foldl_snd _ ?_ ?_
    | intro _
    | dsimp only
    | refine State.Keeps.of_snd (by assumption) ?_)

theorem State.openSession_keeps (role : Nat) (pk ss t : List Byte) (hs : s0.Keeps s) : s0.Keeps (State.openSession s role pk ss t) := by
  unfold State.openSession
  try dsimp only
  repeat' (first
    | with_reducible assumption
    | with_reducible refine State.Keeps.ite ?_ ?_
    | with_reducible apply State.set_keeps
    | with_reducible apply State.syncKeys_keeps
    | with_reducible apply State.reseal_keeps
    | (simp only [State.Keeps.mk_of]; with_reducible refine State.Keeps.core ?_)
    | (simp only [State.Keeps.mk_of]; with_reducible refine State.Keeps.core_chans _ ?_)
    | intro _
    | dsimp only
    | refine State.Keeps.of_snd (by assumption) ?_)

theorem State.finishIn_keeps (m : List Byte) (hs : s0.Keeps s) : s0.Keeps (State.finishIn s m) := by
  unfold State.finishIn
  try dsimp only
  repeat' (first
    | with_reducible assumption
    | with_reducible refine State.Keeps.ite ?_ ?_
    | with_reducible apply State.transmit_keeps
    | with_reducible apply State.dropShake_keeps
    | with_reducible apply State.sendShake_keeps
    | with_reducible apply State.openSession_keeps
    | (simp only [State.Keeps.mk_of]; with_reducible refine State.Keeps.core ?_)
    | intro _
    | dsimp only
    | split
    | refine State.Keeps.of_snd (by assumption) ?_
    | refine State.take_keeps (by assumption) ?_)

theorem State.shakeIn_keeps (f : Frame) (hs : s0.Keeps s) : s0.Keeps (State.shakeIn s f) := by
  unfold State.shakeIn
  try dsimp only
  repeat' (first
    | with_reducible assumption
    | with_reducible refine State.Keeps.ite ?_ ?_
    | with_reducible apply State.authFail_keeps
    | with_reducible apply State.helloIn_keeps
    | with_reducible apply State.finishIn_keeps
    | (simp only [State.Keeps.mk_of]; with_reducible refine State.Keeps.core ?_)
    | intro _
    | refine State.take_keeps (by assumption) ?_)

theorem State.countCodes_keeps (fixed bad : Nat) (hs : s0.Keeps s) : s0.Keeps (State.countCodes s fixed bad) := by
  unfold State.countCodes
  repeat' (first
    | with_reducible assumption
    | with_reducible apply State.inc_keeps)

theorem execDataFrame_keeps {tt : State} (dt : Nat) (f : FrameIn) (ex : execDataFrame dt f s = .next tt) : s.Keeps tt := by
  have hs := State.Keeps.refl s
  unfold execDataFrame at ex
  try dsimp only at ex
  refine State.Keeps.of_next ex ?_
  clear ex
  repeat' (first
    | with_reducible assumption
    | with_reducible refine State.Keeps.ite ?_ ?_
    | with_reducible apply State.updChan_keeps
    | with_reducible apply State.countCodes_keeps
    | with_reducible apply State.pass_keeps
    | with_reducible apply State.next_keeps
    | with_reducible apply State.accept_keeps
    | with_reducible apply State.sealedIn_keeps
    | with_reducible apply State.shakeIn_keeps
    | (simp only [State.Keeps.mk_of]; with_reducible refine State.Keeps.core ?_)
    | intro _)

theorem execLinkControlFrame_keeps {tt : State} (dt : Nat) (f : FrameIn) (ex : execLinkControlFrame dt f s = .next tt) : s.Keeps tt := by
  have hs := State.Keeps.refl s
  unfold execLinkControlFrame at ex
  try dsimp only at ex
  refine State.Keeps.of_next ex ?_
  clear ex
  repeat' (first
    | with_reducible assumption
    | with_reducible refine State.Keeps.ite ?_ ?_
    | with_reducible apply State.countCodes_keeps
    | with_reducible apply State.pass_keeps
    | with_reducible apply State.next_keeps
    | with_reducible apply State.sealedIn_keeps
    | (simp only [State.Keeps.mk_of]; with_reducible refine State.Keeps.core ?_)
    | intro _
    | split)

theorem execResendTimeout_keeps {tt : State} (dt c : Nat) (ex : execResendTimeout dt c s = .next tt) : s.Keeps tt := by
  have hs := State.Keeps.refl s
  unfold execResendTimeout at ex
  try dsimp only at ex
  refine State.Keeps.of_next ex ?_
  clear ex
  repeat' (first
    | with_reducible assumption
    | with_reducible refine State.Keeps.ite ?_ ?_
    | with_reducible apply State.updChan_keeps
    | with_reducible apply State.pass_keeps
    | with_reducible apply State.next_keeps
    | (simp only [State.Keeps.mk_of]; with_reducible refine State.Keeps.core ?_)
    | intro _)

theorem execControlLinkDown_keeps {tt : State} (dt lanes : Nat) (ex : execControlLinkDown dt lanes s = .next tt) : s.Keeps tt := by
  have hs := State.Keeps.refl s
  unfold execControlLinkDown at ex
  try dsimp only at ex
  refine State.Keeps.of_next ex ?_
  clear ex
  repeat' (first
    | with_reducible assumption
    | with_reducible refine State.Keeps.ite ?_ ?_
    | with_reducible apply State.set_keeps
    | with_reducible apply State.pass_keeps
    | with_reducible apply State.next_keeps
    | with_reducible apply State.endSession_keeps
    | (simp only [State.Keeps.mk_of]; with_reducible refine State.Keeps.core ?_)
    | intro _
    | split)

theorem execControlLinkUp_keeps {tt : State} (dt : Nat) (ex : execControlLinkUp dt s = .next tt) : s.Keeps tt := by
  have hs := State.Keeps.refl s
  unfold execControlLinkUp at ex
  try dsimp only at ex
  refine State.Keeps.of_next ex ?_
  clear ex
  repeat' (first
    | with_reducible assumption
    | with_reducible refine State.Keeps.ite ?_ ?_
    | with_reducible apply State.set_keeps
    | with_reducible apply State.pass_keeps
    | with_reducible apply State.next_keeps
    | (simp only [State.Keeps.mk_of]; with_reducible refine State.Keeps.core ?_)
    | intro _)

theorem execHandshakeH1_keeps {tt : State} (dt : Nat) (m : List Byte) (ex : execHandshakeH1 dt m s = .next tt) : s.Keeps tt := by
  have hs := State.Keeps.refl s
  unfold execHandshakeH1 at ex
  try dsimp only at ex
  refine State.Keeps.of_next ex ?_
  clear ex
  repeat' (first
    | with_reducible assumption
    | with_reducible refine State.Keeps.ite ?_ ?_
    | with_reducible apply State.pass_keeps
    | with_reducible apply State.next_keeps
    | with_reducible apply State.helloIn_keeps
    | (simp only [State.Keeps.mk_of]; with_reducible refine State.Keeps.core ?_)
    | intro _
    | split)

theorem execHandshakeH2_keeps {tt : State} (dt : Nat) (m : List Byte) (ex : execHandshakeH2 dt m s = .next tt) : s.Keeps tt := by
  have hs := State.Keeps.refl s
  unfold execHandshakeH2 at ex
  try dsimp only at ex
  refine State.Keeps.of_next ex ?_
  clear ex
  repeat' (first
    | with_reducible assumption
    | with_reducible refine State.Keeps.ite ?_ ?_
    | with_reducible apply State.pass_keeps
    | with_reducible apply State.next_keeps
    | with_reducible apply State.finishIn_keeps
    | (simp only [State.Keeps.mk_of]; with_reducible refine State.Keeps.core ?_)
    | intro _
    | split)

theorem execHandshakeTimeout_keeps {tt : State} (dt : Nat) (ex : execHandshakeTimeout dt s = .next tt) : s.Keeps tt := by
  have hs := State.Keeps.refl s
  unfold execHandshakeTimeout at ex
  try dsimp only at ex
  refine State.Keeps.of_next ex ?_
  clear ex
  repeat' (first
    | with_reducible assumption
    | with_reducible refine State.Keeps.ite ?_ ?_
    | with_reducible apply State.pass_keeps
    | with_reducible apply State.next_keeps
    | with_reducible apply State.dropShake_keeps
    | (simp only [State.Keeps.mk_of]; with_reducible refine State.Keeps.core ?_)
    | intro _
    | split)

theorem execKeyPhaseAdvance_keeps {tt : State} (dt : Nat) (ex : execKeyPhaseAdvance dt s = .next tt) : s.Keeps tt := by
  have hs := State.Keeps.refl s
  unfold execKeyPhaseAdvance at ex
  try dsimp only at ex
  refine State.Keeps.of_next ex ?_
  clear ex
  repeat' (first
    | with_reducible assumption
    | with_reducible refine State.Keeps.ite ?_ ?_
    | with_reducible apply State.set_keeps
    | with_reducible apply State.transmit_keeps
    | with_reducible apply State.pass_keeps
    | with_reducible apply State.next_keeps
    | (simp only [State.Keeps.mk_of]; with_reducible refine State.Keeps.core ?_)
    | (simp only [State.Keeps.mk_of]; with_reducible refine State.Keeps.core_chans _ ?_)
    | intro _
    | dsimp only
    | split
    | refine State.Keeps.of_snd (by assumption) ?_)

theorem State.boxError_keeps (code : Nat) (hs : s0.Keeps s) : s0.Keeps (State.boxError s code) := by
  unfold State.boxError
  try dsimp only
  repeat' (first
    | with_reducible assumption
    | with_reducible refine State.Keeps.ite ?_ ?_
    | with_reducible apply State.set_keeps
    | with_reducible apply State.alarm_keeps
    | with_reducible apply State.endSession_keeps
    | with_reducible apply State.dropShake_keeps
    | (simp only [State.Keeps.mk_of]; with_reducible refine State.Keeps.core ?_)
    | intro _)

theorem execSbxAlarm_keeps {tt : State} (dt code : Nat) (ex : execSbxAlarm dt code s = .next tt) : s.Keeps tt := by
  have hs := State.Keeps.refl s
  unfold execSbxAlarm at ex
  try dsimp only at ex
  refine State.Keeps.of_next ex ?_
  clear ex
  repeat' (first
    | with_reducible assumption
    | with_reducible refine State.Keeps.ite ?_ ?_
    | with_reducible apply State.alarm_keeps
    | with_reducible apply State.pass_keeps
    | with_reducible apply State.next_keeps
    | with_reducible apply State.boxError_keeps
    | (simp only [State.Keeps.mk_of]; with_reducible refine State.Keeps.core ?_)
    | intro _)

/-! ### Machine/Commands.lean -/

theorem State.takeCommand_keeps (op cmd : Nat) (hs : s0.Keeps s) : s0.Keeps (State.takeCommand s op cmd) := by
  unfold State.takeCommand
  try dsimp only
  repeat' (first
    | with_reducible assumption
    | with_reducible refine State.Keeps.ite ?_ ?_
    | with_reducible apply State.consume_keeps
    | (simp only [State.Keeps.mk_of]; with_reducible refine State.Keeps.core ?_)
    | intro _
    | split
    | refine State.take_keeps (by assumption) ?_)

theorem State.command_keeps (op cmd : Nat) (roles : List Nat) (body : State → State) (hbody : ∀ t, s0.Keeps t → s0.Keeps (body t)) (hs : s0.Keeps s) : s0.Keeps (State.command s op cmd roles body) := by
  unfold State.command
  try dsimp only
  repeat' (first
    | with_reducible assumption
    | with_reducible apply hbody
    | with_reducible refine State.Keeps.ite ?_ ?_
    | with_reducible apply State.respond_keeps
    | with_reducible apply State.transmit_keeps
    | with_reducible apply State.authFail_keeps
    | with_reducible apply State.takeCommand_keeps
    | (simp only [State.Keeps.mk_of]; with_reducible refine State.Keeps.core ?_)
    | intro _
    | split)

theorem State.hostWrite_keeps (cmd a v : Nat) (hs : s0.Keeps s) : s0.Keeps (State.hostWrite s cmd a v) := by
  unfold State.hostWrite
  try dsimp only
  repeat' (first
    | with_reducible assumption
    | with_reducible refine State.Keeps.ite ?_ ?_
    | with_reducible apply State.respond_keeps
    | with_reducible apply State.mgmtWrite_keeps
    | with_reducible apply State.command_keeps
    | (simp only [State.Keeps.mk_of]; with_reducible refine State.Keeps.core ?_)
    | intro _
    | dsimp only
    | refine State.Keeps.of_snd (by assumption) ?_)

theorem execRead_keeps {tt : State} (dt cmd a : Nat) (ex : execRead dt cmd a s = .next tt) : s.Keeps tt := by
  have hs := State.Keeps.refl s
  unfold execRead at ex
  try dsimp only at ex
  refine State.Keeps.of_next ex ?_
  clear ex
  repeat' (first
    | with_reducible assumption
    | with_reducible refine State.Keeps.ite ?_ ?_
    | with_reducible refine State.Keeps.ite_snd ?_ ?_
    | with_reducible apply State.respond_keeps
    | with_reducible apply State.pass_keeps
    | with_reducible apply State.next_keeps
    | with_reducible apply State.mgmtRead_keeps
    | with_reducible apply State.command_keeps
    | (simp only [State.Keeps.mk_of]; with_reducible refine State.Keeps.core ?_)
    | intro _
    | dsimp only
    | split
    | refine State.Keeps.of_snd (by assumption) ?_)

theorem execWrite_keeps {tt : State} (dt cmd a v : Nat) (ex : execWrite dt cmd a v s = .next tt) : s.Keeps tt := by
  have hs := State.Keeps.refl s
  unfold execWrite at ex
  try dsimp only at ex
  refine State.Keeps.of_next ex ?_
  clear ex
  repeat' (first
    | with_reducible assumption
    | with_reducible refine State.Keeps.ite ?_ ?_
    | with_reducible apply State.pass_keeps
    | with_reducible apply State.next_keeps
    | with_reducible apply State.hostWrite_keeps
    | (simp only [State.Keeps.mk_of]; with_reducible refine State.Keeps.core ?_)
    | intro _
    | split)

theorem readBlock_keeps (k a n : Nat) {b : Block} (hs : s0.Keeps b.s) : s0.Keeps (readBlock k a n b).s := by
  induction k generalizing b with
  | zero => exact hs
  | succ k ih =>
    unfold readBlock
    split
    · exact hs
    · dsimp only
      split
      · split
        · exact ih (State.readWeights_keeps _ _ hs)
        · exact hs
      · split
        · exact ih (State.mgmtRead_keeps _ hs)
        · exact hs

theorem writeBlock_keeps (k a : Nat) (ws : List Nat) {b : Block} (hs : s0.Keeps b.s) : s0.Keeps (writeBlock k a ws b).s := by
  induction k generalizing b with
  | zero => exact hs
  | succ k ih =>
    unfold writeBlock
    split
    · exact hs
    · dsimp only
      split
      · split
        · exact ih (State.writeWeights_keeps _ _ _ hs)
        · exact hs
      · split
        · exact hs
        · split
          · exact hs
          · split
            · exact ih (State.writeSector_keeps _ _ hs)
            · exact hs
      · split
        · exact ih (State.mgmtWrite_keeps _ _ _ hs)
        · exact hs

theorem Block.answer_keeps (b : Block) (op cmd : Nat) (hs : s0.Keeps b.s) : s0.Keeps (b.answer op cmd) := by
  unfold Block.answer
  dsimp only
  split <;>
  split <;> exact State.respond_keeps _ _ _ _ _ _ hs

theorem State.blockRead_keeps (cmd a n : Nat) (hs : s0.Keeps s) : s0.Keeps (State.blockRead s cmd a n) := by
  unfold State.blockRead
  try dsimp only
  repeat' (first
    | with_reducible assumption
    | with_reducible refine State.Keeps.ite ?_ ?_
    | with_reducible apply State.respond_keeps
    | with_reducible apply State.command_keeps
    | with_reducible apply readBlock_keeps
    | with_reducible apply Block.answer_keeps
    | (simp only [State.Keeps.mk_of]; with_reducible refine State.Keeps.core ?_)
    | intro _
    | dsimp only
    | refine State.Keeps.of_snd (by assumption) ?_)

theorem State.blockWrite_keeps (cmd a : Nat) (ws : List Nat) (hs : s0.Keeps s) : s0.Keeps (State.blockWrite s cmd a ws) := by
  unfold State.blockWrite
  try dsimp only
  repeat' (first
    | with_reducible assumption
    | with_reducible refine State.Keeps.ite ?_ ?_
    | with_reducible apply State.respond_keeps
    | with_reducible apply State.command_keeps
    | with_reducible apply writeBlock_keeps
    | with_reducible apply Block.answer_keeps
    | (simp only [State.Keeps.mk_of]; with_reducible refine State.Keeps.core ?_)
    | intro _
    | dsimp only
    | refine State.Keeps.of_snd (by assumption) ?_)

theorem execReadBlock_keeps {tt : State} (dt cmd a n : Nat) (ex : execReadBlock dt cmd a n s = .next tt) : s.Keeps tt := by
  have hs := State.Keeps.refl s
  unfold execReadBlock at ex
  try dsimp only at ex
  refine State.Keeps.of_next ex ?_
  clear ex
  repeat' (first
    | with_reducible assumption
    | with_reducible refine State.Keeps.ite ?_ ?_
    | with_reducible apply State.pass_keeps
    | with_reducible apply State.next_keeps
    | with_reducible apply State.blockRead_keeps
    | (simp only [State.Keeps.mk_of]; with_reducible refine State.Keeps.core ?_)
    | intro _
    | split)

theorem execWriteBlock_keeps {tt : State} (dt cmd a : Nat) (ws : List Nat) (ex : execWriteBlock dt cmd a ws s = .next tt) : s.Keeps tt := by
  have hs := State.Keeps.refl s
  unfold execWriteBlock at ex
  try dsimp only at ex
  refine State.Keeps.of_next ex ?_
  clear ex
  repeat' (first
    | with_reducible assumption
    | with_reducible refine State.Keeps.ite ?_ ?_
    | with_reducible apply State.pass_keeps
    | with_reducible apply State.next_keeps
    | with_reducible apply State.blockWrite_keeps
    | (simp only [State.Keeps.mk_of]; with_reducible refine State.Keeps.core ?_)
    | intro _
    | split)

theorem execWsManagementRead_keeps {tt : State} (dt cmd n w : Nat) (ex : execWsManagementRead dt cmd n w s = .next tt) : s.Keeps tt := by
  have hs := State.Keeps.refl s
  unfold execWsManagementRead at ex
  try dsimp only at ex
  refine State.Keeps.of_next ex ?_
  clear ex
  repeat' (first
    | with_reducible assumption
    | with_reducible refine State.Keeps.ite ?_ ?_
    | with_reducible apply State.pass_keeps
    | with_reducible apply State.next_keeps
    | with_reducible apply State.blockRead_keeps
    | (simp only [State.Keeps.mk_of]; with_reducible refine State.Keeps.core ?_)
    | intro _
    | split)

theorem execWsManagementWrite_keeps {tt : State} (dt cmd n w : Nat) (ws : List Nat) (ex : execWsManagementWrite dt cmd n w ws s = .next tt) : s.Keeps tt := by
  have hs := State.Keeps.refl s
  unfold execWsManagementWrite at ex
  try dsimp only at ex
  refine State.Keeps.of_next ex ?_
  clear ex
  repeat' (first
    | with_reducible assumption
    | with_reducible refine State.Keeps.ite ?_ ?_
    | with_reducible apply State.pass_keeps
    | with_reducible apply State.next_keeps
    | with_reducible apply State.blockWrite_keeps
    | (simp only [State.Keeps.mk_of]; with_reducible refine State.Keeps.core ?_)
    | intro _
    | split
    | refine State.take_keeps (by assumption) ?_)

theorem execFlashWindowWrite_keeps {tt : State} (dt cmd off : Nat) (ws : List Nat) (ex : execFlashWindowWrite dt cmd off ws s = .next tt) : s.Keeps tt := by
  have hs := State.Keeps.refl s
  unfold execFlashWindowWrite at ex
  try dsimp only at ex
  refine State.Keeps.of_next ex ?_
  clear ex
  repeat' (first
    | with_reducible assumption
    | with_reducible refine State.Keeps.ite ?_ ?_
    | with_reducible apply State.pass_keeps
    | with_reducible apply State.next_keeps
    | with_reducible apply State.blockWrite_keeps
    | (simp only [State.Keeps.mk_of]; with_reducible refine State.Keeps.core ?_)
    | intro _
    | split)

theorem execArm_keeps {tt : State} (dt cmd : Nat) (ex : execArm dt cmd s = .next tt) : s.Keeps tt := by
  have hs := State.Keeps.refl s
  unfold execArm at ex
  try dsimp only at ex
  refine State.Keeps.of_next ex ?_
  clear ex
  repeat' (first
    | with_reducible assumption
    | with_reducible refine State.Keeps.ite ?_ ?_
    | with_reducible apply State.pass_keeps
    | with_reducible apply State.next_keeps
    | with_reducible apply State.hostWrite_keeps
    | (simp only [State.Keeps.mk_of]; with_reducible refine State.Keeps.core ?_)
    | intro _
    | split)

theorem execDisarm_keeps {tt : State} (dt cmd : Nat) (ex : execDisarm dt cmd s = .next tt) : s.Keeps tt := by
  have hs := State.Keeps.refl s
  unfold execDisarm at ex
  try dsimp only at ex
  refine State.Keeps.of_next ex ?_
  clear ex
  repeat' (first
    | with_reducible assumption
    | with_reducible refine State.Keeps.ite ?_ ?_
    | with_reducible apply State.pass_keeps
    | with_reducible apply State.next_keeps
    | with_reducible apply State.hostWrite_keeps
    | (simp only [State.Keeps.mk_of]; with_reducible refine State.Keeps.core ?_)
    | intro _
    | split)

theorem execFormatRecipeWrite_keeps {tt : State} (dt cmd v : Nat) (ex : execFormatRecipeWrite dt cmd v s = .next tt) : s.Keeps tt := by
  have hs := State.Keeps.refl s
  unfold execFormatRecipeWrite at ex
  try dsimp only at ex
  refine State.Keeps.of_next ex ?_
  clear ex
  repeat' (first
    | with_reducible assumption
    | with_reducible refine State.Keeps.ite ?_ ?_
    | with_reducible apply State.pass_keeps
    | with_reducible apply State.next_keeps
    | with_reducible apply State.hostWrite_keeps
    | (simp only [State.Keeps.mk_of]; with_reducible refine State.Keeps.core ?_)
    | intro _
    | split)

theorem execWideReqWrite_keeps {tt : State} (dt cmd v : Nat) (ex : execWideReqWrite dt cmd v s = .next tt) : s.Keeps tt := by
  have hs := State.Keeps.refl s
  unfold execWideReqWrite at ex
  try dsimp only at ex
  refine State.Keeps.of_next ex ?_
  clear ex
  repeat' (first
    | with_reducible assumption
    | with_reducible refine State.Keeps.ite ?_ ?_
    | with_reducible apply State.pass_keeps
    | with_reducible apply State.next_keeps
    | with_reducible apply State.hostWrite_keeps
    | (simp only [State.Keeps.mk_of]; with_reducible refine State.Keeps.core ?_)
    | intro _
    | split)

theorem execSwapHoldWrite_keeps {tt : State} (dt cmd v : Nat) (ex : execSwapHoldWrite dt cmd v s = .next tt) : s.Keeps tt := by
  have hs := State.Keeps.refl s
  unfold execSwapHoldWrite at ex
  try dsimp only at ex
  refine State.Keeps.of_next ex ?_
  clear ex
  repeat' (first
    | with_reducible assumption
    | with_reducible refine State.Keeps.ite ?_ ?_
    | with_reducible apply State.pass_keeps
    | with_reducible apply State.next_keeps
    | with_reducible apply State.hostWrite_keeps
    | (simp only [State.Keeps.mk_of]; with_reducible refine State.Keeps.core ?_)
    | intro _
    | split)

theorem execShadowEnableWrite_keeps {tt : State} (dt cmd v : Nat) (ex : execShadowEnableWrite dt cmd v s = .next tt) : s.Keeps tt := by
  have hs := State.Keeps.refl s
  unfold execShadowEnableWrite at ex
  try dsimp only at ex
  refine State.Keeps.of_next ex ?_
  clear ex
  repeat' (first
    | with_reducible assumption
    | with_reducible refine State.Keeps.ite ?_ ?_
    | with_reducible apply State.pass_keeps
    | with_reducible apply State.next_keeps
    | with_reducible apply State.hostWrite_keeps
    | (simp only [State.Keeps.mk_of]; with_reducible refine State.Keeps.core ?_)
    | intro _
    | split)

theorem execSampProfileWrite_keeps {tt : State} (dt cmd v : Nat) (ex : execSampProfileWrite dt cmd v s = .next tt) : s.Keeps tt := by
  have hs := State.Keeps.refl s
  unfold execSampProfileWrite at ex
  try dsimp only at ex
  refine State.Keeps.of_next ex ?_
  clear ex
  repeat' (first
    | with_reducible assumption
    | with_reducible refine State.Keeps.ite ?_ ?_
    | with_reducible apply State.pass_keeps
    | with_reducible apply State.next_keeps
    | with_reducible apply State.hostWrite_keeps
    | (simp only [State.Keeps.mk_of]; with_reducible refine State.Keeps.core ?_)
    | intro _
    | split)

theorem execAdapterPtrWrite_keeps {tt : State} (dt cmd v : Nat) (ex : execAdapterPtrWrite dt cmd v s = .next tt) : s.Keeps tt := by
  have hs := State.Keeps.refl s
  unfold execAdapterPtrWrite at ex
  try dsimp only at ex
  refine State.Keeps.of_next ex ?_
  clear ex
  repeat' (first
    | with_reducible assumption
    | with_reducible refine State.Keeps.ite ?_ ?_
    | with_reducible apply State.pass_keeps
    | with_reducible apply State.next_keeps
    | with_reducible apply State.hostWrite_keeps
    | (simp only [State.Keeps.mk_of]; with_reducible refine State.Keeps.core ?_)
    | intro _
    | split)

theorem execModelPtrWrite_keeps {tt : State} (dt cmd v : Nat) (ex : execModelPtrWrite dt cmd v s = .next tt) : s.Keeps tt := by
  have hs := State.Keeps.refl s
  unfold execModelPtrWrite at ex
  try dsimp only at ex
  refine State.Keeps.of_next ex ?_
  clear ex
  repeat' (first
    | with_reducible assumption
    | with_reducible refine State.Keeps.ite ?_ ?_
    | with_reducible apply State.pass_keeps
    | with_reducible apply State.next_keeps
    | with_reducible apply State.hostWrite_keeps
    | (simp only [State.Keeps.mk_of]; with_reducible refine State.Keeps.core ?_)
    | intro _
    | split)

theorem execCoachOnWrite_keeps {tt : State} (dt cmd v : Nat) (ex : execCoachOnWrite dt cmd v s = .next tt) : s.Keeps tt := by
  have hs := State.Keeps.refl s
  unfold execCoachOnWrite at ex
  try dsimp only at ex
  refine State.Keeps.of_next ex ?_
  clear ex
  repeat' (first
    | with_reducible assumption
    | with_reducible refine State.Keeps.ite ?_ ?_
    | with_reducible apply State.pass_keeps
    | with_reducible apply State.next_keeps
    | with_reducible apply State.hostWrite_keeps
    | (simp only [State.Keeps.mk_of]; with_reducible refine State.Keeps.core ?_)
    | intro _
    | split)

theorem execStepCapWrite_keeps {tt : State} (dt cmd v : Nat) (ex : execStepCapWrite dt cmd v s = .next tt) : s.Keeps tt := by
  have hs := State.Keeps.refl s
  unfold execStepCapWrite at ex
  try dsimp only at ex
  refine State.Keeps.of_next ex ?_
  clear ex
  repeat' (first
    | with_reducible assumption
    | with_reducible refine State.Keeps.ite ?_ ?_
    | with_reducible apply State.pass_keeps
    | with_reducible apply State.next_keeps
    | with_reducible apply State.hostWrite_keeps
    | (simp only [State.Keeps.mk_of]; with_reducible refine State.Keeps.core ?_)
    | intro _
    | split)

theorem execPrefixFlush_keeps {tt : State} (dt cmd : Nat) (ex : execPrefixFlush dt cmd s = .next tt) : s.Keeps tt := by
  have hs := State.Keeps.refl s
  unfold execPrefixFlush at ex
  try dsimp only at ex
  refine State.Keeps.of_next ex ?_
  clear ex
  repeat' (first
    | with_reducible assumption
    | with_reducible refine State.Keeps.ite ?_ ?_
    | with_reducible apply State.pass_keeps
    | with_reducible apply State.next_keeps
    | with_reducible apply State.hostWrite_keeps
    | (simp only [State.Keeps.mk_of]; with_reducible refine State.Keeps.core ?_)
    | intro _
    | split)

theorem execHazardClear_keeps {tt : State} (dt cmd n : Nat) (ex : execHazardClear dt cmd n s = .next tt) : s.Keeps tt := by
  have hs := State.Keeps.refl s
  unfold execHazardClear at ex
  try dsimp only at ex
  refine State.Keeps.of_next ex ?_
  clear ex
  repeat' (first
    | with_reducible assumption
    | with_reducible refine State.Keeps.ite ?_ ?_
    | with_reducible apply State.pass_keeps
    | with_reducible apply State.next_keeps
    | with_reducible apply State.hostWrite_keeps
    | (simp only [State.Keeps.mk_of]; with_reducible refine State.Keeps.core ?_)
    | intro _
    | split)

theorem execCoachResetRequest_keeps {tt : State} (dt cmd c : Nat) (ex : execCoachResetRequest dt cmd c s = .next tt) : s.Keeps tt := by
  have hs := State.Keeps.refl s
  unfold execCoachResetRequest at ex
  try dsimp only at ex
  refine State.Keeps.of_next ex ?_
  clear ex
  repeat' (first
    | with_reducible assumption
    | with_reducible refine State.Keeps.ite ?_ ?_
    | with_reducible apply State.pass_keeps
    | with_reducible apply State.next_keeps
    | with_reducible apply State.hostWrite_keeps
    | (simp only [State.Keeps.mk_of]; with_reducible refine State.Keeps.core ?_)
    | intro _
    | split)

theorem execAtbSelect_keeps {tt : State} (dt cmd n v : Nat) (ex : execAtbSelect dt cmd n v s = .next tt) : s.Keeps tt := by
  have hs := State.Keeps.refl s
  unfold execAtbSelect at ex
  try dsimp only at ex
  refine State.Keeps.of_next ex ?_
  clear ex
  repeat' (first
    | with_reducible assumption
    | with_reducible refine State.Keeps.ite ?_ ?_
    | with_reducible apply State.pass_keeps
    | with_reducible apply State.next_keeps
    | with_reducible apply State.hostWrite_keeps
    | (simp only [State.Keeps.mk_of]; with_reducible refine State.Keeps.core ?_)
    | intro _
    | split)

theorem execCartIssueWrite_keeps {tt : State} (dt cmd n ch off : Nat) (ex : execCartIssueWrite dt cmd n ch off s = .next tt) : s.Keeps tt := by
  have hs := State.Keeps.refl s
  unfold execCartIssueWrite at ex
  try dsimp only at ex
  refine State.Keeps.of_next ex ?_
  clear ex
  repeat' (first
    | with_reducible assumption
    | with_reducible refine State.Keeps.ite ?_ ?_
    | with_reducible apply State.pass_keeps
    | with_reducible apply State.next_keeps
    | with_reducible apply State.hostWrite_keeps
    | (simp only [State.Keeps.mk_of]; with_reducible refine State.Keeps.core ?_)
    | intro _
    | split)

theorem execClkGate_keeps {tt : State} (dt : Nat) (who : Requester) (cmd d i : Nat) (ex : execClkGate dt who cmd d i s = .next tt) : s.Keeps tt := by
  have hs := State.Keeps.refl s
  unfold execClkGate at ex
  try dsimp only at ex
  refine State.Keeps.of_next ex ?_
  clear ex
  repeat' (first
    | with_reducible assumption
    | with_reducible refine State.Keeps.ite ?_ ?_
    | with_reducible apply State.pass_keeps
    | with_reducible apply State.next_keeps
    | with_reducible apply State.clkRequest_keeps
    | with_reducible apply State.hostWrite_keeps
    | (simp only [State.Keeps.mk_of]; with_reducible refine State.Keeps.core ?_)
    | intro _
    | split)

theorem execClkUngate_keeps {tt : State} (dt : Nat) (who : Requester) (cmd d i : Nat) (ex : execClkUngate dt who cmd d i s = .next tt) : s.Keeps tt := by
  have hs := State.Keeps.refl s
  unfold execClkUngate at ex
  try dsimp only at ex
  refine State.Keeps.of_next ex ?_
  clear ex
  repeat' (first
    | with_reducible assumption
    | with_reducible refine State.Keeps.ite ?_ ?_
    | with_reducible apply State.pass_keeps
    | with_reducible apply State.next_keeps
    | with_reducible apply State.clkRequest_keeps
    | with_reducible apply State.hostWrite_keeps
    | (simp only [State.Keeps.mk_of]; with_reducible refine State.Keeps.core ?_)
    | intro _
    | split)

theorem execClkSwitch_keeps {tt : State} (dt : Nat) (who : Requester) (cmd d : Nat) (seco : Bool) (ex : execClkSwitch dt who cmd d seco s = .next tt) : s.Keeps tt := by
  have hs := State.Keeps.refl s
  unfold execClkSwitch at ex
  try dsimp only at ex
  refine State.Keeps.of_next ex ?_
  clear ex
  repeat' (first
    | with_reducible assumption
    | with_reducible refine State.Keeps.ite ?_ ?_
    | with_reducible apply State.pass_keeps
    | with_reducible apply State.next_keeps
    | with_reducible apply State.clkRequest_keeps
    | with_reducible apply State.hostWrite_keeps
    | (simp only [State.Keeps.mk_of]; with_reducible refine State.Keeps.core ?_)
    | intro _
    | split)

theorem execSbxPolicyWrite_keeps {tt : State} (dt cmd v : Nat) (ex : execSbxPolicyWrite dt cmd v s = .next tt) : s.Keeps tt := by
  have hs := State.Keeps.refl s
  unfold execSbxPolicyWrite at ex
  try dsimp only at ex
  refine State.Keeps.of_next ex ?_
  clear ex
  repeat' (first
    | with_reducible assumption
    | with_reducible refine State.Keeps.ite ?_ ?_
    | with_reducible apply State.pass_keeps
    | with_reducible apply State.next_keeps
    | with_reducible apply State.hostWrite_keeps
    | (simp only [State.Keeps.mk_of]; with_reducible refine State.Keeps.core ?_)
    | intro _
    | split)

theorem execAllowDebugClear_keeps {tt : State} (dt cmd : Nat) (ex : execAllowDebugClear dt cmd s = .next tt) : s.Keeps tt := by
  have hs := State.Keeps.refl s
  unfold execAllowDebugClear at ex
  try dsimp only at ex
  refine State.Keeps.of_next ex ?_
  clear ex
  repeat' (first
    | with_reducible assumption
    | with_reducible refine State.Keeps.ite ?_ ?_
    | with_reducible apply State.pass_keeps
    | with_reducible apply State.next_keeps
    | with_reducible apply State.hostWrite_keeps
    | (simp only [State.Keeps.mk_of]; with_reducible refine State.Keeps.core ?_)
    | intro _
    | split)

theorem execAllowServiceClear_keeps {tt : State} (dt cmd : Nat) (ex : execAllowServiceClear dt cmd s = .next tt) : s.Keeps tt := by
  have hs := State.Keeps.refl s
  unfold execAllowServiceClear at ex
  try dsimp only at ex
  refine State.Keeps.of_next ex ?_
  clear ex
  repeat' (first
    | with_reducible assumption
    | with_reducible refine State.Keeps.ite ?_ ?_
    | with_reducible apply State.pass_keeps
    | with_reducible apply State.next_keeps
    | with_reducible apply State.hostWrite_keeps
    | (simp only [State.Keeps.mk_of]; with_reducible refine State.Keeps.core ?_)
    | intro _
    | split)

theorem execKeyEnrol_keeps {tt : State} (dt cmd slot : Nat) (ex : execKeyEnrol dt cmd slot s = .next tt) : s.Keeps tt := by
  have hs := State.Keeps.refl s
  unfold execKeyEnrol at ex
  try dsimp only at ex
  refine State.Keeps.of_next ex ?_
  clear ex
  repeat' (first
    | with_reducible assumption
    | with_reducible refine State.Keeps.ite ?_ ?_
    | with_reducible apply State.pass_keeps
    | with_reducible apply State.next_keeps
    | with_reducible apply State.hostWrite_keeps
    | (simp only [State.Keeps.mk_of]; with_reducible refine State.Keeps.core ?_)
    | intro _
    | split)

theorem execKeyRemove_keeps {tt : State} (dt cmd slot : Nat) (ex : execKeyRemove dt cmd slot s = .next tt) : s.Keeps tt := by
  have hs := State.Keeps.refl s
  unfold execKeyRemove at ex
  try dsimp only at ex
  refine State.Keeps.of_next ex ?_
  clear ex
  repeat' (first
    | with_reducible assumption
    | with_reducible refine State.Keeps.ite ?_ ?_
    | with_reducible apply State.pass_keeps
    | with_reducible apply State.next_keeps
    | with_reducible apply State.hostWrite_keeps
    | (simp only [State.Keeps.mk_of]; with_reducible refine State.Keeps.core ?_)
    | intro _
    | split)

theorem execImageStart_keeps {tt : State} (dt cmd count : Nat) (ex : execImageStart dt cmd count s = .next tt) : s.Keeps tt := by
  have hs := State.Keeps.refl s
  unfold execImageStart at ex
  try dsimp only at ex
  refine State.Keeps.of_next ex ?_
  clear ex
  repeat' (first
    | with_reducible assumption
    | with_reducible refine State.Keeps.ite ?_ ?_
    | with_reducible apply State.respond_keeps
    | with_reducible apply State.setImageState_keeps
    | with_reducible apply State.pass_keeps
    | with_reducible apply State.next_keeps
    | with_reducible apply State.command_keeps
    | (simp only [State.Keeps.mk_of]; with_reducible refine State.Keeps.core ?_)
    | intro _
    | dsimp only
    | split
    | refine State.Keeps.of_snd (by assumption) ?_)

theorem execImageStop_keeps {tt : State} (dt cmd : Nat) (ex : execImageStop dt cmd s = .next tt) : s.Keeps tt := by
  have hs := State.Keeps.refl s
  unfold execImageStop at ex
  try dsimp only at ex
  refine State.Keeps.of_next ex ?_
  clear ex
  repeat' (first
    | with_reducible assumption
    | with_reducible refine State.Keeps.ite ?_ ?_
    | with_reducible apply State.respond_keeps
    | with_reducible apply State.stopImage_keeps
    | with_reducible apply State.setImageState_keeps
    | with_reducible apply State.pass_keeps
    | with_reducible apply State.next_keeps
    | with_reducible apply State.command_keeps
    | (simp only [State.Keeps.mk_of]; with_reducible refine State.Keeps.core ?_)
    | intro _
    | dsimp only
    | split
    | refine State.Keeps.of_snd (by assumption) ?_)

theorem execSessionClose_keeps {tt : State} (dt cmd : Nat) (ex : execSessionClose dt cmd s = .next tt) : s.Keeps tt := by
  have hs := State.Keeps.refl s
  unfold execSessionClose at ex
  try dsimp only at ex
  refine State.Keeps.of_next ex ?_
  clear ex
  repeat' (first
    | with_reducible assumption
    | with_reducible refine State.Keeps.ite ?_ ?_
    | with_reducible apply State.respond_keeps
    | with_reducible apply State.transmit_keeps
    | with_reducible apply State.pass_keeps
    | with_reducible apply State.next_keeps
    | with_reducible apply State.endSession_keeps
    | with_reducible apply State.command_keeps
    | (simp only [State.Keeps.mk_of]; with_reducible refine State.Keeps.core ?_)
    | intro _
    | dsimp only
    | split
    | refine State.Keeps.of_snd (by assumption) ?_)

theorem execRaw_keeps {tt : State} (dt cmd k chan a v : Nat) (wr : Bool) (ex : execRaw dt cmd k chan a v wr s = .next tt) : s.Keeps tt := by
  have hs := State.Keeps.refl s
  unfold execRaw at ex
  try dsimp only at ex
  refine State.Keeps.of_next ex ?_
  clear ex
  repeat' (first
    | with_reducible assumption
    | with_reducible refine State.Keeps.ite ?_ ?_
    | with_reducible refine State.Keeps.ite_snd ?_ ?_
    | with_reducible apply State.respond_keeps
    | with_reducible apply State.sendTx_keeps
    | with_reducible apply State.pass_keeps
    | with_reducible apply State.next_keeps
    | with_reducible apply State.command_keeps
    | (simp only [State.Keeps.mk_of]; with_reducible refine State.Keeps.core ?_)
    | intro _
    | dsimp only
    | split
    | refine State.Keeps.of_snd (by assumption) ?_)

theorem execRawResponse_keeps {tt : State} (dt k : Nat) (x : Tx) (ex : execRawResponse dt k x s = .next tt) : s.Keeps tt := by
  have hs := State.Keeps.refl s
  unfold execRawResponse at ex
  try dsimp only at ex
  refine State.Keeps.of_next ex ?_
  clear ex
  repeat' (first
    | with_reducible assumption
    | with_reducible refine State.Keeps.ite ?_ ?_
    | with_reducible apply State.respond_keeps
    | with_reducible apply State.transmit_keeps
    | with_reducible apply State.pass_keeps
    | with_reducible apply State.next_keeps
    | with_reducible apply State.txIn_keeps
    | (simp only [State.Keeps.mk_of]; with_reducible refine State.Keeps.core ?_)
    | intro _
    | dsimp only
    | split
    | refine State.Keeps.of_snd (by assumption) ?_
    | refine State.take_keeps (by assumption) ?_)

theorem State.rawBulk_keeps (x : Tx) (hs : s0.Keeps s) : s0.Keeps (State.rawBulk s x).2 := by
  unfold State.rawBulk
  try dsimp only
  repeat' (first
    | with_reducible assumption
    | with_reducible refine State.Keeps.ite ?_ ?_
    | with_reducible refine State.Keeps.ite_snd ?_ ?_
    | with_reducible apply State.wrBytes_keeps
    | with_reducible apply State.queueWords_keeps
    | (simp only [State.Keeps.mk_of]; with_reducible refine State.Keeps.core ?_)
    | intro _
    | dsimp only
    | split
    | refine State.Keeps.of_snd (by assumption) ?_)

theorem execRawRequest_keeps {tt : State} (dt k : Nat) (x : Tx) (ex : execRawRequest dt k x s = .next tt) : s.Keeps tt := by
  have hs := State.Keeps.refl s
  unfold execRawRequest at ex
  try dsimp only at ex
  refine State.Keeps.of_next ex ?_
  clear ex
  repeat' (first
    | with_reducible assumption
    | with_reducible refine State.Keeps.ite ?_ ?_
    | with_reducible refine State.Keeps.ite_snd ?_ ?_
    | with_reducible apply State.sendTx_keeps
    | with_reducible apply State.pass_keeps
    | with_reducible apply State.next_keeps
    | with_reducible apply State.txIn_keeps
    | with_reducible apply State.mgmtRead_keeps
    | with_reducible apply State.mgmtWrite_keeps
    | with_reducible apply State.rawBulk_keeps
    | (simp only [State.Keeps.mk_of]; with_reducible refine State.Keeps.core ?_)
    | intro _
    | dsimp only
    | split
    | refine State.Keeps.of_snd (by assumption) ?_)

theorem execManagementRequest_keeps {tt : State} (dt : Nat) (p : Packet) (ex : execManagementRequest dt p s = .next tt) : s.Keeps tt := by
  have hs := State.Keeps.refl s
  unfold execManagementRequest at ex
  try dsimp only at ex
  refine State.Keeps.of_next ex ?_
  clear ex
  repeat' (first
    | with_reducible assumption
    | with_reducible refine State.Keeps.ite ?_ ?_
    | with_reducible refine State.Keeps.ite_snd ?_ ?_
    | with_reducible apply State.pass_keeps
    | with_reducible apply State.next_keeps
    | with_reducible apply State.send_keeps
    | with_reducible apply State.receive_keeps
    | with_reducible apply State.mgmtRead_keeps
    | with_reducible apply State.mgmtWrite_keeps
    | (simp only [State.Keeps.mk_of]; with_reducible refine State.Keeps.core ?_)
    | intro _
    | dsimp only
    | split
    | refine State.Keeps.of_snd (by assumption) ?_
    | refine State.take_keeps (by assumption) ?_)

theorem execManagementResponse_keeps {tt : State} (dt : Nat) (p : Packet) (ex : execManagementResponse dt p s = .next tt) : s.Keeps tt := by
  have hs := State.Keeps.refl s
  unfold execManagementResponse at ex
  try dsimp only at ex
  refine State.Keeps.of_next ex ?_
  clear ex
  repeat' (first
    | with_reducible assumption
    | with_reducible refine State.Keeps.ite ?_ ?_
    | with_reducible apply State.pass_keeps
    | with_reducible apply State.next_keeps
    | with_reducible apply State.receive_keeps
    | (simp only [State.Keeps.mk_of]; with_reducible refine State.Keeps.core ?_)
    | intro _
    | dsimp only
    | split
    | refine State.Keeps.of_snd (by assumption) ?_
    | refine State.take_keeps (by assumption) ?_)

theorem State.telemetry_keeps (n : Nat) (hs : s0.Keeps s) : s0.Keeps (State.telemetry s n) := by
  unfold State.telemetry
  try dsimp only
  repeat' (first
    | with_reducible assumption
    | with_reducible refine State.Keeps.ite ?_ ?_
    | with_reducible refine State.Keeps.ite_snd ?_ ?_
    | with_reducible apply State.queue4_keeps
    | with_reducible apply State.mgmtRead_keeps
    | (simp only [State.Keeps.mk_of]; with_reducible refine State.Keeps.core ?_)
    | intro _
    | dsimp only
    | refine State.Keeps.of_snd (by assumption) ?_)

theorem execTelemetryPeriod_keeps {tt : State} (dt : Nat) (ex : execTelemetryPeriod dt s = .next tt) : s.Keeps tt := by
  have hs := State.Keeps.refl s
  unfold execTelemetryPeriod at ex
  try dsimp only at ex
  refine State.Keeps.of_next ex ?_
  clear ex
  repeat' (first
    | with_reducible assumption
    | with_reducible refine State.Keeps.ite ?_ ?_
    | with_reducible apply State.transmit_keeps
    | with_reducible apply State.pass_keeps
    | with_reducible apply State.next_keeps
    | with_reducible apply State.telemetry_keeps
    | (simp only [State.Keeps.mk_of]; with_reducible refine State.Keeps.core ?_)
    | with_reducible refine State.Keeps.foldl _ ?_ ?_
    | with_reducible refine State.Keeps.foldl_snd _ ?_ ?_
    | intro _)

/-! ### Machine/Secure.lean -/

theorem State.startLong_keeps (op cmd want : Nat) (bulk : Bool) (args : List Nat) (broadcast : Bool) (hs : s0.Keeps s) : s0.Keeps (State.startLong s op cmd want bulk args broadcast) := by
  unfold State.startLong
  try dsimp only
  repeat' (first
    | with_reducible assumption
    | with_reducible refine State.Keeps.ite ?_ ?_
    | with_reducible apply State.set_keeps
    | with_reducible apply State.respond_keeps
    | (simp only [State.Keeps.mk_of]; with_reducible refine State.Keeps.core ?_)
    | intro _
    | dsimp only)

theorem State.endLong_keeps (status detail : Nat) (result : List Byte) (hs : s0.Keeps s) : s0.Keeps (State.endLong s status detail result) := by
  unfold State.endLong
  try dsimp only
  repeat' (first
    | with_reducible assumption
    | with_reducible refine State.Keeps.ite ?_ ?_
    | with_reducible apply State.set_keeps
    | with_reducible apply State.respond_keeps
    | with_reducible apply State.transmit_keeps
    | (simp only [State.Keeps.mk_of]; with_reducible refine State.Keeps.core ?_)
    | intro _
    | split)

theorem execAttest_keeps {tt : State} (dt cmd : Nat) (nonce : List Byte) (ex : execAttest dt cmd nonce s = .next tt) : s.Keeps tt := by
  have hs := State.Keeps.refl s
  unfold execAttest at ex
  try dsimp only at ex
  refine State.Keeps.of_next ex ?_
  clear ex
  repeat' (first
    | with_reducible assumption
    | with_reducible refine State.Keeps.ite ?_ ?_
    | with_reducible apply State.set_keeps
    | with_reducible apply State.respond_keeps
    | with_reducible apply State.pass_keeps
    | with_reducible apply State.next_keeps
    | with_reducible apply State.command_keeps
    | with_reducible apply State.startLong_keeps
    | with_reducible apply State.endLong_keeps
    | (simp only [State.Keeps.mk_of]; with_reducible refine State.Keeps.core ?_)
    | intro _
    | dsimp only
    | split)

theorem execZeroise_keeps {tt : State} (dt cmd scope : Nat) (ex : execZeroise dt cmd scope s = .next tt) : s.Keeps tt := by
  have hs := State.Keeps.refl s
  unfold execZeroise at ex
  try dsimp only at ex
  refine State.Keeps.of_next ex ?_
  clear ex
  repeat' (first
    | with_reducible assumption
    | with_reducible refine State.Keeps.ite ?_ ?_
    | with_reducible apply State.set_keeps
    | with_reducible apply State.respond_keeps
    | with_reducible apply State.stopImage_keeps
    | with_reducible apply State.setImageState_keeps
    | with_reducible apply State.pass_keeps
    | with_reducible apply State.next_keeps
    | with_reducible apply State.dropShake_keeps
    | with_reducible apply State.command_keeps
    | with_reducible apply State.startLong_keeps
    | (simp only [State.Keeps.mk_of]; with_reducible refine State.Keeps.core ?_)
    | intro _
    | dsimp only
    | split)

theorem State.eraseData_keeps  (hs : s0.Keeps s) : s0.Keeps (State.eraseData s) := by
  unfold State.eraseData
  try dsimp only
  repeat' (first
    | with_reducible assumption
    | with_reducible refine State.Keeps.ite ?_ ?_
    | with_reducible apply State.resetRegs_keeps
    | with_reducible apply State.set_keeps
    | with_reducible apply State.syncNodes_keeps
    | with_reducible apply State.syncEligible_keeps
    | with_reducible apply State.unloadImage_keeps
    | (simp only [State.Keeps.mk_of]; with_reducible refine State.Keeps.core ?_)
    | (simp only [State.Keeps.mk_of]; with_reducible refine State.Keeps.core_mem _ ?_)
    | (simp only [State.Keeps.mk_of]; with_reducible refine State.Keeps.core_bytes _ _ ?_)
    | intro _
    | dsimp only)

theorem State.eraseKeys_keeps  (hs : s0.Keeps s) : s0.Keeps (State.eraseKeys s) := by
  unfold State.eraseKeys
  try dsimp only
  repeat' (first
    | with_reducible assumption
    | with_reducible refine State.Keeps.ite ?_ ?_
    | with_reducible apply State.setFlag_keeps
    | with_reducible apply State.syncKeys_keeps
    | with_reducible apply State.setDebug_keeps
    | (simp only [State.Keeps.mk_of]; with_reducible refine State.Keeps.core ?_)
    | intro _)

theorem execZeroiseComplete_keeps {tt : State} (dt : Nat) (ex : execZeroiseComplete dt s = .next tt) : s.Keeps tt := by
  have hs := State.Keeps.refl s
  unfold execZeroiseComplete at ex
  try dsimp only at ex
  refine State.Keeps.of_next ex ?_
  clear ex
  repeat' (first
    | with_reducible assumption
    | with_reducible refine State.Keeps.ite ?_ ?_
    | with_reducible apply State.set_keeps
    | with_reducible apply State.raiseHead_keeps
    | with_reducible apply State.pass_keeps
    | with_reducible apply State.next_keeps
    | with_reducible apply State.endSession_keeps
    | with_reducible apply State.boxError_keeps
    | with_reducible apply State.endLong_keeps
    | with_reducible apply State.eraseData_keeps
    | with_reducible apply State.eraseKeys_keeps
    | (simp only [State.Keeps.mk_of]; with_reducible refine State.Keeps.core ?_)
    | with_reducible refine State.Keeps.getD ?_ ?_
    | intro _
    | dsimp only
    | split)

theorem execCoachRepair_keeps {tt : State} (dt cmd c : Nat) (ex : execCoachRepair dt cmd c s = .next tt) : s.Keeps tt := by
  have hs := State.Keeps.refl s
  unfold execCoachRepair at ex
  try dsimp only at ex
  refine State.Keeps.of_next ex ?_
  clear ex
  repeat' (first
    | with_reducible assumption
    | with_reducible refine State.Keeps.ite ?_ ?_
    | with_reducible refine State.Keeps.ite_snd ?_ ?_
    | with_reducible apply State.respond_keeps
    | with_reducible apply State.isolate_keeps
    | with_reducible apply State.loseCoach_keeps
    | with_reducible apply State.pass_keeps
    | with_reducible apply State.next_keeps
    | with_reducible apply State.command_keeps
    | with_reducible apply State.startLong_keeps
    | with_reducible apply State.endLong_keeps
    | (simp only [State.Keeps.mk_of]; with_reducible refine State.Keeps.core ?_)
    | intro _
    | dsimp only
    | split)

theorem State.trainDone_keeps  (hs : s0.Keeps s) : s0.Keeps (State.trainDone s) := by
  unfold State.trainDone
  try dsimp only
  repeat' (first
    | with_reducible assumption
    | with_reducible refine State.Keeps.ite ?_ ?_
    | with_reducible apply State.endLong_keeps
    | (simp only [State.Keeps.mk_of]; with_reducible refine State.Keeps.core ?_)
    | intro _
    | split)

theorem execCouplingTrain_keeps {tt : State} (dt cmd mask : Nat) (ex : execCouplingTrain dt cmd mask s = .next tt) : s.Keeps tt := by
  have hs := State.Keeps.refl s
  unfold execCouplingTrain at ex
  try dsimp only at ex
  refine State.Keeps.of_next ex ?_
  clear ex
  repeat' (first
    | with_reducible assumption
    | with_reducible refine State.Keeps.ite ?_ ?_
    | with_reducible apply State.set_keeps
    | with_reducible apply State.respond_keeps
    | with_reducible apply State.setLink_keeps
    | with_reducible apply State.pass_keeps
    | with_reducible apply State.next_keeps
    | with_reducible apply State.command_keeps
    | with_reducible apply State.startLong_keeps
    | with_reducible apply State.trainDone_keeps
    | (simp only [State.Keeps.mk_of]; with_reducible refine State.Keeps.core ?_)
    | with_reducible refine State.Keeps.foldl _ ?_ ?_
    | with_reducible refine State.Keeps.foldl_snd _ ?_ ?_
    | intro _
    | split)

theorem execCouplingTrainingEnd_keeps {tt : State} (dt k good peerCpl peerMember : Nat) (ex : execCouplingTrainingEnd dt k good peerCpl peerMember s = .next tt) : s.Keeps tt := by
  have hs := State.Keeps.refl s
  unfold execCouplingTrainingEnd at ex
  try dsimp only at ex
  refine State.Keeps.of_next ex ?_
  clear ex
  repeat' (first
    | with_reducible assumption
    | with_reducible refine State.Keeps.ite ?_ ?_
    | with_reducible apply State.set_keeps
    | with_reducible apply State.raise_keeps
    | with_reducible apply State.setLink_keeps
    | with_reducible apply State.updLink_keeps
    | with_reducible apply State.pass_keeps
    | with_reducible apply State.next_keeps
    | with_reducible apply State.trainDone_keeps
    | (simp only [State.Keeps.mk_of]; with_reducible refine State.Keeps.core ?_)
    | with_reducible refine State.Keeps.foldl _ ?_ ?_
    | with_reducible refine State.Keeps.foldl_snd _ ?_ ?_
    | intro _
    | dsimp only)

theorem execDefectClear_keeps {tt : State} (dt cmd kind place : Nat) (ex : execDefectClear dt cmd kind place s = .next tt) : s.Keeps tt := by
  have hs := State.Keeps.refl s
  unfold execDefectClear at ex
  try dsimp only at ex
  refine State.Keeps.of_next ex ?_
  clear ex
  repeat' (first
    | with_reducible assumption
    | with_reducible refine State.Keeps.ite ?_ ?_
    | with_reducible apply State.set_keeps
    | with_reducible apply State.respond_keeps
    | with_reducible apply State.pass_keeps
    | with_reducible apply State.next_keeps
    | with_reducible apply State.place_keeps
    | with_reducible apply State.command_keeps
    | with_reducible apply State.startLong_keeps
    | with_reducible apply State.endLong_keeps
    | (simp only [State.Keeps.mk_of]; with_reducible refine State.Keeps.core ?_)
    | intro _
    | dsimp only
    | split)

theorem execWarmReset_keeps {tt : State} (dt cmd : Nat) (ex : execWarmReset dt cmd s = .next tt) : s.Keeps tt := by
  have hs := State.Keeps.refl s
  unfold execWarmReset at ex
  try dsimp only at ex
  refine State.Keeps.of_next ex ?_
  clear ex
  repeat' (first
    | with_reducible assumption
    | with_reducible refine State.Keeps.ite ?_ ?_
    | with_reducible apply State.respond_keeps
    | with_reducible apply State.transmit_keeps
    | with_reducible apply State.pass_keeps
    | with_reducible apply State.next_keeps
    | with_reducible apply State.warmReset_keeps
    | with_reducible apply State.command_keeps
    | (simp only [State.Keeps.mk_of]; with_reducible refine State.Keeps.core ?_)
    | intro _
    | dsimp only
    | split)

end Sys2Proof.Machine
end

