-- ==== Sys2Proof/Laws/KeepsRepair.lean ====
section
/-! SUPPORT. What the operations and meanings of Repair, Load, Turns, TestPort keep (Laws/Keeps.lean). -/

set_option Elab.async false

namespace Sys2Proof.Machine

set_option linter.unusedTactic false
set_option linter.unreachableTactic false
set_option linter.unusedSimpArgs false

variable {s0 s : State}

/-! ### Machine/Repair.lean -/

theorem State.takeSnap_keeps  (hs : s0.Keeps s) : s0.Keeps (State.takeSnap s) := by
  unfold State.takeSnap
  try dsimp only
  repeat' (first
    | with_reducible assumption
    | with_reducible refine State.Keeps.ite ?_ ?_
    | with_reducible refine State.Keeps.ite_snd ?_ ?_
    | (simp only [State.Keeps.mk_of]; with_reducible refine State.Keeps.core ?_)
    | intro _
    | dsimp only)

theorem State.restoreSnap_keeps  (hs : s0.Keeps s) : s0.Keeps (State.restoreSnap s) := by
  unfold State.restoreSnap
  try dsimp only
  repeat' (first
    | with_reducible assumption
    | with_reducible refine State.Keeps.ite ?_ ?_
    | with_reducible refine State.Keeps.ite_snd ?_ ?_
    | with_reducible apply State.setReg_keeps
    | (simp only [State.Keeps.mk_of]; with_reducible refine State.Keeps.core ?_)
    | with_reducible refine State.Keeps.foldl _ ?_ ?_
    | with_reducible refine State.Keeps.foldl_snd _ ?_ ?_
    | with_reducible refine State.Keeps.getD ?_ ?_
    | intro _
    | dsimp only
    | split)

theorem State.powerRepairs_keeps  (hs : s0.Keeps s) : s0.Keeps (State.powerRepairs s) := by
  unfold State.powerRepairs
  try dsimp only
  repeat' (first
    | with_reducible assumption
    | with_reducible refine State.Keeps.ite ?_ ?_
    | with_reducible apply State.applyCoachOn_keeps
    | with_reducible apply State.startCoaches_keeps
    | (simp only [State.Keeps.mk_of]; with_reducible refine State.Keeps.core ?_)
    | with_reducible refine State.Keeps.foldl _ ?_ ?_
    | with_reducible refine State.Keeps.foldl_snd _ ?_ ?_
    | intro _)

theorem execHoldInForce_keeps {tt : State} (dt : Nat) (ex : execHoldInForce dt s = .next tt) : s.Keeps tt := by
  have hs := State.Keeps.refl s
  unfold execHoldInForce at ex
  try dsimp only at ex
  refine State.Keeps.of_next ex ?_
  clear ex
  repeat' (first
    | with_reducible assumption
    | with_reducible refine State.Keeps.ite ?_ ?_
    | with_reducible apply State.raiseHold_keeps
    | with_reducible apply State.syncPhase_keeps
    | with_reducible apply State.emptyCarts_keeps
    | with_reducible apply State.pass_keeps
    | with_reducible apply State.next_keeps
    | with_reducible apply State.pauseCarts_keeps
    | with_reducible apply State.powerRepairs_keeps
    | (simp only [State.Keeps.mk_of]; with_reducible refine State.Keeps.core ?_)
    | intro _)

theorem execHoldForceEnd_keeps {tt : State} (dt : Nat) (ex : execHoldForceEnd dt s = .next tt) : s.Keeps tt := by
  have hs := State.Keeps.refl s
  unfold execHoldForceEnd at ex
  try dsimp only at ex
  refine State.Keeps.of_next ex ?_
  clear ex
  repeat' (first
    | with_reducible assumption
    | with_reducible refine State.Keeps.ite ?_ ?_
    | with_reducible apply State.syncPhase_keeps
    | with_reducible apply State.pass_keeps
    | with_reducible apply State.next_keeps
    | with_reducible apply State.resumeCarts_keeps
    | (simp only [State.Keeps.mk_of]; with_reducible refine State.Keeps.core ?_)
    | intro _)

theorem State.reloadHeld_keeps (unit : Nat) (hs : s0.Keeps s) : s0.Keeps (State.reloadHeld s unit) := by
  unfold State.reloadHeld
  try dsimp only
  repeat' (first
    | with_reducible assumption
    | with_reducible refine State.Keeps.ite ?_ ?_
    | with_reducible refine State.Keeps.ite_snd ?_ ?_
    | with_reducible apply State.repairFail_keeps
    | with_reducible apply State.reloadRow_keeps
    | (simp only [State.Keeps.mk_of]; with_reducible refine State.Keeps.core ?_)
    | with_reducible refine State.Keeps.foldl _ ?_ ?_
    | with_reducible refine State.Keeps.foldl_snd _ ?_ ?_
    | intro _
    | dsimp only)

theorem execHoldDataComplete_keeps {tt : State} (dt id : Nat) (ex : execHoldDataComplete dt id s = .next tt) : s.Keeps tt := by
  have hs := State.Keeps.refl s
  unfold execHoldDataComplete at ex
  try dsimp only at ex
  refine State.Keeps.of_next ex ?_
  clear ex
  repeat' (first
    | with_reducible assumption
    | with_reducible refine State.Keeps.ite ?_ ?_
    | with_reducible apply State.withdrawHolds_keeps
    | with_reducible apply State.emptyCarts_keeps
    | with_reducible apply State.dropPackets_keeps
    | with_reducible apply State.pass_keeps
    | with_reducible apply State.next_keeps
    | with_reducible apply State.reloadHeld_keeps
    | (simp only [State.Keeps.mk_of]; with_reducible refine State.Keeps.core ?_)
    | intro _
    | split)

theorem State.applyJob_keeps (j : RepJob) (hs : s0.Keeps s) : s0.Keeps (State.applyJob s j) := by
  unfold State.applyJob
  try dsimp only
  repeat' (first
    | with_reducible assumption
    | with_reducible refine State.Keeps.ite ?_ ?_
    | with_reducible apply State.moveTile_keeps
    | (simp only [State.Keeps.mk_of]; with_reducible refine State.Keeps.core ?_)
    | intro _)

theorem State.applyJobs_keeps (js : List RepJob) (hs : s0.Keeps s) : s0.Keeps (State.applyJobs s js) := by
  unfold State.applyJobs
  try dsimp only
  repeat' (first
    | with_reducible assumption
    | with_reducible refine State.Keeps.ite ?_ ?_
    | with_reducible apply State.syncReserves_keeps
    | with_reducible apply State.loadRoutes_keeps
    | with_reducible apply State.place_keeps
    | with_reducible apply State.applyJob_keeps
    | (simp only [State.Keeps.mk_of]; with_reducible refine State.Keeps.core ?_)
    | with_reducible refine State.Keeps.foldl _ ?_ ?_
    | with_reducible refine State.Keeps.foldl_snd _ ?_ ?_
    | intro _
    | dsimp only
    | split)

theorem State.freshAttempt_keeps  (hs : s0.Keeps s) : s0.Keeps (State.freshAttempt s) := by
  unfold State.freshAttempt
  try dsimp only
  repeat' (first
    | with_reducible assumption
    | with_reducible refine State.Keeps.ite ?_ ?_
    | with_reducible apply State.issued_keeps
    | with_reducible apply State.arrived_keeps
    | (simp only [State.Keeps.mk_of]; with_reducible refine State.Keeps.core ?_)
    | intro _
    | dsimp only)

theorem execRerunPoint_keeps {tt : State} (dt : Nat) (ex : execRerunPoint dt s = .next tt) : s.Keeps tt := by
  have hs := State.Keeps.refl s
  unfold execRerunPoint at ex
  try dsimp only at ex
  refine State.Keeps.of_next ex ?_
  clear ex
  repeat' (first
    | with_reducible assumption
    | with_reducible refine State.Keeps.ite ?_ ?_
    | with_reducible apply State.inc_keeps
    | with_reducible apply State.syncPhase_keeps
    | with_reducible apply State.setServ_keeps
    | with_reducible apply State.syncReserves_keeps
    | with_reducible apply State.pass_keeps
    | with_reducible apply State.next_keeps
    | with_reducible apply State.arrived_keeps
    | with_reducible apply State.applyStopped_keeps
    | with_reducible apply State.abandonRound_keeps
    | with_reducible apply State.endLong_keeps
    | with_reducible apply State.restoreSnap_keeps
    | with_reducible apply State.applyJobs_keeps
    | with_reducible apply State.freshAttempt_keeps
    | (simp only [State.Keeps.mk_of]; with_reducible refine State.Keeps.core ?_)
    | with_reducible refine State.Keeps.foldl _ ?_ ?_
    | with_reducible refine State.Keeps.foldl_snd _ ?_ ?_
    | intro _
    | dsimp only)

theorem State.updJob_keeps (key : Nat) (f : RepJob → RepJob) (hs : s0.Keeps s) : s0.Keeps (State.updJob s key f) := by
  unfold State.updJob
  try dsimp only
  repeat' (first
    | with_reducible assumption
    | with_reducible refine State.Keeps.ite ?_ ?_
    | (simp only [State.Keeps.mk_of]; with_reducible refine State.Keeps.core ?_)
    | intro _)

theorem execRepairCopyPartComplete_keeps {tt : State} (dt key : Nat) (ex : execRepairCopyPartComplete dt key s = .next tt) : s.Keeps tt := by
  have hs := State.Keeps.refl s
  unfold execRepairCopyPartComplete at ex
  try dsimp only at ex
  refine State.Keeps.of_next ex ?_
  clear ex
  repeat' (first
    | with_reducible assumption
    | with_reducible refine State.Keeps.ite ?_ ?_
    | with_reducible apply State.raiseHold_keeps
    | with_reducible apply State.withdrawHolds_keeps
    | with_reducible apply State.repairFail_keeps
    | with_reducible apply State.copySlice_keeps
    | with_reducible apply State.pass_keeps
    | with_reducible apply State.next_keeps
    | with_reducible apply State.updJob_keeps
    | (simp only [State.Keeps.mk_of]; with_reducible refine State.Keeps.core ?_)
    | intro _
    | dsimp only
    | split)

theorem State.escalateReload_keeps (n : Nat) (hs : s0.Keeps s) : s0.Keeps (State.escalateReload s n) := by
  unfold State.escalateReload
  try dsimp only
  repeat' (first
    | with_reducible assumption
    | with_reducible refine State.Keeps.ite ?_ ?_
    | with_reducible apply State.withdrawHolds_keeps
    | with_reducible apply State.loseTile_keeps
    | (simp only [State.Keeps.mk_of]; with_reducible refine State.Keeps.core ?_)
    | intro _)

theorem execRepairCopyEscalate_keeps {tt : State} (dt : Nat) (key : CopyFailure) (ex : execRepairCopyEscalate dt key s = .next tt) : s.Keeps tt := by
  have hs := State.Keeps.refl s
  unfold execRepairCopyEscalate at ex
  try dsimp only at ex
  refine State.Keeps.of_next ex ?_
  clear ex
  repeat' (first
    | with_reducible assumption
    | with_reducible refine State.Keeps.ite ?_ ?_
    | with_reducible apply State.escalate_keeps
    | with_reducible apply State.pass_keeps
    | with_reducible apply State.next_keeps
    | with_reducible apply State.escalateReload_keeps
    | (simp only [State.Keeps.mk_of]; with_reducible refine State.Keeps.core ?_)
    | intro _
    | split)

theorem execRefillComplete_keeps {tt : State} (dt key : Nat) (l : List (Nat × List Byte)) (ex : execRefillComplete dt key l s = .next tt) : s.Keeps tt := by
  have hs := State.Keeps.refl s
  unfold execRefillComplete at ex
  try dsimp only at ex
  refine State.Keeps.of_next ex ?_
  clear ex
  repeat' (first
    | with_reducible assumption
    | with_reducible refine State.Keeps.ite ?_ ?_
    | with_reducible refine State.Keeps.ite_snd ?_ ?_
    | with_reducible apply State.copyTables_keeps
    | with_reducible apply State.writeSpad_keeps
    | with_reducible apply State.pass_keeps
    | with_reducible apply State.next_keeps
    | with_reducible apply State.updJob_keeps
    | (simp only [State.Keeps.mk_of]; with_reducible refine State.Keeps.core ?_)
    | with_reducible refine State.Keeps.foldl _ ?_ ?_
    | with_reducible refine State.Keeps.foldl_snd _ ?_ ?_
    | intro _
    | dsimp only
    | split)

theorem State.startAdvance_keeps  (hs : s0.Keeps s) : s0.Keeps (State.startAdvance s) := by
  unfold State.startAdvance
  try dsimp only
  repeat' (first
    | with_reducible assumption
    | with_reducible refine State.Keeps.ite ?_ ?_
    | with_reducible apply State.set_keeps
    | with_reducible apply State.addDefect_keeps
    | with_reducible apply State.noteRepair_keeps
    | with_reducible apply State.loseTile_keeps
    | (simp only [State.Keeps.mk_of]; with_reducible refine State.Keeps.core ?_)
    | intro _
    | dsimp only
    | split)

theorem execAdvanceCopyComplete_keeps {tt : State} (dt : Nat) (ex : execAdvanceCopyComplete dt s = .next tt) : s.Keeps tt := by
  have hs := State.Keeps.refl s
  unfold execAdvanceCopyComplete at ex
  try dsimp only at ex
  refine State.Keeps.of_next ex ?_
  clear ex
  repeat' (first
    | with_reducible assumption
    | with_reducible refine State.Keeps.ite ?_ ?_
    | with_reducible apply State.repairFail_keeps
    | with_reducible apply State.copySlice_keeps
    | with_reducible apply State.pass_keeps
    | with_reducible apply State.next_keeps
    | (simp only [State.Keeps.mk_of]; with_reducible refine State.Keeps.core ?_)
    | intro _
    | dsimp only
    | split)

theorem State.finishAdvance_keeps  (hs : s0.Keeps s) : s0.Keeps (State.finishAdvance s) := by
  unfold State.finishAdvance
  try dsimp only
  repeat' (first
    | with_reducible assumption
    | with_reducible refine State.Keeps.ite ?_ ?_
    | with_reducible apply State.inc_keeps
    | with_reducible apply State.raise_keeps
    | with_reducible apply State.startJob_keeps
    | with_reducible apply State.loseTile_keeps
    | (simp only [State.Keeps.mk_of]; with_reducible refine State.Keeps.core ?_)
    | intro _
    | dsimp only
    | split)

theorem execHeartbeatMissing_keeps {tt : State} (dt n : Nat) (ex : execHeartbeatMissing dt n s = .next tt) : s.Keeps tt := by
  have hs := State.Keeps.refl s
  unfold execHeartbeatMissing at ex
  try dsimp only at ex
  refine State.Keeps.of_next ex ?_
  clear ex
  repeat' (first
    | with_reducible assumption
    | with_reducible refine State.Keeps.ite ?_ ?_
    | with_reducible apply State.set_keeps
    | with_reducible apply State.addDefect_keeps
    | with_reducible apply State.loseTile_keeps
    | with_reducible apply State.escalate_keeps
    | with_reducible apply State.pass_keeps
    | with_reducible apply State.next_keeps
    | (simp only [State.Keeps.mk_of]; with_reducible refine State.Keeps.core ?_)
    | intro _
    | dsimp only
    | split)

theorem State.loseTowerData_keeps (t : Nat) (bad : Nat → Bool) (hs : s0.Keeps s) : s0.Keeps (State.loseTowerData s t bad) := by
  unfold State.loseTowerData
  try dsimp only
  repeat' (first
    | with_reducible assumption
    | with_reducible refine State.Keeps.ite ?_ ?_
    | with_reducible apply State.setServ_keeps
    | with_reducible apply State.syncNodes_keeps
    | with_reducible apply State.loseSequences_keeps
    | (simp only [State.Keeps.mk_of]; with_reducible refine State.Keeps.core ?_)
    | with_reducible refine State.Keeps.getD ?_ ?_
    | intro _
    | dsimp only
    | split)

theorem State.failTower_keeps (t : Nat) (hs : s0.Keeps s) : s0.Keeps (State.failTower s t) := by
  unfold State.failTower
  try dsimp only
  repeat' (first
    | with_reducible assumption
    | with_reducible refine State.Keeps.ite ?_ ?_
    | with_reducible apply State.set_keeps
    | with_reducible apply State.raise_keeps
    | with_reducible apply State.setServ_keeps
    | with_reducible apply State.addDefect_keeps
    | with_reducible apply State.loseTowerData_keeps
    | (simp only [State.Keeps.mk_of]; with_reducible refine State.Keeps.core ?_)
    | intro _
    | dsimp only
    | split)

theorem State.replaceChannel_keeps (t ch : Nat) (hs : s0.Keeps s) : s0.Keeps (State.replaceChannel s t ch) := by
  unfold State.replaceChannel
  try dsimp only
  repeat' (first
    | with_reducible assumption
    | with_reducible refine State.Keeps.ite ?_ ?_
    | with_reducible apply State.set_keeps
    | with_reducible apply State.setFlag_keeps
    | with_reducible apply State.raise_keeps
    | with_reducible apply State.addDefect_keeps
    | with_reducible apply State.noteRepair_keeps
    | (simp only [State.Keeps.mk_of]; with_reducible refine State.Keeps.core ?_)
    | intro _
    | dsimp only)

theorem execTowerChannelFailing_keeps {tt : State} (dt t : Nat) (ch : ChannelFailure) (ex : execTowerChannelFailing dt t ch s = .next tt) : s.Keeps tt := by
  have hs := State.Keeps.refl s
  unfold execTowerChannelFailing at ex
  try dsimp only at ex
  refine State.Keeps.of_next ex ?_
  clear ex
  repeat' (first
    | with_reducible assumption
    | with_reducible refine State.Keeps.ite ?_ ?_
    | with_reducible apply State.pass_keeps
    | with_reducible apply State.next_keeps
    | with_reducible apply State.failTower_keeps
    | with_reducible apply State.replaceChannel_keeps
    | (simp only [State.Keeps.mk_of]; with_reducible refine State.Keeps.core ?_)
    | intro _
    | dsimp only)

theorem State.endRestore_keeps (t ch : Nat) (bad : List Nat) (hs : s0.Keeps s) : s0.Keeps (State.endRestore s t ch bad) := by
  unfold State.endRestore
  try dsimp only
  repeat' (first
    | with_reducible assumption
    | with_reducible refine State.Keeps.ite ?_ ?_
    | with_reducible apply State.set_keeps
    | with_reducible apply State.repairFail_keeps
    | with_reducible apply State.loseTowerData_keeps
    | (simp only [State.Keeps.mk_of]; with_reducible refine State.Keeps.core ?_)
    | intro _
    | dsimp only)

theorem execChannelRestoreComplete_keeps {tt : State} (dt t ch : Nat) (bad : List Nat) (ex : execChannelRestoreComplete dt t ch bad s = .next tt) : s.Keeps tt := by
  have hs := State.Keeps.refl s
  unfold execChannelRestoreComplete at ex
  try dsimp only at ex
  refine State.Keeps.of_next ex ?_
  clear ex
  repeat' (first
    | with_reducible assumption
    | with_reducible refine State.Keeps.ite ?_ ?_
    | with_reducible apply State.pass_keeps
    | with_reducible apply State.next_keeps
    | with_reducible apply State.endRestore_keeps
    | (simp only [State.Keeps.mk_of]; with_reducible refine State.Keeps.core ?_)
    | intro _
    | dsimp only
    | split)

theorem State.syncWatchers_keeps  (hs : s0.Keeps s) : s0.Keeps (State.syncWatchers s) := by
  unfold State.syncWatchers
  try dsimp only
  repeat' (first
    | with_reducible assumption
    | with_reducible refine State.Keeps.ite ?_ ?_
    | with_reducible apply State.set_keeps
    | (simp only [State.Keeps.mk_of]; with_reducible refine State.Keeps.core ?_)
    | with_reducible refine State.Keeps.foldl _ ?_ ?_
    | with_reducible refine State.Keeps.foldl_snd _ ?_ ?_
    | with_reducible refine State.Keeps.getD ?_ ?_
    | intro _
    | dsimp only)

theorem State.moveSources_keeps (g : Nat) (hs : s0.Keeps s) : s0.Keeps (State.moveSources s g) := by
  unfold State.moveSources
  try dsimp only
  repeat' (first
    | with_reducible assumption
    | with_reducible refine State.Keeps.ite ?_ ?_
    | with_reducible refine State.Keeps.ite_snd ?_ ?_
    | with_reducible apply State.set_keeps
    | with_reducible apply State.setFlag_keeps
    | (simp only [State.Keeps.mk_of]; with_reducible refine State.Keeps.core ?_)
    | with_reducible refine State.Keeps.foldl _ ?_ ?_
    | with_reducible refine State.Keeps.foldl_snd _ ?_ ?_
    | intro _
    | dsimp only)

theorem execWatchdogExpiry_keeps {tt : State} (dt g : Nat) (ex : execWatchdogExpiry dt g s = .next tt) : s.Keeps tt := by
  have hs := State.Keeps.refl s
  unfold execWatchdogExpiry at ex
  try dsimp only at ex
  refine State.Keeps.of_next ex ?_
  clear ex
  repeat' (first
    | with_reducible assumption
    | with_reducible refine State.Keeps.ite ?_ ?_
    | with_reducible apply State.set_keeps
    | with_reducible apply State.inc_keeps
    | with_reducible apply State.raiseHead_keeps
    | with_reducible apply State.addDefect_keeps
    | with_reducible apply State.pass_keeps
    | with_reducible apply State.next_keeps
    | with_reducible apply State.syncWatchers_keeps
    | with_reducible apply State.moveSources_keeps
    | (simp only [State.Keeps.mk_of]; with_reducible refine State.Keeps.core ?_)
    | with_reducible refine State.Keeps.getD ?_ ?_
    | intro _
    | refine State.take_keeps (by assumption) ?_)

theorem execWatchdogRestart_keeps {tt : State} (dt g : Nat) (ex : execWatchdogRestart dt g s = .next tt) : s.Keeps tt := by
  have hs := State.Keeps.refl s
  unfold execWatchdogRestart at ex
  try dsimp only at ex
  refine State.Keeps.of_next ex ?_
  clear ex
  repeat' (first
    | with_reducible assumption
    | with_reducible refine State.Keeps.ite ?_ ?_
    | with_reducible apply State.pass_keeps
    | with_reducible apply State.next_keeps
    | (simp only [State.Keeps.mk_of]; with_reducible refine State.Keeps.core ?_)
    | intro _
    | split)

theorem State.guardRuns_keeps (g from_ : Nat) (hs : s0.Keeps s) : s0.Keeps (State.guardRuns s g from_) := by
  unfold State.guardRuns
  try dsimp only
  repeat' (first
    | with_reducible assumption
    | with_reducible refine State.Keeps.ite ?_ ?_
    | with_reducible apply State.set_keeps
    | with_reducible apply State.syncWatchers_keeps
    | (simp only [State.Keeps.mk_of]; with_reducible refine State.Keeps.core ?_)
    | intro _)

theorem execGuardReportsRunning_keeps {tt : State} (dt g : Nat) (ex : execGuardReportsRunning dt g s = .next tt) : s.Keeps tt := by
  have hs := State.Keeps.refl s
  unfold execGuardReportsRunning at ex
  try dsimp only at ex
  refine State.Keeps.of_next ex ?_
  clear ex
  repeat' (first
    | with_reducible assumption
    | with_reducible refine State.Keeps.ite ?_ ?_
    | with_reducible apply State.pass_keeps
    | with_reducible apply State.next_keeps
    | with_reducible apply State.guardRuns_keeps
    | (simp only [State.Keeps.mk_of]; with_reducible refine State.Keeps.core ?_)
    | intro _
    | split)

theorem execGuardAsleep_keeps {tt : State} (dt g : Nat) (ex : execGuardAsleep dt g s = .next tt) : s.Keeps tt := by
  have hs := State.Keeps.refl s
  unfold execGuardAsleep at ex
  try dsimp only at ex
  refine State.Keeps.of_next ex ?_
  clear ex
  repeat' (first
    | with_reducible assumption
    | with_reducible refine State.Keeps.ite ?_ ?_
    | with_reducible apply State.set_keeps
    | with_reducible apply State.pass_keeps
    | with_reducible apply State.next_keeps
    | (simp only [State.Keeps.mk_of]; with_reducible refine State.Keeps.core ?_)
    | intro _
    | split)

theorem execGuardWakes_keeps {tt : State} (dt g : Nat) (ex : execGuardWakes dt g s = .next tt) : s.Keeps tt := by
  have hs := State.Keeps.refl s
  unfold execGuardWakes at ex
  try dsimp only at ex
  refine State.Keeps.of_next ex ?_
  clear ex
  repeat' (first
    | with_reducible assumption
    | with_reducible refine State.Keeps.ite ?_ ?_
    | with_reducible apply State.pass_keeps
    | with_reducible apply State.next_keeps
    | with_reducible apply State.guardRuns_keeps
    | (simp only [State.Keeps.mk_of]; with_reducible refine State.Keeps.core ?_)
    | intro _
    | split)

/-! ### Machine/Load.lean -/

theorem State.wipeFor_keeps (keep : List Nat) (hs : s0.Keeps s) : s0.Keeps (State.wipeFor s keep) := by
  unfold State.wipeFor
  try dsimp only
  repeat' (first
    | with_reducible assumption
    | with_reducible refine State.Keeps.ite ?_ ?_
    | (simp only [State.Keeps.mk_of]; with_reducible refine State.Keeps.core ?_)
    | (simp only [State.Keeps.mk_of]; with_reducible refine State.Keeps.core_mem _ ?_)
    | (simp only [State.Keeps.mk_of]; with_reducible refine State.Keeps.core_bytes _ _ ?_)
    | intro _
    | dsimp only
    | split
    | refine State.Keeps.of_snd (by assumption) ?_)

theorem State.countImport_keeps (w : WDesc) (hs : s0.Keeps s) : s0.Keeps (State.countImport s w) := by
  unfold State.countImport
  try dsimp only
  repeat' (first
    | with_reducible assumption
    | with_reducible refine State.Keeps.ite ?_ ?_
    | with_reducible apply State.inc_keeps
    | (simp only [State.Keeps.mk_of]; with_reducible refine State.Keeps.core ?_)
    | intro _
    | dsimp only
    | split
    | refine State.Keeps.of_snd (by assumption) ?_)

theorem State.loadSection_keeps (keep : List Nat) (keepShadow : Bool) (i : Image) (w : WDesc) (hs : s0.Keeps s) : s0.Keeps (State.loadSection s keep keepShadow i w) := by
  unfold State.loadSection
  try dsimp only
  repeat' (first
    | with_reducible assumption
    | with_reducible refine State.Keeps.ite ?_ ?_
    | with_reducible apply State.wrBytes_keeps
    | with_reducible apply State.putFormat_keeps
    | with_reducible apply State.putWords_keeps
    | with_reducible apply State.putTable_keeps
    | with_reducible apply State.place_keeps
    | with_reducible apply State.countImport_keeps
    | (simp only [State.Keeps.mk_of]; with_reducible refine State.Keeps.core ?_)
    | intro _
    | dsimp only
    | split
    | refine State.Keeps.of_snd (by assumption) ?_)

theorem State.loadFormats_keeps (i : Image) (hs : s0.Keeps s) : s0.Keeps (State.loadFormats s i) := by
  unfold State.loadFormats
  try dsimp only
  repeat' (first
    | with_reducible assumption
    | with_reducible refine State.Keeps.ite ?_ ?_
    | with_reducible refine State.Keeps.ite_snd ?_ ?_
    | with_reducible apply State.set_keeps
    | with_reducible apply State.setReg_keeps
    | with_reducible apply State.dropBanks_keeps
    | (simp only [State.Keeps.mk_of]; with_reducible refine State.Keeps.core ?_)
    | with_reducible refine State.Keeps.foldl _ ?_ ?_
    | with_reducible refine State.Keeps.foldl_snd _ ?_ ?_
    | intro _
    | dsimp only
    | split)

theorem State.loadAdapters_keeps (i : Image) (hs : s0.Keeps s) : s0.Keeps (State.loadAdapters s i) := by
  unfold State.loadAdapters
  try dsimp only
  repeat' (first
    | with_reducible assumption
    | with_reducible refine State.Keeps.ite ?_ ?_
    | with_reducible apply State.set_keeps
    | with_reducible apply State.dropBanks_keeps
    | (simp only [State.Keeps.mk_of]; with_reducible refine State.Keeps.core ?_)
    | with_reducible refine State.Keeps.foldl _ ?_ ?_
    | with_reducible refine State.Keeps.foldl_snd _ ?_ ?_
    | intro _
    | dsimp only
    | split
    | refine State.Keeps.of_snd (by assumption) ?_)

theorem State.loadTiles_keeps (i : Image) (hs : s0.Keeps s) : s0.Keeps (State.loadTiles s i) := by
  unfold State.loadTiles
  try dsimp only
  repeat' (first
    | with_reducible assumption
    | with_reducible refine State.Keeps.ite ?_ ?_
    | with_reducible refine State.Keeps.ite_snd ?_ ?_
    | with_reducible apply State.set_keeps
    | with_reducible apply State.setReg_keeps
    | with_reducible apply State.loadTileRegs_keeps
    | with_reducible apply State.loadRoutes_keeps
    | with_reducible apply State.activate_keeps
    | with_reducible apply State.place_keeps
    | (simp only [State.Keeps.mk_of]; with_reducible refine State.Keeps.core ?_)
    | with_reducible refine State.Keeps.foldl _ ?_ ?_
    | with_reducible refine State.Keeps.foldl_snd _ ?_ ?_
    | intro _
    | dsimp only)

theorem State.loadServing_keeps  (hs : s0.Keeps s) : s0.Keeps (State.loadServing s) := by
  unfold State.loadServing
  try dsimp only
  repeat' (first
    | with_reducible assumption
    | with_reducible refine State.Keeps.ite ?_ ?_
    | with_reducible apply State.set_keeps
    | with_reducible apply State.setServ_keeps
    | with_reducible apply State.syncNodes_keeps
    | (simp only [State.Keeps.mk_of]; with_reducible refine State.Keeps.core ?_)
    | intro _
    | dsimp only
    | refine State.Keeps.of_snd (by assumption) ?_)

theorem State.beginInstall_keeps (i : Image) (pl : Sparse Nat) (hs : s0.Keeps s) : s0.Keeps (State.beginInstall s i pl).2 := by
  unfold State.beginInstall
  try dsimp only
  repeat' (first
    | with_reducible assumption
    | with_reducible refine State.Keeps.ite ?_ ?_
    | with_reducible refine State.Keeps.ite_snd ?_ ?_
    | with_reducible apply State.setMark_keeps
    | with_reducible apply State.place_keeps
    | with_reducible apply State.wipeFor_keeps
    | (simp only [State.Keeps.mk_of]; with_reducible refine State.Keeps.core ?_)
    | with_reducible refine State.Keeps.foldl _ ?_ ?_
    | with_reducible refine State.Keeps.foldl_snd _ ?_ ?_
    | intro _
    | dsimp only
    | refine State.Keeps.of_snd (by assumption) ?_)

theorem State.loadDrafts_keeps (i : Image) (draft : Nat) (hs : s0.Keeps s) : s0.Keeps (State.loadDrafts s i draft) := by
  unfold State.loadDrafts
  try dsimp only
  repeat' (first
    | with_reducible assumption
    | with_reducible refine State.Keeps.ite ?_ ?_
    | with_reducible refine State.Keeps.ite_snd ?_ ?_
    | with_reducible apply State.loadSection_keeps
    | (simp only [State.Keeps.mk_of]; with_reducible refine State.Keeps.core ?_)
    | with_reducible refine State.Keeps.foldl _ ?_ ?_
    | with_reducible refine State.Keeps.foldl_snd _ ?_ ?_
    | intro _
    | dsimp only
    | split)

theorem State.finishInstall_keeps (i : Image) (draft : Nat) (hs : s0.Keeps s) : s0.Keeps (State.finishInstall s i draft) := by
  unfold State.finishInstall
  try dsimp only
  repeat' (first
    | with_reducible assumption
    | with_reducible refine State.Keeps.ite ?_ ?_
    | with_reducible apply State.set_keeps
    | with_reducible apply State.setFlag_keeps
    | with_reducible apply State.updLink_keeps
    | with_reducible apply State.setMark_keeps
    | with_reducible apply State.syncReserves_keeps
    | with_reducible apply State.setImageState_keeps
    | with_reducible apply State.syncConfig_keeps
    | with_reducible apply State.issued_keeps
    | with_reducible apply State.arrived_keeps
    | with_reducible apply State.place_keeps
    | with_reducible apply State.loadFormats_keeps
    | with_reducible apply State.loadAdapters_keeps
    | with_reducible apply State.loadTiles_keeps
    | with_reducible apply State.loadServing_keeps
    | with_reducible apply State.loadDrafts_keeps
    | (simp only [State.Keeps.mk_of]; with_reducible refine State.Keeps.core ?_)
    | with_reducible refine State.Keeps.foldl _ ?_ ?_
    | with_reducible refine State.Keeps.foldl_snd _ ?_ ?_
    | intro _
    | dsimp only
    | refine State.Keeps.of_snd (by assumption) ?_)

theorem State.broadcast_keeps (i : Image) (hs : s0.Keeps s) : s0.Keeps (State.broadcast s i) := by
  unfold State.broadcast
  try dsimp only
  repeat' (first
    | with_reducible assumption
    | with_reducible refine State.Keeps.ite ?_ ?_
    | with_reducible refine State.Keeps.ite_snd ?_ ?_
    | with_reducible apply State.sendTx_keeps
    | with_reducible apply State.place_keeps
    | (simp only [State.Keeps.mk_of]; with_reducible refine State.Keeps.core ?_)
    | with_reducible refine State.Keeps.foldl _ ?_ ?_
    | with_reducible refine State.Keeps.foldl_snd _ ?_ ?_
    | intro _
    | dsimp only
    | split
    | refine State.Keeps.of_snd (by assumption) ?_)

theorem State.install_keeps (i : Image) (send : Bool) (hs : s0.Keeps s) : s0.Keeps (State.install s i send) := by
  unfold State.install
  try dsimp only
  repeat' (first
    | with_reducible assumption
    | with_reducible refine State.Keeps.ite ?_ ?_
    | with_reducible refine State.Keeps.ite_snd ?_ ?_
    | with_reducible apply State.send_keeps
    | with_reducible apply State.loadSection_keeps
    | with_reducible apply State.beginInstall_keeps
    | with_reducible apply State.finishInstall_keeps
    | with_reducible apply State.broadcast_keeps
    | (simp only [State.Keeps.mk_of]; with_reducible refine State.Keeps.core ?_)
    | with_reducible refine State.Keeps.foldl _ ?_ ?_
    | with_reducible refine State.Keeps.foldl_snd _ ?_ ?_
    | intro _
    | dsimp only
    | split
    | refine State.Keeps.of_snd (by assumption) ?_)

theorem State.countBefore_keeps (i : Image) (pos : Nat) (hs : s0.Keeps s) : s0.Keeps (State.countBefore s i pos) := by
  unfold State.countBefore
  try dsimp only
  repeat' (first
    | with_reducible assumption
    | with_reducible refine State.Keeps.ite ?_ ?_
    | with_reducible apply State.countImport_keeps
    | (simp only [State.Keeps.mk_of]; with_reducible refine State.Keeps.core ?_)
    | with_reducible refine State.Keeps.foldl _ ?_ ?_
    | with_reducible refine State.Keeps.foldl_snd _ ?_ ?_
    | intro _)

theorem State.loseLoad_keeps (i : Image) (got code : Nat) (hs : s0.Keeps s) : s0.Keeps (State.loseLoad s i got code) := by
  unfold State.loseLoad
  try dsimp only
  repeat' (first
    | with_reducible assumption
    | with_reducible refine State.Keeps.ite ?_ ?_
    | with_reducible apply State.set_keeps
    | with_reducible apply State.loseRoof_keeps
    | with_reducible apply State.unloadImage_keeps
    | (simp only [State.Keeps.mk_of]; with_reducible refine State.Keeps.core ?_)
    | with_reducible refine State.Keeps.foldl _ ?_ ?_
    | with_reducible refine State.Keeps.foldl_snd _ ?_ ?_
    | intro _
    | dsimp only
    | refine State.Keeps.of_snd (by assumption) ?_)

theorem State.endRefused_keeps (code : Nat) (hs : s0.Keeps s) : s0.Keeps (State.endRefused s code) := by
  unfold State.endRefused
  try dsimp only
  repeat' (first
    | with_reducible assumption
    | with_reducible refine State.Keeps.ite ?_ ?_
    | with_reducible apply State.endLong_keeps
    | (simp only [State.Keeps.mk_of]; with_reducible refine State.Keeps.core ?_)
    | intro _)

theorem State.leaveShutdown_keeps  (hs : s0.Keeps s) : s0.Keeps (State.leaveShutdown s) := by
  unfold State.leaveShutdown
  try dsimp only
  repeat' (first
    | with_reducible assumption
    | with_reducible refine State.Keeps.ite ?_ ?_
    | with_reducible apply State.set_keeps
    | with_reducible apply State.leaveHold_keeps
    | (simp only [State.Keeps.mk_of]; with_reducible refine State.Keeps.core ?_)
    | intro _)

theorem State.loadWhole_keeps (i : Image) (send : Bool) (hs : s0.Keeps s) : s0.Keeps (State.loadWhole s i send) := by
  unfold State.loadWhole
  try dsimp only
  repeat' (first
    | with_reducible assumption
    | with_reducible refine State.Keeps.ite ?_ ?_
    | with_reducible apply State.send_keeps
    | with_reducible apply State.endLong_keeps
    | with_reducible apply State.install_keeps
    | with_reducible apply State.countBefore_keeps
    | with_reducible apply State.loseLoad_keeps
    | with_reducible apply State.endRefused_keeps
    | (simp only [State.Keeps.mk_of]; with_reducible refine State.Keeps.core ?_)
    | intro _
    | split)

theorem State.loadFromPeer_keeps (i : Image) (hs : s0.Keeps s) : s0.Keeps (State.loadFromPeer s i) := by
  unfold State.loadFromPeer
  try dsimp only
  repeat' (first
    | with_reducible assumption
    | with_reducible refine State.Keeps.ite ?_ ?_
    | with_reducible refine State.Keeps.ite_snd ?_ ?_
    | with_reducible apply State.putFormat_keeps
    | with_reducible apply State.beginInstall_keeps
    | with_reducible apply State.loseLoad_keeps
    | with_reducible apply State.endRefused_keeps
    | (simp only [State.Keeps.mk_of]; with_reducible refine State.Keeps.core ?_)
    | with_reducible refine State.Keeps.foldl _ ?_ ?_
    | with_reducible refine State.Keeps.foldl_snd _ ?_ ?_
    | intro _
    | dsimp only
    | split
    | refine State.Keeps.of_snd (by assumption) ?_)

theorem execImageLoad_keeps {tt : State} (dt cmd source : Nat) (bcast : Bool) (i : Image) (ex : execImageLoad dt cmd source bcast i s = .next tt) : s.Keeps tt := by
  have hs := State.Keeps.refl s
  unfold execImageLoad at ex
  try dsimp only at ex
  refine State.Keeps.of_next ex ?_
  clear ex
  repeat' (first
    | with_reducible assumption
    | with_reducible refine State.Keeps.ite ?_ ?_
    | with_reducible apply State.set_keeps
    | with_reducible apply State.setReg_keeps
    | with_reducible apply State.respond_keeps
    | with_reducible apply State.setImageState_keeps
    | with_reducible apply State.unloadImage_keeps
    | with_reducible apply State.pass_keeps
    | with_reducible apply State.next_keeps
    | with_reducible apply State.command_keeps
    | with_reducible apply State.startLong_keeps
    | with_reducible apply State.leaveShutdown_keeps
    | with_reducible apply State.loadWhole_keeps
    | with_reducible apply State.loadFromPeer_keeps
    | (simp only [State.Keeps.mk_of]; with_reducible refine State.Keeps.core ?_)
    | intro _
    | split)

theorem execSectionWrite_keeps {tt : State} (dt k : Nat) (x : Tx) (ex : execSectionWrite dt k x s = .next tt) : s.Keeps tt := by
  have hs := State.Keeps.refl s
  unfold execSectionWrite at ex
  try dsimp only at ex
  refine State.Keeps.of_next ex ?_
  clear ex
  repeat' (first
    | with_reducible assumption
    | with_reducible refine State.Keeps.ite ?_ ?_
    | with_reducible apply State.sendTx_keeps
    | with_reducible apply State.pass_keeps
    | with_reducible apply State.next_keeps
    | with_reducible apply State.txIn_keeps
    | with_reducible apply State.putSection_keeps
    | with_reducible apply State.endLong_keeps
    | with_reducible apply State.finishInstall_keeps
    | (simp only [State.Keeps.mk_of]; with_reducible refine State.Keeps.core ?_)
    | with_reducible refine State.Keeps.foldl _ ?_ ?_
    | with_reducible refine State.Keeps.foldl_snd _ ?_ ?_
    | intro _
    | dsimp only
    | split
    | refine State.Keeps.of_snd (by assumption) ?_)

theorem execModelStage_keeps {tt : State} (dt cmd : Nat) (i : Image) (ex : execModelStage dt cmd i s = .next tt) : s.Keeps tt := by
  have hs := State.Keeps.refl s
  unfold execModelStage at ex
  try dsimp only at ex
  refine State.Keeps.of_next ex ?_
  clear ex
  repeat' (first
    | with_reducible assumption
    | with_reducible refine State.Keeps.ite ?_ ?_
    | with_reducible apply State.set_keeps
    | with_reducible apply State.setReg_keeps
    | with_reducible apply State.respond_keeps
    | with_reducible apply State.pass_keeps
    | with_reducible apply State.next_keeps
    | with_reducible apply State.command_keeps
    | with_reducible apply State.startLong_keeps
    | (simp only [State.Keeps.mk_of]; with_reducible refine State.Keeps.core ?_)
    | intro _
    | split)

theorem State.stageHalf_keeps (j : Image) (h : Nat) (hs : s0.Keeps s) : s0.Keeps (State.stageHalf s j h) := by
  unfold State.stageHalf
  try dsimp only
  repeat' (first
    | with_reducible assumption
    | with_reducible refine State.Keeps.ite ?_ ?_
    | with_reducible refine State.Keeps.ite_snd ?_ ?_
    | with_reducible apply State.set_keeps
    | with_reducible apply State.loadSection_keeps
    | (simp only [State.Keeps.mk_of]; with_reducible refine State.Keeps.core ?_)
    | with_reducible refine State.Keeps.foldl _ ?_ ?_
    | with_reducible refine State.Keeps.foldl_snd _ ?_ ?_
    | intro _
    | dsimp only
    | split
    | refine State.Keeps.of_snd (by assumption) ?_)

theorem State.refuseStage_keeps (j : Image) (f : Check) (hs : s0.Keeps s) : s0.Keeps (State.refuseStage s j f) := by
  unfold State.refuseStage
  try dsimp only
  repeat' (first
    | with_reducible assumption
    | with_reducible refine State.Keeps.ite ?_ ?_
    | with_reducible apply State.setMark_keeps
    | with_reducible apply State.countBefore_keeps
    | (simp only [State.Keeps.mk_of]; with_reducible refine State.Keeps.core ?_)
    | with_reducible refine State.Keeps.foldl _ ?_ ?_
    | with_reducible refine State.Keeps.foldl_snd _ ?_ ?_
    | intro _)

theorem State.stageDone_keeps (j : Image) (h : Nat) (hs : s0.Keeps s) : s0.Keeps (State.stageDone s j h) := by
  unfold State.stageDone
  try dsimp only
  repeat' (first
    | with_reducible assumption
    | with_reducible refine State.Keeps.ite ?_ ?_
    | with_reducible apply State.endLong_keeps
    | with_reducible apply State.stageHalf_keeps
    | (simp only [State.Keeps.mk_of]; with_reducible refine State.Keeps.core ?_)
    | intro _
    | split)

theorem execAdapterLoad_keeps {tt : State} (dt cmd a : Nat) (ws : List Nat) (ex : execAdapterLoad dt cmd a ws s = .next tt) : s.Keeps tt := by
  have hs := State.Keeps.refl s
  unfold execAdapterLoad at ex
  try dsimp only at ex
  refine State.Keeps.of_next ex ?_
  clear ex
  repeat' (first
    | with_reducible assumption
    | with_reducible refine State.Keeps.ite ?_ ?_
    | with_reducible apply State.set_keeps
    | with_reducible apply State.setReg_keeps
    | with_reducible apply State.respond_keeps
    | with_reducible apply State.pass_keeps
    | with_reducible apply State.next_keeps
    | with_reducible apply State.command_keeps
    | with_reducible apply State.startLong_keeps
    | (simp only [State.Keeps.mk_of]; with_reducible refine State.Keeps.core ?_)
    | intro _
    | split)

theorem State.adapterDone_keeps (a c : Nat) (ws : List Nat) (hs : s0.Keeps s) : s0.Keeps (State.adapterDone s a c ws) := by
  unfold State.adapterDone
  try dsimp only
  repeat' (first
    | with_reducible assumption
    | with_reducible refine State.Keeps.ite ?_ ?_
    | with_reducible refine State.Keeps.ite_snd ?_ ?_
    | with_reducible apply State.set_keeps
    | with_reducible apply State.setServ_keeps
    | with_reducible apply State.putTable_keeps
    | with_reducible apply State.place_keeps
    | with_reducible apply State.endLong_keeps
    | (simp only [State.Keeps.mk_of]; with_reducible refine State.Keeps.core ?_)
    | with_reducible refine State.Keeps.foldl _ ?_ ?_
    | with_reducible refine State.Keeps.foldl_snd _ ?_ ?_
    | with_reducible refine State.Keeps.getD ?_ ?_
    | intro _
    | dsimp only
    | split
    | refine State.take_keeps (by assumption) ?_)

theorem execTowerStage_keeps {tt : State} (dt cmd : Nat) (i : Image) (ex : execTowerStage dt cmd i s = .next tt) : s.Keeps tt := by
  have hs := State.Keeps.refl s
  unfold execTowerStage at ex
  try dsimp only at ex
  refine State.Keeps.of_next ex ?_
  clear ex
  repeat' (first
    | with_reducible assumption
    | with_reducible refine State.Keeps.ite ?_ ?_
    | with_reducible apply State.setReg_keeps
    | with_reducible apply State.pass_keeps
    | with_reducible apply State.next_keeps
    | with_reducible apply State.command_keeps
    | with_reducible apply State.startLong_keeps
    | (simp only [State.Keeps.mk_of]; with_reducible refine State.Keeps.core ?_)
    | intro _
    | split)

theorem execDrainReload_keeps {tt : State} (dt cmd limit : Nat) (ex : execDrainReload dt cmd limit s = .next tt) : s.Keeps tt := by
  have hs := State.Keeps.refl s
  unfold execDrainReload at ex
  try dsimp only at ex
  refine State.Keeps.of_next ex ?_
  clear ex
  repeat' (first
    | with_reducible assumption
    | with_reducible refine State.Keeps.ite ?_ ?_
    | with_reducible apply State.respond_keeps
    | with_reducible apply State.setServ_keeps
    | with_reducible apply State.pass_keeps
    | with_reducible apply State.next_keeps
    | with_reducible apply State.command_keeps
    | with_reducible apply State.startLong_keeps
    | (simp only [State.Keeps.mk_of]; with_reducible refine State.Keeps.core ?_)
    | intro _
    | dsimp only
    | split
    | refine State.Keeps.of_snd (by assumption) ?_)

theorem State.startReload_keeps  (hs : s0.Keeps s) : s0.Keeps (State.startReload s) := by
  unfold State.startReload
  try dsimp only
  repeat' (first
    | with_reducible assumption
    | with_reducible refine State.Keeps.ite ?_ ?_
    | with_reducible apply State.set_keeps
    | with_reducible apply State.setReg_keeps
    | with_reducible apply State.setServ_keeps
    | with_reducible apply State.stopImage_keeps
    | with_reducible apply State.setImageState_keeps
    | (simp only [State.Keeps.mk_of]; with_reducible refine State.Keeps.core ?_)
    | intro _
    | dsimp only
    | refine State.Keeps.of_snd (by assumption) ?_)

theorem execReloadComplete_keeps {tt : State} (dt : Nat) (ex : execReloadComplete dt s = .next tt) : s.Keeps tt := by
  have hs := State.Keeps.refl s
  unfold execReloadComplete at ex
  try dsimp only at ex
  refine State.Keeps.of_next ex ?_
  clear ex
  repeat' (first
    | with_reducible assumption
    | with_reducible refine State.Keeps.ite ?_ ?_
    | with_reducible apply State.setImageState_keeps
    | with_reducible apply State.unloadImage_keeps
    | with_reducible apply State.pass_keeps
    | with_reducible apply State.next_keeps
    | with_reducible apply State.loadWhole_keeps
    | (simp only [State.Keeps.mk_of]; with_reducible refine State.Keeps.core ?_)
    | intro _
    | split)

theorem State.bulkArrived_keeps  (hs : s0.Keeps s) : s0.Keeps (State.bulkArrived s) := by
  unfold State.bulkArrived
  try dsimp only
  repeat' (first
    | with_reducible assumption
    | with_reducible refine State.Keeps.ite ?_ ?_
    | with_reducible apply State.endLong_keeps
    | with_reducible apply State.broadcast_keeps
    | with_reducible apply State.install_keeps
    | with_reducible apply State.countBefore_keeps
    | with_reducible apply State.loseLoad_keeps
    | with_reducible apply State.endRefused_keeps
    | with_reducible apply State.refuseStage_keeps
    | with_reducible apply State.stageDone_keeps
    | with_reducible apply State.adapterDone_keeps
    | (simp only [State.Keeps.mk_of]; with_reducible refine State.Keeps.core ?_)
    | with_reducible refine State.Keeps.getD ?_ ?_
    | intro _
    | dsimp only
    | split
    | refine State.Keeps.of_snd (by assumption) ?_)

theorem execBulkFrame_keeps {tt : State} (dt : Nat) (ex : execBulkFrame dt s = .next tt) : s.Keeps tt := by
  have hs := State.Keeps.refl s
  unfold execBulkFrame at ex
  try dsimp only at ex
  refine State.Keeps.of_next ex ?_
  clear ex
  repeat' (first
    | with_reducible assumption
    | with_reducible refine State.Keeps.ite ?_ ?_
    | with_reducible apply State.consume_keeps
    | with_reducible apply State.transmit_keeps
    | with_reducible apply State.pass_keeps
    | with_reducible apply State.next_keeps
    | with_reducible apply State.badRecord_keeps
    | with_reducible apply State.bulkArrived_keeps
    | (simp only [State.Keeps.mk_of]; with_reducible refine State.Keeps.core ?_)
    | intro _
    | dsimp only
    | split
    | refine State.Keeps.of_snd (by assumption) ?_
    | refine State.take_keeps (by assumption) ?_)

theorem State.timeoutEffect_keeps (c : LongCmd) (hs : s0.Keeps s) : s0.Keeps (State.timeoutEffect s c) := by
  unfold State.timeoutEffect
  try dsimp only
  repeat' (first
    | with_reducible assumption
    | with_reducible refine State.Keeps.ite ?_ ?_
    | with_reducible apply State.set_keeps
    | with_reducible apply State.setServ_keeps
    | with_reducible apply State.setImageState_keeps
    | with_reducible apply State.repairFail_keeps
    | with_reducible apply State.loseLoad_keeps
    | (simp only [State.Keeps.mk_of]; with_reducible refine State.Keeps.core ?_)
    | with_reducible refine State.Keeps.foldl _ ?_ ?_
    | with_reducible refine State.Keeps.foldl_snd _ ?_ ?_
    | with_reducible refine State.Keeps.getD ?_ ?_
    | intro _
    | dsimp only
    | split
    | refine State.Keeps.of_snd (by assumption) ?_)

theorem State.rawTimeout_keeps  (hs : s0.Keeps s) : s0.Keeps (State.rawTimeout s) := by
  unfold State.rawTimeout
  try dsimp only
  repeat' (first
    | with_reducible assumption
    | with_reducible refine State.Keeps.ite ?_ ?_
    | with_reducible apply State.respond_keeps
    | with_reducible apply State.transmit_keeps
    | (simp only [State.Keeps.mk_of]; with_reducible refine State.Keeps.core ?_)
    | intro _
    | dsimp only
    | split
    | refine State.Keeps.of_snd (by assumption) ?_)

theorem execLongCommandTimeout_keeps {tt : State} (dt : Nat) (ex : execLongCommandTimeout dt s = .next tt) : s.Keeps tt := by
  have hs := State.Keeps.refl s
  unfold execLongCommandTimeout at ex
  try dsimp only at ex
  refine State.Keeps.of_next ex ?_
  clear ex
  repeat' (first
    | with_reducible assumption
    | with_reducible refine State.Keeps.ite ?_ ?_
    | with_reducible apply State.pass_keeps
    | with_reducible apply State.next_keeps
    | with_reducible apply State.endLong_keeps
    | with_reducible apply State.timeoutEffect_keeps
    | with_reducible apply State.rawTimeout_keeps
    | (simp only [State.Keeps.mk_of]; with_reducible refine State.Keeps.core ?_)
    | intro _
    | split)

theorem execBulkDataTimeout_keeps {tt : State} (dt : Nat) (ex : execBulkDataTimeout dt s = .next tt) : s.Keeps tt := by
  have hs := State.Keeps.refl s
  unfold execBulkDataTimeout at ex
  try dsimp only at ex
  refine State.Keeps.of_next ex ?_
  clear ex
  repeat' (first
    | with_reducible assumption
    | with_reducible refine State.Keeps.ite ?_ ?_
    | with_reducible apply State.pass_keeps
    | with_reducible apply State.next_keeps
    | with_reducible apply State.endLong_keeps
    | with_reducible apply State.timeoutEffect_keeps
    | (simp only [State.Keeps.mk_of]; with_reducible refine State.Keeps.core ?_)
    | intro _
    | split)

/-! ### Machine/Turns.lean -/

theorem State.selectCopy_keeps (a sel : Nat) (hs : s0.Keeps s) : s0.Keeps (State.selectCopy s a sel) := by
  unfold State.selectCopy
  try dsimp only
  repeat' (first
    | with_reducible assumption
    | with_reducible refine State.Keeps.ite ?_ ?_
    | with_reducible apply State.set_keeps
    | (simp only [State.Keeps.mk_of]; with_reducible refine State.Keeps.core ?_)
    | with_reducible refine State.Keeps.foldl _ ?_ ?_
    | with_reducible refine State.Keeps.foldl_snd _ ?_ ?_
    | intro _
    | dsimp only
    | refine State.Keeps.of_snd (by assumption) ?_)

theorem State.selectHalf_keeps (h : Nat) (hs : s0.Keeps s) : s0.Keeps (State.selectHalf s h) := by
  unfold State.selectHalf
  try dsimp only
  repeat' (first
    | with_reducible assumption
    | with_reducible refine State.Keeps.ite ?_ ?_
    | with_reducible apply State.set_keeps
    | (simp only [State.Keeps.mk_of]; with_reducible refine State.Keeps.core ?_)
    | intro _)

theorem State.applyRecipe_keeps (l turn v : Nat) (hs : s0.Keeps s) : s0.Keeps (State.applyRecipe s l turn v) := by
  unfold State.applyRecipe
  try dsimp only
  repeat' (first
    | with_reducible assumption
    | with_reducible refine State.Keeps.ite ?_ ?_
    | with_reducible apply State.set_keeps
    | with_reducible apply State.setReg_keeps
    | with_reducible apply State.setFlag_keeps
    | (simp only [State.Keeps.mk_of]; with_reducible refine State.Keeps.core ?_)
    | intro _)

theorem State.applyShadow_keeps (turn : Nat) (x : Shadow) (hs : s0.Keeps s) : s0.Keeps (State.applyShadow s turn x) := by
  unfold State.applyShadow
  try dsimp only
  repeat' (first
    | with_reducible assumption
    | with_reducible refine State.Keeps.ite ?_ ?_
    | with_reducible apply State.set_keeps
    | with_reducible apply State.setReg_keeps
    | with_reducible apply State.setFlag_keeps
    | with_reducible apply State.selectCopy_keeps
    | with_reducible apply State.selectHalf_keeps
    | with_reducible apply State.applyRecipe_keeps
    | (simp only [State.Keeps.mk_of]; with_reducible refine State.Keeps.core ?_)
    | intro _
    | split)

theorem State.applyShadows_keeps (at_ turn : Nat) (drew : List (Nat × Nat)) (hs : s0.Keeps s) : s0.Keeps (State.applyShadows s at_ turn drew) := by
  unfold State.applyShadows
  try dsimp only
  repeat' (first
    | with_reducible assumption
    | with_reducible refine State.Keeps.ite ?_ ?_
    | with_reducible apply State.applyCoachOn_keeps
    | with_reducible apply State.startCoaches_keeps
    | with_reducible apply State.syncPending_keeps
    | with_reducible apply State.applyShadow_keeps
    | (simp only [State.Keeps.mk_of]; with_reducible refine State.Keeps.core ?_)
    | with_reducible refine State.Keeps.foldl _ ?_ ?_
    | with_reducible refine State.Keeps.foldl_snd _ ?_ ?_
    | intro _)

theorem State.beginTurn_keeps (turn from_ : Nat) (hs : s0.Keeps s) : s0.Keeps (State.beginTurn s turn from_) := by
  unfold State.beginTurn
  try dsimp only
  repeat' (first
    | with_reducible assumption
    | with_reducible refine State.Keeps.ite ?_ ?_
    | with_reducible refine State.Keeps.ite_snd ?_ ?_
    | with_reducible apply State.set_keeps
    | with_reducible apply State.issued_keeps
    | with_reducible apply State.arrived_keeps
    | with_reducible apply State.requestBatch_keeps
    | with_reducible apply State.selectSamples_keeps
    | with_reducible apply State.startWindows_keeps
    | with_reducible apply State.takeSnap_keeps
    | (simp only [State.Keeps.mk_of]; with_reducible refine State.Keeps.core ?_)
    | intro _
    | dsimp only
    | refine State.Keeps.of_snd (by assumption) ?_)

theorem execTurn0Start_keeps {tt : State} (dt : Nat) (drew : List (Nat × Nat)) (ex : execTurn0Start dt drew s = .next tt) : s.Keeps tt := by
  have hs := State.Keeps.refl s
  unfold execTurn0Start at ex
  try dsimp only at ex
  refine State.Keeps.of_next ex ?_
  clear ex
  repeat' (first
    | with_reducible assumption
    | with_reducible refine State.Keeps.ite ?_ ?_
    | with_reducible refine State.Keeps.ite_snd ?_ ?_
    | with_reducible apply State.resetRegs_keeps
    | with_reducible apply State.set_keeps
    | with_reducible apply State.emptyCircs_keeps
    | with_reducible apply State.syncPhase_keeps
    | with_reducible apply State.mapReqs_keeps
    | with_reducible apply State.setServ_keeps
    | with_reducible apply State.syncSched_keeps
    | with_reducible apply State.pass_keeps
    | with_reducible apply State.next_keeps
    | with_reducible apply State.place_keeps
    | with_reducible apply State.takeViews_keeps
    | with_reducible apply State.sendSetPoints_keeps
    | with_reducible apply State.applyShadows_keeps
    | with_reducible apply State.beginTurn_keeps
    | (simp only [State.Keeps.mk_of]; with_reducible refine State.Keeps.core ?_)
    | with_reducible refine State.Keeps.foldl _ ?_ ?_
    | with_reducible refine State.Keeps.foldl_snd _ ?_ ?_
    | intro _
    | dsimp only
    | split
    | refine State.Keeps.of_snd (by assumption) ?_)

theorem execArrivalDeadlineMissed_keeps {tt : State} (dt unit kind : Nat) (retried : Bool) (via : Option Nat) (ex : execArrivalDeadlineMissed dt unit kind retried via s = .next tt) : s.Keeps tt := by
  have hs := State.Keeps.refl s
  unfold execArrivalDeadlineMissed at ex
  try dsimp only at ex
  refine State.Keeps.of_next ex ?_
  clear ex
  repeat' (first
    | with_reducible assumption
    | with_reducible refine State.Keeps.ite ?_ ?_
    | with_reducible apply State.inc_keeps
    | with_reducible apply State.raiseHold_keeps
    | with_reducible apply State.syncPhase_keeps
    | with_reducible apply State.pass_keeps
    | with_reducible apply State.next_keeps
    | (simp only [State.Keeps.mk_of]; with_reducible refine State.Keeps.core ?_)
    | intro _)

theorem State.checksumMiss_keeps (n : Nat) (hs : s0.Keeps s) : s0.Keeps (State.checksumMiss s n) := by
  unfold State.checksumMiss
  try dsimp only
  repeat' (first
    | with_reducible assumption
    | with_reducible refine State.Keeps.ite ?_ ?_
    | with_reducible apply State.voidTurn_keeps
    | with_reducible apply State.loseTile_keeps
    | (simp only [State.Keeps.mk_of]; with_reducible refine State.Keeps.core ?_)
    | intro _)

theorem State.requestAtQ_keeps (q : Nat) (hs : s0.Keeps s) : s0.Keeps (State.requestAtQ s q) := by
  unfold State.requestAtQ
  try dsimp only
  repeat' (first
    | with_reducible assumption
    | with_reducible refine State.Keeps.ite ?_ ?_
    | with_reducible apply State.sendWave_keeps
    | (simp only [State.Keeps.mk_of]; with_reducible refine State.Keeps.core ?_)
    | intro _
    | dsimp only
    | refine State.Keeps.of_snd (by assumption) ?_)

theorem State.raiseReloads_keeps (q : Nat) (hs : s0.Keeps s) : s0.Keeps (State.raiseReloads s q) := by
  unfold State.raiseReloads
  try dsimp only
  repeat' (first
    | with_reducible assumption
    | with_reducible refine State.Keeps.ite ?_ ?_
    | with_reducible apply State.raiseHoldAt_keeps
    | (simp only [State.Keeps.mk_of]; with_reducible refine State.Keeps.core ?_)
    | with_reducible refine State.Keeps.foldl _ ?_ ?_
    | with_reducible refine State.Keeps.foldl_snd _ ?_ ?_
    | intro _)

theorem execWorkEndReached_keeps {tt : State} (dt : Nat) (ex : execWorkEndReached dt s = .next tt) : s.Keeps tt := by
  have hs := State.Keeps.refl s
  unfold execWorkEndReached at ex
  try dsimp only at ex
  refine State.Keeps.of_next ex ?_
  clear ex
  repeat' (first
    | with_reducible assumption
    | with_reducible refine State.Keeps.ite ?_ ?_
    | with_reducible apply State.syncPhase_keeps
    | with_reducible apply State.pass_keeps
    | with_reducible apply State.next_keeps
    | with_reducible apply State.checksumMiss_keeps
    | with_reducible apply State.requestAtQ_keeps
    | with_reducible apply State.raiseReloads_keeps
    | (simp only [State.Keeps.mk_of]; with_reducible refine State.Keeps.core ?_)
    | with_reducible refine State.Keeps.foldl _ ?_ ?_
    | with_reducible refine State.Keeps.foldl_snd _ ?_ ?_
    | intro _)

theorem State.countCause_keeps (l : List (Nat × Nat × Bool)) (c : Nat) (hs : s0.Keeps s) : s0.Keeps (State.countCause s l c) := by
  unfold State.countCause
  try dsimp only
  repeat' (first
    | with_reducible assumption
    | with_reducible refine State.Keeps.ite ?_ ?_
    | with_reducible refine State.Keeps.ite_snd ?_ ?_
    | with_reducible apply State.set_keeps
    | with_reducible apply State.inc_keeps
    | (simp only [State.Keeps.mk_of]; with_reducible refine State.Keeps.core ?_)
    | intro _
    | dsimp only)

theorem State.countLongest_keeps (l : List (Nat × Nat × Bool)) (hs : s0.Keeps s) : s0.Keeps (State.countLongest s l) := by
  unfold State.countLongest
  try dsimp only
  repeat' (first
    | with_reducible assumption
    | with_reducible refine State.Keeps.ite ?_ ?_
    | with_reducible refine State.Keeps.ite_snd ?_ ?_
    | with_reducible apply State.takeFree_keeps
    | with_reducible apply State.set_keeps
    | (simp only [State.Keeps.mk_of]; with_reducible refine State.Keeps.core ?_)
    | with_reducible refine State.Keeps.foldl _ ?_ ?_
    | with_reducible refine State.Keeps.foldl_snd _ ?_ ?_
    | with_reducible refine State.Keeps.getD ?_ ?_
    | intro _
    | dsimp only
    | refine State.Keeps.of_snd (by assumption) ?_)

theorem State.countTurn_keeps (b : Nat) (ins : List InsertKind) (hs : s0.Keeps s) : s0.Keeps (State.countTurn s b ins) := by
  unfold State.countTurn
  try dsimp only
  repeat' (first
    | with_reducible assumption
    | with_reducible refine State.Keeps.ite ?_ ?_
    | with_reducible refine State.Keeps.ite_snd ?_ ?_
    | with_reducible apply State.set_keeps
    | with_reducible apply State.raiseHead_keeps
    | with_reducible apply State.countCause_keeps
    | with_reducible apply State.countLongest_keeps
    | (simp only [State.Keeps.mk_of]; with_reducible refine State.Keeps.core ?_)
    | with_reducible refine State.Keeps.foldl _ ?_ ?_
    | with_reducible refine State.Keeps.foldl_snd _ ?_ ?_
    | intro _
    | dsimp only
    | refine State.take_keeps (by assumption) ?_)

theorem State.failMissing_keeps  (hs : s0.Keeps s) : s0.Keeps (State.failMissing s) := by
  unfold State.failMissing
  try dsimp only
  repeat' (first
    | with_reducible assumption
    | with_reducible refine State.Keeps.ite ?_ ?_
    | with_reducible apply State.leaveGroup_keeps
    | with_reducible apply State.failCoupling_keeps
    | (simp only [State.Keeps.mk_of]; with_reducible refine State.Keeps.core ?_)
    | with_reducible refine State.Keeps.foldl _ ?_ ?_
    | with_reducible refine State.Keeps.foldl_snd _ ?_ ?_
    | intro _
    | split)

theorem State.splitGroup_keeps  (hs : s0.Keeps s) : s0.Keeps (State.splitGroup s) := by
  unfold State.splitGroup
  try dsimp only
  repeat' (first
    | with_reducible assumption
    | with_reducible refine State.Keeps.ite ?_ ?_
    | with_reducible apply State.raiseHead_keeps
    | (simp only [State.Keeps.mk_of]; with_reducible refine State.Keeps.core ?_)
    | intro _
    | dsimp only
    | split
    | refine State.Keeps.of_snd (by assumption) ?_)

theorem State.reportRepairs_keeps  (hs : s0.Keeps s) : s0.Keeps (State.reportRepairs s) := by
  unfold State.reportRepairs
  try dsimp only
  repeat' (first
    | with_reducible assumption
    | with_reducible refine State.Keeps.ite ?_ ?_
    | with_reducible apply State.inc_keeps
    | with_reducible apply State.raiseHead_keeps
    | with_reducible apply State.addDefect_keeps
    | (simp only [State.Keeps.mk_of]; with_reducible refine State.Keeps.core ?_)
    | with_reducible refine State.Keeps.foldl _ ?_ ?_
    | with_reducible refine State.Keeps.foldl_snd _ ?_ ?_
    | intro _
    | dsimp only
    | split
    | refine State.Keeps.of_snd (by assumption) ?_)

theorem State.applySpares_keeps  (hs : s0.Keeps s) : s0.Keeps (State.applySpares s) := by
  unfold State.applySpares
  try dsimp only
  repeat' (first
    | with_reducible assumption
    | with_reducible refine State.Keeps.ite ?_ ?_
    | with_reducible apply State.takeSpare_keeps
    | (simp only [State.Keeps.mk_of]; with_reducible refine State.Keeps.core ?_)
    | with_reducible refine State.Keeps.foldl _ ?_ ?_
    | with_reducible refine State.Keeps.foldl_snd _ ?_ ?_
    | intro _)

theorem State.evictDraft_keeps  (hs : s0.Keeps s) : s0.Keeps (State.evictDraft s) := by
  unfold State.evictDraft
  try dsimp only
  repeat' (first
    | with_reducible assumption
    | with_reducible refine State.Keeps.ite ?_ ?_
    | with_reducible refine State.Keeps.ite_snd ?_ ?_
    | with_reducible apply State.vacate_keeps
    | with_reducible apply State.place_keeps
    | (simp only [State.Keeps.mk_of]; with_reducible refine State.Keeps.core ?_)
    | with_reducible refine State.Keeps.foldl _ ?_ ?_
    | with_reducible refine State.Keeps.foldl_snd _ ?_ ?_
    | intro _
    | dsimp only)

theorem State.redraft_keeps  (hs : s0.Keeps s) : s0.Keeps (State.redraft s) := by
  unfold State.redraft
  try dsimp only
  repeat' (first
    | with_reducible assumption
    | with_reducible refine State.Keeps.ite ?_ ?_
    | with_reducible refine State.Keeps.ite_snd ?_ ?_
    | with_reducible apply State.set_keeps
    | with_reducible apply State.raiseHead_keeps
    | with_reducible apply State.setMark_keeps
    | with_reducible apply State.loadTileRegs_keeps
    | with_reducible apply State.loadRoutes_keeps
    | with_reducible apply State.activate_keeps
    | with_reducible apply State.copySlice_keeps
    | with_reducible apply State.copyTables_keeps
    | with_reducible apply State.place_keeps
    | with_reducible apply State.evictDraft_keeps
    | (simp only [State.Keeps.mk_of]; with_reducible refine State.Keeps.core ?_)
    | with_reducible refine State.Keeps.foldl _ ?_ ?_
    | with_reducible refine State.Keeps.foldl_snd _ ?_ ?_
    | intro _
    | dsimp only
    | split
    | refine State.Keeps.of_snd (by assumption) ?_)

theorem State.syncRepair_keeps  (hs : s0.Keeps s) : s0.Keeps (State.syncRepair s) := by
  unfold State.syncRepair
  try dsimp only
  repeat' (first
    | with_reducible assumption
    | with_reducible refine State.Keeps.ite ?_ ?_
    | with_reducible apply State.set_keeps
    | (simp only [State.Keeps.mk_of]; with_reducible refine State.Keeps.core ?_)
    | intro _)

theorem State.repairBoundary_keeps  (hs : s0.Keeps s) : s0.Keeps (State.repairBoundary s) := by
  unfold State.repairBoundary
  try dsimp only
  repeat' (first
    | with_reducible assumption
    | with_reducible refine State.Keeps.ite ?_ ?_
    | with_reducible refine State.Keeps.ite_snd ?_ ?_
    | with_reducible apply State.failStopped_keeps
    | with_reducible apply State.failDegraded_keeps
    | with_reducible apply State.applyJobs_keeps
    | with_reducible apply State.replaceChannel_keeps
    | with_reducible apply State.reportRepairs_keeps
    | with_reducible apply State.applySpares_keeps
    | with_reducible apply State.redraft_keeps
    | with_reducible apply State.syncRepair_keeps
    | (simp only [State.Keeps.mk_of]; with_reducible refine State.Keeps.core ?_)
    | with_reducible refine State.Keeps.foldl _ ?_ ?_
    | with_reducible refine State.Keeps.foldl_snd _ ?_ ?_
    | intro _
    | dsimp only)

theorem State.governors_keeps (b : Nat) (env : BoundaryEnv) (hs : s0.Keeps s) : s0.Keeps (State.governors s b env) := by
  unfold State.governors
  try dsimp only
  repeat' (first
    | with_reducible assumption
    | with_reducible refine State.Keeps.ite ?_ ?_
    | with_reducible apply State.askStep_keeps
    | with_reducible apply State.derate_keeps
    | with_reducible apply State.govern_keeps
    | with_reducible apply State.adaptTrims_keeps
    | with_reducible apply State.thermGovern_keeps
    | (simp only [State.Keeps.mk_of]; with_reducible refine State.Keeps.core ?_)
    | intro _)

theorem State.stopAtBoundary_keeps (cmd : Nat) (hs : s0.Keeps s) : s0.Keeps (State.stopAtBoundary s cmd) := by
  unfold State.stopAtBoundary
  try dsimp only
  repeat' (first
    | with_reducible assumption
    | with_reducible refine State.Keeps.ite ?_ ?_
    | with_reducible apply State.set_keeps
    | with_reducible apply State.respond_keeps
    | with_reducible apply State.stopImage_keeps
    | with_reducible apply State.setImageState_keeps
    | with_reducible apply State.commitTurn_keeps
    | (simp only [State.Keeps.mk_of]; with_reducible refine State.Keeps.core ?_)
    | intro _)

theorem State.nextTurn_keeps (b : Nat) (ins : List InsertKind) (hs : s0.Keeps s) : s0.Keeps (State.nextTurn s b ins) := by
  unfold State.nextTurn
  try dsimp only
  repeat' (first
    | with_reducible assumption
    | with_reducible refine State.Keeps.ite ?_ ?_
    | with_reducible apply State.syncPhase_keeps
    | with_reducible apply State.startAdvance_keeps
    | with_reducible apply State.finishAdvance_keeps
    | with_reducible apply State.beginTurn_keeps
    | (simp only [State.Keeps.mk_of]; with_reducible refine State.Keeps.core ?_)
    | intro _
    | dsimp only
    | split
    | refine State.Keeps.of_snd (by assumption) ?_)

theorem State.changeSet_keeps (wide : Bool) (hs : s0.Keeps s) : s0.Keeps (State.changeSet s wide).2 := by
  unfold State.changeSet
  try dsimp only
  repeat' (first
    | with_reducible assumption
    | with_reducible refine State.Keeps.ite ?_ ?_
    | with_reducible refine State.Keeps.ite_snd ?_ ?_
    | with_reducible apply State.setFlag_keeps
    | with_reducible apply State.syncSched_keeps
    | (simp only [State.Keeps.mk_of]; with_reducible refine State.Keeps.core ?_)
    | intro _
    | dsimp only
    | refine State.Keeps.of_snd (by assumption) ?_)

theorem State.turnOver_keeps (b : Nat) (env : BoundaryEnv) (hs : s0.Keeps s) : s0.Keeps (State.turnOver s b env) := by
  unfold State.turnOver
  try dsimp only
  repeat' (first
    | with_reducible assumption
    | with_reducible refine State.Keeps.ite ?_ ?_
    | with_reducible refine State.Keeps.ite_snd ?_ ?_
    | with_reducible apply State.commitTurn_keeps
    | with_reducible apply State.drainStep_keeps
    | with_reducible apply State.serveBoundary_keeps
    | with_reducible apply State.startReload_keeps
    | with_reducible apply State.applyShadows_keeps
    | with_reducible apply State.countTurn_keeps
    | with_reducible apply State.failMissing_keeps
    | with_reducible apply State.splitGroup_keeps
    | with_reducible apply State.repairBoundary_keeps
    | with_reducible apply State.governors_keeps
    | with_reducible apply State.stopAtBoundary_keeps
    | with_reducible apply State.nextTurn_keeps
    | with_reducible apply State.changeSet_keeps
    | (simp only [State.Keeps.mk_of]; with_reducible refine State.Keeps.core ?_)
    | intro _
    | dsimp only
    | split)

theorem execTurnBoundary_keeps {tt : State} (dt : Nat) (env : BoundaryEnv) (ex : execTurnBoundary dt env s = .next tt) : s.Keeps tt := by
  have hs := State.Keeps.refl s
  unfold execTurnBoundary at ex
  try dsimp only at ex
  refine State.Keeps.of_next ex ?_
  clear ex
  repeat' (first
    | with_reducible assumption
    | with_reducible refine State.Keeps.ite ?_ ?_
    | with_reducible apply State.pass_keeps
    | with_reducible apply State.next_keeps
    | with_reducible apply State.turnOver_keeps
    | (simp only [State.Keeps.mk_of]; with_reducible refine State.Keeps.core ?_)
    | intro _
    | split)

theorem State.stepChange_keeps  (hs : s0.Keeps s) : s0.Keeps (State.stepChange s) := by
  unfold State.stepChange
  try dsimp only
  repeat' (first
    | with_reducible assumption
    | with_reducible refine State.Keeps.ite ?_ ?_
    | with_reducible apply State.set_keeps
    | with_reducible apply State.raiseHead_keeps
    | with_reducible apply State.syncSched_keeps
    | with_reducible apply State.sendSetPoints_keeps
    | (simp only [State.Keeps.mk_of]; with_reducible refine State.Keeps.core ?_)
    | intro _
    | dsimp only
    | split
    | refine State.Keeps.of_snd (by assumption) ?_)

theorem execInsertedSpoke_keeps {tt : State} (dt : Nat) (ex : execInsertedSpoke dt s = .next tt) : s.Keeps tt := by
  have hs := State.Keeps.refl s
  unfold execInsertedSpoke at ex
  try dsimp only at ex
  refine State.Keeps.of_next ex ?_
  clear ex
  repeat' (first
    | with_reducible assumption
    | with_reducible refine State.Keeps.ite ?_ ?_
    | with_reducible apply State.syncPhase_keeps
    | with_reducible apply State.pass_keeps
    | with_reducible apply State.next_keeps
    | with_reducible apply State.substitute_keeps
    | with_reducible apply State.stepChange_keeps
    | (simp only [State.Keeps.mk_of]; with_reducible refine State.Keeps.core ?_)
    | intro _
    | split)

/-! ### Machine/TestPort.lean -/

theorem State.loadTap_keeps (code : Nat) (f : State → State) (hf : ∀ t, s0.Keeps t → s0.Keeps (f t)) (hs : s0.Keeps s) : s0.Keeps (State.loadTap s code f) := by
  unfold State.loadTap
  try dsimp only
  repeat' (first
    | with_reducible assumption
    | with_reducible apply hf
    | with_reducible refine State.Keeps.ite ?_ ?_
    | (simp only [State.Keeps.mk_of]; with_reducible refine State.Keeps.core ?_)
    | intro _
    | dsimp only
    | split)

theorem State.capture_keeps (v : Nat) (hs : s0.Keeps s) : s0.Keeps (State.capture s v) := by
  unfold State.capture
  try dsimp only
  repeat' (first
    | with_reducible assumption
    | with_reducible refine State.Keeps.ite ?_ ?_
    | (simp only [State.Keeps.mk_of]; with_reducible refine State.Keeps.core ?_)
    | intro _)

theorem State.resetTap_keeps  (hs : s0.Keeps s) : s0.Keeps (State.resetTap s) := by
  unfold State.resetTap
  try dsimp only
  repeat' (first
    | with_reducible assumption
    | with_reducible refine State.Keeps.ite ?_ ?_
    | (simp only [State.Keeps.mk_of]; with_reducible refine State.Keeps.core ?_)
    | intro _
    | dsimp only
    | split)

theorem execTapReset_keeps {tt : State} (dt : Nat) (ex : execTapReset dt s = .next tt) : s.Keeps tt := by
  have hs := State.Keeps.refl s
  unfold execTapReset at ex
  try dsimp only at ex
  refine State.Keeps.of_next ex ?_
  clear ex
  repeat' (first
    | with_reducible assumption
    | with_reducible refine State.Keeps.ite ?_ ?_
    | with_reducible apply State.pass_keeps
    | with_reducible apply State.next_keeps
    | with_reducible apply State.resetTap_keeps
    | (simp only [State.Keeps.mk_of]; with_reducible refine State.Keeps.core ?_)
    | intro _
    | split)

theorem execExtest_keeps {tt : State} (dt : Nat) (pins cells : List Bool) (ex : execExtest dt pins cells s = .next tt) : s.Keeps tt := by
  have hs := State.Keeps.refl s
  unfold execExtest at ex
  try dsimp only at ex
  refine State.Keeps.of_next ex ?_
  clear ex
  repeat' (first
    | with_reducible assumption
    | with_reducible refine State.Keeps.ite ?_ ?_
    | with_reducible apply State.pass_keeps
    | with_reducible apply State.next_keeps
    | with_reducible apply State.loadTap_keeps
    | with_reducible apply State.capture_keeps
    | (simp only [State.Keeps.mk_of]; with_reducible refine State.Keeps.core ?_)
    | intro _
    | split)

theorem execSamplePreload_keeps {tt : State} (dt : Nat) (pins cells : List Bool) (ex : execSamplePreload dt pins cells s = .next tt) : s.Keeps tt := by
  have hs := State.Keeps.refl s
  unfold execSamplePreload at ex
  try dsimp only at ex
  refine State.Keeps.of_next ex ?_
  clear ex
  repeat' (first
    | with_reducible assumption
    | with_reducible refine State.Keeps.ite ?_ ?_
    | with_reducible apply State.pass_keeps
    | with_reducible apply State.next_keeps
    | with_reducible apply State.loadTap_keeps
    | with_reducible apply State.capture_keeps
    | (simp only [State.Keeps.mk_of]; with_reducible refine State.Keeps.core ?_)
    | intro _
    | split)

theorem execIdcode_keeps {tt : State} (dt : Nat) (ex : execIdcode dt s = .next tt) : s.Keeps tt := by
  have hs := State.Keeps.refl s
  unfold execIdcode at ex
  try dsimp only at ex
  refine State.Keeps.of_next ex ?_
  clear ex
  repeat' (first
    | with_reducible assumption
    | with_reducible refine State.Keeps.ite ?_ ?_
    | with_reducible apply State.pass_keeps
    | with_reducible apply State.next_keeps
    | with_reducible apply State.loadTap_keeps
    | with_reducible apply State.capture_keeps
    | (simp only [State.Keeps.mk_of]; with_reducible refine State.Keeps.core ?_)
    | intro _
    | split)

theorem execStatusRead_keeps {tt : State} (dt : Nat) (ex : execStatusRead dt s = .next tt) : s.Keeps tt := by
  have hs := State.Keeps.refl s
  unfold execStatusRead at ex
  try dsimp only at ex
  refine State.Keeps.of_next ex ?_
  clear ex
  repeat' (first
    | with_reducible assumption
    | with_reducible refine State.Keeps.ite ?_ ?_
    | with_reducible apply State.pass_keeps
    | with_reducible apply State.next_keeps
    | with_reducible apply State.loadTap_keeps
    | with_reducible apply State.capture_keeps
    | (simp only [State.Keeps.mk_of]; with_reducible refine State.Keeps.core ?_)
    | intro _
    | split)

theorem execAtbSel_keeps {tt : State} (dt v : Nat) (ex : execAtbSel dt v s = .next tt) : s.Keeps tt := by
  have hs := State.Keeps.refl s
  unfold execAtbSel at ex
  try dsimp only at ex
  refine State.Keeps.of_next ex ?_
  clear ex
  repeat' (first
    | with_reducible assumption
    | with_reducible refine State.Keeps.ite ?_ ?_
    | with_reducible apply State.pass_keeps
    | with_reducible apply State.next_keeps
    | with_reducible apply State.atbWrite_keeps
    | with_reducible apply State.loadTap_keeps
    | with_reducible apply State.capture_keeps
    | (simp only [State.Keeps.mk_of]; with_reducible refine State.Keeps.core ?_)
    | with_reducible refine State.Keeps.foldl _ ?_ ?_
    | with_reducible refine State.Keeps.foldl_snd _ ?_ ?_
    | intro _
    | split)

theorem execBypass_keeps {tt : State} (dt : Nat) (ex : execBypass dt s = .next tt) : s.Keeps tt := by
  have hs := State.Keeps.refl s
  unfold execBypass at ex
  try dsimp only at ex
  refine State.Keeps.of_next ex ?_
  clear ex
  repeat' (first
    | with_reducible assumption
    | with_reducible refine State.Keeps.ite ?_ ?_
    | with_reducible apply State.pass_keeps
    | with_reducible apply State.next_keeps
    | with_reducible apply State.loadTap_keeps
    | with_reducible apply State.capture_keeps
    | (simp only [State.Keeps.mk_of]; with_reducible refine State.Keeps.core ?_)
    | intro _
    | split)

theorem execProductionInstruction_keeps {tt : State} (dt code : Nat) (ex : execProductionInstruction dt code s = .next tt) : s.Keeps tt := by
  have hs := State.pass_keeps dt (State.Keeps.refl s)
  unfold execProductionInstruction at ex
  dsimp only at ex
  split at ex
  · exact State.Keeps.of_next ex hs
  · split at ex
    · cases ex
    · exact State.Keeps.of_next ex (State.loadTap_keeps _ _ (fun t h => State.capture_keeps _ h) hs)

theorem execExtestEnd_keeps {tt : State} (dt : Nat) (ex : execExtestEnd dt s = .next tt) : s.Keeps tt := by
  have hs := State.Keeps.refl s
  unfold execExtestEnd at ex
  try dsimp only at ex
  refine State.Keeps.of_next ex ?_
  clear ex
  repeat' (first
    | with_reducible assumption
    | with_reducible refine State.Keeps.ite ?_ ?_
    | with_reducible apply State.sendRail_keeps
    | with_reducible apply State.pass_keeps
    | with_reducible apply State.next_keeps
    | (simp only [State.Keeps.mk_of]; with_reducible refine State.Keeps.core ?_)
    | with_reducible refine State.Keeps.foldl _ ?_ ?_
    | with_reducible refine State.Keeps.foldl_snd _ ?_ ?_
    | intro _)

theorem execAtbConnect_keeps {tt : State} (dt n : Nat) (ex : execAtbConnect dt n s = .next tt) : s.Keeps tt := by
  have hs := State.Keeps.refl s
  unfold execAtbConnect at ex
  try dsimp only at ex
  refine State.Keeps.of_next ex ?_
  clear ex
  repeat' (first
    | with_reducible assumption
    | with_reducible refine State.Keeps.ite ?_ ?_
    | with_reducible refine State.Keeps.ite_snd ?_ ?_
    | with_reducible apply State.setFlag_keeps
    | with_reducible apply State.pass_keeps
    | with_reducible apply State.next_keeps
    | (simp only [State.Keeps.mk_of]; with_reducible refine State.Keeps.core ?_)
    | intro _
    | dsimp only
    | split)

theorem execAtbDiodeReturn_keeps {tt : State} (dt d : Nat) (ex : execAtbDiodeReturn dt d s = .next tt) : s.Keeps tt := by
  have hs := State.Keeps.refl s
  unfold execAtbDiodeReturn at ex
  try dsimp only at ex
  refine State.Keeps.of_next ex ?_
  clear ex
  repeat' (first
    | with_reducible assumption
    | with_reducible refine State.Keeps.ite ?_ ?_
    | with_reducible refine State.Keeps.ite_snd ?_ ?_
    | with_reducible apply State.pass_keeps
    | with_reducible apply State.next_keeps
    | (simp only [State.Keeps.mk_of]; with_reducible refine State.Keeps.core ?_)
    | intro _
    | dsimp only)

end Sys2Proof.Machine
end

