-- ==== Sys2Proof/Tests/Slice0.lean ====
section
/-! SUPPORT. The tests of the model's author. `test_…` are results that the spec gives (its examples and tables, named at each),
and ill-formed commands that WellFormed refuses; `witness_<Name>` shows, for each clause of Obligations.<Name> that has
hypotheses, a state and operands that meet them all (s' of the statement stands for the state after the ticks of the command). -/

open Sys2Proof Sys2Proof.Machine

set_option Elab.async false

namespace Sys2Proof.Tests

/-- What a test says of the next state. -/
def testNext (r : Res) (f : State → Bool) : Bool := match r with | .next t => f t | _ => false
/-- Reset with fields set. -/
def mk (l : List (Fld × Nat)) : State := l.foldl (fun s p => s.set p.1 p.2) State.reset
/-- A session of role operator is open, start-up is complete. -/
def openMk (l : List (Fld × Nat)) : State :=
  mk ([(CTL_PORT_STATUS.link, 2), (CTL_PORT_STATUS.role, 1), (HEAD_BOOT_STATUS.step, 10)] ++ l)
/-- An event record of source n of unit 5. -/
def evr (n : Nat) : EvRec := ⟨n, 0, 0, 5, 0, 0, 0, 0⟩
/-- A schedule of 200 spokes whose logical tile (0, 0) has the given actions. -/
def sched0 (l : List SchedAction) : Sched := ⟨200, 20, 9500, 2, 3, 0, 0, true, [], [⟨0, 0, l⟩]⟩
/-- A small image. -/
def img0 (l : List SchedAction) : Image :=
  { parseErr := none, header := ⟨0x57495850, 1, 1, 0, 0x5725, 1, 1, 1, 0, 0, 0, 0, 4096, true⟩, sects := [], digest := [],
    coachOrder := [0], tiles := [⟨0, 0, 0⟩], groupTiles := [], yxOrder := [], trees := [], barriers := [], windows := [], relay := [],
    cplTable := [], transfers := [], wideTransfers := [], sched := sched0 l, wide := none, tileRegs := [], spaceRegs := [],
    formats := [], taps := [], power := ⟨0, 0, 0, 0, 0, [], []⟩, thermal := ⟨0, 0, [], []⟩, sampler := [], depth := 0, treeCars := 0,
    cmax := 0, vocab := 0, adapters := 0, footprint := 0, bcap := 0, batchMin := 0, heads := [], kv := [], weights := [], drafts := [],
    group := none, seeds := [], mcastLimit := 0, reloc := [], sig := ⟨1, 1, 0, true, [], [], [], []⟩ }
/-- The image runs on tile 0, in turn 0, from spoke 0. -/
def runMk (i : Image) (l : List (Fld × Nat)) : State :=
  { mk ([(HEAD_IMAGE_STATUS.state, 3), (TILE_STATE.state.tile 0, 2), (HEAD_TURN_CONFIG.turn_len, 200)] ++ l) with
    img := { image := some i, place := [(0, 0)] } }


/-! ### Ill-formed commands, one for each check of WellFormed -/

/-- An empty packet to tile 1. -/
def pkt0 : Packet := ⟨0, 0, 0, 0, 1, 0, 0, 0, 0, 0, 0, []⟩

/-- An empty transaction. -/
def tx0 : Tx := ⟨0, 0, 0, 0, 0, 0, 0, 0, 0, 0, 0, 0, 0, 0, 0, 0, 0, true, []⟩
/-- An empty data frame. -/
def frame0 : Frame := ⟨0, 1, 0, 0, 0, 0, 0, 0, 0, 0, [], []⟩

/-- No tile 9,984 (R92). -/
theorem test_ill_tile :
    Instr.wellFormed (.actionFill 0 9984 0) = false
    ∧ Instr.wellFormed (.scrubChunk 0 9984 []) = false
    ∧ Instr.wellFormed (.heartbeatMissing 0 9984) = false
    ∧ Instr.wellFormed (.hazardClear 0 0 9984) = false
    ∧ Instr.wellFormed (.netStall 0 9984 0) = false := by decide +kernel

/-- No coach 64 (R24). -/
theorem test_ill_coach :
    Instr.wellFormed (.coachRepair 0 0 64) = false
    ∧ Instr.wellFormed (.coachResetDone 0 64) = false
    ∧ Instr.wellFormed (.powerOnFail 0 64) = false
    ∧ Instr.wellFormed (.turn0Start 0 [(64, 0)]) = false
    ∧ Instr.wellFormed (.idleBoundary 0 [(3, 0), (64, 0)]) = false := by decide +kernel

/-- No bay 24 (R37). -/
theorem test_ill_bay :
    Instr.wellFormed (.couplingReplay 0 24) = false
    ∧ Instr.wellFormed (.towerChannelFailing 0 24 ⟨0, false⟩) = false
    ∧ Instr.wellFormed (.raw 0 0 24 0 0 0 false) = false
    ∧ Instr.wellFormed (.arrivalDeadlineMissed 0 0 0 false (some 24)) = false := by decide +kernel

/-- No link past 24 (R344). -/
theorem test_ill_link :
    Instr.wellFormed (.remoteWrite 0 25 tx0) = false
    ∧ Instr.wellFormed (.sectionWrite 0 25 tx0) = false := by decide +kernel

/-- No guard 4 (R410). -/
theorem test_ill_guard :
    Instr.wellFormed (.watchdogExpiry 0 4) = false
    ∧ Instr.wellFormed (.eventSelect 0 4) = false
    ∧ Instr.wellFormed (.guardMaskWrite 0 4 0 true) = false := by decide +kernel

/-- No rail 0xB5 (R445). -/
theorem test_ill_rail :
    Instr.wellFormed (.railStatusPoll 0 0xB5) = false
    ∧ Instr.wellFormed (.supplyShort 0 0xB5) = false := by decide +kernel

/-- No pin 8 (R572). -/
theorem test_ill_pin :
    Instr.wellFormed (.atbConnect 0 8) = false
    ∧ Instr.wellFormed (.atbSelect 0 0 8 0) = false := by decide +kernel

/-- No management address of 49 bits (R7). -/
theorem test_ill_address :
    Instr.wellFormed (.read 0 0 (2 ^ 48)) = false
    ∧ Instr.wellFormed (.write 0 0 (2 ^ 48) 0) = false
    ∧ Instr.wellFormed (.readBlock 0 0 (2 ^ 48) 1) = false := by decide +kernel

/-- A packet field does not fit its bits (R286). -/
theorem test_ill_packet :
    Instr.wellFormed (.meshWrite 0 ({ pkt0 with ty := 16 }) false) = false
    ∧ Instr.wellFormed (.meshWrite 0 ({ pkt0 with vc := 4 }) false) = false
    ∧ Instr.wellFormed (.meshWrite 0 ({ pkt0 with yx := 2 }) false) = false
    ∧ Instr.wellFormed (.meshWrite 0 ({ pkt0 with src := 2 ^ 15 }) false) = false
    ∧ Instr.wellFormed (.meshWrite 0 ({ pkt0 with dst := 2 ^ 15 }) false) = false
    ∧ Instr.wellFormed (.meshWrite 0 ({ pkt0 with chan := 8 }) false) = false
    ∧ Instr.wellFormed (.meshWrite 0 ({ pkt0 with tag := 256 }) false) = false
    ∧ Instr.wellFormed (.meshWrite 0 ({ pkt0 with len := 32 }) false) = false
    ∧ Instr.wellFormed (.meshWrite 0 ({ pkt0 with space := 4 }) false) = false
    ∧ Instr.wellFormed (.meshWrite 0 ({ pkt0 with offset := 2 ^ 36 }) false) = false
    ∧ Instr.wellFormed (.meshWrite 0 ({ pkt0 with circ := 16 }) false) = false
    ∧ Instr.wellFormed (.meshWrite 0 ({ pkt0 with data := List.replicate 1089 0 }) false) = false := by decide +kernel

/-- A transaction field does not fit its bits (R336). -/
theorem test_ill_transaction :
    Instr.wellFormed (.remoteWrite 0 0 ({ tx0 with ty := 256 })) = false
    ∧ Instr.wellFormed (.remoteWrite 0 0 ({ tx0 with vc := 4 })) = false
    ∧ Instr.wellFormed (.remoteWrite 0 0 ({ tx0 with flags := 256 })) = false
    ∧ Instr.wellFormed (.remoteWrite 0 0 ({ tx0 with srcMember := 256 })) = false
    ∧ Instr.wellFormed (.remoteWrite 0 0 ({ tx0 with dstMember := 256 })) = false
    ∧ Instr.wellFormed (.remoteWrite 0 0 ({ tx0 with dstEp := 65536 })) = false
    ∧ Instr.wellFormed (.remoteWrite 0 0 ({ tx0 with srcEp := 65536 })) = false
    ∧ Instr.wellFormed (.remoteWrite 0 0 ({ tx0 with space := 4 })) = false
    ∧ Instr.wellFormed (.remoteWrite 0 0 ({ tx0 with region := 16 })) = false
    ∧ Instr.wellFormed (.remoteWrite 0 0 ({ tx0 with push := 256 })) = false
    ∧ Instr.wellFormed (.remoteWrite 0 0 ({ tx0 with hops := 256 })) = false
    ∧ Instr.wellFormed (.remoteWrite 0 0 ({ tx0 with tag := 256 })) = false
    ∧ Instr.wellFormed (.remoteWrite 0 0 ({ tx0 with offset := 2 ^ 64 })) = false := by decide +kernel

/-- A stall-wave field does not fit its bits (R326). -/
theorem test_ill_wave :
    Instr.wellFormed (.stallWaveItem 0 0 ⟨true, 16, 0, 0, 0, 0⟩) = false
    ∧ Instr.wellFormed (.stallWaveItem 0 0 ⟨true, 0, 16, 0, 0, 0⟩) = false
    ∧ Instr.wellFormed (.stallWaveItem 0 0 ⟨true, 0, 0, 4, 0, 0⟩) = false
    ∧ Instr.wellFormed (.stallWaveItem 0 0 ⟨true, 0, 0, 0, 64, 0⟩) = false
    ∧ Instr.wellFormed (.stallWaveItem 0 0 ⟨true, 0, 0, 0, 0, 8⟩) = false := by decide +kernel

/-- A turn message names no member past 63 and no step outside 48 to 95 (R69, R334). -/
theorem test_ill_message :
    Instr.wellFormed (.turnMessage 0 0 ⟨64, 0, 95, false, none, [], 0⟩) = false
    ∧ Instr.wellFormed (.turnMessage 0 0 ⟨0, 0, 47, false, none, [], 0⟩) = false
    ∧ Instr.wellFormed (.turnMessage 0 0 ⟨0, 0, 96, false, none, [], 0⟩) = false := by decide +kernel

/-- A frame field does not fit its bits (R384). -/
theorem test_ill_frame :
    Instr.wellFormed (.dataFrame 0 ⟨{ frame0 with chan := 16 }, 0, 0⟩) = false
    ∧ Instr.wellFormed (.dataFrame 0 ⟨{ frame0 with version := 16 }, 0, 0⟩) = false
    ∧ Instr.wellFormed (.dataFrame 0 ⟨{ frame0 with kind := 16 }, 0, 0⟩) = false
    ∧ Instr.wellFormed (.dataFrame 0 ⟨{ frame0 with keyPhase := 2 }, 0, 0⟩) = false
    ∧ Instr.wellFormed (.dataFrame 0 ⟨{ frame0 with recStart := 2 }, 0, 0⟩) = false
    ∧ Instr.wellFormed (.dataFrame 0 ⟨{ frame0 with seq := 2 ^ 32 }, 0, 0⟩) = false
    ∧ Instr.wellFormed (.dataFrame 0 ⟨{ frame0 with ack := 2 ^ 32 }, 0, 0⟩) = false
    ∧ Instr.wellFormed (.dataFrame 0 ⟨{ frame0 with credit := 2 ^ 32 }, 0, 0⟩) = false := by decide +kernel

/-- A request or a response of more than 40 bits (R447). -/
theorem test_ill_rail_bus :
    Instr.wellFormed (.railBusResponse 0 ⟨2 ^ 40, 0⟩) = false
    ∧ Instr.wellFormed (.railBusResponse 0 ⟨0, 2 ^ 40⟩) = false := by decide +kernel

/-- Command identifiers of 33 bits, values of 65, and numbers past the end of their ranges (R28, R45, R134, R282, R394, R397, R405, R465, R491, R568). -/
theorem test_ill_operand :
    Instr.wellFormed (.imageStop 0 (2 ^ 32)) = false
    ∧ Instr.wellFormed (.write 0 0 0 (2 ^ 64)) = false
    ∧ Instr.wellFormed (.writeBlock 0 0 0 [2 ^ 64]) = false
    ∧ Instr.wellFormed (.imageStart 0 0 (2 ^ 64)) = false
    ∧ Instr.wellFormed (.mbxSend 0 true 28 0 0 0) = false
    ∧ Instr.wellFormed (.mbxTimeout 0 0 2) = false
    ∧ Instr.wellFormed (.flitReceive 0 0 5 0 0) = false
    ∧ Instr.wellFormed (.flitReceive 0 0 0 (2 ^ 1024) 0) = false
    ∧ Instr.wellFormed (.multicastWrite 0 0 0 256 false) = false
    ∧ Instr.wellFormed (.barrierArriveFlit 0 0 0 64) = false
    ∧ Instr.wellFormed (.cartDescriptorStart 0 0 8 false) = false
    ∧ Instr.wellFormed (.waitingPushApplied 0 0 16) = false
    ∧ Instr.wellFormed (.wsManagementRead 0 0 0 327680) = false
    ∧ Instr.wellFormed (.towerChannelFailing 0 0 ⟨32, false⟩) = false
    ∧ Instr.wellFormed (.clkGate 0 .host 0 32 0) = false
    ∧ Instr.wellFormed (.pwrgoodRise 0 16) = false
    ∧ Instr.wellFormed (.productionInstruction 0 256) = false
    ∧ Instr.wellFormed (.atbSel 0 (2 ^ 160)) = false
    ∧ Instr.wellFormed (.couplingTrain 0 0 (2 ^ 24)) = false
    ∧ Instr.wellFormed (.railAlert 0 4) = false
    ∧ Instr.wellFormed (.sbxAlarm 0 256) = false
    ∧ Instr.wellFormed (.keyEnrol 0 0 8) = false
    ∧ Instr.wellFormed (.sensorSkew 0 128) = false
    ∧ Instr.wellFormed (.rotation 0 [⟨128, 0, 0⟩]) = false
    ∧ Instr.wellFormed (.coolStatFrame 0 (2 ^ 40)) = false
    ∧ Instr.wellFormed (.laneLosesSignal 0 0 16) = false
    ∧ Instr.wellFormed (.resendTimeout 0 6) = false
    ∧ Instr.wellFormed (.controlLinkDown 0 (2 ^ 16)) = false
    ∧ Instr.wellFormed (.powerDroop 0 512 0) = false
    ∧ Instr.wellFormed (.flashWindowWrite 0 0 (2 ^ 28) []) = false
    ∧ Instr.wellFormed (.atbDiodeReturn 0 256) = false := by decide +kernel

/-! ### Results that the spec gives -/

/-- R107 example: tile M(27, 4, 6) is site 76; its scratchpad offset 0x2A40 has management address 0x11B4_C800_2A40 and lies in bank 1. -/
theorem test_address : spadKey (27 * 144 + 76) 0x2A40 = 0x11B4C8002A40 ∧ bankOf 0x2A40 = 1 := by decide +kernel

/-- R72 example: with L = 120 spokes, L_k at k = 85 is 135 spokes. -/
theorem test_turn_length : lenAt 120 85 = 135 ∧ lenAt 120 95 = 120 := by decide +kernel

/-- The example before the heading Rounding: block 0 of a PB4 burst takes the accumulator from 1.0 to 0.84375. -/
theorem test_block : blockStep 0x3F800000 0 (0x009007D3 + 0x7A * 2 ^ 512) 0 0 false false 0
    ([0x38, 0x44, 0x2C, 0, 0, 0xB0] ++ List.replicate 26 0) = 0x3F580000 := by decide +kernel

/-- The example before R157: a residual add of 1.0 and 2⁻⁹ rounds up for one draw and down for another. -/
theorem test_stochastic : roundBf16 (sumVal (decBf16 0x3F80) (dec32 0x3B000000)) (.sr 0x2F1C0A93) = 0x3F81
    ∧ roundBf16 (sumVal (decBf16 0x3F80) (dec32 0x3B000000)) (.sr 0x9E000000) = 0x3F80 := by decide +kernel

/-- The example before R266: the fields of the register value 0x3F8D_039A_2028_3F33. -/
theorem test_profile : bits 0x3F8D039A20283F33 HEAD_SAMP_PROFILE.temperature.lo HEAD_SAMP_PROFILE.temperature.w = 0x3F33
    ∧ bits 0x3F8D039A20283F33 HEAD_SAMP_PROFILE.top_k.lo HEAD_SAMP_PROFILE.top_k.w = 40
    ∧ bits 0x3F8D039A20283F33 HEAD_SAMP_PROFILE.rep_window.lo HEAD_SAMP_PROFILE.rep_window.w = 2
    ∧ bits 0x3F8D039A20283F33 HEAD_SAMP_PROFILE.top_p.lo HEAD_SAMP_PROFILE.top_p.w = 922
    ∧ bits 0x3F8D039A20283F33 HEAD_SAMP_PROFILE.rep_penalty.lo HEAD_SAMP_PROFILE.rep_penalty.w = 0x3F8D := by decide +kernel

/-- The all-reduce example of the couplings chapter: 1.0 + 2⁻²⁴ + 2⁻²⁴ − 1.0 is 0.0 in member order and 2⁻²³ in arrival order. -/
theorem test_sum_order : add32 (add32 (add32 0x3F800000 0x33800000) 0x33800000) 0xBF800000 = 0
    ∧ add32 (add32 (add32 0x33800000 0x33800000) 0x3F800000) 0xBF800000 = 0x34000000 := by decide +kernel

/-- The example after R574: bus field 0x1E at pin 0 is bus 0 of coach C27. -/
theorem test_atb_bus : atbCoach 0 0x1E = some 27 := by decide +kernel

/-- The check value of CRC-32C. -/
theorem test_crc32c : crc32c [0x31, 0x32, 0x33, 0x34, 0x35, 0x36, 0x37, 0x38, 0x39] = 0xE3069283 := by decide +kernel

/-- R124: the first vectors of weight 3 of the scratchpad code, in ascending order, are 7, 11, 13, 14, 19. -/
theorem test_code_vectors : (hamming 8).take 5 = [7, 11, 13, 14, 19] := by decide +kernel

/-- R5, R396: a READ of address 0 answers HEAD_DEVICE_ID: part 0x5725, stepping 1. -/
theorem test_device_id : testNext (exec (.read 0 9 0) (openMk [])) (fun t => t.lastResponse == some ⟨1, 0, 0, 9, true, [0x25, 0x57, 0, 1, 0, 0, 0, 0]⟩) = true := by decide +kernel

/-- R502 example: of sources 24 and 28, both pending at the same guard, 24 is selected; with 24 masked, 28 is. -/
theorem test_lowest_first : (mk [(EVT_SRC_n.pending.src 24, 1), (EVT_SRC_n.pending.src 28, 1), (EVT_SRC_n.guard.src 24, 0), (EVT_SRC_n.guard.src 28, 0)]).selectable 0 = some 24
    ∧ (mk [(EVT_SRC_n.pending.src 24, 1), (EVT_SRC_n.pending.src 28, 1), (EVT_SRC_n.guard.src 24, 0), (EVT_SRC_n.guard.src 28, 0),
      (EVT_SRC_n.mask.src 24, 1)]).selectable 0 = some 28 := by decide +kernel

/-- R502 example: a source masked after its selection is delivered; an arrival before its delivery leaves its count. -/
theorem test_delivery_despite_mask : testNext (exec (.eventDeliver 0 0) { mk [(EVT_SRC_n.pending.src 24, 1), (EVT_SRC_n.count.src 24, 1), (EVT_SRC_n.mask.src 24, 1)] with
      ev := { selected := [(0, 24)] } }) (fun t => t.flag (EVT_SRC_n.in_service.src 24) && t.get EVT_CTRL.svc0 == 24
        && !t.flag (EVT_SRC_n.pending.src 24)) = true := by decide +kernel

/-- R65: an armed index with no image running loads V. -/
theorem test_index_loads : testNext (exec (.index 0) { mk [(HEAD_AXLE_STATUS.lock, 1), (HEAD_AXLE_COUNT.count, 5)] with axle := { inForce := some 0x4000 } })
    (fun t => t.count == 0x4000 && t.flag HEAD_AXLE_STATUS.loaded) = true := by decide +kernel

/-- R64: an arm with V = 8 is refused and arm_error set. -/
theorem test_refused_arm : testNext (exec (.arm 0 1) (openMk [(HEAD_AXLE_LOAD.value, 8)])) (fun t => t.flag HEAD_AXLE_STATUS.arm_error && t.axle.pendingArms.isEmpty) = true := by decide +kernel

/-- R538: a rise of PWRGOOD begins start-up step 2. -/
theorem test_start_of_start_up : testNext (exec (.pwrgoodRise 0 6) State.reset) (fun t => t.get HEAD_BOOT_STATUS.step == 2 && t.boot.pwrgood) = true := by decide +kernel

/-- R405: the oldest word is received first. -/
theorem test_mailbox_order : testNext (exec (.mbxRecv 0 false 20 1 0) { State.reset with mbx := [(40, ⟨[7, 8], none⟩)] }) (fun t => (t.mbxOutOf 20 0).words == [8]) = true := by decide +kernel

/-- R568: a production instruction while debug is 1 is refused, and is BYPASS while debug is 0. -/
theorem test_production : (match exec (.productionInstruction 0 0x20) { mk [(SBX_POLICY.debug, 1)] with boot := { pwrgood := true } } with
    | .refused .productionInstruction => true
    | _ => false) = true
    ∧ testNext (exec (.productionInstruction 0 0x20) { State.reset with boot := { pwrgood := true } }) (fun t => t.boot.tapData == 0) = true := by decide +kernel

/-- One step takes the command at the front of the queue. -/
theorem test_step : (match step { State.reset with pending := [.globalDisableWrite 3 true, .index 1] } with
    | .next t => t.pending == [.index 1] && t.flag EVT_CTRL.disable && t.ticks == 3
    | _ => false) = true := by decide +kernel

/-- The table gives no row bits: no word spells a command. -/
theorem test_command_word : decodeTableWord 16 0 = none ∧ State.reset.withFetchWord 16 0 = State.reset := ⟨rfl, rfl⟩

/-! ### The check of a flit, in parts the kernel can evaluate -/

/-- `n` bits of the check of R289 from bit 1023 − a downward. -/
def crcPart (flit a n c : Nat) : Nat :=
  (List.range n).foldl (fun c i =>
    let c2 := 2 * c % 65536
    if (flit.testBit (1023 - (a + i))) != (c.testBit 15) then c2 ^^^ 0x8BB7 else c2) c

theorem crcPart_add (flit a m n c : Nat) : crcPart flit a (m + n) c = crcPart flit (a + m) n (crcPart flit a m c) := by
  simp only [crcPart, List.range_add, List.foldl_append, List.foldl_map, Nat.add_assoc]

theorem flitCrc_parts (flit : Nat) : flitCrc flit = crcPart flit 882 126 (crcPart flit 756 126 (crcPart flit 630 126
    (crcPart flit 504 126 (crcPart flit 378 126 (crcPart flit 252 126 (crcPart flit 126 126 (crcPart flit 0 126 0xFFFF))))))) := by
  have key (a n c : Nat) : crcPart flit (a + 126) n (crcPart flit a 126 c) = crcPart flit a (126 + n) c :=
    (crcPart_add flit a 126 n c).symm
  rw [show (882 : Nat) = 756 + 126 from rfl, key, show (756 : Nat) = 630 + 126 from rfl, key,
    show (630 : Nat) = 504 + 126 from rfl, key, show (504 : Nat) = 378 + 126 from rfl, key,
    show (378 : Nat) = 252 + 126 from rfl, key, show (252 : Nat) = 126 + 126 from rfl, key,
    show crcPart flit 126 = crcPart flit (0 + 126) from rfl, key]
  simp [flitCrc, crcPart]

theorem crc_0_0 : crcPart 5498364065819 0 126 65535 = 49063 := by decide +kernel
theorem crc_0_1 : crcPart 5498364065819 126 126 49063 = 51136 := by decide +kernel
theorem crc_0_2 : crcPart 5498364065819 252 126 51136 = 16206 := by decide +kernel
theorem crc_0_3 : crcPart 5498364065819 378 126 16206 = 47712 := by decide +kernel
theorem crc_0_4 : crcPart 5498364065819 504 126 47712 = 18556 := by decide +kernel
theorem crc_0_5 : crcPart 5498364065819 630 126 18556 = 27812 := by decide +kernel
theorem crc_0_6 : crcPart 5498364065819 756 126 27812 = 1392 := by decide +kernel
theorem crc_0_7 : crcPart 5498364065819 882 126 1392 = 30747 := by decide +kernel
theorem crc_0 : flitCrc 5498364065819 = 30747 := by
  rw [flitCrc_parts, crc_0_0, crc_0_1, crc_0_2, crc_0_3, crc_0_4, crc_0_5, crc_0_6, crc_0_7]

theorem crc_1_0 : crcPart 302231475169856422481104 0 126 65535 = 49063 := by decide +kernel
theorem crc_1_1 : crcPart 302231475169856422481104 126 126 49063 = 51136 := by decide +kernel
theorem crc_1_2 : crcPart 302231475169856422481104 252 126 51136 = 16206 := by decide +kernel
theorem crc_1_3 : crcPart 302231475169856422481104 378 126 16206 = 47712 := by decide +kernel
theorem crc_1_4 : crcPart 302231475169856422481104 504 126 47712 = 18556 := by decide +kernel
theorem crc_1_5 : crcPart 302231475169856422481104 630 126 18556 = 27812 := by decide +kernel
theorem crc_1_6 : crcPart 302231475169856422481104 756 126 27812 = 1392 := by decide +kernel
theorem crc_1_7 : crcPart 302231475169856422481104 882 126 1392 = 3280 := by decide +kernel
theorem crc_1 : flitCrc 302231475169856422481104 = 3280 := by
  rw [flitCrc_parts, crc_1_0, crc_1_1, crc_1_2, crc_1_3, crc_1_4, crc_1_5, crc_1_6, crc_1_7]

theorem crc_2_0 : crcPart 973102611 0 126 65535 = 49063 := by decide +kernel
theorem crc_2_1 : crcPart 973102611 126 126 49063 = 51136 := by decide +kernel
theorem crc_2_2 : crcPart 973102611 252 126 51136 = 16206 := by decide +kernel
theorem crc_2_3 : crcPart 973102611 378 126 16206 = 47712 := by decide +kernel
theorem crc_2_4 : crcPart 973102611 504 126 47712 = 18556 := by decide +kernel
theorem crc_2_5 : crcPart 973102611 630 126 18556 = 27812 := by decide +kernel
theorem crc_2_6 : crcPart 973102611 756 126 27812 = 1392 := by decide +kernel
theorem crc_2_7 : crcPart 973102611 882 126 1392 = 24083 := by decide +kernel
theorem crc_2 : flitCrc 973102611 = 24083 := by
  rw [flitCrc_parts, crc_2_0, crc_2_1, crc_2_2, crc_2_3, crc_2_4, crc_2_5, crc_2_6, crc_2_7]

theorem crc_3_0 : crcPart 5260135901548373507240989882880128665550339802823173859498280903068732154297080822113666536277588451226982968856178217713019432250183803863127814770651880849955223671128444598191663757884322717271298750099847195 0 126 65535 = 49063 := by decide +kernel
theorem crc_3_1 : crcPart 5260135901548373507240989882880128665550339802823173859498280903068732154297080822113666536277588451226982968856178217713019432250183803863127814770651880849955223671128444598191663757884322717271298750099847195 126 126 49063 = 51136 := by decide +kernel
theorem crc_3_2 : crcPart 5260135901548373507240989882880128665550339802823173859498280903068732154297080822113666536277588451226982968856178217713019432250183803863127814770651880849955223671128444598191663757884322717271298750099847195 252 126 51136 = 3553 := by decide +kernel
theorem crc_3_3 : crcPart 5260135901548373507240989882880128665550339802823173859498280903068732154297080822113666536277588451226982968856178217713019432250183803863127814770651880849955223671128444598191663757884322717271298750099847195 378 126 3553 = 52087 := by decide +kernel
theorem crc_3_4 : crcPart 5260135901548373507240989882880128665550339802823173859498280903068732154297080822113666536277588451226982968856178217713019432250183803863127814770651880849955223671128444598191663757884322717271298750099847195 504 126 52087 = 10491 := by decide +kernel
theorem crc_3_5 : crcPart 5260135901548373507240989882880128665550339802823173859498280903068732154297080822113666536277588451226982968856178217713019432250183803863127814770651880849955223671128444598191663757884322717271298750099847195 630 126 10491 = 9760 := by decide +kernel
theorem crc_3_6 : crcPart 5260135901548373507240989882880128665550339802823173859498280903068732154297080822113666536277588451226982968856178217713019432250183803863127814770651880849955223671128444598191663757884322717271298750099847195 756 126 9760 = 38154 := by decide +kernel
theorem crc_3_7 : crcPart 5260135901548373507240989882880128665550339802823173859498280903068732154297080822113666536277588451226982968856178217713019432250183803863127814770651880849955223671128444598191663757884322717271298750099847195 882 126 38154 = 5523 := by decide +kernel
theorem crc_3 : flitCrc 5260135901548373507240989882880128665550339802823173859498280903068732154297080822113666536277588451226982968856178217713019432250183803863127814770651880849955223671128444598191663757884322717271298750099847195 = 5523 := by
  rw [flitCrc_parts, crc_3_0, crc_3_1, crc_3_2, crc_3_3, crc_3_4, crc_3_5, crc_3_6, crc_3_7]

/-! ### Witnesses -/

theorem witness_StepRunsTheFrontCommand :
    (fun (c : Instr) (r : List Instr) (s : State) => s.pending = c :: r) (.index 0) [.disarm 0 0] ({ State.reset with pending := [.index 0, .disarm 0 0] })
    ∧ (fun (s : State) => s.pending = []) State.reset := by
  refine ⟨?_, ?_⟩ <;> decide +kernel

theorem witness_SoundKeptByStep :
    (fun (s t : State) => s.Sound ∧ step s = .next t) State.reset (State.reset.pass 1) := by
  exact ⟨⟨by decide, by decide, by decide, by decide, by decide⟩, rfl⟩

theorem witness_SoundAtReset :
    (fun (n : Nat) => n < 192) 191
    ∧ (fun (n : Nat) => 192 ≤ n ∧ n < 256) 192
    ∧ (fun (n : Nat) => n < 256) 255 := by
  refine ⟨?_, ?_, ?_⟩ <;> decide +kernel

theorem witness_IndexRecognised :
    (fun (dt : Nat) (s : State) => ((s.elapse dt).get HEAD_AXLE_STATUS.lock = 1 ∨ ((s.elapse dt).get HEAD_AXLE_STATUS.lock = 2 ∧ (s.elapse dt).axle.afterSlip = true)) ∧ ((s.elapse dt).axle.inForce = none))
      (0) (mk [(HEAD_AXLE_STATUS.lock, 1)])
    ∧ (fun (dt : Nat) (v : Nat) (s : State) => ((s.elapse dt).get HEAD_AXLE_STATUS.lock = 1 ∨ ((s.elapse dt).get HEAD_AXLE_STATUS.lock = 2 ∧ (s.elapse dt).axle.afterSlip = true)) ∧ ((s.elapse dt).axle.inForce = some v) ∧ ((s.elapse dt).running = false))
      (0) (32) ({ mk [(HEAD_AXLE_STATUS.lock, 1)] with axle := { inForce := some 32 } })
    ∧ (fun (dt : Nat) (v : Nat) (s : State) => ((s.elapse dt).get HEAD_AXLE_STATUS.lock = 1 ∨ ((s.elapse dt).get HEAD_AXLE_STATUS.lock = 2 ∧ (s.elapse dt).axle.afterSlip = true)) ∧ ((s.elapse dt).axle.inForce = some v) ∧ ((s.elapse dt).running = true) ∧ (v = (s.elapse dt).count))
      (0) (32) ({ mk [(HEAD_AXLE_STATUS.lock, 1), (HEAD_IMAGE_STATUS.state, 3), (HEAD_AXLE_COUNT.count, 32)] with axle := { inForce := some 32 } })
    ∧ (fun (dt : Nat) (v : Nat) (s : State) => ((s.elapse dt).get HEAD_AXLE_STATUS.lock = 1 ∨ ((s.elapse dt).get HEAD_AXLE_STATUS.lock = 2 ∧ (s.elapse dt).axle.afterSlip = true)) ∧ ((s.elapse dt).axle.inForce = some v) ∧ ((s.elapse dt).running = true) ∧ (v ≠ (s.elapse dt).count))
      (0) (32) ({ mk [(HEAD_AXLE_STATUS.lock, 1), (HEAD_IMAGE_STATUS.state, 3), (HEAD_AXLE_COUNT.count, 48)] with axle := { inForce := some 32 } }) := by
  refine ⟨?_, ?_, ?_, ?_⟩ <;> decide +kernel

theorem witness_SecondArrival :
    (fun (dt : Nat) (n i : Nat) (a : SchedAction) (s : State) => ((s.pass dt).action n i = some a) ∧ ((s.pass dt).clockAtOffset a.offset = true) ∧ (i = (s.pass dt).issuedBy n) ∧ (a.kind = 3) ∧ ((s.pass dt).get (TILE_STATE.state.tile n) ≠ 0) ∧ ((s.pass dt).tileClock n = true) ∧ (((s.pass dt).issued n a).flag (TILE_BARRIER_b.valid.bar n (a.chan % 64)) = true) ∧ (((s.pass dt).issued n a).flag (TILE_BARRIER_b.member.bar n (a.chan % 64)) = true) ∧ (((s.pass dt).issued n a).flag (TILE_BARRIER_b.waiting.bar n (a.chan % 64)) = true) ∧ (n < 10240))
      (0) (0) (0) (⟨0, 3, 1, 0, 0⟩) ({ runMk (img0 [⟨0, 3, 1, 0, 0⟩]) [((TILE_BARRIER_b.valid.bar 0 1), 1), ((TILE_BARRIER_b.member.bar 0 1), 1), ((TILE_BARRIER_b.waiting.bar 0 1), 1)] with free := 0 }) := by
  decide +kernel

theorem witness_StatusRead :
    (fun (dt : Nat) (s : State) => ((s.pass dt).boot.pwrgood = true))
      (0) ({ mk [(HEAD_BOOT_STATUS.step, 9)] with boot := { pwrgood := true } }) := by
  decide +kernel

theorem witness_GlobalDisable :
    (fun (dt : Nat) (g : Nat) (s : State) => ((s.elapse dt).flag EVT_CTRL.disable = true))
      (0) (3) (mk [(EVT_SRC_n.pending.src 19, 1), (EVT_CTRL.disable, 1)])
    ∧ (fun (dt : Nat) (i : Nat) (e : EvRec) (s : State) => ((s.elapse dt).flag EVT_CTRL.disable = true) ∧ ((s.elapse dt).ev.inflight[i]? = some e))
      (0) (0) (evr 3) ({ mk [(EVT_CTRL.disable, 1)] with ev := { inflight := [evr 3] } })
    ∧ (fun (dt : Nat) (i : Nat) (e : EvRec) (s : State) => ((s.elapse dt).flag EVT_CTRL.disable = true) ∧ ((s.elapse dt).ev.inflight[i]? = some e) ∧ (e.coord < 10240))
      (0) (0) (evr 3) ({ mk [(EVT_CTRL.disable, 1)] with ev := { inflight := [evr 3] } })
    ∧ (fun (dt : Nat) (g n : Nat) (s : State) => (g < 4) ∧ (n < 256) ∧ ((s.elapse dt).flag EVT_CTRL.disable = false) ∧ ((s.elapse dt).flag (svcValid g) = false) ∧ (∀ p ∈ (s.elapse dt).ev.selected, p.1 ≠ g) ∧ ((if n < 16 then (g, n) ∈ (s.elapse dt).ev.pend else (s.elapse dt).flag (EVT_SRC_n.pending.src n) = true ∧ (s.elapse dt).routeOf n = g ∧ (s.elapse dt).flag (EVT_SRC_n.mask.src n) = false)) ∧ (∀ m < n, ¬ (if m < 16 then (g, m) ∈ (s.elapse dt).ev.pend else (s.elapse dt).flag (EVT_SRC_n.pending.src m) = true ∧ (s.elapse dt).routeOf m = g ∧ (s.elapse dt).flag (EVT_SRC_n.mask.src m) = false)))
      (0) (3) (19) (mk [(EVT_SRC_n.pending.src 19, 1)]) := by
  refine ⟨?_, ?_, ?_, ?_⟩ <;> decide +kernel

theorem witness_AxleLockStates :
    (fun (dt : Nat) (s : State) => ((s.elapse dt).get HEAD_AXLE_STATUS.lock = 0) ∧ ((s.elapse dt).flag CLK_STATUS.refclk_ready = true))
      (0) (mk [(CLK_STATUS.refclk_ready, 1)])
    ∧ (fun (dt : Nat) (s : State) => ((s.elapse dt).get HEAD_AXLE_STATUS.lock = 1))
      (0) (mk [(HEAD_AXLE_STATUS.lock, 1)])
    ∧ (fun (dt : Nat) (s : State) => ((s.elapse dt).get HEAD_AXLE_STATUS.lock = 1) ∧ ((s.elapse dt).aligned = false))
      (0) (mk [(HEAD_AXLE_STATUS.lock, 1), (HEAD_AXLE_COUNT.count, 8)])
    ∧ (fun (dt : Nat) (s : State) => ((s.elapse dt).get HEAD_AXLE_STATUS.lock = 2) ∧ ((s.elapse dt).axle.afterSlip = false) ∧ ((s.elapse dt).aligned = true))
      (0) (mk [(HEAD_AXLE_STATUS.lock, 2), (HEAD_AXLE_COUNT.count, 15)])
    ∧ (fun (dt : Nat) (s : State) => ((s.elapse dt).get HEAD_AXLE_STATUS.lock = 2) ∧ ((s.elapse dt).axle.afterSlip = false) ∧ ((s.elapse dt).aligned = false))
      (0) (mk [(HEAD_AXLE_STATUS.lock, 2), (HEAD_AXLE_COUNT.count, 2)])
    ∧ (fun (dt : Nat) (s : State) => ((s.elapse dt).get HEAD_BOOT_STATUS.step = 5) ∧ ((s.elapse dt).get HEAD_AXLE_STATUS.lock = 0) ∧ ((s.elapse dt).flag CLK_STATUS.refclk_ready = true))
      (0) (mk [(HEAD_BOOT_STATUS.step, 5), (CLK_STATUS.refclk_ready, 1)]) := by
  refine ⟨?_, ?_, ?_, ?_, ?_, ?_⟩ <;> decide +kernel

theorem witness_ArmingALoad :
    (fun (dt : Nat) (cmd : Nat) (s : State) => ((s.pass dt).cmdRuns 2 [1, 2] = true) ∧ ((s.pass dt).get HEAD_AXLE_LOAD.value % 16 = 0))
      (0) (7) (openMk [])
    ∧ (fun (dt : Nat) (cmd : Nat) (s : State) => ((s.pass dt).cmdRuns 2 [1, 2] = true) ∧ ((s.pass dt).get HEAD_AXLE_LOAD.value % 16 ≠ 0))
      (0) (7) (openMk [(HEAD_AXLE_LOAD.value, 8)])
    ∧ (fun (dt : Nat) (cmd : Nat) (s : State) => ((s.pass dt).cmdRuns 2 [1, 2] = true))
      (0) (7) (openMk [])
    ∧ (fun (dt : Nat) (a : Arm) (rest : List Arm) (s : State) => ((s.elapse dt).axle.pendingArms = a :: rest) ∧ (a.due ≤ (s.elapse dt).ticks))
      (0) (⟨16, 0⟩) ([⟨32, 5⟩]) ({ State.reset with axle := { pendingArms := [⟨16, 0⟩, ⟨32, 5⟩] } }) := by
  refine ⟨?_, ?_, ?_, ?_⟩ <;> decide +kernel

theorem witness_EventRecords :
    (fun (dt : Nat) (i : Nat) (e : EvRec) (s : State) => ((s.elapse dt).ev.inflight[i]? = some e))
      (0) (0) (evr 3) ({ State.reset with ev := { inflight := [evr 3] } })
    ∧ (fun (dt : Nat) (i : Nat) (e : EvRec) (s : State) => ((s.elapse dt).ev.inflight[i]? = some e) ∧ (e.coord < 10240))
      (0) (0) (evr 3) ({ State.reset with ev := { inflight := [evr 3] } })
    ∧ (fun (dt : Nat) (k n : Nat) (s : State) => ((s.elapse dt).ev.lost = [(k, n)]) ∧ ((s.elapse dt).ev.stream.length < 65536))
      (0) (1) (5) ({ State.reset with ev := { lost := [(1, 5)] } })
    ∧ (fun (dt : Nat) (c : LongCmd) (s : State) => ((s.elapse dt).port.long = some c) ∧ ((s.elapse dt).port.progTick + 1600000 ≤ (s.elapse dt).ticks) ∧ ((s.elapse dt).ev.stream.length < 65536))
      (1600000) (⟨0x111, 1, 0, 0, 0, 0, false, [], false⟩) ({ State.reset with port := { long := some ⟨0x111, 1, 0, 0, 0, 0, false, [], false⟩ } })
    ∧ (fun (dt : Nat) (s : State) => ((s.pass dt).get CTL_TELEM_CFG.period ≠ 0) ∧ ((s.pass dt).port.teleTick + 160000 * (s.pass dt).get CTL_TELEM_CFG.period ≤ (s.pass dt).ticks) ∧ ((s.pass dt).flips = []))
      (160000) (mk [(CTL_TELEM_CFG.period, 1)])
    ∧ (fun (dt : Nat) (s : State) => ((s.pass dt).get CTL_TELEM_CFG.period ≠ 0) ∧ ((s.pass dt).port.teleTick + 160000 * (s.pass dt).get CTL_TELEM_CFG.period ≤ (s.pass dt).ticks))
      (160000) (mk [(CTL_TELEM_CFG.period, 1)]) := by
  refine ⟨?_, ?_, ?_, ?_, ?_, ?_⟩ <;> decide +kernel

theorem witness_EventService :
    (fun (dt : Nat) (g n : Nat) (s : State) => (g < 4) ∧ ((s.elapse dt).flag EVT_CTRL.disable = false) ∧ ((s.elapse dt).flag (svcValid g) = false) ∧ (((s.elapse dt).ev.selected.any fun p => p.1 == g) = false) ∧ ((s.elapse dt).selectable g = some n))
      (0) (3) (19) (mk [(EVT_SRC_n.pending.src 19, 1)])
    ∧ (fun (dt : Nat) (g n : Nat) (s : State) => ((s.elapse dt).ev.selected.find? (fun p => p.1 == g) = some (g, n)) ∧ (g < 4) ∧ (n < 256))
      (0) (3) (255) ({ State.reset with ev := { selected := [(3, 255)] } })
    ∧ (fun (dt : Nat) (g : Nat) (s : State) => (g < 4) ∧ ((s.elapse dt).flag (svcValid g) = true))
      (0) (3) (mk [(svcValid 3, 1)])
    ∧ (fun (dt : Nat) (g n : Nat) (m : Bool) (s : State) => (16 ≤ n) ∧ (n < 256) ∧ ((s.elapse dt).routeOf n = g))
      (0) (3) (19) (true) (State.reset) := by
  refine ⟨?_, ?_, ?_, ?_⟩ <;> decide +kernel

theorem witness_MailboxWords :
    (fun (dt : Nat) (m e ident v : Nat) (s : State) => (m < 28) ∧ (e < 2) ∧ ((mbxGuard m e).isSome = true) ∧ (((s.elapse dt).mbxOutOf m e).words.length < 8))
      (0) (27) (1) (0) (5) (State.reset)
    ∧ (fun (dt : Nat) (m ident v : Nat) (s : State) => (m < 16) ∧ (((s.elapse dt).mbxOutOf m 0).words.length < 8))
      (0) (15) (0) (5) (State.reset)
    ∧ (fun (dt : Nat) (m e ident w : Nat) (ws : List Nat) (s : State) => (m < 28) ∧ (e < 2) ∧ ((mbxGuard m e).isSome = true) ∧ (((s.elapse dt).mbxOutOf m (1 - e)).words = w :: ws))
      (0) (27) (1) (0) (5) ([]) ({ State.reset with mbx := [(54, ⟨[5], none⟩)] })
    ∧ (fun (dt : Nat) (m e ident : Nat) (s : State) => (m < 28) ∧ (e < 2) ∧ ((mbxGuard m e).isSome = true) ∧ (((s.elapse dt).mbxOutOf m (1 - e)).words = []))
      (0) (27) (1) (0) (State.reset)
    ∧ (fun (dt : Nat) (m ident w : Nat) (ws : List Nat) (s : State) => (m < 16) ∧ (((s.elapse dt).mbxOutOf m 1).words = w :: ws))
      (0) (15) (0) (5) ([]) ({ State.reset with mbx := [(31, ⟨[5], none⟩)] }) := by
  refine ⟨?_, ?_, ?_, ?_, ?_⟩ <;> decide +kernel

theorem witness_MailboxSignals :
    (fun (dt : Nat) (m e ident v : Nat) (s : State) => (m < 28) ∧ (e < 2) ∧ ((mbxGuard m e).isSome = true))
      (0) (27) (1) (0) (5) (State.reset)
    ∧ (fun (dt : Nat) (m e ident v : Nat) (s : State) => (m < 28) ∧ (e < 2) ∧ ((mbxGuard m e).isSome = true))
      (0) (27) (1) (0) (5) (State.reset)
    ∧ (fun (dt : Nat) (m e ident v : Nat) (s : State) => (m < 28) ∧ (e < 2) ∧ ((mbxGuard m e).isSome = true))
      (0) (27) (1) (0) (5) (State.reset)
    ∧ (fun (dt : Nat) (m ident : Nat) (s : State) => (m < 16))
      (0) (15) (0) (State.reset)
    ∧ (fun (dt : Nat) (m e ident v : Nat) (s : State) => (m < 28) ∧ (e < 2) ∧ ((mbxGuard m e).isSome = true))
      (0) (27) (1) (0) (2^32) (State.reset)
    ∧ (fun (dt : Nat) (m e x : Nat) (s : State) => (((s.elapse dt).mbxOutOf m e).timer = some x) ∧ (x + 160 * (s.elapse dt).get (MBX_CTRL.timeout.page m e) ≤ (s.elapse dt).ticks))
      (160000000) (27) (1) (0) ({ State.reset with mbx := [(55, ⟨[5], some 0⟩)] }) := by
  refine ⟨?_, ?_, ?_, ?_, ?_, ?_⟩ <;> decide +kernel

theorem witness_ProgramStep :
    (fun (dt : Nat) (n i : Nat) (a : SchedAction) (ops : List ProgOp) (ups : List Upset) (s : State) => ((s.pass dt).action n i = some a) ∧ ((s.pass dt).clockAtOffset a.offset = true) ∧ (i = (s.pass dt).issuedBy n) ∧ (a.kind = 1) ∧ ((s.pass dt).get (TILE_STATE.state.tile n) ≠ 0) ∧ ((s.pass dt).tileClock n = true))
      (0) (0) (0) (⟨0, 1, 0, 0, 0⟩) ([]) ([]) ({ runMk (img0 [⟨0, 1, 0, 0, 0⟩]) [] with free := 0 })
    ∧ (fun (dt : Nat) (n i : Nat) (a : SchedAction) (s : State) => ((s.pass dt).action n i = some a) ∧ ((s.pass dt).clockAtOffset a.offset = true) ∧ (i = (s.pass dt).issuedBy n) ∧ (a.kind = 1) ∧ ((s.pass dt).get (TILE_STATE.state.tile n) ≠ 0) ∧ ((s.pass dt).tileClock n = true))
      (0) (0) (0) (⟨0, 1, 0, 0, 0⟩) ({ runMk (img0 [⟨0, 1, 0, 0, 0⟩]) [] with free := 0 })
    ∧ (fun (dt : Nat) (n i : Nat) (a : SchedAction) (p : Port) (off : Nat) (d : List Byte) (s : State) => ((s.pass dt).action n i = some a) ∧ ((s.pass dt).clockAtOffset a.offset = true) ∧ (i = (s.pass dt).issuedBy n) ∧ (a.kind = 1) ∧ ((s.pass dt).get (TILE_STATE.state.tile n) ≠ 0) ∧ ((s.pass dt).tileClock n = true) ∧ (((s.pass dt).issued n a).portTrap n p off d.length localWrite = 0))
      (0) (0) (0) (⟨0, 1, 0, 0, 0⟩) (.engine) (512) ([1, 2, 3, 4, 5, 6, 7, 8]) ({ runMk (img0 [⟨0, 1, 0, 0, 0⟩]) [((TILE_REGION_n.base.tile 0).off 0, 0), ((TILE_REGION_n.limit.tile 0).off 0, 64), (⟨tileBase 0 + TILE_REGION_n.base.key, 61, 1⟩, 1), (⟨tileBase 0 + TILE_REGION_n.base.key, 60, 1⟩, 1)] with free := 0 })
    ∧ (fun (dt : Nat) (n i : Nat) (a : SchedAction) (set line lines layer entry : Nat) (s : State) => ((s.pass dt).action n i = some a) ∧ ((s.pass dt).clockAtOffset a.offset = true) ∧ (i = (s.pass dt).issuedBy n) ∧ (a.kind = 1) ∧ ((s.pass dt).get (TILE_STATE.state.tile n) ≠ 0) ∧ ((s.pass dt).tileClock n = true) ∧ (0 < lines))
      (0) (0) (0) (⟨0, 1, 0, 0, 0⟩) (1) (2) (3) (0) (0) ({ runMk (img0 [⟨0, 1, 0, 0, 0⟩]) [] with free := 0 })
    ∧ (fun (dt : Nat) (n i : Nat) (a : SchedAction) (store o words : Nat) (s : State) => ((s.pass dt).action n i = some a) ∧ ((s.pass dt).clockAtOffset a.offset = true) ∧ (i = (s.pass dt).issuedBy n) ∧ (a.kind = 1) ∧ ((s.pass dt).get (TILE_STATE.state.tile n) ≠ 0) ∧ ((s.pass dt).tileClock n = true) ∧ (Memory.wf (s.pass dt).mem = true))
      (0) (0) (0) (⟨0, 1, 0, 0, 0⟩) (1) (0) (2) ({ runMk (img0 [⟨0, 1, 0, 0, 0⟩]) [] with free := 0 })
    ∧ (fun (dt : Nat) (n i : Nat) (a : SchedAction) (p : Packet) (s : State) => ((s.pass dt).action n i = some a) ∧ ((s.pass dt).clockAtOffset a.offset = true) ∧ (i = (s.pass dt).issuedBy n) ∧ (a.kind = 1) ∧ ((s.pass dt).get (TILE_STATE.state.tile n) ≠ 0) ∧ ((s.pass dt).tileClock n = true) ∧ (p.ty ≠ 5))
      (0) (0) (0) (⟨0, 1, 0, 0, 0⟩) (⟨0, 1, 0, 0, 1, 0, 0, 1, 0, 64, 0, [5]⟩) ({ runMk (img0 [⟨0, 1, 0, 0, 0⟩]) [] with free := 0 }) := by
  refine ⟨?_, ?_, ?_, ?_, ?_, ?_⟩ <;> decide +kernel

theorem witness_CircularRegions :
    (fun (dt : Nat) (n i : Nat) (a : SchedAction) (s : State) => ((s.pass dt).action n i = some a) ∧ ((s.pass dt).clockAtOffset a.offset = true) ∧ (i = (s.pass dt).issuedBy n) ∧ (a.kind = 4) ∧ ((s.pass dt).get (TILE_STATE.state.tile n) ≠ 0) ∧ ((s.pass dt).tileClock n = true) ∧ (((s.pass dt).issued n a).circ n (a.chan % 16) TILE_CIRC_CFG_n.enable ≠ 0) ∧ (((s.pass dt).issued n a).tile.circ = []) ∧ (1 ≤ a.operand) ∧ (a.operand ≤ 16) ∧ (((s.pass dt).issued n a).pushLegal n (a.chan % 16) a.operand = true))
      (0) (0) (0) (⟨0, 4, 2, 0, 2⟩) ({ runMk (img0 [⟨0, 4, 2, 0, 2⟩]) [((TILE_CIRC_CFG_n.enable.tile 0).off 32, 1), ((TILE_CIRC_CFG_n.slots.tile 0).off 32, 3), ((TILE_CIRC_PTR_n.tail.tile 0).off 32, 3), ((TILE_CIRC_PTR_n.head.tile 0).off 32, 2), ((TILE_CIRC_PTR_n.count.tile 0).off 32, 1)] with free := 0 })
    ∧ (fun (dt : Nat) (n i : Nat) (a : SchedAction) (s : State) => ((s.pass dt).action n i = some a) ∧ ((s.pass dt).clockAtOffset a.offset = true) ∧ (i = (s.pass dt).issuedBy n) ∧ (a.kind = 4) ∧ ((s.pass dt).get (TILE_STATE.state.tile n) ≠ 0) ∧ ((s.pass dt).tileClock n = true) ∧ (((s.pass dt).issued n a).circ n (a.chan % 16) TILE_CIRC_CFG_n.enable ≠ 0) ∧ (((s.pass dt).issued n a).tile.circ = []) ∧ (((s.pass dt).issued n a).pushLegal n (a.chan % 16) a.operand = false))
      (0) (0) (0) (⟨0, 4, 2, 0, 2⟩) ({ runMk (img0 [⟨0, 4, 2, 0, 2⟩]) [((TILE_CIRC_CFG_n.enable.tile 0).off 32, 1), ((TILE_CIRC_CFG_n.slots.tile 0).off 32, 3), ((TILE_CIRC_PTR_n.tail.tile 0).off 32, 3), ((TILE_CIRC_PTR_n.head.tile 0).off 32, 2), ((TILE_CIRC_PTR_n.count.tile 0).off 32, 4)] with free := 0 })
    ∧ (fun (dt : Nat) (n i : Nat) (a : SchedAction) (s : State) => ((s.pass dt).action n i = some a) ∧ ((s.pass dt).clockAtOffset a.offset = true) ∧ (i = (s.pass dt).issuedBy n) ∧ (a.kind = 5) ∧ ((s.pass dt).get (TILE_STATE.state.tile n) ≠ 0) ∧ ((s.pass dt).tileClock n = true) ∧ (((s.pass dt).issued n a).circ n (a.chan % 16) TILE_CIRC_CFG_n.enable ≠ 0) ∧ (((s.pass dt).issued n a).tile.circ = []) ∧ (1 ≤ a.operand) ∧ (a.operand ≤ 16) ∧ (((s.pass dt).issued n a).popLegal n (a.chan % 16) a.operand = true))
      (0) (0) (0) (⟨0, 5, 2, 0, 2⟩) ({ runMk (img0 [⟨0, 5, 2, 0, 2⟩]) [((TILE_CIRC_CFG_n.enable.tile 0).off 32, 1), ((TILE_CIRC_CFG_n.slots.tile 0).off 32, 3), ((TILE_CIRC_PTR_n.tail.tile 0).off 32, 3), ((TILE_CIRC_PTR_n.head.tile 0).off 32, 2), ((TILE_CIRC_PTR_n.count.tile 0).off 32, 3)] with free := 0 })
    ∧ (fun (dt : Nat) (n i : Nat) (a : SchedAction) (s : State) => ((s.pass dt).action n i = some a) ∧ ((s.pass dt).clockAtOffset a.offset = true) ∧ (i = (s.pass dt).issuedBy n) ∧ (a.kind = 5) ∧ ((s.pass dt).get (TILE_STATE.state.tile n) ≠ 0) ∧ ((s.pass dt).tileClock n = true) ∧ (((s.pass dt).issued n a).circ n (a.chan % 16) TILE_CIRC_CFG_n.enable ≠ 0) ∧ (((s.pass dt).issued n a).tile.circ = []) ∧ (((s.pass dt).issued n a).popLegal n (a.chan % 16) a.operand = false))
      (0) (0) (0) (⟨0, 5, 2, 0, 2⟩) ({ runMk (img0 [⟨0, 5, 2, 0, 2⟩]) [((TILE_CIRC_CFG_n.enable.tile 0).off 32, 1), ((TILE_CIRC_CFG_n.slots.tile 0).off 32, 3), ((TILE_CIRC_PTR_n.tail.tile 0).off 32, 3), ((TILE_CIRC_PTR_n.head.tile 0).off 32, 2), ((TILE_CIRC_PTR_n.count.tile 0).off 32, 1)] with free := 0 })
    ∧ (fun (dt : Nat) (n c : Nat) (w : Wait) (s : State) => (((s.pass dt).tile.waits.find? fun (x : Wait) => x.tile == n && x.circ == c && (if x.pop then (s.pass dt).popLegal n c x.n else (s.pass dt).pushLegal n c x.n)) = some w) ∧ (w.origin = none) ∧ (w.pop = false) ∧ (c < 16))
      (0) (0) (2) (⟨0, 2, 1, false, none⟩) ({ mk [((TILE_CIRC_CFG_n.enable.tile 0).off 32, 1), ((TILE_CIRC_CFG_n.slots.tile 0).off 32, 3), ((TILE_CIRC_PTR_n.tail.tile 0).off 32, 3), ((TILE_CIRC_PTR_n.head.tile 0).off 32, 2), ((TILE_CIRC_PTR_n.count.tile 0).off 32, 1)] with tile := { waits := [⟨0, 2, 1, false, none⟩] } }) := by
  refine ⟨?_, ?_, ?_, ?_, ?_⟩ <;> decide +kernel

theorem witness_FillsAndCopies :
    (fun (dt : Nat) (n i : Nat) (a : SchedAction) (d : Desc) (s : State) => ((s.pass dt).action n i = some a) ∧ ((s.pass dt).clockAtOffset a.offset = true) ∧ (i = (s.pass dt).issuedBy n) ∧ (a.kind = 6) ∧ ((s.pass dt).get (TILE_STATE.state.tile n) ≠ 0) ∧ ((s.pass dt).tileClock n = true) ∧ (d = parseDesc (((s.pass dt).issued n a).readPort n .fillCopy a.operand 64).1) ∧ ((((s.pass dt).issued n a).readPort n .fillCopy a.operand 64).2.fillTrap n d false = none) ∧ (((s.pass dt).issued n a).tile.late = []) ∧ ((∀ p ∈ ((s.pass dt).issued n a).flips, p.1 + 8 ≤ spadKey n a.operand ∨ spadKey n a.operand + 64 ≤ p.1)) ∧ (Memory.wf (s.pass dt).mem = true))
      (0) (0) (0) (⟨0, 6, 0, 0, 0⟩) (⟨0, 0, 0, 0, 0, 0, 0, 128, 320, 64, 2, 64, 64, 2055, true⟩) ({ runMk (img0 [⟨0, 6, 0, 0, 0⟩]) [((TILE_REGION_n.base.tile 0).off 0, 0), ((TILE_REGION_n.limit.tile 0).off 0, 64), (⟨tileBase 0 + TILE_REGION_n.base.key, 61, 1⟩, 1), (⟨tileBase 0 + TILE_REGION_n.base.key, 60, 1⟩, 1)] with free := 0, mem := (Memory.setBytes (Memory.setBytes (Memory.setBytes (Memory.setBytes (Memory.setBytes [] (spadKey 0 16) [128]) (spadKey 0 24) [64, 1]) (spadKey 0 32) [64, 0, 0, 0, 2]) (spadKey 0 40) [64, 0, 0, 0, 64]) (spadKey 0 48) [7, 8]) })
    ∧ (fun (dt : Nat) (n i : Nat) (a : SchedAction) (d : Desc) (s : State) => ((s.pass dt).action n i = some a) ∧ ((s.pass dt).clockAtOffset a.offset = true) ∧ (i = (s.pass dt).issuedBy n) ∧ (a.kind = 7) ∧ ((s.pass dt).get (TILE_STATE.state.tile n) ≠ 0) ∧ ((s.pass dt).tileClock n = true) ∧ (d = parseDesc (((s.pass dt).issued n a).readPort n .fillCopy a.operand 64).1) ∧ ((((s.pass dt).issued n a).readPort n .fillCopy a.operand 64).2.fillTrap n d true = none) ∧ (((s.pass dt).issued n a).tile.late = []) ∧ ((∀ p ∈ ((s.pass dt).issued n a).flips, p.1 + 8 ≤ spadKey n a.operand ∨ spadKey n a.operand + 64 ≤ p.1)) ∧ (Memory.wf (s.pass dt).mem = true) ∧ (d.rows ≤ 1 ∨ d.rowBytes ≤ d.dstStride) ∧ (∀ r ∈ descRows d, ∀ p ∈ ((s.pass dt).issued n a).flips, p.1 + 8 ≤ spadKey n r.2 ∨ spadKey n r.2 + d.rowBytes ≤ p.1))
      (0) (0) (0) (⟨0, 7, 0, 0, 0⟩) (⟨0, 0, 0, 0, 0, 0, 0, 128, 320, 64, 2, 64, 64, 2055, true⟩) ({ runMk (img0 [⟨0, 7, 0, 0, 0⟩]) [((TILE_REGION_n.base.tile 0).off 0, 0), ((TILE_REGION_n.limit.tile 0).off 0, 64), (⟨tileBase 0 + TILE_REGION_n.base.key, 61, 1⟩, 1), (⟨tileBase 0 + TILE_REGION_n.base.key, 60, 1⟩, 1)] with free := 0, mem := (Memory.setBytes (Memory.setBytes (Memory.setBytes (Memory.setBytes (Memory.setBytes [] (spadKey 0 16) [128]) (spadKey 0 24) [64, 1]) (spadKey 0 32) [64, 0, 0, 0, 2]) (spadKey 0 40) [64, 0, 0, 0, 64]) (spadKey 0 48) [7, 8]) })
    ∧ (fun (dt : Nat) (n ch : Nat) (s : State) => ((s.pass dt).writing n ch = false))
      (0) (0) (8) ({ State.reset with tile := { fills := [(0, 8)] } })
    ∧ (fun (dt : Nat) (n i : Nat) (a : SchedAction) (s : State) => ((s.pass dt).action n i = some a) ∧ ((s.pass dt).clockAtOffset a.offset = true) ∧ (i = (s.pass dt).issuedBy n) ∧ (a.kind = 2) ∧ ((s.pass dt).get (TILE_STATE.state.tile n) ≠ 0) ∧ ((s.pass dt).tileClock n = true) ∧ ((((s.pass dt).issued n a).cart n (a.chan % 8)).queue.length < 4))
      (0) (0) (0) (⟨0, 2, 3, 0, 256⟩) ({ runMk (img0 [⟨0, 2, 3, 0, 256⟩]) [] with free := 0 })
    ∧ (fun (dt : Nat) (n i : Nat) (a : SchedAction) (s : State) => ((s.pass dt).action n i = some a) ∧ ((s.pass dt).clockAtOffset a.offset = true) ∧ (i = (s.pass dt).issuedBy n) ∧ (a.kind = 2) ∧ ((s.pass dt).get (TILE_STATE.state.tile n) ≠ 0) ∧ ((s.pass dt).tileClock n = true) ∧ (4 ≤ (((s.pass dt).issued n a).cart n (a.chan % 8)).queue.length))
      (0) (0) (0) (⟨0, 2, 3, 0, 256⟩) ({ runMk (img0 [⟨0, 2, 3, 0, 256⟩]) [] with free := 0, net := { carts := [(3, ⟨[0, 64, 128, 192], none, none, 0⟩)] } }) := by
  refine ⟨?_, ?_, ?_, ?_, ?_⟩ <;> decide +kernel

theorem witness_Barriers :
    (fun (dt : Nat) (n i : Nat) (a : SchedAction) (s : State) => ((s.pass dt).action n i = some a) ∧ ((s.pass dt).clockAtOffset a.offset = true) ∧ (i = (s.pass dt).issuedBy n) ∧ (a.kind = 3) ∧ ((s.pass dt).get (TILE_STATE.state.tile n) ≠ 0) ∧ ((s.pass dt).tileClock n = true) ∧ (((s.pass dt).issued n a).flag (TILE_BARRIER_b.valid.bar n (a.chan % 64)) = true) ∧ (((s.pass dt).issued n a).flag (TILE_BARRIER_b.member.bar n (a.chan % 64)) = true) ∧ (((s.pass dt).issued n a).flag (TILE_BARRIER_b.waiting.bar n (a.chan % 64)) = false) ∧ (setBits (((s.pass dt).issued n a).get (TILE_BARRIER_b.arrived.bar n (a.chan % 64))) 4 1 1 ≠ ((s.pass dt).issued n a).get (TILE_BARRIER_b.children.bar n (a.chan % 64)) + 16 * ((s.pass dt).issued n a).get (TILE_BARRIER_b.member.bar n (a.chan % 64))))
      (0) (0) (0) (⟨0, 3, 1, 0, 0⟩) ({ runMk (img0 [⟨0, 3, 1, 0, 0⟩]) [((TILE_BARRIER_b.valid.bar 0 1), 1), ((TILE_BARRIER_b.member.bar 0 1), 1), ((TILE_BARRIER_b.children.bar 0 1), 2)] with free := 0 })
    ∧ (fun (dt : Nat) (n i m : Nat) (a : SchedAction) (s : State) => ((s.pass dt).action n i = some a) ∧ ((s.pass dt).clockAtOffset a.offset = true) ∧ (i = (s.pass dt).issuedBy n) ∧ (a.kind = 3) ∧ ((s.pass dt).get (TILE_STATE.state.tile n) ≠ 0) ∧ ((s.pass dt).tileClock n = true) ∧ (((s.pass dt).issued n a).flag (TILE_BARRIER_b.valid.bar n (a.chan % 64)) = true) ∧ (((s.pass dt).issued n a).flag (TILE_BARRIER_b.member.bar n (a.chan % 64)) = true) ∧ (((s.pass dt).issued n a).flag (TILE_BARRIER_b.waiting.bar n (a.chan % 64)) = false) ∧ (setBits (((s.pass dt).issued n a).get (TILE_BARRIER_b.arrived.bar n (a.chan % 64))) 4 1 1 = ((s.pass dt).issued n a).get (TILE_BARRIER_b.children.bar n (a.chan % 64)) + 16 * ((s.pass dt).issued n a).get (TILE_BARRIER_b.member.bar n (a.chan % 64))) ∧ (((s.pass dt).issued n a).get (TILE_BARRIER_b.parent.bar n (a.chan % 64)) < 4) ∧ (neighbour n (((s.pass dt).issued n a).get (TILE_BARRIER_b.parent.bar n (a.chan % 64))) = some m))
      (0) (0) (0) (1) (⟨0, 3, 1, 0, 0⟩) ({ runMk (img0 [⟨0, 3, 1, 0, 0⟩]) [((TILE_BARRIER_b.valid.bar 0 1), 1), ((TILE_BARRIER_b.member.bar 0 1), 1), ((TILE_BARRIER_b.children.bar 0 1), 0), ((TILE_BARRIER_b.parent.bar 0 1), 1)] with free := 0 })
    ∧ (fun (dt : Nat) (n port b : Nat) (h : Hop) (s : State) => (((s.pass dt).net.hops.find? fun (h : Hop) => h.tile == n && h.port == port && h.pkt.ty == 7 && h.pkt.dst == b) = some h) ∧ (n < 10240) ∧ (b < 64) ∧ (port < 4) ∧ ((s.pass dt).flag (TILE_BARRIER_b.valid.bar n b) = true) ∧ (h.pkt.tag = (s.pass dt).get (TILE_BARRIER_b.gen.bar n b)) ∧ (((s.pass dt).get (TILE_BARRIER_b.children.bar n b)).testBit port = true) ∧ (setBits ((s.pass dt).get (TILE_BARRIER_b.arrived.bar n b)) port 1 1 ≠ (s.pass dt).get (TILE_BARRIER_b.children.bar n b) + 16 * (s.pass dt).get (TILE_BARRIER_b.member.bar n b)))
      (0) (0) (2) (1) (⟨0, 2, ⟨7, 0, 0, 1, 1, 0, 0, 0, 0, 0, 0, []⟩⟩) ({ mk [((TILE_BARRIER_b.valid.bar 0 1), 1), ((TILE_BARRIER_b.member.bar 0 1), 1), ((TILE_BARRIER_b.children.bar 0 1), 4)] with net := { hops := [⟨0, 2, ⟨7, 0, 0, 1, 1, 0, 0, 0, 0, 0, 0, []⟩⟩] } })
    ∧ (fun (dt : Nat) (n port b m : Nat) (h : Hop) (s : State) => (((s.pass dt).net.hops.find? fun (h : Hop) => h.tile == n && h.port == port && h.pkt.ty == 7 && h.pkt.dst == b) = some h) ∧ (n < 10240) ∧ (b < 64) ∧ (port < 4) ∧ ((s.pass dt).flag (TILE_BARRIER_b.valid.bar n b) = true) ∧ (h.pkt.tag = (s.pass dt).get (TILE_BARRIER_b.gen.bar n b)) ∧ (((s.pass dt).get (TILE_BARRIER_b.children.bar n b)).testBit port = true) ∧ (setBits ((s.pass dt).get (TILE_BARRIER_b.arrived.bar n b)) port 1 1 = (s.pass dt).get (TILE_BARRIER_b.children.bar n b) + 16 * (s.pass dt).get (TILE_BARRIER_b.member.bar n b)) ∧ ((s.pass dt).get (TILE_BARRIER_b.parent.bar n b) < 4) ∧ (neighbour n ((s.pass dt).get (TILE_BARRIER_b.parent.bar n b)) = some m))
      (0) (0) (2) (1) (1) (⟨0, 2, ⟨7, 0, 0, 1, 1, 0, 0, 0, 0, 0, 0, []⟩⟩) ({ mk [((TILE_BARRIER_b.valid.bar 0 1), 1), ((TILE_BARRIER_b.member.bar 0 1), 0), ((TILE_BARRIER_b.children.bar 0 1), 4), ((TILE_BARRIER_b.parent.bar 0 1), 1)] with net := { hops := [⟨0, 2, ⟨7, 0, 0, 1, 1, 0, 0, 0, 0, 0, 0, []⟩⟩] } })
    ∧ (fun (dt : Nat) (n port b : Nat) (h : Hop) (s : State) => (((s.pass dt).net.hops.find? fun (h : Hop) => h.tile == n && h.port == port && h.pkt.ty == 8 && h.pkt.dst == b) = some h) ∧ (n < 10240) ∧ (b < 64) ∧ ((s.pass dt).flag (TILE_BARRIER_b.valid.bar n b) = true) ∧ ((s.pass dt).get (TILE_BARRIER_b.parent.bar n b) = port) ∧ ((s.pass dt).flag (TILE_BARRIER_b.member.bar n b) = true))
      (0) (0) (2) (1) (⟨0, 2, ⟨8, 0, 0, 1, 1, 0, 0, 0, 0, 0, 0, []⟩⟩) ({ mk [((TILE_BARRIER_b.valid.bar 0 1), 1), ((TILE_BARRIER_b.member.bar 0 1), 1), ((TILE_BARRIER_b.parent.bar 0 1), 2), ((TILE_BARRIER_b.waiting.bar 0 1), 1), ((TILE_BARRIER_b.arrived.bar 0 1), 21)] with net := { hops := [⟨0, 2, ⟨8, 0, 0, 1, 1, 0, 0, 0, 0, 0, 0, []⟩⟩] } }) := by
  refine ⟨?_, ?_, ?_, ?_, ?_⟩ <;> decide +kernel

theorem witness_RemoteAccesses :
    (fun (dt : Nat) (p : Packet) (same : Bool) (u v : State) (n : Nat) (s : State) => ((s.pass dt).take p = some u) ∧ (badPacket p = false) ∧ (p.ty = 0) ∧ (v = (if same then u else u.next.trapCircs)) ∧ (epTile p.dst = some n) ∧ (p.space = 0) ∧ (v.portTrap n .network p.offset p.data.length remoteWrite = 0) ∧ (v.wantsAck p = false) ∧ (Memory.wf v.mem = true))
      (0) (⟨0, 1, 0, 1, 0, 0, 0, 1, 0, 64, 0, [1, 2, 3, 4, 5, 6, 7, 8]⟩) (true) ((State.take (State.pass ({ mk [((TILE_REGION_n.base.tile 0).off 0, 0), ((TILE_REGION_n.limit.tile 0).off 0, 64), (⟨tileBase 0 + TILE_REGION_n.base.key, 63, 1⟩, 1), (⟨tileBase 0 + TILE_REGION_n.base.key, 62, 1⟩, 1)] with net := { fly := [⟨0, 1, 0, 1, 0, 0, 0, 1, 0, 64, 0, [1, 2, 3, 4, 5, 6, 7, 8]⟩] } }) 0) ⟨0, 1, 0, 1, 0, 0, 0, 1, 0, 64, 0, [1, 2, 3, 4, 5, 6, 7, 8]⟩).getD State.reset) ((State.take (State.pass ({ mk [((TILE_REGION_n.base.tile 0).off 0, 0), ((TILE_REGION_n.limit.tile 0).off 0, 64), (⟨tileBase 0 + TILE_REGION_n.base.key, 63, 1⟩, 1), (⟨tileBase 0 + TILE_REGION_n.base.key, 62, 1⟩, 1)] with net := { fly := [⟨0, 1, 0, 1, 0, 0, 0, 1, 0, 64, 0, [1, 2, 3, 4, 5, 6, 7, 8]⟩] } }) 0) ⟨0, 1, 0, 1, 0, 0, 0, 1, 0, 64, 0, [1, 2, 3, 4, 5, 6, 7, 8]⟩).getD State.reset) (0) ({ mk [((TILE_REGION_n.base.tile 0).off 0, 0), ((TILE_REGION_n.limit.tile 0).off 0, 64), (⟨tileBase 0 + TILE_REGION_n.base.key, 63, 1⟩, 1), (⟨tileBase 0 + TILE_REGION_n.base.key, 62, 1⟩, 1)] with net := { fly := [⟨0, 1, 0, 1, 0, 0, 0, 1, 0, 64, 0, [1, 2, 3, 4, 5, 6, 7, 8]⟩] } })
    ∧ (fun (dt : Nat) (p : Packet) (same : Bool) (u v : State) (n : Nat) (s : State) => ((s.pass dt).take p = some u) ∧ (badPacket p = false) ∧ (p.ty = 0) ∧ (v = (if same then u else u.next.trapCircs)) ∧ (epTile p.dst = some n) ∧ (p.space = 0) ∧ (v.portTrap n .network p.offset p.data.length remoteWrite = 0) ∧ (v.wantsAck p = true) ∧ (Memory.wf v.mem = true))
      (0) (⟨0, 1, 0, 1, 0, 0, 0, 1, 0, 64, 0, [1, 2, 3, 4, 5, 6, 7, 8]⟩) (true) ((State.take (State.pass ({ mk [((TILE_REGION_n.base.tile 0).off 0, 0), ((TILE_REGION_n.limit.tile 0).off 0, 64), (⟨tileBase 0 + TILE_REGION_n.base.key, 63, 1⟩, 1), (⟨tileBase 0 + TILE_REGION_n.base.key, 62, 1⟩, 1)] with net := { fly := [⟨0, 1, 0, 1, 0, 0, 0, 1, 0, 64, 0, [1, 2, 3, 4, 5, 6, 7, 8]⟩], carts := [(96, ⟨[], none, some ⟨⟨0, 1, 0, 0, 0, 0, 0, 0, 0, 0, 0, 0, 0, 0, true⟩, 0, 0, [], [], 1, [], false⟩, 1⟩)] } }) 0) ⟨0, 1, 0, 1, 0, 0, 0, 1, 0, 64, 0, [1, 2, 3, 4, 5, 6, 7, 8]⟩).getD State.reset) ((State.take (State.pass ({ mk [((TILE_REGION_n.base.tile 0).off 0, 0), ((TILE_REGION_n.limit.tile 0).off 0, 64), (⟨tileBase 0 + TILE_REGION_n.base.key, 63, 1⟩, 1), (⟨tileBase 0 + TILE_REGION_n.base.key, 62, 1⟩, 1)] with net := { fly := [⟨0, 1, 0, 1, 0, 0, 0, 1, 0, 64, 0, [1, 2, 3, 4, 5, 6, 7, 8]⟩], carts := [(96, ⟨[], none, some ⟨⟨0, 1, 0, 0, 0, 0, 0, 0, 0, 0, 0, 0, 0, 0, true⟩, 0, 0, [], [], 1, [], false⟩, 1⟩)] } }) 0) ⟨0, 1, 0, 1, 0, 0, 0, 1, 0, 64, 0, [1, 2, 3, 4, 5, 6, 7, 8]⟩).getD State.reset) (0) ({ mk [((TILE_REGION_n.base.tile 0).off 0, 0), ((TILE_REGION_n.limit.tile 0).off 0, 64), (⟨tileBase 0 + TILE_REGION_n.base.key, 63, 1⟩, 1), (⟨tileBase 0 + TILE_REGION_n.base.key, 62, 1⟩, 1)] with net := { fly := [⟨0, 1, 0, 1, 0, 0, 0, 1, 0, 64, 0, [1, 2, 3, 4, 5, 6, 7, 8]⟩], carts := [(96, ⟨[], none, some ⟨⟨0, 1, 0, 0, 0, 0, 0, 0, 0, 0, 0, 0, 0, 0, true⟩, 0, 0, [], [], 1, [], false⟩, 1⟩)] } })
    ∧ (fun (dt : Nat) (p : Packet) (same : Bool) (u v : State) (n : Nat) (s : State) => ((s.pass dt).take p = some u) ∧ (badPacket p = false) ∧ (p.ty = 0) ∧ (v = (if same then u else u.next.trapCircs)) ∧ (epTile p.dst = some n) ∧ (p.space = 0) ∧ (v.portTrap n .network p.offset p.data.length remoteWrite ≠ 0))
      (0) (⟨0, 1, 0, 1, 0, 0, 0, 1, 0, 64, 0, [1, 2, 3, 4, 5, 6, 7, 8]⟩) (true) ((State.take (State.pass ({ mk [] with net := { fly := [⟨0, 1, 0, 1, 0, 0, 0, 1, 0, 64, 0, [1, 2, 3, 4, 5, 6, 7, 8]⟩] } }) 0) ⟨0, 1, 0, 1, 0, 0, 0, 1, 0, 64, 0, [1, 2, 3, 4, 5, 6, 7, 8]⟩).getD State.reset) ((State.take (State.pass ({ mk [] with net := { fly := [⟨0, 1, 0, 1, 0, 0, 0, 1, 0, 64, 0, [1, 2, 3, 4, 5, 6, 7, 8]⟩] } }) 0) ⟨0, 1, 0, 1, 0, 0, 0, 1, 0, 64, 0, [1, 2, 3, 4, 5, 6, 7, 8]⟩).getD State.reset) (0) ({ mk [] with net := { fly := [⟨0, 1, 0, 1, 0, 0, 0, 1, 0, 64, 0, [1, 2, 3, 4, 5, 6, 7, 8]⟩] } })
    ∧ (fun (dt : Nat) (p : Packet) (u : State) (n : Nat) (s : State) => ((s.pass dt).take p = some u) ∧ (badPacket p = false) ∧ (p.ty = 1) ∧ (epTile p.dst = some n) ∧ (p.space = 0) ∧ (u.portTrap n .network p.offset (64 * p.len) remoteRead = 0) ∧ (u.flips = []))
      (0) (⟨1, 1, 0, 1, 0, 0, 0, 1, 0, 64, 0, []⟩) ((State.take (State.pass ({ mk [((TILE_REGION_n.base.tile 0).off 0, 0), ((TILE_REGION_n.limit.tile 0).off 0, 64), (⟨tileBase 0 + TILE_REGION_n.base.key, 63, 1⟩, 1), (⟨tileBase 0 + TILE_REGION_n.base.key, 62, 1⟩, 1)] with net := { fly := [⟨1, 1, 0, 1, 0, 0, 0, 1, 0, 64, 0, []⟩] } }) 0) ⟨1, 1, 0, 1, 0, 0, 0, 1, 0, 64, 0, []⟩).getD State.reset) (0) ({ mk [((TILE_REGION_n.base.tile 0).off 0, 0), ((TILE_REGION_n.limit.tile 0).off 0, 64), (⟨tileBase 0 + TILE_REGION_n.base.key, 63, 1⟩, 1), (⟨tileBase 0 + TILE_REGION_n.base.key, 62, 1⟩, 1)] with net := { fly := [⟨1, 1, 0, 1, 0, 0, 0, 1, 0, 64, 0, []⟩] } })
    ∧ (fun (dt : Nat) (p : Packet) (u : State) (n : Nat) (s : State) => ((s.pass dt).take p = some u) ∧ (badPacket p = false) ∧ (p.ty = 6) ∧ (epTile p.dst = some n) ∧ (p.circ < 16) ∧ (u.circ n p.circ TILE_CIRC_CFG_n.enable ≠ 0) ∧ (u.tile.circ = []) ∧ ((u.tile.waits.any fun (w : Wait) => w.tile == n && w.circ == p.circ && w.pop == false) = false) ∧ (u.pushLegal n p.circ p.len = true))
      (0) (⟨6, 1, 0, 1, 0, 0, 0, 2, 0, 0, 15, []⟩) ((State.take (State.pass ({ mk [((TILE_CIRC_CFG_n.enable.tile 0).off 240, 1), ((TILE_CIRC_CFG_n.slots.tile 0).off 240, 1)] with net := { fly := [⟨6, 1, 0, 1, 0, 0, 0, 2, 0, 0, 15, []⟩] } }) 0) ⟨6, 1, 0, 1, 0, 0, 0, 2, 0, 0, 15, []⟩).getD State.reset) (0) ({ mk [((TILE_CIRC_CFG_n.enable.tile 0).off 240, 1), ((TILE_CIRC_CFG_n.slots.tile 0).off 240, 1)] with net := { fly := [⟨6, 1, 0, 1, 0, 0, 0, 2, 0, 0, 15, []⟩] } })
    ∧ (fun (dt : Nat) (p : Packet) (u : State) (n : Nat) (s : State) => ((s.pass dt).take p = some u) ∧ (badPacket p = false) ∧ (p.ty = 6) ∧ (epTile p.dst = some n) ∧ (p.circ < 16) ∧ (u.circ n p.circ TILE_CIRC_CFG_n.enable ≠ 0) ∧ (u.tile.circ = []) ∧ ((u.tile.waits.any fun (w : Wait) => w.tile == n && w.circ == p.circ && w.pop == false) = true ∨ u.pushLegal n p.circ p.len = false))
      (0) (⟨6, 1, 0, 1, 0, 0, 0, 3, 0, 0, 15, []⟩) ((State.take (State.pass ({ mk [((TILE_CIRC_CFG_n.enable.tile 0).off 240, 1), ((TILE_CIRC_CFG_n.slots.tile 0).off 240, 1)] with net := { fly := [⟨6, 1, 0, 1, 0, 0, 0, 3, 0, 0, 15, []⟩] } }) 0) ⟨6, 1, 0, 1, 0, 0, 0, 3, 0, 0, 15, []⟩).getD State.reset) (0) ({ mk [((TILE_CIRC_CFG_n.enable.tile 0).off 240, 1), ((TILE_CIRC_CFG_n.slots.tile 0).off 240, 1)] with net := { fly := [⟨6, 1, 0, 1, 0, 0, 0, 3, 0, 0, 15, []⟩] } }) := by
  refine ⟨?_, ?_, ?_, ?_, ?_, ?_⟩ <;> decide +kernel

theorem witness_Multicast :
    (fun (dt : Nat) (n port b : Nat) (same : Bool) (h : Hop) (s : State) => (((s.pass dt).net.hops.find? fun (h : Hop) => h.tile == n && h.port == port && h.pkt.ty == 5 && h.pkt.dst == b) = some h) ∧ (badPacket h.pkt = false) ∧ (b < 256) ∧ ((s.pass dt).flag ((TILE_MCAST_t.valid.tile n).off (8 * b)) = true) ∧ ((s.pass dt).get ((TILE_MCAST_t.vc.tile n).off (8 * b)) = h.pkt.vc) ∧ (((s.pass dt).get ((TILE_MCAST_t.mask.tile n).off (8 * b))).testBit 4 = false))
      (0) (0) (4) (1) (true) (⟨0, 4, ⟨5, 1, 0, 1, 1, 0, 0, 1, 0, 64, 0, [1, 2, 3, 4, 5, 6, 7, 8]⟩⟩) ({ mk [((TILE_MCAST_t.valid.tile 0).off 8, 1), ((TILE_MCAST_t.vc.tile 0).off 8, 1), ((TILE_MCAST_t.mask.tile 0).off 8, 6), ((TILE_REGION_n.base.tile 0).off 0, 0), ((TILE_REGION_n.limit.tile 0).off 0, 64), (⟨tileBase 0 + TILE_REGION_n.base.key, 63, 1⟩, 1), (⟨tileBase 0 + TILE_REGION_n.base.key, 62, 1⟩, 1)] with net := { hops := [⟨0, 4, ⟨5, 1, 0, 1, 1, 0, 0, 1, 0, 64, 0, [1, 2, 3, 4, 5, 6, 7, 8]⟩⟩] } })
    ∧ (fun (dt : Nat) (n port b : Nat) (same : Bool) (h : Hop) (v : State) (s : State) => (((s.pass dt).net.hops.find? fun (h : Hop) => h.tile == n && h.port == port && h.pkt.ty == 5 && h.pkt.dst == b) = some h) ∧ (badPacket h.pkt = false) ∧ (b < 256) ∧ ((s.pass dt).flag ((TILE_MCAST_t.valid.tile n).off (8 * b)) = true) ∧ ((s.pass dt).get ((TILE_MCAST_t.vc.tile n).off (8 * b)) = h.pkt.vc) ∧ ((s.pass dt).get ((TILE_MCAST_t.mask.tile n).off (8 * b)) = 16) ∧ (h.pkt.space = 0) ∧ (v = (if same then { (s.pass dt) with net := { (s.pass dt).net with hops := (s.pass dt).net.hops.erase h } } else ({ (s.pass dt) with net := { (s.pass dt).net with hops := (s.pass dt).net.hops.erase h } }).next.trapCircs)) ∧ (v.portTrap n .network h.pkt.offset h.pkt.data.length remoteWrite = 0) ∧ (Memory.wf v.mem = true))
      (0) (0) (4) (1) (true) (⟨0, 4, ⟨5, 1, 0, 1, 1, 0, 0, 1, 0, 64, 0, [1, 2, 3, 4, 5, 6, 7, 8]⟩⟩) ({ mk [((TILE_MCAST_t.valid.tile 0).off 8, 1), ((TILE_MCAST_t.vc.tile 0).off 8, 1), ((TILE_MCAST_t.mask.tile 0).off 8, 16), ((TILE_REGION_n.base.tile 0).off 0, 0), ((TILE_REGION_n.limit.tile 0).off 0, 64), (⟨tileBase 0 + TILE_REGION_n.base.key, 63, 1⟩, 1), (⟨tileBase 0 + TILE_REGION_n.base.key, 62, 1⟩, 1)] with net := { hops := [] } }) ({ mk [((TILE_MCAST_t.valid.tile 0).off 8, 1), ((TILE_MCAST_t.vc.tile 0).off 8, 1), ((TILE_MCAST_t.mask.tile 0).off 8, 16), ((TILE_REGION_n.base.tile 0).off 0, 0), ((TILE_REGION_n.limit.tile 0).off 0, 64), (⟨tileBase 0 + TILE_REGION_n.base.key, 63, 1⟩, 1), (⟨tileBase 0 + TILE_REGION_n.base.key, 62, 1⟩, 1)] with net := { hops := [⟨0, 4, ⟨5, 1, 0, 1, 1, 0, 0, 1, 0, 64, 0, [1, 2, 3, 4, 5, 6, 7, 8]⟩⟩] } })
    ∧ (fun (dt : Nat) (n b port : Nat) (s : State) => (n < 10240) ∧ (b < 256) ∧ ((s.pass dt).flag ((TILE_MCAST_t.valid.tile n).off (8 * b)) = true) ∧ ((s.pass dt).deviceFork n b = false) ∧ ((s.pass dt).turning = true) ∧ ((s.pass dt).flag HEAD_IMAGE_STATUS.debug = false))
      (0) (0) (1) (2) (mk [(HEAD_IMAGE_STATUS.state, 3), ((TILE_MCAST_t.valid.tile 0).off 8, 1), ((TILE_MCAST_t.vc.tile 0).off 8, 1), ((TILE_MCAST_t.mask.tile 0).off 8, 6), ((TILE_REGION_n.base.tile 0).off 0, 0), ((TILE_REGION_n.limit.tile 0).off 0, 64), (⟨tileBase 0 + TILE_REGION_n.base.key, 63, 1⟩, 1), (⟨tileBase 0 + TILE_REGION_n.base.key, 62, 1⟩, 1)])
    ∧ (fun (dt : Nat) (n b : Nat) (s : State) => (b < 256) ∧ ((s.pass dt).flag ((TILE_MCAST_t.valid.tile n).off (8 * b)) = true) ∧ ((s.pass dt).running = false))
      (0) (0) (1) (mk [((TILE_MCAST_t.valid.tile 0).off 8, 1), ((TILE_MCAST_t.vc.tile 0).off 8, 1), ((TILE_MCAST_t.mask.tile 0).off 8, 6), ((TILE_REGION_n.base.tile 0).off 0, 0), ((TILE_REGION_n.limit.tile 0).off 0, 64), (⟨tileBase 0 + TILE_REGION_n.base.key, 63, 1⟩, 1), (⟨tileBase 0 + TILE_REGION_n.base.key, 62, 1⟩, 1)])
    ∧ (fun (dt : Nat) (n b : Nat) (s : State) => (b < 256) ∧ ((s.pass dt).flag ((TILE_MCAST_t.valid.tile n).off (8 * b)) = true) ∧ ((s.pass dt).running = true))
      (0) (0) (1) (mk [(HEAD_IMAGE_STATUS.state, 3), ((TILE_MCAST_t.valid.tile 0).off 8, 1), ((TILE_MCAST_t.vc.tile 0).off 8, 1), ((TILE_MCAST_t.mask.tile 0).off 8, 6), ((TILE_REGION_n.base.tile 0).off 0, 0), ((TILE_REGION_n.limit.tile 0).off 0, 64), (⟨tileBase 0 + TILE_REGION_n.base.key, 63, 1⟩, 1), (⟨tileBase 0 + TILE_REGION_n.base.key, 62, 1⟩, 1)]) := by
  refine ⟨?_, ?_, ?_, ?_, ?_⟩ <;> decide +kernel

theorem witness_Carts :
    (fun (dt : Nat) (n ch off k : Nat) (rest : List Nat) (free : Bool) (s : State) => (((s.pass dt).cart n ch) = ⟨off :: rest, none, none, k⟩) ∧ ((s.pass dt).get (TILE_STATE.state.tile n) ≠ 0) ∧ (ch < 8) ∧ (n < 10240) ∧ ((s.pass dt).pushing n ch = false) ∧ ((parseDesc ((s.pass dt).readPort n .cart off 64).1).flags / 4 % 2 = 1) ∧ ((s.pass dt).flag (TILE_BARRIER_b.waiting.bar n ((parseDesc ((s.pass dt).readPort n .cart off 64).1).barrier % 64)) = true) ∧ ((s.pass dt).portTrap n .cart off 64 localRead = 0) ∧ ((∀ p ∈ (s.pass dt).flips, p.1 + 8 ≤ spadKey n off ∨ spadKey n off + 64 ≤ p.1)))
      (0) (0) (7) (64) (0) ([]) (true) ({ mk [(TILE_STATE.state.tile 0, 1), (TILE_BARRIER_b.waiting.bar 0 9, 1), (⟨tileBase 0 + TILE_REGION_n.base.key, 60, 1⟩, 1), ((TILE_REGION_n.base.tile 0).off 0, 0), ((TILE_REGION_n.limit.tile 0).off 0, 64), (⟨tileBase 0 + TILE_REGION_n.base.key, 63, 1⟩, 1), (⟨tileBase 0 + TILE_REGION_n.base.key, 62, 1⟩, 1)] with net := { carts := [(7, ⟨[64], none, none, 0⟩)] }, mem := Memory.setBytes [] (spadKey 0 64) [4, 16 + 4, 0, 9] })
    ∧ (fun (dt : Nat) (n ch off k : Nat) (rest : List Nat) (free : Bool) (s : State) => (((s.pass dt).cart n ch) = ⟨off :: rest, none, none, k⟩) ∧ ((s.pass dt).get (TILE_STATE.state.tile n) ≠ 0) ∧ (ch < 8) ∧ (n < 10240) ∧ ((s.pass dt).pushing n ch = false) ∧ ((parseDesc ((s.pass dt).readPort n .cart off 64).1).flags / 4 % 2 = 0 ∨ (s.pass dt).flag (TILE_BARRIER_b.waiting.bar n ((parseDesc ((s.pass dt).readPort n .cart off 64).1).barrier % 64)) = false) ∧ ((s.pass dt).cooling = false) ∧ (3 ≤ (parseDesc ((s.pass dt).readPort n .cart off 64).1).flags / 16 % 4 ∨ (s.pass dt).inTurn = false ∨ (s.pass dt).inForce (s.pass dt).spoke = false) ∧ ((s.pass dt).portTrap n .cart off 64 localRead = 0) ∧ ((∀ p ∈ (s.pass dt).flips, p.1 + 8 ≤ spadKey n off ∨ spadKey n off + 64 ≤ p.1)) ∧ ((s.pass dt).malformed n (parseDesc ((s.pass dt).readPort n .cart off 64).1) = true) ∧ ((s.pass dt).flag (TILE_CART_ERR_n.valid.cart n ch) = false))
      (0) (0) (7) (64) (258) ([]) (true) ({ mk [(TILE_STATE.state.tile 0, 1), (⟨tileBase 0 + TILE_REGION_n.base.key, 60, 1⟩, 1), ((TILE_REGION_n.base.tile 0).off 0, 0), ((TILE_REGION_n.limit.tile 0).off 0, 64), (⟨tileBase 0 + TILE_REGION_n.base.key, 63, 1⟩, 1), (⟨tileBase 0 + TILE_REGION_n.base.key, 62, 1⟩, 1)] with net := { carts := [(7, ⟨[64], none, none, 258⟩)] }, mem := Memory.setBytes [] (spadKey 0 64) [9, 16] })
    ∧ (fun (dt : Nat) (n ch off k : Nat) (rest : List Nat) (free : Bool) (s : State) => (((s.pass dt).cart n ch) = ⟨off :: rest, none, none, k⟩) ∧ ((s.pass dt).get (TILE_STATE.state.tile n) ≠ 0) ∧ (ch < 8) ∧ (n < 10240) ∧ ((s.pass dt).pushing n ch = false) ∧ ((parseDesc ((s.pass dt).readPort n .cart off 64).1).flags / 4 % 2 = 0 ∨ (s.pass dt).flag (TILE_BARRIER_b.waiting.bar n ((parseDesc ((s.pass dt).readPort n .cart off 64).1).barrier % 64)) = false) ∧ ((s.pass dt).cooling = false) ∧ (3 ≤ (parseDesc ((s.pass dt).readPort n .cart off 64).1).flags / 16 % 4 ∨ (s.pass dt).inTurn = false ∨ (s.pass dt).inForce (s.pass dt).spoke = false) ∧ ((s.pass dt).portTrap n .cart off 64 localRead = 0) ∧ ((∀ p ∈ (s.pass dt).flips, p.1 + 8 ≤ spadKey n off ∨ spadKey n off + 64 ≤ p.1)) ∧ ((s.pass dt).malformed n (parseDesc ((s.pass dt).readPort n .cart off 64).1) = false) ∧ ((parseDesc ((s.pass dt).readPort n .cart off 64).1).op = 1) ∧ (((s.pass dt).readPort n .cart off 64).2.fillTrap n (parseDesc ((s.pass dt).readPort n .cart off 64).1) false = none) ∧ ((s.pass dt).tile.late = []) ∧ (Memory.wf (s.pass dt).mem = true))
      (0) (0) (7) (64) (1) ([]) (true) ({ mk [(TILE_STATE.state.tile 0, 1), (⟨tileBase 0 + TILE_REGION_n.base.key, 60, 1⟩, 1), (⟨tileBase 0 + TILE_REGION_n.base.key, 61, 1⟩, 1), ((TILE_REGION_n.base.tile 0).off 0, 0), ((TILE_REGION_n.limit.tile 0).off 0, 64), (⟨tileBase 0 + TILE_REGION_n.base.key, 63, 1⟩, 1), (⟨tileBase 0 + TILE_REGION_n.base.key, 62, 1⟩, 1)] with net := { carts := [(7, ⟨[64], none, none, 1⟩)] }, mem := Memory.setBytes (Memory.setBytes (Memory.setBytes (Memory.setBytes [] (spadKey 0 64) [1, 16, 0, 0, 0, 128, 0, 128]) (spadKey 0 88) [0, 2]) (spadKey 0 96) [64, 0, 0, 0, 1]) (spadKey 0 112) [7, 8] })
    ∧ (fun (dt : Nat) (n ch : Nat) (r : CartRun) (s : State) => (((s.pass dt).cart n ch).run = some r) ∧ ((s.pass dt).cartDone n ch r = true) ∧ (r.desc.flags / 2 % 2 = 0) ∧ (n < 10240) ∧ (ch < 8))
      (0) (0) (7) (⟨⟨1, 8, 0, 0, 0, 0, 0, 0, 0, 64, 1, 0, 0, 0, true⟩, 64, 5, [], [], 0, [], false⟩) ({ State.reset with net := { carts := [(7, ⟨[], none, some ⟨⟨1, 8, 0, 0, 0, 0, 0, 0, 0, 64, 1, 0, 0, 0, true⟩, 64, 5, [], [], 0, [], false⟩, 1⟩)] } })
    ∧ (fun (dt : Nat) (p : Packet) (u : State) (n : Nat) (r : CartRun) (q : ReadReq) (s : State) => ((s.pass dt).take p = some u) ∧ (badPacket p = false) ∧ (p.ty = 2) ∧ (epTile p.dst = some n) ∧ ((u.cart n p.chan).run = some r) ∧ ((r.out.find? fun (x : ReadReq) => x.off == p.offset && r.tag == p.tag) = some q) ∧ (r.out = [q]) ∧ (r.todo = []) ∧ (r.got = []) ∧ (p.data.length < sideBytes r.desc.rowBytes (r.desc.spaces % 16) (r.desc.spaces / 16)) ∧ (p.data.length ≤ q.n))
      (0) (⟨2, 1, 0, 1, 0, 0, 5, 1, 0, 0, 0, [1, 2]⟩) ((State.take (State.pass ({ mk [] with net := { fly := [⟨2, 1, 0, 1, 0, 0, 5, 1, 0, 0, 0, [1, 2]⟩], carts := [(0, ⟨[], none, some ⟨⟨0, 1, 0, 0, 1, 0, 0, 0, 0, 64, 1, 0, 0, 0, true⟩, 0, 5, [⟨0, 0, 0, 64⟩], [], 1, [], false⟩, 1⟩)] } }) 0) ⟨2, 1, 0, 1, 0, 0, 5, 1, 0, 0, 0, [1, 2]⟩).getD State.reset) (0) (⟨⟨0, 1, 0, 0, 1, 0, 0, 0, 0, 64, 1, 0, 0, 0, true⟩, 0, 5, [⟨0, 0, 0, 64⟩], [], 1, [], false⟩) (⟨0, 0, 0, 64⟩) ({ mk [] with net := { fly := [⟨2, 1, 0, 1, 0, 0, 5, 1, 0, 0, 0, [1, 2]⟩], carts := [(0, ⟨[], none, some ⟨⟨0, 1, 0, 0, 1, 0, 0, 0, 0, 64, 1, 0, 0, 0, true⟩, 0, 5, [⟨0, 0, 0, 64⟩], [], 1, [], false⟩, 1⟩)] } })
    ∧ (fun (dt : Nat) (p : Packet) (u : State) (n : Nat) (r : CartRun) (s : State) => ((s.pass dt).take p = some u) ∧ (badPacket p = false) ∧ (p.ty = 3) ∧ (epTile p.dst = some n) ∧ ((u.cart n p.chan).run = some r) ∧ (r.tag = p.tag))
      (0) (⟨3, 1, 0, 1, 0, 0, 5, 0, 0, 0, 0, []⟩) ((State.take (State.pass ({ mk [] with net := { fly := [⟨3, 1, 0, 1, 0, 0, 5, 0, 0, 0, 0, []⟩], carts := [(0, ⟨[], none, some ⟨⟨0, 1, 0, 0, 1, 0, 0, 0, 0, 64, 1, 0, 0, 0, true⟩, 0, 5, [⟨0, 0, 0, 64⟩], [], 1, [], false⟩, 1⟩)] } }) 0) ⟨3, 1, 0, 1, 0, 0, 5, 0, 0, 0, 0, []⟩).getD State.reset) (0) (⟨⟨0, 1, 0, 0, 1, 0, 0, 0, 0, 64, 1, 0, 0, 0, true⟩, 0, 5, [⟨0, 0, 0, 64⟩], [], 1, [], false⟩) ({ mk [] with net := { fly := [⟨3, 1, 0, 1, 0, 0, 5, 0, 0, 0, 0, []⟩], carts := [(0, ⟨[], none, some ⟨⟨0, 1, 0, 0, 1, 0, 0, 0, 0, 64, 1, 0, 0, 0, true⟩, 0, 5, [⟨0, 0, 0, 64⟩], [], 1, [], false⟩, 1⟩)] } })
    ∧ (fun (dt : Nat) (p : Packet) (u : State) (n : Nat) (s : State) => ((s.pass dt).take p = some u) ∧ (badPacket p = false) ∧ (p.ty = 4) ∧ (epTile p.dst = some n) ∧ ((u.cart n p.chan).run = none) ∧ (u.flag (TILE_CART_ERR_n.valid.cart n p.chan) = false))
      (0) (⟨4, 1, 0, 1, 0, 7, 5, 0, 0, 0, 0, []⟩) ((State.take (State.pass ({ mk [] with net := { fly := [⟨4, 1, 0, 1, 0, 7, 5, 0, 0, 0, 0, []⟩] } }) 0) ⟨4, 1, 0, 1, 0, 7, 5, 0, 0, 0, 0, []⟩).getD State.reset) (0) ({ mk [] with net := { fly := [⟨4, 1, 0, 1, 0, 7, 5, 0, 0, 0, 0, []⟩] } })
    ∧ (fun (dt : Nat) (p : Packet) (u : State) (a : Nat) (s : State) => ((s.pass dt).take p = some u) ∧ (badPacket p = false) ∧ (p.ty = 9) ∧ (rawAddr p.dst 0 p.offset = some a) ∧ (p.len = 0))
      (0) (⟨9, 0, 0, headEp, 0, 0, 0, 0, 0, 0xF000008, 0, []⟩) ((State.take (State.pass ({ mk [] with net := { fly := [⟨9, 0, 0, headEp, 0, 0, 0, 0, 0, 0xF000008, 0, []⟩] } }) 0) ⟨9, 0, 0, headEp, 0, 0, 0, 0, 0, 0xF000008, 0, []⟩).getD State.reset) ((rawAddr 0 0 0xF000008).getD 0) ({ mk [] with net := { fly := [⟨9, 0, 0, headEp, 0, 0, 0, 0, 0, 0xF000008, 0, []⟩] } })
    ∧ (fun (dt : Nat) (p : Packet) (u : State) (s : State) => ((s.pass dt).take p = some u) ∧ (badPacket p = false) ∧ (p.ty = 10))
      (0) (⟨10, 0, 0, 0, headEp, 0, 3, 0, 0, 0, 0, [5, 0, 0, 0, 0, 0, 0, 0]⟩) ((State.take (State.pass ({ mk [] with net := { fly := [⟨10, 0, 0, 0, headEp, 0, 3, 0, 0, 0, 0, [5, 0, 0, 0, 0, 0, 0, 0]⟩] } }) 0) ⟨10, 0, 0, 0, headEp, 0, 3, 0, 0, 0, 0, [5, 0, 0, 0, 0, 0, 0, 0]⟩).getD State.reset) ({ mk [] with net := { fly := [⟨10, 0, 0, 0, headEp, 0, 3, 0, 0, 0, 0, [5, 0, 0, 0, 0, 0, 0, 0]⟩] } }) := by
  refine ⟨?_, ?_, ?_, ?_, ?_, ?_, ?_, ?_, ?_⟩ <;> decide +kernel

theorem witness_MeshLinks :
    (fun (dt : Nat) (n port m q x r src : Nat) (rest : List Nat) (s : State) => (linkEnd n port = some (m, q)) ∧ (port ≠ 4) ∧ (((s.pass dt).meshLink n port).wire = x :: rest) ∧ (((s.pass dt).meshLink n port).testing = false) ∧ ((s.pass dt).portHeld n port = false) ∧ (x < 2 ^ 1024) ∧ (flitCrc x = bits x 0 16) ∧ (bits x 28 3 = ((s.pass dt).meshLink n port).expect) ∧ (x.testBit 31 = false) ∧ (x.testBit 27 = false) ∧ (bits x 18 2 = 2) ∧ (Sparse.find (s.pass dt).net.routes (bufKey n port (vcClass x)) = some (r, src)) ∧ (r ≠ 0))
      (0) (0) (1) (1) (3) (5498364065819) (4) (9) ([]) ({ State.reset with net := { links := [(1, { expect := 3, wire := [5498364065819], testing := false })], routes := [((5 * 0 + 1) * 16 + 4, (4, 9))] } })
    ∧ (fun (dt : Nat) (n port m q x : Nat) (rest : List Nat) (s : State) => (linkEnd n port = some (m, q)) ∧ (port ≠ 4) ∧ (((s.pass dt).meshLink n port).wire = x :: rest) ∧ (((s.pass dt).meshLink n port).testing = false) ∧ ((s.pass dt).portHeld n port = false) ∧ (x < 2 ^ 1024) ∧ (flitCrc x = bits x 0 16) ∧ (bits x 28 3 = ((s.pass dt).meshLink n port).expect) ∧ (x.testBit 31 = false) ∧ (x.testBit 27 = false) ∧ (bits x 18 2 = 1) ∧ (badPacket (headOf (plainFlit x)) = false) ∧ (bits x 32 4 ≠ 5) ∧ ((s.pass dt).portsFor n (headOf (plainFlit x)) ≠ 0))
      (0) (0) (1) (1) (3) (302231475169856422481104) ([]) ({ State.reset with net := { links := [(1, { expect := 3, wire := [302231475169856422481104], testing := false })] } })
    ∧ (fun (dt : Nat) (n port m q x : Nat) (rest : List Nat) (s : State) => (linkEnd n port = some (m, q)) ∧ (port ≠ 4) ∧ (((s.pass dt).meshLink n port).wire = x :: rest) ∧ (((s.pass dt).meshLink n port).testing = false) ∧ ((s.pass dt).portHeld n port = false) ∧ (x < 2 ^ 1024) ∧ (flitCrc x = bits x 0 16) ∧ (bits x 28 3 = ((s.pass dt).meshLink n port).expect) ∧ (x.testBit 31 = false) ∧ (bits x 18 2 = 0) ∧ (x.testBit 27 = true) ∧ (m ≠ n))
      (0) (0) (1) (1) (3) (973102611) ([]) ({ State.reset with net := { links := [(1, { expect := 3, wire := [973102611], testing := false })] } })
    ∧ (fun (dt : Nat) (n x r src : Nat) (rest : List Nat) (s : State) => (plainFlit x = x) ∧ (bits x 18 2 = 2) ∧ (((s.pass dt).buf (bufKey n 4 (vcClass x))).length < 4) ∧ ((s.pass dt).injectStopped n (vcClass x) = false) ∧ (Sparse.find (s.pass dt).net.sending (16 * n + vcClass x) = some (x :: rest)) ∧ (Sparse.find (s.pass dt).net.routes (bufKey n 4 (vcClass x)) = some (r, src)) ∧ (r ≠ 0))
      (0) (0) (5497558728704) (2) (9) ([7]) ({ State.reset with net := { sending := [(4, [5497558728704, 7])], routes := [((5 * 0 + 4) * 16 + 4, (2, 9))] } })
    ∧ (fun (dt : Nat) (n port m q x y : Nat) (rest : List Nat) (s : State) => (linkEnd n port = some (m, q)) ∧ (port ≠ 4) ∧ (((s.pass dt).meshLink n port).wire = x :: rest) ∧ (((s.pass dt).meshLink n port).testing = false) ∧ ((s.pass dt).portHeld n port = false) ∧ (n < 9216) ∧ (flitCrc ((x ^^^ y) % 2 ^ 1024) ≠ bits ((x ^^^ y) % 2 ^ 1024) 0 16))
      (0) (0) (1) (1) (3) (5498364065819) (2 ^ 700) ([]) ({ State.reset with net := { links := [(1, { expect := 3, wire := [5498364065819], testing := false })] } })
    ∧ (fun (dt : Nat) (n port m q : Nat) (f : Nat × Nat × Nat) (s : State) => (linkEnd n port = some (m, q)) ∧ (m < 9216) ∧ (((s.pass dt).meshLink n port).testing = false) ∧ (((s.pass dt).meshLink n port).nacking = true) ∧ (((s.pass dt).meshLink n port).kept = [f]) ∧ (f.1 = ((s.pass dt).meshLink n port).expect) ∧ (((s.pass dt).meshLink n port).resent = 0))
      (0) (0) (1) (1) (3) ((3, 99, 0)) ({ State.reset with net := { links := [(1, { expect := 3, nacking := true, nackAt := 1, kept := [(3, 99, 0)] })] } })
    ∧ (fun (dt : Nat) (n port m q : Nat) (f : Nat × Nat × Nat) (s : State) => (linkEnd n port = some (m, q)) ∧ (m < 9216) ∧ (((s.pass dt).meshLink n port).testing = false) ∧ (((s.pass dt).meshLink n port).nacking = true) ∧ (((s.pass dt).meshLink n port).kept = [f]) ∧ (f.1 = ((s.pass dt).meshLink n port).expect) ∧ (((s.pass dt).meshLink n port).resent = 4) ∧ (((s.pass dt).meshLink n port).named = ((s.pass dt).meshLink n port).expect) ∧ (((s.pass dt).meshLink n port).resentAt ≠ (s.pass dt).ticks))
      (0) (0) (1) (1) (3) ((3, 99, 0)) ({ State.reset with net := { links := [(1, { expect := 3, nacking := true, nackAt := 1, resent := 4, named := 3, resentAt := 5, kept := [(3, 99, 0)] })] } })
    ∧ (fun (dt : Nat) (n port m q : Nat) (s : State) => (linkEnd n port = some (m, q)) ∧ (n < 9216) ∧ (m < 9216) ∧ (((s.pass dt).meshLink n port).testing = true))
      (0) (0) (1) (1) (3) ({ State.reset with net := { links := [(1, { testing := true })] } })
    ∧ (fun (dt : Nat) (n port m q g : Nat) (s : State) => (linkEnd n port = some (m, q)) ∧ (n < 9216) ∧ (m < 9216) ∧ (((s.pass dt).meshLink n port).testing = true) ∧ (g < 64) ∧ (isHitch (m, q) = false ∨ (s.pass dt).inTurn = false))
      (0) (0) (1) (1) (3) (63) ({ State.reset with net := { links := [(1, { testing := true })] } }) := by
  refine ⟨?_, ?_, ?_, ?_, ?_, ?_, ?_, ?_, ?_⟩
  · exact ⟨(by decide +kernel), (by decide +kernel), (by decide +kernel), (by decide +kernel), (by decide +kernel), (by decide +kernel), (crc_0.trans (by decide +kernel)), (by decide +kernel), (by decide +kernel), (by decide +kernel), (by decide +kernel), (by decide +kernel), (by decide +kernel)⟩
  · exact ⟨(by decide +kernel), (by decide +kernel), (by decide +kernel), (by decide +kernel), (by decide +kernel), (by decide +kernel), (crc_1.trans (by decide +kernel)), (by decide +kernel), (by decide +kernel), (by decide +kernel), (by decide +kernel), (by decide +kernel), (by decide +kernel), (by decide +kernel)⟩
  · exact ⟨(by decide +kernel), (by decide +kernel), (by decide +kernel), (by decide +kernel), (by decide +kernel), (by decide +kernel), (crc_2.trans (by decide +kernel)), (by decide +kernel), (by decide +kernel), (by decide +kernel), (by decide +kernel), (by decide +kernel)⟩
  · exact ⟨(by decide +kernel), (by decide +kernel), (by decide +kernel), (by decide +kernel), (by decide +kernel), (by decide +kernel), (by decide +kernel)⟩
  · exact ⟨(by decide +kernel), (by decide +kernel), (by decide +kernel), (by decide +kernel), (by decide +kernel), (by decide +kernel), (by
      have e : (5498364065819 ^^^ 2 ^ 700) % 2 ^ 1024 = 5260135901548373507240989882880128665550339802823173859498280903068732154297080822113666536277588451226982968856178217713019432250183803863127814770651880849955223671128444598191663757884322717271298750099847195 := by decide +kernel
      rw [e, crc_3]
      decide +kernel)⟩
  · exact ⟨(by decide +kernel), (by decide +kernel), (by decide +kernel), (by decide +kernel), (by decide +kernel), (by decide +kernel), (by decide +kernel)⟩
  · exact ⟨(by decide +kernel), (by decide +kernel), (by decide +kernel), (by decide +kernel), (by decide +kernel), (by decide +kernel), (by decide +kernel), (by decide +kernel), (by decide +kernel)⟩
  · exact ⟨(by decide +kernel), (by decide +kernel), (by decide +kernel), (by decide +kernel)⟩
  · exact ⟨(by decide +kernel), (by decide +kernel), (by decide +kernel), (by decide +kernel), (by decide +kernel), (by decide +kernel)⟩

theorem witness_Scrubbing :
    (fun (dt : Nat) (n c : Nat) (s : State) => (n < 9984) ∧ ((s.pass dt).get (TILE_STATE.state.tile n) ≠ 0) ∧ ((s.pass dt).flag ((s.pass dt).scrubFld n TILE_SCRUB_CTRL.enable BAY_SCRUB_CTRL.enable) = true) ∧ (Sparse.find (s.pass dt).tile.scrubSpoke n ≠ some ((s.pass dt).spoke + 1)) ∧ ((s.pass dt).running = false ∨ ((s.pass dt).turn.q.isSome = true ∧ (s.pass dt).boundary?.isNone = true ∧ (s.pass dt).count % 8 = 0)) ∧ ((s.pass dt).flips = []) ∧ (Sparse.find (s.pass dt).tile.scrubAt n = some c) ∧ (c + 1 < (s.pass dt).scrubChunks n))
      (0) (9216) (2046) ({ mk [(TILE_STATE.state.tile 9216, 1), (BAY_SCRUB_CTRL.enable.bay 0, 1)] with tile := { scrubAt := [(9216, 2046)] } })
    ∧ (fun (dt : Nat) (n c b w j : Nat) (s : State) => (n < 9984) ∧ ((s.pass dt).get (TILE_STATE.state.tile n) ≠ 0) ∧ ((s.pass dt).flag ((s.pass dt).scrubFld n TILE_SCRUB_CTRL.enable BAY_SCRUB_CTRL.enable) = true) ∧ (Sparse.find (s.pass dt).tile.scrubSpoke n ≠ some ((s.pass dt).spoke + 1)) ∧ ((s.pass dt).running = false ∨ ((s.pass dt).turn.q.isSome = true ∧ (s.pass dt).boundary?.isNone = true ∧ (s.pass dt).count % 8 = 0)) ∧ ((tileClass n = 1 ∨ 9216 ≤ n)) ∧ (Sparse.find (s.pass dt).tile.scrubAt n = some c) ∧ (c + 1 < (s.pass dt).scrubChunks n) ∧ (b < spadBytes n / 0x20000) ∧ (w < 8) ∧ (j < 64) ∧ ((s.pass dt).flips = [(spadKey n (b / 8 * 0x100000 + c % 2048 * 512 + b % 8 * 64 + 8 * w), 2 ^ j)]))
      (0) (9983) (7) (31) (7) (63) ({ mk [(TILE_STATE.state.tile 9983, 1), (BAY_SCRUB_CTRL.enable.bay 23, 1)] with tile := { scrubAt := [(9983, 7)] }, flips := [(spadKey 9983 (31 / 8 * 0x100000 + 7 % 2048 * 512 + 31 % 8 * 64 + 56), 2 ^ 63)] }) := by
  refine ⟨?_, ?_⟩ <;> decide +kernel

theorem witness_ManagementReads :
    (fun (dt : Nat) (cmd a : Nat) (s : State) => ((s.pass dt).cmdRuns 1 [1, 2] = true) ∧ ((s.pass dt).target a = none))
      (0) (7) (8 * 7 + 1) (openMk [])
    ∧ (fun (dt : Nat) (cmd a n off : Nat) (s : State) => ((s.pass dt).cmdRuns 1 [1, 2] = true) ∧ ((s.pass dt).target a = some (.spad n off)) ∧ ((s.pass dt).flips = []))
      (0) (7) (tileBase 0 + 0x8000000 + 8) (0) (8) ({ openMk [] with mem := Memory.setBytes [] (spadKey 0 8) [5] })
    ∧ (fun (dt : Nat) (cmd a n off : Nat) (s : State) => ((s.pass dt).cmdRuns 1 [1, 2] = true) ∧ ((s.pass dt).target a = some (.tower n off)))
      (0) (7) (towerBase 23 + 16) (23) (16) ({ openMk [(SBX_STATUS.mode, 1)] with mem := Memory.setBytes [] (towerBase 23 + 16) [5] })
    ∧ (fun (dt : Nat) (cmd a n : Nat) (s : State) => ((s.pass dt).cmdRuns 3 [1, 2] = true) ∧ ((n = 0 ∨ 512 < n)))
      (0) (7) (0) (513) (openMk [])
    ∧ (fun (dt : Nat) (cmd a n k off : Nat) (s : State) => ((s.pass dt).cmdRuns 3 [1, 2] = true) ∧ (0 < n) ∧ (n ≤ 512) ∧ ((∀ i : Nat, i < n → (s.pass dt).target (a + 8 * i) = some (.tower k (off + 8 * i)))))
      (0) (7) (towerBase 23 + 16) (2) (23) (16) ({ openMk [(SBX_STATUS.mode, 1)] with mem := Memory.setBytes [] (towerBase 23 + 16) [5, 6, 7, 8, 9, 10, 11, 12, 13] })
    ∧ (fun (dt : Nat) (cmd n w : Nat) (s : State) => ((s.pass dt).cmdRuns 3 [1, 2] = true) ∧ (n < 9216) ∧ ((s.pass dt).target (tileBase n + 64 * w) = some (.weights n (64 * w))) ∧ ((s.pass dt).flips = []))
      (0) (7) (0) (327679) ({ openMk [] with mem := Memory.setBytes (Memory.setBytes [] (tileBase 0 + 64 * 327679) [5]) (sideKey 0 327679) [9] }) := by
  refine ⟨?_, ?_, ?_, ?_, ?_, ?_⟩ <;> decide +kernel

theorem witness_ManagementWrites :
    (fun (dt : Nat) (cmd a v : Nat) (s : State) => ((s.pass dt).cmdRuns 2 [1, 2] = true) ∧ ((s.pass dt).target a = none))
      (0) (7) (0x500000000000) (1) (openMk [])
    ∧ (fun (dt : Nat) (cmd a v n off : Nat) (s : State) => ((s.pass dt).cmdRuns 2 [1, 2] = true) ∧ ((s.pass dt).target a = some (.spad n off)) ∧ ((s.pass dt).inTable n off = false) ∧ (off % 8 = 0) ∧ (Memory.wf (s.pass dt).mem = true))
      (0) (7) (tileBase 0 + 0x8000000 + 8) (77) (0) (8) (openMk [])
    ∧ (fun (dt : Nat) (cmd a v n off : Nat) (s : State) => ((s.pass dt).cmdRuns 2 [1, 2] = true) ∧ ((s.pass dt).target a = some (.tower n off)) ∧ (off < 0xFC0000000) ∧ (Memory.wf (s.pass dt).mem = true))
      (0) (7) (towerBase 23 + 16) (77) (23) (16) (openMk [(SBX_STATUS.mode, 1)])
    ∧ (fun (dt : Nat) (cmd a : Nat) (ws : List Nat) (s : State) => ((s.pass dt).cmdRuns 4 [1, 2] = true) ∧ ((ws = [] ∨ 512 < ws.length)))
      (0) (7) (0) (List.replicate 513 0) (openMk [])
    ∧ (fun (dt : Nat) (cmd a v n off : Nat) (s : State) => ((s.pass dt).cmdRuns 4 [1, 2] = true) ∧ ((s.pass dt).target a = some (.tower n off)) ∧ (off < 0xFC0000000) ∧ (Memory.wf (s.pass dt).mem = true))
      (0) (7) (towerBase 23 + 16) (77) (23) (16) (openMk [(SBX_STATUS.mode, 1)])
    ∧ (fun (dt : Nat) (cmd n w : Nat) (ws : List Nat) (s : State) => ((s.pass dt).cmdRuns 4 [1, 2] = true) ∧ (n < 9216) ∧ ((s.pass dt).target (tileBase n + 64 * w) = some (.weights n (64 * w))) ∧ (w < 327680) ∧ (ws.length = 8) ∧ (Memory.wf (s.pass dt).mem = true))
      (0) (7) (0) (327679) ([1, 2, 3, 4, 5, 6, 7, 8]) (openMk [(TILE_WS_SIDE.side.tile 0, 99)])
    ∧ (fun (dt : Nat) (cmd off : Nat) (ws : List Nat) (s : State) => ((s.pass dt).cmdRuns 4 [1, 2] = true) ∧ ((s.pass dt).role = 1) ∧ (off % 4096 = 0) ∧ (off < 0x1000000) ∧ (ws.length = 512) ∧ ((s.pass dt).target (0x400001000000 + off) = some (.flash off)) ∧ ((s.pass dt).extest = false) ∧ ((s.pass dt).sbx.erased.contains (off / 4096) = false) ∧ (Memory.wf (s.pass dt).mem = true))
      (0) (7) (4096) (List.replicate 512 3) (openMk []) := by
  refine ⟨?_, ?_, ?_, ?_, ?_, ?_, ?_⟩ <;> decide +kernel

theorem witness_SwapSetWrites :
    (fun (dt : Nat) (cmd v : Nat) (s : State) => ((s.pass dt).cmdRuns 2 [1, 2] = true) ∧ ((v.testBit 0 = false ∨ (s.pass dt).flag HEAD_FMT_SET.available = true)))
      (0) (7) (0) (openMk [])
    ∧ (fun (dt : Nat) (cmd v : Nat) (s : State) => ((s.pass dt).cmdRuns 2 [1, 2] = true))
      (0) (7) (1) (openMk [])
    ∧ (fun (dt : Nat) (cmd v : Nat) (s : State) => ((s.pass dt).cmdRuns 2 [1, 2] = true) ∧ (profileOk v = true))
      (0) (7) (0x3F80000100010000) (openMk [(HEAD_SAMP_INDEX.profile, 3)])
    ∧ (fun (dt : Nat) (cmd v : Nat) (s : State) => ((s.pass dt).cmdRuns 2 [1, 2] = true) ∧ (profileOk v = false))
      (0) (7) (0) (openMk [])
    ∧ (fun (dt : Nat) (cmd v a : Nat) (s : State) => ((s.pass dt).cmdRuns 2 [1, 2] = true) ∧ ((s.pass dt).bankIx .adapter 0 = some a) ∧ (v % 4 < 3) ∧ ((v % 4 = 0 ∨ (s.pass dt).get (copyState a (v % 4)) ≠ 0)))
      (0) (7) (0) (2) (openMk [(HEAD_ADAPTER_INDEX.slot, 2), (HEAD_SERVE_CONFIG.adapter_slots, 4)])
    ∧ (fun (dt : Nat) (cmd v : Nat) (s : State) => ((s.pass dt).cmdRuns 2 [1, 2] = true) ∧ (v % 4 < 2) ∧ ((v % 4 = 0 ∨ (s.pass dt).flag HEAD_SERVE_CONFIG.halves = true)) ∧ ((s.pass dt).get (halfState (v % 4)) ≠ 0))
      (0) (7) (1) (openMk [(HEAD_SERVE_CONFIG.halves, 1), (halfState 1, 2)])
    ∧ (fun (dt : Nat) (cmd v : Nat) (s : State) => ((s.pass dt).cmdRuns 2 [1, 2] = true) ∧ (((List.range 64).any fun c => ((s.pass dt).get PWR_COACH_ON.on).testBit c && !v.testBit c && (s.pass dt).coachInUse c) = false))
      (0) (7) (5) (openMk [])
    ∧ (fun (dt : Nat) (cmd v : Nat) (s : State) => ((s.pass dt).cmdRuns 2 [1, 2] = true))
      (0) (7) (100 * 2 ^ 48) (openMk [])
    ∧ (fun (dt : Nat) (cmd v l : Nat) (s : State) => ((s.pass dt).cmdRuns 2 [1, 2] = true) ∧ ((s.pass dt).bankIx .fmt 0 = some l) ∧ (recipeBad ((s.pass dt).fmt l) ((s.pass dt).flag HEAD_FMT_SET.available) v = false) ∧ ((s.pass dt).flag (HEAD_FMT_INFO.changed.ix l) = false))
      (0) (7) (0x2000) (1) (openMk [(HEAD_FMT_INDEX.layer, 1), (HEAD_SHADOW_CTRL.layers, 4)])
    ∧ (fun (dt : Nat) (cmd v l : Nat) (s : State) => ((s.pass dt).cmdRuns 2 [1, 2] = true) ∧ ((s.pass dt).bankIx .fmt 0 = some l) ∧ (recipeBad ((s.pass dt).fmt l) ((s.pass dt).flag HEAD_FMT_SET.available) v = true) ∧ (l < 256))
      (0) (7) (1) (1) (openMk [(HEAD_FMT_INDEX.layer, 1), (HEAD_SHADOW_CTRL.layers, 4)]) := by
  refine ⟨?_, ?_, ?_, ?_, ?_, ?_, ?_, ?_, ?_, ?_⟩ <;> decide +kernel

theorem witness_OtherRegisterWrites :
    (fun (dt : Nat) (cmd v : Nat) (s : State) => ((s.pass dt).cmdRuns 2 [1, 2] = true) ∧ (v.testBit 32 = false))
      (0) (7) (0) (openMk [])
    ∧ (fun (dt : Nat) (cmd : Nat) (s : State) => ((s.pass dt).cmdRuns 2 [1, 2] = true))
      (0) (7) (openMk [])
    ∧ (fun (dt : Nat) (cmd n : Nat) (s : State) => ((s.pass dt).cmdRuns 2 [1, 2] = true) ∧ ((s.pass dt).target (tileBase n + TILE_HAZ_STATUS.addr) = some (.reg TILE_HAZ_STATUS 0 n)) ∧ (n < 10240))
      (0) (7) (9983) (openMk [(TILE_HAZ_STATUS.entries.tile 9983, 3)])
    ∧ (fun (dt : Nat) (cmd c : Nat) (s : State) => ((s.pass dt).cmdRuns 2 [1, 2] = true) ∧ ((s.pass dt).flag HEAD_COACH_RESET.busy = false) ∧ ((s.pass dt).coachInUse (c % 64) = false) ∧ ((s.pass dt).rep.jobs = []) ∧ ((s.pass dt).rep.rebuilds = []) ∧ ((s.pass dt).rep.advance = none) ∧ ((s.pass dt).coachOn (c % 64) = true))
      (0) (7) (63) (openMk ((coachDomains 63).map fun d => (PWR_DOM_STATE.state.dom d, 2)))
    ∧ (fun (dt : Nat) (cmd c : Nat) (s : State) => ((s.pass dt).cmdRuns 2 [1, 2] = true) ∧ ((s.pass dt).coachInUse (c % 64) = true))
      (0) (7) (0) ({ openMk [(HEAD_IMAGE_STATUS.state, 3)] with img := { image := some (img0 []), place := [(0, 0)] } })
    ∧ (fun (dt : Nat) (cmd n ch off : Nat) (s : State) => ((s.pass dt).cmdRuns 2 [1, 2] = true) ∧ ((s.pass dt).running = false) ∧ (n < 9984) ∧ (((s.pass dt).cart n (ch % 8)).queue.length < 4) ∧ ((s.pass dt).target (tileBase n + TILE_CART_ISSUE_n.addr + 32 * (ch % 8)) = some (.reg TILE_CART_ISSUE_n (ch % 8) n)))
      (0) (7) (0) (7) (256) (openMk [])
    ∧ (fun (dt : Nat) (cmd n v : Nat) (s : State) => ((s.pass dt).cmdRuns 2 [1, 2] = true) ∧ (n < 8) ∧ (v.testBit 63 = false) ∧ ((s.pass dt).atbRefused n (bits v 8 6) (bits v 16 3) (bits v 0 5) = false) ∧ (bits v 8 6 ≠ 0x3F) ∧ (bits v 0 5 ≠ 0) ∧ ((s.pass dt).get (HEAD_ATB_SEL_n.node.pin n) ≠ bits v 0 5))
      (0) (7) (7) (0x2003) (openMk [])
    ∧ (fun (dt : Nat) (cmd n v : Nat) (s : State) => ((s.pass dt).cmdRuns 2 [1, 2] = true) ∧ (n < 8) ∧ (v.testBit 63 = false) ∧ ((s.pass dt).atbRefused n (bits v 8 6) (bits v 16 3) (bits v 0 5) = true))
      (0) (7) (7) (0x3000) (openMk []) := by
  refine ⟨?_, ?_, ?_, ?_, ?_, ?_, ?_, ?_⟩ <;> decide +kernel

theorem witness_CouplingBlocks :
    (fun (dt : Nat) (k h : Nat) (fs : List LinkFlit) (s : State) => (k < 24) ∧ ((s.pass dt).up k = true))
      (0) (3) (0) ([]) (mk [(CPL_STATUS.state.cpl 3, 2)])
    ∧ (fun (dt : Nat) (k h : Nat) (l : List Nat) (fs : List LinkFlit) (s : State) => (k < 24) ∧ ((s.pass dt).up k = true) ∧ (((s.pass dt).link k).lost < 7) ∧ (((s.pass dt).link k).nacking = false))
      (0) (3) (0) ([]) ([]) (mk [(CPL_STATUS.state.cpl 3, 2)])
    ∧ (fun (dt : Nat) (k h : Nat) (l : List Nat) (fs : List LinkFlit) (s : State) => (k < 24) ∧ ((s.pass dt).up k = true) ∧ (7 ≤ ((s.pass dt).link k).lost))
      (0) (3) (0) ([]) ([]) ({ mk [(CPL_STATUS.state.cpl 3, 2)] with cpl := { links := [(3, { lost := 7 })] } })
    ∧ (fun (dt : Nat) (k h : Nat) (f : LinkFlit) (s : State) => (k < 24) ∧ ((s.pass dt).up k = true) ∧ (crc32c f.body = f.check) ∧ (f.kind = 1) ∧ (f.last = 1) ∧ (f.seq = ((s.pass dt).link k).expect) ∧ (h.testBit 39 = false) ∧ (((s.pass dt).link k).part = []))
      (0) (3) (0) (⟨0, 1, 1, 1, [1, 2], crc32c [1, 2]⟩) (mk [(CPL_STATUS.state.cpl 3, 2)])
    ∧ (fun (dt : Nat) (k a : Nat) (s : State) => (k < 24) ∧ ((s.pass dt).up k = true) ∧ (((s.pass dt).link k).nackAck = some a) ∧ (((s.pass dt).link k).replayAck ≠ some a))
      (0) (3) (9) ({ mk [(CPL_STATUS.state.cpl 3, 2)] with cpl := { links := [(3, { nackAck := some 9 })] } })
    ∧ (fun (dt : Nat) (k a : Nat) (s : State) => (k < 24) ∧ ((s.pass dt).up k = true) ∧ (((s.pass dt).link k).nackAck = some a) ∧ (((s.pass dt).link k).replayAck = some a) ∧ (512 ≤ ((s.pass dt).ticks - ((s.pass dt).link k).replayTick) * 25) ∧ (4 ≤ ((s.pass dt).link k).replays))
      (100) (3) (9) ({ mk [(CPL_STATUS.state.cpl 3, 2)] with cpl := { links := [(3, { nackAck := some 9, replayAck := some 9, replays := 4 })] } }) := by
  refine ⟨?_, ?_, ?_, ?_, ?_, ?_⟩ <;> decide +kernel

theorem witness_CouplingLanes :
    (fun (dt : Nat) (k good pc pm : Nat) (s : State) => (k < 24) ∧ ((s.pass dt).get (CPL_STATUS.state.cpl k) = 1) ∧ (16 ≤ popcount 17 good) ∧ ((s.pass dt).port.long = none))
      (0) (23) (2 ^ 17 - 1) (5) (9) (mk [(CPL_STATUS.state.cpl 23, 1)])
    ∧ (fun (dt : Nat) (k good pc pm : Nat) (s : State) => (k < 24) ∧ ((s.pass dt).get (CPL_STATUS.state.cpl k) = 1) ∧ (popcount 17 good < 16) ∧ ((s.pass dt).port.long = none))
      (0) (23) (2 ^ 15 - 1) (5) (9) (mk [(CPL_STATUS.state.cpl 23, 1)])
    ∧ (fun (dt : Nat) (k m : Nat) (s : State) => ((s.pass dt).up k = true))
      (0) (3) (63) (mk [(CPL_STATUS.state.cpl 3, 2)])
    ∧ (fun (dt : Nat) (k lane : Nat) (s : State) => ((s.pass dt).up k = true))
      (0) (3) (15) (mk [(CPL_STATUS.state.cpl 3, 2)])
    ∧ (fun (dt : Nat) (k b : Nat) (s : State) => ((s.pass dt).up k = true) ∧ (((s.pass dt).link k).outMirror.isSome = true))
      (0) (3) (15) ({ mk [(CPL_STATUS.state.cpl 3, 2)] with cpl := { links := [(3, { outMirror := some 2 })] } })
    ∧ (fun (dt : Nat) (k : Nat) (s : State) => (k < 24) ∧ ((s.pass dt).up k = true) ∧ ((s.pass dt).flag (CPL_LANES.mirroring.cpl k) = true) ∧ (256 ≤ ((s.pass dt).link k).mirrorGood))
      (0) (3) ({ mk [(CPL_STATUS.state.cpl 3, 2), (CPL_LANES.mirroring.cpl 3, 1)] with cpl := { links := [(3, { mirrorGood := 256 })] } })
    ∧ (fun (dt : Nat) (k lane : Nat) (s : State) => (k < 24) ∧ ((s.pass dt).up k = true) ∧ ((s.pass dt).flag (CPL_LANES.spare_used.cpl k) = true))
      (0) (3) (7) (mk [(CPL_STATUS.state.cpl 3, 2), (CPL_LANES.spare_used.cpl 3, 1)])
    ∧ (fun (dt : Nat) (k lane : Nat) (s : State) => (k < 24) ∧ ((s.pass dt).up k = true) ∧ ((s.pass dt).flag (CPL_LANES.spare_used.cpl k) = false) ∧ ((s.pass dt).spareFree k = true))
      (0) (3) (7) (mk [(CPL_STATUS.state.cpl 3, 2), (CPL_LANES.good.cpl 3, 2 ^ 17 - 1)]) := by
  refine ⟨?_, ?_, ?_, ?_, ?_, ?_, ?_, ?_⟩ <;> decide +kernel

theorem witness_TurnGroup :
    (fun (dt : Nat) (k : Nat) (w : WaveItem) (s : State) => ((s.pass dt).up k = true) ∧ ((s.pass dt).running = true) ∧ ((s.pass dt).turn.grouped = true) ∧ (w.origin ≠ (s.pass dt).member) ∧ (1 ≤ (w.serial + 8 - ((s.pass dt).turn.waves.find? fun (x : WaveState) => x.origin == w.origin && x.cause == w.cause).elim 0 (·.serial)) % 8) ∧ ((w.serial + 8 - ((s.pass dt).turn.waves.find? fun (x : WaveState) => x.origin == w.origin && x.cause == w.cause).elim 0 (·.serial)) % 8 ≤ 4) ∧ (w.raise = true) ∧ (w.cause ≠ 8))
      (0) (3) (⟨true, 4, 3, 0, 2, 1⟩) ({ mk [(CPL_STATUS.state.cpl 3, 2), (HEAD_IMAGE_STATUS.state, 3), (HEAD_AXLE_COUNT.count, 800), (CPL_CONFIG.member.cpl 0, 1)] with turn := { grouped := true } })
    ∧ (fun (dt : Nat) (k : Nat) (w : WaveItem) (s : State) => ((s.pass dt).up k = true) ∧ ((s.pass dt).running = true) ∧ ((s.pass dt).turn.grouped = true) ∧ (w.origin ≠ (s.pass dt).member) ∧ (1 ≤ (w.serial + 8 - ((s.pass dt).turn.waves.find? fun (x : WaveState) => x.origin == w.origin && x.cause == w.cause).elim 0 (·.serial)) % 8) ∧ ((w.serial + 8 - ((s.pass dt).turn.waves.find? fun (x : WaveState) => x.origin == w.origin && x.cause == w.cause).elim 0 (·.serial)) % 8 ≤ 4) ∧ (w.raise = false) ∧ (w.cause ≠ 8))
      (0) (3) (⟨false, 4, 3, 0, 2, 2⟩) ({ mk [(CPL_STATUS.state.cpl 3, 2), (HEAD_IMAGE_STATUS.state, 3), (HEAD_AXLE_COUNT.count, 800), (CPL_CONFIG.member.cpl 0, 1)] with turn := { grouped := true } })
    ∧ (fun (dt : Nat) (k : Nat) (w : WaveItem) (s : State) => ((w.origin = (s.pass dt).member ∨ (w.serial + 8 - ((s.pass dt).turn.waves.find? fun (x : WaveState) => x.origin == w.origin && x.cause == w.cause).elim 0 (·.serial)) % 8 = 0)))
      (0) (3) (⟨true, 4, 3, 0, 1, 1⟩) ({ mk [(CPL_STATUS.state.cpl 3, 2), (HEAD_IMAGE_STATUS.state, 3), (HEAD_AXLE_COUNT.count, 800), (CPL_CONFIG.member.cpl 0, 1)] with turn := { grouped := true } })
    ∧ (fun (dt : Nat) (k : Nat) (m : TurnMsg) (s : State) => ((s.pass dt).up k = true) ∧ ((s.pass dt).running = true) ∧ ((s.pass dt).turn.grouped = true) ∧ (m.member ≠ (s.pass dt).member) ∧ (m.turn = (s.pass dt).turnNo) ∧ ((((s.pass dt).turn.msgs ++ (s.pass dt).turn.msgsNext).any fun (x : TurnMsg) => x.member == m.member && x.turn == m.turn) = false))
      (0) (3) (⟨2, 0, 50, false, none, [], 0⟩) ({ mk [(CPL_STATUS.state.cpl 3, 2), (HEAD_IMAGE_STATUS.state, 3), (HEAD_AXLE_COUNT.count, 800), (CPL_CONFIG.member.cpl 0, 1)] with turn := { grouped := true } })
    ∧ (fun (dt : Nat) (k : Nat) (m : TurnMsg) (s : State) => ((((s.pass dt).turn.msgs ++ (s.pass dt).turn.msgsNext).any fun (x : TurnMsg) => x.member == m.member && x.turn == m.turn) = true))
      (0) (3) (⟨2, 0, 50, false, none, [], 0⟩) ({ mk [(CPL_STATUS.state.cpl 3, 2), (HEAD_IMAGE_STATUS.state, 3), (HEAD_AXLE_COUNT.count, 800), (CPL_CONFIG.member.cpl 0, 1)] with turn := { grouped := true, msgs := [⟨2, 0, 50, false, none, [], 0⟩] } }) := by
  refine ⟨?_, ?_, ?_, ?_, ?_⟩ <;> decide +kernel

theorem witness_CouplingTransactions :
    (fun (dt : Nat) (k : Nat) (x : Tx) (s : State) => (k < 24) ∧ ((s.pass dt).up k = true) ∧ (txAllowed x = true) ∧ (x.reservedZero = true) ∧ (x.flags < 4) ∧ (x.push < 16) ∧ (x.ty = 1) ∧ (x.dstMember = (s.pass dt).member) ∧ (x.flags / 2 % 2 = 0) ∧ (x.space = 0) ∧ (0 < x.data.length) ∧ (x.data.length ≤ 1024))
      (0) (3) (⟨1, 1, 0, 0, 0, 0, 0, 0, 0, 0, 0, 0, 0, 0, 0, 0, 0, true, [1, 2]⟩) (mk [(CPL_STATUS.state.cpl 3, 2)])
    ∧ (fun (dt : Nat) (k : Nat) (x : Tx) (s : State) => (k < 24) ∧ ((s.pass dt).up k = true) ∧ (txAllowed x = true) ∧ (x.reservedZero = true) ∧ (x.flags < 4) ∧ (x.push < 16) ∧ (x.ty = 2) ∧ ((s.pass dt).img.image = none))
      (0) (3) (⟨2, 1, 0, 0, 0, 0, 0, 0, 0, 0, 0, 0, 0, 0, 0, 0, 0, true, []⟩) (mk [(CPL_STATUS.state.cpl 3, 2)])
    ∧ (fun (dt : Nat) (k n : Nat) (x : Tx) (i : Image) (d : TreeDecl) (s : State) => (k < 24) ∧ ((s.pass dt).up k = true) ∧ (txAllowed x = true) ∧ (x.reservedZero = true) ∧ (x.flags < 4) ∧ (x.push < 16) ∧ (x.ty = 2) ∧ ((s.pass dt).img.image = some i) ∧ ((i.trees.find? fun (y : TreeDecl) => y.num == x.dstEp) = some d) ∧ ((s.pass dt).tileOf (d.lc * 256 + d.lt) = some n) ∧ (0 < x.data.length) ∧ (x.data.length ≤ 1024))
      (0) (3) (0) (⟨2, 1, 0, 0, 0, 7, 0, 0, 0, 0, 0, 0, 0, 0, 0, 0, 0, true, [1]⟩) ({ img0 [] with trees := [⟨7, 1, 0, 0, []⟩] }) (⟨7, 1, 0, 0, []⟩) (runMk { img0 [] with trees := [⟨7, 1, 0, 0, []⟩] } [(CPL_STATUS.state.cpl 3, 2)])
    ∧ (fun (dt : Nat) (k n : Nat) (x : Tx) (r : CartRun) (s : State) => (k < 24) ∧ ((s.pass dt).up k = true) ∧ (txAllowed x = true) ∧ (x.reservedZero = true) ∧ (x.flags < 4) ∧ (x.push < 16) ∧ (x.ty = 3) ∧ (x.dstMember = (s.pass dt).member) ∧ (epTile x.dstEp = some n) ∧ (((s.pass dt).cart n ((s.pass dt).channelOf n x.tag)).run = some r) ∧ (r.tag = x.tag))
      (0) (3) (0) (⟨3, 1, 0, 0, 0, 0, 0, 0, 0, 0, 0, 5, 0, 0, 0, 0, 0, true, []⟩) (⟨⟨0, 1, 0, 0, 1, 0, 0, 0, 0, 64, 1, 0, 0, 0, true⟩, 0, 5, [], [], 2, [], false⟩) ({ mk [(CPL_STATUS.state.cpl 3, 2)] with net := { carts := [(7, ⟨[], none, some ⟨⟨0, 1, 0, 0, 1, 0, 0, 0, 0, 64, 1, 0, 0, 0, true⟩, 0, 5, [], [], 2, [], false⟩, 1⟩)] } })
    ∧ (fun (dt : Nat) (k n : Nat) (x : Tx) (s : State) => (k < 24) ∧ ((s.pass dt).up k = true) ∧ (txAllowed x = true) ∧ (x.reservedZero = true) ∧ (x.flags < 4) ∧ (x.push < 16) ∧ (x.ty = 4) ∧ (x.dstMember = (s.pass dt).member) ∧ (epTile x.dstEp = some n) ∧ (((s.pass dt).cart n ((s.pass dt).channelOf n x.tag)).run = none) ∧ ((s.pass dt).flag (TILE_CART_ERR_n.valid.cart n ((s.pass dt).channelOf n x.tag)) = false))
      (0) (3) (0) (⟨4, 1, 0, 0, 0, 0, 0, 0, 0, 0, 0, 5, 0, 0, 0, 0, 0, true, []⟩) (mk [(CPL_STATUS.state.cpl 3, 2)])
    ∧ (fun (dt : Nat) (k : Nat) (x : Tx) (s : State) => (k < 24) ∧ ((s.pass dt).up k = true) ∧ (txAllowed x = true) ∧ (x.reservedZero = true) ∧ (x.flags < 4) ∧ (x.push < 16) ∧ (x.ty = 1) ∧ (x.dstMember ≠ (s.pass dt).member) ∧ (x.hops < (s.pass dt).get HEAD_TURN_CONFIG.diameter) ∧ ((s.pass dt).relayOf x.dstMember = some k))
      (0) (3) (⟨1, 1, 0, 0, 2, 0, 0, 0, 0, 0, 0, 0, 0, 0, 0, 0, 0, true, []⟩) (runMk { img0 [] with relay := [(2, 3)] } [(CPL_STATUS.state.cpl 3, 2), (HEAD_TURN_CONFIG.diameter, 2)])
    ∧ (fun (dt : Nat) (k : Nat) (x : Tx) (s : State) => (k < 24) ∧ ((s.pass dt).up k = true) ∧ (txAllowed x = false))
      (0) (3) (⟨1, 0, 0, 0, 0, 0, 0, 0, 0, 0, 0, 0, 0, 0, 0, 0, 0, true, []⟩) (mk [(CPL_STATUS.state.cpl 3, 2)])
    ∧ (fun (dt : Nat) (k : Nat) (x : Tx) (g : GBar) (up : Nat) (s : State) => (k < 24) ∧ ((s.pass dt).up k = true) ∧ (txAllowed x = true) ∧ (x.reservedZero = true) ∧ (x.flags < 4) ∧ (x.push < 16) ∧ (x.ty = 5) ∧ (x.dstMember = (s.pass dt).member) ∧ ((s.pass dt).groupBarrier x.tag = some g) ∧ (g.parent = some up) ∧ (g.children = [k]) ∧ (g.num = x.tag) ∧ ((s.pass dt).cpl.ownDone.contains g.num = true))
      (0) (3) (⟨5, 0, 0, 0, 0, 0, 0, 0, 0, 0, 0, 5, 0, 0, 0, 0, 0, true, []⟩) (⟨5, some 4, [3]⟩) (4) ({ runMk { img0 [] with group := some ⟨0, 2, false, false, 0, 1, [], [⟨5, some 4, [3]⟩, ⟨6, none, [3]⟩], [], [⟨7, 0, 128, 0, 256, 0, 1, [0, 1]⟩]⟩ } [(CPL_STATUS.state.cpl 3, 2)] with cpl := { ownDone := [5] } })
    ∧ (fun (dt : Nat) (k : Nat) (x : Tx) (g : GBar) (c : Nat) (s : State) => (k < 24) ∧ ((s.pass dt).up k = true) ∧ (txAllowed x = true) ∧ (x.reservedZero = true) ∧ (x.flags < 4) ∧ (x.push < 16) ∧ (x.ty = 6) ∧ (x.dstMember = (s.pass dt).member) ∧ ((s.pass dt).groupBarrier x.tag = some g) ∧ (g.children = [c]))
      (0) (3) (⟨6, 0, 0, 0, 0, 0, 0, 0, 0, 0, 0, 5, 0, 0, 0, 0, 0, true, []⟩) (⟨5, some 4, [3]⟩) (3) ({ runMk { img0 [] with group := some ⟨0, 2, false, false, 0, 1, [], [⟨5, some 4, [3]⟩, ⟨6, none, [3]⟩], [], [⟨7, 0, 128, 0, 256, 0, 1, [0, 1]⟩]⟩ } [(CPL_STATUS.state.cpl 3, 2)] with cpl := { ownDone := [5] } }) := by
  refine ⟨?_, ?_, ?_, ?_, ?_, ?_, ?_, ?_, ?_⟩ <;> decide +kernel

theorem witness_Collectives :
    (fun (dt : Nat) (k n : Nat) (x : Tx) (d : CollDecl) (s : State) => (k < 24) ∧ ((s.pass dt).up k = true) ∧ (txAllowed x = true) ∧ (x.reservedZero = true) ∧ (x.flags < 4) ∧ (x.push < 16) ∧ (x.ty = 7) ∧ (x.dstMember = (s.pass dt).member) ∧ ((s.pass dt).collective x.coll = some (d, n)) ∧ (((s.pass dt).coll d).whole d.size = false) ∧ (d.members.idxOf x.part < d.members.length) ∧ (((s.pass dt).coll d).got.length = d.members.length) ∧ (d.num = x.coll) ∧ (0 < x.data.length) ∧ (((s.pass dt).coll d).got.getD (d.members.idxOf x.part) 0 + x.data.length ≤ d.size) ∧ ((s.pass dt).next.trapCircs.portTrap n .network (d.gather + d.members.idxOf x.part * d.size + x.offset) x.data.length remoteWrite = 0) ∧ (Memory.wf (s.pass dt).mem = true))
      (0) (3) (0) (⟨7, 2, 0, 0, 0, 0, 0, 0, 0, 0, 0, 0, 0, 0, 7, 1, 0, true, [1, 2, 3, 4, 5, 6, 7, 8]⟩) (⟨7, 0, 128, 0, 256, 0, 1, [0, 1]⟩) (runMk { img0 [] with group := some ⟨0, 2, false, false, 0, 1, [], [⟨5, some 4, [3]⟩, ⟨6, none, [3]⟩], [], [⟨7, 0, 128, 0, 256, 0, 1, [0, 1]⟩]⟩ } [(CPL_STATUS.state.cpl 3, 2), ((TILE_REGION_n.base.tile 0).off 0, 0), ((TILE_REGION_n.limit.tile 0).off 0, 64), (⟨tileBase 0 + TILE_REGION_n.base.key, 63, 1⟩, 1)])
    ∧ (fun (dt : Nat) (c n : Nat) (d : CollDecl) (s : State) => ((s.pass dt).collective c = some (d, n)) ∧ (((s.pass dt).coll d).whole d.size = true) ∧ (((s.pass dt).coll d).reducing = false) ∧ (d.kind = 0) ∧ (d.region < 16) ∧ ((s.pass dt).tile.circ = []) ∧ ((s.pass dt).circ n d.region TILE_CIRC_CFG_n.enable ≠ 0) ∧ (((s.pass dt).tile.waits.any fun (w : Wait) => w.tile == n && w.circ == d.region && w.pop == false) = false) ∧ ((s.pass dt).pushLegal n d.region 1 = true))
      (0) (7) (0) (⟨7, 0, 128, 0, 256, 0, 1, [0, 1]⟩) ({ runMk { img0 [] with group := some ⟨0, 2, false, false, 0, 1, [], [⟨5, some 4, [3]⟩, ⟨6, none, [3]⟩], [], [⟨7, 0, 128, 0, 256, 0, 1, [0, 1]⟩]⟩ } [((TILE_CIRC_CFG_n.enable.tile 0).off 16, 1), ((TILE_CIRC_CFG_n.slots.tile 0).off 16, 3)] with cpl := { colls := [⟨7, [128, 128], [64, 0], false⟩] } })
    ∧ (fun (dt : Nat) (c n : Nat) (d : CollDecl) (s : State) => ((s.pass dt).collective c = some (d, n)) ∧ (((s.pass dt).coll d).whole d.size = true) ∧ (((s.pass dt).coll d).reducing = false) ∧ (d.kind = 1))
      (0) (7) (0) (⟨7, 1, 128, 0, 256, 0, 1, [0, 1]⟩) ({ runMk { img0 [] with group := some ⟨0, 2, false, false, 0, 1, [], [⟨5, some 4, [3]⟩, ⟨6, none, [3]⟩], [], [⟨7, 1, 128, 0, 256, 0, 1, [0, 1]⟩]⟩ } [] with cpl := { colls := [⟨7, [128, 128], [64, 0], false⟩] } })
    ∧ (fun (dt : Nat) (c n : Nat) (d : CollDecl) (s : State) => ((s.pass dt).collective c = some (d, n)) ∧ (((s.pass dt).coll d).reducing = true) ∧ (∀ m : Nat, m < d.members.length → ∀ p ∈ (s.pass dt).flips, p.1 + 8 ≤ spadKey n (d.gather + m * d.size) ∨ spadKey n (d.gather + m * d.size) + d.size ≤ p.1) ∧ (d.region < 16) ∧ ((s.pass dt).tile.circ = []) ∧ ((s.pass dt).circ n d.region TILE_CIRC_CFG_n.enable ≠ 0) ∧ (((s.pass dt).tile.waits.any fun (w : Wait) => w.tile == n && w.circ == d.region && w.pop == false) = false) ∧ ((s.pass dt).pushLegal n d.region 1 = true) ∧ (Memory.wf (s.pass dt).mem = true))
      (0) (7) (0) (⟨7, 1, 8, 0, 256, 0, 1, [0, 1]⟩) ({ runMk { img0 [] with group := some ⟨0, 2, false, false, 0, 1, [], [⟨5, some 4, [3]⟩, ⟨6, none, [3]⟩], [], [⟨7, 1, 8, 0, 256, 0, 1, [0, 1]⟩]⟩ } [((TILE_CIRC_CFG_n.enable.tile 0).off 16, 1), ((TILE_CIRC_CFG_n.slots.tile 0).off 16, 3)] with cpl := { colls := [⟨7, [128, 128], [64, 0], true⟩] }, mem := Memory.setBytes [] (spadKey 0 0) [0, 0, 128, 63, 0, 0, 0, 64, 0, 0, 128, 63, 0, 0, 0, 64] }) := by
  refine ⟨?_, ?_, ?_, ?_⟩ <;> decide +kernel

theorem witness_RawRequests :
    (fun (dt : Nat) (cmd k chan a v : Nat) (s : State) => ((s.pass dt).cmdRuns 0x40 [1, 2] = true) ∧ (k < 24) ∧ (chan < 2) ∧ ((s.pass dt).up k = true))
      (0) (7) (3) (1) (0) (0) (openMk [(CPL_STATUS.state.cpl 3, 2)])
    ∧ (fun (dt : Nat) (cmd k chan a v : Nat) (w : Bool) (s : State) => ((s.pass dt).cmdRuns 0x40 [1, 2] = true) ∧ ((24 ≤ k ∨ 2 ≤ chan)))
      (0) (7) (24) (1) (0) (0) (true) (openMk [])
    ∧ (fun (dt : Nat) (k : Nat) (x : Tx) (s : State) => (k < 24) ∧ ((s.pass dt).up k = true) ∧ (x.vc = 0) ∧ (x.reservedZero = true) ∧ (x.flags < 4) ∧ (x.push < 16) ∧ (x.ty = 9) ∧ (x.part = 1) ∧ ((s.pass dt).flag (CPL_CONFIG.raw_debug.cpl k) = false))
      (0) (3) (⟨9, 0, 0, 0, 0, 0, 0, 0, 0, 0, 0, 0, 0, 0, 0, 1, 0, true, []⟩) (mk [(CPL_STATUS.state.cpl 3, 2)])
    ∧ (fun (dt : Nat) (k a : Nat) (x : Tx) (s : State) => (k < 24) ∧ ((s.pass dt).up k = true) ∧ (x.vc = 0) ∧ (x.reservedZero = true) ∧ (x.flags < 4) ∧ (x.push < 16) ∧ (x.ty = 9) ∧ (x.part = 0) ∧ ((s.pass dt).flag (CPL_CONFIG.raw_loader.cpl k) = true) ∧ (x.data = []) ∧ (rawAddr x.dstEp x.space x.offset = some a))
      (0) (3) (8) (⟨9, 0, 0, 0, 0, headEp, 0, 0, 0, 0, 0, 0, 0, 8, 0, 0, 0, true, []⟩) (mk [(CPL_STATUS.state.cpl 3, 2), (CPL_CONFIG.raw_loader.cpl 3, 1)])
    ∧ (fun (dt : Nat) (k cmd tk : Nat) (x : Tx) (s : State) => (k < 24) ∧ ((s.pass dt).up k = true) ∧ (x.vc = 0) ∧ (x.reservedZero = true) ∧ (x.flags < 4) ∧ (x.push < 16) ∧ (x.ty = 10) ∧ ((s.pass dt).port.raw = some (cmd, k, tk)) ∧ ((x.tag + 1) % 256 = (s.pass dt).port.rawTag))
      (0) (3) (7) (0) (⟨10, 0, 0, 0, 0, 0, 0, 0, 0, 0, 0, 255, 0, 0, 0, 0, 0, true, []⟩) ({ mk [(CPL_STATUS.state.cpl 3, 2)] with port := { raw := some (7, 3, 0) } })
    ∧ (fun (dt : Nat) (k : Nat) (x : Tx) (s : State) => (k < 24) ∧ ((s.pass dt).up k = true) ∧ (x.vc = 3) ∧ (x.reservedZero = true) ∧ (x.flags < 4) ∧ (x.push < 16) ∧ (x.ty = 11) ∧ (x.space = 3) ∧ ((s.pass dt).towerFailed x.part = false) ∧ ((s.pass dt).group = none) ∧ ((s.pass dt).img.load = none) ∧ (Memory.wf (s.pass dt).mem = true))
      (0) (3) (⟨11, 3, 0, 0, 0, 0, 0, 3, 0, 0, 0, 0, 0, 0, 0, 23, 0, true, [1, 2, 3]⟩) (mk [(CPL_STATUS.state.cpl 3, 2)]) := by
  refine ⟨?_, ?_, ?_, ?_, ?_, ?_⟩ <;> decide +kernel

theorem witness_TurnProgress :
    (fun (dt : Nat) (hot : List Nat) (c : Nat) (s : State) => ((s.pass dt).turn.startAt = some c) ∧ ((s.pass dt).running = true) ∧ (c ≤ (s.pass dt).count))
      (0) ([]) (800) ({ runMk (img0 []) [(HEAD_AXLE_COUNT.count, 800)] with turn := { startAt := some 800 } })
    ∧ (fun (dt : Nat) (s : State) => ((s.pass dt).inTurn = true) ∧ ((s.pass dt).turn.q = none) ∧ ((s.pass dt).spokeQ ≤ (s.pass dt).spoke) ∧ ((s.pass dt).checksumMisses = []))
      (0) (runMk (img0 []) [(HEAD_AXLE_COUNT.count, 1600)])
    ∧ (fun (dt : Nat) (n : Nat) (s : State) => ((s.pass dt).inTurn = true) ∧ ((s.pass dt).turn.q = none) ∧ ((s.pass dt).spokeQ ≤ (s.pass dt).spoke) ∧ ((s.pass dt).checksumMisses = [n]) ∧ ((s.pass dt).tile.missed.contains n = false) ∧ ((s.pass dt).holding 6 = false) ∧ ((s.pass dt).get HEAD_REPAIR_STATUS.reruns < 4))
      (0) (0) (runMk (img0 [⟨0, 1, 0, 0, 0⟩]) [(HEAD_AXLE_COUNT.count, 1600)])
    ∧ (fun (dt : Nat) (b : Nat) (env : BoundaryEnv) (s : State) => ((s.pass dt).boundary? = some b) ∧ ((s.pass dt).turn.grouped = false) ∧ ((s.pass dt).turn.msgs = []) ∧ ((s.pass dt).turn.stopCmd = none) ∧ ((s.pass dt).serv.drain = none) ∧ ((s.pass dt).turn.insertReq = []) ∧ ((s.pass dt).turn.reqStep = some (s.pass dt).k))
      (0) (303) (⟨[], []⟩) ({ runMk (img0 []) [(HEAD_AXLE_COUNT.count, 4000)] with turn := { q := some 300, reqStep := some (mk []).k } })
    ∧ (fun (dt : Nat) (b : Nat) (env : BoundaryEnv) (cmd : Nat) (s : State) => ((s.pass dt).boundary? = some b) ∧ ((s.pass dt).turn.grouped = false) ∧ ((s.pass dt).turn.msgs = []) ∧ ((s.pass dt).turn.stopCmd = some cmd) ∧ (cmd < 2 ^ 32))
      (0) (303) (⟨[], []⟩) (7) ({ runMk (img0 []) [(HEAD_AXLE_COUNT.count, 4000)] with turn := { q := some 300, stopCmd := some 7 } })
    ∧ (fun (dt : Nat) (rest : List InsertKind) (k : Nat) (s : State) => ((s.pass dt).turn.inserts = .freqStep :: rest) ∧ ((s.pass dt).turn.newStep = some k) ∧ ((s.pass dt).running = true) ∧ ((s.pass dt).turnStart ≤ (s.pass dt).spoke + rest.length + 1))
      (0) ([]) (50) ({ runMk (img0 []) [(HEAD_AXLE_COUNT.count, 4000)] with turn := { inserts := [.freqStep], newStep := some 50 } })
    ∧ (fun (dt : Nat) (rest : List InsertKind) (s : State) => ((s.pass dt).turn.inserts = .hitchSub :: rest) ∧ ((s.pass dt).net.degraded = []) ∧ ((s.pass dt).running = true) ∧ ((s.pass dt).turnStart ≤ (s.pass dt).spoke + rest.length + 1))
      (0) ([]) ({ runMk (img0 []) [(HEAD_AXLE_COUNT.count, 4000)] with turn := { inserts := [.hitchSub] } }) := by
  refine ⟨?_, ?_, ?_, ?_, ?_, ?_, ?_⟩ <;> decide +kernel

theorem witness_HoldsInForce :
    (fun (dt : Nat) (unit kind : Nat) (r : Bool) (via : Option Nat) (s : State) => ((s.pass dt).inTurn = true) ∧ (lateCause kind r ≠ 0xB ∨ kind = 1 ∨ prefillUnit unit = false ∨ (s.pass dt).holding 6 = false))
      (0) (5) (1) (true) (some 3) (runMk (img0 []) [])
    ∧ (fun (dt : Nat) (id : Nat) (h : Hold) (s : State) => (((s.pass dt).turn.holds.find? fun (x : Hold) => x.id == id && x.member.isNone && x.withdraw.isNone) = some h) ∧ ((h.cause = 1 ∨ h.cause = 2 ∨ h.cause = 3 ∨ h.cause = 0xA ∨ h.cause = 0xB)))
      (0) (3) ((⟨3, 1, 490, none, none, 7, none⟩ : Hold)) ({ runMk (img0 []) [(HEAD_AXLE_COUNT.count, 4000)] with turn := { holds := [(⟨3, 1, 490, none, none, 7, none⟩ : Hold)], nextHold := 4 } })
    ∧ (fun (dt : Nat) (id : Nat) (h : Hold) (s : State) => (((s.pass dt).turn.holds.find? fun (x : Hold) => x.id == id && x.member.isNone && x.withdraw.isNone) = some h) ∧ (h.cause = 6) ∧ ((s.pass dt).causeInForce 6 (s.pass dt).spoke = true) ∧ ((s.pass dt).copied = true))
      (0) (3) ((⟨3, 6, 490, none, none, 7, none⟩ : Hold)) ({ runMk (img0 []) [(HEAD_AXLE_COUNT.count, 4000)] with turn := { holds := [(⟨3, 6, 490, none, none, 7, none⟩ : Hold)], nextHold := 4 } })
    ∧ (fun (dt : Nat) (s : State) => ((s.pass dt).inTurn = true) ∧ ((s.pass dt).inForce (s.pass dt).spoke = true) ∧ ((s.pass dt).causeInForce 6 (s.pass dt).spoke = false))
      (0) ({ runMk (img0 []) [(HEAD_AXLE_COUNT.count, 4000)] with turn := { holds := [(⟨3, 1, 490, none, none, 7, none⟩ : Hold)], nextHold := 4 } })
    ∧ (fun (dt : Nat) (s : State) => ((s.pass dt).inTurn = true) ∧ ((s.pass dt).causeInForce 6 (s.pass dt).spoke = true) ∧ ((s.pass dt).turn.voidSeen = false) ∧ (Sparse.sorted (s.pass dt).net.carts = true))
      (0) ({ runMk (img0 []) [(HEAD_AXLE_COUNT.count, 4000)] with turn := { holds := [(⟨3, 6, 490, none, none, 7, none⟩ : Hold)], nextHold := 4 } })
    ∧ (fun (dt : Nat) (s : State) => ((s.pass dt).inTurn = true) ∧ ((s.pass dt).inForce (s.pass dt).spoke = false) ∧ ((s.pass dt).net.carts = []))
      (0) (runMk (img0 []) [])
    ∧ (fun (dt : Nat) (s : State) => ((s.pass dt).inTurn = true) ∧ ((s.pass dt).turn.voidSeen = true) ∧ ((s.pass dt).causeInForce 6 (s.pass dt).spoke = false) ∧ ((s.pass dt).holding 6 = false))
      (0) ({ runMk (img0 []) [(HEAD_AXLE_COUNT.count, 4000)] with turn := { voidSeen := true } })
    ∧ (fun (dt : Nat) (s : State) => ((s.elapse dt).running = true) ∧ ((s.elapse dt).holding 0xC = false))
      (0) (mk [(HEAD_IMAGE_STATUS.state, 3)]) := by
  refine ⟨?_, ?_, ?_, ?_, ?_, ?_, ?_, ?_⟩ <;> decide +kernel

theorem witness_RepairCopies :
    (fun (dt : Nat) (key : Nat) (j : RepJob) (i : Image) (s : State) => ((s.pass dt).job? key = some j) ∧ ((s.pass dt).img.image = some i) ∧ ((s.pass dt).targetReady j.target = true) ∧ ((s.pass dt).causeInForce 6 (s.pass dt).spoke = true) ∧ (j.lines ≠ 0) ∧ ((s.pass dt).shadowLost i key = false))
      (0) (0) (⟨0, 5, 9216, 6000, false, false⟩) (img0 []) ({ runMk (img0 []) [(HEAD_AXLE_COUNT.count, 4000)] with turn := { holds := [(⟨3, 6, 490, none, none, 7, none⟩ : Hold)], nextHold := 4 }, rep := { jobs := [⟨0, 5, 9216, 6000, false, false⟩] } })
    ∧ (fun (dt : Nat) (key : Nat) (j : RepJob) (i : Image) (l : List (Nat × List Byte)) (s : State) => ((s.pass dt).job? key = some j) ∧ ((s.pass dt).img.image = some i) ∧ ((s.pass dt).targetReady j.target = true) ∧ ((s.pass dt).causeInForce 6 (s.pass dt).spoke = true) ∧ (j.prefill = false) ∧ (j.refilled = false) ∧ ((s.pass dt).rep.rebuilds = []))
      (0) (0) (⟨0, 5, 9216, 4000, false, false⟩) (img0 []) ([(0, [1])]) ({ runMk (img0 []) [(HEAD_AXLE_COUNT.count, 4000)] with turn := { holds := [(⟨3, 6, 490, none, none, 7, none⟩ : Hold)], nextHold := 4 }, rep := { jobs := [⟨0, 5, 9216, 4000, false, false⟩] } })
    ∧ (fun (dt : Nat) (a : Advance) (i : Image) (s : State) => ((s.pass dt).rep.advance = some a) ∧ ((s.pass dt).img.image = some i) ∧ (a.ready = false) ∧ ((s.pass dt).turning = true) ∧ ((s.pass dt).targetReady a.target = true) ∧ ((s.pass dt).thm.selfRefresh = false) ∧ ((s.pass dt).shadowLost i a.key = false))
      (0) (⟨0, 5, 9216, false, false⟩) (img0 []) ({ runMk (img0 []) [] with rep := { advance := some ⟨0, 5, 9216, false, false⟩ } })
    ∧ (fun (dt : Nat) (key m : Nat) (fails : Bool) (j : RepJob) (i : Image) (s : State) => (fails = true ∨ (s.pass dt).heldOver 6 2000 none = true) ∧ ((s.pass dt).job? key = some j) ∧ (j.key = key) ∧ ((s.pass dt).img.image = some i) ∧ (j.prefill = true) ∧ ((s.pass dt).sbx.store.length < 4096) ∧ (9216 ≤ j.target) ∧ (j.target < 9984) ∧ (((s.pass dt).targetLost j).chooseP j.lost = some m))
      (0) (0) (9217) (true) (⟨0, 9218, 9216, 0, false, true⟩) (img0 []) ({ runMk (img0 []) [(HEAD_AXLE_COUNT.count, 4000)] with turn := { holds := [(⟨3, 6, 490, none, none, 7, none⟩ : Hold)], nextHold := 4 }, rep := { jobs := [⟨0, 9218, 9216, 0, false, true⟩] } }) := by
  refine ⟨?_, ?_, ?_, ?_⟩ <;> decide +kernel

theorem witness_FailingUnits :
    (fun (dt : Nat) (n : Nat) (s : State) => (n < 9216) ∧ ((s.pass dt).get (TILE_STATE.state.tile n) ≠ 0) ∧ ((s.pass dt).get (TILE_STATE.state.tile n) ≠ 4) ∧ ((s.pass dt).rep.jobs = []) ∧ ((s.pass dt).rep.advance = none) ∧ ((s.pass dt).logicalOf n = none) ∧ ((s.pass dt).coachInUse (n / 144) = false) ∧ ((s.pass dt).boot.guardResets.contains (n / 144) = false))
      (0) (9215) (mk [(TILE_STATE.state.tile 9215, 1)])
    ∧ (fun (dt : Nat) (n key : Nat) (i : Image) (s : State) => (n < 9984) ∧ ((s.pass dt).get (TILE_STATE.state.tile n) ≠ 0) ∧ ((s.pass dt).get (TILE_STATE.state.tile n) ≠ 4) ∧ ((s.pass dt).rep.jobs = []) ∧ ((s.pass dt).rep.advance = none) ∧ ((s.pass dt).logicalOf n = some key) ∧ ((s.pass dt).img.image = some i) ∧ ((s.pass dt).get THM_STATUS.state ≠ 3) ∧ ((s.pass dt).turning = false) ∧ ((s.pass dt).hasDefect 1 (placeOf n) (siteOf n) = false) ∧ ((s.pass dt).sbx.store.length < 4096))
      (0) (0) (0) (img0 []) ({ mk [(TILE_STATE.state.tile 0, 2), (HEAD_IMAGE_STATUS.state, 2)] with img := { image := some (img0 []), place := [(0, 0)] } })
    ∧ (fun (dt : Nat) (k ch : Nat) (ovr : Bool) (s : State) => (ovr = false ∨ (s.pass dt).heldOver 1 4 none = true) ∧ (k < 24) ∧ (ch < 32) ∧ ((s.pass dt).get (TWR_STATUS.state.twr k) = 2) ∧ ((s.pass dt).rep.chanDue = []) ∧ ((s.pass dt).flag (TWR_STATUS.spare_used.twr k) = false) ∧ ((s.pass dt).turning = true))
      (0) (23) (31) (false) (runMk (img0 []) [(TWR_STATUS.state.twr 23, 2)])
    ∧ (fun (dt : Nat) (k ch : Nat) (ovr : Bool) (s : State) => (ovr = false ∨ (s.pass dt).heldOver 1 4 none = true) ∧ (k < 24) ∧ (ch < 32) ∧ ((s.pass dt).get (TWR_STATUS.state.twr k) = 2) ∧ ((s.pass dt).rep.chanDue = []) ∧ ((s.pass dt).flag (TWR_STATUS.spare_used.twr k) = false) ∧ ((s.pass dt).turning = false) ∧ ((s.pass dt).sbx.store.length < 4096))
      (0) (23) (31) (false) (mk [(TWR_STATUS.state.twr 23, 2)])
    ∧ (fun (dt : Nat) (k ch : Nat) (s : State) => ((s.pass dt).rep.restoring = [(k, ch)]) ∧ ((s.pass dt).thm.selfRefresh = false) ∧ ((s.pass dt).boxStopped = false) ∧ ((s.pass dt).copyBlocked k [] = false))
      (0) (23) (31) ({ mk [(HEAD_REPAIR_STATUS.state, 4)] with rep := { restoring := [(23, 31)] } }) := by
  refine ⟨?_, ?_, ?_, ?_, ?_⟩ <;> decide +kernel

theorem witness_Watchdogs :
    (fun (dt : Nat) (g : Nat) (s : State) => (g < 4) ∧ ((s.pass dt).get (GRD_WATCHDOG_i.state.guard g) = 0))
      (0) (3) (State.reset)
    ∧ (fun (dt : Nat) (g : Nat) (s : State) => (g < 4) ∧ ((s.pass dt).get (GRD_WATCHDOG_i.state.guard g) = 0) ∧ ((Sparse.find (s.pass dt).rep.restarts g).getD 0 + 1600000 ≤ (s.pass dt).ticks) ∧ (Sparse.find (s.pass dt).rep.expiries g = none))
      (1600000) (3) (State.reset)
    ∧ (fun (dt : Nat) (g a b : Nat) (s : State) => (g < 4) ∧ ((s.pass dt).get (GRD_WATCHDOG_i.state.guard g) = 0) ∧ ((Sparse.find (s.pass dt).rep.restarts g).getD 0 + 1600000 ≤ (s.pass dt).ticks) ∧ (Sparse.find (s.pass dt).rep.expiries g = some [a, b]) ∧ ((s.pass dt).ticks < a + 160000000) ∧ ((s.pass dt).ticks < b + 160000000) ∧ ((s.pass dt).sbx.store.length < 4096))
      (1600000) (3) (5) (0) ({ State.reset with rep := { expiries := [(3, [5, 0])] } })
    ∧ (fun (dt : Nat) (g : Nat) (s : State) => (g < 4) ∧ ((s.pass dt).get (GRD_WATCHDOG_i.state.guard g) = 1))
      (0) (3) (mk [(GRD_WATCHDOG_i.state.guard 3, 1)])
    ∧ (fun (dt : Nat) (g : Nat) (s : State) => (g < 4) ∧ ((s.pass dt).get (GRD_WATCHDOG_i.state.guard g) = 0))
      (0) (3) (State.reset)
    ∧ (fun (dt : Nat) (g : Nat) (s : State) => (g < 4) ∧ ((s.pass dt).get (GRD_WATCHDOG_i.state.guard g) = 2))
      (0) (3) (mk [(GRD_WATCHDOG_i.state.guard 3, 2)]) := by
  refine ⟨?_, ?_, ?_, ?_, ?_, ?_⟩ <;> decide +kernel

theorem witness_RailTransactions :
    (fun (dt : Nat) (a w : Nat) (s : State) => ((s.pass dt).pwr.asked = some w) ∧ ((s.pass dt).pwr.answered = some a) ∧ (a + 16000 ≤ (s.pass dt).ticks))
      (16000) (0) (90) ({ State.reset with pwr := { asked := some 90, answered := some 0 } })
    ∧ (fun (dt : Nat) (r : Resp) (n v : Nat) (s : State) => ((s.pass dt).pwr.bus.contains r.req = true) ∧ (r.req = railWord n 2 0) ∧ (r.rsp = railWord n 0 v) ∧ (n < 181) ∧ (v < 4096))
      (0) (⟨railWord 180 2 0, railWord 180 0 750⟩) (180) (750) ({ mk [(PWR_RAIL_STATUS.bus_fault.ix 180, 1)] with pwr := { bus := [railWord 180 2 0] } })
    ∧ (fun (dt : Nat) (r : Resp) (n : Nat) (s : State) => ((s.pass dt).pwr.bus.contains r.req = true) ∧ (bits r.req 32 8 = n) ∧ (crc8 (r.rsp / 256) ≠ r.rsp % 256) ∧ (Sparse.find (s.pass dt).pwr.failures n = none))
      (0) (⟨railWord 180 2 0, railWord 180 0 750 + 1⟩) (180) ({ mk [] with pwr := { bus := [railWord 180 2 0] } })
    ∧ (fun (dt : Nat) (r : Resp) (n : Nat) (s : State) => ((s.pass dt).pwr.bus.contains r.req = true) ∧ (bits r.req 32 8 = n) ∧ (crc8 (r.rsp / 256) ≠ r.rsp % 256) ∧ (Sparse.find (s.pass dt).pwr.failures n = some 2))
      (0) (⟨railWord 180 2 0, railWord 180 0 750 + 1⟩) (180) ({ mk [] with pwr := { bus := [railWord 180 2 0], failures := [(180, 2)] } })
    ∧ (fun (dt : Nat) (bus : Nat) (s : State) => ((s.pass dt).extest = false))
      (0) (3) (State.reset)
    ∧ (fun (dt : Nat) (n : Nat) (s : State) => ((s.pass dt).extest = false) ∧ (n < 0xB5))
      (0) (180) (State.reset) := by
  refine ⟨?_, ?_, ?_, ?_, ?_, ?_⟩ <;> decide +kernel

theorem witness_DroopsAndPower :
    (fun (dt : Nat) (d mv r : Nat) (s : State) => (domainRail d = some r) ∧ ((s.pass dt).get (PWR_DOM_STATE.state.dom d) = 2) ∧ ((s.pass dt).get THM_STATUS.state < 2) ∧ (mv + 40 < (s.pass dt).setPoint r (s.pass dt).k) ∧ (mv < 4096) ∧ ((s.pass dt).turning = false))
      (0) (367) (600) (0x80 + 23) ({ mk [(PWR_DOM_STATE.state.ix 367, 2)] with pwr := { trims := [(0x80 + 23, 150)] } })
    ∧ (fun (dt : Nat) (d mv r : Nat) (s : State) => (domainRail d = some r) ∧ ((s.pass dt).get (PWR_DOM_STATE.state.dom d) = 2) ∧ ((s.pass dt).get THM_STATUS.state < 2) ∧ (mv + 40 < (s.pass dt).setPoint r (s.pass dt).k) ∧ (mv < 4096) ∧ ((s.pass dt).turning = true) ∧ (Sparse.find (s.pass dt).pwr.droopTurn d = none))
      (0) (367) (100) (0x80 + 23) ({ runMk (img0 []) [(PWR_DOM_STATE.state.ix 367, 2)] with pwr := { trims := [(0x80 + 23, 150)] } })
    ∧ (fun (dt : Nat) (d mv r : Nat) (s : State) => (domainRail d = some r) ∧ (mv < 4096) ∧ ((s.pass dt).setPoint r (s.pass dt).k ≤ mv + 40) ∧ ((s.pass dt).get (PWR_DOM_VMIN.vmin.ix d) ≤ mv))
      (0) (3) (900) (0) ({ mk [(PWR_DOM_VMIN.vmin.ix 3, 700)] with pwr := { trims := [(0, 150)] } })
    ∧ (fun (dt : Nat) (c : Nat) (s : State) => (c < 64) ∧ ((s.pass dt).rep.isolated.contains c = false) ∧ ((s.pass dt).turning = false))
      (0) (63) (State.reset)
    ∧ (fun (dt : Nat) (b : Nat) (s : State) => (b < 24) ∧ ((s.pass dt).rep.darkBays.contains b = false) ∧ ((s.pass dt).turning = false))
      (0) (23) (State.reset)
    ∧ (fun (dt : Nat) (w : Nat) (s : State) => ((s.pass dt).running = true) ∧ ((s.pass dt).holding 4 = false) ∧ (w < 65536))
      (0) (65535) (runMk (img0 []) [])
    ∧ (fun (dt : Nat) (w a : Nat) (s : State) => ((s.pass dt).pwr.holdAt = some a) ∧ ((s.pass dt).holding 4 = true) ∧ (a + 8 ≤ (s.pass dt).spoke) ∧ (w < 65536))
      (0) (9) (400) ({ runMk (img0 []) [(HEAD_AXLE_COUNT.count, 4000)] with turn := { holds := [⟨1, 4, 400, none, none, 7, none⟩] }, pwr := { holdAt := some 400 } })
    ∧ (fun (dt : Nat) (w : Nat) (s : State) => ((s.pass dt).running = true) ∧ ((s.pass dt).holding 4 = true) ∧ (w < 65536))
      (0) (9) ({ runMk (img0 []) [(HEAD_AXLE_COUNT.count, 4000)] with turn := { holds := [⟨1, 4, 400, none, none, 7, none⟩] }, pwr := { holdAt := some 400 } }) := by
  refine ⟨?_, ?_, ?_, ?_, ?_, ?_, ?_, ?_⟩ <;> decide +kernel

theorem witness_CoachPowerUp :
    (fun (dt : Nat) (c : Nat) (p : PowerUp) (s : State) => (c < 64) ∧ ((s.pass dt).powerUp? c = some p) ∧ ((s.pass dt).get (PWR_DOM_STATE.stage.dom (4 * c)) < 3) ∧ (p.from_ + 8 * ((s.pass dt).get (PWR_DOM_STATE.stage.dom (4 * c)) + 1) ≤ (s.pass dt).spoke))
      (0) (63) (⟨63, 100, 100, 120⟩) ({ mk ([(HEAD_AXLE_COUNT.count, 4000)] ++ (coachDomains 63).flatMap fun d => [(PWR_DOM_STATE.stage.dom d, 2), (PWR_DOM_STATE.state.dom d, 1)]) with pwr := { powering := [⟨63, 100, 100, 120⟩] } })
    ∧ (fun (dt : Nat) (c : Nat) (p : PowerUp) (s : State) => (c < 64) ∧ ((s.pass dt).powerUp? c = some p) ∧ ((s.pass dt).get (PWR_DOM_STATE.stage.dom (4 * c)) = 3) ∧ (p.stageAt + 2 ≤ (s.pass dt).spoke) ∧ (((coachDomains c).all fun (d : Nat) => (s.pass dt).get (PWR_DOM_STATE.state.dom d) == 1 || (s.pass dt).get (PWR_DOM_STATE.state.dom d) == 2) = true))
      (0) (63) (⟨63, 100, 100, 120⟩) ({ mk ([(HEAD_AXLE_COUNT.count, 4000)] ++ (coachDomains 63).flatMap fun d => [(PWR_DOM_STATE.stage.dom d, 3), (PWR_DOM_STATE.state.dom d, 1)]) with pwr := { powering := [⟨63, 100, 100, 120⟩] } })
    ∧ (fun (dt : Nat) (c : Nat) (p : PowerUp) (s : State) => (c < 64) ∧ ((s.pass dt).powerUp? c = some p) ∧ ((s.pass dt).get (PWR_DOM_STATE.stage.dom (4 * c)) < 3) ∧ (p.stageAt + 200 ≤ (s.pass dt).spoke) ∧ ((s.pass dt).rep.isolated.contains c = false) ∧ ((s.pass dt).img.image = none) ∧ ((s.pass dt).sbx.store.length < 4096))
      (0) (63) (⟨63, 100, 100, 120⟩) ({ mk ([(HEAD_AXLE_COUNT.count, 4000)] ++ (coachDomains 63).flatMap fun d => [(PWR_DOM_STATE.stage.dom d, 1), (PWR_DOM_STATE.state.dom d, 1)]) with pwr := { powering := [⟨63, 100, 100, 120⟩] } })
    ∧ (fun (dt : Nat) (c n : Nat) (s : State) => (c < 64) ∧ (n / 144 = c) ∧ ((s.pass dt).pwr.resetting.contains c = true))
      (0) (63) (9215) ({ mk [(TILE_STATE.state.tile 9215, 4)] with pwr := { resetting := [63] } })
    ∧ (fun (dt : Nat) (hot : List Nat) (a v : Nat) (s : State) => ((s.pass dt).running = false) ∧ ((s.pass dt).count % 64 = 0) ∧ ((s.pass dt).turn.shadows = [⟨.coachOn, true, a, v⟩]) ∧ (a < (s.pass dt).ticks) ∧ ((s.pass dt).flag HEAD_SWAP_CTRL.hold = false) ∧ (v < 2 ^ 64) ∧ ((s.pass dt).rep.isolated = []) ∧ ((s.pass dt).get PWR_COACH_ACTIVE.on = 0))
      (64) ([]) (5) (2 ^ 63 + 1) ({ mk [] with boot := { pwrgood := true }, turn := { shadows := [⟨.coachOn, true, 5, 2 ^ 63 + 1⟩] } }) := by
  refine ⟨?_, ?_, ?_, ?_, ?_⟩ <;> decide +kernel

theorem witness_ClockRequests :
    (fun (dt : Nat) (cmd d i : Nat) (s : State) => (mayRequest .device d = true) ∧ (d ≠ 1) ∧ ((s.pass dt).running = false) ∧ (i < clkInstances d) ∧ ((s.pass dt).childRuns d i = false))
      (0) (7) (8) (23) (State.reset)
    ∧ (fun (dt : Nat) (cmd d i : Nat) (s : State) => (mayRequest .device d = true) ∧ (d ≠ 1) ∧ ((s.pass dt).running = false) ∧ (i < clkInstances d) ∧ ((s.pass dt).childRuns d i = true))
      (0) (7) (7) (23) (State.reset)
    ∧ (fun (dt : Nat) (cmd d i p : Nat) (s : State) => (mayRequest .device d = true) ∧ (d ≠ 1) ∧ ((s.pass dt).running = false) ∧ (i < clkInstances d) ∧ (clkParent d = some p) ∧ ((s.pass dt).isGated p (clkFeeds d i) = false))
      (0) (7) (8) (23) (7) ({ State.reset with boot := { gated := [(8, 23)] } })
    ∧ (fun (dt : Nat) (cmd d i p : Nat) (s : State) => (mayRequest .device d = true) ∧ (d ≠ 1) ∧ ((s.pass dt).running = false) ∧ (i < clkInstances d) ∧ (clkParent d = some p) ∧ ((s.pass dt).isGated p (clkFeeds d i) = true))
      (0) (7) (8) (23) (7) ({ State.reset with boot := { gated := [(7, 23), (8, 23)] } })
    ∧ (fun (dt : Nat) (cmd d : Nat) (s : State) => ((d = 1 ∨ d = 17)) ∧ ((s.pass dt).flag CLK_STATUS.seco_ready = true))
      (0) (7) (17) (mk [(CLK_STATUS.seco_ready, 1)])
    ∧ (fun (dt : Nat) (cmd d : Nat) (b : Bool) (s : State) => (d ≠ 1) ∧ (d ≠ 17) ∧ (d < 26))
      (0) (7) (16) (true) (State.reset)
    ∧ (fun (dt : Nat) (cmd d i : Nat) (s : State) => ((s.pass dt).cmdRuns 2 [1, 2] = true) ∧ ((s.pass dt).get CLK_DOM_INDEX.domain = d) ∧ (1 ≤ d) ∧ (d < 26) ∧ (mayRequest .host d = false))
      (0) (7) (16) (0) (openMk [(CLK_DOM_INDEX.domain, 16)]) := by
  refine ⟨?_, ?_, ?_, ?_, ?_, ?_, ?_⟩ <;> decide +kernel

theorem witness_ClockReadiness :
    (fun (dt : Nat) (d i : Nat) (s : State) => (isPll d i = true) ∧ ((s.pass dt).pllFed d = true) ∧ ((s.pass dt).boot.ready.contains (d, i) = false))
      (0) (6) (0) (mk [(CLK_STATUS.refclk_ready, 1)])
    ∧ (fun (dt : Nat) (d i : Nat) (s : State) => ((s.pass dt).boot.ready.contains (d, i) = true) ∧ (d < 26) ∧ (i < 64))
      (0) (17) (0) ({ mk [(CLK_STATUS.guard_ready, 1)] with boot := { ready := [(17, 0)] } })
    ∧ (fun (dt : Nat) (s : State) => ((s.pass dt).flag (CLK_DOM_STATUS.on_seco.ix 17) = false))
      (0) (mk [(CLK_DOM_STATUS.on_seco.ix 17, 0)])
    ∧ (fun (dt : Nat) (s : State) => ((s.pass dt).flag (CLK_DOM_STATUS.on_seco.ix 1) = false) ∧ ((s.pass dt).running = false))
      (0) (mk [(CLK_DOM_STATUS.on_seco.ix 1, 0)])
    ∧ (fun (dt : Nat) (a : Nat) (s : State) => ((s.pass dt).boot.oscDue = some a) ∧ (a ≤ (s.pass dt).ticks))
      (8) (8) ({ State.reset with boot := { oscDue := some 8 } })
    ∧ (fun (dt : Nat) (khz : Nat) (s : State) => ((s.pass dt).boot.oscDone = true) ∧ (5 ≤ (s.pass dt).get HEAD_BOOT_STATUS.step) ∧ (95000 ≤ khz) ∧ (khz ≤ 105000) ∧ ((s.pass dt).flag CLK_STATUS.refclk_fail = false))
      (8) (105000) ({ mk [(HEAD_BOOT_STATUS.step, 5)] with boot := { oscDone := true } })
    ∧ (fun (dt : Nat) (khz : Nat) (s : State) => ((s.pass dt).boot.oscDone = true) ∧ (5 ≤ (s.pass dt).get HEAD_BOOT_STATUS.step) ∧ ((khz < 95000 ∨ 105000 < khz)) ∧ (khz < 131072))
      (8) (105001) ({ mk [(HEAD_BOOT_STATUS.step, 5)] with boot := { oscDone := true } })
    ∧ (fun (dt : Nat) (a : Nat) (s : State) => ((s.pass dt).boot.oscDue = some a) ∧ ((s.pass dt).boot.oscDone = true) ∧ ((s.pass dt).get HEAD_BOOT_STATUS.step = 5) ∧ (max a (s.pass dt).boot.stepTick + 1600000 ≤ (s.pass dt).ticks) ∧ ((s.pass dt).flag CLK_STATUS.refclk_ready = false) ∧ ((s.pass dt).flag CLK_STATUS.refclk_fail = false))
      (1600000) (0) ({ mk [(HEAD_BOOT_STATUS.step, 5)] with boot := { oscDone := true, oscDue := some 0 } }) := by
  refine ⟨?_, ?_, ?_, ?_, ?_, ?_, ?_, ?_⟩ <;> decide +kernel

theorem witness_TemperatureSensing :
    (fun (dt : Nat) (l : List (Nat × Nat)) (n v : Nat) (s : State) => (n < 408) ∧ (Sparse.find l n = some v) ∧ (v < 4096) ∧ ((s.pass dt).get (THM_SENSOR.state.ix n) ≠ 2) ∧ ((s.pass dt).get (PWR_DOM_STATE.state.ix (sensorDomain n)) = 2) ∧ (-160 ≤ quarter v) ∧ (quarter v ≤ 600))
      (0) ([(407, 120)]) (407) (120) (mk [(PWR_DOM_STATE.state.ix 391, 2)])
    ∧ (fun (dt : Nat) (l : List (Nat × Nat)) (n v : Nat) (s : State) => (n < 408) ∧ (Sparse.find l n = some v) ∧ (v < 4096) ∧ ((s.pass dt).get (THM_SENSOR.state.ix n) ≠ 2) ∧ ((s.pass dt).get (PWR_DOM_STATE.state.ix (sensorDomain n)) = 2) ∧ ((quarter v < -160 ∨ 600 < quarter v)))
      (0) ([(407, 601)]) (407) (601) (mk [(PWR_DOM_STATE.state.ix 391, 2)])
    ∧ (fun (dt : Nat) (l : List (Nat × Nat)) (n : Nat) (s : State) => (n < 408) ∧ ((s.pass dt).get (THM_SENSOR.state.ix n) = 2))
      (0) ([(0, 12)]) (0) (mk [(THM_SENSOR.state.ix 0, 2)])
    ∧ (fun (dt : Nat) (h a : Nat) (s : State) => (Sparse.find (s.pass dt).thm.skewFrom h = some a) ∧ (a + 16000000 < (s.pass dt).ticks) ∧ ((s.pass dt).thm.skewed.contains h = false))
      (16000001) (127) (0) ({ State.reset with thm := { skewFrom := [(127, 0)] } })
    ∧ (fun (dt : Nat) (h : Nat) (s : State) => (h < 128) ∧ ((s.pass dt).sensorIn (2 * h) = true) ∧ ((s.pass dt).sensorIn (2 * h + 1) = true) ∧ ((s.pass dt).sensorIn (256 + h) = true) ∧ (((s.pass dt).readingOf (2 * h) - (s.pass dt).readingOf (2 * h + 1)).natAbs ≤ 8))
      (0) (127) (mk [(THM_SENSOR.reading.ix 254, 200), (THM_SENSOR.reading.ix 255, 4090), (THM_SENSOR.reading.ix 383, 4000), (THM_SENSOR.reading.ix 255, 208)]) := by
  refine ⟨?_, ?_, ?_, ?_, ?_⟩ <;> decide +kernel

theorem witness_CoolantAndHeat :
    (fun (dt : Nat) (v : Nat) (s : State) => (crc8 (v / 256) = v % 256) ∧ (bits v 14 2 ≠ 3))
      (0) (0x07800000 * 256 + crc8 0x07800000) (mk [(THM_COOL.lost, 1)])
    ∧ (fun (dt : Nat) (v : Nat) (s : State) => ((crc8 (v / 256) ≠ v % 256 ∨ bits v 14 2 = 3)))
      (0) (0xC0 * 256 + crc8 0xC0) (State.reset)
    ∧ (fun (dt : Nat) (v : Nat) (s : State) => (crc8 (v / 256) = v % 256) ∧ (bits v 14 2 = 2) ∧ ((s.pass dt).thm.stopped = false))
      (0) (0x07800080 * 256 + crc8 0x07800080) (State.reset)
    ∧ (fun (dt : Nat) (s : State) => ((s.pass dt).thm.frameTick + 1600000 ≤ (s.pass dt).ticks) ∧ ((s.pass dt).flag THM_COOL.lost = false))
      (1600000) (State.reset)
    ∧ (fun (dt : Nat) (s : State) => ((s.pass dt).thm.throttled = false) ∧ ((s.pass dt).get THM_STATUS.state < 2))
      (0) (State.reset)
    ∧ (fun (dt : Nat) (s : State) => ((s.pass dt).thm.throttled = true))
      (0) ({ State.reset with thm := { throttled := true } })
    ∧ (fun (dt : Nat) (a : Nat) (s : State) => ((s.pass dt).thm.hotFrom = some a) ∧ (a + 1600000 ≤ (s.pass dt).ticks) ∧ ((s.pass dt).k = 48) ∧ ((s.pass dt).get THM_STATUS.state < 2))
      (1600000) (0) ({ mk [(HEAD_TURN_CONFIG.step, 48)] with thm := { hotFrom := some 0 } }) := by
  refine ⟨?_, ?_, ?_, ?_, ?_, ?_, ?_⟩ <;> decide +kernel

theorem witness_HoldState :
    (fun (dt : Nat) (s : State) => ((s.pass dt).get THM_STATUS.state = 2) ∧ ((s.pass dt).net.fly = []) ∧ ((s.pass dt).net.hops = []) ∧ ((s.pass dt).net.bufs = []) ∧ ((s.pass dt).tooHot = false) ∧ ((s.pass dt).thm.cause ≠ 5) ∧ ((s.pass dt).thm.cause < 16))
      (0) ({ mk [(THM_STATUS.state, 2)] with thm := { cause := 3 } })
    ∧ (fun (dt : Nat) (a : Nat) (s : State) => ((s.pass dt).thm.clearFrom = some a) ∧ ((s.pass dt).get THM_STATUS.state = 3) ∧ (a + 16000000 ≤ (s.pass dt).ticks) ∧ ((s.pass dt).turning = false) ∧ ((s.pass dt).rep.later = []))
      (16000000) (0) ({ mk [(THM_STATUS.state, 3)] with thm := { clearFrom := some 0, selfRefresh := true } })
    ∧ (fun (dt : Nat) (n : Nat) (s : State) => ((s.pass dt).get THM_STATUS.state = 5) ∧ ((s.pass dt).thm.stageTick + 1600000 ≤ (s.pass dt).ticks) ∧ (n < 408) ∧ ((s.pass dt).sensorIn n = true) ∧ (460 ≤ (s.pass dt).readingOf n))
      (1600000) (407) (mk [(THM_STATUS.state, 5), (THM_SENSOR.reading.ix 407, 460)])
    ∧ (fun (dt : Nat) (s : State) => ((s.pass dt).get THM_STATUS.state ≠ 5))
      (0) (State.reset)
    ∧ (fun (dt : Nat) (spots : List HourPart) (d a b key : Nat) (s : State) => ((s.pass dt).turning = true) ∧ ((s.pass dt).get THM_CTRL.rotate_hours ≠ 0) ∧ ((s.pass dt).thm.rotCoach < 64) ∧ ((s.pass dt).rep.jobs = []) ∧ ((s.pass dt).rep.advance = none) ∧ ((s.pass dt).get THM_STATUS.state < 2) ∧ ((s.pass dt).rotateFrom spots (s.pass dt).thm.rotCoach = some (d, a, b)) ∧ ((s.pass dt).logicalOf a = some key))
      (0) ([]) (0) (0) (143 - 1) (0) ({ runMk (img0 []) [(TILE_STATE.state.tile 142, 1), (THM_CTRL.rotate_hours, 4)] with thm := { rotCoach := 0 } })
    ∧ (fun (dt : Nat) (spots : List HourPart) (s : State) => ((s.pass dt).turning = true) ∧ ((s.pass dt).get THM_CTRL.rotate_hours ≠ 0) ∧ ((s.pass dt).thm.rotCoach < 64) ∧ ((s.pass dt).rep.jobs = []) ∧ ((s.pass dt).rep.advance = none) ∧ ((s.pass dt).get THM_STATUS.state < 2) ∧ ((s.pass dt).rotateFrom spots (s.pass dt).thm.rotCoach = none))
      (0) ([⟨127, 1, 4500⟩]) ({ runMk (img0 []) [] with thm := { rotCoach := 63 } }) := by
  refine ⟨?_, ?_, ?_, ?_, ?_, ?_⟩ <;> decide +kernel

theorem witness_StartUpSteps :
    (fun (dt : Nat) (strap : Nat) (s : State) => ((s.pass dt).boot.pwrgood = false) ∧ ((s.pass dt).boot.fell = none))
      (0) (15) (State.reset)
    ∧ (fun (dt : Nat) (e : StartEnv) (s : State) => ((s.pass dt).get HEAD_BOOT_STATUS.step = 2) ∧ ((s.pass dt).get HEAD_BOOT_STATUS.halt = 0) ∧ ((s.pass dt).get SBX_STATUS.mode = 0) ∧ ((s.pass dt).bootSlot = none))
      (0) (⟨[], [], []⟩) (mk [(HEAD_BOOT_STATUS.step, 2)])
    ∧ (fun (dt : Nat) (e : StartEnv) (g : Nat) (s : State) => ((s.pass dt).get HEAD_BOOT_STATUS.step = 3) ∧ ((s.pass dt).get HEAD_BOOT_STATUS.halt = 0) ∧ ((s.pass dt).sbx.notBootable = []) ∧ (g < 4))
      (0) (⟨[], [], []⟩) (3) (mk [(HEAD_BOOT_STATUS.step, 3)])
    ∧ (fun (dt : Nat) (e : StartEnv) (s : State) => ((s.pass dt).get HEAD_BOOT_STATUS.step = 7) ∧ ((s.pass dt).get HEAD_BOOT_STATUS.halt = 0) ∧ (((List.range 24).all fun (b : Nat) => (s.pass dt).get (CPL_STATUS.state.cpl b) != 1) = true))
      (0) (⟨[], [], []⟩) ({ mk [(HEAD_BOOT_STATUS.step, 7), (CPL_STATUS.state.cpl 3, 2)] with rep := { isolated := [9] } })
    ∧ (fun (dt : Nat) (e : StartEnv) (s : State) => (((s.pass dt).get HEAD_BOOT_STATUS.step = 3 ∨ (s.pass dt).get HEAD_BOOT_STATUS.step = 4 ∨ (s.pass dt).get HEAD_BOOT_STATUS.step = 5)) ∧ ((s.pass dt).get HEAD_BOOT_STATUS.halt = 0) ∧ ((s.pass dt).boot.stepTick + (s.pass dt).stepLimit ((s.pass dt).get HEAD_BOOT_STATUS.step) ≤ (s.pass dt).ticks))
      (16000000) (⟨[], [], []⟩) (mk [(HEAD_BOOT_STATUS.step, 3)])
    ∧ (fun (dt : Nat) (e : StartEnv) (s : State) => ((s.pass dt).get HEAD_BOOT_STATUS.step = 2) ∧ ((s.pass dt).get HEAD_BOOT_STATUS.halt = 0) ∧ (128000000 + (s.pass dt).boot.stepTick ≤ (s.pass dt).ticks))
      (128000000) (⟨[], [], []⟩) (mk [(HEAD_BOOT_STATUS.step, 2)]) := by
  refine ⟨?_, ?_, ?_, ?_, ?_, ?_⟩ <;> decide +kernel

theorem witness_Resets :
    (fun (dt : Nat) (n : Nat) (s : State) => ((s.pass dt).boot.pwrgood = true) ∧ (n < 103))
      (0) (102) ({ mk [(PWR_DOM_STATE.state.dom 422, 2)] with boot := { pwrgood := true }, rep := { isolated := List.range 64 } })
    ∧ (fun (dt : Nat) (a : Nat) (s : State) => ((s.pass dt).boot.fell = some a) ∧ (a + 8000 ≤ (s.pass dt).ticks) ∧ ((s.pass dt).boot.pwrgood = false))
      (8000) (0) ({ mk [(SBX_STATUS.reports, 5), (SBX_POLICY.allow_debug, 0)] with boot := { fell := some 0 }, mem := Memory.setBytes (Memory.setBytes [] 9 [1]) (flashKey 0) [2] })
    ∧ (fun (dt : Nat) (s : State) => ((s.pass dt).boot.pwrgood = true) ∧ ((s.pass dt).boot.fell = none) ∧ ((s.pass dt).running = false))
      (0) ({ mk [(SBX_STATUS.reports, 5), (HEAD_WEIGHTS_VALID.valid, 1)] with boot := { pwrgood := true }, mem := Memory.setBytes [] (towerBase 0) [1] })
    ∧ (fun (dt : Nat) (cmd : Nat) (s : State) => ((s.pass dt).cmdRuns 0x130 [1, 2] = true) ∧ ((s.pass dt).running = false))
      (0) (7) (openMk [])
    ∧ (fun (dt : Nat) (c n : Nat) (s : State) => ((s.pass dt).boot.coachReset = some c) ∧ (c < 64) ∧ (n / 144 = c) ∧ ((s.pass dt).rep.jobs = []))
      (0) (63) (9215) ({ mk [(TILE_STATE.state.tile 9215, 2), (HEAD_COACH_RESET.busy, 1)] with boot := { coachReset := some 63 } }) := by
  refine ⟨?_, ?_, ?_, ?_, ?_⟩ <;> decide +kernel

theorem witness_TestAccessPort :
    (fun (dt : Nat) (pins cells : List Bool) (s : State) => ((s.pass dt).boot.pwrgood = true) ∧ ((s.pass dt).flag SBX_POLICY.debug = true) ∧ ((s.pass dt).get HEAD_IMAGE_STATUS.state = 0))
      (0) ([true]) ([false, true]) ({ mk [(SBX_POLICY.debug, 1)] with boot := { pwrgood := true } })
    ∧ (fun (dt : Nat) (pins cells : List Bool) (s : State) => ((s.pass dt).boot.pwrgood = true) ∧ (((s.pass dt).flag SBX_POLICY.debug = false ∨ (s.pass dt).get HEAD_IMAGE_STATUS.state ≠ 0)))
      (0) ([true]) ([false, true]) ({ mk [] with boot := { pwrgood := true } })
    ∧ (fun (dt : Nat) (pins cells : List Bool) (s : State) => ((s.pass dt).boot.pwrgood = true))
      (0) ([true]) ([false, true]) ({ mk [] with boot := { pwrgood := true } })
    ∧ (fun (dt : Nat) (s : State) => ((s.pass dt).boot.pwrgood = true))
      (0) ({ mk [] with boot := { pwrgood := true } })
    ∧ (fun (dt : Nat) (v : Nat) (s : State) => ((s.pass dt).boot.pwrgood = true))
      (0) (0) ({ mk [] with boot := { pwrgood := true } })
    ∧ (fun (dt : Nat) (s : State) => ((s.pass dt).boot.pwrgood = true))
      (0) ({ mk [] with boot := { pwrgood := true } })
    ∧ (fun (dt : Nat) (s : State) => ((s.pass dt).boot.extestEnded = true) ∧ ((s.pass dt).extest = false))
      (0) ({ mk [] with boot := { extestEnded := true } })
    ∧ (fun (dt : Nat) (code : Nat) (s : State) => ((s.pass dt).boot.pwrgood = true) ∧ (0x20 ≤ code) ∧ (code ≤ 0xFE) ∧ ((s.pass dt).flag SBX_POLICY.debug = false))
      (0) (0xFE) ({ mk [] with boot := { pwrgood := true } })
    ∧ (fun (dt : Nat) (code : Nat) (s : State) => ((s.pass dt).boot.pwrgood = true) ∧ (0x20 ≤ code) ∧ (code ≤ 0xFE) ∧ ((s.pass dt).flag SBX_POLICY.debug = true))
      (0) (0xFE) ({ mk [(SBX_POLICY.debug, 1)] with boot := { pwrgood := true } })
    ∧ (fun (dt : Nat) (n : Nat) (s : State) => (((s.pass dt).boot.atbDue.any fun (x : Nat × Nat) => x.1 == n && decide (x.2 ≤ (s.pass dt).ticks)) = true) ∧ (n < 8) ∧ (atbDiode n ((s.pass dt).atbSel n).1 ((s.pass dt).atbSel n).2 = none))
      (160) (7) ({ mk [(HEAD_ATB_SEL_n.node.pin 7, 1)] with boot := { atbDue := [(7, 160)] } })
    ∧ (fun (dt : Nat) (n d : Nat) (s : State) => (((s.pass dt).boot.atbDue.any fun (x : Nat × Nat) => x.1 == n && decide (x.2 ≤ (s.pass dt).ticks)) = true) ∧ (n < 8) ∧ (atbDiode n ((s.pass dt).atbSel n).1 ((s.pass dt).atbSel n).2 = some d))
      (160) (7) (4 * 32 + 3) ({ mk [(HEAD_ATB_SEL_n.node.pin 7, 9), (HEAD_ATB_SEL_n.bus.pin 7, 0)] with boot := { atbDue := [(7, 160)] } })
    ∧ (fun (dt : Nat) (d a : Nat) (s : State) => ((s.pass dt).boot.diodeDue = [(d, a)]) ∧ (a ≤ (s.pass dt).ticks) ∧ ((s.pass dt).diodeForced d = false))
      (160000) (131) (160000) ({ mk [] with boot := { diodeDue := [(131, 160000)] }, thm := { atb := [131, 5] } }) := by
  refine ⟨?_, ?_, ?_, ?_, ?_, ?_, ?_, ?_, ?_, ?_, ?_, ?_⟩ <;> decide +kernel

theorem witness_ImageAndMaintenance :
    (fun (dt : Nat) (cmd c : Nat) (i : Image) (s : State) => ((s.pass dt).cmdRuns 0x20 [1, 2] = true) ∧ ((s.pass dt).img.image = some i) ∧ ((s.pass dt).get HEAD_IMAGE_STATUS.state = 2) ∧ ((s.pass dt).flag HEAD_AXLE_STATUS.loaded = true) ∧ (c % 8 = 0) ∧ ((s.pass dt).count + 160000 ≤ c) ∧ (c ≤ (s.pass dt).count + 1600000000) ∧ ((s.pass dt).peerWrong i = false))
      (0) (7) (160000) (img0 []) ({ openMk [(HEAD_IMAGE_STATUS.state, 2), (HEAD_AXLE_STATUS.loaded, 1)] with img := { image := some (img0 []) } })
    ∧ (fun (dt : Nat) (cmd c : Nat) (s : State) => ((s.pass dt).cmdRuns 0x20 [1, 2] = true) ∧ ((s.pass dt).img.image = none))
      (0) (7) (160000) (openMk [])
    ∧ (fun (dt : Nat) (cmd a : Nat) (s : State) => ((s.pass dt).cmdRuns 0x21 [1, 2] = true) ∧ ((s.pass dt).running = true) ∧ ((s.pass dt).turn.startAt = some a))
      (0) (7) (160000) ({ openMk [(HEAD_IMAGE_STATUS.state, 3)] with img := { image := some (img0 []) }, turn := { startAt := some 160000 } })
    ∧ (fun (dt : Nat) (cmd : Nat) (s : State) => ((s.pass dt).cmdRuns 0x21 [1, 2] = true) ∧ ((s.pass dt).running = true) ∧ ((s.pass dt).turn.startAt = none))
      (0) (7) (openMk [(HEAD_IMAGE_STATUS.state, 3)])
    ∧ (fun (dt : Nat) (cmd : Nat) (s : State) => ((s.pass dt).cmdRuns 0x30 [1, 2] = true))
      (0) (7) ({ openMk [] with port := { secret := [3] } })
    ∧ (fun (dt : Nat) (cmd c : Nat) (s : State) => ((s.pass dt).cmdRuns 0x120 [1, 2] = true) ∧ (c < 64) ∧ ((s.pass dt).running = false) ∧ ((s.pass dt).rep.isolated.contains c = false) ∧ ((s.pass dt).rep.rebuilds = []))
      (0) (7) (63) (openMk [])
    ∧ (fun (dt : Nat) (cmd k : Nat) (s : State) => ((s.pass dt).cmdRuns 0x121 [1] = true) ∧ (k < 24) ∧ ((s.pass dt).running = false))
      (0) (7) (23) (openMk [])
    ∧ (fun (dt : Nat) (cmd : Nat) (s : State) => ((s.pass dt).cmdRuns 0x122 [2] = true) ∧ ((s.pass dt).running = false))
      (0) (7) ({ mk [(CTL_PORT_STATUS.link, 2), (CTL_PORT_STATUS.role, 2), (HEAD_BOOT_STATUS.step, 10)] with rep := { defects := [defectWord 2 3 0 0, 5] } }) := by
  refine ⟨?_, ?_, ?_, ?_, ?_, ?_, ?_, ?_⟩ <;> decide +kernel

theorem witness_LoadCommands :
    (fun (dt : Nat) (cmd : Nat) (b : Bool) (i : Image) (s : State) => ((s.pass dt).cmdRuns 0x100 [1] = true) ∧ ((s.pass dt).get HEAD_IMAGE_STATUS.state ≠ 1) ∧ ((s.pass dt).get HEAD_IMAGE_STATUS.state ≠ 3))
      (0) (7) (false) (img0 []) ({ openMk [(HEAD_IMAGE_STATUS.state, 2)] with img := { image := some (img0 []) } })
    ∧ (fun (dt : Nat) (cmd : Nat) (i : Image) (s : State) => ((s.pass dt).cmdRuns 0x101 [1] = true) ∧ ((s.pass dt).img.image.isSome = true) ∧ ((s.pass dt).flag HEAD_SERVE_CONFIG.halves = true) ∧ ((s.pass dt).get (halfState (s.pass dt).otherHalf) ≠ 3))
      (0) (7) (img0 []) ({ openMk [(HEAD_IMAGE_STATUS.state, 2), (HEAD_SERVE_CONFIG.halves, 1)] with img := { image := some (img0 []) } })
    ∧ (fun (dt : Nat) (cmd a : Nat) (ws : List Nat) (s : State) => ((s.pass dt).cmdRuns 0x103 [1] = true) ∧ ((s.pass dt).img.image.isSome = true) ∧ (a < (s.pass dt).get HEAD_SERVE_CONFIG.adapter_slots) ∧ ((s.pass dt).get (copyState a ((s.pass dt).targetCopy a)) ≠ 3))
      (0) (7) (3) ([1, 2]) ({ openMk [(HEAD_SERVE_CONFIG.adapter_slots, 4)] with img := { image := some (img0 []) } })
    ∧ (fun (dt : Nat) (cmd : Nat) (i : Image) (s : State) => ((s.pass dt).cmdRuns 0x104 [1] = true))
      (0) (7) (img0 []) (openMk [])
    ∧ (fun (dt : Nat) (cmd n : Nat) (s : State) => ((s.pass dt).cmdRuns 0x102 [1] = true) ∧ ((s.pass dt).running = true) ∧ ((s.pass dt).img.staged.isSome = true))
      (0) (7) (9) ({ openMk [(HEAD_IMAGE_STATUS.state, 3)] with img := { staged := some (img0 []) } })
    ∧ (fun (dt : Nat) (i : Image) (c : LongCmd) (s : State) => ((s.pass dt).img.staged = some i) ∧ ((s.pass dt).serv.reloading = true) ∧ ((s.pass dt).serv.drain = none) ∧ ((s.pass dt).port.long = some c) ∧ (c.opcode = 0x102))
      (0) (img0 []) (⟨0x102, 7, 0, 0, 0, 0, false, [9], false⟩) ({ openMk [(HEAD_IMAGE_STATUS.state, 1)] with img := { staged := some (img0 []) }, serv := { reloading := true }, port := { long := some ⟨0x102, 7, 0, 0, 0, 0, false, [9], false⟩ } }) := by
  refine ⟨?_, ?_, ?_, ?_, ?_, ?_⟩ <;> decide +kernel

theorem witness_LongCommandData :
    (fun (dt : Nat) (p : List Byte) (c : LongCmd) (i : Image) (s : State) => ((s.pass dt).port.long = some c) ∧ (c.opcode = 0x104) ∧ ((s.pass dt).img.load = some i) ∧ ((s.pass dt).port.chans.length = 6) ∧ (((s.pass dt).chan 5).rx = [p]) ∧ (16 ≤ p.length) ∧ (leNat (p.take 4) = c.cmdId) ∧ (leNat ((p.drop 8).take 8) = c.got) ∧ (c.bulk = true) ∧ (c.got + (p.length - 16) < c.want))
      (0) ((leBytes 4 7 ++ leBytes 4 0 ++ leBytes 8 0 ++ [1, 2, 3])) (⟨0x104, 7, 0, 0, 0, 4, true, [], false⟩) (img0 []) ({ openMk [] with img := { load := some (img0 []) }, port := { long := some ⟨0x104, 7, 0, 0, 0, 4, true, [], false⟩, chans := (List.replicate 5 ({} : Chan)) ++ [({ rx := [(leBytes 4 7 ++ leBytes 4 0 ++ leBytes 8 0 ++ [1, 2, 3])] } : Chan)] } })
    ∧ (fun (dt : Nat) (p : List Byte) (c : LongCmd) (i : Image) (s : State) => ((s.pass dt).port.long = some c) ∧ (c.opcode = 0x104) ∧ ((s.pass dt).img.load = some i) ∧ ((s.pass dt).port.chans.length = 6) ∧ (((s.pass dt).chan 5).rx = [p]) ∧ (16 ≤ p.length) ∧ (leNat (p.take 4) = c.cmdId) ∧ (leNat ((p.drop 8).take 8) = c.got) ∧ (c.bulk = true) ∧ (c.want ≤ c.got + (p.length - 16)))
      (0) ((leBytes 4 7 ++ leBytes 4 0 ++ leBytes 8 0 ++ [1, 2, 3])) (⟨0x104, 7, 0, 0, 0, 3, true, [], false⟩) (img0 []) ({ openMk [] with img := { load := some (img0 []) }, port := { long := some ⟨0x104, 7, 0, 0, 0, 3, true, [], false⟩, chans := (List.replicate 5 ({} : Chan)) ++ [({ rx := [(leBytes 4 7 ++ leBytes 4 0 ++ leBytes 8 0 ++ [1, 2, 3])] } : Chan)] } })
    ∧ (fun (dt : Nat) (c : LongCmd) (s : State) => ((s.pass dt).port.raw = none) ∧ ((s.pass dt).port.long = some c) ∧ (c.opcode = 0x104) ∧ (c.start + 96000000000 ≤ (s.pass dt).ticks))
      (96000000000) (⟨0x104, 7, 0, 0, 0, 3, true, [], false⟩) ({ openMk [] with port := { long := some ⟨0x104, 7, 0, 0, 0, 3, true, [], false⟩ } })
    ∧ (fun (dt : Nat) (c : LongCmd) (s : State) => ((s.pass dt).port.long = some c) ∧ (c.opcode = 0x104) ∧ (c.bulk = true) ∧ (c.lastBulk + 320000000 ≤ (s.pass dt).ticks))
      (320000000) (⟨0x104, 7, 0, 0, 0, 3, true, [], false⟩) ({ openMk [] with port := { long := some ⟨0x104, 7, 0, 0, 0, 3, true, [], false⟩ } }) := by
  refine ⟨?_, ?_, ?_, ?_⟩ <;> decide +kernel

theorem witness_StrongboxCommands :
    (fun (dt : Nat) (cmd : Nat) (nonce : List Byte) (s : State) => ((s.pass dt).cmdRuns 0x110 [1, 2] = true) ∧ (nonce.length = 32))
      (0) (7) (List.replicate 32 1) (openMk [(SBX_STATUS.reports, 2 ^ 32 - 1)])
    ∧ (fun (dt : Nat) (cmd n : Nat) (s : State) => ((s.pass dt).cmdRuns 0x111 [1, 2] = true) ∧ ((n = 1 ∨ n = 2)) ∧ ((s.pass dt).port.shake = none) ∧ ((s.pass dt).running = false))
      (0) (7) (2) (openMk [(HEAD_IMAGE_STATUS.state, 2)])
    ∧ (fun (dt : Nat) (c : LongCmd) (s : State) => ((s.pass dt).port.long = some c) ∧ (c.opcode = 0x111) ∧ (c.args = [1]) ∧ ((s.pass dt).sbx.failing = none) ∧ ((s.pass dt).get CTL_PORT_STATUS.link = 2))
      (0) (⟨0x111, 7, 0, 0, 0, 0, false, [1], false⟩) ({ openMk [(SBX_STATUS.mode, 3), (HEAD_WEIGHTS_VALID.valid, 5)] with mem := Memory.setBytes [] (towerBase 0) [1], sbx := { keys := [(0, [1])] }, port := { long := some ⟨0x111, 7, 0, 0, 0, 0, false, [1], false⟩ } })
    ∧ (fun (dt : Nat) (c : LongCmd) (s : State) => ((s.pass dt).port.long = some c) ∧ (c.opcode = 0x111) ∧ (c.args = [2]) ∧ ((s.pass dt).sbx.failing = none))
      (0) (⟨0x111, 7, 0, 0, 0, 0, false, [2], false⟩) ({ openMk [(SBX_STATUS.mode, 3), (SBX_POLICY.debug, 1)] with sbx := { keys := [(0, [1])] }, port := { long := some ⟨0x111, 7, 0, 0, 0, 0, false, [2], false⟩ } })
    ∧ (fun (dt : Nat) (cmd v : Nat) (s : State) => ((s.pass dt).cmdRuns 2 [1, 2] = true) ∧ ((s.pass dt).role = 2) ∧ (v.testBit 0 = (s.pass dt).flag SBX_POLICY.allow_service) ∧ (v.testBit 1 = (s.pass dt).flag SBX_POLICY.allow_debug) ∧ ((s.pass dt).flag SBX_POLICY.allow_debug = true) ∧ ((s.pass dt).get HEAD_IMAGE_STATUS.state = 0) ∧ (v.testBit 2 = true))
      (0) (7) (15) (mk [(CTL_PORT_STATUS.link, 2), (CTL_PORT_STATUS.role, 2), (HEAD_BOOT_STATUS.step, 10), (SBX_POLICY.allow_service, 1), (SBX_POLICY.allow_debug, 1)])
    ∧ (fun (dt : Nat) (cmd : Nat) (s : State) => ((s.pass dt).cmdRuns 2 [1, 2] = true) ∧ ((s.pass dt).role = 1) ∧ ((s.pass dt).flag SBX_POLICY.allow_debug = true) ∧ ((s.pass dt).flag HEAD_IMAGE_STATUS.debug = false))
      (0) (7) (openMk [(SBX_POLICY.allow_debug, 1), (SBX_POLICY.debug, 1)])
    ∧ (fun (dt : Nat) (cmd : Nat) (s : State) => ((s.pass dt).cmdRuns 2 [1, 2] = true) ∧ ((s.pass dt).role = 1))
      (0) (7) (openMk [(SBX_POLICY.allow_service, 1), (SBX_POLICY.allow_debug, 1)])
    ∧ (fun (dt : Nat) (cmd n : Nat) (s : State) => ((s.pass dt).cmdRuns 2 [1, 2] = true) ∧ ((s.pass dt).role = 1) ∧ (n < 8))
      (0) (7) (7) (openMk [])
    ∧ (fun (dt : Nat) (cmd n : Nat) (s : State) => ((s.pass dt).cmdRuns 2 [1, 2] = true) ∧ ((s.pass dt).role = 1) ∧ (n < 8) ∧ (Sparse.sorted (s.pass dt).sbx.keys = true))
      (0) (7) (3) ({ openMk [] with sbx := { keys := [(0, [1]), (3, [2])] } })
    ∧ (fun (dt : Nat) (code : Nat) (s : State) => ((code = 3 ∨ code = 4)) ∧ ((s.pass dt).get SBX_STATUS.mode ≠ 3) ∧ ((s.pass dt).port.shake = none))
      (0) (4) (openMk [])
    ∧ (fun (dt : Nat) (code : Nat) (s : State) => ((code = 3 ∨ code = 4)) ∧ ((s.pass dt).get SBX_STATUS.mode = 3))
      (0) (3) (openMk [(SBX_STATUS.mode, 3)]) := by
  refine ⟨?_, ?_, ?_, ?_, ?_, ?_, ?_, ?_, ?_, ?_, ?_⟩ <;> decide +kernel

theorem witness_PortFrames :
    (fun (dt : Nat) (f : Frame) (fixed bad : Nat) (s : State) => ((s.pass dt).get CTL_PORT_STATUS.link = 2) ∧ (frameBad f = false) ∧ (f.kind = 0) ∧ ((f.chan = 0 ∨ f.chan = 1 ∨ f.chan = 5)) ∧ ((s.pass dt).port.chans.length = 6) ∧ (f.seq = ((s.pass dt).chan f.chan).rxNext) ∧ (((s.pass dt).chan f.chan).rx.length < rxFrames f.chan))
      (0) (⟨5, 1, 0, 0, 0, 0, 1, 0, 0, 0, [1], List.replicate 16 0⟩) (3) (1) (openMk [])
    ∧ (fun (dt : Nat) (f : Frame) (fixed bad : Nat) (s : State) => ((s.pass dt).get CTL_PORT_STATUS.link = 2) ∧ (frameBad f = false) ∧ (f.kind = 1) ∧ (f.chan < 6) ∧ ((s.pass dt).port.chans.length = 6))
      (0) (⟨5, 1, 1, 0, 0, 0, 0, 0, 0, 9, [], List.replicate 16 0⟩) (3) (1) (openMk [])
    ∧ (fun (dt : Nat) (f : Frame) (fixed bad : Nat) (n : List Byte) (s : State) => (1 ≤ (s.pass dt).get CTL_PORT_STATUS.link) ∧ (frameBad f = false) ∧ (f.kind = 2) ∧ (f.chan = 0) ∧ (f.trailer = leBytes 4 (crc32c (frameHeader f ++ f.payload))) ∧ (n.length = 32) ∧ (f.payload = [1, 1, 0, 0] ++ n) ∧ ((s.pass dt).get SBX_STATUS.mode ≠ 2))
      (0) (⟨0, 1, 2, 0, 0, 0, 36, 0, 0, 0, ([1, 1, 0, 0] ++ List.replicate 32 7), leBytes 4 (crc32c (frameHeader ⟨0, 1, 2, 0, 0, 0, 36, 0, 0, 0, ([1, 1, 0, 0] ++ List.replicate 32 7), []⟩ ++ ([1, 1, 0, 0] ++ List.replicate 32 7)))⟩) (3) (1) (List.replicate 32 7) (openMk [])
    ∧ (fun (dt : Nat) (c : Nat) (s : State) => ((s.pass dt).get CTL_PORT_STATUS.link = 2) ∧ (c < 6) ∧ ((s.pass dt).port.chans.length = 6) ∧ (((s.pass dt).chan c).unacked ≠ []) ∧ (((s.pass dt).chan c).ackTick + 8000 ≤ (s.pass dt).ticks))
      (8000) (5) ({ openMk [] with port := { chans := List.replicate 5 ({} : Chan) ++ [({ unacked := [⟨5, 1, 1, 0, 0, 0, 0, 0, 0, 9, [], []⟩] } : Chan)] } })
    ∧ (fun (dt : Nat) (l : Nat) (s : State) => (l < 16))
      (0) (15) (openMk [])
    ∧ (fun (dt : Nat) (s : State) => ((s.pass dt).get CTL_PORT_STATUS.link = 0) ∧ (7 ≤ (s.pass dt).get HEAD_BOOT_STATUS.step))
      (0) (mk [(HEAD_BOOT_STATUS.step, 7)])
    ∧ (fun (dt : Nat) (x : Chan) (l : List Chan) (s : State) => ((s.pass dt).get CTL_PORT_STATUS.link = 2) ∧ ((s.pass dt).port.chans = x :: l) ∧ (2147483648 ≤ dist32 x.txMark x.txNext) ∧ (((x :: l).all fun (y : Chan) => y.unacked.all fun (f : Frame) => f.keyPhase == (s.pass dt).port.txPhase % 2) = true))
      (0) ({ txNext := 2147483648, told := some 4294967295, granted := 3 }) ([{ told := some 4294967295, granted := 15 }, { told := some 4294967295, granted := 63 }, { told := some 4294967295, granted := 4294967295 }, { told := some 4294967295, granted := 4294967295 }, { told := some 4294967295, granted := 63 }]) ({ openMk [] with port := { chans := ({ txNext := 2147483648, told := some 4294967295, granted := 3 } : Chan) :: [{ told := some 4294967295, granted := 15 }, { told := some 4294967295, granted := 63 }, { told := some 4294967295, granted := 4294967295 }, { told := some 4294967295, granted := 4294967295 }, { told := some 4294967295, granted := 63 }] } }) := by
  refine ⟨?_, ?_, ?_, ?_, ?_, ?_, ?_⟩ <;> decide +kernel

theorem witness_Handshakes :
    (fun (dt : Nat) (n : List Byte) (s : State) => (1 ≤ (s.pass dt).get CTL_PORT_STATUS.link) ∧ (n.length = 32) ∧ ((s.pass dt).get SBX_STATUS.mode ≠ 2))
      (0) (List.replicate 32 7) (openMk [])
    ∧ (fun (dt : Nat) (n : List Byte) (s : State) => (1 ≤ (s.pass dt).get CTL_PORT_STATUS.link) ∧ (n.length = 32) ∧ ((s.pass dt).get SBX_STATUS.mode = 2) ∧ ((s.pass dt).port.shake = none))
      (0) (List.replicate 32 7) (openMk [(SBX_STATUS.mode, 2)])
    ∧ (fun (dt : Nat) (h : Shake) (m : List Byte) (s : State) => ((s.pass dt).port.shake = some h) ∧ (1 ≤ (s.pass dt).get CTL_PORT_STATUS.link) ∧ (m.length = 4824) ∧ (m.take 4 = [3, 0, 0, 0]) ∧ ((s.pass dt).get SBX_STATUS.mode ≠ 2) ∧ (h.role = 2) ∧ ((s.pass dt).flag SBX_POLICY.allow_service = false))
      (0) (⟨[], [], 2, 0, 0, 0⟩) (([3, 0, 0, 0] ++ List.replicate 4820 0)) ({ mk [(CTL_PORT_STATUS.link, 1), (SBX_POLICY.allow_service, 0)] with port := { shake := some ⟨[], [], 2, 0, 0, 0⟩ } })
    ∧ (fun (dt : Nat) (h : Shake) (m : List Byte) (s : State) => ((s.pass dt).port.shake = some h) ∧ (1 ≤ (s.pass dt).get CTL_PORT_STATUS.link) ∧ (m.length = 4824) ∧ (m.take 4 = [3, 0, 0, 0]) ∧ ((s.pass dt).get SBX_STATUS.mode ≠ 2) ∧ (h.role = 1) ∧ ((s.pass dt).flag SBX_STATUS.claimed = false))
      (0) (⟨[], [], 1, 0, 0, 0⟩) (([3, 0, 0, 0] ++ List.replicate 4820 0)) ({ mk [(CTL_PORT_STATUS.link, 1)] with port := { shake := some ⟨[], [], 1, 0, 0, 0⟩ } })
    ∧ (fun (dt : Nat) (h : Shake) (s : State) => ((s.pass dt).port.shake = some h) ∧ (h.tick + 160000000 ≤ (s.pass dt).ticks))
      (160000000) (⟨[], [], 1, 0, 0, 0⟩) ({ mk [(CTL_PORT_STATUS.link, 1)] with port := { shake := some ⟨[], [], 1, 0, 0, 0⟩ } }) := by
  refine ⟨?_, ?_, ?_, ?_, ?_⟩ <;> decide +kernel

theorem witness_SubmitsAndCancels :
    (fun (dt : Nat) (b : List Byte) (s : State) => ((s.pass dt).leads = true) ∧ ((s.pass dt).reserved < 16384) ∧ (recField b 2 1 ≠ 2) ∧ ((s.pass dt).submitRefusal b = none) ∧ (((s.pass dt).allocBlocks ((recField b 0 2) % 24) (ceilDiv (recField b 16 4) 64)).isSome = true) ∧ (Memory.wf (s.pass dt).mem = true))
      (0) (([0, 0, 1, 0, 5, 0, 0, 0, 0, 0, 0, 0, 255, 255, 0, 0, 1, 0, 0, 0, 9, 0, 0, 0] ++ List.replicate 40 0 ++ [2, 0, 0, 0])) (openMk [(HEAD_RING_CFG.enable.ix 0, 1), (HEAD_TENANT_CFG.enable.ix 0, 1)])
    ∧ (fun (dt : Nat) (b : List Byte) (c : Nat) (s : State) => ((s.pass dt).leads = true) ∧ ((s.pass dt).reserved < 16384) ∧ (recField b 2 1 ≠ 2) ∧ ((s.pass dt).submitRefusal b = some c) ∧ (Memory.wf (s.pass dt).mem = true))
      (0) (([0, 0, 1, 0, 5, 0, 0, 0, 0, 0, 0, 0, 255, 255, 0, 0, 1, 0, 0, 0, 9, 0, 0, 0] ++ List.replicate 40 0 ++ [2, 0, 0, 0])) (2) (openMk [])
    ∧ (fun (dt : Nat) (b : List Byte) (r : Req) (s : State) => ((s.pass dt).leads = true) ∧ (recField b 2 1 = 2) ∧ (badCancel b = false) ∧ ((s.pass dt).serv.reqs = [r]) ∧ (r.ring = (recField b 0 2)) ∧ (((recField b 4 4) = 0xFFFFFFFF ∨ r.tag = (recField b 4 4))) ∧ (r.phase = .queued) ∧ ((s.pass dt).reserved < 16384) ∧ (Memory.wf (s.pass dt).mem = true))
      (0) ([0, 0, 2, 0, 5, 0, 0, 0, 0, 0, 0, 0, 0, 0, 0, 0]) (newReq ([0, 0, 1, 0, 5, 0, 0, 0, 0, 0, 0, 0, 255, 255, 0, 0, 1, 0, 0, 0, 9, 0, 0, 0] ++ List.replicate 40 0 ++ [2, 0, 0, 0]) 3 0 0 0) ({ openMk [] with serv := { reqs := [newReq ([0, 0, 1, 0, 5, 0, 0, 0, 0, 0, 0, 0, 255, 255, 0, 0, 1, 0, 0, 0, 9, 0, 0, 0] ++ List.replicate 40 0 ++ [2, 0, 0, 0]) 3 0 0 0] } })
    ∧ (fun (dt : Nat) (b : List Byte) (s : State) => (recField b 2 1 = 2) ∧ (badCancel b = false) ∧ ((s.pass dt).serv.reqs = []))
      (0) ([0, 0, 2, 0, 5, 0, 0, 0, 0, 0, 0, 0, 0, 0, 0, 0]) (openMk [])
    ∧ (fun (dt : Nat) (b : List Byte) (s : State) => (recField b 2 1 = 2) ∧ (badCancel b = true))
      (0) ([0, 0, 2, 0, 5, 0, 0, 0]) (openMk []) := by
  refine ⟨?_, ?_, ?_, ?_, ?_⟩ <;> decide +kernel

theorem witness_AdmissionAndSampling :
    (fun (dt : Nat) (ring c : Nat) (r : Req) (s : State) => ((s.pass dt).leads = true) ∧ ((s.pass dt).decided = false) ∧ ((s.pass dt).flag HEAD_SERVE_CTRL.admit_enable = true) ∧ ((s.pass dt).running = true) ∧ ((s.pass dt).serv.drain = none) ∧ ((s.pass dt).serv.reloading = false) ∧ ((s.pass dt).serv.eligible = [r.id]) ∧ ((s.pass dt).req? r.id = some r) ∧ (r.ring = ring) ∧ ((s.pass dt).verdict r false = .refuse c) ∧ ((s.pass dt).reserved < 16384) ∧ (Memory.wf (s.pass dt).mem = true))
      (0) (0) (7) ((newReq ([0, 0, 1, 0, 5, 0, 0, 0, 0, 0, 0, 0, 255, 255, 0, 0, 1, 0, 0, 0, 9, 0, 0, 0] ++ List.replicate 40 0 ++ [2, 0, 0, 0]) 3 0 0 0)) ({ runMk (img0 []) [(HEAD_SERVE_CTRL.admit_enable, 1)] with serv := { reqs := [(newReq ([0, 0, 1, 0, 5, 0, 0, 0, 0, 0, 0, 0, 255, 255, 0, 0, 1, 0, 0, 0, 9, 0, 0, 0] ++ List.replicate 40 0 ++ [2, 0, 0, 0]) 3 0 0 0)], eligible := [3] } })
    ∧ (fun (dt : Nat) (ring : Nat) (r : Req) (s : State) => ((s.pass dt).leads = true) ∧ ((s.pass dt).decided = false) ∧ ((s.pass dt).flag HEAD_SERVE_CTRL.admit_enable = true) ∧ ((s.pass dt).running = true) ∧ ((s.pass dt).serv.drain = none) ∧ ((s.pass dt).serv.reloading = false) ∧ ((s.pass dt).serv.eligible = [r.id]) ∧ ((s.pass dt).req? r.id = some r) ∧ (r.ring = ring) ∧ ((s.pass dt).verdict r false = .admits))
      (0) (0) ((newReq ([0, 0, 1, 0, 5, 0, 0, 0, 0, 0, 0, 0, 255, 255, 0, 0, 1, 0, 0, 0, 9, 0, 0, 0] ++ List.replicate 40 0 ++ [2, 0, 0, 0]) 3 0 0 0)) ({ runMk (img0 []) [(HEAD_SERVE_CTRL.admit_enable, 1)] with img := { image := some ({ img0 [] with cmax := 64, vocab := 64 }), place := [(0, 0)] }, serv := { reqs := [(newReq ([0, 0, 1, 0, 5, 0, 0, 0, 0, 0, 0, 0, 255, 255, 0, 0, 1, 0, 0, 0, 9, 0, 0, 0] ++ List.replicate 40 0 ++ [2, 0, 0, 0]) 3 0 0 0)], eligible := [3] } })
    ∧ (fun (dt : Nat) (id : Nat) (r : Req) (s : State) => ((s.pass dt).leads = true) ∧ ((s.pass dt).decided = false) ∧ ((s.pass dt).req? id = some r) ∧ (r.phase = .tail) ∧ (((s.pass dt).serv.tails.find? fun (x : Nat × List Nat × Nat) => x.1 == id) = none))
      (0) (3) ({ (newReq ([0, 0, 1, 0, 5, 0, 0, 0, 0, 0, 0, 0, 255, 255, 0, 0, 1, 0, 0, 0, 9, 0, 0, 0] ++ List.replicate 40 0 ++ [2, 0, 0, 0]) 3 0 0 0) with phase := .tail }) ({ openMk [] with serv := { reqs := [{ (newReq ([0, 0, 1, 0, 5, 0, 0, 0, 0, 0, 0, 0, 255, 255, 0, 0, 1, 0, 0, 0, 9, 0, 0, 0] ++ List.replicate 40 0 ++ [2, 0, 0, 0]) 3 0 0 0) with phase := .tail }] } })
    ∧ (fun (dt : Nat) (N : Nat) (l : List SlotLogits) (tree : Option Tree) (s : State) => ((s.pass dt).inTurn = true) ∧ ((s.pass dt).serv.sampledNow = false) ∧ ((s.pass dt).samples = true) ∧ (∀ r ∈ (s.pass dt).serv.reqs, ∀ l ∈ r.sets, l.length + 2 ≤ N ∧ ∀ k ∈ l, k.p < N) ∧ (Memory.wf (s.pass dt).mem = true))
      (0) (2) ([]) (none) ({ runMk (img0 []) [] with serv := { reqs := [{ (newReq ([0, 0, 1, 0, 5, 0, 0, 0, 0, 0, 0, 0, 255, 255, 0, 0, 1, 0, 0, 0, 9, 0, 0, 0] ++ List.replicate 40 0 ++ [2, 0, 0, 0]) 3 0 0 0) with phase := .slot, live := true }] } })
    ∧ (fun (dt : Nat) (g a : Nat) (k : KvGroup) (due : List (Nat × Nat × Nat)) (s : State) => ((s.pass dt).kvGroups[g]? = some k) ∧ ((((s.pass dt).serv.fetchDue.find? fun (x : Nat × Nat × List (Nat × Nat × Nat)) => x.1 == g && x.2.1 == (s.pass dt).turnNo + a).elim [] fun (x : Nat × Nat × List (Nat × Nat × Nat)) => x.2.2) = due) ∧ ((s.pass dt).boxStopped = false) ∧ ((s.pass dt).inTurn = true) ∧ (1 ≤ a) ∧ (a ≤ 2) ∧ ((s.pass dt).serv.staged.contains (g, carAt (s.pass dt).depth ((s.pass dt).turnNo + a) g, (s.pass dt).turnNo + a) = false) ∧ (Memory.wf (s.pass dt).mem = true))
      (0) (0) (2) (⟨4, 2, 1, 8, 0, [], []⟩) ([]) ({ runMk (img0 []) [] with img := { image := some ({ img0 [] with kv := [⟨4, 2, 1, 8, 0, [], []⟩] }), place := [(0, 0)] } })
    ∧ (fun (dt : Nat) (id g p : Nat) (r : Req) (k : KvSet) (kg : KvGroup) (s : State) => ((s.pass dt).req? id = some r) ∧ (((r.sets.getD g []).find? fun (x : KvSet) => x.p == p && x.state == 3 && !x.written) = some k) ∧ ((s.pass dt).boxStopped = false) ∧ ((s.pass dt).kvGroups[g]? = some kg) ∧ ((s.pass dt).flips = []) ∧ (Memory.wf (s.pass dt).mem = true))
      (0) (3) (0) (7) ({ (newReq ([0, 0, 1, 0, 5, 0, 0, 0, 0, 0, 0, 0, 255, 255, 0, 0, 1, 0, 0, 0, 9, 0, 0, 0] ++ List.replicate 40 0 ++ [2, 0, 0, 0]) 3 0 0 0) with phase := .slot, sets := [[⟨7, 3, 0, 1, none, false⟩]] }) (⟨7, 3, 0, 1, none, false⟩) (⟨4, 2, 1, 8, 0, [], []⟩) ({ runMk (img0 []) [] with img := { image := some ({ img0 [] with kv := [⟨4, 2, 1, 8, 0, [], []⟩] }), place := [(0, 0)] }, serv := { reqs := [{ (newReq ([0, 0, 1, 0, 5, 0, 0, 0, 0, 0, 0, 0, 255, 255, 0, 0, 1, 0, 0, 0, 9, 0, 0, 0] ++ List.replicate 40 0 ++ [2, 0, 0, 0]) 3 0 0 0) with phase := .slot, sets := [[⟨7, 3, 0, 1, none, false⟩]] }], spills := [(3, 0, 7)] } }) := by
  refine ⟨?_, ?_, ?_, ?_, ?_, ?_⟩ <;> decide +kernel

theorem witness_ShadowSamples :
    (fun (dt : Nat) (c m a o : Nat) (x : Sample) (i : Image) (p : Tap) (s : State) => ((s.pass dt).sample? c = some x) ∧ ((s.pass dt).img.image = some i) ∧ (i.taps[x.tap]? = some p) ∧ (x.result = none) ∧ ((s.pass dt).tileOf (p.mLc * 256 + p.mLt) = some m) ∧ ((s.pass dt).tileOf (p.aLc * 256 + p.aLt) = some a) ∧ ((s.pass dt).tileOf (p.oLc * 256 + p.oLt) = some o) ∧ ((s.pass dt).tapReadable ((s.pass dt).fmt p.layer) p m a o = true) ∧ ((s.pass dt).pastOffset x p.writeOff = true) ∧ ((s.pass dt).pastOffset x p.releaseOff = false) ∧ ((s.pass dt).flips = []) ∧ (Memory.wf (s.pass dt).mem = true))
      (0) (5) (0) (0) (0) (⟨5, 0, 0, 0, none⟩) ({ img0 [] with taps := [⟨0, 0, 0, 0, 0, 0, 0, 0, 0, 65536, 0, 0, 3, 9000, 0⟩], formats := [⟨0, 0, 1, 0, 5, 0, 64, 0, 0, 0, 0⟩] }) (⟨0, 0, 0, 0, 0, 0, 0, 0, 0, 65536, 0, 0, 3, 9000, 0⟩) ({ runMk (img0 []) [(TILE_REGION_n.base.tile 0, 0), (TILE_REGION_n.limit.tile 0, 8192), (TILE_REGION_n.remote_read.tile 0, 1), ((TILE_REGION_n.space.tile 0).off 8, 1), ((TILE_REGION_n.limit.tile 0).off 8, 8192), ((TILE_REGION_n.remote_read.tile 0).off 8, 1), (HEAD_AXLE_COUNT.count, 80)] with img := { image := some ({ img0 [] with taps := [⟨0, 0, 0, 0, 0, 0, 0, 0, 0, 65536, 0, 0, 3, 9000, 0⟩], formats := [⟨0, 0, 1, 0, 5, 0, 64, 0, 0, 0, 0⟩] }), place := [(0, 0)] }, serv := { samples := [⟨5, 0, 0, 0, none⟩] } })
    ∧ (fun (dt : Nat) (c : Nat) (x : Sample) (s : State) => ((s.pass dt).sample? c = some x) ∧ (x.result = none))
      (0) (5) (⟨5, 0, 0, 0, none⟩) ({ runMk (img0 []) [] with img := { image := some ({ img0 [] with taps := [⟨0, 0, 0, 0, 0, 0, 0, 0, 0, 65536, 0, 0, 3, 9000, 0⟩], formats := [⟨0, 0, 1, 0, 5, 0, 64, 0, 0, 0, 0⟩] }), place := [(0, 0)] }, serv := { samples := [⟨5, 0, 0, 0, none⟩] } })
    ∧ (fun (dt : Nat) (c : Nat) (x : Sample) (i : Image) (p : Tap) (b : Bool) (s : State) => ((s.pass dt).sample? c = some x) ∧ ((s.pass dt).img.image = some i) ∧ (i.taps[x.tap]? = some p) ∧ ((s.pass dt).sampleVoid x = false) ∧ (x.result = some (false, b)))
      (0) (5) (⟨5, 0, 0, 0, some (false, false)⟩) ({ img0 [] with taps := [⟨0, 0, 0, 0, 0, 0, 0, 0, 0, 65536, 0, 0, 3, 9000, 0⟩], formats := [⟨0, 0, 1, 0, 5, 0, 64, 0, 0, 0, 0⟩] }) (⟨0, 0, 0, 0, 0, 0, 0, 0, 0, 65536, 0, 0, 3, 9000, 0⟩) (false) ({ runMk (img0 []) [] with img := { image := some ({ img0 [] with taps := [⟨0, 0, 0, 0, 0, 0, 0, 0, 0, 65536, 0, 0, 3, 9000, 0⟩], formats := [⟨0, 0, 1, 0, 5, 0, 64, 0, 0, 0, 0⟩] }), place := [(0, 0)] }, serv := { samples := [⟨5, 0, 0, 0, some (false, false)⟩] } })
    ∧ (fun (dt : Nat) (c : Nat) (x : Sample) (i : Image) (p : Tap) (b : Bool) (s : State) => ((s.pass dt).sample? c = some x) ∧ ((s.pass dt).img.image = some i) ∧ (i.taps[x.tap]? = some p) ∧ ((s.pass dt).sampleVoid x = false) ∧ (x.result = some (true, b)) ∧ ((s.pass dt).flag (HEAD_FMT_INFO.changed.ix p.layer) = false) ∧ (x.turn / max 1 ((s.pass dt).fmt p.layer).window = (s.pass dt).turnNo / max 1 ((s.pass dt).fmt p.layer).window) ∧ ((s.pass dt).get (HEAD_FMT_STATUS.window_exceed.ix p.layer) + 1 ≤ ((s.pass dt).fmt p.layer).limit))
      (0) (5) (⟨5, 0, 0, 0, some (true, false)⟩) ({ img0 [] with taps := [⟨0, 0, 0, 0, 0, 0, 0, 0, 0, 65536, 0, 0, 3, 9000, 0⟩], formats := [⟨0, 0, 1, 0, 5, 0, 64, 0, 0, 0, 0⟩] }) (⟨0, 0, 0, 0, 0, 0, 0, 0, 0, 65536, 0, 0, 3, 9000, 0⟩) (false) ({ runMk (img0 []) [] with img := { image := some ({ img0 [] with taps := [⟨0, 0, 0, 0, 0, 0, 0, 0, 0, 65536, 0, 0, 3, 9000, 0⟩], formats := [⟨0, 0, 1, 0, 5, 0, 64, 0, 0, 0, 0⟩] }), place := [(0, 0)] }, serv := { samples := [⟨5, 0, 0, 0, some (true, false)⟩] } }) := by
  refine ⟨?_, ?_, ?_, ?_⟩ <;> decide +kernel

theorem witness_QueueAndTime :
    (fun (c : Instr) (s t : State) => exec c s = .next t) (.globalDisableWrite 0 true) State.reset ((State.reset.elapse 0).setFlag EVT_CTRL.disable true) := by
  rfl

theorem witness_ScratchpadCode :
    (fun (i : Nat) => i < 72) 71
    ∧ (fun (i j : Nat) => i < j ∧ j < 72) 70 71
    ∧ (fun (r : Nat) => r = 8 ∨ r = 9) 9 := by
  refine ⟨?_, ?_, ?_⟩ <;> decide +kernel

end Sys2Proof.Tests
end

section
/-! PROOFS. Management reads and writes (R10, R103, R396, R397, R523): numbers and their bytes, what a store leaves in memory, the
hazards that an access logs, writes in the slots of the open CORE cycle, and the commands that make them. -/

namespace Sys2Proof.Machine

/-! ### Numbers and their bytes -/

@[simp] theorem length_leBytes (n v : Nat) : (leBytes n v).length = n := by
  induction n generalizing v with
  | zero => rfl
  | succ n ih => simp [leBytes, ih]

/-- Bytes are those of the number they hold. -/
theorem leBytes_leNat (bs : List Byte) : leBytes bs.length (leNat bs) = bs := by
  induction bs with
  | nil => rfl
  | cons b bs ih =>
    have hlow : BitVec.ofNat 8 (b.toNat + 256 * leNat bs) = b := by
      apply BitVec.eq_of_toNat_eq
      have := b.isLt
      simp only [BitVec.toNat_ofNat]
      omega
    have hhigh : (b.toNat + 256 * leNat bs) / 256 = leNat bs := by
      have := b.isLt
      omega
    simp only [List.length_cons, leNat, leBytes, hlow, hhigh, ih]

/-- The bytes of a number hold it, cut to their width. -/
theorem leNat_leBytes (n v : Nat) : leNat (leBytes n v) = v % 2 ^ (8 * n) := by
  induction n generalizing v with
  | zero => simp [leBytes, leNat, Nat.mod_one]
  | succ n ih =>
    have hpow : 2 ^ (8 * (n + 1)) = 256 * 2 ^ (8 * n) := by rw [Nat.mul_succ, Nat.pow_add]; omega
    simp only [leBytes, leNat, ih, BitVec.toNat_ofNat, hpow, Nat.mod_mul]

/-- Bytes do not see the number above their width. -/
theorem leBytes_mod (n v : Nat) : leBytes n (v % 2 ^ (8 * n)) = leBytes n v := by
  have h := leBytes_leNat (leBytes n v)
  rwa [length_leBytes, leNat_leBytes] at h

/-! ### Bytes of memory after a store -/

/-- A span reads alike in two memories that agree on its bytes. -/
theorem Memory.getBytes_congr {m m' : List Host.Cell} {a n : Nat}
    (h : ∀ j, a ≤ j → j < a + n → Memory.get m' j = Memory.get m j) : Memory.getBytes m' a n = Memory.getBytes m a n := by
  induction n generalizing a with
  | zero => rfl
  | succ n ih =>
    simp only [Memory.getBytes]
    rw [h a le_rfl (by omega), ih fun j hj hn => h j (by omega) (by omega)]

/-- A span apart from the bytes written reads as before. -/
theorem Memory.getBytes_setBytes_apart (m : List Host.Cell) {a k n : Nat} (bs : List Byte) (h : k + n ≤ a ∨ a + bs.length ≤ k) :
    Memory.getBytes (Memory.setBytes m a bs) k n = Memory.getBytes m k n :=
  Memory.getBytes_congr fun _ _ _ => Memory.get_setBytes_out m a bs (by omega)

/-- A store reads back. -/
theorem State.bytes_of_setBytes {s t : State} {a : Nat} {bs : List Byte} (h : t.mem = Memory.setBytes s.mem a bs)
    (hw : Memory.wf s.mem = true) : t.bytes a bs.length = bs := by
  simp only [State.bytes, h, Memory.getBytes_setBytes a bs hw]

/-- A store of bytes changes no byte outside their span. -/
theorem State.memBut_of_setBytes {s t : State} {a : Nat} {bs : List Byte} (h : t.mem = Memory.setBytes s.mem a bs) :
    s.memBut t [(a, bs.length)] := by
  intro k hk
  have hk := hk (a, bs.length) (by simp)
  simp only [State.bytes, h]
  exact Memory.getBytes_setBytes_apart _ _ (by simp only at hk; omega)

@[simp] theorem State.wrNum_mem (s : State) (a n v : Nat) : (s.wrNum a n v).mem = Memory.setBytes s.mem a (leBytes n v) := rfl

/-! ### Registers outside a list of fields -/

theorem State.regsBut.refl (s : State) (l : List Fld) : s.regsBut s l := fun _ _ _ => rfl

theorem State.regsBut.trans {s t u : State} {l : List Fld} (h : s.regsBut t l) (k : t.regsBut u l) : s.regsBut u l :=
  fun f hf ha => (k f hf ha).trans (h f hf ha)

theorem State.regsBut_of_regs {s t : State} (h : t.regs = s.regs) (l : List Fld) : s.regsBut t l := fun f _ _ => State.get_congr h f

/-- A register that the list names whole may take any value. -/
theorem State.regsBut_setReg (s : State) {k : Nat} {l : List Fld} (v : Nat) (h : Fld.whole k ∈ l) : s.regsBut (s.setReg k v) l := by
  intro f hf ha
  by_cases hk : f.key = k
  · have hw : f.w = 0 := by
      rcases ha _ h with h1 | h1 | h1
      · exact absurd hk.symm h1
      · simp only [Fld.whole] at h1; simp only [Fld.fits] at hf; omega
      · simp only [Fld.whole] at h1; omega
    simp [State.get, bits, hw, Nat.mod_one]
  · simp only [State.get, State.reg_setReg_ne s v hk]

/-! ### The hazard detector -/

/-- From `s` to `t` the detector has logged hazards of tile n, and nothing else has happened (R378). -/
structure State.LogsHazards (n : Nat) (s t : State) : Prop where
  parts : ∃ regs ev turns, t = { s with regs := regs, ev := ev, tile := { s.tile with hazTurn := turns } }
  regs : s.regsBut t (hazardFields n)

theorem State.LogsHazards.refl (n : Nat) (s : State) : State.LogsHazards n s s :=
  ⟨⟨s.regs, s.ev, s.tile.hazTurn, rfl⟩, State.regsBut.refl s _⟩

theorem State.LogsHazards.trans {n : Nat} {s t u : State} (h : State.LogsHazards n s t) (k : State.LogsHazards n t u) :
    State.LogsHazards n s u := by
  refine ⟨?_, h.regs.trans k.regs⟩
  obtain ⟨_, _, _, rfl⟩ := h.parts
  obtain ⟨r, e, x, rfl⟩ := k.parts
  exact ⟨r, e, x, rfl⟩

theorem State.LogsHazards.foldl {α : Type} {n : Nat} {f : State → α → State} (hf : ∀ t x, State.LogsHazards n t (f t x)) (l : List α)
    (s : State) : State.LogsHazards n s (l.foldl f s) := by
  induction l generalizing s with
  | nil => exact .refl n s
  | cons x l ih => exact (hf s x).trans (ih (f s x))

theorem whole_hazStatus_mem (n : Nat) : Fld.whole (TILE_HAZ_STATUS.entries.tile n).key ∈ hazardFields n := by simp [hazardFields]

theorem whole_hazCount_mem (n kind : Nat) : Fld.whole ((hazCount kind).tile n).key ∈ hazardFields n := by
  have h : ((hazCount kind).tile n).key = (TILE_HAZ_COUNT.same_row.tile n).key := by
    unfold hazCount
    split <;> rfl
  simp [hazardFields, h]

theorem whole_hazLog_mem (n : Nat) {e : Nat} (he : e < 31) :
    Fld.whole (tileBase n + TILE_HAZ_LOG_n.valid.key + 16 * e) ∈ hazardFields n :=
  List.mem_append_right _ (List.mem_flatMap.2 ⟨e, List.mem_range.2 he, by simp⟩)

theorem whole_hazAux_mem (n : Nat) {e : Nat} (he : e < 31) :
    Fld.whole (tileBase n + TILE_HAZ_AUX_n.other.key + 16 * e) ∈ hazardFields n :=
  List.mem_append_right _ (List.mem_flatMap.2 ⟨e, List.mem_range.2 he, by simp⟩)

/-- Setting a field of the detector's registers is part of logging. -/
theorem State.LogsHazards.setReg {n k : Nat} (s : State) (v : Nat) (h : Fld.whole k ∈ hazardFields n) :
    State.LogsHazards n s (s.setReg k v) :=
  ⟨⟨_, s.ev, s.tile.hazTurn, rfl⟩, State.regsBut_setReg s v h⟩

theorem State.LogsHazards.raise {n : Nat} (s : State) (turns : Sparse Nat) (num coord a b : Nat) :
    State.LogsHazards n s ({ s with tile := { s.tile with hazTurn := turns } }.raise num coord a b) :=
  ⟨⟨s.regs, _, turns, rfl⟩, State.regsBut_of_regs rfl _⟩

theorem State.hazard_logs (s : State) (n kind port addr other : Nat) : State.LogsHazards n s (s.hazard n kind port addr other) := by
  have hcount : State.LogsHazards n s (s.inc ((hazCount kind).tile n)) := .setReg s _ (whole_hazCount_mem n kind)
  unfold State.hazard
  split
  · dsimp only
    split
    · exact hcount.trans (.setReg _ _ (whole_hazStatus_mem n))
    · next he =>
      have he : s.get (TILE_HAZ_STATUS.entries.tile n) < 31 := Nat.lt_of_not_le he
      have hlog (log aux entries : Nat) := ((hcount.trans (.setReg _ log (whole_hazLog_mem n he))).trans
        (.setReg _ aux (whole_hazAux_mem n he))).trans (.setReg _ entries (whole_hazStatus_mem n))
      split
      · exact hlog _ _ _
      · exact (hlog _ _ _).trans (.raise _ _ _ _ _ _)
  · exact .refl n s

/-! ### A write through a port's slot -/

/-- A port's write is noted by the detector. -/
theorem State.noteWrite_logs (s : State) (n : Nat) (p : Port) (off len : Nat) :
    ∃ writes, State.LogsHazards n { s with tile := { s.tile with writes := writes } } (s.noteWrite n p off len) := by
  refine ⟨s.tile.writes ++ (rowsOf off len).map fun r => (n, r, portCode p), ?_⟩
  unfold State.noteWrite
  refine .foldl (fun t w => ?_) _ _
  exact t.hazard_logs ..

/-- The bank rows of a port's write, each behind the writes that wait before it (R107). -/
def rowsBehind (n : Nat) (p : Port) (rows : List (Nat × List Byte)) (late : List Late) : List Late :=
  rows.foldl (fun l w => insertLate ⟨n, bankOf w.1, spadKey n w.1, portPrio p, 0, none, none, w.2⟩ l) late

/-- A queued write is noted, its hazards are logged, and its bank rows wait; no more happens in the open cycle. -/
theorem State.queueWrite_parts (s : State) (n : Nat) (p : Port) (off : Nat) (bs : List Byte) :
    ∃ regs ev writes turns, s.queueWrite n p off bs = { s with regs := regs, ev := ev, tile := { s.tile with
      writes := writes, hazTurn := turns, late := rowsBehind n p (cutRows off bs) s.tile.late } } := by
  obtain ⟨writes, h⟩ := s.noteWrite_logs n p off bs.length
  obtain ⟨regs, ev, turns, e⟩ := h.parts
  refine ⟨regs, ev, writes, turns, ?_⟩
  simp only [State.queueWrite, e]
  rfl

theorem State.queueWrite_regsBut (s : State) (n : Nat) (p : Port) (off : Nat) (bs : List Byte) :
    s.regsBut (s.queueWrite n p off bs) (hazardFields n) := by
  obtain ⟨writes, h⟩ := s.noteWrite_logs n p off bs.length
  exact h.regs

/-- An aligned span of 8 bytes lies in one bank row. -/
theorem cutRows_word {off : Nat} {bs : List Byte} (ho : off % 8 = 0) (hb : bs.length = 8) : cutRows off bs = [(off, bs)] := by
  have hone : ceilDiv (off % 64 + 8) 64 = 1 := by unfold ceilDiv; omega
  have hlo : max off (64 * (off / 64)) = off := by omega
  have hhi : min (off + 8) (64 * (off / 64 + 1)) = off + 8 := by omega
  simp [cutRows, rowsOf, hb, hone, hlo, hhi, List.take_of_length_le]

/-! ### The open CORE cycle ends -/

theorem State.circApply_mem (s : State) (n c k : Nat) (pop : Bool) : (s.circApply n c k pop).mem = s.mem := by
  unfold State.circApply
  dsimp only
  split <;> rfl

/-- Pushes and pops move no byte. -/
theorem State.circDecide_mem (s : State) (o : CircOp) : (s.circDecide o).mem = s.mem := by
  rcases ho : o.origin with _ | ⟨m, ch⟩ <;> simp [State.circDecide, ho, apply_ite State.mem, State.circApply_mem]

theorem State.foldl_circDecide_mem (l : List CircOp) (s : State) : (l.foldl State.circDecide s).mem = s.mem := by
  induction l generalizing s with
  | nil => rfl
  | cons o l ih => exact (ih _).trans (s.circDecide_mem o)

/-- A write that waits alone finds its slot: the bytes of memory after the next cycle are those of its commit (R107, R109). -/
theorem State.cycle_mem_of_single {s : State} {w : Late} (hl : s.tile.late = [w]) (hf : slotFree [] w = true) :
    (s.cycles s.tile.late.length).mem = (s.commit w).mem := by
  have hround : s.commitRound [] [w] = (s.commit w, []) := by simp [State.commitRound, hf]
  have hcycle : s.endCycle.mem = (s.commit w).mem := by
    simp only [State.endCycle, hl, hround]
    exact State.foldl_circDecide_mem _ _
  simpa [State.cycles, hl, State.endCycles] using hcycle

/-- The network port writes in every cycle in which no other write is made. -/
theorem slotFree_network (w : Late) (h : w.port = portPrio .network) : slotFree [] w = true := by
  have hbank : 0 < bankCap w.bank := by
    unfold bankCap
    repeat' split
    all_goals omega
  simp [slotFree, h, hbank, portPrio, portCap]

/-- A write to a scratchpad that waits alone stands in memory after the next cycle. -/
theorem State.spadWrite_lands {s : State} {n key bank op : Nat} {bs : List Byte}
    (hl : s.tile.late = [⟨n, bank, key, portPrio .network, op, none, none, bs⟩]) (hw : Memory.wf s.mem = true) :
    (s.cycles s.tile.late.length).bytes key bs.length = bs := by
  refine State.bytes_of_setBytes ?_ hw
  rw [State.cycle_mem_of_single hl (slotFree_network _ rfl)]
  simp [State.commit, portPrio, State.writeCoded]

/-! ### Roof words -/

/-- Memory after a roof word is written: its main part, then its side part. -/
theorem State.writeRoof_mem (s : State) (main side v : Nat) : (s.writeRoof main side v).mem =
    Memory.setBytes (Memory.setBytes s.mem main (leBytes 64 (v % 2 ^ 512))) side (leBytes 4 (v / 2 ^ 512)) := rfl

/-- A roof word's write that waits alone stands in memory after the next cycle, main part and side part. -/
theorem State.roofWrite_lands {s : State} {n bank key side op v : Nat}
    (hl : s.tile.late = [⟨n, bank, key, portPrio .network, op, some side, none, leBytes 68 v⟩]) (hw : Memory.wf s.mem = true)
    (hv : v < 2 ^ 544) (ha : key + 64 ≤ side) :
    (s.cycles s.tile.late.length).bytes key 64 = leBytes 64 v ∧ (s.cycles s.tile.late.length).num side 4 = v / 2 ^ 512 := by
  have hm : (s.cycles s.tile.late.length).mem =
      Memory.setBytes (Memory.setBytes s.mem key (leBytes 64 v)) side (leBytes 4 (v / 2 ^ 512)) := by
    rw [State.cycle_mem_of_single hl (slotFree_network _ rfl)]
    simp only [State.commit, portPrio, show ¬(2 = 5 ∧ Sparse.find s.flips key = none) by simp, if_false, State.writeRoof_mem,
      leNat_leBytes, Nat.mod_eq_of_lt hv]
    rw [← leBytes_mod 64 v]
  constructor
  · have hmain := Memory.getBytes_setBytes key (leBytes 64 v) hw
    rw [length_leBytes] at hmain
    rw [State.bytes, hm, Memory.getBytes_setBytes_apart _ _ (by omega), hmain]
  · have hside := Memory.getBytes_setBytes side (leBytes 4 (v / 2 ^ 512)) (Memory.wf_setBytes key (leBytes 64 v) hw)
    rw [length_leBytes] at hside
    rw [State.num, State.bytes, hm, hside, leNat_leBytes]
    exact Nat.mod_eq_of_lt (by omega)

/-- Roof word w of M-tile n lies below the coach tables, and its key names its tile and its side part. -/
theorem sideOf_wordKey {n w : Nat} (hn : n < 9216) (hw : w < 327680) :
    isTableKey (wordKey n w) = false ∧ sideOf (wordKey n w) = sideKey n w := by
  have hk : wordKey n w = 0x100000000000 + n / 144 * 0x1000000000 + n % 144 * 0x10000000 + 64 * w := by
    simp [wordKey, tileBase, hn]
  have htable : isTableKey (wordKey n w) = false := by
    simp only [isTableKey, hk, decide_eq_false_iff_not]
    omega
  have htile : roofTile (wordKey n w) = n := by
    rw [roofTile, htable, hk, if_neg Bool.false_ne_true]
    omega
  have hword : wordKey n w % 0x10000000 / 64 = w := by omega
  exact ⟨htable, by simp [sideOf, htable, htile, hword]⟩

/-! ### What an access names does not depend on the port -/

@[simp] theorem State.takeCommand_target (s : State) (op cmd a : Nat) : (s.takeCommand op cmd).target a = s.target a := by
  obtain ⟨_, _, _, h⟩ := s.takeCommand_same op cmd
  rw [h]
  rfl

@[simp] theorem State.takeCommand_inTable (s : State) (op cmd n off : Nat) : (s.takeCommand op cmd).inTable n off = s.inTable n off := by
  simp [State.inTable, State.tileOf]

@[simp] theorem State.takeCommand_role (s : State) (op cmd : Nat) : (s.takeCommand op cmd).role = s.role := by
  simp [State.role]

@[simp] theorem State.takeCommand_extest (s : State) (op cmd : Nat) : (s.takeCommand op cmd).extest = s.extest := by
  simp [State.extest]

@[simp] theorem State.takeCommand_flashSlot (s : State) (op cmd : Nat) : (s.takeCommand op cmd).flashSlot = s.flashSlot := by
  simp [State.flashSlot]

/-! ### A management write, by what its address names -/

section
variable {s : State} {a n off : Nat} (role v : Nat)

theorem State.mgmtWrite_none (h : s.target a = none) : s.mgmtWrite role a v = refused stAddress s := by
  simp [State.mgmtWrite, h]

theorem State.mgmtWrite_spad (h : s.target a = some (.spad n off)) (ht : s.inTable n off = false) :
    s.mgmtWrite role a v = wrote (s.queueWrite n .network off (leBytes 8 v)) := by
  simp [State.mgmtWrite, h, ht]

theorem State.mgmtWrite_tower (h : s.target a = some (.tower n off)) (ho : off < 0xFC0000000) :
    s.mgmtWrite role a v = wrote (s.wrNum (towerBase n + off) 8 v) := by
  simp [State.mgmtWrite, h, Nat.not_le.2 ho]
end

/-- A WRITE outside the swap set answers its status, on the state that the write leaves. -/
theorem State.hostWrite_runs {s : State} {cmd a v : Nat} {w : Wrote} (h : s.cmdRuns 2 [1, 2] = true)
    (hw : ∀ role, (s.takeCommand 2 cmd).mgmtWrite role a v = w) (hs : w.swap = false) :
    s.hostWrite cmd a v = (w.s.respond 2 cmd w.status 0 true []).transmit := by
  rw [State.hostWrite, State.command_runs s h]
  simp [hw, hs]

/-! ### A WRITE_BLOCK -/

/-- A block of no words, or of more than 512, is malformed. -/
theorem State.blockWrite_malformed {s : State} {cmd a : Nat} {ws : List Nat} (h : s.cmdRuns 4 [1, 2] = true)
    (hl : ws = [] ∨ 512 < ws.length) :
    s.blockWrite cmd a ws = ((s.takeCommand 4 cmd).respond 4 cmd stMalformed 0 true []).transmit := by
  rw [State.blockWrite, State.command_runs s h, if_pos (by simpa [List.isEmpty_iff] using hl)]

/-- A block performed whole answers no bytes, on the state that its words leave. -/
theorem State.blockWrite_runs {s t : State} {cmd a : Nat} {ws : List Nat} (h : s.cmdRuns 4 [1, 2] = true)
    (hpos : 0 < ws.length) (hmax : ws.length ≤ 512)
    (hb : ∀ k, writeBlock (k + 1) a ws ⟨stOk, 0, [], none, s.takeCommand 4 cmd⟩ = ⟨stOk, ws.length, [], none, t⟩) :
    s.blockWrite cmd a ws = (t.respond 4 cmd stOk 0 true []).transmit := by
  have hwell : ¬(ws.isEmpty = true ∨ 512 < ws.length) := by
    rw [List.isEmpty_iff_length_eq_zero]
    omega
  rw [State.blockWrite, State.command_runs s h, if_neg hwell, hb 512]
  rfl

/-- Nothing is left to do once every word is written. -/
theorem writeBlock_done (k a : Nat) (ws : List Nat) (turn : Option Nat) (s : State) :
    writeBlock k a ws ⟨stOk, ws.length, [], turn, s⟩ = ⟨stOk, ws.length, [], turn, s⟩ := by
  cases k with
  | zero => rfl
  | succ k => simp [writeBlock]

section
variable {s : State} {a n off : Nat} (k : Nat)

/-- A block of one word is written as a WRITE writes it. -/
theorem writeBlock_tower {v : Nat} (h : s.target a = some (.tower n off)) (ho : off < 0xFC0000000) :
    writeBlock (k + 1) a [v] ⟨stOk, 0, [], none, s⟩ = ⟨stOk, [v].length, [], none, s.wrNum (towerBase n + off) 8 (v % 2 ^ 64)⟩ := by
  simp only [writeBlock, Nat.mul_zero, Nat.add_zero, h, State.mgmtWrite_tower _ _ h ho]
  exact writeBlock_done k a [v] none _

/-- Eight words at a roof word are written as one. -/
theorem writeBlock_weights {ws : List Nat} (h : s.target a = some (.weights n off)) (ho : off % 64 = 0) (hl : ws.length = 8) :
    writeBlock (k + 1) a ws ⟨stOk, 0, [], none, s⟩ = ⟨stOk, ws.length, [], none, s.writeWeights n off (ws.flatMap word8)⟩ := by
  have htake : ws.take 8 = ws := List.take_of_length_le hl.le
  have hdone := writeBlock_done k a ws none (s.writeWeights n off (ws.flatMap word8))
  simp only [writeBlock, Nat.mul_zero, Nat.add_zero, h, ho, hl, List.drop_zero, htake]
  rw [hl] at hdone
  simpa using hdone

/-- 512 words at a sector of the flash window are written as one, for the operator and not under EXTEST. -/
theorem writeBlock_flash {ws : List Nat} (h : s.target a = some (.flash off)) (hr : s.role = 1) (he : s.extest = false)
    (ho : off % 4096 = 0) (hl : ws.length = 512) :
    writeBlock (k + 1) a ws ⟨stOk, 0, [], none, s⟩ = ⟨stOk, ws.length, [], none, s.writeSector off (ws.flatMap word8)⟩ := by
  have htake : ws.take 512 = ws := List.take_of_length_le hl.le
  have hdone := writeBlock_done k a ws none (s.writeSector off (ws.flatMap word8))
  simp only [writeBlock, Nat.mul_zero, Nat.add_zero, h, hr, he, ho, hl, List.drop_zero, htake]
  rw [hl] at hdone
  simpa using hdone
end

theorem length_flatMap_word8 (ws : List Nat) : (ws.flatMap word8).length = 8 * ws.length := by
  simp [List.length_flatMap, word8, Nat.mul_comm]

/-- The first write of a sector erases it and stores it whole. -/
theorem State.writeSector_first {s : State} {off : Nat} (bs : List Byte) (h : s.sbx.erased.contains (off / 4096) = false) :
    s.writeSector off bs = { s.wrBytes (flashKey (s.flashSlot * 0x1000000 + off)) bs with
      sbx := { s.sbx with erased := off / 4096 :: s.sbx.erased } } := by
  simp only [State.writeSector, h, Bool.false_eq_true, if_false]
  rfl

/-! ### A roof word written by management -/

/-- The write of a roof word waits in the write slot of its bank, with the side part that TILE_WS_SIDE holds (R102, R103). -/
def State.roofLate (s : State) (n w : Nat) (bs : List Byte) : Late :=
  ⟨n, 64, wordKey n w, portPrio .network, 0, some (sideKey n w), none,
    leBytes 68 (leNat bs % 2 ^ 512 + s.get (TILE_WS_SIDE.side.tile n) * 2 ^ 512)⟩

theorem State.writeWeights_parts (s : State) {n w : Nat} (bs : List Byte) (hn : n < 9216) (hw : w < 327680) :
    s.writeWeights n (64 * w) bs =
      { s with tile := { s.tile with late := insertLate (s.roofLate n w bs) s.tile.late } } := by
  obtain ⟨htable, hside⟩ := sideOf_wordKey hn hw
  have hword : 64 * w / 64 = w := by omega
  simp only [State.writeWeights, State.queueRoof, State.roofLate, hword, htable, hside, portPrio, Bool.false_eq_true, if_false]

@[simp] theorem State.takeCommand_roofLate (s : State) (op cmd n w : Nat) (bs : List Byte) :
    (s.takeCommand op cmd).roofLate n w bs = s.roofLate n w bs := by
  simp only [State.roofLate, State.takeCommand_get]

/-- Two numbers side by side fit in the sum of their widths. -/
theorem add_mul_two_pow_lt {x y a b : Nat} (hx : x < 2 ^ a) (hy : y < 2 ^ b) : x + y * 2 ^ a < 2 ^ (a + b) := by
  have h : (y + 1) * 2 ^ a ≤ 2 ^ b * 2 ^ a := Nat.mul_le_mul_right _ hy
  rw [Nat.add_one_mul] at h
  rw [Nat.pow_add, Nat.mul_comm (2 ^ a)]
  omega

/-- The main part of a roof word's payload is its low 64 bytes. -/
theorem leBytes_mainPart {bs : List Byte} (hb : bs.length = 64) (side : Nat) :
    leBytes 64 (leNat bs % 2 ^ 512 + side * 2 ^ 512) = bs := by
  have hbytes := leBytes_leNat bs
  rw [hb] at hbytes
  calc leBytes 64 (leNat bs % 2 ^ 512 + side * 2 ^ 512)
    _ = leBytes 64 ((leNat bs % 2 ^ 512 + side * 2 ^ 512) % 2 ^ (8 * 64)) := (leBytes_mod _ _).symm
    _ = leBytes 64 (leNat bs % 2 ^ (8 * 64)) := by rw [Nat.add_mul_mod_self_right, Nat.mod_mod]
    _ = bs := (leBytes_mod _ _).trans hbytes

/-- The upper of two numbers side by side. -/
theorem add_mul_two_pow_div {x a : Nat} (hx : x < 2 ^ a) (y : Nat) : (x + y * 2 ^ a) / 2 ^ a = y := by
  rw [Nat.add_mul_div_right _ _ (Nat.two_pow_pos a), Nat.div_eq_of_lt hx, Nat.zero_add]

/-- A roof word written by management reads back after the next cycle, main part and side part, when its write waits alone. -/
theorem State.roofLate_lands {s t : State} {n w : Nat} {bs : List Byte} (hl : t.tile.late = [s.roofLate n w bs])
    (hwf : Memory.wf t.mem = true) (hw : w < 327680) (hb : bs.length = 64) :
    (t.cycles t.tile.late.length).bytes (wordKey n w) 64 = bs
      ∧ (t.cycles t.tile.late.length).num (sideKey n w) 4 = s.get (TILE_WS_SIDE.side.tile n) := by
  have hlow := Nat.mod_lt (leNat bs) (Nat.two_pow_pos 512)
  have hv := add_mul_two_pow_lt hlow (s.get_lt (TILE_WS_SIDE.side.tile n))
  obtain ⟨hmain, hside⟩ := State.roofWrite_lands hl hwf hv (by simp only [wordKey, sideKey]; omega)
  exact ⟨hmain.trans (leBytes_mainPart hb _), hside.trans (add_mul_two_pow_div hlow _)⟩

/-! ### What the answer to a command leaves -/

/-- A refusal answers its status and changes nothing but the port. -/
theorem State.refusal_frame (s : State) (op cmd st : Nat) :
    let t := ((s.takeCommand op cmd).respond op cmd st 0 true []).transmit
    t.lastResponse = some ⟨op, st, 0, cmd, true, []⟩ ∧ t.regs = s.regs ∧ t.mem = s.mem ∧ s.sameBut t [.port] := by
  intro t
  simp [t, State.sameBut]

theorem State.regs_of_sameBut {s t : State} {l : List Part} (h : s.sameBut t l) (hl : Part.regs ∉ l) : t.regs = s.regs := by
  obtain ⟨-, hregs, -⟩ := h
  exact hregs.resolve_left hl

theorem State.mem_of_sameBut {s t : State} {l : List Part} (h : s.sameBut t l) (hl : Part.mem ∉ l) : t.mem = s.mem := by
  obtain ⟨-, -, hmem, -⟩ := h
  exact hmem.resolve_left hl

/-- An answer changes nothing but the port of the state that the command's effect left. -/
theorem State.sameBut_answer {s u : State} {l : List Part} (op cmd st : Nat) (r : List Byte) (h : s.sameBut u l) (hp : Part.port ∈ l) :
    s.sameBut (u.respond op cmd st 0 true r).transmit l := by
  simpa [State.sameBut, hp] using h

/-! ### WRITE -/

section
variable {s : State} {cmd a v n off : Nat} (h : s.cmdRuns 2 [1, 2] = true)
include h

theorem State.hostWrite_none (ht : s.target a = none) :
    s.hostWrite cmd a v = ((s.takeCommand 2 cmd).respond 2 cmd stAddress 0 true []).transmit :=
  State.hostWrite_runs (w := refused _ _) h (fun role => State.mgmtWrite_none role v (by simpa using ht)) rfl

theorem State.hostWrite_spad (ht : s.target a = some (.spad n off)) (hi : s.inTable n off = false) :
    s.hostWrite cmd a v = (((s.takeCommand 2 cmd).queueWrite n .network off (leBytes 8 v)).respond 2 cmd stOk 0 true []).transmit :=
  State.hostWrite_runs (w := wrote _) h (fun role => State.mgmtWrite_spad role v (by simpa using ht) (by simpa using hi)) rfl

theorem State.hostWrite_tower (ht : s.target a = some (.tower n off)) (ho : off < 0xFC0000000) :
    s.hostWrite cmd a v = (((s.takeCommand 2 cmd).wrNum (towerBase n + off) 8 v).respond 2 cmd stOk 0 true []).transmit :=
  State.hostWrite_runs (w := wrote _) h (fun role => State.mgmtWrite_tower role v (by simpa using ht) ho) rfl
end

/-! ### WRITE_BLOCK -/

section
variable {s : State} {cmd a n off : Nat} (h : s.cmdRuns 4 [1, 2] = true)
include h

theorem State.blockWrite_tower {v : Nat} (ht : s.target a = some (.tower n off)) (ho : off < 0xFC0000000) :
    s.blockWrite cmd a [v] =
      (((s.takeCommand 4 cmd).wrNum (towerBase n + off) 8 (v % 2 ^ 64)).respond 4 cmd stOk 0 true []).transmit :=
  State.blockWrite_runs h (by simp) (by simp) fun k => writeBlock_tower k (by simpa using ht) ho

theorem State.blockWrite_weights {ws : List Nat} (ht : s.target a = some (.weights n off)) (ho : off % 64 = 0) (hl : ws.length = 8) :
    s.blockWrite cmd a ws =
      (((s.takeCommand 4 cmd).writeWeights n off (ws.flatMap word8)).respond 4 cmd stOk 0 true []).transmit :=
  State.blockWrite_runs h (by omega) (by omega) fun k => writeBlock_weights k (by simpa using ht) ho hl

theorem State.blockWrite_flash {ws : List Nat} (ht : s.target a = some (.flash off)) (hr : s.role = 1) (he : s.extest = false)
    (ho : off % 4096 = 0) (hl : ws.length = 512) :
    s.blockWrite cmd a ws =
      (((s.takeCommand 4 cmd).writeSector off (ws.flatMap word8)).respond 4 cmd stOk 0 true []).transmit :=
  State.blockWrite_runs h (by omega) (by omega) fun k =>
    writeBlock_flash k (by simpa using ht) (by simpa using hr) (by simpa using he) ho hl
end

/-! ### What each write leaves -/

section
variable {s : State} {cmd a v n off : Nat}

/-- The write of a scratchpad word outside the tables waits for its slot. -/
theorem State.hostWrite_spad_waits (h : s.cmdRuns 2 [1, 2] = true) (ht : s.target a = some (.spad n off))
    (hi : s.inTable n off = false) :
    (s.hostWrite cmd a v).lastResponse = some ⟨2, 0, 0, cmd, true, []⟩
      ∧ (s.hostWrite cmd a v).tile.late = rowsBehind n .network (cutRows off (leBytes 8 v)) s.tile.late
      ∧ s.sameBut (s.hostWrite cmd a v) [.regs, .ev, .port, .tile] := by
  obtain ⟨regs, ev, writes, turns, hq⟩ := (s.takeCommand 2 cmd).queueWrite_parts n .network off (leBytes 8 v)
  rw [State.hostWrite_spad h ht hi, hq]
  exact ⟨by simp [stOk], by simp, State.sameBut_answer _ _ _ _ (by simp [State.sameBut]) (by simp)⟩

/-- It logs hazards of its tile, and changes no other register. -/
theorem State.hostWrite_spad_regsBut (h : s.cmdRuns 2 [1, 2] = true) (ht : s.target a = some (.spad n off))
    (hi : s.inTable n off = false) : s.regsBut (s.hostWrite cmd a v) (hazardFields n) := by
  rw [State.hostWrite_spad h ht hi]
  intro f hf ha
  simpa using (s.takeCommand 2 cmd).queueWrite_regsBut n .network off (leBytes 8 v) f hf ha

/-- When no other write waits, the word stands after the next cycle. -/
theorem State.hostWrite_spad_lands (h : s.cmdRuns 2 [1, 2] = true) (ht : s.target a = some (.spad n off))
    (hi : s.inTable n off = false) (ho : off % 8 = 0) (hw : Memory.wf s.mem = true) (hl : s.tile.late = []) :
    ((s.hostWrite cmd a v).cycles (s.hostWrite cmd a v).tile.late.length).bytes (spadKey n off) 8 = leBytes 8 v := by
  obtain ⟨-, hlate, hframe⟩ := State.hostWrite_spad_waits (cmd := cmd) (v := v) h ht hi
  have hmem := State.mem_of_sameBut hframe (by decide)
  rw [hl, cutRows_word ho (length_leBytes 8 v)] at hlate
  have hlands := State.spadWrite_lands hlate (hmem ▸ hw)
  rwa [length_leBytes] at hlands

/-- What a word stored in a tower leaves. -/
theorem State.tower_stored (op : Nat) (hw : Memory.wf s.mem = true) :
    let t := (((s.takeCommand op cmd).wrNum (towerBase n + off) 8 v).respond op cmd stOk 0 true []).transmit
    t.lastResponse = some ⟨op, 0, 0, cmd, true, []⟩ ∧ t.bytes (towerBase n + off) 8 = leBytes 8 v ∧ t.regs = s.regs
      ∧ s.memBut t [(towerBase n + off, 8)] ∧ s.sameBut t [.mem, .flips, .port] := by
  intro t
  have hmem : t.mem = Memory.setBytes s.mem (towerBase n + off) (leBytes 8 v) := by simp [t]
  have hbytes := State.bytes_of_setBytes hmem hw
  have hbut := State.memBut_of_setBytes hmem
  rw [length_leBytes] at hbytes hbut
  exact ⟨by simp [t, stOk], hbytes, by simp [t], hbut, State.sameBut_answer _ _ _ _ (by simp [State.sameBut]) (by simp)⟩

/-- What a roof word written by management leaves. -/
theorem State.blockWrite_weights_effect {w : Nat} {ws : List Nat} (h : s.cmdRuns 4 [1, 2] = true) (hn : n < 9216)
    (ht : s.target a = some (.weights n (64 * w))) (hw : w < 327680) (hl : ws.length = 8) :
    (s.blockWrite cmd a ws).lastResponse = some ⟨4, 0, 0, cmd, true, []⟩
      ∧ (s.blockWrite cmd a ws).tile.late = insertLate (s.roofLate n w (ws.flatMap word8)) s.tile.late
      ∧ s.sameBut (s.blockWrite cmd a ws) [.port, .tile] := by
  rw [State.blockWrite_weights h ht (by omega) hl, State.writeWeights_parts _ _ hn hw]
  exact ⟨by simp [stOk], by simp, State.sameBut_answer _ _ _ _ (by simp [State.sameBut]) (by simp)⟩

/-- What the first write of a flash sector leaves. -/
theorem State.blockWrite_flash_effect {ws : List Nat} (h : s.cmdRuns 4 [1, 2] = true) (ht : s.target a = some (.flash off))
    (hr : s.role = 1) (he : s.extest = false) (ho : off % 4096 = 0) (hl : ws.length = 512)
    (hs : s.sbx.erased.contains (off / 4096) = false) (hw : Memory.wf s.mem = true) :
    let t := s.blockWrite cmd a ws
    t.lastResponse = some ⟨4, 0, 0, cmd, true, []⟩
      ∧ t.bytes (flashKey (s.flashSlot * 0x1000000 + off)) 4096 = ws.flatMap word8 ∧ (off / 4096) ∈ t.sbx.erased
      ∧ t.regs = s.regs ∧ s.memBut t [(flashKey (s.flashSlot * 0x1000000 + off), 4096)]
      ∧ s.sameBut t [.mem, .flips, .port, .sbx] := by
  intro t
  have heq : t = _ := State.blockWrite_flash h ht hr he ho hl
  rw [State.writeSector_first _ (by simpa using hs)] at heq
  have hlen : (ws.flatMap word8).length = 4096 := by rw [length_flatMap_word8, hl]
  have hmem : t.mem = Memory.setBytes s.mem (flashKey (s.flashSlot * 0x1000000 + off)) (ws.flatMap word8) := by simp [heq]
  have hbytes := State.bytes_of_setBytes hmem hw
  have hbut := State.memBut_of_setBytes hmem
  rw [hlen] at hbytes hbut
  exact ⟨by simp [heq, stOk], hbytes, by simp [heq], by simp [heq], hbut,
    heq ▸ State.sameBut_answer _ _ _ _ (by simp [State.sameBut]) (by simp)⟩
end

/-- Settles O24: each clause is one path of `hostWrite` or `blockWrite`, taken by what the address names; a scratchpad or roof word
waits in the open cycle, and stands once the slot of its bank has taken it. -/
theorem managementWrites : Obligations.ManagementWrites := by
  unfold Obligations.ManagementWrites
  refine ⟨?_, ?_, ?_, ?_, ?_, ?_, ?_⟩
  · rintro dt cmd a v s _ rfl h ht
    refine ⟨(s.pass dt).hostWrite cmd a v, rfl, ?_⟩
    rw [State.hostWrite_none h ht]
    exact State.refusal_frame _ _ _ _
  · rintro dt cmd a v n off s _ rfl h ht hi ho hw
    obtain ⟨hresp, hlate, hframe⟩ := State.hostWrite_spad_waits (cmd := cmd) (v := v) h ht hi
    exact ⟨(s.pass dt).hostWrite cmd a v, rfl, hresp, hlate, State.hostWrite_spad_lands h ht hi ho hw, hframe,
      State.hostWrite_spad_regsBut h ht hi⟩
  · rintro dt cmd a v n off s _ rfl h ht ho hw
    refine ⟨(s.pass dt).hostWrite cmd a v, rfl, ?_⟩
    rw [State.hostWrite_tower h ht ho]
    obtain ⟨hresp, hbytes, hregs, hbut, hframe⟩ := (s.pass dt).tower_stored (cmd := cmd) (n := n) (off := off) (v := v) 2 hw
    exact ⟨hresp, hbytes, hregs, fun x hx => hbut x (by simpa using hx), hframe⟩
  · rintro dt cmd a ws s _ rfl h hl
    refine ⟨(s.pass dt).blockWrite cmd a ws, rfl, ?_⟩
    rw [State.blockWrite_malformed h hl]
    exact State.refusal_frame _ _ _ _
  · rintro dt cmd a v n off s _ rfl h ht ho hw
    refine ⟨(s.pass dt).blockWrite cmd a [v], rfl, ?_⟩
    rw [State.blockWrite_tower h ht ho]
    exact State.tower_stored 4 hw
  · rintro dt cmd n w ws s _ rfl h hn ht hw hl hwf
    obtain ⟨hresp, hlate, hframe⟩ := State.blockWrite_weights_effect (cmd := cmd) h hn ht hw hl
    have hmem := State.mem_of_sameBut hframe (by decide)
    refine ⟨(s.pass dt).blockWrite cmd (tileBase n + 64 * w) ws, ?_, hresp, fun he => ?_,
      State.regs_of_sameBut hframe (by decide), hframe⟩
    · simp only [exec, execWsManagementWrite, List.take_of_length_le hl.le]
    · rw [he] at hlate
      exact State.roofLate_lands hlate (hmem ▸ hwf) hw (by rw [length_flatMap_word8, hl])
  · rintro dt cmd off ws s _ rfl h hr ho - hl ht he hs hw
    exact ⟨(s.pass dt).blockWrite cmd (0x400001000000 + off) ws, rfl, State.blockWrite_flash_effect h ht hr he ho hl hs hw⟩

/-! ### A read that the hazard detector counts -/

/-- The operator's session of a debug image, with its WRITE of the first word of tile 0's scratchpad in the open CORE cycle. -/
def debugWriteState : State :=
  (((State.reset.set CTL_PORT_STATUS.link 2).set CTL_PORT_STATUS.role 1).setFlag HEAD_IMAGE_STATUS.debug true).queueWrite 0 .network 0
    (leBytes 8 1)

/-- The detector counts a management read of the row that a write of the same cycle names (kind 0x1, R377, R378). -/
theorem debugWriteState_read_counted :
    (((debugWriteState.pass 0).takeCommand 1 0).mgmtRead (tileBase 0 + 0x8000000)).2.2.get (TILE_HAZ_COUNT.same_row.tile 0) = 1 := by
  decide +kernel

theorem debugWriteState_not_counted : (debugWriteState.pass 0).get (TILE_HAZ_COUNT.same_row.tile 0) = 0 := by
  decide +kernel

/-- Refutes O23: its second clause says that the read of a scratchpad word leaves every register as it was (`t.regs = s'.regs`),
beside a frame that rightly lets the hazard registers of the tile change. Under a debug image, the read of a row written in the
same CORE cycle is a hazard, and TILE_HAZ_COUNT goes from 0 to 1. -/
theorem not_managementReads : ¬ Obligations.ManagementReads := by
  unfold Obligations.ManagementReads
  rintro ⟨-, hspad, -⟩
  have hruns : (debugWriteState.pass 0).cmdRuns 1 [1, 2] = true := by decide +kernel
  have htarget : (debugWriteState.pass 0).target (tileBase 0 + 0x8000000) = some (.spad 0 0) := by decide +kernel
  have hflips : (debugWriteState.pass 0).flips = [] := by decide +kernel
  obtain ⟨t, ht, -, hregs, -⟩ := hspad 0 0 (tileBase 0 + 0x8000000) 0 0 debugWriteState _ rfl hruns htarget hflips
  have hcount : t.get (TILE_HAZ_COUNT.same_row.tile 0) = 1 := by
    simp only [exec, execRead, Host.Outcome.next.injEq, State.command_runs _ hruns] at ht
    rw [← ht, State.transmit_get, State.respond_get, debugWriteState_read_counted]
  rw [State.get_congr hregs, debugWriteState_not_counted] at hcount
  exact absurd hcount (by decide)

end Sys2Proof.Machine
end

section
/-! PROOFS. The axle and the step (R60 to R67, R539): fields outside a list keep their values, the axle's own updates, the arm and the
index, and what every command keeps. -/

set_option Elab.async false

namespace Sys2Proof.Machine

/-! ### Parts outside a list -/

/-- From `s` to `t` one part is the same. -/
def State.samePart (s t : State) : Part → Prop
  | .ticks => t.ticks = s.ticks
  | .regs => t.regs = s.regs
  | .mem => t.mem = s.mem
  | .flips => t.flips = s.flips
  | .free => t.free = s.free
  | .axle => t.axle = s.axle
  | .turn => t.turn = s.turn
  | .ev => t.ev = s.ev
  | .port => t.port = s.port
  | .mbx => t.mbx = s.mbx
  | .sbx => t.sbx = s.sbx
  | .img => t.img = s.img
  | .tile => t.tile = s.tile
  | .net => t.net = s.net
  | .serv => t.serv = s.serv
  | .boot => t.boot = s.boot
  | .cpl => t.cpl = s.cpl
  | .rep => t.rep = s.rep
  | .pwr => t.pwr = s.pwr
  | .thm => t.thm = s.thm
  | .pending => t.pending = s.pending

/-- A frame says of each part outside its list that it is the same. -/
theorem State.sameBut_iff {s t : State} {l : List Part} : s.sameBut t l ↔ ∀ p, p ∉ l → s.samePart t p := by
  simp only [State.sameBut, or_iff_not_imp_left]
  constructor
  · rintro ⟨hticks, hregs, hmem, hflips, hfree, haxle, hturn, hev, hport, hmbx, hsbx, himg, htile, hnet, hserv, hboot, hcpl, hrep,
      hpwr, hthm, hpending⟩ p
    cases p
    exacts [hticks, hregs, hmem, hflips, hfree, haxle, hturn, hev, hport, hmbx, hsbx, himg, htile, hnet, hserv, hboot, hcpl, hrep,
      hpwr, hthm, hpending]
  · intro h
    exact ⟨h .ticks, h .regs, h .mem, h .flips, h .free, h .axle, h .turn, h .ev, h .port, h .mbx, h .sbx, h .img, h .tile, h .net,
      h .serv, h .boot, h .cpl, h .rep, h .pwr, h .thm, h .pending⟩

theorem State.samePart.trans {s t u : State} {p : Part} (h : s.samePart t p) (k : t.samePart u p) : s.samePart u p := by
  cases p <;> exact Eq.trans k h

theorem State.sameBut.refl (s : State) (l : List Part) : s.sameBut s l := by simp [State.sameBut]

theorem State.sameBut.mono {s t : State} {l l' : List Part} (h : s.sameBut t l) (hl : l ⊆ l') : s.sameBut t l' :=
  State.sameBut_iff.2 fun p hp => State.sameBut_iff.1 h p fun hm => hp (hl hm)

theorem State.sameBut.trans {s t u : State} {l : List Part} (h : s.sameBut t l) (k : t.sameBut u l) : s.sameBut u l :=
  State.sameBut_iff.2 fun p hp => (State.sameBut_iff.1 h p hp).trans (State.sameBut_iff.1 k p hp)

/-! ### Setting the fields of a list -/

section
variable {s t : State} {l : List Fld} {f : Fld} (h : s.regsBut t l)
include h

/-- A field of the list may be set. -/
theorem State.regsBut.set (v : Nat) (hf : f ∈ l) : s.regsBut (t.set f v) l :=
  h.trans fun _ hfit hapart => State.get_set_apart t v hfit (hapart _ hf)

theorem State.regsBut.setFlag (b : Bool) (hf : f ∈ l) : s.regsBut (t.setFlag f b) l := h.set _ hf

theorem State.regsBut.inc (d : Nat) (hf : f ∈ l) : s.regsBut (t.inc f d) l := h.set _ hf

/-- A longer list says less. -/
theorem State.regsBut.mono {l' : List Fld} (hl : l ⊆ l') : s.regsBut t l' := fun f hf ha => h f hf fun g hg => ha g (hl hg)

/-- A change outside the registers keeps them. -/
theorem State.regsBut.of_regs {u : State} (hu : u.regs = t.regs) : s.regsBut u l := h.trans (State.regsBut_of_regs hu l)
end

/-- Replacing bits by themselves changes nothing. -/
theorem setBits_self {v lo w x : Nat} (h : bits v lo w = x % 2 ^ w) : setBits v lo w x = v := by
  have hle : bits v lo w * 2 ^ lo ≤ v := calc
    bits v lo w * 2 ^ lo ≤ v / 2 ^ lo * 2 ^ lo := Nat.mul_le_mul_right _ (Nat.mod_le _ _)
    _ ≤ v := Nat.div_mul_le_self _ _
  rw [setBits, ← h, Nat.sub_add_cancel hle]

/-- Setting a field to the value it has changes no field. -/
theorem State.get_set_self {s : State} {f g : Fld} {v : Nat} (h : s.get f = v % 2 ^ f.w) (hg : g.fits) : (s.set f v).get g = s.get g := by
  unfold State.get State.set at *
  rw [setBits_self h]
  by_cases hk : g.key = f.key
  · rw [hk, State.reg_setReg_same, bits_mod _ _ _ _ hg]
  · rw [State.reg_setReg_ne _ _ hk]

/-! ### The axle's own updates -/

/-- Leaving the turn group changes the turn alone. -/
theorem State.leaveGroup_parts (s : State) (why : Nat) : ∃ turn, s.leaveGroup why = { s with turn := turn } := by
  unfold State.leaveGroup
  split
  · exact ⟨_, rfl⟩
  · exact ⟨s.turn, rfl⟩

/-- A slip sets `slip`, raises AXLE_SLIP, and may note that the device leaves its turn group. -/
theorem State.slip_parts (s : State) (v a : Nat) :
    ∃ turn, s.slip v a = { (s.setFlag HEAD_AXLE_STATUS.slip true).raiseHead 17 v a with turn := turn } :=
  State.leaveGroup_parts _ _

@[simp] theorem State.raiseHead_count (s : State) (num a b : Nat) : (s.raiseHead num a b).count = s.count := rfl

/-- The event raised last is one of those on their way. -/
theorem State.lastEvent_congr {s t : State} (h : t.ev = s.ev) : t.lastEvent = s.lastEvent := by rw [State.lastEvent, State.lastEvent, h]

/-- The axle count, outside a list that it is apart from, is as it was. -/
theorem State.regsBut.count {s t : State} {l : List Fld} (h : s.regsBut t l) (hl : ∀ g ∈ l, g.apart HEAD_AXLE_COUNT.count) :
    t.count = s.count := h _ (by decide) hl

/-- A flag that fits, apart from the list, is as it was. -/
theorem State.regsBut.flag {s t : State} {l : List Fld} (h : s.regsBut t l) {f : Fld} (hf : f.fits) (hl : ∀ g ∈ l, g.apart f) :
    t.flag f = s.flag f := by rw [State.flag, State.flag, h f hf hl]

theorem State.lockAxle_lock (s : State) : s.lockAxle.get HEAD_AXLE_STATUS.lock = 1 := by
  rw [State.lockAxle, State.get_setFlag_apart _ _ (by decide) (by decide), State.get_setFlag_apart _ _ (by decide) (by decide),
    State.get_set_same _ _ _ (by decide)]
  rfl

theorem State.lockAxle_regsBut (s : State) :
    s.regsBut s.lockAxle [HEAD_AXLE_STATUS.lock, CLK_STATUS.axle_ready, HEAD_BOOT_STATUS.axle_free] :=
  (((State.regsBut.refl s _).set 1 (by simp)).setFlag true (by simp)).setFlag false (by simp)

theorem State.lockAxle_sameBut (s : State) : s.sameBut s.lockAxle [.regs] := by simp [State.sameBut, State.lockAxle]

theorem State.holdover_lock (s : State) : s.holdover.get HEAD_AXLE_STATUS.lock = 2 := by
  rw [State.holdover, State.get_setFlag_apart _ _ (by decide) (by decide), State.get_set_same _ _ _ (by decide)]
  rfl

theorem State.holdover_regsBut (s : State) : s.regsBut s.holdover [HEAD_AXLE_STATUS.lock, CLK_STATUS.axle_ready] :=
  ((State.regsBut.refl s _).set 2 (by simp)).setFlag false (by simp)

/-- Staying on holdover timing after a slip: the registers of the holdover and of the slip, AXLE_SLIP, and `afterSlip`. -/
theorem State.slipHoldover_parts (s : State) : ∃ turn, s.slipHoldover =
    { (s.holdover.setFlag HEAD_AXLE_STATUS.slip true).raiseHead 17 0 s.count with
      turn := turn, axle := { s.axle with afterSlip := true } } := by
  obtain ⟨turn, h⟩ := s.holdover.slip_parts 0 s.count
  exact ⟨turn, by simp only [State.slipHoldover, h]; rfl⟩

theorem State.slipHoldover_effect (s : State) :
    s.slipHoldover.get HEAD_AXLE_STATUS.lock = 2 ∧ s.slipHoldover.flag HEAD_AXLE_STATUS.slip = true
      ∧ s.slipHoldover.axle.afterSlip = true ∧ s.sameBut s.slipHoldover [.regs, .axle, .turn, .ev]
      ∧ s.regsBut s.slipHoldover [HEAD_AXLE_STATUS.slip, HEAD_AXLE_STATUS.lock, CLK_STATUS.axle_ready] := by
  obtain ⟨turn, h⟩ := s.slipHoldover_parts
  rw [h]
  refine ⟨?_, ?_, rfl, by simp [State.sameBut, State.holdover], ?_⟩
  · exact (State.get_setFlag_apart _ _ (by decide) (by decide)).trans s.holdover_lock
  · exact State.flag_setFlag_same _ _ _ (by decide) rfl
  · exact (((State.regsBut.refl s _).set 2 (by simp)).setFlag false (by simp)).setFlag true (by simp)

/-- In holdover already, the lock keeps its value too. -/
theorem State.slipHoldover_regsBut {s : State} (h : s.get HEAD_AXLE_STATUS.lock = 2) :
    s.regsBut s.slipHoldover [HEAD_AXLE_STATUS.slip, CLK_STATUS.axle_ready] := by
  obtain ⟨turn, heq⟩ := s.slipHoldover_parts
  have hset : s.regsBut (s.set HEAD_AXLE_STATUS.lock 2) [HEAD_AXLE_STATUS.slip, CLK_STATUS.axle_ready] := fun f hf _ =>
    State.get_set_self (by rw [h]; rfl) hf
  exact ((hset.setFlag (f := CLK_STATUS.axle_ready) false (by simp)).setFlag (f := HEAD_AXLE_STATUS.slip) true (by simp)).of_regs
    (by rw [heq]; rfl)

/-- The arms held show in `armed`. -/
theorem State.syncArm_armed (s : State) : s.syncArm.flag HEAD_AXLE_STATUS.armed = s.axle.inForce.isSome := by
  rw [State.syncArm, State.flag, State.get_setFlag_apart _ _ (by decide) (by decide)]
  exact State.flag_setFlag_same _ _ _ (by decide) rfl

theorem State.syncArm_regsBut {s t : State} {l : List Fld} (h : s.regsBut t l) (ha : HEAD_AXLE_STATUS.armed ∈ l)
    (hb : HEAD_AXLE_CTRL.arm ∈ l) : s.regsBut t.syncArm l := (h.setFlag _ ha).setFlag _ hb

theorem State.syncArm_sameBut {s t : State} {l : List Part} (h : s.sameBut t l) (hr : Part.regs ∈ l) : s.sameBut t.syncArm l := by
  simpa [State.sameBut, State.syncArm, hr] using h

@[simp] theorem State.syncArm_axle (s : State) : s.syncArm.axle = s.axle := rfl
@[simp] theorem State.syncArm_port (s : State) : s.syncArm.port = s.port := rfl

/-! ### The axle lock (R61, R62, R539) -/

/-- Settles O8: each clause is one of the three updates of the lock (locked, holdover, holdover after a slip), and none of them
touches the register of the axle count. -/
theorem axleLockStates : Obligations.AxleLockStates := by
  unfold Obligations.AxleLockStates
  refine ⟨?_, ?_, ?_, ?_, ?_, ?_⟩
  · rintro dt s _ rfl hlock href
    have hregs := (s.elapse dt).lockAxle_regsBut
    refine ⟨_, congrArg Host.Outcome.next (if_pos ⟨hlock, href⟩), ?_, rfl, ?_, by simp [State.sameBut, State.lockAxle], hregs.of_regs rfl⟩
    · rw [State.get_mk, State.lockAxle_lock]
    · rw [State.count_mk, hregs.count (by decide)]
  · rintro dt s _ rfl hlock
    have hregs := (s.elapse dt).holdover_regsBut
    refine ⟨_, congrArg Host.Outcome.next (if_pos hlock), ?_, rfl, ?_, ?_, by simp [State.sameBut, State.holdover], hregs.of_regs rfl⟩
    · rw [State.get_mk, State.raiseHead_get, State.holdover_lock]
    · exact (State.lastEvent_congr rfl).trans (State.raiseHead_lastEvent (s.elapse dt).holdover 16 0 0)
    · rw [State.count_mk, State.raiseHead_count, hregs.count (by decide)]
  · rintro dt s _ rfl hlock hal
    obtain ⟨hlock', hslip, hafter, hsame, hregs⟩ := (s.elapse dt).slipHoldover_effect
    exact ⟨_, congrArg Host.Outcome.next (if_pos ⟨hlock, by simp [hal]⟩), hlock', hslip, hafter, hregs.count (by decide), hsame, hregs⟩
  · rintro dt s _ rfl hlock hslip hal
    have hregs := ({ s.elapse dt with axle := { (s.elapse dt).axle with refPresent := true } } : State).lockAxle_regsBut
    refine ⟨_, congrArg Host.Outcome.next ((if_pos ⟨hlock, by rw [hslip]; rfl⟩).trans (if_pos hal)), State.lockAxle_lock _, rfl, ?_,
      by simp [State.sameBut, State.lockAxle], (State.regsBut_of_regs rfl _).trans hregs⟩
    rw [hregs.count (by decide), State.count_mk]
  · rintro dt s _ rfl hlock hslip hal
    obtain ⟨hlock', hslip', hafter, hsame, hregs⟩ :=
      ({ s.elapse dt with axle := { (s.elapse dt).axle with refPresent := true } } : State).slipHoldover_effect
    have hheld := ({ s.elapse dt with axle := { (s.elapse dt).axle with refPresent := true } } : State).slipHoldover_regsBut hlock
    refine ⟨_, congrArg Host.Outcome.next ((if_pos ⟨hlock, by rw [hslip]; rfl⟩).trans (if_neg (by rw [State.aligned_mk, hal]; decide))),
      hlock', hslip', hafter, ?_, by simpa [State.sameBut] using hsame, ?_⟩
    · rw [hregs.count (by decide), State.count_mk]
    · exact (State.regsBut_of_regs rfl _).trans (hheld.mono (by simp))
  · rintro dt s _ rfl hstep hlock href
    have hregs : (s.elapse dt).regsBut ((s.elapse dt).holdover.setFlag HEAD_BOOT_STATUS.axle_free true)
        [HEAD_AXLE_STATUS.lock, CLK_STATUS.axle_ready, HEAD_BOOT_STATUS.axle_free] :=
      ((s.elapse dt).holdover_regsBut.mono (by simp)).setFlag true (by simp)
    refine ⟨_, congrArg Host.Outcome.next (if_pos ⟨hstep, hlock, href⟩), ?_, ?_, State.raiseHead_lastEvent .., ?_,
      by simp [State.sameBut, State.holdover], hregs.of_regs rfl⟩
    · rw [State.raiseHead_get, State.get_setFlag_apart _ _ (by decide) (by decide), State.holdover_lock]
    · rw [State.raiseHead_flag, State.flag_setFlag_same _ _ _ (by decide) rfl]
    · rw [State.raiseHead_count, hregs.count (by decide)]

/-! ### The index (R65) -/

/-- The AXLE clock is locked again where it was on holdover timing after a slip: what else the load leaves is as it was. -/
theorem State.relock_regsBut (s : State) (b : Bool) : s.regsBut (if b then s.lockAxle else s)
    [HEAD_AXLE_STATUS.lock, CLK_STATUS.axle_ready, HEAD_BOOT_STATUS.axle_free] := by
  cases b
  · exact State.regsBut.refl s _
  · exact s.lockAxle_regsBut

theorem State.relock_sameBut (s : State) (b : Bool) : s.sameBut (if b then s.lockAxle else s) [.regs] := by
  cases b
  · simp [State.sameBut]
  · exact s.lockAxle_sameBut

/-- The tick has taken count v, before the clock is locked again and the arm bits follow. -/
def State.counted (s : State) (v : Nat) : State :=
  { ((s.set HEAD_AXLE_COUNT.count v).setFlag HEAD_AXLE_STATUS.loaded true).setFlag HEAD_AXLE_STATUS.slip false with
    axle := { s.axle with inForce := none, afterSlip := false, epoch := s.axle.epoch + 1 } }

theorem State.loadCount_eq (s : State) (v : Nat) : s.loadCount v =
    (if s.axle.afterSlip then (s.counted v).lockAxle else s.counted v).syncArm := rfl

theorem State.counted_count (s : State) (v : Nat) : (s.counted v).count = v % 2 ^ 64 := by
  rw [State.counted, State.count_mk, State.count, State.get_setFlag_apart _ _ (by decide) (by decide),
    State.get_setFlag_apart _ _ (by decide) (by decide), State.get_set_same _ _ _ (by decide)]
  rfl

theorem State.counted_flags (s : State) (v : Nat) :
    (s.counted v).flag HEAD_AXLE_STATUS.loaded = true ∧ (s.counted v).flag HEAD_AXLE_STATUS.slip = false := by
  constructor
  · rw [State.counted, State.flag_mk, State.flag, State.get_setFlag_apart _ _ (by decide) (by decide)]
    exact State.flag_setFlag_same _ _ _ (by decide) rfl
  · rw [State.counted, State.flag_mk, State.flag_setFlag_same _ _ _ (by decide) rfl]

theorem State.counted_regsBut (s : State) (v : Nat) :
    s.regsBut (s.counted v) [HEAD_AXLE_COUNT.count, HEAD_AXLE_STATUS.loaded, HEAD_AXLE_STATUS.slip] :=
  ((((State.regsBut.refl s _).set v (by simp)).setFlag true (by simp)).setFlag false (by simp)).of_regs rfl

/-- Locking again and the arm bits leave the count, `loaded` and `slip` of the load. -/
theorem State.loadCount_counted (s : State) (v : Nat) : (s.counted v).regsBut (s.loadCount v)
    [HEAD_AXLE_STATUS.lock, CLK_STATUS.axle_ready, HEAD_BOOT_STATUS.axle_free, HEAD_AXLE_STATUS.armed, HEAD_AXLE_CTRL.arm] :=
  State.syncArm_regsBut (((s.counted v).relock_regsBut s.axle.afterSlip).mono (by simp)) (by simp) (by simp)

theorem State.loadCount_axle (s : State) (v : Nat) : (s.loadCount v).axle = (s.counted v).axle := by
  rw [State.loadCount_eq, State.syncArm_axle]
  split <;> rfl

/-- What the load of count v leaves. -/
theorem State.loadCount_effect (s : State) (v : Nat) :
    (s.loadCount v).count = v % 2 ^ 64 ∧ (s.loadCount v).flag HEAD_AXLE_STATUS.loaded = true
      ∧ (s.loadCount v).flag HEAD_AXLE_STATUS.slip = false ∧ (s.loadCount v).axle.inForce = none
      ∧ (s.loadCount v).flag HEAD_AXLE_STATUS.armed = false ∧ s.sameBut (s.loadCount v) [.regs, .axle]
      ∧ s.regsBut (s.loadCount v) [HEAD_AXLE_STATUS.lock, HEAD_AXLE_STATUS.loaded, HEAD_AXLE_STATUS.slip, HEAD_AXLE_STATUS.armed,
        HEAD_AXLE_CTRL.arm, HEAD_AXLE_COUNT.count, HEAD_BOOT_STATUS.axle_free, CLK_STATUS.axle_ready] := by
  have hload := s.loadCount_counted v
  obtain ⟨hloaded, hslip⟩ := s.counted_flags v
  have hnone : (s.loadCount v).axle.inForce = none := by rw [State.loadCount_axle]; rfl
  refine ⟨(hload.count (by decide)).trans (s.counted_count v), (hload.flag (by decide) (by decide)).trans hloaded,
    (hload.flag (by decide) (by decide)).trans hslip, hnone, ?_, ?_, ((s.counted_regsBut v).mono (by simp)).trans (hload.mono (by simp))⟩
  · rw [State.loadCount_axle] at hnone
    rw [State.loadCount_eq, State.syncArm_armed, ← State.syncArm_axle, ← State.loadCount_eq, State.loadCount_axle, hnone]
    rfl
  · refine State.syncArm_sameBut (t := if s.axle.afterSlip then (s.counted v).lockAxle else s.counted v) ?_ (by simp)
    exact State.sameBut.trans (by simp [State.sameBut, State.counted]) (((s.counted v).relock_sameBut s.axle.afterSlip).mono (by simp))

/-- The count that a check finds: a match counts, another value slips. -/
theorem State.checkCount_match (s : State) :
    (s.checkCount s.count).get HEAD_AXLE_STATUS.idx_match = min 255 (s.get HEAD_AXLE_STATUS.idx_match + 1)
      ∧ (s.checkCount s.count).axle.inForce = none ∧ (s.checkCount s.count).flag HEAD_AXLE_STATUS.armed = false
      ∧ s.sameBut (s.checkCount s.count) [.regs, .axle]
      ∧ s.regsBut (s.checkCount s.count) [HEAD_AXLE_STATUS.idx_match, HEAD_AXLE_STATUS.armed, HEAD_AXLE_CTRL.arm] := by
  have heq : s.checkCount s.count = ({ s.inc HEAD_AXLE_STATUS.idx_match with axle := { s.axle with inForce := none } } : State).syncArm := by
    simp only [State.checkCount, if_true]; rfl
  rw [heq]
  refine ⟨?_, rfl, State.syncArm_armed _, State.syncArm_sameBut (by simp [State.sameBut]) (by simp),
    State.syncArm_regsBut (((State.regsBut.refl s _).inc 1 (by simp)).of_regs rfl) (by simp) (by simp)⟩
  rw [State.syncArm, State.get_setFlag_apart _ _ (by decide) (by decide), State.get_setFlag_apart _ _ (by decide) (by decide),
    State.get_mk, State.get_inc_same _ _ _ (by decide)]
  rfl

theorem State.checkCount_slip (s : State) {v : Nat} (h : v ≠ s.count) :
    (s.checkCount v).flag HEAD_AXLE_STATUS.slip = true ∧ (s.checkCount v).axle.inForce = none
      ∧ (s.checkCount v).lastEvent = some (17, v % 2 ^ 64, s.count % 2 ^ 64) ∧ (s.checkCount v).flag HEAD_AXLE_STATUS.armed = false
      ∧ s.sameBut (s.checkCount v) [.regs, .axle, .turn, .ev]
      ∧ s.regsBut (s.checkCount v) [HEAD_AXLE_STATUS.slip, HEAD_AXLE_STATUS.armed, HEAD_AXLE_CTRL.arm] := by
  obtain ⟨turn, hslip⟩ := s.slip_parts v s.count
  have heq : s.checkCount v = ({ (s.setFlag HEAD_AXLE_STATUS.slip true).raiseHead 17 v s.count with
      turn := turn, axle := { s.axle with inForce := none } } : State).syncArm := by
    simp only [State.checkCount, if_neg h, hslip]; rfl
  rw [heq]
  refine ⟨?_, rfl, ?_, State.syncArm_armed _, State.syncArm_sameBut (by simp [State.sameBut]) (by simp),
    State.syncArm_regsBut (((State.regsBut.refl s _).setFlag (f := HEAD_AXLE_STATUS.slip) true (by simp)).of_regs rfl) (by simp) (by simp)⟩
  · rw [State.syncArm, State.flag, State.get_setFlag_apart _ _ (by decide) (by decide), State.get_setFlag_apart _ _ (by decide) (by decide)]
    exact State.flag_setFlag_same _ _ _ (by decide) rfl
  · exact (State.lastEvent_congr rfl).trans (State.raiseHead_lastEvent (s.setFlag HEAD_AXLE_STATUS.slip true) 17 v s.count)

/-- Settles O4: the table of R65 row by row, for an index that counts alone, loads the count, finds it, or slips. -/
theorem indexRecognised : Obligations.IndexRecognised := by
  unfold Obligations.IndexRecognised
  refine ⟨?_, ?_, ?_, ?_⟩
  · rintro dt s _ rfl hrec hnone
    have hregs : (s.elapse dt).regsBut ((s.elapse dt).inc HEAD_AXLE_STATUS.idx_unarmed) [HEAD_AXLE_STATUS.idx_unarmed] :=
      (State.regsBut.refl _ _).inc 1 (by simp)
    exact ⟨_, congrArg Host.Outcome.next ((if_pos hrec).trans (by rw [hnone])), State.get_inc_same _ _ _ (by decide),
      hregs.count (by decide), by simp [State.sameBut], hregs⟩
  · rintro dt v s _ rfl hrec hsome hrun
    exact ⟨(s.elapse dt).loadCount v, congrArg Host.Outcome.next ((if_pos hrec).trans (by simp only [hsome, hrun]; rfl)),
      State.loadCount_effect _ v⟩
  · rintro dt v s _ rfl hrec hsome hrun rfl
    obtain ⟨hmatch, hnone, harmed, hsame, hregs⟩ := (s.elapse dt).checkCount_match
    exact ⟨_, congrArg Host.Outcome.next ((if_pos hrec).trans (by simp only [hsome, hrun]; rfl)), hmatch, hregs.count (by decide), hnone,
      harmed, hsame, hregs⟩
  · rintro dt v s _ rfl hrec hsome hrun hv
    obtain ⟨hslip, hnone, hev, harmed, hsame, hregs⟩ := (s.elapse dt).checkCount_slip hv
    exact ⟨_, congrArg Host.Outcome.next ((if_pos hrec).trans (by simp only [hsome, hrun]; rfl)), hslip, hregs.count (by decide), hnone,
      hev, harmed, hsame, hregs⟩

/-! ### The arm (R64) -/

section
variable {s : State} {cmd : Nat} (h : s.cmdRuns 2 [1, 2] = true)
include h

/-- A write of `arm` runs on the state without its payload and answers. -/
theorem State.hostWrite_arm :
    s.hostWrite cmd HEAD_AXLE_CTRL.addr 1 = (((s.takeCommand 2 cmd).armWrite).respond 2 cmd stOk 0 true []).transmit :=
  State.hostWrite_runs (w := wrote _) h (fun role => State.mgmtWrite_axleCtrl _ role 1) rfl

theorem State.hostWrite_disarm :
    s.hostWrite cmd HEAD_AXLE_CTRL.addr 2 = (((s.takeCommand 2 cmd).disarmWrite).respond 2 cmd stOk 0 true []).transmit :=
  State.hostWrite_runs (w := wrote _) h (fun role => State.mgmtWrite_axleCtrl _ role 2) rfl
end

theorem State.takeCommand_sameBut (s : State) (op cmd : Nat) : s.sameBut (s.takeCommand op cmd) [.port] := by simp [State.sameBut]

/-- A multiple of 16 is latched for 1 µs later, and the arm bits follow. -/
theorem State.armWrite_accepted {s : State} (hv : s.get HEAD_AXLE_LOAD.value % 16 = 0) : s.armWrite =
    ({ s with axle := { s.axle with
      pendingArms := s.axle.pendingArms ++ [⟨s.get HEAD_AXLE_LOAD.value, s.ticks + 160⟩] } } : State).syncArm := if_pos hv

theorem State.armWrite_refused {s : State} (hv : s.get HEAD_AXLE_LOAD.value % 16 ≠ 0) :
    s.armWrite = s.setFlag HEAD_AXLE_STATUS.arm_error true := if_neg hv

/-- The arm bits follow a change of the arms, and no other field. -/
theorem State.syncArm_of_axle (s : State) (axle : AxleB) :
    s.regsBut ({ s with axle := axle } : State).syncArm [HEAD_AXLE_STATUS.armed, HEAD_AXLE_CTRL.arm]
      ∧ s.sameBut ({ s with axle := axle } : State).syncArm [.regs, .axle] :=
  ⟨State.syncArm_regsBut (State.regsBut_of_regs rfl _) (by simp) (by simp),
    State.syncArm_sameBut (by simp [State.sameBut]) (by simp)⟩

/-- What an answered write leaves: the frame of its own effect, and the port. -/
theorem State.answer_frame {s u : State} {lf : List Fld} {lp : List Part} (op cmd : Nat) (hregs : (s.takeCommand op cmd).regsBut u lf)
    (hsame : (s.takeCommand op cmd).sameBut u lp) (hp : Part.port ∈ lp) :
    s.regsBut (u.respond op cmd stOk 0 true []).transmit lf ∧ s.sameBut (u.respond op cmd stOk 0 true []).transmit lp := by
  refine ⟨fun f hf ha => ?_, State.sameBut_answer _ _ _ _ (((s.takeCommand_sameBut op cmd).mono (by simpa using hp)).trans hsame) hp⟩
  rw [State.transmit_get, State.respond_get, hregs f hf ha, State.takeCommand_get]

/-- Settles O9: an arm is latched or refused by its V, a disarm drops every arm, and the first pending arm comes into force. -/
theorem armingALoad : Obligations.ArmingALoad := by
  unfold Obligations.ArmingALoad
  refine ⟨?_, ?_, ?_, ?_⟩
  · rintro dt cmd s _ rfl h hv
    refine ⟨_, rfl, ?_⟩
    rw [State.hostWrite_arm h, State.armWrite_accepted (by simpa using hv)]
    obtain ⟨hregs, hsame⟩ := ((s.pass dt).takeCommand 2 cmd).syncArm_of_axle _
    obtain ⟨hregs', hsame'⟩ := State.answer_frame 2 cmd hregs (hsame.mono (l' := [.regs, .axle, .port]) (by simp)) (by simp)
    refine ⟨by simp, hregs'.count (by decide), by simp [stOk], hsame', hregs'⟩
  · rintro dt cmd s _ rfl h hv
    refine ⟨_, rfl, ?_⟩
    rw [State.hostWrite_arm h, State.armWrite_refused (by simpa using hv)]
    obtain ⟨hregs', hsame'⟩ := State.answer_frame (s := s.pass dt) (lf := [HEAD_AXLE_STATUS.arm_error]) (lp := [.regs, .port]) 2 cmd
      ((State.regsBut.refl _ _).setFlag (f := HEAD_AXLE_STATUS.arm_error) true (by simp)) (by simp [State.sameBut]) (by simp)
    refine ⟨?_, by simp, hsame', hregs'⟩
    rw [State.transmit_flag, State.respond_flag, State.flag_setFlag_same _ _ _ (by decide) rfl]
  · rintro dt cmd s _ rfl h
    refine ⟨_, rfl, ?_⟩
    rw [State.hostWrite_disarm h, State.disarmWrite]
    obtain ⟨hregs, hsame⟩ := ((s.pass dt).takeCommand 2 cmd).syncArm_of_axle _
    obtain ⟨hregs', hsame'⟩ := State.answer_frame 2 cmd hregs (hsame.mono (l' := [.regs, .axle, .port]) (by simp)) (by simp)
    refine ⟨by simp, by simp, ?_, hsame', hregs'⟩
    rw [State.transmit_flag, State.respond_flag, State.syncArm_armed]
    rfl
  · rintro dt a rest s _ rfl hpend hdue
    obtain ⟨hregs, hsame⟩ := (s.elapse dt).syncArm_of_axle { (s.elapse dt).axle with pendingArms := rest, inForce := some a.value }
    refine ⟨_, congrArg Host.Outcome.next ?_, rfl, rfl, State.syncArm_armed _, hsame, hregs⟩
    simp only [hpend, hdue, if_true]

/-! ### Steps (R66) -/

/-- Settles O1: the two cases of `step`. -/
theorem stepRunsTheFrontCommand : Obligations.StepRunsTheFrontCommand :=
  ⟨fun c r s h => by rw [step, h], fun s h => by rw [step, h]⟩

/-- Every command keeps what its own meaning keeps (Laws/Keeps.lean): a sound state stays sound, the queue stands, and neither time nor
the count of free values runs back. -/
theorem exec_keeps {c : Instr} {s t : State} (h : exec c s = .next t) : s.Keeps t := by
  cases c with
  | axleLockAcquired => exact execAxleLockAcquired_keeps _ h
  | axleHoldoverEntry => exact execAxleHoldoverEntry_keeps _ h
  | axleRefMisalignedEdge => exact execAxleRefMisalignedEdge_keeps _ h
  | axleRefReturn => exact execAxleRefReturn_keeps _ h
  | axleLockTimeout => exact execAxleLockTimeout_keeps _ h
  | index => exact execIndex_keeps _ h
  | arm => exact execArm_keeps _ _ h
  | disarm => exact execDisarm_keeps _ _ h
  | armTakesEffect => exact execArmTakesEffect_keeps _ h
  | turn0Start => exact execTurn0Start_keeps _ _ h
  | turnBoundary => exact execTurnBoundary_keeps _ _ h
  | insertedSpoke => exact execInsertedSpoke_keeps _ h
  | workEndReached => exact execWorkEndReached_keeps _ h
  | actionProgramStep => exact execActionProgramStep_keeps _ _ _ _ _ h
  | actionCartIssue => exact execActionCartIssue_keeps _ _ _ h
  | actionBarrierArrive => exact execActionBarrierArrive_keeps _ _ _ h
  | actionPush => exact execActionPush_keeps _ _ _ h
  | actionPop => exact execActionPop_keeps _ _ _ h
  | actionFill => exact execActionFill_keeps _ _ _ h
  | actionCopy => exact execActionCopy_keeps _ _ _ h
  | fillCopyComplete => exact execFillCopyComplete_keeps _ _ _ h
  | arrivalDeadlineMissed => exact execArrivalDeadlineMissed_keeps _ _ _ _ _ h
  | holdDataComplete => exact execHoldDataComplete_keeps _ _ h
  | holdInForce => exact execHoldInForce_keeps _ h
  | holdForceEnd => exact execHoldForceEnd_keeps _ h
  | stallWaveItem => exact execStallWaveItem_keeps _ _ _ h
  | scrubChunk => exact execScrubChunk_keeps _ _ _ h
  | wsManagementRead => exact execWsManagementRead_keeps _ _ _ _ h
  | wsManagementWrite => exact execWsManagementWrite_keeps _ _ _ _ _ h
  | waitingPushApplied => exact execWaitingPushApplied_keeps _ _ _ h
  | meshWrite => exact execMeshWrite_keeps _ _ _ h
  | meshReadRequest => exact execMeshReadRequest_keeps _ _ h
  | meshReadResponse => exact execMeshReadResponse_keeps _ _ h
  | meshWriteAck => exact execMeshWriteAck_keeps _ _ h
  | meshErrorResponse => exact execMeshErrorResponse_keeps _ _ h
  | multicastWrite => exact execMulticastWrite_keeps _ _ _ _ _ h
  | circularPush => exact execCircularPush_keeps _ _ h
  | barrierArriveFlit => exact execBarrierArriveFlit_keeps _ _ _ _ h
  | barrierReleaseFlit => exact execBarrierReleaseFlit_keeps _ _ _ _ h
  | managementRequest => exact execManagementRequest_keeps _ _ h
  | managementResponse => exact execManagementResponse_keeps _ _ h
  | eventRecordPacket => exact execEventRecordPacket_keeps _ _ h
  | flitReceive => exact execFlitReceive_keeps _ _ _ _ _ h
  | linkNack => exact execLinkNack_keeps _ _ _ h
  | patternTestComplete => exact execPatternTestComplete_keeps _ _ _ _ h
  | mcastHold => exact execMcastHold_keeps _ _ _ _ h
  | netStall => exact execNetStall_keeps _ _ _ h
  | cartIssueWrite => exact execCartIssueWrite_keeps _ _ _ _ _ h
  | cartDescriptorStart => exact execCartDescriptorStart_keeps _ _ _ _ h
  | cartDescriptorComplete => exact execCartDescriptorComplete_keeps _ _ _ h
  | heartbeatMissing => exact execHeartbeatMissing_keeps _ _ h
  | rerunPoint => exact execRerunPoint_keeps _ h
  | repairCopyPartComplete => exact execRepairCopyPartComplete_keeps _ _ h
  | repairCopyEscalate => exact execRepairCopyEscalate_keeps _ _ h
  | refillComplete => exact execRefillComplete_keeps _ _ _ h
  | advanceCopyComplete => exact execAdvanceCopyComplete_keeps _ h
  | towerChannelFailing => exact execTowerChannelFailing_keeps _ _ _ h
  | channelRestoreComplete => exact execChannelRestoreComplete_keeps _ _ _ _ h
  | watchdogExpiry => exact execWatchdogExpiry_keeps _ _ h
  | guardReportsRunning => exact execGuardReportsRunning_keeps _ _ h
  | admission => exact execAdmission_keeps _ _ h
  | tailCopyComplete => exact execTailCopyComplete_keeps _ _ h
  | submit => exact execSubmit_keeps _ _ h
  | cancel => exact execCancel_keeps _ _ h
  | tokenSampling => exact execTokenSampling_keeps _ _ _ h
  | kvPrefetch => exact execKvPrefetch_keeps _ _ _ h
  | spillWriteComplete => exact execSpillWriteComplete_keeps _ _ _ _ h
  | shadowCopyComplete => exact execShadowCopyComplete_keeps _ _ h
  | shadowSampleMissed => exact execShadowSampleMissed_keeps _ _ h
  | shadowCompareComplete => exact execShadowCompareComplete_keeps _ _ h
  | formatRecipeWrite => exact execFormatRecipeWrite_keeps _ _ _ h
  | wideReqWrite => exact execWideReqWrite_keeps _ _ _ h
  | swapHoldWrite => exact execSwapHoldWrite_keeps _ _ _ h
  | shadowEnableWrite => exact execShadowEnableWrite_keeps _ _ _ h
  | sampProfileWrite => exact execSampProfileWrite_keeps _ _ _ h
  | adapterPtrWrite => exact execAdapterPtrWrite_keeps _ _ _ h
  | modelPtrWrite => exact execModelPtrWrite_keeps _ _ _ h
  | coachOnWrite => exact execCoachOnWrite_keeps _ _ _ h
  | stepCapWrite => exact execStepCapWrite_keeps _ _ _ h
  | prefixFlush => exact execPrefixFlush_keeps _ _ h
  | hazardClear => exact execHazardClear_keeps _ _ _ h
  | coachResetRequest => exact execCoachResetRequest_keeps _ _ _ h
  | coachResetDone => exact execCoachResetDone_keeps _ _ h
  | atbSelect => exact execAtbSelect_keeps _ _ _ _ h
  | atbConnect => exact execAtbConnect_keeps _ _ h
  | clkGate => exact execClkGate_keeps _ _ _ _ _ h
  | clkUngate => exact execClkUngate_keeps _ _ _ _ _ h
  | clkSwitch => exact execClkSwitch_keeps _ _ _ _ _ h
  | pllReady => exact execPllReady_keeps _ _ _ h
  | pllLockLost => exact execPllLockLost_keeps _ _ _ h
  | clockSourceLost => exact execClockSourceLost_keeps _ _ h
  | oscDelayExpiry => exact execOscDelayExpiry_keeps _ h
  | refclkMeasurement => exact execRefclkMeasurement_keeps _ _ h
  | refclkFail => exact execRefclkFail_keeps _ h
  | eventArrival => exact execEventArrival_keeps _ _ h
  | eventSelect => exact execEventSelect_keeps _ _ h
  | eventDeliver => exact execEventDeliver_keeps _ _ h
  | guardEndOfService => exact execGuardEndOfService_keeps _ _ h
  | eventRecordEmit => exact execEventRecordEmit_keeps _ h
  | telemetryPeriod => exact execTelemetryPeriod_keeps _ h
  | progressRecord => exact execProgressRecord_keeps _ h
  | streamRoomReturns => exact execStreamRoomReturns_keeps _ h
  | read => exact execRead_keeps _ _ _ h
  | write => exact execWrite_keeps _ _ _ _ h
  | readBlock => exact execReadBlock_keeps _ _ _ _ h
  | writeBlock => exact execWriteBlock_keeps _ _ _ _ h
  | imageStart => exact execImageStart_keeps _ _ _ h
  | imageStop => exact execImageStop_keeps _ _ h
  | sessionClose => exact execSessionClose_keeps _ _ h
  | raw => exact execRaw_keeps _ _ _ _ _ _ _ h
  | imageLoad => exact execImageLoad_keeps _ _ _ _ _ h
  | modelStage => exact execModelStage_keeps _ _ _ h
  | drainReload => exact execDrainReload_keeps _ _ _ h
  | adapterLoad => exact execAdapterLoad_keeps _ _ _ _ h
  | towerStage => exact execTowerStage_keeps _ _ _ h
  | attest => exact execAttest_keeps _ _ _ h
  | zeroise => exact execZeroise_keeps _ _ _ h
  | coachRepair => exact execCoachRepair_keeps _ _ _ h
  | couplingTrain => exact execCouplingTrain_keeps _ _ _ h
  | defectClear => exact execDefectClear_keeps _ _ _ _ h
  | warmReset => exact execWarmReset_keeps _ _ h
  | longCommandTimeout => exact execLongCommandTimeout_keeps _ h
  | bulkDataTimeout => exact execBulkDataTimeout_keeps _ h
  | bulkFrame => exact execBulkFrame_keeps _ h
  | dataFrame => exact execDataFrame_keeps _ _ h
  | linkControlFrame => exact execLinkControlFrame_keeps _ _ h
  | resendTimeout => exact execResendTimeout_keeps _ _ h
  | controlLinkDown => exact execControlLinkDown_keeps _ _ h
  | controlLinkUp => exact execControlLinkUp_keeps _ h
  | handshakeH1 => exact execHandshakeH1_keeps _ _ h
  | handshakeH2 => exact execHandshakeH2_keeps _ _ h
  | handshakeTimeout => exact execHandshakeTimeout_keeps _ h
  | keyPhaseAdvance => exact execKeyPhaseAdvance_keeps _ h
  | mbxSend => exact execMbxSend_keeps _ _ _ _ _ _ h
  | mbxRecv => exact execMbxRecv_keeps _ _ _ _ _ h
  | mbxRing => exact execMbxRing_keeps _ _ _ _ _ _ h
  | mbxStatusRead => exact execMbxStatusRead_keeps _ _ _ _ _ h
  | mbxBellClear => exact execMbxBellClear_keeps _ _ _ _ _ _ h
  | mbxMaskWrite => exact execMbxMaskWrite_keeps _ _ _ _ _ _ h
  | mbxCtrlWrite => exact execMbxCtrlWrite_keeps _ _ _ _ _ _ h
  | mbxTimeout => exact execMbxTimeout_keeps _ _ _ h
  | couplingBlockReceive => exact execCouplingBlockReceive_keeps _ _ _ h
  | couplingReplay => exact execCouplingReplay_keeps _ _ h
  | couplingTrainingEnd => exact execCouplingTrainingEnd_keeps _ _ _ _ _ h
  | memberNumberFlit => exact execMemberNumberFlit_keeps _ _ _ h
  | laneMirrorRequest => exact execLaneMirrorRequest_keeps _ _ _ h
  | laneSwitchRequest => exact execLaneSwitchRequest_keeps _ _ _ h
  | laneSwitch => exact execLaneSwitch_keeps _ _ h
  | remoteWrite => exact execRemoteWrite_keeps _ _ _ h
  | multicastWriteTx => exact execMulticastWriteTx_keeps _ _ _ h
  | writeAckTx => exact execWriteAckTx_keeps _ _ _ h
  | errorResponseTx => exact execErrorResponseTx_keeps _ _ _ h
  | barrierArriveTx => exact execBarrierArriveTx_keeps _ _ _ h
  | barrierReleaseTx => exact execBarrierReleaseTx_keeps _ _ _ h
  | collectiveContribution => exact execCollectiveContribution_keeps _ _ _ h
  | collectiveComplete => exact execCollectiveComplete_keeps _ _ h
  | reduceComplete => exact execReduceComplete_keeps _ _ h
  | turnMessage => exact execTurnMessage_keeps _ _ _ h
  | rawRequest => exact execRawRequest_keeps _ _ _ h
  | rawResponse => exact execRawResponse_keeps _ _ _ h
  | sectionWrite => exact execSectionWrite_keeps _ _ _ h
  | railBusResponse => exact execRailBusResponse_keeps _ _ h
  | railAlert => exact execRailAlert_keeps _ _ h
  | railStatusPoll => exact execRailStatusPoll_keeps _ _ h
  | setPointSettled => exact execSetPointSettled_keeps _ h
  | powerDroop => exact execPowerDroop_keeps _ _ _ h
  | supplyShort => exact execSupplyShort_keeps _ _ h
  | powerLimitExceeded => exact execPowerLimitExceeded_keeps _ _ h
  | powerHoldRelease => exact execPowerHoldRelease_keeps _ _ h
  | powerOnStageAdvance => exact execPowerOnStageAdvance_keeps _ _ h
  | powerOnFail => exact execPowerOnFail_keeps _ _ h
  | coachTilesResetDone => exact execCoachTilesResetDone_keeps _ _ h
  | idleBoundary => exact execIdleBoundary_keeps _ _ h
  | sensorSample => exact execSensorSample_keeps _ _ h
  | sensorSkew => exact execSensorSkew_keeps _ _ h
  | referenceUpdate => exact execReferenceUpdate_keeps _ h
  | coolStatFrame => exact execCoolStatFrame_keeps _ _ h
  | coolLost => exact execCoolLost_keeps _ h
  | fastThrottleIn => exact execFastThrottleIn_keeps _ h
  | thermalSustained => exact execThermalSustained_keeps _ h
  | holdStateEntry => exact execHoldStateEntry_keeps _ h
  | roofShutdownCheck => exact execRoofShutdownCheck_keeps _ h
  | holdStateExit => exact execHoldStateExit_keeps _ h
  | rotation => exact execRotation_keeps _ _ h
  | pwrgoodRise => exact execPwrgoodRise_keeps _ _ h
  | pwrgoodLost => exact execPwrgoodLost_keeps _ h
  | powerOnResetEntry => exact execPowerOnResetEntry_keeps _ h
  | resetN => exact execResetN_keeps _ h
  | startupStepComplete => exact execStartupStepComplete_keeps _ _ h
  | startupStepTimeout => exact execStartupStepTimeout_keeps _ _ h
  | sbxAlarm => exact execSbxAlarm_keeps _ _ h
  | sbxPolicyWrite => exact execSbxPolicyWrite_keeps _ _ _ h
  | allowDebugClear => exact execAllowDebugClear_keeps _ _ h
  | allowServiceClear => exact execAllowServiceClear_keeps _ _ h
  | keyEnrol => exact execKeyEnrol_keeps _ _ _ h
  | keyRemove => exact execKeyRemove_keeps _ _ _ h
  | flashWindowWrite => exact execFlashWindowWrite_keeps _ _ _ _ h
  | tapReset => exact execTapReset_keeps _ h
  | extest => exact execExtest_keeps _ _ _ h
  | samplePreload => exact execSamplePreload_keeps _ _ _ h
  | idcode => exact execIdcode_keeps _ h
  | statusRead => exact execStatusRead_keeps _ h
  | atbSel => exact execAtbSel_keeps _ _ h
  | bypass => exact execBypass_keeps _ h
  | productionInstruction => exact execProductionInstruction_keeps _ _ h
  | extestEnd => exact execExtestEnd_keeps _ h
  | fastThrottleDeasserted => exact execFastThrottleDeasserted_keeps _ h
  | laneLosesSignal => exact execLaneLosesSignal_keeps _ _ _ h
  | watchdogRestart => exact execWatchdogRestart_keeps _ _ h
  | guardMaskWrite => exact execGuardMaskWrite_keeps _ _ _ _ h
  | globalDisableWrite => exact execGlobalDisableWrite_keeps _ _ h
  | guardCoachOnWrite => exact execGuardCoachOnWrite_keeps _ _ h
  | guardAsleep => exact execGuardAsleep_keeps _ _ h
  | guardWakes => exact execGuardWakes_keeps _ _ h
  | hostHoldRaise => exact execHostHoldRaise_keeps _ h
  | hostHoldWithdraw => exact execHostHoldWithdraw_keeps _ h
  | zeroiseComplete => exact execZeroiseComplete_keeps _ h
  | reloadComplete => exact execReloadComplete_keeps _ h
  | atbDiodeReturn => exact execAtbDiodeReturn_keeps _ _ h

/-- Settles O58: three of the facts that every command keeps. -/
theorem queueAndTime : Obligations.QueueAndTime := fun _ _ _ h => ⟨(exec_keeps h).queue, (exec_keeps h).time, (exec_keeps h).free⟩

/-! ### The state after reset (R66, R389, R507) -/

/-- Reset registers read as their Reset column. -/
theorem State.reset_get (f : Fld) : State.reset.get f = bits (regDefault f.key) f.lo f.w := rfl

theorem eventGuard_lt (n : Nat) : eventGuard n < 4 := by
  unfold eventGuard
  dsimp only
  repeat' split
  all_goals omega

/-- A field of EVT_SRC_n of one of the 256 sources reads its routing and its stream bit. -/
theorem State.reset_get_evtSrc {f : Fld} {n : Nat} (hf : f.key = 0x1C1000) (hn : n < 256) :
    State.reset.get (f.src n) = bits (evtSrcReset n) f.lo f.w := by
  have hlow : (0x1C1000 + 8 * n) % 0x1000000000000 = 0x1C1000 + 8 * n := Nat.mod_eq_of_lt (by omega)
  have hindex : (0x1C1000 + 8 * n - 0x1C1000) / 8 = n := by omega
  simp only [State.reset_get, Fld.src, Fld.off, hf, regDefault, hlow, hindex]
  rw [if_pos (by omega)]

/-- The stream bit of the reset value is 1 for the sources below 192, the mask and the pending bit are 0. -/
theorem evtSrcReset_bits (n : Nat) : bits (evtSrcReset n) 58 1 = (if n < 192 then 1 else 0) ∧ bits (evtSrcReset n) 59 1 = 0
    ∧ bits (evtSrcReset n) 63 1 = 0 := by
  have hguard := eventGuard_lt n
  simp only [bits, evtSrcReset]
  split <;> omega

/-- Settles O3: a register that nothing has written reads its Reset column. -/
theorem soundAtReset : Obligations.SoundAtReset := by
  refine ⟨⟨rfl, rfl, by decide, by decide, rfl⟩, rfl, rfl, by decide, by decide, ?_, ?_, ?_, by decide, by decide⟩
  · intro n hn
    have hbit : State.reset.get (EVT_SRC_n.stream.src n) = 1 :=
      (State.reset_get_evtSrc rfl (by omega)).trans ((evtSrcReset_bits n).1.trans (if_pos hn))
    rw [State.flag, hbit]; rfl
  · intro n hlo hn
    have hbit : State.reset.get (EVT_SRC_n.stream.src n) = 0 :=
      (State.reset_get_evtSrc rfl hn).trans ((evtSrcReset_bits n).1.trans (if_neg (by omega)))
    rw [State.flag, hbit]; rfl
  · intro n hn
    obtain ⟨-, hmask, hpending⟩ := evtSrcReset_bits n
    have hm : State.reset.get (EVT_SRC_n.mask.src n) = 0 := (State.reset_get_evtSrc rfl hn).trans hmask
    have hp : State.reset.get (EVT_SRC_n.pending.src n) = 0 := (State.reset_get_evtSrc rfl hn).trans hpending
    rw [State.flag, State.flag, hm, hp]
    exact ⟨rfl, rfl⟩

end Sys2Proof.Machine
end

section
/-! PROOFS. Holds in force (R83, R315): a freeze pauses the carts that move. -/

set_option Elab.async false

namespace Sys2Proof.Machine

/-- An image runs in spoke 500, with a hold for a tower refresh raised in spoke 490 and in force, while channel 0 of tile 0 runs a
move of VC0 (R309). -/
def movingCartState : State :=
  { ((State.reset.set HEAD_AXLE_COUNT.count 4000).set HEAD_IMAGE_STATUS.state 3).set (TILE_CART_STATUS_n.state.cart 0 0) 1 with
    turn := { holds := [⟨0, 1, 490, none, none, 0, none⟩], nextHold := 1 }
    net := { carts := [(0, ⟨[], none, some ⟨⟨0, 0, 0, 0, 0, 0, 0, 0, 0, 0, 0, 0, 0, 0, true⟩, 0, 0, [], [], 0, [], false⟩, 1⟩)] } }

/-- The freeze pauses the channel: its state goes from 1, running, to 3 (R315). -/
theorem movingCartState_paused : ((movingCartState.pass 0).pauseCarts.syncPhase).get (TILE_CART_STATUS_n.state.cart 0 0) = 3 := by
  decide +kernel

theorem movingCartState_runs : (movingCartState.pass 0).get (TILE_CART_STATUS_n.state.cart 0 0) = 1 := by
  decide +kernel

/-- Refutes O34: its fourth clause says that a spoke in which a hold of another cause than 6 is in force changes no register field but
the phase. A cart channel that moves data over VC0 to VC2 is paused by the freeze, and TILE_CART_STATUS_n shows it (R315). -/
theorem not_holdsInForce : ¬ Obligations.HoldsInForce := by
  unfold Obligations.HoldsInForce
  rintro ⟨-, -, -, hforce, -⟩
  have hturn : (movingCartState.pass 0).inTurn = true := by decide +kernel
  have hin : (movingCartState.pass 0).inForce (movingCartState.pass 0).spoke = true := by decide +kernel
  have hsix : (movingCartState.pass 0).causeInForce 6 (movingCartState.pass 0).spoke = false := by decide +kernel
  obtain ⟨t, ht, -, -, -, -, -, hregs⟩ := hforce 0 movingCartState _ rfl hturn hin hsix
  have hexec : exec (.holdInForce 0) movingCartState = .next ((movingCartState.pass 0).pauseCarts.syncPhase) :=
    congrArg Host.Outcome.next ((if_pos ⟨by decide +kernel, hin⟩).trans (if_neg (by decide +kernel)))
  cases hexec.symm.trans ht
  have hsame := hregs (TILE_CART_STATUS_n.state.cart 0 0) (by decide) (by decide)
  rw [movingCartState_paused, movingCartState_runs] at hsame
  exact absurd hsame (by decide)

end Sys2Proof.Machine
end

section
/-! PROOFS. Images and maintenance (R76, R322, R389, R398, R441, R442): what stopping an image and isolating a coach leave alone, and the
commands themselves. -/

set_option Elab.async false

namespace Sys2Proof.Machine

/-! ### Frames of the shared operations -/

/-- Runs of updates keep what each of them keeps. -/
theorem State.sameBut.foldl {α : Type} {s t : State} {l : List Part} {f : State → α → State} {xs : List α} (h : s.sameBut t l)
    (hf : ∀ t x, s.sameBut t l → s.sameBut (f t x) l) : s.sameBut (xs.foldl f t) l := by
  induction xs generalizing t with
  | nil => exact h
  | cons x xs ih => exact ih (hf t x h)

theorem State.sameBut.ite {s a b : State} {l : List Part} {c : Prop} [Decidable c] (ha : s.sameBut a l) (hb : s.sameBut b l) :
    s.sameBut (if c then a else b) l := by
  split <;> assumption

section
variable {s t : State} {l : List Part} (h : s.sameBut t l)
include h

/-- A register may be written where the list has the registers. -/
theorem State.sameBut.set (f : Fld) (v : Nat) (hl : Part.regs ∈ l) : s.sameBut (t.set f v) l :=
  h.trans (by simp [State.sameBut, hl])

theorem State.sameBut.setFlag (f : Fld) (b : Bool) (hl : Part.regs ∈ l) : s.sameBut (t.setFlag f b) l := h.set f _ hl

theorem State.sameBut.setServ (f : ServB → ServB) (hl : Part.serv ∈ l) : s.sameBut (t.setServ f) l :=
  h.trans (by simp [State.sameBut, hl])

theorem State.sameBut.updReq (id : Nat) (f : Req → Req) (hl : Part.serv ∈ l) : s.sameBut (t.updReq id f) l :=
  h.trans (by simp [State.sameBut, State.updReq, State.mapReqs, hl])

theorem State.sameBut.pwr (p : PwrB) (hl : Part.pwr ∈ l) : s.sameBut { t with pwr := p } l := h.trans (by simp [State.sameBut, hl])

theorem State.sameBut.wrBytes (a : Nat) (bs : List Byte) (hl : Part.mem ∈ l) : s.sameBut (t.wrBytes a bs) l :=
  h.trans (by simp [State.sameBut, hl])
end

/-! ### Stopping an image (R76) -/

/-- What stopping an image may change. -/
def stopParts : List Part := [.regs, .mem, .turn, .img, .tile, .net, .serv, .rep]

theorem State.withdrawHolds_sameBut (s : State) (c : Nat) (p : Hold → Bool) : s.sameBut (s.withdrawHolds c p) stopParts := by
  unfold State.withdrawHolds State.sendWave
  refine State.sameBut.ite (State.sameBut.ite ?_ ?_) ?_ <;> simp [State.sameBut, stopParts]

theorem State.wrRegion_sameBut (s : State) (r off mirror : Nat) (bs : List Byte) : s.sameBut (s.wrRegion r off mirror bs) stopParts := by
  have h : s.sameBut (if s.towerShut r then s else s.wrBytes (ringRegion r + off) bs) stopParts :=
    State.sameBut.ite (State.sameBut.refl s _) ((State.sameBut.refl s _).wrBytes _ _ (by decide))
  exact State.sameBut.ite h (h.wrBytes _ _ (by decide))

theorem State.produce_sameBut (s : State) (ring kind code tag value pos : Nat) (slot : Bool) :
    s.sameBut (s.produce ring kind code tag value pos slot) stopParts :=
  State.sameBut.ite (State.sameBut.refl s _)
    (((State.wrRegion_sameBut s _ _ _ _).setServ _ (by decide)).set _ _ (by decide))

theorem State.freeSlot_sameBut (s : State) (r : Req) : s.sameBut (s.freeSlot r) stopParts := State.wrRegion_sameBut ..

theorem State.forget_sameBut (s : State) (id : Nat) : s.sameBut (s.forget id) stopParts := by
  unfold State.forget
  split
  · exact State.sameBut.refl s _
  · exact ((((State.sameBut.refl s _).setServ _ (by decide)).set _ _ (by decide)).setServ _ (by decide)).setServ _ (by decide)

theorem State.endReq_sameBut (s : State) (id code : Nat) : s.sameBut (s.endReq id code) stopParts := by
  unfold State.endReq
  split
  · exact State.sameBut.refl s _
  · next r _ =>
    have h := State.produce_sameBut s r.ring 2 code r.tag r.gen.length 0 r.inSlot
    have hslot : s.sameBut (if r.inSlot then s.produce r.ring 2 code r.tag r.gen.length 0 r.inSlot
        else (s.produce r.ring 2 code r.tag r.gen.length 0 r.inSlot).freeSlot r) stopParts :=
      State.sameBut.ite h (h.trans (State.freeSlot_sameBut _ _))
    exact (((hslot.setServ _ (by decide)).updReq id _ (by decide)).setServ _ (by decide))

theorem State.endAdmitted_sameBut (s : State) (code : Nat) : s.sameBut (s.endAdmitted code) stopParts :=
  ((((State.sameBut.refl s _).foldl fun t r h => h.trans (State.endReq_sameBut t r.id code)).foldl fun t r h =>
    (State.sameBut.ite (h.trans (State.freeSlot_sameBut t r)) h).trans (State.forget_sameBut _ _)).setFlag _ _ (by decide)).setServ _
      (by decide)

theorem State.emptyCarts_sameBut (s : State) : s.sameBut s.emptyCarts stopParts :=
  (State.sameBut.refl s _).foldl fun t p h => h.trans (by simp [State.sameBut, stopParts])

theorem State.withdrawAll_sameBut (s : State) : s.sameBut s.withdrawAll stopParts :=
  (State.sameBut.refl s _).foldl fun t c h => h.trans (State.withdrawHolds_sameBut t c _)

theorem State.stopImage_sameBut (s : State) : s.sameBut s.stopImage stopParts := by
  have h : s.sameBut (s.withdrawAll.endAdmitted 5).emptyCarts stopParts :=
    (s.withdrawAll_sameBut.trans (State.endAdmitted_sameBut _ 5)).trans (State.emptyCarts_sameBut _)
  exact h.trans (by simp [State.sameBut, stopParts, State.stopImage])

theorem State.syncPhase_sameBut (s : State) : s.sameBut s.syncPhase [.regs] :=
  State.sameBut.ite (State.sameBut.refl s _) (by simp [State.sameBut])

theorem State.syncPhase_regsBut (s : State) : s.regsBut s.syncPhase [HEAD_TURN_STATE.phase] := by
  unfold State.syncPhase
  split
  · exact State.regsBut.refl s _
  · exact (State.regsBut.refl s _).set _ (by simp)

/-- The image's state is set, and the phase follows it. -/
theorem State.setImageState_effect (s : State) (v : Nat) :
    (s.setImageState v).get HEAD_IMAGE_STATUS.state = v % 2 ^ HEAD_IMAGE_STATUS.state.w ∧ s.sameBut (s.setImageState v) [.regs]
      ∧ s.regsBut (s.setImageState v) [HEAD_IMAGE_STATUS.state, HEAD_TURN_STATE.phase] := by
  refine ⟨?_, ?_, ?_⟩
  · exact (State.syncPhase_regsBut _ _ (by decide) (by decide)).trans (State.get_set_same _ _ _ (by decide))
  · exact State.sameBut.trans (by simp [State.sameBut]) (State.syncPhase_sameBut _)
  · exact ((State.regsBut.refl s _).set _ (by simp)).trans ((State.syncPhase_regsBut _).mono (by simp))

/-! ### Isolating a coach (R441) -/

/-- What opening a coach's switches may change. -/
def openParts : List Part := [.regs, .mem, .flips, .boot, .pwr]

theorem State.wipe_sameBut (s : State) (lo hi : Nat) : s.sameBut (s.wipe lo hi) openParts := by simp [State.sameBut, openParts]

theorem State.openPin_sameBut (s : State) (n : Nat) : s.sameBut (s.openPin n) openParts := by
  unfold State.openPin
  split
  · exact State.sameBut.ite (by simp [State.sameBut, openParts]) (by simp [State.sameBut, openParts])
  · simp [State.sameBut, openParts]

theorem State.loseQuadrants_sameBut (s : State) (c : Nat) : s.sameBut (s.loseQuadrants c) openParts :=
  (State.sameBut.refl s _).foldl fun t n h => h.trans (by simp [State.sameBut, openParts])

theorem State.loseRoof_sameBut (s : State) (c : Nat) : s.sameBut (s.loseRoof c) openParts :=
  ((((State.sameBut.refl s _).foldl fun t n h => (h.trans (State.wipe_sameBut t _ _)).trans (State.wipe_sameBut _ _ _)).trans
    (State.wipe_sameBut _ _ _)).trans (State.wipe_sameBut _ _ _)).setFlag _ _ (by decide)

theorem State.openCoach_sameBut (s : State) (c st : Nat) : s.sameBut (s.openCoach c st) openParts :=
  ((((((State.sameBut.refl s _).foldl fun t n h => State.sameBut.ite (h.trans (State.openPin_sameBut t n)) h).foldl fun t d h =>
    (h.set _ _ (by decide)).set _ _ (by decide)).foldl fun t n h => h.set _ _ (by decide)).trans (State.loseQuadrants_sameBut _ c)).trans
    (State.loseRoof_sameBut _ c)).pwr _ (by decide)

theorem State.addDefect_sameBut (s : State) (w : Nat) : s.sameBut (s.addDefect w) [.regs, .ev, .sbx, .rep] :=
  State.sameBut.ite (by simp [State.sameBut]) (State.sameBut.ite (by simp [State.sameBut]) (by simp [State.sameBut, State.alarm]))

theorem State.addDefect_isolated (s : State) (w : Nat) : (s.addDefect w).rep.isolated = s.rep.isolated := by
  unfold State.addDefect State.alarm
  dsimp only
  split
  · simp
  · split <;> simp

theorem State.sendRail_sameBut (s : State) (rail op data : Nat) : s.sameBut (s.sendRail rail op data) [.regs, .pwr] :=
  State.sameBut.ite (State.sameBut.refl s _) (State.sameBut.ite (by simp [State.sameBut]) (by simp [State.sameBut]))

/-- A coach in use is isolated: its switches open, it has its entry of the map, and it joins the isolated ones. -/
theorem State.isolate_effect {s : State} {c : Nat} (h : s.rep.isolated.contains c = false) :
    (s.isolate c).rep.isolated = s.rep.isolated ++ [c] ∧ s.sameBut (s.isolate c) [.regs, .mem, .flips, .ev, .sbx, .boot, .rep, .pwr] := by
  have hopen := State.openCoach_sameBut s c 4
  have hrep := State.sameBut_iff.1 hopen .rep (by decide)
  have hmap := State.addDefect_sameBut (s.openCoach c 4) (defectWord 2 c 0 0)
  have hold : ((s.openCoach c 4).addDefect (defectWord 2 c 0 0)).rep.isolated = s.rep.isolated :=
    (State.addDefect_isolated _ _).trans (congrArg _ hrep)
  have hrails (u : State) : u.sameBut ((((u.sendRail c 5 0).sendRail (0x40 + c) 5 0).set HEAD_DEVICE_ID.good_coaches
      (s.get HEAD_DEVICE_ID.good_coaches - 1)).syncReserves) [.regs, .pwr] :=
    ((((State.sendRail_sameBut u _ _ _).trans (State.sendRail_sameBut _ _ _ _)).set _ _ (by decide)).set _ _ (by decide)).set _ _ (by decide)
  rw [State.isolate, if_neg (by rw [h]; exact Bool.false_ne_true)]
  constructor
  · exact (congrArg _ (State.sameBut_iff.1 (hrails _) .rep (by decide))).trans (congrArg (· ++ [c]) hold)
  · exact (((hopen.mono (by decide)).trans (hmap.mono (by decide))).trans (by simp [State.sameBut])).trans ((hrails _).mono (by decide))

/-! ### Long commands (R395, R399) -/

/-- A long command that has started answers OK, is the running one, and shows in its register. -/
theorem State.startLong_effect (s : State) (op cmd want : Nat) (bulk : Bool) (args : List Nat) (broadcast : Bool) :
    (s.startLong op cmd want bulk args broadcast).lastResponse = some ⟨op, stOk, 0, cmd, false, []⟩
      ∧ (s.startLong op cmd want bulk args broadcast).port.long = some ⟨op, cmd, s.ticks, s.ticks, 0, want, bulk, args, broadcast⟩
      ∧ s.sameBut (s.startLong op cmd want bulk args broadcast) [.regs, .port]
      ∧ s.regsBut (s.startLong op cmd want bulk args broadcast) [CTL_PORT_STATUS.long_cmd] := by
  refine ⟨?_, rfl, by simp [State.sameBut, State.startLong], ?_⟩
  · exact List.getLast?_concat
  · exact ((State.regsBut.of_regs (State.regsBut.refl s _) (u := s.respond op cmd stOk 0 false []) rfl).set op (by simp)).of_regs rfl

/-- The end of the running long command: its final response, and none runs. -/
theorem State.endLong_effect {s : State} {c : LongCmd} (h : s.port.long = some c) (st d : Nat) (r : List Byte) :
    (s.endLong st d r).lastResponse = some ⟨c.opcode, st, d, c.cmdId, true, r⟩ ∧ (s.endLong st d r).port.long = none
      ∧ s.sameBut (s.endLong st d r) [.regs, .port] ∧ s.regsBut (s.endLong st d r) [CTL_PORT_STATUS.long_cmd] := by
  simp only [State.endLong, h]
  refine ⟨by simp, by rw [State.transmit_port_long]; rfl, by simp [State.sameBut], ?_⟩
  exact (((State.regsBut.of_regs (State.regsBut.refl s _) (u := { s with port := { s.port with long := none } }) rfl).set
    (f := CTL_PORT_STATUS.long_cmd) 0 (by simp)).of_regs (by simp))

theorem State.respond_sameBut (s : State) (op cmd st d : Nat) (fin : Bool) (r : List Byte) :
    s.sameBut (s.respond op cmd st d fin r) [.port] := by
  simp [State.sameBut]

theorem State.transmit_sameBut (s : State) : s.sameBut s.transmit [.port] := by simp [State.sameBut]

/-- What an answered command leaves: what its effect on the state without the payload leaves, and the port. -/
theorem State.answered {s u : State} {l : List Part} (op cmd st d : Nat) (fin : Bool) (r : List Byte)
    (h : (s.takeCommand op cmd).sameBut u l) (hp : Part.port ∈ l) : s.sameBut (u.respond op cmd st d fin r).transmit l :=
  have hl : [Part.port] ⊆ l := by simpa using hp
  ((((s.takeCommand_sameBut op cmd).mono hl).trans h).trans ((u.respond_sameBut op cmd st d fin r).mono hl)).trans
    ((State.transmit_sameBut _).mono hl)

/-- A command's effect that answers by itself. -/
theorem State.commanded {s u : State} {l : List Part} (op cmd : Nat) (h : (s.takeCommand op cmd).sameBut u l) (hp : Part.port ∈ l) :
    s.sameBut u.transmit l :=
  have hl : [Part.port] ⊆ l := by simpa using hp
  (((s.takeCommand_sameBut op cmd).mono hl).trans h).trans ((State.transmit_sameBut _).mono hl)

theorem State.transmit_transcript (s : State) : s.transmit.port.transcript = s.port.transcript := by
  obtain ⟨l, n, o, h⟩ := State.transmit_same s
  rw [h]

/-! ### The commands -/

@[simp] theorem State.takeCommand_running (s : State) (op cmd : Nat) : (s.takeCommand op cmd).running = s.running := by
  simp [State.running]

@[simp] theorem State.takeCommand_count (s : State) (op cmd : Nat) : (s.takeCommand op cmd).count = s.count := by simp [State.count]

@[simp] theorem State.takeCommand_peerWrong (s : State) (op cmd : Nat) (i : Image) :
    (s.takeCommand op cmd).peerWrong i = s.peerWrong i := by
  simp [State.peerWrong]

/-- The state in which IMAGE_START leaves the turns. -/
def State.startsAt (s : State) (c : Nat) : State :=
  { s with turn := { s.turn with startAt := some c, stopCmd := none, leave := none, serials := [] } }

/-- A start within its bounds names its count and shows state 3. -/
theorem execImageStart_accepted {dt cmd c : Nat} {i : Image} {s : State} (hrun : (s.pass dt).cmdRuns 0x20 [1, 2] = true)
    (himg : (s.pass dt).img.image = some i) (hstate : (s.pass dt).get HEAD_IMAGE_STATUS.state = 2)
    (hloaded : (s.pass dt).flag HEAD_AXLE_STATUS.loaded = true) (hmul : c % 8 = 0) (hlo : (s.pass dt).count + 160000 ≤ c)
    (hhi : c ≤ (s.pass dt).count + 1600000000) (hpeer : (s.pass dt).peerWrong i = false) :
    execImageStart dt cmd c s =
      .next ((((((s.pass dt).takeCommand 0x20 cmd).startsAt c).setImageState 3).respond 0x20 cmd stOk 0 true (word8 c)).transmit) := by
  have hbounds : ¬ (c < (s.pass dt).count + usTicks 1000 ∨ (s.pass dt).count + usTicks 10000000 < c) := by
    simp only [usTicks]; omega
  refine congrArg Host.Outcome.next ((State.command_runs _ hrun).trans (congrArg State.transmit ?_))
  simp [himg, hstate, hloaded, hmul, hpeer, not_or.1 hbounds, State.startsAt]

/-- A start without an image is not ready. -/
theorem execImageStart_refused {dt cmd c : Nat} {s : State} (hrun : (s.pass dt).cmdRuns 0x20 [1, 2] = true)
    (himg : (s.pass dt).img.image = none) :
    execImageStart dt cmd c s = .next ((((s.pass dt).takeCommand 0x20 cmd).respond 0x20 cmd stNotReady 0 true []).transmit) := by
  refine congrArg Host.Outcome.next ((State.command_runs _ hrun).trans (congrArg State.transmit ?_))
  simp [himg]

/-- Before turn 0 a stop takes effect at once. -/
theorem execImageStop_before {dt cmd a : Nat} {s : State} (hrun : (s.pass dt).cmdRuns 0x21 [1, 2] = true)
    (hon : (s.pass dt).running = true) (hat : (s.pass dt).turn.startAt = some a) : execImageStop dt cmd s =
      .next (((((s.pass dt).takeCommand 0x21 cmd).stopImage.setImageState 2).respond 0x21 cmd stOk 0 true (word8 0)).transmit) := by
  refine congrArg Host.Outcome.next ((State.command_runs _ hrun).trans (congrArg State.transmit ?_))
  simp [hon, hat]

/-- A stop of a turning image waits for the boundary. -/
theorem execImageStop_later {dt cmd : Nat} {s : State} (hrun : (s.pass dt).cmdRuns 0x21 [1, 2] = true)
    (hon : (s.pass dt).running = true) (hat : (s.pass dt).turn.startAt = none) : execImageStop dt cmd s =
      .next ({ (s.pass dt).takeCommand 0x21 cmd with turn := { (s.pass dt).turn with stopCmd := some cmd } } : State).transmit := by
  refine congrArg Host.Outcome.next ((State.command_runs _ hrun).trans (congrArg State.transmit ?_))
  simp [hon, hat]

/-- The end of an open session. -/
theorem State.endSession_effect {s : State} (h : s.get CTL_PORT_STATUS.link = 2) :
    s.endSession.get CTL_PORT_STATUS.link = 1 ∧ s.endSession.get CTL_PORT_STATUS.role = 0 ∧ s.endSession.port.secret = []
      ∧ s.endSession.port.transcript = [] ∧ s.endSession.lastResponse = s.lastResponse ∧ s.sameBut s.endSession [.regs, .port]
      ∧ s.regsBut s.endSession [CTL_PORT_STATUS.role, CTL_PORT_STATUS.link] := by
  rw [State.endSession, if_pos h]
  refine ⟨?_, ?_, rfl, rfl, rfl, by simp [State.sameBut], ?_⟩
  · rw [State.get_mk, State.get_set_apart _ _ (by decide) (by decide), State.get_set_same _ _ _ (by decide)]
    rfl
  · rw [State.get_mk, State.get_set_same _ _ _ (by decide)]
    rfl
  · exact (((State.regsBut.refl s _).set (f := CTL_PORT_STATUS.link) 1 (by simp)).set (f := CTL_PORT_STATUS.role) 0 (by simp)).of_regs rfl

/-- COACH_REPAIR isolates a coach in use while no image runs. -/
theorem execCoachRepair_isolates {dt cmd c : Nat} {s : State} (hrun : (s.pass dt).cmdRuns 0x120 [1, 2] = true) (hc : c < 64)
    (hoff : (s.pass dt).running = false) (hin : (s.pass dt).rep.isolated.contains c = false) (hreb : (s.pass dt).rep.rebuilds = []) :
    execCoachRepair dt cmd c s =
      .next (((((s.pass dt).takeCommand 0x120 cmd).startLong 0x120 cmd 0 false [c] false).isolate c).endLong stOk 0 []).transmit := by
  refine congrArg Host.Outcome.next ((State.command_runs _ hrun).trans (congrArg State.transmit ?_))
  have hmem : c ∉ (s.pass dt).rep.isolated := by simpa using hin
  simp [hoff, hmem, hreb, hc]

/-- A coupling in training, its link as new. -/
def State.trains (s : State) (k : Nat) : State := (s.set (CPL_STATUS.state.cpl k) 1).setLink k {}

theorem State.trains_port (s : State) (k : Nat) : (s.trains k).port = s.port := rfl

theorem State.trains_sameBut (s : State) (k : Nat) : s.sameBut (s.trains k) [.regs, .cpl] := by simp [State.sameBut, State.trains]

theorem State.trains_regsBut (s : State) (k : Nat) : s.regsBut (s.trains k) [CPL_STATUS.state.cpl k] :=
  ((State.regsBut.refl s _).set (f := CPL_STATUS.state.cpl k) 1 (by simp)).of_regs (u := s.trains k) rfl

theorem State.trains_state (s : State) (k : Nat) : (s.trains k).get (CPL_STATUS.state.cpl k) = 1 :=
  State.get_set_same s (CPL_STATUS.state.cpl k) 1 (show CPL_STATUS.state.fits by decide)

theorem filter_testBit_two_pow : ∀ k < 24, (List.range 24).filter (fun j => (2 ^ k).testBit j) = [k] := by decide

/-- COUPLING_TRAIN of one coupling: it trains, so the long command runs on. -/
theorem execCouplingTrain_trains {dt cmd k : Nat} {s : State} (hrun : (s.pass dt).cmdRuns 0x121 [1] = true) (hk : k < 24)
    (hoff : (s.pass dt).running = false) : execCouplingTrain dt cmd (2 ^ k) s =
      .next ((((s.pass dt).takeCommand 0x121 cmd).startLong 0x121 cmd 0 false [2 ^ k] false).trains k).transmit := by
  refine congrArg Host.Outcome.next ((State.command_runs _ hrun).trans (congrArg State.transmit ?_))
  have hlt : ¬ 2 ^ 24 ≤ 2 ^ k := by simpa using Nat.pow_lt_pow_right (by omega) hk
  rw [if_neg hlt, if_neg (by simp [hoff]), filter_testBit_two_pow k hk]
  have hstays (c : LongCmd) (u : State) (hc : c.args = [2 ^ k]) (hu : u.port.long = some c) (hone : u.get (CPL_STATUS.state.cpl k) = 1) :
      u.trainDone = u := by
    have hmask : trainMask c = [k] := by rw [trainMask, hc]; exact filter_testBit_two_pow k hk
    simp [State.trainDone, hu, hmask, hone]
  exact hstays ⟨0x121, cmd, _, _, 0, 0, false, [2 ^ k], false⟩ _ rfl rfl (State.trains_state _ k)

/-- The entries of the map and the store that a test keeps (R442). -/
def State.keepDefects (s : State) (p : Nat → Bool) : State :=
  { s with
    rep := { s.rep with defects := s.rep.defects.filter p }
    sbx := { s.sbx with store := s.sbx.store.filter p, storeAlarmed := s.sbx.storeAlarmed && decide (4096 ≤ (s.sbx.store.filter p).length) } }

/-- The same entries, taken from the state before a change elsewhere. -/
theorem State.keepDefects_eq {t u : State} (hrep : u.rep = t.rep) (hsbx : u.sbx = t.sbx) (p : Nat → Bool) : u.keepDefects p =
    { u with
      rep := { u.rep with defects := t.rep.defects.filter p }
      sbx := { u.sbx with
        store := t.sbx.store.filter p
        storeAlarmed := u.sbx.storeAlarmed && decide (4096 ≤ (t.sbx.store.filter p).length) } } := by
  rw [State.keepDefects, hrep, hsbx]

/-- DEFECT_CLEAR has started, and the entries found in service are gone. -/
def State.clears (s : State) (cmd : Nat) : State :=
  ((s.startLong 0x122 cmd 0 false [] false).keepDefects fun w => bits w 62 2 != 2).set HEAD_DEFECT_INDEX.entries
    (s.rep.defects.filter fun w => bits w 62 2 != 2).length

theorem State.clears_effect (s : State) (cmd : Nat) :
    (s.clears cmd).port.long = some ⟨0x122, cmd, s.ticks, s.ticks, 0, 0, false, [], false⟩
      ∧ (s.clears cmd).rep.defects = s.rep.defects.filter (fun w => bits w 62 2 != 2)
      ∧ (s.clears cmd).sbx.store = s.sbx.store.filter (fun w => bits w 62 2 != 2)
      ∧ (s.clears cmd).get HEAD_DEFECT_INDEX.entries =
        (s.rep.defects.filter fun w => bits w 62 2 != 2).length % 2 ^ HEAD_DEFECT_INDEX.entries.w
      ∧ s.sameBut (s.clears cmd) [.regs, .port, .sbx, .rep]
      ∧ s.regsBut (s.clears cmd) [CTL_PORT_STATUS.long_cmd, HEAD_DEFECT_INDEX.entries] := by
  obtain ⟨-, hlong, hsame, hregs⟩ := s.startLong_effect 0x122 cmd 0 false [] false
  refine ⟨hlong, rfl, rfl, State.get_set_same _ _ _ (by decide), ?_, ?_⟩
  · exact (hsame.mono (by simp)).trans (by simp [State.sameBut, State.clears, State.keepDefects])
  · exact ((hregs.mono (by simp)).of_regs (u := State.keepDefects _ fun w => bits w 62 2 != 2) rfl).set (f := HEAD_DEFECT_INDEX.entries) _ (by simp)

/-- Kind and place 0xFF hit every entry found in service. -/
theorem defectHit_all : (fun w : Nat => !(bits w 62 2 == 2 && (0xFF == 0xFF && 0xFF == 0xFF || bits w 56 6 == 0xFF && bits w 48 8 == 0xFF))) =
    fun w => bits w 62 2 != 2 := by
  funext w
  simp [bne]

/-- The body of DEFECT_CLEAR of everything. -/
theorem State.clears_endLong (s : State) (cmd : Nat) :
    (let hit (w : Nat) : Bool := bits w 62 2 == 2 && (0xFF == 0xFF && 0xFF == 0xFF || bits w 56 6 == 0xFF && bits w 48 8 == 0xFF)
    let map := s.rep.defects.filter fun w => !hit w
    let store := s.sbx.store.filter fun w => !hit w
    let u := s.startLong 0x122 cmd 0 false [] false
    let v := { u with
      rep := { u.rep with defects := map }
      sbx := { u.sbx with store := store, storeAlarmed := u.sbx.storeAlarmed && decide (4096 ≤ store.length) } }
    (v.set HEAD_DEFECT_INDEX.entries map.length).endLong stOk 0 []) = (s.clears cmd).endLong stOk 0 [] := by
  rw [State.clears, State.keepDefects_eq (t := s) (u := s.startLong 0x122 cmd 0 false [] false) rfl rfl, ← defectHit_all]

theorem execDefectClear_all {dt cmd : Nat} {s : State} (hrun : (s.pass dt).cmdRuns 0x122 [2] = true)
    (hoff : (s.pass dt).running = false) : execDefectClear dt cmd 0xFF 0xFF s =
      .next ((((s.pass dt).takeCommand 0x122 cmd).clears cmd).endLong stOk 0 []).transmit := by
  refine congrArg Host.Outcome.next ((State.command_runs _ hrun).trans (congrArg State.transmit ?_))
  rw [if_neg (by simp [hoff])]
  exact State.clears_endLong _ cmd

/-- Settles O49: each command's effect on the state without its payload, framed by what it answers. -/
theorem imageAndMaintenance : Obligations.ImageAndMaintenance := by
  unfold Obligations.ImageAndMaintenance
  refine ⟨?_, ?_, ?_, ?_, ?_, ?_, ?_, ?_⟩
  · rintro dt cmd c i s _ rfl hrun himg hstate hloaded hmul hlo hhi hpeer
    obtain ⟨hthree, hsame, hregs⟩ := (((s.pass dt).takeCommand 0x20 cmd).startsAt c).setImageState_effect 3
    have hturn := State.sameBut_iff.1 hsame .turn (by decide)
    have hmem := State.sameBut_iff.1 hsame .mem (by decide)
    refine ⟨_, execImageStart_accepted hrun himg hstate hloaded hmul hlo hhi hpeer, by simp [stOk], ?_, ?_, ?_, ?_,
      State.answered _ _ _ _ _ _ (.trans ?_ (hsame.mono ?_))
      ?_, ((State.regsBut_of_regs (by simp [State.startsAt]) _).trans hregs).of_regs (by simp)⟩
    · rw [State.transmit_turn, State.respond_turn, hturn]; rfl
    · rw [State.transmit_turn, State.respond_turn, hturn]; rfl
    · rw [State.running, State.transmit_get, State.respond_get, hthree]; rfl
    · rw [State.transmit_mem, State.respond_mem, hmem]; exact State.takeCommand_mem ..
    · simp [State.sameBut, State.startsAt]
    all_goals simp
  · rintro dt cmd c s _ rfl hrun himg
    obtain ⟨hresp, hregs, hmem, hsame⟩ := (s.pass dt).refusal_frame 0x20 cmd stNotReady
    exact ⟨_, execImageStart_refused hrun himg, hresp, hregs, by simp, hmem, hsame⟩
  · rintro dt cmd a s _ rfl hrun hon hat
    obtain ⟨htwo, hsame, -⟩ := ((s.pass dt).takeCommand 0x21 cmd).stopImage.setImageState_effect 2
    refine ⟨_, execImageStop_before hrun hon hat, by simp [stOk], ?_,
      State.answered _ _ _ _ _ _ (((State.stopImage_sameBut _).mono ?_).trans (hsame.mono ?_)) ?_⟩
    · rw [State.transmit_get, State.respond_get, htwo]; rfl
    all_goals decide
  · rintro dt cmd s _ rfl hrun hon hat
    exact ⟨_, execImageStop_later hrun hon hat, by simp, by simp, by simp, by simp, by simp [State.sameBut]⟩
  · rintro dt cmd s _ rfl hrun
    have hlink : ((((s.pass dt).takeCommand 0x30 cmd).respond 0x30 cmd stOk 0 true []).transmit).get CTL_PORT_STATUS.link = 2 := by
      simp only [State.cmdRuns, Bool.and_eq_true, beq_iff_eq] at hrun
      simpa using hrun.1
    obtain ⟨hone, hrole, hsecret, htrans, hresp, hsame, hregs⟩ := State.endSession_effect hlink
    have hframe := (s.pass dt).answered 0x30 cmd stOk 0 true [] (State.sameBut.refl _ [.port]) (by simp)
    refine ⟨_, congrArg Host.Outcome.next (State.command_runs _ hrun), ?_, ?_, ?_, ?_, ?_, ?_,
      ((hframe.mono (by simp)).trans hsame).trans ((State.transmit_sameBut _).mono (by simp)), ?_⟩
    · rw [State.transmit_lastResponse, hresp]; simp [stOk]
    · rw [State.transmit_get, hone]
    · rw [State.transmit_get, hrole]
    · rw [State.transmit_port_secret, hsecret]
    · rw [State.transmit_transcript, htrans]
    · rw [State.transmit_mem, State.sameBut_iff.1 hsame .mem (by decide)]; simp
    · exact ((State.regsBut_of_regs (by simp) _).trans hregs).of_regs (by simp)
  · rintro dt cmd c s _ rfl hrun hc hoff hin hreb
    refine ⟨_, execCoachRepair_isolates hrun hc hoff hin hreb, ?_⟩
    obtain ⟨-, hlong, hstart, -⟩ := ((s.pass dt).takeCommand 0x120 cmd).startLong_effect 0x120 cmd 0 false [c] false
    have hrep := State.sameBut_iff.1 hstart .rep (by decide)
    have hin' : (((s.pass dt).takeCommand 0x120 cmd).startLong 0x120 cmd 0 false [c] false).rep.isolated.contains c = false := by
      rw [hrep, State.takeCommand_rep]; exact hin
    obtain ⟨hiso, hsame⟩ := State.isolate_effect hin'
    have hport := State.sameBut_iff.1 hsame .port (by decide)
    obtain ⟨hresp, hnone, hend, -⟩ := State.endLong_effect ((congrArg PortB.long hport).trans hlong) stOk 0 []
    have hturn := State.sameBut_iff.1 ((hstart.mono (l' := [.regs, .mem, .flips, .ev, .port, .sbx, .boot, .rep, .pwr]) (by simp)).trans
      ((hsame.mono (by simp)).trans (hend.mono (by simp)))) .turn (by decide)
    refine ⟨by rw [State.transmit_lastResponse, hresp]; rfl, ?_, by rw [State.transmit_port_long, hnone], ?_,
      State.commanded _ _ ((hstart.mono ?_).trans ((hsame.mono ?_).trans (hend.mono ?_))) ?_⟩
    · rw [State.transmit_rep, State.sameBut_iff.1 hend .rep (by decide), hiso, hrep, State.takeCommand_rep]
    · rw [State.transmit_turn, hturn, State.takeCommand_turn]
    all_goals simp
  · rintro dt cmd k s _ rfl hrun hk hoff
    obtain ⟨hresp, hlong, hstart, hregs⟩ := ((s.pass dt).takeCommand 0x121 cmd).startLong_effect 0x121 cmd 0 false [2 ^ k] false
    have hport := State.trains_port (((s.pass dt).takeCommand 0x121 cmd).startLong 0x121 cmd 0 false [2 ^ k] false) k
    have hsame := (hstart.mono (l' := [.regs, .port, .cpl]) (by simp)).trans ((State.trains_sameBut _ k).mono (by simp))
    refine ⟨_, execCouplingTrain_trains hrun hk hoff, ?_, ?_, ?_, ?_, ?_, State.commanded _ _ hsame (by simp), ?_⟩
    · rw [State.transmit_lastResponse, State.lastResponse, hport, ← State.lastResponse, hresp]; rfl
    · rw [State.transmit_get, State.trains_state]
    · rw [State.longIs, State.transmit_port_long, hport, hlong]; rfl
    · rw [State.transmit_turn, State.sameBut_iff.1 hsame .turn (by decide), State.takeCommand_turn]
    · rw [State.transmit_mem, State.sameBut_iff.1 hsame .mem (by decide), State.takeCommand_mem]
    · exact ((State.regsBut_of_regs (State.takeCommand_regs ..) _).trans ((hregs.mono (by simp)).trans
        ((State.trains_regsBut _ k).mono (by simp)))).of_regs (by simp)
  · rintro dt cmd s _ rfl hrun hoff
    obtain ⟨hlong, hdefects, hstore, hentries, hclear, hregs⟩ := ((s.pass dt).takeCommand 0x122 cmd).clears_effect cmd
    obtain ⟨hresp, hnone, hend, hregs'⟩ := State.endLong_effect hlong stOk 0 []
    have hsame := hclear.trans (hend.mono (by simp))
    simp only [State.takeCommand_rep, State.takeCommand_sbx] at hdefects hstore hentries
    refine ⟨_, execDefectClear_all hrun hoff, ?_, ?_, ?_, ?_, ?_, ?_, State.commanded _ _ hsame (by simp), ?_⟩
    · rw [State.transmit_lastResponse]; exact hresp
    · rw [State.transmit_rep, State.sameBut_iff.1 hend .rep (by decide), hdefects]
    · rw [State.transmit_sbx, State.sameBut_iff.1 hend .sbx (by decide), hstore]
    · rw [State.transmit_get, hregs' _ (by decide) (by decide), hentries]
    · rw [State.transmit_port_long]; exact hnone
    · rw [State.transmit_mem, State.sameBut_iff.1 hsame .mem (by decide), State.takeCommand_mem]
    · exact ((State.regsBut_of_regs (State.takeCommand_regs ..) _).trans (hregs.trans (hregs'.mono (by simp)))).of_regs (by simp)

end Sys2Proof.Machine
end

section
/-! PROOFS. What the work within a turn leaves alone: time, the axle, the mailboxes, the couplings and the queue; the number, the start and
the step of the turn; the drain; and the canonical form of memory. -/

set_option Elab.async false

namespace Sys2Proof.Machine

/-! ### The relation -/

/-- The register fields that only a new turn or a new step sets. -/
def turnFields : List Fld := [HEAD_TURN_STATE.turn, HEAD_TURN_START.start, HEAD_TURN_CONFIG.step]

/-- From `s` to `t` the turn goes on or its image stops. Where `P` holds, a stop that the host asked for stands as well, and where `Q` holds,
the image and what is sent, stored or repaired does. -/
structure State.Calm (P Q : Prop) (s t : State) : Prop where
  ticks : t.ticks = s.ticks
  axle : t.axle = s.axle
  mbx : t.mbx = s.mbx
  cpl : t.cpl = s.cpl
  pending : t.pending = s.pending
  mem : Memory.wf s.mem = true → Memory.wf t.mem = true
  regs : ∀ f ∈ turnFields, t.get f = s.get f
  origin : t.turn.origin = s.turn.origin
  startAt : s.turn.startAt = none → t.turn.startAt = none
  q : s.turn.q = none → t.turn.q = none
  inserts : s.turn.inserts = [] → t.turn.inserts = []
  drain : t.serv.drain = s.serv.drain
  stop : P → t.turn.stopCmd = s.turn.stopCmd
  still : Q → s.sameBut t [.regs, .mem, .flips, .turn, .tile, .net, .serv, .boot, .pwr]

namespace State.Calm

variable {P Q : Prop} {s0 s t : State}

theorem refl (s : State) : s.Calm P Q s :=
  ⟨rfl, rfl, rfl, rfl, rfl, id, fun _ _ => rfl, rfl, id, id, id, rfl, fun _ => rfl, fun _ => State.sameBut.refl s _⟩

theorem trans (h : s0.Calm P Q s) (k : s.Calm P Q t) : s0.Calm P Q t where
  ticks := k.ticks.trans h.ticks
  axle := k.axle.trans h.axle
  mbx := k.mbx.trans h.mbx
  cpl := k.cpl.trans h.cpl
  pending := k.pending.trans h.pending
  mem hm := k.mem (h.mem hm)
  regs f hf := (k.regs f hf).trans (h.regs f hf)
  origin := k.origin.trans h.origin
  startAt hs := k.startAt (h.startAt hs)
  q hq := k.q (h.q hq)
  inserts hi := k.inserts (h.inserts hi)
  drain := k.drain.trans h.drain
  stop hP := (k.stop hP).trans (h.stop hP)
  still hQ := (h.still hQ).trans (k.still hQ)

theorem weaken {P' Q' : Prop} (h : s0.Calm P Q s) (hP : P' → P) (hQ : Q' → Q) : s0.Calm P' Q' s :=
  { h with stop := fun p => h.stop (hP p), still := fun q => h.still (hQ q) }

/-- What every change may make nothing of counts as none. -/
theorem loose (h : s0.Calm P Q s) : s0.Calm False False s := h.weaken False.elim False.elim

/-! ### Rules for control -/

theorem ite {c : Prop} [Decidable c] (hs : s0.Calm P Q s) (ht : s0.Calm P Q t) : s0.Calm P Q (if c then s else t) := by
  split <;> assumption

theorem snd_ite {α : Type} {a b : α × State} {c : Prop} [Decidable c] (ha : s0.Calm P Q a.2) (hb : s0.Calm P Q b.2) :
    s0.Calm P Q (if c then a else b).2 := by
  split <;> assumption

theorem foldl {α : Type} {f : State → α → State} {l : List α} (h : s0.Calm P Q s) (hf : ∀ t x, s0.Calm P Q t → s0.Calm P Q (f t x)) :
    s0.Calm P Q (l.foldl f s) := by
  induction l generalizing s with
  | nil => exact h
  | cons x l ih => exact ih (hf s x h)

theorem foldl_snd {α β : Type} {f : β × State → α → β × State} {l : List α} {b : β × State} (h : s0.Calm P Q b.2)
    (hf : ∀ t x, s0.Calm P Q t.2 → s0.Calm P Q (f t x).2) : s0.Calm P Q (l.foldl f b).2 := by
  induction l generalizing b with
  | nil => exact h
  | cons x l ih => exact ih (hf b x h)

theorem foldl_fst {α β : Type} {f : State × β → α → State × β} {l : List α} {b : State × β} (h : s0.Calm P Q b.1)
    (hf : ∀ t x, s0.Calm P Q t.1 → s0.Calm P Q (f t x).1) : s0.Calm P Q (l.foldl f b).1 := by
  induction l generalizing b with
  | nil => exact h
  | cons x l ih => exact ih (hf b x h)

/-! ### Rules for the parts -/

/-- A change of parts that the relation leaves open. -/
theorem quiet (h : s0.Calm P Q s) {flips : Sparse Nat} {tile : TileB} {net : NetB} {boot : BootB} {pwr : PwrB} :
    s0.Calm P Q { s with flips := flips, tile := tile, net := net, boot := boot, pwr := pwr } :=
  h.trans ⟨rfl, rfl, rfl, rfl, rfl, id, fun _ _ => rfl, rfl, id, id, id, rfl, fun _ => rfl, fun _ => by simp [State.sameBut]⟩

section
variable {flips : Sparse Nat} {free : Nat} {ev : EvB} {port : PortB} {sbx : SbxB} {img : ImgB} {tile : TileB} {net : NetB} {boot : BootB}
  {rep : RepB} {pwr : PwrB} {thm : ThmB}

/-- A change of the turn, and of parts that the relation leaves open where the image may change. -/
theorem change (h : s0.Calm P False s) {turn : TurnB} (horigin : turn.origin = s.turn.origin)
    (hat : s.turn.startAt = none → turn.startAt = none) (hq : s.turn.q = none → turn.q = none)
    (hins : s.turn.inserts = [] → turn.inserts = []) (hstop : P → turn.stopCmd = s.turn.stopCmd) :
    s0.Calm P False { s with
      flips := flips, free := free, turn := turn, ev := ev, port := port, sbx := sbx, img := img, tile := tile, net := net, boot := boot
      rep := rep, pwr := pwr, thm := thm } :=
  h.trans ⟨rfl, rfl, rfl, rfl, rfl, id, fun _ _ => rfl, horigin, hat, hq, hins, rfl, hstop, False.elim⟩

/-- The same where the turn stays. -/
theorem loud (h : s0.Calm P False s) :
    s0.Calm P False { s with
      flips := flips, free := free, ev := ev, port := port, sbx := sbx, img := img, tile := tile, net := net, boot := boot, rep := rep
      pwr := pwr, thm := thm } :=
  h.change rfl id id id fun _ => rfl
end

/-- A change of the turn that keeps its origin. -/
theorem turn (h : s0.Calm P Q s) {x : TurnB} (horigin : x.origin = s.turn.origin := by rfl)
    (hat : s.turn.startAt = none → x.startAt = none := by exact id) (hq : s.turn.q = none → x.q = none := by exact id)
    (hins : s.turn.inserts = [] → x.inserts = [] := by exact id) (hstop : P → x.stopCmd = s.turn.stopCmd := by exact fun _ => rfl) :
    s0.Calm P Q { s with turn := x } :=
  h.trans ⟨rfl, rfl, rfl, rfl, rfl, id, fun _ _ => rfl, horigin, hat, hq, hins, rfl, hstop, fun _ => by simp [State.sameBut]⟩

/-- A change of the serving that keeps the drain. -/
theorem serv (h : s0.Calm P Q s) {x : ServB} (hx : x.drain = s.serv.drain := by rfl) : s0.Calm P Q { s with serv := x } :=
  h.trans ⟨rfl, rfl, rfl, rfl, rfl, id, fun _ _ => rfl, rfl, id, id, id, hx, fun _ => rfl, fun _ => by simp [State.sameBut]⟩

theorem setServ (h : s0.Calm P Q s) {f : ServB → ServB} (hf : (f s.serv).drain = s.serv.drain := by rfl) : s0.Calm P Q (s.setServ f) :=
  h.serv hf

theorem mapReqs (h : s0.Calm P Q s) (p : Req → Bool) (f : Req → Req) : s0.Calm P Q (s.mapReqs p f) := h.serv

theorem updReq (h : s0.Calm P Q s) (id : Nat) (f : Req → Req) : s0.Calm P Q (s.updReq id f) := h.mapReqs _ f

/-- A change of memory that keeps its canonical form. -/
theorem store (h : s0.Calm P Q s) {m : List Host.Cell} {flips : Sparse Nat} (hm : Memory.wf s.mem = true → Memory.wf m = true) :
    s0.Calm P Q { s with mem := m, flips := flips } :=
  h.trans ⟨rfl, rfl, rfl, rfl, rfl, hm, fun _ _ => rfl, rfl, id, id, id, rfl, fun _ => rfl, fun _ => by simp [State.sameBut]⟩

theorem wrBytes (h : s0.Calm P Q s) (a : Nat) (bs : List Byte) : s0.Calm P Q (s.wrBytes a bs) :=
  h.store (flips := s.flips) (Memory.wf_setBytes a bs)

theorem wrNum (h : s0.Calm P Q s) (a n v : Nat) : s0.Calm P Q (s.wrNum a n v) := h.wrBytes a _

theorem wipe (h : s0.Calm P Q s) (lo hi : Nat) : s0.Calm P Q (s.wipe lo hi) := h.store (Memory.wf_dropRange lo hi)

theorem writeCoded (h : s0.Calm P Q s) (key : Nat) (bs : List Byte) : s0.Calm P Q (s.writeCoded key bs) :=
  h.store (Memory.wf_setBytes key bs)

theorem writeSpad (h : s0.Calm P Q s) (n off : Nat) (bs : List Byte) : s0.Calm P Q (s.writeSpad n off bs) := h.writeCoded _ bs

theorem writeRoof (h : s0.Calm P Q s) (main side v : Nat) : s0.Calm P Q (s.writeRoof main side v) :=
  ((h.wrNum _ _ _).wrNum _ _ _).quiet

end State.Calm

/-! ### Registers that a turn's work may write -/

theorem turnFields_fits : ∀ {f : Fld}, f ∈ turnFields → f.fits := by decide

theorem turnFields_key : ∀ {f : Fld}, f ∈ turnFields → f.key ≤ 0x100030 := by decide

/-- The field lies above the turn's own registers. -/
def Fld.high (f : Fld) : Bool := decide (0x100030 < f.key)

theorem Fld.high_iff {f : Fld} : f.high = true ↔ 0x100030 < f.key := decide_eq_true_iff

theorem Fld.high_tile (f : Fld) (n : Nat) : (f.tile n).high = true := by
  simp only [Fld.high_iff, Fld.tile, tileBase]
  split <;> omega

theorem Fld.high_twr (f : Fld) (k : Nat) : (f.twr k).high = true := by
  simp only [Fld.high_iff, Fld.twr, bayBase]
  omega

section
variable {f : Fld} (h : f.high = true)
include h

theorem Fld.high_off (d : Nat) : (f.off d).high = true := by
  simp only [Fld.high_iff, Fld.off] at *
  omega

theorem Fld.high_ix (i : Nat) : (f.ix i).high = true := by
  simp only [Fld.high_iff, Fld.ix] at *
  omega

/-- So it lies apart from them. -/
theorem Fld.apart_turnFields : ∀ g ∈ turnFields, f.apart g := by
  have hkey := Fld.high_iff.1 h
  intro g hg
  have hle := turnFields_key hg
  exact .inl (by omega)
end

theorem tileBase_high (n d : Nat) : 0x100030 < tileBase n + d := Fld.high_iff.1 (Fld.high_tile ⟨d, 0, 1⟩ n)

/-- What is unlisted in a range leaves the other keys. -/
theorem Sparse.find_dropRange_out {α : Type} (m : Sparse α) {lo hi k : Nat} (h : k < lo ∨ hi ≤ k) :
    (m.dropRange lo hi).find k = m.find k := by
  induction m with
  | nil => rfl
  | cons p m ih =>
    obtain ⟨a, b⟩ := p
    unfold Sparse.dropRange at *
    rw [List.filter_cons]
    by_cases hk : k = a
    · subst hk
      rw [if_pos (by simpa using h)]
      simp [Sparse.find]
    · split <;> simp only [Sparse.find, if_neg hk, ih]

namespace State.Calm

variable {P Q : Prop} {s0 s : State}

theorem setReg (h : s0.Calm P Q s) {k : Nat} (v : Nat) (hk : 0x100030 < k) : s0.Calm P Q (s.setReg k v) := by
  refine h.trans ⟨rfl, rfl, rfl, rfl, rfl, id, fun f hf => ?_, rfl, id, id, id, rfl, fun _ => rfl, fun _ => by simp [State.sameBut]⟩
  have hle := turnFields_key hf
  have hne : f.key ≠ k := by omega
  rw [State.get, State.reg_setReg_ne _ _ hne, ← State.get]

/-- A field of the turn's registers that no new turn sets. -/
theorem setApart (h : s0.Calm P Q s) {f : Fld} (v : Nat) (hf : ∀ g ∈ turnFields, f.apart g := by decide) : s0.Calm P Q (s.set f v) := by
  refine h.trans ⟨rfl, rfl, rfl, rfl, rfl, id, fun g hg => ?_, rfl, id, id, id, rfl, fun _ => rfl, fun _ => by simp [State.sameBut]⟩
  exact State.get_set_apart s v (turnFields_fits hg) (hf g hg)

theorem set (h : s0.Calm P Q s) {f : Fld} (v : Nat) (hf : f.high = true := by rfl) : s0.Calm P Q (s.set f v) :=
  h.setApart v (Fld.apart_turnFields hf)

theorem setFlag (h : s0.Calm P Q s) {f : Fld} (b : Bool) (hf : f.high = true := by rfl) : s0.Calm P Q (s.setFlag f b) := h.set _ hf

theorem inc (h : s0.Calm P Q s) {f : Fld} {d : Nat} (hf : f.high = true := by rfl) : s0.Calm P Q (s.inc f d) := h.set _ hf

theorem resetRegs (h : s0.Calm P Q s) (lo hi : Nat) (hlo : 0x100030 < lo) : s0.Calm P Q (s.resetRegs lo hi) := by
  refine h.trans ⟨rfl, rfl, rfl, rfl, rfl, id, fun f hf => ?_, rfl, id, id, id, rfl, fun _ => rfl, fun _ => by simp [State.sameBut]⟩
  have hle := turnFields_key hf
  have hfind : (s.regs.dropRange lo hi).find f.key = s.regs.find f.key := Sparse.find_dropRange_out _ (.inl (by omega))
  simp only [State.get, State.reg, State.resetRegs, hfind]

end State.Calm
end Sys2Proof.Machine
end

section
/-! PROOFS. What the work within a turn leaves alone, function by function in the order of the model: requests and their memory, the units that
fail, the image and its tiles. -/

set_option Elab.async false

namespace Sys2Proof.Machine
namespace State.Calm

variable {P Q : Prop} {s0 s : State}

/-! ### Requests and their memory -/

theorem setCirc (h : s0.Calm P Q s) (n c head tail count : Nat) : s0.Calm P Q (s.setCirc n c head tail count) :=
  (((h.set _ (Fld.high_off (Fld.high_tile _ n) _)).set _ (Fld.high_off (Fld.high_tile _ n) _)).set _
    (Fld.high_off (Fld.high_tile _ n) _)).set _ (Fld.high_off (Fld.high_tile _ n) _)

theorem emptyCircs (h : s0.Calm P Q s) (n : Nat) : s0.Calm P Q (s.emptyCircs n) := h.foldl fun _ _ h => h.setCirc _ _ _ _ _

theorem raise (h : s0.Calm P False s) (num coord a b : Nat) : s0.Calm P False (s.raise num coord a b) := h.loud

theorem raiseHead (h : s0.Calm P False s) (num a b : Nat) : s0.Calm P False (s.raiseHead num a b) := h.loud

theorem respond (h : s0.Calm P False s) (op cmd st d : Nat) (fin : Bool) (r : List Byte) : s0.Calm P False (s.respond op cmd st d fin r) :=
  h.loud

theorem takeFree (h : s0.Calm P False s) : s0.Calm P False s.takeFree.2 := h.loud

theorem sendWave (h : s0.Calm P Q s) (r : Bool) (c k : Nat) : s0.Calm P Q (s.sendWave r c k) := ite h.turn h

theorem raiseHoldAt (h : s0.Calm P Q s) (k c unit : Nat) (via : Option Nat) : s0.Calm P Q (s.raiseHoldAt k c unit via) :=
  (ite (h.sendWave _ _ _) h).turn

theorem raiseHold (h : s0.Calm P Q s) (c unit : Nat) (via : Option Nat) : s0.Calm P Q (s.raiseHold c unit via) := h.raiseHoldAt _ _ _ _

theorem withdrawHolds (h : s0.Calm P Q s) (c : Nat) (p : Hold → Bool) : s0.Calm P Q (s.withdrawHolds c p) :=
  ite (h.turn.sendWave _ _ _) h.turn

theorem withdrawAll (h : s0.Calm P Q s) : s0.Calm P Q s.withdrawAll := h.foldl fun _ _ h => h.withdrawHolds _ _

theorem syncPhase (h : s0.Calm P Q s) : s0.Calm P Q s.syncPhase := ite h (h.setApart _)

theorem wrRegion (h : s0.Calm P Q s) (r off mirror : Nat) (bs : List Byte) : s0.Calm P Q (s.wrRegion r off mirror bs) := by
  have hfirst : s0.Calm P Q (if s.towerShut r then s else s.wrBytes (ringRegion r + off) bs) := ite h (h.wrBytes _ _)
  exact ite hfirst (hfirst.wrBytes _ _)

theorem wrSlot (h : s0.Calm P Q s) (r : Req) (byte : Nat) (bs : List Byte) : s0.Calm P Q (s.wrSlot r byte bs) := h.wrRegion _ _ _ _

theorem wrTokens (h : s0.Calm P Q s) (r : Req) (b k : Nat) (ts : List Nat) : s0.Calm P Q (s.wrTokens r b k ts) := h.wrRegion _ _ _ _

theorem produce (h : s0.Calm P Q s) (ring kind code tag value pos : Nat) (slot : Bool) :
    s0.Calm P Q (s.produce ring kind code tag value pos slot) := ite h ((h.wrRegion _ _ _ _).setServ.set _)

theorem setLevel (h : s0.Calm P Q s) (t : Nat) (l : Int) : s0.Calm P Q (s.setLevel t l) := h.set _ (Fld.high_ix (by rfl) _)

theorem charge (h : s0.Calm P Q s) (t u : Nat) : s0.Calm P Q (s.charge t u) := ite h (h.setLevel _ _)

theorem dropRefs (h : s0.Calm P Q s) (ids : List Nat) : s0.Calm P Q (s.dropRefs ids) := h.setServ

theorem syncNodes (h : s0.Calm P Q s) : s0.Calm P Q s.syncNodes := h.set _

theorem syncEligible (h : s0.Calm P Q s) : s0.Calm P Q s.syncEligible := h.setServ

theorem forget (h : s0.Calm P Q s) (id : Nat) : s0.Calm P Q (s.forget id) := by
  unfold State.forget
  split
  · exact h
  · exact (h.dropRefs _).syncNodes.setServ.syncEligible

theorem unqueue (h : s0.Calm P Q s) (id : Nat) : s0.Calm P Q (s.unqueue id) := h.setServ

theorem freeSlot (h : s0.Calm P Q s) (r : Req) : s0.Calm P Q (s.freeSlot r) := h.wrSlot _ _ _

theorem endReq (h : s0.Calm P Q s) (id code : Nat) : s0.Calm P Q (s.endReq id code) := by
  unfold State.endReq
  split
  · exact h
  · next r _ =>
    have hout := h.produce r.ring 2 code r.tag r.gen.length 0 r.inSlot
    exact (((ite hout (hout.freeSlot _)).unqueue _).updReq _ _).syncEligible

theorem endAdmitted (h : s0.Calm P Q s) (code : Nat) : s0.Calm P Q (s.endAdmitted code) := by
  unfold State.endAdmitted
  exact (((h.foldl fun _ _ h => h.endReq _ _).foldl fun _ _ h => (ite (h.freeSlot _) h).forget _).setFlag _).setServ

/-! ### KV tables -/

theorem wrCopy (h : s0.Calm P Q s) (a len : Nat) (bs : List Byte) : s0.Calm P Q (s.wrCopy a len bs) := by
  unfold State.wrCopy
  exact ((h.writeCoded _ _).wrNum _ _ _).setServ

theorem wrWord (h : s0.Calm P Q s) (g c j p w : Nat) : s0.Calm P Q (s.wrWord g c j p w) := by
  unfold State.wrWord
  split
  · exact h
  · exact h.wrCopy _ _ _

theorem wrEntry (h : s0.Calm P Q s) (g c j : Nat) (k : KvSet) : s0.Calm P Q (s.wrEntry g c j k) := h.wrWord _ _ _ _ _

theorem wrLane (h : s0.Calm P Q s) (g c j n nodes epoch parent : Nat) (carry : List Nat) :
    s0.Calm P Q (s.wrLane g c j n nodes epoch parent carry) := by
  unfold State.wrLane
  split
  · exact h
  · exact h.wrCopy _ _ _

theorem flipTables (h : s0.Calm P Q s) : s0.Calm P Q s.flipTables := by
  unfold State.flipTables
  exact (h.foldl fun _ _ h => (h.wrNum _ _ _).wrNum _ _ _).setServ

theorem allocPool (h : s0.Calm P Q s) {g n : Nat} {t : State} (ht : s.allocPool g = some (n, t)) : s0.Calm P Q t := by
  unfold State.allocPool at ht
  split at ht
  · cases ht
  · split at ht
    · cases ht
    · cases ht
      exact h.setServ

theorem allocTow (h : s0.Calm P Q s) {g n : Nat} {t : State} (ht : s.allocTow g = some (n, t)) : s0.Calm P Q t := by
  unfold State.allocTow at ht
  split at ht
  · cases ht
  · split at ht
    · cases ht
    · cases ht
      exact h.setServ

/-! ### Units that fail -/

theorem alarm (h : s0.Calm P False s) (code : Nat) : s0.Calm P False (s.alarm code) := (h.set _).raiseHead _ _ _

theorem addDefect (h : s0.Calm P False s) (w : Nat) : s0.Calm P False (s.addDefect w) := by
  have hmap : s0.Calm P False (({ s with rep := { s.rep with defects := s.rep.defects ++ [w] } } : State).set HEAD_DEFECT_INDEX.entries
      (s.rep.defects.length + 1)) := h.loud.set _
  exact ite hmap.loud (ite hmap (hmap.loud.alarm _))

theorem setMark (h : s0.Calm P Q s) (c : Nat) (b : Bool) : s0.Calm P Q (s.setMark c b) := h.setFlag _

theorem setTiles (h : s0.Calm P Q s) (l : List Nat) (v : Nat) : s0.Calm P Q (s.setTiles l v) :=
  h.foldl fun _ _ h => h.set _ (Fld.high_tile _ _)

theorem loseQuadrants (h : s0.Calm P Q s) (c : Nat) : s0.Calm P Q (s.loseQuadrants c) :=
  h.foldl fun _ _ h => ((((h.wipe _ _).wipe _ _).resetRegs _ _ (tileBase_high _ _)).resetRegs _ _ (tileBase_high _ _))

theorem loseRoof (h : s0.Calm P Q s) (c : Nat) : s0.Calm P Q (s.loseRoof c) :=
  (((h.foldl fun _ _ h => (h.wipe _ _).wipe _ _).wipe _ _).wipe _ _).setMark _ _

theorem openPin (h : s0.Calm P Q s) (n : Nat) : s0.Calm P Q (s.openPin n) := by
  have hopen : s0.Calm P Q (s.setFlag (HEAD_ATB_SEL_n.connected.pin n) false) := h.setFlag _ (Fld.high_off (by rfl) _)
  unfold State.openPin
  split
  · exact ite hopen.quiet hopen.quiet
  · exact hopen.quiet

theorem openCoach (h : s0.Calm P Q s) (c st : Nat) : s0.Calm P Q (s.openCoach c st) := by
  have hpins : s0.Calm P Q ((List.range 8).foldl (fun t n => if atbCoach n (t.atbSel n).1 = some c then t.openPin n else t) s) :=
    h.foldl fun _ _ h => ite (h.openPin _) h
  exact ((((hpins.foldl fun _ _ h => (h.set _ (Fld.high_ix (by rfl) _)).set _ (Fld.high_ix (by rfl) _)).setTiles _ _).loseQuadrants
    _).loseRoof _).quiet

theorem sendRail (h : s0.Calm P Q s) (rail op data : Nat) : s0.Calm P Q (s.sendRail rail op data) :=
  ite h (ite (h.quiet.set _ (Fld.high_ix (by rfl) _)) h.quiet)

theorem syncReserves (h : s0.Calm P Q s) : s0.Calm P Q s.syncReserves := (h.set _).set _

theorem isolate (h : s0.Calm P False s) (c : Nat) : s0.Calm P False (s.isolate c) := by
  unfold State.isolate
  exact ite h ((((((h.openCoach _ _).addDefect _).loud.sendRail _ _ _).sendRail _ _ _).setApart _).syncReserves)

theorem emptyCarts (h : s0.Calm P Q s) : s0.Calm P Q s.emptyCarts :=
  h.foldl fun _ _ h => (((h.set _ (Fld.high_off (Fld.high_tile _ _) _)).set _ (Fld.high_off (Fld.high_tile _ _) _)).set _
    (Fld.high_off (Fld.high_tile _ _) _)).quiet

/-- An image that stops has no stop to come. -/
theorem stopImage (h : s0.Calm False False s) : s0.Calm False False s.stopImage := by
  have hempty := (h.withdrawAll.endAdmitted 5).emptyCarts
  unfold State.stopImage
  generalize (s.withdrawAll.endAdmitted 5).emptyCarts = u at hempty
  exact hempty.change rfl (fun _ => rfl) (fun _ => rfl) (fun _ => rfl) False.elim

theorem setImageState (h : s0.Calm P Q s) (v : Nat) : s0.Calm P Q (s.setImageState v) := (h.set _).syncPhase

theorem vacate (h : s0.Calm P Q s) (n st : Nat) : s0.Calm P Q (s.vacate n st) :=
  ((h.set _ (Fld.high_tile _ _)).set _ (Fld.high_tile _ _)).set _ (Fld.high_tile _ _)

theorem syncSched (h : s0.Calm P Q s) : s0.Calm P Q s.syncSched := by
  unfold State.syncSched
  exact ((((((h.setApart _).setApart _).setApart _).setApart _).setApart _).set _).set _

theorem imageFault (h : s0.Calm False False s) (cause : Nat) : s0.Calm False False (s.imageFault cause) :=
  ((((((h.stopImage).setImageState 4).setFlag true).set _).set _).set _).raiseHead _ _ _

theorem repairFail (h : s0.Calm False False s) (w : Nat) (cs : List Nat) : s0.Calm False False (s.repairFail w cs) :=
  ((((h.stopImage.foldl fun _ _ h => h.setMark _ _).setImageState 2).set _).inc).raiseHead _ _ _

theorem voidTurn (h : s0.Calm False False s) : s0.Calm False False s.voidTurn :=
  ite (ite (h.repairFail _ _) ((h.raiseHold _ _ _).inc.raiseHead _ _ _)) h

theorem faultTurn (h : s0.Calm False False s) : s0.Calm False False s.faultTurn :=
  ite (ite (h.imageFault _) (ite h h.turn.inc.voidTurn)) h

end State.Calm
end Sys2Proof.Machine
end

section
/-! PROOFS. What the work within a turn leaves alone, continued: the image and its tiles, lost units, and memory errors. -/

set_option Elab.async false

namespace Sys2Proof.Machine
namespace State.Calm

variable {P Q : Prop} {s0 s : State}

/-! ### The image and its tiles -/

theorem loadTileRegs (h : s0.Calm P Q s) (i : Image) (key n : Nat) (fresh : Bool) : s0.Calm P Q (s.loadTileRegs i key n fresh) := by
  have hid : s0.Calm P Q ((s.set (TILE_ID.logical_coach.tile n) (key / 256)).set (TILE_ID.logical_tile.tile n) (key % 256)) :=
    (h.set _ (Fld.high_tile _ _)).set _ (Fld.high_tile _ _)
  unfold State.loadTileRegs
  dsimp only
  generalize i.tileRegs.find? (fun t => t.lc * 256 + t.lt == key) = row
  cases row with
  | none =>
    split
    · exact hid
    · exact hid.setReg _ (tileBase_high _ _)
  | some row =>
    have hregs := (hid.set (f := TILE_BANK_MAP.vector_groups.tile n)
      (if tileClass n = 2 then 0 else row.bankMap % 2 ^ (spadBytes n / 0x100000)) (Fld.high_tile _ _)).foldl
        (f := fun u r => u.setReg (tileBase n + 0xF000100 + 8 * r.1) r.2.toNat) (l := row.regions) fun t r h =>
          h.setReg _ (Nat.lt_add_right _ (tileBase_high n _))
    split
    · refine ite (emptyCircs ?_ _) ?_
      all_goals exact hregs.foldl fun t r h => h.setReg _ (Nat.lt_add_right _ (tileBase_high n _))
    · refine setReg (ite (emptyCircs ?_ _) ?_) _ (tileBase_high _ _)
      all_goals exact hregs.foldl fun t r h => h.setReg _ (Nat.lt_add_right _ (tileBase_high n _))

theorem loadBarrier (h : s0.Calm P Q s) (i : Image) (pl : Sparse Nat) (d : TreeDecl) : s0.Calm P Q (s.loadBarrier i pl d) := by
  unfold State.loadBarrier
  split
  · exact h
  · exact h.foldl fun _ _ h => (((h.setFlag _ (Fld.high_off (Fld.high_tile _ _) _)).setFlag _ (Fld.high_off (Fld.high_tile _ _) _)).set _
      (Fld.high_off (Fld.high_tile _ _) _)).set _ (Fld.high_off (Fld.high_tile _ _) _)

theorem loadMcast (h : s0.Calm P Q s) (i : Image) (pl : Sparse Nat) (d : TreeDecl) : s0.Calm P Q (s.loadMcast i pl d) := by
  unfold State.loadMcast
  split
  · exact h
  · exact h.foldl fun _ _ h => ((h.setFlag _ (Fld.high_off (Fld.high_tile _ _) _)).set _ (Fld.high_off (Fld.high_tile _ _) _)).set _
      (Fld.high_off (Fld.high_tile _ _) _)

theorem loadRoutes (h : s0.Calm P Q s) (i : Image) (pl : Sparse Nat) : s0.Calm P Q (s.loadRoutes i pl) := by
  unfold State.loadRoutes
  exact ((h.foldl fun _ _ h => ((h.set _ (Fld.high_tile _ _)).foldl fun _ _ h => h.set _ (Fld.high_off (Fld.high_tile _ _) _)).resetRegs
    _ _ (tileBase_high _ _)).foldl fun _ _ h => h.loadBarrier _ _ _).foldl fun _ _ h => h.loadMcast _ _ _

theorem activate (h : s0.Calm P Q s) (n : Nat) : s0.Calm P Q (s.activate n) := h.set _ (Fld.high_tile _ _)

theorem copyRegs (h : s0.Calm P Q s) (a b lo hi : Nat) : s0.Calm P Q (s.copyRegs a b lo hi) := by
  unfold State.copyRegs
  refine (h.resetRegs _ _ (tileBase_high _ _)).foldl fun t p h => h.setReg _ ?_
  have hb := tileBase_high b 0
  omega

theorem moveTile (h : s0.Calm P False s) (key old new st : Nat) : s0.Calm P False (s.moveTile key old new st) := by
  unfold State.moveTile
  split
  · exact h
  · exact (((((h.loud.copyRegs _ _ _ _).copyRegs _ _ _ _).loadTileRegs _ _ _ _).vacate _ _).activate _)

theorem copySlice (h : s0.Calm P Q s) (i : Image) (key n : Nat) : s0.Calm P Q (s.copySlice i key n) := by
  unfold State.copySlice
  refine h.foldl fun t w h => ?_
  split
  · exact h
  · exact h.foldl fun _ _ h => ((h.wrBytes _ _).wrBytes _ _).quiet

theorem putFormat (h : s0.Calm P Q s) (i : Image) (layer c : Nat) : s0.Calm P Q (s.putFormat i layer c) := by
  unfold State.putFormat
  split
  · exact h
  · exact h.writeRoof _ _ _

theorem copyTables (h : s0.Calm P Q s) (i : Image) (lc c : Nat) : s0.Calm P Q (s.copyTables i lc c) := by
  unfold State.copyTables
  exact (h.foldl fun _ _ h => h.putFormat _ _ _).foldl fun _ _ h => h.foldl fun _ _ h => (h.wrBytes _ _).wrBytes _ _

/-! ### Lost tiles and coaches -/

theorem loseSequences (h : s0.Calm P Q s) (p : Req → Bool) : s0.Calm P Q (s.loseSequences p) := h.mapReqs _ _

theorem takeCoach (h : s0.Calm P False s) (c : Nat) : s0.Calm P False (s.takeCoach c) := by
  unfold State.takeCoach
  exact ite h.loud.setServ h

theorem missSamples (h : s0.Calm P Q s) (n : Nat) : s0.Calm P Q (s.missSamples n) := by
  unfold State.missSamples
  exact h.setServ.inc

theorem noteRepair (h : s0.Calm P Q s) (st : Nat) : s0.Calm P Q (s.noteRepair st) := (h.set _).set _

theorem voidForLoss (h : s0.Calm False False s) : s0.Calm False False s.voidForLoss := h.voidTurn.loud

theorem startJob (h : s0.Calm False False s) (i : Image) (key old m : Nat) (copied : Bool) :
    s0.Calm False False (s.startJob i key old m copied) := by
  unfold State.startJob
  exact (((ite (h.takeCoach _) h).loud.set _ (Fld.high_tile _ _)).noteRepair _).voidForLoss

theorem rebuild (h : s0.Calm False False s) (i : Image) (lc c : Nat) (cmd : Option Nat) : s0.Calm False False (s.rebuild i lc c cmd) := by
  unfold State.rebuild
  dsimp only
  split
  · exact h.repairFail _ _
  · exact (((h.takeCoach _).loud.setTiles _ _).noteRepair _).voidForLoss

theorem moveStray (h : s0.Calm False False s) (i : Image) (c key n : Nat) : s0.Calm False False (s.moveStray i c key n) := by
  unfold State.moveStray
  split
  · exact h.repairFail _ _
  · exact h.startJob _ _ _ _ _

theorem loseCoach (h : s0.Calm False False s) (c finding : Nat) (cmd : Option Nat) : s0.Calm False False (s.loseCoach c finding cmd) := by
  have hiso := (h.isolate c).raiseHead 70 finding c
  unfold State.loseCoach
  refine ite h (ite ?_ hiso)
  split
  · exact hiso
  · have hlost := hiso.loseSequences
    refine ite ?_ (ite ?_ ?_)
    · exact ite ((hlost _).takeCoach _) (hlost _)
    · exact (ite ((hlost _).takeCoach _) (hlost _)).repairFail _ _
    · refine State.Calm.foldl ?_ fun _ _ h => ite (h.moveStray _ _ _ _) h
      split
      · exact (ite ((hlost _).takeCoach _) (hlost _)).rebuild _ _ _ _
      · exact ite ((hlost _).takeCoach _) (hlost _)

/-- A lost tile's slice goes to another site, or its coach is lost. -/
theorem replaceTile (h : s0.Calm False False s) (i : Image) (key n w : Nat) :
    s0.Calm False False (match s.chooseSite i key n with
      | none => (s.addDefect w).loseCoach (n / 144) 3
      | some m => s.startJob i key n m false) := by
  split
  · exact (h.addDefect _).loseCoach _ _ _
  · exact h.startJob _ _ _ _ _

theorem loseTile (h : s0.Calm False False s) (n finding : Nat) (copied : Option Nat) :
    s0.Calm False False (s.loseTile n finding copied) := by
  have hdead : s0.Calm False False (s.set (TILE_STATE.state.tile n) 4) := h.set _ (Fld.high_tile _ _)
  unfold State.loseTile
  refine ite h ?_
  split
  · next key i _ _ =>
    have hraised := hdead.raise 69 n finding key
    refine ite (hraised.addDefect _) (ite ((hraised.addDefect _).repairFail _ _) (ite ?_ (ite ((hraised.addDefect _).takeCoach _) ?_)))
    · split
      · exact (hraised.addDefect _).repairFail _ _
      · exact ((hraised.loud.setServ).noteRepair _).voidForLoss
    · have hseq := State.Calm.ite (c := tileClass n = 1) (hraised.loseSequences (s.usesTile key)) hraised
      have hmissed := State.Calm.ite (c := tileClass n = 2) (hseq.missSamples n) hseq
      cases copied with
      | some m => exact hmissed.startJob _ _ _ _ _
      | none => exact hmissed.replaceTile _ _ _ _
  · exact hdead.addDefect _

theorem failTile (h : s0.Calm P False s) (n : Nat) : s0.Calm P False (s.failTile n) := by
  have hdead : s0.Calm P False (s.set (TILE_STATE.state.tile n) 4) := h.set _ (Fld.high_tile _ _)
  exact ite h (ite hdead.loud (hdead.addDefect _))

/-! ### Memory errors -/

theorem eccCount (h : s0.Calm P Q s) (n bank off : Nat) (ue scrub : Bool) : s0.Calm P Q (s.eccCount n bank off ue scrub) := by
  unfold State.eccCount
  exact (((((ite (h.inc (Fld.high_ix (Fld.high_tile _ _) _)) (h.inc (Fld.high_ix (Fld.high_tile _ _) _))).setFlag _
    (Fld.high_tile _ _)).setFlag _ (Fld.high_tile _ _)).setFlag _ (Fld.high_tile _ _)).set _ (Fld.high_tile _ _)).set _ (Fld.high_tile _ _)

theorem rowError (h : s0.Calm P Q s) (row : Nat) : s0.Calm P Q (s.rowError row).2 := h.quiet

theorem spadUe (h : s0.Calm False False s) (n key off : Nat) (who : Reader) : s0.Calm False False (s.spadUe n key off who) := by
  have hcount := h.eccCount n (bankOf off) off true (who == .scrub)
  have hrow := (hcount.raise 65 n ((s.eccCount n (bankOf off) off true (who == .scrub)).eccLast n) s.turnNo).rowError (key / 64 * 64)
  unfold State.spadUe
  exact ite (ite (hrow.failTile _) hrow).voidTurn (ite (hrow.failTile _) hrow)

theorem readCoded (h : s0.Calm False False s) (n key off len : Nat) (who : Reader) :
    s0.Calm False False (s.readCoded n key off len who).2 := by
  unfold State.readCoded
  exact State.Calm.foldl_snd h fun _ _ h => ite (h.eccCount _ _ _ _ _) (ite (h.spadUe _ _ _ _) h)

theorem takeSpare (h : s0.Calm P False s) (j : RoofJob) : s0.Calm P False (s.takeSpare j) := by
  unfold State.takeSpare
  split
  · exact h
  · exact ((h.addDefect _).raise _ _ _ _).loud

end State.Calm
end Sys2Proof.Machine
end

section
/-! PROOFS. What the work within a turn leaves alone, continued: CORE cycles, weight storage, the ports and the array. -/

set_option Elab.async false

namespace Sys2Proof.Machine
namespace State.Calm

variable {P Q : Prop} {s0 s : State}

/-! ### CORE cycles -/

theorem commit (h : s0.Calm P Q s) (w : Late) : s0.Calm P Q (s.commit w) := by
  unfold State.commit
  refine ite h ?_
  split
  · exact h.writeRoof _ _ _
  · dsimp only
    split
    · exact h.writeCoded _ _
    · exact (h.writeCoded _ _).quiet

theorem commitRound (h : s0.Calm P Q s) (busy : List (Nat × Nat)) (l : List Late) : s0.Calm P Q (s.commitRound busy l).1 := by
  induction l generalizing s busy with
  | nil => exact h
  | cons w l ih =>
    unfold State.commitRound
    split
    · exact ih (h.commit w) _
    · exact ih h _

theorem circApply (h : s0.Calm P Q s) (n c k : Nat) (pop : Bool) : s0.Calm P Q (s.circApply n c k pop) :=
  ite (h.setCirc _ _ _ _ _) (h.setCirc _ _ _ _ _)

theorem circDecide (h : s0.Calm P Q s) (o : CircOp) : s0.Calm P Q (s.circDecide o) := by
  unfold State.circDecide
  refine ite h.quiet (ite (ite (h.circApply _ _ _ _) ?_) (ite (h.circApply _ _ _ _) h.quiet))
  dsimp only
  split
  · exact h.quiet
  · exact h.quiet.set _ (Fld.high_off (Fld.high_tile _ _) _)

theorem endCycle (h : s0.Calm P Q s) : s0.Calm P Q s.endCycle := by
  unfold State.endCycle
  exact (h.commitRound [] s.tile.late).quiet.foldl fun _ _ h => h.circDecide _

theorem endCycles (h : s0.Calm P Q s) (n : Nat) : s0.Calm P Q (State.endCycles n s) := by
  induction n generalizing s with
  | zero => exact h
  | succ n ih => exact ih h.endCycle

theorem cycles (h : s0.Calm P Q s) (n : Nat) : s0.Calm P Q (s.cycles n) := by
  unfold State.cycles
  exact (h.endCycles _).quiet

/-! ### Weight storage -/

theorem reloadWord (h : s0.Calm P Q s) (key : Nat) : s0.Calm P Q (s.reloadWord key).2 := by
  unfold State.reloadWord
  split
  · dsimp only
    split
    · exact h.quiet
    · split
      · exact h.quiet
      · exact h.writeRoof _ _ _
  · split
    · exact h.quiet
    · split
      · exact h
      · exact h.writeRoof _ _ _

theorem reloadRow (h : s0.Calm P Q s) (key : Nat) (row : Bool) : s0.Calm P Q (s.reloadRow key row).2 := by
  unfold State.reloadRow
  exact foldl_snd h fun _ _ h => h.reloadWord _

theorem queueJob (h : s0.Calm P False s) (j : RoofJob) : s0.Calm P False (s.queueJob j) := by
  unfold State.queueJob
  exact ite h.quiet ((h.reloadRow _ _).takeSpare _)

theorem roofJob (h : s0.Calm P False s) (key : Nat) : s0.Calm P False (s.roofJob key) := by
  have hrow := h.rowError (100 * 281474976710656 + Config.roofRow key)
  unfold State.roofJob
  exact ite h (ite (hrow.queueJob _) (ite (hrow.quiet.queueJob _) (ite (hrow.quiet.queueJob _) (hrow.failTile _))))

theorem readRoof (h : s0.Calm False False s) (key : Nat) (who : Reader) : s0.Calm False False (s.readRoof key who).2 := by
  unfold State.readRoof
  dsimp only
  split
  · exact h
  · next mask _ =>
    dsimp only
    have hcount := State.Calm.ite (c := (roofDecode mask).1 = 0) h
      (h.eccCount (s.roofUnit key) (roofCode key) (roofOffset key) ((roofDecode mask).1 == 2) (who == .scrub))
    exact ite ((ite (hcount.raise _ _ _ _).voidTurn hcount).roofJob _) hcount

theorem readWord (h : s0.Calm False False s) (n w : Nat) (who : Reader) : s0.Calm False False (s.readWord n w who).2 := h.readRoof _ _

/-! ### Traps, hazards and the ports -/

theorem trap (h : s0.Calm False False s) (n port kind circ space off : Nat) (faults : Bool) :
    s0.Calm False False (s.trap n port kind circ space off faults) := by
  have hlog := (State.Calm.ite (c := s.flag (TILE_TRAP.valid.tile n) = true) (h.inc (f := TILE_TRAP.further.tile n) (d := 1) (Fld.high_tile _ _))
    (h.setReg (2 ^ 63 + port * 2 ^ 60 + kind * 2 ^ 56 + circ % 16 * 2 ^ 44 + space % 4 * 2 ^ 28 + off % 2 ^ 28)
      (tileBase_high n TILE_TRAP.valid.key)))
  unfold State.trap
  exact ite (ite (hlog.raise _ _ _ _).inc.faultTurn (hlog.raise _ _ _ _).inc) (hlog.raise _ _ _ _)

theorem hazard (h : s0.Calm P False s) (n kind port addr other : Nat) : s0.Calm P False (s.hazard n kind port addr other) := by
  have hcount : s0.Calm P False (s.inc ((hazCount kind).tile n)) := h.inc (Fld.high_tile _ _)
  unfold State.hazard
  refine ite (ite ?_ (ite ?_ ?_)) h
  · exact hcount.setFlag _ (Fld.high_tile _ _)
  · exact ((hcount.setReg _ (Nat.lt_add_right _ (tileBase_high _ _))).setReg _ (Nat.lt_add_right _ (tileBase_high _ _))).set _
      (Fld.high_tile _ _)
  · exact (((hcount.setReg _ (Nat.lt_add_right _ (tileBase_high _ _))).setReg _ (Nat.lt_add_right _ (tileBase_high _ _))).set _
      (Fld.high_tile _ _)).loud.raise _ _ _ _

theorem noteWrite (h : s0.Calm P False s) (n : Nat) (p : Port) (off len : Nat) : s0.Calm P False (s.noteWrite n p off len) := by
  unfold State.noteWrite
  exact h.quiet.foldl fun _ _ h => h.hazard _ _ _ _ _

theorem queueRows (h : s0.Calm P Q s) (n port op : Nat) (remote : Bool) (rows : List (Nat × List Byte)) :
    s0.Calm P Q (s.queueRows n port op remote rows) := h.quiet

theorem queueWrite (h : s0.Calm P False s) (n : Nat) (p : Port) (off : Nat) (bs : List Byte) (op : Nat) (remote : Bool) :
    s0.Calm P False (s.queueWrite n p off bs op remote) := (h.noteWrite _ _ _ _).queueRows _ _ _ _ _

theorem writePort (h : s0.Calm False False s) (n : Nat) (p : Port) (off : Nat) (bs : List Byte) :
    s0.Calm False False (s.writePort n p off bs) := ite (h.queueWrite _ _ _ _ _ _) (h.trap _ _ _ _ _ _ _)

/-! ### The array (R141, R192) -/

theorem tableEntries (h : s0.Calm False False s) (c off count : Nat) : s0.Calm False False (s.tableEntries c off count).2 := by
  unfold State.tableEntries
  exact foldl_snd h fun _ _ h => h.readRoof _ _

theorem channelScales (h : s0.Calm False False s) (c half layer row count : Nat) (alt : Bool) :
    s0.Calm False False (s.channelScales c half layer row count alt).2 := h.tableEntries _ _ _

theorem readLine (h : s0.Calm False False s) (n line : Nat) : s0.Calm False False (s.readLine n line).2 := by
  unfold State.readLine
  exact snd_ite (foldl_snd h fun _ _ h => h.readWord _ _ _) (h.trap _ _ _ _ _ _ _)

theorem groupLine (h : s0.Calm False False s) (n set line layer entry l : Nat) :
    s0.Calm False False (s.groupLine n set line layer entry l) := by
  unfold State.groupLine
  exact ((ite (h.wipe _ _) h).readLine _ _).foldl fun _ _ h => ite h (h.foldl fun _ _ h => h.wrNum _ _ _)

theorem drainLatch (h : s0.Calm False False s) (n layer row0 carriage sweep : Nat) :
    s0.Calm False False (s.drainLatch n layer row0 carriage sweep).2 := h.channelScales _ _ _ _ _ _

theorem drainRows (h : s0.Calm False False s) (n set out : Nat) (latch : List Nat × List Bool) (j : Nat) :
    s0.Calm False False (s.drainRows n set out latch j) := (h.readCoded _ _ _ _ _).writePort _ _ _ _

theorem drainCycle (h : s0.Calm False False s) (older : List ArrayOp) (o : ArrayOp) : s0.Calm False False (s.drainCycle older o).1 := by
  unfold State.drainCycle
  split
  · exact h
  · next n set out layer row0 car sweep latch d =>
    split
    · exact h
    · cases latch with
      | some l => exact h.drainRows _ _ _ _ _
      | none => exact (h.drainLatch _ _ _ _ _).drainRows _ _ _ _ _

theorem groupCycle (h : s0.Calm False False s) (o : ArrayOp) : s0.Calm False False (s.groupCycle o).1 := by
  unfold State.groupCycle
  split
  · exact h.groupLine _ _ _ _ _ _
  · exact h

theorem arrayCycle (h : s0.Calm False False s) : s0.Calm False False s.arrayCycle := by
  have hdrain (l : List ArrayOp) := foldl_fst (l := l) (b := (s, ([] : List ArrayOp)))
    (f := fun x o => ((x.1.drainCycle x.2 o).1, x.2 ++ [(x.1.drainCycle x.2 o).2])) h fun _ _ h => h.drainCycle _ _
  have hgroup (l : List ArrayOp) := foldl_fst (l := l) (b := (_, ([] : List ArrayOp)))
    (f := fun x o => ((x.1.groupCycle o).1, x.2 ++ [(x.1.groupCycle o).2])) (hdrain s.tile.arrays) fun _ _ h => h.groupCycle _
  exact (hgroup _).quiet

theorem workCycles (h : s0.Calm False False s) (n : Nat) : s0.Calm False False (State.workCycles n s) := by
  induction n generalizing s with
  | zero => exact h
  | succ n ih => exact ih (h.arrayCycle.cycles 1)

theorem work (h : s0.Calm False False s) (n : Nat) : s0.Calm False False (s.work n) := (h.workCycles _).cycles _

theorem trapCircs (h : s0.Calm False False s) : s0.Calm False False s.trapCircs := by
  unfold State.trapCircs
  exact h.quiet.foldl fun _ _ h => h.trap _ _ _ _ _ _ _

theorem next (h : s0.Calm False False s) (n : Nat) : s0.Calm False False (s.next n) := by
  unfold State.next
  exact (h.work n).quiet

theorem atOffset (h : s0.Calm False False s) (off : Nat) : s0.Calm False False (s.atOffset off) := by
  unfold State.atOffset
  exact (h.next _).trapCircs.quiet

theorem issued (h : s0.Calm False False s) (n : Nat) (a : SchedAction) : s0.Calm False False (s.issued n a) := by
  unfold State.issued
  exact (h.atOffset _).quiet

end State.Calm
end Sys2Proof.Machine
end

section
/-! PROOFS. A program step (R73, R102, R107, R192, R287, R365, R417): its issue, and what single operations do from there. -/

set_option Elab.async false

namespace Sys2Proof.Machine

/-- An action that is due is issued: the step runs on the state that its issue leaves. -/
theorem execActionProgramStep_issues {dt n i : Nat} {a : SchedAction} {s : State} (ops : List ProgOp) (ups : List Upset)
    (hact : (s.pass dt).action n i = some a) (hclock : (s.pass dt).clockAtOffset a.offset = true) (hnext : i = (s.pass dt).issuedBy n)
    (hkind : a.kind = 1) (hstate : (s.pass dt).get (TILE_STATE.state.tile n) ≠ 0) (htile : (s.pass dt).tileClock n = true) :
    execActionProgramStep dt n i ops ups s =
      .next (ops.foldl (fun (u : State) o => u.progOp n a.offset o) (((s.pass dt).issued n a).upset ups)) := by
  rw [execActionProgramStep, State.issue, hact]
  exact congrArg Host.Outcome.next (if_pos ⟨hclock, hnext, hkind, hstate, htile⟩)

/-- A step of one operation that reads no flipped bit. -/
theorem execActionProgramStep_single {dt n i : Nat} {a : SchedAction} {s : State} (o : ProgOp)
    (hact : (s.pass dt).action n i = some a) (hclock : (s.pass dt).clockAtOffset a.offset = true) (hnext : i = (s.pass dt).issuedBy n)
    (hkind : a.kind = 1) (hstate : (s.pass dt).get (TILE_STATE.state.tile n) ≠ 0) (htile : (s.pass dt).tileClock n = true) :
    execActionProgramStep dt n i [o] [] s = .next (((s.pass dt).issued n a).progOp n a.offset o) :=
  execActionProgramStep_issues [o] [] hact hclock hnext hkind hstate htile

/-- The issue counts the action and takes its bytes into the tile's checksum. -/
theorem State.issued_effect (s : State) (n : Nat) (a : SchedAction) :
    (s.issued n a).issuedBy n = (s.atOffset a.offset).issuedBy n + 1
      ∧ Sparse.find (s.issued n a).tile.sums n =
        some (crcMore ((Sparse.find (s.atOffset a.offset).tile.sums n).getD 0xFFFFFFFF) (actionBytes a))
      ∧ (s.atOffset a.offset).sameBut (s.issued n a) [.tile] := by
  refine ⟨?_, ?_, by simp [State.sameBut, State.issued]⟩
  · simp [State.issuedBy, State.issued, Sparse.find_put_same]
  · simp [State.issued, Sparse.find_put_same]

/-- A write that does not trap waits behind the open cycle's writes by its port's priority. -/
theorem State.writePort_waits {s : State} {n : Nat} {p : Port} {off : Nat} {d : List Byte}
    (h : s.portTrap n p off d.length localWrite = 0) : s.writePort n p off d = s.queueWrite n p off d := if_pos h

theorem State.queueWrite_effect (s : State) (n : Nat) (p : Port) (off : Nat) (d : List Byte) :
    (s.queueWrite n p off d).tile.late = rowsBehind n p (cutRows off d) s.tile.late
      ∧ s.sameBut (s.queueWrite n p off d) [.regs, .ev, .tile] ∧ s.regsBut (s.queueWrite n p off d) (hazardFields n) := by
  obtain ⟨regs, ev, writes, turns, h⟩ := s.queueWrite_parts n p off d
  exact ⟨by rw [h], by rw [h]; simp [State.sameBut], s.queueWrite_regsBut n p off d⟩

/-- A row group of at least one line joins the array's operations. -/
theorem State.startArray_group (s : State) (n set line layer entry : Nat) {lines : Nat} (h : 0 < lines) :
    s.startArray (.group n set line lines layer entry 0) =
      { s with tile := { s.tile with arrays := s.tile.arrays ++ [.group n set line lines layer entry 0] } } :=
  if_neg (by simp only [ArrayOp.left]; omega)

theorem Memory.length_getBytes (m : List Host.Cell) (a n : Nat) : (Memory.getBytes m a n).length = n := by
  induction n generalizing a with
  | zero => rfl
  | succ n ih => rw [Memory.getBytes, List.length_cons, ih]

/-- Bytes copied in memory: they read back, and no other byte changes. -/
theorem State.wrBytes_copy {s : State} (hw : Memory.wf s.mem = true) (dst src len : Nat) :
    (s.wrBytes dst (s.bytes src len)).bytes dst len = s.bytes src len ∧ s.memBut (s.wrBytes dst (s.bytes src len)) [(dst, len)]
      ∧ s.sameBut (s.wrBytes dst (s.bytes src len)) [.mem] := by
  have hlen : (s.bytes src len).length = len := Memory.length_getBytes ..
  have hread := State.bytes_of_setBytes (s := s) (t := s.wrBytes dst (s.bytes src len)) rfl hw
  have hkeep := State.memBut_of_setBytes (s := s) (t := s.wrBytes dst (s.bytes src len)) rfl
  rw [hlen] at hread hkeep
  exact ⟨hread, hkeep, by simp [State.sameBut]⟩

/-- A packet of no tree leaves toward its destination. -/
theorem State.inject_sends (s : State) (n : Nat) {p : Packet} (h : p.ty ≠ 5) :
    s.inject n p = { s with net := { s.net with fly := s.net.fly ++ [p] } } := if_neg h

/-- Settles O14: the issue is common to all clauses, and each single operation is one rule of the state. The canonical form of memory, which
the panel load needs, lasts through the CORE cycles up to the offset (`State.Calm.issued`). -/
theorem programStep : Obligations.ProgramStep := by
  unfold Obligations.ProgramStep
  refine ⟨?_, ?_, ?_, ?_, ?_, ?_⟩
  · rintro dt n i a ops ups s _ _ rfl rfl hact hclock hnext hkind hstate htile
    exact execActionProgramStep_issues ops ups hact hclock hnext hkind hstate htile
  · rintro dt n i a s _ rfl hact hclock hnext hkind hstate htile
    exact ⟨_, execActionProgramStep_issues [] [] hact hclock hnext hkind hstate htile, (s.pass dt).issued_effect n a⟩
  · rintro dt n i a p off d s _ _ rfl rfl hact hclock hnext hkind hstate htile htrap
    exact ⟨_, (execActionProgramStep_single _ hact hclock hnext hkind hstate htile).trans
      (congrArg Host.Outcome.next (State.writePort_waits htrap)), State.queueWrite_effect _ n p off d⟩
  · rintro dt n i a set line lines layer entry s _ _ rfl rfl hact hclock hnext hkind hstate htile hlines
    exact ⟨_, (execActionProgramStep_single _ hact hclock hnext hkind hstate htile).trans
      (congrArg Host.Outcome.next (State.startArray_group _ n set line layer entry hlines)), rfl, by simp [State.sameBut]⟩
  · rintro dt n i a store o words s _ _ rfl rfl hact hclock hnext hkind hstate htile hwf
    have hcalm : (s.pass dt).Calm False False ((s.pass dt).issued n a) := (State.Calm.refl _).issued n a
    exact ⟨_, execActionProgramStep_single _ hact hclock hnext hkind hstate htile, State.wrBytes_copy (hcalm.mem hwf) _ _ _⟩
  · rintro dt n i a p s _ _ rfl rfl hact hclock hnext hkind hstate htile hty
    exact ⟨_, (execActionProgramStep_single _ hact hclock hnext hkind hstate htile).trans
      (congrArg Host.Outcome.next (State.inject_sends _ n hty)), rfl, by simp [State.sameBut]⟩

end Sys2Proof.Machine
end

section
/-! PROOFS. What the work within a turn leaves alone, continued: the serving of requests. -/

set_option Elab.async false

namespace Sys2Proof.Machine
namespace State.Calm

variable {P Q : Prop} {s0 s : State}

/-! ### Pages -/

theorem srNext (h : s0.Calm P Q s) (n x : Nat) : s0.Calm P Q (s.srNext n x) := ite (h.set _ (Fld.high_off (Fld.high_tile _ _) _)) h

theorem spillPage (h : s0.Calm False False s) (n off dh dst : Nat) : s0.Calm False False (s.spillPage n off dh dst) := by
  unfold State.spillPage
  exact (h.readCoded n (spadKey n off) off (128 * dh) _).foldl fun _ _ h => (h.foldl fun _ _ h => h.wrBytes _ _).srNext _ _

theorem spillSet (h : s0.Calm False False s) (g : Nat) (k : KvSet) : s0.Calm False False (s.spillSet g k) := by
  unfold State.spillSet
  split
  · exact h
  · exact h.foldl fun _ _ h => h.spillPage _ _ _ _

theorem fetchTail (h : s0.Calm P Q s) (g tow slot len : Nat) : s0.Calm P Q (s.fetchTail g tow slot len) := by
  unfold State.fetchTail
  split
  · exact h
  · exact h.foldl fun _ _ h => (h.writeSpad _ _ _).writeSpad _ _ _

theorem newSet (h : s0.Calm P Q s) (id g p : Nat) : s0.Calm P Q (s.newSet id g p) := by
  unfold State.newSet
  split
  · exact h
  · next res s1 hpool =>
    have hone := h.allocPool hpool
    split
    · exact hone
    · next tow s2 htow => exact (hone.allocTow htow).updReq _ _

/-! ### Prompts and prefixes -/

theorem touch (h : s0.Calm P Q s) (ids : List Nat) (r : Bool) : s0.Calm P Q (s.touch ids r) := h.setServ

theorem enqueue (h : s0.Calm P Q s) (r : Req) : s0.Calm P Q (s.enqueue r) := by
  unfold State.enqueue
  refine h.setServ ?_
  split <;> rfl

theorem queuePrompt (h : s0.Calm P Q s) (id : Nat) : s0.Calm P Q (s.queuePrompt id) := by
  unfold State.queuePrompt
  split
  · exact h
  · exact ite ((h.updReq _ _).enqueue _) (h.updReq _ _).setServ

theorem lookup (h : s0.Calm P Q s) (id : Nat) : s0.Calm P Q (s.lookup id) := by
  unfold State.lookup
  split
  · exact h
  · refine ite ((h.updReq _ _).queuePrompt _) ?_
    dsimp only
    split
    · exact ((h.inc.inc.inc.touch _ _).updReq _ _).queuePrompt _
    · exact (((((h.inc.inc.inc.touch _ _).updReq _ _).touch _ _).foldl fun _ _ h => h.newSet _ _ _).updReq _ _).setServ

theorem removeNode (h : s0.Calm P Q s) (n : Node) : s0.Calm P Q (s.removeNode n) := by
  unfold State.removeNode
  exact h.setServ.syncNodes

/-- The state with room for one more tail of a parent. -/
theorem roomForTail (h : s0.Calm P Q s) {kids : List Node} {tail : Prop} [Decidable tail] {t : State}
    (ht : (if tail ∧ 4 ≤ kids.length then
      match oldest (kids.filter s.evictable) with
      | none => none
      | some n => some ((s.removeNode n).inc HEAD_PREFIX_STATUS.evictions)
    else some s) = some t) : s0.Calm P Q t := by
  split at ht
  · split at ht
    · cases ht
    · cases ht
      exact (h.removeNode _).inc
  · cases ht
    exact h

theorem roomFor (h : s0.Calm P Q s) {parent : Option Nat} {tail : Bool} {t : State} (ht : s.roomFor parent tail = some t) :
    s0.Calm P Q t := by
  unfold State.roomFor at ht
  dsimp only at ht
  split at ht
  · cases ht
  · next u hu =>
    have hroom := h.roomForTail hu
    split at ht
    · cases ht
      exact hroom
    · split at ht
      · cases ht
      · cases ht
        exact (hroom.removeNode _).inc

theorem setCar (h : s0.Calm P Q s) (c : Nat) (x : Car) : s0.Calm P Q (s.setCar c x) := h.setServ

theorem growGroup (h : s0.Calm P Q s) (id g last n : Nat) : s0.Calm P Q (s.growGroup id g last n).2 := by
  induction n generalizing s with
  | zero => exact h
  | succ n ih =>
    unfold State.growGroup
    split
    · exact h
    · exact snd_ite h (snd_ite h (ih (h.newSet _ _ _)))

theorem writeTables (h : s0.Calm P Q s) (r : Req) (x : Car) : s0.Calm P Q (s.writeTables r x) := by
  unfold State.writeTables
  exact h.foldl fun _ _ h => (h.foldl fun _ _ h => h.wrEntry _ _ _ _).wrLane _ _ _ _ _ _ _ _

/-! ### Passes -/

theorem commitPass (h : s0.Calm P Q s) (p : Pass) : s0.Calm P Q (s.commitPass p) := by
  unfold State.commitPass
  split
  · exact h
  · next r _ =>
    refine ite h ?_
    have hpass := ((((h.foldl (l := List.zip (List.range p.tokens.length) p.tokens) fun _ x h =>
      h.produce r.ring 1 0 r.tag x.2 (r.tokens.length + x.1) true).wrTokens r r.genBlock r.gen.length p.tokens).wrSlot r 88
      (leBytes 4 (r.gen.length + p.tokens.length))).charge r.tenant (16 * p.tokens.length)).updReq r.id
        fun q => { q with gen := q.gen ++ p.tokens }
    dsimp only
    split
    · exact hpass.endReq _ _
    · exact ite (hpass.updReq _ _).inc.inc (hpass.updReq _ _)

theorem commitTurn (h : s0.Calm P Q s) (c : Nat) : s0.Calm P Q (s.commitTurn c) := by
  unfold State.commitTurn
  have hpass (l : List Pass) (f : Req → Req) (p : Req → Bool) := ((h.mapReqs p f).foldl (l := l) fun _ x h => h.commitPass x)
  exact ite ((hpass _ _ _).setServ.setCar _ _) (hpass _ _ _).setServ

theorem moveReservations (h : s0.Calm P Q s) : s0.Calm P Q s.moveReservations := by
  unfold State.moveReservations
  refine h.foldl fun t r h => h.foldl fun u g h => h.foldl fun v k h => ?_
  split
  · exact h
  · next m w hw => exact (h.allocTow hw).updReq _ _

theorem preparePass (h : s0.Calm P Q s) (id : Nat) : s0.Calm P Q (s.preparePass id) := by
  unfold State.preparePass
  have hgrow := foldl_snd (b := (true, s)) (l := List.range s.depth) (f := fun (a : Bool × State) g =>
    let y := a.2.growGroup id g (match a.2.req? id with | none => 0 | some r => a.2.lastSet r) 2
    (a.1 && y.1, y.2)) h fun _ _ h => h.growGroup _ _ _ _
  exact ite (hgrow.updReq _ _) (hgrow.updReq _ _).inc

theorem startSpills (h : s0.Calm P Q s) (id : Nat) : s0.Calm P Q (s.startSpills id) := by
  unfold State.startSpills
  split
  · exact h
  · exact (h.updReq _ _).setServ

theorem endVisits (h : s0.Calm P Q s) (t : Nat) : s0.Calm P Q (s.endVisits t) := by
  unfold State.endVisits
  exact (h.foldl fun _ _ h => h.foldl fun _ _ h => ite (h.foldl fun _ _ h => h.wrEntry _ _ _ _) h).mapReqs _ _

theorem clearLane (h : s0.Calm P Q s) (c j : Nat) : s0.Calm P Q (s.clearLane c j) := h.foldl fun _ _ h => h.wrLane _ _ _ _ _ _ _ _

theorem tablesOf (h : s0.Calm P Q s) (c : Nat) : s0.Calm P Q (s.tablesOf c) := h.foldl fun _ _ h => h.writeTables _ _

/-! ### Tenants and slots -/

theorem refillTenant (h : s0.Calm P Q s) (t : Nat) : s0.Calm P Q (s.refillTenant t) :=
  ite h (ite (h.setLevel _ _) (h.setLevel _ _))

theorem refill (h : s0.Calm P Q s) : s0.Calm P Q s.refill := by
  unfold State.refill
  exact (h.foldl fun _ _ h => h.refillTenant _).setServ

theorem leaveSlot (h : s0.Calm P Q s) (r : Req) : s0.Calm P Q (s.leaveSlot r) :=
  (h.foldl fun _ _ h => h.foldl fun _ _ h => h.wrWord _ _ _ _ _).clearLane _ _

theorem park (h : s0.Calm P Q s) (r : Req) : s0.Calm P Q (s.park r) := by
  unfold State.park
  exact ((h.leaveSlot _).updReq _ _).setServ

theorem releaseEnded (h : s0.Calm P Q s) (c : Nat) : s0.Calm P Q (s.releaseEnded c) :=
  h.foldl fun _ _ h => (ite ((h.leaveSlot _).freeSlot _) h).forget _

theorem parkOver (h : s0.Calm P Q s) (c : Nat) : s0.Calm P Q (s.parkOver c) :=
  h.foldl fun _ _ h => ite (ite (h.park _) (ite (h.updReq _ _) h)) (ite (h.park _) h)

theorem unpark (h : s0.Calm P Q s) (ids : List Nat) : s0.Calm P Q (s.unpark ids) := by
  unfold State.unpark
  exact (h.mapReqs _ _).setServ

theorem recover (h : s0.Calm P False s) (r : Req) : s0.Calm P False (s.recover r) := by
  unfold State.recover
  exact (((((ite (h.leaveSlot _) h).unqueue _).dropRefs _).syncNodes.updReq _ _).inc.raise _ _ _ _).lookup _

theorem recoverLost (h : s0.Calm P False s) : s0.Calm P False s.recoverLost := h.foldl fun _ _ h => h.recover _

theorem accrue (h : s0.Calm P Q s) (len : Nat) : s0.Calm P Q (s.accrue len) := by
  unfold State.accrue
  exact h.setServ.set _

theorem abandonRound (h : s0.Calm P Q s) : s0.Calm P Q s.abandonRound := by
  unfold State.abandonRound
  split
  · exact h
  · exact (((h.foldl fun _ _ h => h.updReq _ _).setServ.setFlag _).mapReqs _ _).inc

theorem place (h : s0.Calm P Q s) (r : Req) (c j : Nat) : s0.Calm P Q (s.place r c j) := by
  unfold State.place
  exact ((h.unqueue _).updReq _ _).setCar _ _

theorem offer (h : s0.Calm P Q s) (c id : Nat) : s0.Calm P Q (s.offer c id).2 := by
  unfold State.offer
  split
  · exact h
  · refine snd_ite h (snd_ite ?_ (snd_ite h.inc (h.place _ _ _)))
    dsimp only
    exact ((h.unqueue _).updReq _ _).setServ

theorem assignTo (h : s0.Calm P Q s) (c : Nat) : s0.Calm P Q (s.assignTo c) :=
  foldl_snd h fun _ _ h => snd_ite h (h.offer _ _)

theorem nextPasses (h : s0.Calm P Q s) (c : Nat) : s0.Calm P Q (s.nextPasses c) := by
  unfold State.nextPasses
  exact ((h.foldl fun _ _ h => (ite (h.preparePass _) (h.foldl fun _ _ h => h.growGroup _ _ _ _)).startSpills _).tablesOf _).flipTables

/-! ### Prompt processing -/

theorem prefillSet (h : s0.Calm False False s) (id g upto : Nat) : s0.Calm False False (s.prefillSet id g upto) := by
  unfold State.prefillSet
  refine h.foldl fun u k h => newSet (ite h ?_) _ _ _
  split
  · exact h
  · exact (h.spillSet _ _).updReq _ _

theorem prefillSets (h : s0.Calm False False s) (id upto : Nat) : s0.Calm False False (s.prefillSets id upto) :=
  h.foldl fun _ _ h => h.prefillSet _ _ _

theorem copyNodes (h : s0.Calm False False s) (r : Req) (old : List Node) : s0.Calm False False (s.copyNodes r old) := by
  unfold State.copyNodes
  refine h.foldl fun t n h => h.foldl fun u g h => ?_
  split
  · exact h
  · refine ite (h.spillSet _ _) ?_
    split
    · exact h
    · exact h.foldl fun _ _ h => h.wrBytes _ _

end State.Calm
end Sys2Proof.Machine
end

section
/-! PROOFS. What the work within a turn leaves alone, continued: the serving at the boundary. -/

set_option Elab.async false

namespace Sys2Proof.Machine
namespace State.Calm

variable {P Q : Prop} {s0 s : State}

/-! ### Prefix nodes -/

/-- Updates that may find no room. -/
theorem foldl_some {α β : Type} {f : Option (β × State) → α → Option (β × State)} {l : List α} {a : Option (β × State)}
    (ha : ∀ b t, a = some (b, t) → s0.Calm P Q t)
    (hf : ∀ a x, (∀ b t, a = some (b, t) → s0.Calm P Q t) → ∀ b t, f a x = some (b, t) → s0.Calm P Q t) {b : β} {t : State}
    (h : l.foldl f a = some (b, t)) : s0.Calm P Q t := by
  induction l generalizing a with
  | nil => exact ha b t h
  | cons x l ih => exact ih (hf a x ha) h

theorem insertNode (h : s0.Calm P Q s) (r : Req) (p : Nat) (parent : Option Nat) (hash handle : Nat) (toks : List Nat) (tail : Bool) :
    s0.Calm P Q (s.insertNode r p parent hash handle toks tail).2 := by
  unfold State.insertNode
  split
  · exact h
  · next s1 hroom =>
    have hone := h.roomFor hroom
    dsimp only
    split
    · exact hone
    · next slots s2 hslots =>
      have htwo : s0.Calm P Q s2 := by
        refine foldl_some (fun _ _ he => by cases he; exact hone) (fun a g ha b t hstep => ?_) hslots
        split at hstep
        · cases hstep
        · split at hstep
          · cases hstep
          · split at hstep
            · cases hstep
            · next m u hm =>
              cases hstep
              exact ((ha _ _ rfl).allocTow hm).setServ
      exact (htwo.setServ.wrBytes _ _).syncNodes

theorem insertPrompt (h : s0.Calm P Q s) (r : Req) : s0.Calm P Q (s.insertPrompt r) := by
  unfold State.insertPrompt
  refine ite h ?_
  dsimp only
  generalize hfin : List.foldl _ (some (none, s.prefixRoot r), s) _ = fin
  have hblocks : s0.Calm P Q fin.2 := by
    rw [← hfin]
    refine foldl_snd h fun a k h => ?_
    split
    · exact h
    · split
      · exact snd_ite h h
      · split
        · exact h.insertNode _ _ _ _ _ _ _
        · exact h.insertNode _ _ _ _ _ _ _
  split
  · exact hblocks
  · exact ite hblocks (hblocks.insertNode _ _ _ _ _ _ _)

theorem copyState_high (a c : Nat) : (copyState a c).high = true := by
  unfold copyState
  split
  · exact Fld.high_ix (by rfl) a
  · exact Fld.high_ix (by rfl) a

theorem halfState_high (k : Nat) : (halfState k).high = true := by
  unfold halfState
  split <;> rfl

theorem drainCopies (h : s0.Calm P False s) : s0.Calm P False s.drainCopies := by
  unfold State.drainCopies
  exact (h.foldl fun _ _ h => h.foldl fun _ _ h => ite ((h.set _ (copyState_high _ _)).setServ.raiseHead _ _ _) h).foldl fun _ _ h =>
    ite ((h.set _ (halfState_high _)).raiseHead _ _ _) h

theorem dropDrained (h : s0.Calm P Q s) : s0.Calm P Q s.dropDrained := h.foldl fun _ _ h => h.removeNode _

theorem takeViews (h : s0.Calm P Q s) (t : Nat) : s0.Calm P Q (s.takeViews t) := h.setServ

theorem startRound (h : s0.Calm P Q s) (t start : Nat) : s0.Calm P Q (s.startRound t start) := by
  unfold State.startRound
  dsimp only
  split
  · exact h.mapReqs _ _
  · refine ite (h.mapReqs _ _) (ite (h.mapReqs _ _).inc (ite (h.mapReqs _ _) ?_))
    refine inc (set (setFlag (set (setServ (foldl (h.mapReqs _ _) fun u ch h => ?_)) _) _) _)
    split
    · exact h
    · exact (h.charge _ _).updReq _ _

theorem endRound (h : s0.Calm False False s) : s0.Calm False False s.endRound.2 := by
  unfold State.endRound
  split
  · exact h
  · refine foldl_snd (h.setServ.setFlag _) fun a ch h => ?_
    split
    · exact h
    · refine snd_ite (h.updReq _ _) ?_
      dsimp only
      split
      · exact (h.updReq _ _).prefillSets _ _
      · refine snd_ite ?_ ((h.updReq _ _).prefillSets _ _)
        exact (((((h.updReq _ _).prefillSets _ _).insertPrompt _).copyNodes _ _).setServ).updReq _ _

theorem followNodes (h : s0.Calm P Q s) (l : List Node) : s0.Calm P Q (s.followNodes l) := by
  unfold State.followNodes
  refine syncNodes (h.setServ.foldl fun t x h => ?_)
  split
  · exact h.setServ
  · refine setServ (foldl_snd (b := ([], _)) h.serv fun a g h => ?_)
    split
    · exact h
    · next m u hm =>
      dsimp only
      exact (h.allocTow hm).setServ

theorem followReq (h : s0.Calm P Q s) (r : Req) : s0.Calm P Q (s.followReq r) := by
  unfold State.followReq
  dsimp only
  split
  · exact (ite (h.leaveSlot _) h).updReq _ _
  · refine ite h.setServ ?_
    split
    · exact h.setServ
    · refine h.setServ.foldl fun u g h => ?_
      split
      · exact h.newSet _ _ _
      · split
        · exact h.newSet _ _ _
        · exact (h.newSet _ _ _).fetchTail _ _ _ _

theorem follow (h : s0.Calm False False s) (d : Decisions) (t : Nat) : s0.Calm False False (s.follow d t) := by
  unfold State.follow
  dsimp only
  refine setFlag (setServ (foldl (foldl (foldl (followNodes (foldl (h.setServ.endVisits t) fun u r h => ?_) _) fun u r h => ?_)
    fun u r h => ?_) fun u r h => ?_)) _
  · exact (ite (h.leaveSlot _) h).setServ
  · exact h.followReq _
  · exact ite h (h.prefillSets _ _)
  · refine ite ?_ h
    split
    · exact h
    · exact h.copyNodes _ _

/-- The turn of the round that runs shows. -/
theorem roundTurn (h : s0.Calm P Q s) (t : Nat) : s0.Calm P Q (match s.serv.round with
    | none => s
    | some rd => s.set HEAD_PREFILL_STATUS.round_turn (t + 1 - rd.turn)) := by
  split
  · exact h
  · exact h.set _

theorem leadBoundary (h : s0.Calm False False s) (t start len : Nat) (drop : Bool) :
    s0.Calm False False (s.leadBoundary t start len drop) := by
  unfold State.leadBoundary
  have hfreed : s0.Calm False False (s.setServ fun v => { v with freed := [] }) := h.setServ
  have hheld (c : Nat) := ((hfreed.commitTurn c).moveReservations.refill.endVisits t).releaseEnded c
  have hround (c : Nat) (b : Prop) [Decidable b] := ite (c := b) (hheld c).abandonRound (hheld c)
  have hparked (c : Nat) (b b' : Prop) [Decidable b] [Decidable b'] :=
    ((snd_ite (c := b') (hround c b).endRound (b := ([], _)) (hround c b)).recoverLost.releaseEnded c).parkOver c
  exact (roundTurn ((((((((((hparked _ _ _).unpark _).setServ (hf := by dsimp only)).assignTo _).foldl fun _ _ h => h.commitPass _).nextPasses _).accrue
    _).startRound _ _).drainCopies.dropDrained).setServ) _).takeViews _

theorem serveBoundary (h : s0.Calm False False s) (t start len : Nat) (drop : Bool) :
    s0.Calm False False (s.serveBoundary t start len drop) := by
  unfold State.serveBoundary
  refine ite (h.leadBoundary _ _ _ _) (takeViews (roundTurn (nextPasses (ite (abandonRound (foldl ?_ fun _ _ h => h.commitPass _))
    (foldl ?_ fun _ _ h => h.commitPass _)) _) _) _)
  all_goals
    split
    · exact h
    · exact h.follow _ _

end State.Calm
end Sys2Proof.Machine
end

section
/-! PROOFS. What the work within a turn leaves alone, continued: the swap set, the governors, the repairs and the counts at the boundary. -/

set_option Elab.async false

namespace Sys2Proof.Machine
namespace State.Calm

variable {P Q : Prop} {s0 s : State}

/-! ### The swap set -/

theorem selectCopy (h : s0.Calm P Q s) (a sel : Nat) : s0.Calm P Q (s.selectCopy a sel) := by
  unfold State.selectCopy
  have hold (l : List Nat) := h.foldl (l := l)
    (f := fun (t : State) c => if c ≠ sel ∧ t.get (copyState a c) = 2 then t.set (copyState a c) (if t.bound a c = 0 then 1 else 3) else t)
    fun _ _ h => ite (h.set _ (copyState_high _ _)) h
  exact ite h (ite (hold _) ((hold _).set _ (copyState_high _ _)))

theorem selectHalf (h : s0.Calm P Q s) (k : Nat) : s0.Calm P Q (s.selectHalf k) := by
  unfold State.selectHalf
  exact ite h ((ite (h.set _ (halfState_high _)) h).set _ (halfState_high _))

theorem applyRecipe (h : s0.Calm P Q s) (l turn v : Nat) : s0.Calm P Q (s.applyRecipe l turn v) := by
  unfold State.applyRecipe
  exact ite h ((((h.setReg _ (Fld.high_iff.1 (Fld.high_ix (by rfl) l))).set _ (Fld.high_ix (by rfl) l)).setFlag _
    (Fld.high_ix (by rfl) l)).set _ (Fld.high_ix (by rfl) l))

theorem applyShadow (h : s0.Calm P Q s) (turn : Nat) (x : Shadow) : s0.Calm P Q (s.applyShadow turn x) := by
  unfold State.applyShadow
  split
  · exact h.applyRecipe _ _ _
  · exact h.setFlag _
  · exact h.setReg _ (Fld.high_iff.1 (Fld.high_ix (by rfl) _))
  · exact h.selectCopy _ _
  · exact h.selectHalf _
  · exact h.set _
  · exact h

theorem applyCoachOn (h : s0.Calm P Q s) (v : Nat) : s0.Calm P Q (s.applyCoachOn v) := by
  unfold State.applyCoachOn
  exact ((h.set _).foldl fun _ _ h => ite (h.openCoach _ _) h).quiet

theorem startCoaches (h : s0.Calm P Q s) (drew : List (Nat × Nat)) : s0.Calm P Q (s.startCoaches drew) := by
  unfold State.startCoaches
  refine h.quiet.foldl fun t c h => ite ?_ h
  exact (h.foldl fun _ _ h => ite h ((h.set _ (Fld.high_ix (by rfl) _)).set _ (Fld.high_ix (by rfl) _))).quiet

theorem syncPending (h : s0.Calm P Q s) : s0.Calm P Q s.syncPending := h.setFlag _

theorem applyShadows (h : s0.Calm P Q s) (k turn : Nat) (drew : List (Nat × Nat)) : s0.Calm P Q (s.applyShadows k turn drew) := by
  unfold State.applyShadows
  exact (((h.turn.foldl fun _ _ h => h.applyShadow _ _).applyCoachOn _).startCoaches _).syncPending

theorem changeSet (h : s0.Calm P Q s) (wide : Bool) : s0.Calm P Q (s.changeSet wide).2 := snd_ite h (h.setFlag _).syncSched

/-! ### The start of a turn -/

theorem selectSample (h : s0.Calm P Q s) (i : Image) (turn c : Nat) : s0.Calm P Q (s.selectSample i turn c) := by
  unfold State.selectSample
  split
  · refine ite h ?_
    dsimp only
    split
    · exact (h.srNext _ _).setServ
    · exact ite (h.srNext _ _).setServ.setServ (h.srNext _ _).setServ
  · exact h

theorem selectSamples (h : s0.Calm P Q s) (turn : Nat) : s0.Calm P Q (s.selectSamples turn) := by
  unfold State.selectSamples
  split
  · exact h
  · exact ite (h.foldl fun _ _ h => h.selectSample _ _ _) h

theorem startWindows (h : s0.Calm P Q s) (turn : Nat) : s0.Calm P Q (s.startWindows turn) := by
  unfold State.startWindows
  split
  · exact h
  · exact h.foldl fun _ _ h => ite (h.set _ (Fld.high_ix (by rfl) _)).setServ h

theorem requestBatch (h : s0.Calm P Q s) : s0.Calm P Q s.requestBatch := by
  unfold State.requestBatch
  exact ite h (h.turn.sendWave _ _ _)

theorem takeSnap (h : s0.Calm P Q s) : s0.Calm P Q s.takeSnap := h.quiet

/-! ### Governors -/

theorem sendSetPoints (h : s0.Calm P Q s) (k : Nat) : s0.Calm P Q (s.sendSetPoints k) := h.foldl fun _ _ h => h.sendRail _ _ _

theorem askStep (h : s0.Calm P Q s) : s0.Calm P Q s.askStep := by
  unfold State.askStep
  exact ite (h.sendSetPoints _).quiet (ite h.quiet h)

theorem derate (h : s0.Calm P Q s) : s0.Calm P Q s.derate := h.set _

theorem govern (h : s0.Calm P Q s) (held len : Nat) : s0.Calm P Q (s.govern held len) := by
  unfold State.govern
  exact h.turn.set _

theorem adaptTrims (h : s0.Calm P Q s) (l : List (Nat × Bool)) : s0.Calm P Q (s.adaptTrims l) := h.foldl fun _ _ h => ite h.quiet h

theorem thermGovern (h : s0.Calm P False s) (turn : Nat) : s0.Calm P False (s.thermGovern turn) := by
  unfold State.thermGovern
  split
  · exact h
  · have hcool (c : Prop) [Decidable c] := ite (c := c) (h.set (f := THM_STATUS.state) 0) h
    exact ite (ite ((h.set _).loud.set _ |>.raiseHead _ _ _) (h.set _).loud) (ite ((hcool _).set _).loud (ite ((hcool _).set _).loud
      (hcool _)))

theorem governors (h : s0.Calm P False s) (b : Nat) (env : BoundaryEnv) : s0.Calm P False (s.governors b env) := by
  unfold State.governors
  exact ((((h.govern _ _).thermGovern _).derate).adaptTrims _).askStep

/-! ### Repairs -/

theorem hitchState_high (n q : Nat) : (hitchState n q).high = true := by
  unfold hitchState
  split <;> exact Fld.high_tile _ n

theorem stopLink (h : s0.Calm P Q s) (m q : Nat) : s0.Calm P Q (s.stopLink m q) := by
  have hset (n p : Nat) {t : State} (h : s0.Calm P Q t) : s0.Calm P Q
      ((t.set (TILE_LINK_STATUS_p.out_state.lnk n p) 3).set (TILE_LINK_STATUS_p.in_state.lnk n p) 3) :=
    (h.set _ (Fld.high_off (Fld.high_tile _ _) _)).set _ (Fld.high_off (Fld.high_tile _ _) _)
  unfold State.stopLink
  dsimp only
  split
  · exact hset _ _ h
  · exact hset _ _ (hset _ _ h)

theorem markFailed (h : s0.Calm P Q s) (m q : Nat) : s0.Calm P Q (s.markFailed m q) := by
  unfold State.markFailed
  refine stopLink (set ?_ _ (hitchState_high _ _)) _ _
  split
  · exact h
  · exact h.set _ (hitchState_high _ _)

theorem failPort (h : s0.Calm P False s) (m q : Nat) : s0.Calm P False (s.failPort m q) := (h.markFailed _ _).addDefect _

theorem failStopped (h : s0.Calm P False s) : s0.Calm P False s.failStopped := by
  unfold State.failStopped
  exact h.quiet.foldl fun _ _ h => h.failPort _ _

theorem failDegraded (h : s0.Calm P False s) : s0.Calm P False s.failDegraded := by
  unfold State.failDegraded
  refine h.foldl fun t d h => ?_
  dsimp only
  split
  · exact h.quiet.failTile _
  · exact (h.quiet.failTile _).failTile _

theorem applyJob (h : s0.Calm P False s) (j : RepJob) : s0.Calm P False (s.applyJob j) := h.moveTile _ _ _ _

theorem applyJobs (h : s0.Calm P False s) (js : List RepJob) : s0.Calm P False (s.applyJobs js) := by
  unfold State.applyJobs
  refine ite h (syncReserves (loud ?_))
  have hjobs := h.foldl (l := js) fun _ x h => h.applyJob x
  split
  · exact hjobs
  · exact hjobs.loadRoutes _ _

theorem replaceChannel (h : s0.Calm P False s) (t ch : Nat) : s0.Calm P False (s.replaceChannel t ch) := by
  unfold State.replaceChannel
  have hspare := ((h.setFlag (f := TWR_STATUS.spare_used.twr t) true (Fld.high_twr _ _)).set (f := TWR_STATUS.replaced_channel.twr t) ch
    (Fld.high_twr _ _)).addDefect (defectWord 6 t ch 0)
  exact ite ((hspare.raise _ _ _ _).loud.noteRepair _) (hspare.raise _ _ _ _).loud

theorem reportRepairs (h : s0.Calm P False s) : s0.Calm P False s.reportRepairs := by
  unfold State.reportRepairs
  exact (h.foldl fun _ _ h => (ite h (h.addDefect _).inc).raiseHead _ _ _).loud

theorem applySpares (h : s0.Calm P False s) : s0.Calm P False s.applySpares := by
  unfold State.applySpares
  exact (h.foldl fun _ _ h => h.takeSpare _).quiet

theorem evictDraft (h : s0.Calm P False s) : s0.Calm P False s.evictDraft := by
  unfold State.evictDraft
  exact (h.foldl fun _ _ h => ite h (h.vacate _ _)).loud

theorem redraft (h : s0.Calm P False s) : s0.Calm P False s.redraft := by
  unfold State.redraft
  split
  · exact ((((h.evictDraft.loud.foldl fun _ _ h => ((h.loadTileRegs _ _ _ _).activate _).copySlice _ _ _).foldl fun _ _ h =>
      (h.copyTables _ _ _).setMark _ _).quiet.loadRoutes _ _).set _).raiseHead _ _ _
  · exact h

theorem syncRepair (h : s0.Calm P Q s) : s0.Calm P Q s.syncRepair := ite h (h.set _)

theorem repairBoundary (h : s0.Calm P False s) : s0.Calm P False s.repairBoundary := by
  unfold State.repairBoundary
  exact ((((h.failDegraded.failStopped.loud.foldl fun _ _ h => h.replaceChannel _ _).applyJobs _).reportRepairs.applySpares).redraft).syncRepair

theorem finishAdvance (h : s0.Calm False False s) : s0.Calm False False s.finishAdvance := by
  unfold State.finishAdvance
  split
  · refine ite h (ite ?_ (h.loud.loseTile _ _ _))
    exact ((h.loud.raise _ _ _ _).startJob _ _ _ _ _).loud.inc
  · exact h

theorem startAdvance (h : s0.Calm False False s) : s0.Calm False False s.startAdvance := by
  unfold State.startAdvance
  refine ite h ?_
  split
  · dsimp only
    split
    · exact h.loud.addDefect _
    · split
      · exact h.loud.loseTile _ _ _
      · exact (h.loud.loud.set _ (Fld.high_tile _ _)).noteRepair _
  · exact h

/-! ### Counts -/

theorem countCause (h : s0.Calm P Q s) (l : List (Nat × Nat × Bool)) (c : Nat) : s0.Calm P Q (s.countCause l c) := by
  unfold State.countCause
  exact ((h.set _ (Fld.high_off (by rfl) _)).set _ (Fld.high_off (by rfl) _)).inc (Fld.high_off (by rfl) _)

theorem countLongest (h : s0.Calm P False s) (l : List (Nat × Nat × Bool)) : s0.Calm P False (s.countLongest l) := by
  unfold State.countLongest
  have hfree (c : Prop) [Decidable c] := snd_ite (c := c) (a := ((0 : Nat), s)) h h.takeFree
  exact ite (((((hfree _).set _).set _).set _).set _) (((hfree _).set _).set _)

theorem countTurn (h : s0.Calm P False s) (b : Nat) (ins : List InsertKind) : s0.Calm P False (s.countTurn b ins) := by
  unfold State.countTurn
  have hcount (l : List (Nat × Nat × Bool)) (x y z v w : Nat) := (((((((h.foldl (l := List.range 16) fun _ c h => h.countCause l c).set
    (f := HEAD_TURN_LAST.length) x).set (f := HEAD_TURN_LAST.overrun) y).set (f := HEAD_TURN_LAST.hold_spokes) z).set
    (f := HEAD_TURN_LAST.inserts) v).set (f := HEAD_TURN_LAST.holds_raised) w).countLongest l)
  exact ite ((hcount _ _ _ _ _ _).raiseHead _ _ _) (hcount _ _ _ _ _ _)

theorem splitGroup (h : s0.Calm P False s) : s0.Calm P False s.splitGroup := by
  unfold State.splitGroup
  split
  · exact h
  · exact h.turn.raiseHead _ _ _

end State.Calm
end Sys2Proof.Machine
end

section
/-! PROOFS. The turns of a running image (R70, R76, R82, R85, R398, R492): how a turn begins, the work at Q, and the commands themselves. -/

set_option Elab.async false

namespace Sys2Proof.Machine

/-! ### What is left alone -/

/-- What the boundary may change. -/
def boundaryParts : List Part :=
  [.regs, .mem, .flips, .free, .turn, .ev, .port, .sbx, .img, .tile, .net, .serv, .boot, .rep, .pwr, .thm]

/-- What the start of an image's turns may change. -/
def turn0Parts : List Part := [.regs, .mem, .flips, .turn, .tile, .net, .serv, .boot, .pwr]

theorem State.Calm.boundary {P Q : Prop} {s t : State} (h : s.Calm P Q t) : s.sameBut t boundaryParts := by
  refine State.sameBut_iff.2 fun p hp => ?_
  cases p with
  | ticks => exact h.ticks
  | axle => exact h.axle
  | mbx => exact h.mbx
  | cpl => exact h.cpl
  | pending => exact h.pending
  | _ => exact absurd hp (by decide)

theorem State.Calm.turnNo {P Q : Prop} {s t : State} (h : s.Calm P Q t) : t.turnNo = s.turnNo := h.regs HEAD_TURN_STATE.turn (by decide)

theorem State.Calm.start {P Q : Prop} {s t : State} (h : s.Calm P Q t) : t.get HEAD_TURN_START.start = s.get HEAD_TURN_START.start :=
  h.regs _ (by decide)

theorem State.Calm.k {P Q : Prop} {s t : State} (h : s.Calm P Q t) : t.k = s.k := h.regs HEAD_TURN_CONFIG.step (by decide)

/-! ### The start of a turn (R76) -/

/-- In `t`, turn `turn` has begun in spoke `at_`, and nothing else has moved that the turns of `s` rest on. -/
structure State.TurnBegun (s t : State) (turn at_ : Nat) : Prop where
  turnNo : t.turnNo = turn % 2 ^ 48
  start : t.get HEAD_TURN_START.start = 8 * at_ % 2 ^ 64
  k : t.k = s.k
  origin : t.turn.origin = at_
  q : t.turn.q = none
  startAt : s.turn.startAt = none → t.turn.startAt = none
  inserts : s.turn.inserts = [] → t.turn.inserts = []
  rest : s.sameBut t boundaryParts

theorem State.TurnBegun.trans {P Q : Prop} {s t u : State} {turn at_ : Nat} (h : s.TurnBegun t turn at_) (k : t.Calm P Q u) :
    s.TurnBegun u turn at_ where
  turnNo := k.turnNo.trans h.turnNo
  start := k.start.trans h.start
  k := k.k.trans h.k
  origin := k.origin.trans h.origin
  q := k.q h.q
  startAt hs := k.startAt (h.startAt hs)
  inserts hs := k.inserts (h.inserts hs)
  rest := h.rest.trans k.boundary

/-- The turn-start values of turn `turn`, before its samples are selected. -/
def State.turnValues (s : State) (turn at_ : Nat) : State :=
  let s1 := (s.set HEAD_TURN_START.start (8 * at_)).set HEAD_TURN_STATE.turn turn
  let t1 := { s1.turn with origin := at_, q := none, reqStep := none, insertReq := [], msgOut := [], holdLog := [] }
  let s2 : State := { s1 with turn := { t1 with faulted := false, faultedBefore := false, voidSeen := false } }
  let s3 : State := { s2 with tile := { s2.tile with missed := [], sums := [], issued := [], arrived := [], lateOff := 0 } }
  s3.set HEAD_REPAIR_STATUS.reruns 0

theorem State.turnValues_same (s : State) (turn at_ : Nat) : s.sameBut (s.turnValues turn at_) [.regs, .turn, .tile] := by
  simp [State.sameBut, State.turnValues]

theorem State.turnValues_get {f : Fld} (s : State) (turn at_ : Nat) (hf : f.fits) (hr : HEAD_REPAIR_STATUS.reruns.apart f) :
    (s.turnValues turn at_).get f = ((s.set HEAD_TURN_START.start (8 * at_)).set HEAD_TURN_STATE.turn turn).get f :=
  State.get_set_apart _ _ hf hr

theorem State.turnValues_begun (s : State) (turn at_ : Nat) : s.TurnBegun (s.turnValues turn at_) turn at_ where
  turnNo := (State.turnValues_get s turn at_ (by decide) (by decide)).trans (State.get_set_same _ _ _ (by decide))
  start := by
    rw [State.turnValues_get s turn at_ (by decide) (by decide), State.get_set_apart _ _ (by decide) (by decide)]
    exact State.get_set_same _ _ _ (by decide)
  k := by
    rw [State.k, State.turnValues_get s turn at_ (by decide) (by decide), State.get_set_apart _ _ (by decide) (by decide),
      State.get_set_apart _ _ (by decide) (by decide), State.k]
  origin := rfl
  q := rfl
  startAt := id
  inserts := id
  rest := (s.turnValues_same turn at_).mono (by decide)

/-- What a turn does as it begins. -/
theorem State.beginTurn_calm {P Q : Prop} (s : State) (turn at_ : Nat) : (s.turnValues turn at_).Calm P Q (s.beginTurn turn at_) := by
  have h : (s.turnValues turn at_).Calm P Q (((s.turnValues turn at_).selectSamples turn).startWindows turn) :=
    ((State.Calm.refl _).selectSamples turn).startWindows turn
  exact (State.Calm.ite h.requestBatch h).takeSnap

theorem State.beginTurn_begun (s : State) (turn at_ : Nat) : s.TurnBegun (s.beginTurn turn at_) turn at_ :=
  (s.turnValues_begun turn at_).trans (s.beginTurn_calm (P := False) (Q := False) turn at_)

theorem State.beginTurn_same (s : State) (turn at_ : Nat) : s.sameBut (s.beginTurn turn at_) turn0Parts :=
  ((s.turnValues_same turn at_).mono (by decide)).trans ((s.beginTurn_calm (P := False) turn at_).still trivial)

/-! ### Turn 0 (R70, R76, R82) -/

/-- The tiles of the image start over: checksums, pointers and what lies in their buffers. -/
def State.freshTiles (s : State) : State :=
  (s.img.place.map (·.2)).foldl (fun (t : State) n => (t.resetRegs (tileBase n + 0xF000608) (tileBase n + 0xF000620)).emptyCircs n) s

theorem State.freshTiles_calm {P Q : Prop} (s : State) : s.Calm P Q s.freshTiles :=
  (State.Calm.refl s).foldl fun _ _ h => (h.resetRegs _ _ (tileBase_high _ _)).emptyCircs _

/-- The state of the turns as turn 0 finds it, for a start at count `c`. -/
def State.freshTurns (s : State) (c : Nat) : State :=
  let s1 := s.freshTiles.set HEAD_TURN_CONFIG.step 48
  let grouped := match s.group with | none => false | some g => decide (1 < g.size)
  let t1 : TurnB := { s1.turn with
    startAt := none, grouped := grouped, holds := [], waves := [], msgs := [], msgsNext := [], settled := 48, since := c / 8 }
  let t2 : TurnB := { t1 with inserts := [], newStep := none }
  let carts := s1.net.carts.map fun (p : Nat × Cart) => (p.1, { p.2 with started := 0 })
  { s1 with turn := t2, net := { s1.net with carts := carts }, pwr := { s1.pwr with asked := none, answered := none } }

theorem State.freshTurns_k (s : State) (c : Nat) : (s.freshTurns c).k = 48 :=
  State.get_set_same s.freshTiles HEAD_TURN_CONFIG.step 48 (by decide)

theorem State.freshTurns_same (s : State) (c : Nat) : s.sameBut (s.freshTurns c) turn0Parts :=
  ((s.freshTiles_calm (P := False)).still trivial).trans (by simp [State.sameBut, State.freshTurns])

/-- The swap sets and the views that turn 0 takes. -/
def State.turn0Sets (s : State) (at_ : Nat) (drew : List (Nat × Nat)) : State :=
  ((((s.mapReqs (fun _ => true) fun r => { r with waitFrom := none }).syncSched).setServ fun v =>
    { v with pass := [], sampledNow := false, sampled := [], reloading := false }).applyShadows at_ 0 drew).takeViews 0

theorem State.turn0Sets_calm {P Q : Prop} (s : State) (at_ : Nat) (drew : List (Nat × Nat)) : s.Calm P Q (s.turn0Sets at_ drew) :=
  ((((State.Calm.refl s).mapReqs _ _).syncSched.setServ).applyShadows _ _ _).takeViews _

/-- Set points for step 48 where another step was in effect, and the phase. -/
theorem State.turn0Rails_calm {P Q : Prop} (s : State) (k : Nat) : s.Calm P Q (if k = 48 then s else s.sendSetPoints 48).syncPhase :=
  (State.Calm.ite (State.Calm.refl s) ((State.Calm.refl s).sendSetPoints _)).syncPhase

/-- At its count, turn 0 begins. -/
theorem execTurn0Start_begins {dt c : Nat} {hot : List (Nat × Nat)} {s : State} (hat : (s.pass dt).turn.startAt = some c)
    (hrun : (s.pass dt).running = true) (hc : c ≤ (s.pass dt).count) : execTurn0Start dt hot s =
      .next (let u := (((s.pass dt).freshTurns c).turn0Sets ((s.pass dt).ticks - ((s.pass dt).count - c)) hot).beginTurn 0 (c / 8)
        (if (s.pass dt).k = 48 then u else u.sendSetPoints 48).syncPhase) := by
  unfold execTurn0Start
  dsimp only
  rw [hat]
  exact congrArg Host.Outcome.next (if_pos ⟨hrun, hc⟩)

theorem turn0Start_clause {dt c : Nat} {hot : List (Nat × Nat)} {s : State} (hat : (s.pass dt).turn.startAt = some c)
    (hrun : (s.pass dt).running = true) (hc : c ≤ (s.pass dt).count) :
    ∃ t, execTurn0Start dt hot s = .next t
        ∧ t.turn.startAt = none ∧ t.turnNo = 0 ∧ t.turn.origin = c / 8 ∧ t.turn.q = none ∧ t.k = 48
        ∧ t.get HEAD_TURN_START.start = 8 * (c / 8) % 2 ^ 64 ∧ (s.pass dt).sameBut t turn0Parts := by
  refine ⟨_, execTurn0Start_begins hat hrun hc, ?_⟩
  have hsets := State.turn0Sets_calm (P := True) (Q := True) ((s.pass dt).freshTurns c) ((s.pass dt).ticks - ((s.pass dt).count - c)) hot
  generalize ((s.pass dt).freshTurns c).turn0Sets ((s.pass dt).ticks - ((s.pass dt).count - c)) hot = a at hsets
  have hrails := State.turn0Rails_calm (P := True) (Q := True) (a.beginTurn 0 (c / 8)) (s.pass dt).k
  have hbegun := (a.beginTurn_begun 0 (c / 8)).trans hrails
  exact ⟨hbegun.startAt (hsets.startAt rfl), hbegun.turnNo, hbegun.origin, hbegun.q,
    hbegun.k.trans (hsets.k.trans (State.freshTurns_k _ c)), hbegun.start,
    (((State.freshTurns_same _ c).trans (hsets.still trivial)).trans (a.beginTurn_same 0 (c / 8))).trans (hrails.still trivial)⟩

/-! ### The work end (R85, R86, R417) -/

/-- From `s` to `t` only what follows from Q has been asked for: nothing but turn and tile changes, and no void comes or goes. -/
structure State.AtQ (s t : State) : Prop where
  rest : s.sameBut t [.turn, .tile]
  q : t.turn.q = s.turn.q
  startAt : t.turn.startAt = s.turn.startAt
  asked : s.turn.reqStep.isSome → t.turn.reqStep.isSome
  voids : t.localHolds 6 = s.localHolds 6
  missed : t.tile.missed = s.tile.missed

theorem State.AtQ.refl (s : State) : s.AtQ s := ⟨State.sameBut.refl s _, rfl, rfl, id, rfl, rfl⟩

theorem State.AtQ.trans {s t u : State} (h : s.AtQ t) (k : t.AtQ u) : s.AtQ u :=
  ⟨h.rest.trans k.rest, k.q.trans h.q, k.startAt.trans h.startAt, fun hs => k.asked (h.asked hs), k.voids.trans h.voids,
    k.missed.trans h.missed⟩

theorem State.AtQ.foldl {α : Type} {s t : State} {f : State → α → State} (l : List α) (h : s.AtQ t) (hf : ∀ u x, State.AtQ u (f u x)) :
    s.AtQ (l.foldl f t) := by
  induction l generalizing t with
  | nil => exact h
  | cons x l ih => exact ih (h.trans (hf t x))

theorem State.sendWave_atQ (s : State) (r : Bool) (c j : Nat) : s.AtQ (s.sendWave r c j) := by
  unfold State.sendWave
  split
  · exact ⟨by simp [State.sameBut], rfl, rfl, id, rfl, rfl⟩
  · exact .refl s

/-- A hold of another cause is no void. -/
theorem State.raiseHoldAt_atQ (s : State) (j unit : Nat) (via : Option Nat) {c : Nat} (hc : c ≠ 6) : s.AtQ (s.raiseHoldAt j c unit via) := by
  have hwave : s.AtQ (if s.localHolds c = 0 then s.sendWave true c j else s) := by
    split
    · exact s.sendWave_atQ _ _ _
    · exact .refl s
  unfold State.raiseHoldAt
  refine hwave.trans ⟨by simp [State.sameBut], rfl, rfl, id, ?_, rfl⟩
  simp [State.localHolds, hc]

/-- After Q the turn has its step request. -/
theorem State.requestAtQ_effect (s : State) (j : Nat) : s.AtQ (s.requestAtQ j) ∧ (s.requestAtQ j).turn.reqStep.isSome = true := by
  unfold State.requestAtQ
  split
  · next h => exact ⟨.refl s, h⟩
  · have hask (l : List TurnMsg) : s.AtQ { s with turn := { s.turn with reqStep := some s.requestStep, msgOut := l } } :=
      ⟨by simp [State.sameBut], rfl, rfl, fun _ => rfl, rfl, rfl⟩
    dsimp only
    split
    · exact ⟨hask _, rfl⟩
    · exact ⟨(hask _).trans (State.sendWave_atQ _ _ _ _), (State.sendWave_atQ _ _ _ _).asked rfl⟩

theorem State.raiseReloads_atQ (s : State) (j : Nat) : s.AtQ (s.raiseReloads j) :=
  .foldl _ ⟨by simp [State.sameBut], rfl, rfl, id, rfl, rfl⟩ fun u x => u.raiseHoldAt_atQ j x none (by decide)

/-- The state with Q noted, the request of the turn and the holds of the reloads. -/
def State.workEnds (s : State) : State :=
  (({ s with turn := { s.turn with q := some s.spokeQ } } : State).requestAtQ s.spokeQ).raiseReloads s.spokeQ

theorem State.workEnds_q (s : State) : s.workEnds.turn.q = some s.spokeQ :=
  (State.raiseReloads_atQ _ _).q.trans (State.requestAtQ_effect _ _).1.q

theorem State.workEnds_asked (s : State) : s.workEnds.turn.reqStep.isSome = true :=
  (State.raiseReloads_atQ _ _).asked (State.requestAtQ_effect _ _).2

theorem State.workEnds_startAt (s : State) : s.workEnds.turn.startAt = s.turn.startAt :=
  (State.raiseReloads_atQ _ _).startAt.trans (State.requestAtQ_effect _ _).1.startAt

theorem State.workEnds_voids (s : State) : s.workEnds.localHolds 6 = s.localHolds 6 :=
  (State.raiseReloads_atQ _ _).voids.trans (State.requestAtQ_effect _ _).1.voids

theorem State.workEnds_missed (s : State) : s.workEnds.tile.missed = s.tile.missed :=
  (State.raiseReloads_atQ _ _).missed.trans (State.requestAtQ_effect _ _).1.missed

theorem State.workEnds_same (s : State) : s.sameBut s.workEnds [.turn, .tile] :=
  have hq : s.sameBut { s with turn := { s.turn with q := some s.spokeQ } } [.turn, .tile] := by simp [State.sameBut]
  (hq.trans (State.requestAtQ_effect _ _).1.rest).trans (State.raiseReloads_atQ _ _).rest

theorem State.workEnds_regs (s : State) : s.workEnds.regs = s.regs := State.sameBut_iff.1 s.workEnds_same .regs (by decide)

/-- The schedule clock has reached the work end. -/
theorem execWorkEndReached_ends {dt : Nat} {s : State} (hin : (s.pass dt).inTurn = true) (hq : (s.pass dt).turn.q = none)
    (hend : (s.pass dt).spokeQ ≤ (s.pass dt).spoke) : execWorkEndReached dt s =
      .next ((s.pass dt).checksumMisses.foldl (fun (t : State) n => t.checksumMiss n) (s.pass dt).workEnds).syncPhase :=
  congrArg Host.Outcome.next (if_pos ⟨hin, hq, hend⟩)

/-- What the first checksum miss of tile `n` in a turn leaves before it voids the turn. -/
def State.misses (s : State) (n : Nat) : State := { s with tile := { s.tile with missed := n :: s.tile.missed } }

theorem State.checksumMiss_first {s : State} {n : Nat} (h : s.tile.missed.contains n = false) : s.checksumMiss n = (s.misses n).voidTurn := by
  rw [State.checksumMiss, if_neg (by rw [h]; exact Bool.false_ne_true)]
  rfl

/-- The hold that is raised stands. -/
theorem State.raiseHold_holding (s : State) (c unit : Nat) : (s.raiseHold c unit).holding c = true := by
  simp [State.raiseHold, State.raiseHoldAt, State.holding, State.localHolds]

theorem State.raiseHold_same (s : State) (c unit : Nat) : s.sameBut (s.raiseHold c unit) [.turn] := by
  have h : s.sameBut (if s.localHolds c = 0 then s.sendWave true c s.spoke else s) [.turn] := by
    refine State.sameBut.ite ?_ (.refl s _)
    unfold State.sendWave
    exact State.sameBut.ite (by simp [State.sameBut]) (.refl s _)
  exact h.trans (by simp [State.sameBut, State.raiseHold, State.raiseHoldAt])

theorem State.raiseHold_q (s : State) (c unit : Nat) : (s.raiseHold c unit).turn.q = s.turn.q := by
  have h (b : Prop) [Decidable b] : (if b then s.sendWave true c s.spoke else s).turn.q = s.turn.q := by
    split
    · exact (s.sendWave_atQ _ _ _).q
    · rfl
  exact h _

/-- A turn that goes on and is not void is voided, before its fourth rerun point. -/
theorem State.voidTurn_effect {s : State} (hturn : s.turning = true) (hfree : s.holding 6 = false)
    (hreruns : s.get HEAD_REPAIR_STATUS.reruns < 4) :
    s.voidTurn.holding 6 = true ∧ s.voidTurn.turn.q = s.turn.q ∧ s.sameBut s.voidTurn [.regs, .turn, .ev]
      ∧ s.regsBut s.voidTurn [HEAD_REPAIR_COUNTS.voids] := by
  rw [State.voidTurn, if_pos ⟨hturn, by rw [hfree]; rfl⟩, if_neg (by omega)]
  have hhold := s.raiseHold_same 6 (coordHead 68)
  refine ⟨s.raiseHold_holding 6 (coordHead 68), s.raiseHold_q 6 (coordHead 68), (hhold.mono (by decide)).trans (by simp [State.sameBut]), ?_⟩
  exact (((State.regsBut_of_regs (State.sameBut_iff.1 hhold .regs (by decide)) _).inc (f := HEAD_REPAIR_COUNTS.voids) 1 (by simp))).of_regs
    (by simp)

theorem workEndReached_clause {dt : Nat} {s : State} (hin : (s.pass dt).inTurn = true) (hq : (s.pass dt).turn.q = none)
    (hend : (s.pass dt).spokeQ ≤ (s.pass dt).spoke) (hgood : (s.pass dt).checksumMisses = []) :
    ∃ t, execWorkEndReached dt s = .next t ∧ t.turn.q = some (s.pass dt).spokeQ ∧ t.turn.reqStep.isSome = true ∧ t.mem = (s.pass dt).mem
      ∧ (s.pass dt).sameBut t [.regs, .turn, .tile] ∧ (s.pass dt).regsBut t [HEAD_TURN_STATE.phase] := by
  refine ⟨_, (execWorkEndReached_ends hin hq hend).trans (by rw [hgood, List.foldl_nil]), ?_⟩
  have hphase := State.syncPhase_sameBut (s.pass dt).workEnds
  have hturn := State.sameBut_iff.1 hphase .turn (by decide)
  have hsame := ((s.pass dt).workEnds_same.mono (by decide)).trans (hphase.mono (l' := [.regs, .turn, .tile]) (by decide))
  exact ⟨by rw [hturn, State.workEnds_q], by rw [hturn, State.workEnds_asked], State.sameBut_iff.1 hsame .mem (by decide), hsame,
    (State.regsBut_of_regs (State.workEnds_regs _) _).trans (State.syncPhase_regsBut _)⟩

/-- A turn of the running image goes on. -/
theorem State.turning_of_inTurn {s : State} (h : s.inTurn = true) : s.turning = true := by
  simp only [State.inTurn, Bool.and_eq_true] at h
  obtain ⟨⟨hrun, hat⟩, -⟩ := h
  rw [State.turning, hrun, hat]
  rfl

theorem State.workEnds_misses_turning {s : State} (n : Nat) (h : s.inTurn = true) : (s.workEnds.misses n).turning = true := by
  have hat : (s.workEnds.misses n).turn.startAt = s.turn.startAt := s.workEnds_startAt
  have hstate : (s.workEnds.misses n).running = s.running := congrArg (· == 3) (State.get_congr s.workEnds_regs HEAD_IMAGE_STATUS.state)
  rw [State.turning, hat, hstate]
  exact State.turning_of_inTurn h

theorem workEndReached_miss_clause {dt n : Nat} {s : State} (hin : (s.pass dt).inTurn = true) (hq : (s.pass dt).turn.q = none)
    (hend : (s.pass dt).spokeQ ≤ (s.pass dt).spoke) (hmiss : (s.pass dt).checksumMisses = [n])
    (hfirst : (s.pass dt).tile.missed.contains n = false) (hfree : (s.pass dt).holding 6 = false)
    (hreruns : (s.pass dt).get HEAD_REPAIR_STATUS.reruns < 4) :
    ∃ t, execWorkEndReached dt s = .next t ∧ n ∈ t.tile.missed ∧ t.turn.q = some (s.pass dt).spokeQ ∧ t.holding 6 = true
      ∧ t.mem = (s.pass dt).mem ∧ (s.pass dt).sameBut t [.regs, .turn, .ev, .tile]
      ∧ (s.pass dt).regsBut t [HEAD_TURN_STATE.phase, HEAD_REPAIR_COUNTS.recovered, HEAD_REPAIR_COUNTS.voids, HEAD_REPAIR_COUNTS.failures] := by
  refine ⟨_, (execWorkEndReached_ends hin hq hend).trans (by rw [hmiss, List.foldl_cons, List.foldl_nil]), ?_⟩
  generalize s.pass dt = s at *
  rw [State.checksumMiss_first (by rw [s.workEnds_missed]; exact hfirst)]
  have hregs : (s.workEnds.misses n).regs = s.regs := s.workEnds_regs
  have hvoids : (s.workEnds.misses n).localHolds 6 = s.localHolds 6 := s.workEnds_voids
  obtain ⟨hholding, hq', hvoid, hcount⟩ := State.voidTurn_effect (s.workEnds_misses_turning n hin)
    (by rw [State.holding, hvoids]; exact hfree) (by rw [State.get_congr hregs]; exact hreruns)
  have hmisses : s.sameBut (s.workEnds.misses n) [.turn, .tile] := s.workEnds_same.trans (by simp [State.sameBut, State.misses])
  have hphase := (s.workEnds.misses n).voidTurn.syncPhase_sameBut
  have hturn := State.sameBut_iff.1 hphase .turn (by decide)
  have hlate := hvoid.trans (hphase.mono (by decide))
  have hsame := (hmisses.mono (l' := [.regs, .turn, .ev, .tile]) (by decide)).trans (hlate.mono (by decide))
  refine ⟨?_, ?_, ?_, State.sameBut_iff.1 hsame .mem (by decide), hsame, ?_⟩
  · rw [State.sameBut_iff.1 hlate .tile (by decide)]; exact List.mem_cons_self
  · rw [hturn, hq']; exact s.workEnds_q
  · rw [State.holding, State.localHolds, hturn]; exact hholding
  · exact ((State.regsBut_of_regs hregs _).trans (hcount.mono (by simp))).trans ((State.syncPhase_regsBut _).mono (by simp))

/-! ### The boundary (R76, R85, R398) -/

/-- Outside a group no message can be missing. -/
theorem State.failMissing_single {s : State} (h : s.turn.grouped = false) : s.failMissing = s := by
  have hnone : s.missingMembers = [] := by
    unfold State.missingMembers
    split
    · rfl
    · rw [h]; rfl
  rw [State.failMissing, hnone]
  rfl

/-- The counts, the governors and the repairs of the boundary at spoke `b`, after `ins` inserted spokes. -/
def State.settle (s : State) (b : Nat) (env : BoundaryEnv) (ins : List InsertKind) : State :=
  (((s.countTurn b ins).splitGroup).governors b env).repairBoundary

theorem State.settle_calm (s : State) (b : Nat) (env : BoundaryEnv) (ins : List InsertKind) : s.Calm True False (s.settle b env ins) :=
  (((State.Calm.refl s).countTurn b ins).splitGroup.governors b env).repairBoundary

/-- Which spokes the boundary inserts. -/
def State.insertsNext (s : State) : List InsertKind :=
  (s.turn.insertReq.map fun _ => InsertKind.hitchSub) ++ (if s.nextStep = s.k then [] else [.freqStep])

/-- The stop that the host asked for takes effect at the boundary. -/
theorem State.turnOver_stops {s : State} {cmd : Nat} (b : Nat) (env : BoundaryEnv) (hone : s.turn.grouped = false)
    (hstop : s.turn.stopCmd = some cmd) : s.turnOver b env = (s.settle b env s.insertsNext).stopAtBoundary cmd := by
  have hcmd : (s.settle b env s.insertsNext).turn.stopCmd = some cmd := ((s.settle_calm b env _).stop trivial).trans hstop
  unfold State.turnOver
  rw [State.failMissing_single hone]
  unfold State.settle State.insertsNext at hcmd ⊢
  dsimp only
  rw [hcmd]

/-- The image has stopped, its command is answered with the number of the turn that ended, and no repair goes on. -/
theorem State.stopAtBoundary_effect (s : State) {cmd : Nat} (h : cmd < 2 ^ 32) :
    (s.stopAtBoundary cmd).get HEAD_IMAGE_STATUS.state = 2
      ∧ (s.stopAtBoundary cmd).lastResponse = some ⟨0x21, 0, 0, cmd, true, word8 s.turnNo⟩
      ∧ s.sameBut (s.stopAtBoundary cmd) boundaryParts := by
  have hne : cmd ≠ 2 ^ 32 := Nat.ne_of_lt h
  have hcommit := ((State.Calm.refl (P := True) (Q := True) s).commitTurn (carAt s.depth s.turnNo s.depth)).boundary
  have hend : s.stopAtBoundary cmd = (((s.commitTurn (carAt s.depth s.turnNo s.depth)).stopImage.setImageState 2).respond 0x21 cmd stOk 0
      true (word8 s.turnNo)).set HEAD_REPAIR_STATUS.state 0 := by
    unfold State.stopAtBoundary
    dsimp only
    rw [if_neg hne]
  rw [hend]
  generalize s.commitTurn (carAt s.depth s.turnNo s.depth) = u at *
  obtain ⟨htwo, hsame, -⟩ := u.stopImage.setImageState_effect 2
  have hstop := hcommit.trans (((State.stopImage_sameBut u).mono (by decide)).trans (hsame.mono (by decide)))
  generalize u.stopImage.setImageState 2 = v at *
  refine ⟨?_, by simp [State.lastResponse, stOk], hstop.trans (((v.respond_sameBut _ _ _ _ _ _).mono (by decide)).set _ _ (by decide))⟩
  rw [State.get_set_apart _ _ (by decide) (by decide), State.respond_get, htwo]
  rfl

/-- The sets and the serving of the turn after the one that has settled, where the boundary spoke `b` inserts none. -/
def State.turnSets (s : State) (b at_ len : Nat) (wide : Bool) (env : BoundaryEnv) : State :=
  let w := s.changeSet wide
  let u := (w.2.serveBoundary s.turnNo (8 * b) len w.1).applyShadows at_ (s.turnNo + 1) env.drew
  { u with turn := { u.turn with newStep := none } }

theorem State.turnSets_calm (s : State) (b at_ len : Nat) (wide : Bool) (env : BoundaryEnv) :
    s.Calm False False (s.turnSets b at_ len wide env) :=
  ((((State.Calm.refl s).changeSet wide).serveBoundary _ _ _ _).applyShadows _ _ _).turn

theorem State.drainStep_none {s : State} (t : Nat) (h : s.serv.drain = none) : s.drainStep t = (false, s) := by
  rw [State.drainStep, h]

/-- With nothing to stop, to drain or to insert, the next turn begins at the boundary's spoke. -/
theorem State.turnOver_continues {s : State} (b : Nat) (env : BoundaryEnv) (hone : s.turn.grouped = false) (hmsgs : s.turn.msgs = [])
    (hstop : s.turn.stopCmd = none) (hdrain : s.serv.drain = none) (hreq : s.turn.insertReq = []) (hstep : s.turn.reqStep = some s.k) :
    s.turnOver b env = ((s.settle b env []).turnSets b (s.ticks - (s.count - 8 * b)) (b - s.turnStart) s.wideWanted env).nextTurn b [] := by
  have hnext : s.nextStep = s.k := by rw [State.nextStep, hmsgs, hstep]; rfl
  have hcmd : (s.settle b env []).turn.stopCmd = none := ((s.settle_calm b env _).stop trivial).trans hstop
  have hcommit : ((s.settle b env []).commitTurn (carAt (s.settle b env []).depth (s.settle b env []).turnNo (s.settle b env []).depth)).serv.drain
      = none := (((s.settle_calm b env []).loose).commitTurn _).drain.trans hdrain
  unfold State.turnOver
  rw [State.failMissing_single hone]
  dsimp only
  rw [hnext, hreq, if_pos rfl, if_pos rfl]
  unfold State.settle at hcmd hcommit ⊢
  rw [List.map_nil, List.nil_append, hcmd]
  dsimp only
  rw [State.drainStep_none _ hcommit, if_neg Bool.false_ne_true]
  rfl

/-- The state between a turn that ended at spoke `b` and the next, with no spoke inserted: the holds that still count, and the messages
kept for the next turn. -/
def State.betweenTurns (s : State) (b : Nat) : State :=
  { s with turn := { s.turn with
      holds := s.turn.holds.filter fun (h : Hold) => match h.withdraw with | none => true | some r => decide (b < r + s.lead)
      since := b
      inserts := []
      msgs := s.turn.msgsNext
      msgsNext := [] } }

theorem State.betweenTurns_calm (s : State) (b : Nat) : s.Calm False False (s.betweenTurns b) :=
  (State.Calm.refl s).turn (hins := fun _ => rfl)

theorem State.nextTurn_eq (s : State) (b : Nat) :
    s.nextTurn b [] = ((s.betweenTurns b).beginTurn (s.turnNo + 1) b).finishAdvance.startAdvance.syncPhase := rfl

/-- The next turn begins in the boundary's spoke. -/
theorem State.nextTurn_begun (s : State) (b : Nat) :
    (s.betweenTurns b).TurnBegun (s.nextTurn b []) (s.turnNo + 1) b := by
  rw [State.nextTurn_eq]
  exact (State.beginTurn_begun _ _ _).trans (State.Calm.refl _).finishAdvance.startAdvance.syncPhase

theorem execTurnBoundary_turns {dt b : Nat} {s : State} (env : BoundaryEnv) (h : (s.pass dt).boundary? = some b) :
    execTurnBoundary dt env s = .next ((s.pass dt).turnOver b env) := by
  unfold execTurnBoundary
  dsimp only
  rw [h]

/-! ### Inserted spokes (R29, R87, R492) -/

/-- The first of the inserted spokes begins. -/
theorem execInsertedSpoke_begins {dt : Nat} {kind : InsertKind} {rest : List InsertKind} {s : State}
    (hins : (s.pass dt).turn.inserts = kind :: rest) (hrun : (s.pass dt).running = true)
    (hstart : (s.pass dt).turnStart ≤ (s.pass dt).spoke + rest.length + 1) : execInsertedSpoke dt s =
      .next (let u := match kind with | .hitchSub => (s.pass dt).substitute | .freqStep => (s.pass dt).stepChange
        ({ u with turn := { u.turn with inserts := rest } } : State).syncPhase) := by
  unfold execInsertedSpoke
  dsimp only
  rw [hins]
  exact congrArg Host.Outcome.next (if_pos ⟨hrun, hstart⟩)

/-- The spoke that is left after the one that begins. -/
def State.insertsLeft (s : State) (rest : List InsertKind) : State := ({ s with turn := { s.turn with inserts := rest } } : State).syncPhase

theorem State.insertsLeft_effect (s : State) (rest : List InsertKind) :
    (s.insertsLeft rest).turn = { s.turn with inserts := rest } ∧ s.sameBut (s.insertsLeft rest) [.regs, .turn]
      ∧ s.regsBut (s.insertsLeft rest) [HEAD_TURN_STATE.phase] := by
  have hleft : s.sameBut { s with turn := { s.turn with inserts := rest } } [.regs, .turn] := by simp [State.sameBut]
  have hphase := State.syncPhase_sameBut { s with turn := { s.turn with inserts := rest } }
  refine ⟨State.sameBut_iff.1 hphase .turn (by decide), hleft.trans (hphase.mono (by decide)), ?_⟩
  exact (State.regsBut_of_regs (t := { s with turn := { s.turn with inserts := rest } }) rfl _).trans (State.syncPhase_regsBut _)

theorem State.syncSched_same (s : State) : s.sameBut s.syncSched [.regs] := by simp [State.sameBut, State.syncSched]

theorem State.sendSetPoints_same (s : State) (k : Nat) : s.sameBut (s.sendSetPoints k) [.regs, .pwr] :=
  (State.sameBut.refl s _).foldl fun t _ h => h.trans (t.sendRail_sameBut _ _ _)

/-- No step is waiting to come into effect any more after step `k` has followed `old`. -/
def State.stepTaken (s : State) (old k : Nat) : State :=
  { s with turn := { s.turn with newStep := none, settled := if k < old then k else s.turn.settled } }

theorem State.stepTaken_same (s : State) (old k : Nat) : s.sameBut (s.stepTaken old k) [.turn] := by
  simp [State.sameBut, State.stepTaken]

/-- The new step `k`, with its event, before set points are sent. -/
def State.stepSet (s : State) (k : Nat) : State := ((s.set HEAD_TURN_CONFIG.step k).syncSched.raiseHead 19 s.k k).stepTaken s.k k

theorem State.stepSet_k (s : State) (k : Nat) : (s.stepSet k).k = k % 128 := by
  have h : (s.set HEAD_TURN_CONFIG.step k).Calm False False (s.stepSet k) :=
    ((State.Calm.refl _).syncSched.raiseHead 19 s.k k).turn
  exact h.k.trans (State.get_set_same s HEAD_TURN_CONFIG.step k (by decide))

theorem State.stepSet_same (s : State) (k : Nat) : s.sameBut (s.stepSet k) [.regs, .turn, .ev] := by
  have hset : s.sameBut (s.set HEAD_TURN_CONFIG.step k) [.regs, .turn, .ev] := (State.sameBut.refl s _).set _ _ (by decide)
  have hsched := (State.syncSched_same (s.set HEAD_TURN_CONFIG.step k)).mono (l' := [.regs, .turn, .ev]) (by decide)
  have hraise (u : State) (a b : Nat) : u.sameBut (u.raiseHead 19 a b) [.regs, .turn, .ev] := by simp [State.sameBut]
  exact ((hset.trans hsched).trans (hraise _ _ _)).trans ((State.stepTaken_same _ _ _).mono (by decide))

theorem State.stepSet_ev (s : State) (k : Nat) : (s.stepSet k).ev = ((s.set HEAD_TURN_CONFIG.step k).syncSched.raiseHead 19 s.k k).ev := rfl

theorem State.stepSet_lastEvent (s : State) (k : Nat) : (s.stepSet k).lastEvent = some (19, s.k, k % 2 ^ 64) := by
  have hk : s.k < 2 ^ 64 := (s.get_lt HEAD_TURN_CONFIG.step).trans (by decide)
  rw [State.lastEvent, State.stepSet_ev, ← State.lastEvent, State.raiseHead_lastEvent, Nat.mod_eq_of_lt hk]

theorem State.stepSet_newStep (s : State) (k : Nat) : (s.stepSet k).turn.newStep = none := rfl

theorem State.stepChange_eq {s : State} {k : Nat} (h : s.turn.newStep = some k) :
    s.stepChange = if k < s.k then (s.stepSet k).sendSetPoints k else s.stepSet k := by
  unfold State.stepChange State.stepSet State.stepTaken
  rw [h]

/-- The step changes: registers, turn, one event and, below the step in effect, set points. -/
theorem State.stepChange_effect {s : State} {k : Nat} (h : s.turn.newStep = some k) :
    s.stepChange.k = k % 128 ∧ s.stepChange.turn.newStep = none ∧ s.stepChange.lastEvent = some (19, s.k, k % 2 ^ 64)
      ∧ s.sameBut s.stepChange [.regs, .turn, .ev, .pwr] := by
  have hset : s.sameBut (s.stepSet k) [.regs, .turn, .ev, .pwr] := (s.stepSet_same k).mono (by decide)
  rw [State.stepChange_eq h]
  split
  · have hsend := (s.stepSet k).sendSetPoints_same k
    have hcalm : (s.stepSet k).Calm False False ((s.stepSet k).sendSetPoints k) := (State.Calm.refl _).sendSetPoints k
    refine ⟨hcalm.k.trans (s.stepSet_k k), ?_, ?_, hset.trans (hsend.mono (by decide))⟩
    · rw [State.sameBut_iff.1 hsend .turn (by decide), s.stepSet_newStep]
    · rw [State.lastEvent, State.sameBut_iff.1 hsend .ev (by decide)]; exact s.stepSet_lastEvent k
  · exact ⟨s.stepSet_k k, s.stepSet_newStep k, s.stepSet_lastEvent k, hset⟩

/-- With no degraded direction there is nothing to substitute, and the ports hold no traffic. -/
theorem State.substitute_none {s : State} (h : s.net.degraded = []) :
    s.substitute = { s with net := { s.net with held := [], heldSpoke := s.spoke + 1 } } := by
  rw [State.substitute, h]
  rfl

theorem turnBoundary_continues_clause {dt b : Nat} (env : BoundaryEnv) {s : State} (hb : (s.pass dt).boundary? = some b)
    (hone : (s.pass dt).turn.grouped = false) (hmsgs : (s.pass dt).turn.msgs = []) (hstop : (s.pass dt).turn.stopCmd = none)
    (hdrain : (s.pass dt).serv.drain = none) (hreq : (s.pass dt).turn.insertReq = [])
    (hstep : (s.pass dt).turn.reqStep = some (s.pass dt).k) :
    ∃ t, execTurnBoundary dt env s = .next t
      ∧ t.turnNo = ((s.pass dt).turnNo + 1) % 2 ^ 48 ∧ t.turn.origin = b ∧ t.turn.q = none ∧ t.turn.inserts = []
      ∧ t.get HEAD_TURN_START.start = 8 * b % 2 ^ 64 ∧ (s.pass dt).sameBut t boundaryParts := by
  refine ⟨_, (execTurnBoundary_turns env hb).trans
    (congrArg _ (State.turnOver_continues b env hone hmsgs hstop hdrain hreq hstep)), ?_⟩
  generalize s.pass dt = s at *
  have hsets := ((s.settle_calm b env []).loose).trans
    ((s.settle b env []).turnSets_calm b (s.ticks - (s.count - 8 * b)) (b - s.turnStart) s.wideWanted env)
  generalize (s.settle b env []).turnSets b (s.ticks - (s.count - 8 * b)) (b - s.turnStart) s.wideWanted env = u at *
  have hbegun := u.nextTurn_begun b
  exact ⟨by rw [hbegun.turnNo, hsets.turnNo], hbegun.origin, hbegun.q, hbegun.inserts rfl, hbegun.start,
    (hsets.boundary.trans (u.betweenTurns_calm b).boundary).trans hbegun.rest⟩

theorem turnBoundary_stops_clause {dt b cmd : Nat} (env : BoundaryEnv) {s : State} (hb : (s.pass dt).boundary? = some b)
    (hone : (s.pass dt).turn.grouped = false) (hstop : (s.pass dt).turn.stopCmd = some cmd) (hcmd : cmd < 2 ^ 32) :
    ∃ t, execTurnBoundary dt env s = .next t
      ∧ t.get HEAD_IMAGE_STATUS.state = 2 ∧ t.lastResponse = some ⟨0x21, 0, 0, cmd, true, word8 (s.pass dt).turnNo⟩
      ∧ (s.pass dt).sameBut t boundaryParts := by
  refine ⟨_, (execTurnBoundary_turns env hb).trans (congrArg _ (State.turnOver_stops b env hone hstop)), ?_⟩
  generalize s.pass dt = s at *
  have hsettle := s.settle_calm b env s.insertsNext
  generalize s.settle b env s.insertsNext = u at *
  obtain ⟨htwo, hanswer, hsame⟩ := u.stopAtBoundary_effect hcmd
  exact ⟨htwo, by rw [hanswer, hsettle.turnNo], hsettle.boundary.trans hsame⟩

theorem insertedSpoke_freqStep_clause {dt k : Nat} {rest : List InsertKind} {s : State}
    (hins : (s.pass dt).turn.inserts = .freqStep :: rest) (hnew : (s.pass dt).turn.newStep = some k) (hrun : (s.pass dt).running = true)
    (hstart : (s.pass dt).turnStart ≤ (s.pass dt).spoke + rest.length + 1) :
    ∃ t, execInsertedSpoke dt s = .next t
      ∧ t.k = k % 128 ∧ t.turn.inserts = rest ∧ t.turn.newStep = none ∧ t.lastEvent = some (19, (s.pass dt).k, k % 2 ^ 64)
      ∧ t.mem = (s.pass dt).mem ∧ (s.pass dt).sameBut t [.regs, .turn, .ev, .pwr] := by
  refine ⟨(s.pass dt).stepChange.insertsLeft rest, execInsertedSpoke_begins hins hrun hstart, ?_⟩
  generalize s.pass dt = s at *
  obtain ⟨hk, hnone, hevent, hchange⟩ := State.stepChange_effect hnew
  generalize s.stepChange = u at *
  obtain ⟨hturn, hleft, hphase⟩ := u.insertsLeft_effect rest
  have hsame := hchange.trans (hleft.mono (by decide))
  refine ⟨(hphase HEAD_TURN_CONFIG.step (by decide) (by decide)).trans hk, ?_, ?_, ?_, State.sameBut_iff.1 hsame .mem (by decide), hsame⟩
  · rw [hturn]
  · rw [hturn, hnone]
  · rw [State.lastEvent, State.sameBut_iff.1 hleft .ev (by decide), ← State.lastEvent, hevent]

theorem insertedSpoke_hitchSub_clause {dt : Nat} {rest : List InsertKind} {s : State}
    (hins : (s.pass dt).turn.inserts = .hitchSub :: rest) (hwhole : (s.pass dt).net.degraded = []) (hrun : (s.pass dt).running = true)
    (hstart : (s.pass dt).turnStart ≤ (s.pass dt).spoke + rest.length + 1) :
    ∃ t, execInsertedSpoke dt s = .next t
      ∧ t.turn.inserts = rest ∧ t.k = (s.pass dt).k ∧ t.mem = (s.pass dt).mem ∧ (s.pass dt).sameBut t [.regs, .turn, .net]
      ∧ (s.pass dt).regsBut t [HEAD_TURN_STATE.phase] := by
  refine ⟨(s.pass dt).substitute.insertsLeft rest, execInsertedSpoke_begins hins hrun hstart, ?_⟩
  generalize s.pass dt = s at *
  have hnet : s.sameBut s.substitute [.net] := by rw [State.substitute_none hwhole]; simp [State.sameBut]
  generalize s.substitute = u at *
  obtain ⟨hturn, hleft, hphase⟩ := u.insertsLeft_effect rest
  have hregs : u.regs = s.regs := State.sameBut_iff.1 hnet .regs (by decide)
  have hbut := (State.regsBut_of_regs hregs [HEAD_TURN_STATE.phase]).trans hphase
  have hsame := (hnet.mono (l' := [.regs, .turn, .net]) (by decide)).trans (hleft.mono (by decide))
  exact ⟨by rw [hturn], hbut HEAD_TURN_CONFIG.step (by decide) (by decide), State.sameBut_iff.1 hsame .mem (by decide), hsame, hbut⟩

/-! ### The obligation -/

/-- Settles O33: the new turn and the stop keep what the work of a boundary leaves calm, and an inserted spoke or the work end changes a
few parts by name. -/
theorem turnProgress : Obligations.TurnProgress := by
  unfold Obligations.TurnProgress
  refine ⟨?_, ?_, ?_, ?_, ?_, ?_, ?_⟩
  · rintro dt hot c s _ rfl hat hrun hc
    exact turn0Start_clause hat hrun hc
  · rintro dt s _ rfl hin hq hend hgood
    exact workEndReached_clause hin hq hend hgood
  · rintro dt n s _ rfl hin hq hend hmiss hfirst hfree hreruns
    exact workEndReached_miss_clause hin hq hend hmiss hfirst hfree hreruns
  · rintro dt b env s _ rfl hb hone hmsgs hstop hdrain hreq hstep
    exact turnBoundary_continues_clause env hb hone hmsgs hstop hdrain hreq hstep
  · rintro dt b env cmd s _ rfl hb hone - hstop hcmd
    exact turnBoundary_stops_clause env hb hone hstop hcmd
  · rintro dt rest k s _ rfl hins hnew hrun hstart
    exact insertedSpoke_freqStep_clause hins hnew hrun hstart
  · rintro dt rest s _ rfl hins hwhole hrun hstart
    exact insertedSpoke_hitchSub_clause hins hwhole hrun hstart

end Sys2Proof.Machine
end

section
/-! PROOFS. The scratchpad code (R123, R124): the vectors of a code, the syndrome as a linear map of the flipped bits, and what one and two
flipped bits give. -/

set_option Elab.async false

namespace Sys2Proof.Machine

/-! ### Weights -/

/-- The weight of a sum of two vectors has the parity of the sum of their weights. -/
theorem popcount_xor_parity (w a b : Nat) : popcount w (a ^^^ b) % 2 = (popcount w a + popcount w b) % 2 := by
  simp only [popcount, Nat.testBit_xor]
  induction List.range w with
  | nil => rfl
  | cons i l ih =>
    cases ha : a.testBit i <;> cases hb : b.testBit i <;> simp [ha, hb] <;> omega

@[simp] theorem popcount_zero (w : Nat) : popcount w 0 = 0 := by simp [popcount]

/-- A power of two within the width has weight 1. -/
theorem popcount_two_pow {w t : Nat} (ht : t < w) : popcount w (2 ^ t) = 1 := by
  simp only [popcount, Nat.testBit_two_pow, ← List.countP_eq_length_filter]
  calc (List.range w).countP (fun i => decide (t = i))
    _ = (List.range w).count t := List.countP_congr fun i _ => by rw [decide_eq_true_iff, beq_iff_eq, eq_comm]
    _ = 1 := List.count_eq_one_of_mem List.nodup_range (List.mem_range.2 ht)

/-! ### The vectors of a code (R124) -/

theorem mem_hamming {r v : Nat} : v ∈ hamming r ↔ v < 2 ^ r ∧ (popcount r v = 3 ∨ popcount r v = 5) := by
  simp [hamming, ← and_or_left]

theorem hamming_nodup (r : Nat) : (hamming r).Nodup := by
  refine List.nodup_append'.2 ⟨List.nodup_range.filter _, List.nodup_range.filter _, fun v h3 h5 => ?_⟩
  have h3 : popcount r v = 3 := by simpa using (List.mem_filter.1 h3).2
  have h5 : popcount r v = 5 := by simpa using (List.mem_filter.1 h5).2
  omega

theorem length_hamming : (hamming 8).length = 112 ∧ (hamming 9).length = 210 := by decide +kernel

/-! ### The syndrome -/

/-- The syndrome of flipped data bits and flipped check bits: the sum of the vectors of the first and of the second. -/
def syndrome (vs : List Nat) (m data check : Nat) : Nat :=
  (List.range m).foldl (fun a d => if data.testBit d then a ^^^ vs.getD d 0 else a) check

/-- The syndrome is linear in the flipped bits. -/
theorem syndrome_xor (vs : List Nat) (m x y a b : Nat) :
    syndrome vs m (x ^^^ y) (a ^^^ b) = syndrome vs m x a ^^^ syndrome vs m y b := by
  unfold syndrome
  induction List.range m generalizing a b with
  | nil => rfl
  | cons d l ih =>
    rw [List.foldl_cons, List.foldl_cons, List.foldl_cons, ← ih, Nat.testBit_xor]
    congr 1
    cases x.testBit d <;> cases y.testBit d <;> simp [Nat.xor_assoc, Nat.xor_comm, Nat.xor_left_comm]

theorem syndrome_zero (vs : List Nat) (m c : Nat) : syndrome vs m 0 c = c := by
  simp [syndrome]

/-- The syndrome of one flipped data bit is its vector. -/
theorem syndrome_two_pow (vs : List Nat) (m i : Nat) : syndrome vs m (2 ^ i) 0 = if i < m then vs.getD i 0 else 0 := by
  induction m with
  | zero => rfl
  | succ m ih =>
    have hstep : syndrome vs (m + 1) (2 ^ i) 0 =
        if (2 ^ i).testBit m then syndrome vs m (2 ^ i) 0 ^^^ vs.getD m 0 else syndrome vs m (2 ^ i) 0 := by
      simp [syndrome, List.range_succ]
    rw [hstep, ih, Nat.testBit_two_pow]
    by_cases hi : i = m
    · simp [hi]
    · have hlt : i < m + 1 ↔ i < m := by omega
      simp [hi, hlt]

/-! ### The scratchpad code -/

/-- The vectors of the 64 data bits of a scratchpad word. -/
def spadVectors : List Nat := (hamming 8).take 64

theorem length_spadVectors : spadVectors.length = 64 := by
  rw [spadVectors, List.length_take, length_hamming.1]
  rfl

theorem spadVectors_nodup : spadVectors.Nodup := (hamming_nodup 8).sublist (List.take_sublist 64 _)

/-- The vectors have odd weight, and more than one bit. -/
theorem spadVectors_weight {v : Nat} (hv : v ∈ spadVectors) : popcount 8 v = 3 ∨ popcount 8 v = 5 :=
  (mem_hamming.1 (List.mem_of_mem_take hv)).2

/-- Column i of the code: a data bit's vector, or the unit vector of a check bit. -/
def spadColumn (i : Nat) : Nat := if i < 64 then spadVectors.getD i 0 else 2 ^ (i - 64)

/-- The syndrome of a scratchpad word's flipped bits. -/
def spadSyndrome (mask : Nat) : Nat := syndrome spadVectors 64 (mask % 2 ^ 64) (mask / 2 ^ 64)

/-- The decoder by its syndrome. -/
theorem spadDecode_eq (mask : Nat) : spadDecode mask =
    if spadSyndrome mask = 0 then (0, mask % 2 ^ 64)
    else if popcount 8 (spadSyndrome mask) = 1 then (1, mask % 2 ^ 64)
    else match spadVectors.findIdx? (· == spadSyndrome mask) with
      | some d => (1, mask % 2 ^ 64 ^^^ 2 ^ d)
      | none => (2, mask % 2 ^ 64) := rfl

theorem spadSyndrome_xor (x y : Nat) : spadSyndrome (x ^^^ y) = spadSyndrome x ^^^ spadSyndrome y := by
  simp only [spadSyndrome, Nat.xor_mod_two_pow, Nat.xor_div_two_pow, syndrome_xor]

/-- One flipped bit, among the data bits or among the check bits. -/
theorem two_pow_mod_div (i : Nat) :
    2 ^ i % 2 ^ 64 = (if i < 64 then 2 ^ i else 0) ∧ 2 ^ i / 2 ^ 64 = (if i < 64 then 0 else 2 ^ (i - 64)) := by
  split
  · next hi =>
    have hlt : 2 ^ i < 2 ^ 64 := Nat.pow_lt_pow_right (by omega) hi
    exact ⟨Nat.mod_eq_of_lt hlt, Nat.div_eq_of_lt hlt⟩
  · next hi =>
    have hi : 64 ≤ i := Nat.le_of_not_lt hi
    exact ⟨Nat.mod_eq_zero_of_dvd (Nat.pow_dvd_pow 2 hi), Nat.pow_div hi (by omega)⟩

theorem spadSyndrome_two_pow (i : Nat) : spadSyndrome (2 ^ i) = spadColumn i := by
  obtain ⟨hdata, hcheck⟩ := two_pow_mod_div i
  simp only [spadSyndrome, spadColumn, hdata, hcheck]
  split
  · next hi => rw [syndrome_two_pow, if_pos hi]
  · exact syndrome_zero _ _ _

theorem spadColumn_data {i : Nat} (hi : i < 64) :
    spadColumn i = spadVectors[i]'(by rw [length_spadVectors]; exact hi) := by
  rw [spadColumn, if_pos hi, List.getD_eq_getElem]

theorem spadColumn_data_mem {i : Nat} (hi : i < 64) : spadColumn i ∈ spadVectors := by
  rw [spadColumn_data hi]
  exact List.getElem_mem _

theorem spadColumn_check {i : Nat} (hi : ¬ i < 64) : spadColumn i = 2 ^ (i - 64) := if_neg hi

/-- A column's weight tells a check bit, of weight 1, from a data bit. -/
theorem popcount_spadColumn {i : Nat} (hi : i < 72) :
    if i < 64 then popcount 8 (spadColumn i) = 3 ∨ popcount 8 (spadColumn i) = 5 else popcount 8 (spadColumn i) = 1 := by
  split
  · next h => exact spadVectors_weight (spadColumn_data_mem h)
  · next h => rw [spadColumn_check h, popcount_two_pow (by omega)]

theorem popcount_spadColumn_odd {i : Nat} (hi : i < 72) : popcount 8 (spadColumn i) % 2 = 1 := by
  have h := popcount_spadColumn hi
  split at h <;> omega

theorem spadColumn_ne_zero {i : Nat} (hi : i < 72) : spadColumn i ≠ 0 := by
  intro h
  have hodd := popcount_spadColumn_odd hi
  rw [h, popcount_zero] at hodd
  omega

/-- The columns are distinct. -/
theorem spadColumn_ne {i j : Nat} (hij : i < j) (hj : j < 72) : spadColumn i ≠ spadColumn j := by
  intro heq
  have hwi := popcount_spadColumn (i := i) (by omega)
  have hwj := popcount_spadColumn hj
  rw [heq] at hwi
  by_cases hi : i < 64 <;> by_cases hj' : j < 64
  · rw [spadColumn_data hi, spadColumn_data hj', spadVectors_nodup.getElem_inj_iff] at heq
    omega
  · rw [if_pos hi] at hwi
    rw [if_neg hj'] at hwj
    omega
  · omega
  · rw [spadColumn_check hi, spadColumn_check hj'] at heq
    have := Nat.pow_right_injective (le_refl 2) heq
    omega

/-- The vector of a data bit is found at its place. -/
theorem findIdx?_spadColumn {i : Nat} (hi : i < 64) : spadVectors.findIdx? (· == spadColumn i) = some i := by
  have hlen : i < spadVectors.length := by rw [length_spadVectors]; exact hi
  refine List.findIdx?_eq_some_iff_getElem.2 ⟨hlen, by simp [spadColumn_data hi], fun k hk => ?_⟩
  rw [spadColumn_data hi, beq_iff_eq, spadVectors_nodup.getElem_inj_iff]
  omega

/-- One flipped bit is corrected. -/
theorem spadDecode_two_pow {i : Nat} (hi : i < 72) : spadDecode (2 ^ i) = (1, 0) := by
  have hweight := popcount_spadColumn hi
  rw [spadDecode_eq, spadSyndrome_two_pow, if_neg (spadColumn_ne_zero hi), (two_pow_mod_div i).1]
  split at hweight
  · next h => simp only [if_neg (show popcount 8 (spadColumn i) ≠ 1 by omega), findIdx?_spadColumn h, if_pos h, Nat.xor_self]
  · next h => simp only [if_pos hweight, if_neg h]

theorem two_pow_add_two_pow {i j : Nat} (h : i < j) : 2 ^ i + 2 ^ j = 2 ^ i ^^^ 2 ^ j := by
  have hor : 2 ^ i + 2 ^ j = 2 ^ j ||| 2 ^ i := by
    have := Nat.two_pow_add_eq_or_of_lt (Nat.pow_lt_pow_right (by omega) h : 2 ^ i < 2 ^ j) 1
    rwa [Nat.mul_one, Nat.add_comm] at this
  rw [hor]
  refine Nat.eq_of_testBit_eq fun k => ?_
  simp only [Nat.testBit_or, Nat.testBit_xor, Nat.testBit_two_pow]
  by_cases hi : i = k <;> by_cases hj : j = k <;> simp [hi, hj]
  omega

/-- Two flipped bits are found: their syndrome is not 0, as columns are distinct, and its weight is even, where every column's is odd. -/
theorem spadDecode_two_bits {i j : Nat} (hij : i < j) (hj : j < 72) : (spadDecode (2 ^ i + 2 ^ j)).1 = 2 := by
  have hsyn : spadSyndrome (2 ^ i + 2 ^ j) = spadColumn i ^^^ spadColumn j := by
    rw [two_pow_add_two_pow hij, spadSyndrome_xor, spadSyndrome_two_pow, spadSyndrome_two_pow]
  have hne : spadColumn i ^^^ spadColumn j ≠ 0 := fun h => spadColumn_ne hij hj (Nat.xor_eq_zero_iff.1 h)
  have heven : popcount 8 (spadColumn i ^^^ spadColumn j) % 2 = 0 := by
    have hi := popcount_spadColumn_odd (i := i) (by omega)
    have hj := popcount_spadColumn_odd hj
    rw [popcount_xor_parity]
    omega
  have hfind : spadVectors.findIdx? (· == spadColumn i ^^^ spadColumn j) = none := by
    refine List.findIdx?_eq_none_iff.2 fun v hv => beq_eq_false_iff_ne.2 fun heq => ?_
    have := spadVectors_weight hv
    rw [heq] at this
    omega
  rw [spadDecode_eq, hsyn, if_neg hne, if_neg (by omega), hfind]

/-- Settles O60: the decoder sees the flipped bits only through their syndrome, which is linear; the columns of the check matrix are
distinct and of odd weight, so one flipped bit shows its own column and the sum of two is none. -/
theorem scratchpadCode : Obligations.ScratchpadCode := by
  unfold Obligations.ScratchpadCode
  refine ⟨?_, fun i => spadDecode_two_pow, fun i j => spadDecode_two_bits, fun r hr => ⟨hamming_nodup r, fun v => mem_hamming.1, ?_⟩⟩
  · exact (spadDecode_eq 0).trans (if_pos (syndrome_zero _ _ _))
  · rcases hr with rfl | rfl <;> simp [length_hamming]

end Sys2Proof.Machine
end

section
/-! PROOFS. Circular regions (R114 to R117): what sets the pointers of a region, how a push or pop is decided at the end of its CORE cycle,
and the scheduled ones. -/

set_option Elab.async false

namespace Sys2Proof.Machine

/-! ### The pointers of a region -/

/-- The pointer fields of region c of tile n. -/
def circFields (n c : Nat) : List Fld :=
  [(TILE_CIRC_PTR_n.state.tile n).off (16 * c), (TILE_CIRC_PTR_n.count.tile n).off (16 * c), (TILE_CIRC_PTR_n.tail.tile n).off (16 * c),
    (TILE_CIRC_PTR_n.head.tile n).off (16 * c)]

theorem State.circ_set_same (s : State) (n c v : Nat) {f : Fld} (hf : f.fits) :
    (s.set ((f.tile n).off (16 * c)) v).circ n c f = v % 2 ^ f.w := State.get_set_same s _ v hf

/-- Fields of one register that share no bit. -/
theorem State.circ_set_apart (s : State) (n c v : Nat) {f g : Fld} (hg : g.fits) (ha : f.lo + f.w ≤ g.lo ∨ g.lo + g.w ≤ f.lo) :
    (s.set ((f.tile n).off (16 * c)) v).circ n c g = s.circ n c g := State.get_set_apart s v hg (.inr ha)

/-- What each pointer field holds once the pointers are set. -/
theorem State.setCirc_circ (s : State) (n c head tail count : Nat) :
    (s.setCirc n c head tail count).circ n c TILE_CIRC_PTR_n.head = head % 2 ^ 17
      ∧ (s.setCirc n c head tail count).circ n c TILE_CIRC_PTR_n.tail = tail % 2 ^ 17
      ∧ (s.setCirc n c head tail count).circ n c TILE_CIRC_PTR_n.count = count % 2 ^ 18
      ∧ (s.setCirc n c head tail count).circ n c TILE_CIRC_PTR_n.state = (if s.circ n c TILE_CIRC_CFG_n.enable = 0 then 0
        else if count = 0 then 1 else if count = s.circSlots n c then 3 else 2) := by
  refine ⟨?_, ?_, ?_, ?_⟩
  · simp only [State.setCirc]
    rw [State.circ_set_apart _ _ _ _ (by decide) (by decide), State.circ_set_apart _ _ _ _ (by decide) (by decide),
      State.circ_set_apart _ _ _ _ (by decide) (by decide), State.circ_set_same _ _ _ _ (by decide)]
    rfl
  · simp only [State.setCirc]
    rw [State.circ_set_apart _ _ _ _ (by decide) (by decide), State.circ_set_apart _ _ _ _ (by decide) (by decide),
      State.circ_set_same _ _ _ _ (by decide)]
    rfl
  · simp only [State.setCirc]
    rw [State.circ_set_apart _ _ _ _ (by decide) (by decide), State.circ_set_same _ _ _ _ (by decide)]
    rfl
  · simp only [State.setCirc]
    rw [State.circ_set_same _ _ _ _ (by decide)]
    refine Nat.mod_eq_of_lt ?_
    change _ < 4
    split_ifs <;> omega

theorem State.setCirc_regsBut (s : State) (n c head tail count : Nat) : s.regsBut (s.setCirc n c head tail count) (circFields n c) :=
  ((((State.regsBut.refl s _).set _ (by simp [circFields])).set _ (by simp [circFields])).set _ (by simp [circFields])).set _
    (by simp [circFields])

theorem State.circSlots_le (s : State) (n c : Nat) : s.circSlots n c ≤ 2 ^ 17 := s.get_lt _

/-- A legal push moves the tail, modulo the slots, and raises the count (R114, R116). -/
theorem State.circApply_push {s : State} {n c k : Nat} (h : s.pushLegal n c k = true) :
    (s.circApply n c k false).circ n c TILE_CIRC_PTR_n.tail = (s.circ n c TILE_CIRC_PTR_n.tail + k) % s.circSlots n c
      ∧ (s.circApply n c k false).circ n c TILE_CIRC_PTR_n.count = s.circ n c TILE_CIRC_PTR_n.count + k
      ∧ (s.circApply n c k false).circ n c TILE_CIRC_PTR_n.head = s.circ n c TILE_CIRC_PTR_n.head
      ∧ (s.circApply n c k false).circ n c TILE_CIRC_PTR_n.state = (if s.circ n c TILE_CIRC_CFG_n.enable = 0 then 0
        else if s.circ n c TILE_CIRC_PTR_n.count + k = 0 then 1
        else if s.circ n c TILE_CIRC_PTR_n.count + k = s.circSlots n c then 3 else 2) := by
  have hcount : s.circ n c TILE_CIRC_PTR_n.count + k ≤ s.circSlots n c := of_decide_eq_true h
  have hslots := s.circSlots_le n c
  have htail : (s.circ n c TILE_CIRC_PTR_n.tail + k) % s.circSlots n c < s.circSlots n c := Nat.mod_lt _ (Nat.succ_pos _)
  obtain ⟨hh, ht, hm, hs⟩ := s.setCirc_circ n c (s.circ n c TILE_CIRC_PTR_n.head)
    ((s.circ n c TILE_CIRC_PTR_n.tail + k) % s.circSlots n c) (s.circ n c TILE_CIRC_PTR_n.count + k)
  exact ⟨ht.trans (Nat.mod_eq_of_lt (by omega)), hm.trans (Nat.mod_eq_of_lt (by omega)), hh.trans (Nat.mod_eq_of_lt (s.get_lt _)), hs⟩

/-- A legal pop moves the head, modulo the slots, and lowers the count (R114, R116). -/
theorem State.circApply_pop (s : State) (n c k : Nat) :
    (s.circApply n c k true).circ n c TILE_CIRC_PTR_n.head = (s.circ n c TILE_CIRC_PTR_n.head + k) % s.circSlots n c
      ∧ (s.circApply n c k true).circ n c TILE_CIRC_PTR_n.count = s.circ n c TILE_CIRC_PTR_n.count - k
      ∧ (s.circApply n c k true).circ n c TILE_CIRC_PTR_n.tail = s.circ n c TILE_CIRC_PTR_n.tail
      ∧ (s.circApply n c k true).circ n c TILE_CIRC_PTR_n.state = (if s.circ n c TILE_CIRC_CFG_n.enable = 0 then 0
        else if s.circ n c TILE_CIRC_PTR_n.count - k = 0 then 1
        else if s.circ n c TILE_CIRC_PTR_n.count - k = s.circSlots n c then 3 else 2) := by
  have hcount : s.circ n c TILE_CIRC_PTR_n.count < 2 ^ 18 := s.get_lt _
  have hslots := s.circSlots_le n c
  have hhead : (s.circ n c TILE_CIRC_PTR_n.head + k) % s.circSlots n c < s.circSlots n c := Nat.mod_lt _ (Nat.succ_pos _)
  obtain ⟨hh, ht, hm, hs⟩ := s.setCirc_circ n c ((s.circ n c TILE_CIRC_PTR_n.head + k) % s.circSlots n c)
    (s.circ n c TILE_CIRC_PTR_n.tail) (s.circ n c TILE_CIRC_PTR_n.count - k)
  exact ⟨hh.trans (Nat.mod_eq_of_lt (by omega)), hm.trans (Nat.mod_eq_of_lt (by omega)), ht.trans (Nat.mod_eq_of_lt (s.get_lt _)), hs⟩

/-! ### The end of the CORE cycle -/

/-- Writes that commit set no register, and no trap waits for them. -/
theorem State.commit_frame (s : State) (w : Late) : (s.commit w).regs = s.regs ∧ (s.commit w).tile.trapsDue = s.tile.trapsDue := by
  unfold State.commit
  split
  · exact ⟨rfl, rfl⟩
  · cases w.side <;> cases w.remote <;> exact ⟨rfl, rfl⟩

theorem State.commitRound_frame (l : List Late) (busy : List (Nat × Nat)) (s : State) :
    (s.commitRound busy l).1.regs = s.regs ∧ (s.commitRound busy l).1.tile.trapsDue = s.tile.trapsDue := by
  induction l generalizing s busy with
  | nil => exact ⟨rfl, rfl⟩
  | cons w l ih =>
    unfold State.commitRound
    split
    · obtain ⟨hregs, htraps⟩ := s.commit_frame w
      obtain ⟨hregs', htraps'⟩ := ih ((w.tile, w.bank) :: (w.tile, 256 + w.port) :: busy) (s.commit w)
      exact ⟨hregs'.trans hregs, htraps'.trans htraps⟩
    · exact ih _ s

/-- The open cycle with a single push or pop in it. -/
def State.withCirc (s : State) (o : CircOp) : State := { s with tile := { s.tile with circ := [o] } }

/-- At the end of the cycle it is decided on the registers as they stand. -/
theorem State.withCirc_endCycle (s : State) (o : CircOp) :
    ∃ v : State, v.regs = s.regs ∧ v.tile.trapsDue = s.tile.trapsDue ∧ (s.withCirc o).endCycle = v.circDecide o := by
  obtain ⟨hregs, htraps⟩ := (s.withCirc o).commitRound_frame s.tile.late []
  refine ⟨_, ?_, ?_, rfl⟩
  · exact hregs
  · exact htraps

/-- A region read in equal registers. -/
theorem State.circ_congr {s v : State} (h : v.regs = s.regs) (n c : Nat) (f : Fld) : v.circ n c f = s.circ n c f := State.get_congr h _

theorem State.circSlots_congr {s v : State} (h : v.regs = s.regs) (n c : Nat) : v.circSlots n c = s.circSlots n c := by
  rw [State.circSlots, State.circSlots, State.circ_congr h]

theorem State.pushLegal_congr {s v : State} (h : v.regs = s.regs) (n c k : Nat) : v.pushLegal n c k = s.pushLegal n c k := by
  rw [State.pushLegal, State.pushLegal, State.circ_congr h, State.circSlots_congr h]

theorem State.popLegal_congr {s v : State} (h : v.regs = s.regs) (n c k : Nat) : v.popLegal n c k = s.popLegal n c k := by
  rw [State.popLegal, State.popLegal, State.circ_congr h]

/-! ### The sequencer's pushes and pops -/

/-- A push or pop of the sequencer. -/
def seqOp (n c k : Nat) (pop : Bool) : CircOp := ⟨n, c, k, 0, portCode .sequencer, pop, none, false⟩

/-- A legal one of 1 to 16 slots is applied; any other will trap (R117). -/
theorem State.circDecide_seqOp (s : State) (n c k : Nat) (pop : Bool) :
    s.circDecide (seqOp n c k pop) =
      if (1 ≤ k ∧ k ≤ 16) ∧ (if pop then s.popLegal n c k else s.pushLegal n c k) = true then s.circApply n c k pop
      else { s with tile := { s.tile with trapsDue := s.tile.trapsDue ++ [(n, portCode .sequencer, if pop then 5 else 4, c)] } } := rfl

section
variable {s : State} {n c k : Nat}

theorem State.seqPush_applied (h : s.pushLegal n c k = true) (hlo : 1 ≤ k) (hhi : k ≤ 16) (he : s.circ n c TILE_CIRC_CFG_n.enable ≠ 0) :
    let t := (s.withCirc (seqOp n c k false)).endCycle
    t.circ n c TILE_CIRC_PTR_n.tail = (s.circ n c TILE_CIRC_PTR_n.tail + k) % s.circSlots n c
      ∧ t.circ n c TILE_CIRC_PTR_n.count = s.circ n c TILE_CIRC_PTR_n.count + k
      ∧ t.circ n c TILE_CIRC_PTR_n.head = s.circ n c TILE_CIRC_PTR_n.head
      ∧ t.circ n c TILE_CIRC_PTR_n.state = (if s.circ n c TILE_CIRC_PTR_n.count + k = 0 then 1
        else if s.circ n c TILE_CIRC_PTR_n.count + k = s.circSlots n c then 3 else 2) := by
  intro t
  obtain ⟨v, hregs, -, hend⟩ := s.withCirc_endCycle (seqOp n c k false)
  have hlegal : v.pushLegal n c k = true := (State.pushLegal_congr hregs n c k).trans h
  have ht : t = v.circApply n c k false := hend.trans ((v.circDecide_seqOp n c k false).trans (if_pos ⟨⟨hlo, hhi⟩, hlegal⟩))
  have happly := State.circApply_push hlegal
  simp only [State.circ_congr hregs, State.circSlots_congr hregs, if_neg he] at happly
  rwa [ht]

theorem State.seqPop_applied (h : s.popLegal n c k = true) (hlo : 1 ≤ k) (hhi : k ≤ 16) (he : s.circ n c TILE_CIRC_CFG_n.enable ≠ 0) :
    let t := (s.withCirc (seqOp n c k true)).endCycle
    t.circ n c TILE_CIRC_PTR_n.head = (s.circ n c TILE_CIRC_PTR_n.head + k) % s.circSlots n c
      ∧ t.circ n c TILE_CIRC_PTR_n.count = s.circ n c TILE_CIRC_PTR_n.count - k
      ∧ t.circ n c TILE_CIRC_PTR_n.tail = s.circ n c TILE_CIRC_PTR_n.tail
      ∧ t.circ n c TILE_CIRC_PTR_n.state = (if s.circ n c TILE_CIRC_PTR_n.count - k = 0 then 1
        else if s.circ n c TILE_CIRC_PTR_n.count - k = s.circSlots n c then 3 else 2) := by
  intro t
  obtain ⟨v, hregs, -, hend⟩ := s.withCirc_endCycle (seqOp n c k true)
  have hlegal : v.popLegal n c k = true := (State.popLegal_congr hregs n c k).trans h
  have ht : t = v.circApply n c k true := hend.trans ((v.circDecide_seqOp n c k true).trans (if_pos ⟨⟨hlo, hhi⟩, hlegal⟩))
  have happly := v.circApply_pop n c k
  simp only [State.circ_congr hregs, State.circSlots_congr hregs, if_neg he] at happly
  rwa [ht]

/-- One that is not legal will trap, and changes no pointer (R117). -/
theorem State.seqOp_traps {pop : Bool} (h : (if pop then s.popLegal n c k else s.pushLegal n c k) = false) :
    let t := (s.withCirc (seqOp n c k pop)).endCycle
    t.tile.trapsDue = s.tile.trapsDue ++ [(n, portCode .sequencer, if pop then 5 else 4, c)] ∧ t.regs = s.regs := by
  intro t
  obtain ⟨v, hregs, htraps, hend⟩ := s.withCirc_endCycle (seqOp n c k pop)
  have hlegal : ¬ ((1 ≤ k ∧ k ≤ 16) ∧ (if pop then v.popLegal n c k else v.pushLegal n c k) = true) := by
    rw [State.popLegal_congr hregs, State.pushLegal_congr hregs, h]
    exact fun hk => Bool.false_ne_true hk.2
  have ht : t = _ := hend.trans ((v.circDecide_seqOp n c k pop).trans (if_neg hlegal))
  rw [ht]
  exact ⟨by rw [← htraps], hregs⟩
end

/-! ### The commands -/

/-- An action that is due is issued: its meaning runs on the state that its issue leaves (R73). -/
theorem State.issue_due {s : State} {n i kind : Nat} {a : SchedAction} (f : State → SchedAction → State) (hact : s.action n i = some a)
    (hclock : s.clockAtOffset a.offset = true) (hnext : i = s.issuedBy n) (hkind : a.kind = kind)
    (hstate : s.get (TILE_STATE.state.tile n) ≠ 0) (htile : s.tileClock n = true) : s.issue n i kind f = f (s.issued n a) a := by
  rw [State.issue, hact]
  exact if_pos ⟨hclock, hnext, hkind, hstate, htile⟩

/-- A push or pop of an enabled region joins the empty open cycle. -/
theorem State.seqCirc_joins {s : State} {n c : Nat} (k : Nat) (pop : Bool) (he : s.circ n c TILE_CIRC_CFG_n.enable ≠ 0)
    (hcirc : s.tile.circ = []) : s.seqCirc n c k pop = s.withCirc (seqOp n c k pop) := by
  rw [State.seqCirc, State.portCirc, if_neg he, hcirc]
  rfl

theorem State.withCirc_sameBut (s : State) (o : CircOp) : s.sameBut (s.withCirc o) [.tile] := by simp [State.sameBut, State.withCirc]

/-- The first waiting push of a region that has become legal, of no cart channel, is applied and waits no longer. -/
theorem execWaitingPushApplied_push {dt n c : Nat} {w : Wait} {s : State}
    (hfind : ((s.pass dt).tile.waits.find? fun (x : Wait) => x.tile == n && x.circ == c &&
      (if x.pop then (s.pass dt).popLegal n c x.n else (s.pass dt).pushLegal n c x.n)) = some w)
    (horigin : w.origin = none) (hpop : w.pop = false) :
    execWaitingPushApplied dt n c s = .next { (s.pass dt).circApply n c w.n false with
      tile := { (s.pass dt).tile with waits := (s.pass dt).tile.waits.erase w } } := by
  simp only [execWaitingPushApplied, hfind, horigin, hpop]
  rfl

/-- What the push leaves: the pointers are moved as one that is applied at once moves them. -/
theorem State.waitingPush_effect {s : State} {n c k : Nat} (waits : List Wait) (h : s.pushLegal n c k = true) :
    let t := { s.circApply n c k false with tile := { s.tile with waits := waits } }
    t.circ n c TILE_CIRC_PTR_n.count = s.circ n c TILE_CIRC_PTR_n.count + k
      ∧ t.circ n c TILE_CIRC_PTR_n.tail = (s.circ n c TILE_CIRC_PTR_n.tail + k) % s.circSlots n c
      ∧ s.sameBut t [.regs, .tile] ∧ s.regsBut t (circFields n c) := by
  intro t
  have hregs : t.regs = (s.circApply n c k false).regs := rfl
  obtain ⟨htail, hcount, -, -⟩ := State.circApply_push h
  exact ⟨(State.circ_congr hregs n c _).trans hcount, (State.circ_congr hregs n c _).trans htail,
    by simp [t, State.sameBut, State.circApply], State.regsBut.of_regs (s.setCirc_regsBut n c _ _ _) hregs⟩

/-- Settles O15: the end of the cycle decides a scheduled push or pop on the registers as its issue left them, and what a legal one does
to the pointers is one rule of `State.circApply`, whose modulus and count fit the pointer fields. -/
theorem circularRegions : Obligations.CircularRegions := by
  unfold Obligations.CircularRegions
  refine ⟨?_, ?_, ?_, ?_, ?_⟩
  · rintro dt n i a s _ _ rfl rfl hact hclock hnext hkind hstate htile he hcirc hlo hhi hlegal
    refine ⟨_, congrArg Host.Outcome.next ((State.issue_due _ hact hclock hnext hkind hstate htile).trans
      (State.seqCirc_joins a.operand false he hcirc)), rfl, ?_⟩
    obtain ⟨htail, hcount, hhead, hst⟩ := State.seqPush_applied hlegal hlo hhi he
    exact ⟨htail, hcount, hhead, hst, State.withCirc_sameBut _ _⟩
  · rintro dt n i a s _ _ rfl rfl hact hclock hnext hkind hstate htile he hcirc hlegal
    refine ⟨_, congrArg Host.Outcome.next ((State.issue_due _ hact hclock hnext hkind hstate htile).trans
      (State.seqCirc_joins a.operand false he hcirc)), rfl, ?_⟩
    obtain ⟨htraps, hregs⟩ := State.seqOp_traps (pop := false) hlegal
    exact ⟨htraps, hregs, State.withCirc_sameBut _ _⟩
  · rintro dt n i a s _ _ rfl rfl hact hclock hnext hkind hstate htile he hcirc hlo hhi hlegal
    refine ⟨_, congrArg Host.Outcome.next ((State.issue_due _ hact hclock hnext hkind hstate htile).trans
      (State.seqCirc_joins a.operand true he hcirc)), rfl, ?_⟩
    obtain ⟨hhead, hcount, htail, hst⟩ := State.seqPop_applied hlegal hlo hhi he
    exact ⟨hhead, hcount, htail, hst, State.withCirc_sameBut _ _⟩
  · rintro dt n i a s _ _ rfl rfl hact hclock hnext hkind hstate htile he hcirc hlegal
    refine ⟨_, congrArg Host.Outcome.next ((State.issue_due _ hact hclock hnext hkind hstate htile).trans
      (State.seqCirc_joins a.operand true he hcirc)), rfl, ?_⟩
    obtain ⟨htraps, hregs⟩ := State.seqOp_traps (pop := true) hlegal
    exact ⟨htraps, hregs, State.withCirc_sameBut _ _⟩
  · rintro dt n c w s _ rfl hfind horigin hpop -
    have hlegal : (s.pass dt).pushLegal n c w.n = true := by
      have h := List.find?_some hfind
      simp only [hpop, Bool.and_eq_true] at h
      exact h.2
    obtain ⟨hcount, htail, hsame, hbut⟩ := State.waitingPush_effect ((s.pass dt).tile.waits.erase w) hlegal
    exact ⟨_, execWaitingPushApplied_push hfind horigin hpop, hcount, htail, rfl, State.mem_of_sameBut hsame (by decide), hsame, hbut⟩

end Sys2Proof.Machine
end

section
/-! PROOFS. Remote accesses (R93, R117, R313): a circular push behind the writes of its port. -/

set_option Elab.async false

namespace Sys2Proof.Machine

/-- A circular push that reaches an enabled region of a tile joins the open cycle. -/
theorem execCircularPush_joins {dt n : Nat} {p : Packet} {s u : State} (htake : (s.pass dt).take p = some u) (hbad : badPacket p = false)
    (hty : p.ty = 6) (hep : epTile p.dst = some n) (he : u.circ n p.circ TILE_CIRC_CFG_n.enable ≠ 0) :
    execCircularPush dt p s = .next (u.remoteCirc n p.circ p.len false none) := by
  simp [execCircularPush, State.receive, htake, hbad, hty, hep, he]

/-- A push of one slot of region 0 of tile 0. -/
def pushPacket : Packet := ⟨6, 1, 0, 1, 0, 0, 0, 1, 0, 0, 0, []⟩

/-- It is on its way while a write of 16 bytes that came through the network port of tile 0 waits for two slots, one in each of two bank
rows; region 0 has 4 slots, all empty. -/
def queuedPushState : State :=
  { ((State.reset.set (TILE_CIRC_CFG_n.enable.tile 0) 1).set (TILE_CIRC_CFG_n.slots.tile 0) 3).queueWrite 0 .network 56 (leBytes 16 1) with
    net := { fly := [pushPacket] } }

theorem pushPacket_taken : ((queuedPushState.pass 0).take pushPacket).isSome = true := by decide +kernel

/-- The state in which the push has arrived. -/
def pushArrivedState : State := ((queuedPushState.pass 0).take pushPacket).get pushPacket_taken

/-- The port writes one row in a cycle, so the second still waits at the end of this one, and the push stays behind it: the count is as
before. -/
theorem pushArrivedState_counts :
    (pushArrivedState.remoteCirc 0 0 1 false none).endCycle.circ 0 0 TILE_CIRC_PTR_n.count = 0
      ∧ pushArrivedState.circ 0 0 TILE_CIRC_PTR_n.count = 0 := by
  decide +kernel

/-- Refutes O18: its fifth clause says that a legal push, the only one of its cycle and with none waiting, raises the count at the end of the
cycle. The model keeps a push for the next cycle while a write of its network port waits at the tile (R93, R313), which no hypothesis
excludes. -/
theorem not_remoteAccesses : ¬ Obligations.RemoteAccesses := by
  unfold Obligations.RemoteAccesses
  rintro ⟨-, -, -, -, hpush, -⟩
  have htake : (queuedPushState.pass 0).take pushPacket = some pushArrivedState := (Option.some_get pushPacket_taken).symm
  have henable : pushArrivedState.circ 0 0 TILE_CIRC_CFG_n.enable ≠ 0 := by decide +kernel
  have hcirc : pushArrivedState.tile.circ = [] := by decide +kernel
  have hwaits : (pushArrivedState.tile.waits.any fun (w : Wait) => w.tile == 0 && w.circ == 0 && w.pop == false) = false := by
    decide +kernel
  have hlegal : pushArrivedState.pushLegal 0 0 1 = true := by decide +kernel
  obtain ⟨t, ht, -, hcount, -⟩ := hpush 0 pushPacket pushArrivedState 0 queuedPushState _ rfl htake (by decide) rfl (by decide) (by decide)
    henable hcirc hwaits hlegal
  cases (execCircularPush_joins htake (by decide) rfl (by decide) henable).symm.trans ht
  obtain ⟨hafter, hbefore⟩ := pushArrivedState_counts
  change (pushArrivedState.remoteCirc 0 0 1 false none).endCycle.circ 0 0 _ = pushArrivedState.circ 0 0 _ + 1 at hcount
  rw [hafter, hbefore] at hcount
  exact absurd hcount (by decide)

end Sys2Proof.Machine
end

section
/-! PROOFS. Fills and copies (R111, R118, R119): a descriptor outside the declared regions. -/

set_option Elab.async false

namespace Sys2Proof.Machine

/-- An action of the sequencer: at offset 0, a fill by the descriptor at scratchpad offset 0. -/
def fillAction : SchedAction := ⟨0, 6, 0, 0, 0⟩

/-- An image of one logical tile, which has this action and no declared region. -/
def fillImage : Image :=
  { parseErr := none, header := ⟨0x57495850, 1, 1, 0, 0x5725, 1, 1, 1, 0, 0, 0, 0, 4096, true⟩,
    sched := ⟨200, 20, 9500, 2, 3, 0, 0, true, [], [⟨0, 0, [fillAction]⟩]⟩, wide := none, tiles := [⟨0, 0, 0⟩], coachOrder := [0],
    power := ⟨0, 0, 0, 0, 0, [], []⟩, thermal := ⟨0, 0, [], []⟩, sig := ⟨1, 1, 0, true, [], [], [], []⟩, sects := [], digest := [],
    groupTiles := [], group := none, yxOrder := [], trees := [], barriers := [], windows := [], relay := [], cplTable := [],
    transfers := [], wideTransfers := [], tileRegs := [], spaceRegs := [], formats := [], taps := [], sampler := [], heads := [],
    kv := [], weights := [], drafts := [], seeds := [], reloc := [], depth := 0, treeCars := 0, cmax := 0, vocab := 0, adapters := 0,
    footprint := 0, bcap := 0, batchMin := 0, mcastLimit := 0 }

/-- It runs on tile 0, in the first spoke of its turn. -/
def fillState : State :=
  { ((State.reset.set HEAD_IMAGE_STATUS.state 3).set (TILE_STATE.state.tile 0) 2).set HEAD_TURN_CONFIG.turn_len 200 with
    img := { image := some fillImage, place := [(0, 0)] } }

/-- The state in which the fill has been issued. -/
def fillIssuedState : State := (fillState.pass 0).issued 0 fillAction

/-- The fetch of the descriptor traps, and zeros are a descriptor of no rows. -/
theorem fillIssuedState_traps :
    (fillIssuedState.seqFill 0 fillAction false).get (TILE_TRAP.valid.tile 0) = 1
      ∧ fillIssuedState.get (TILE_TRAP.valid.tile 0) = 0 := by
  decide +kernel

/-- Refutes O16: its first clause lets a fill change no register but the hazard detector's, and asks only that the descriptor's rows are
well placed. Where the descriptor itself lies in no declared region its fetch traps (R118), which TILE_TRAP records; the zeros that
it returns (R119) name no row that could be ill placed. -/
theorem not_fillsAndCopies : ¬ Obligations.FillsAndCopies := by
  unfold Obligations.FillsAndCopies
  rintro ⟨hfill, -⟩
  have hact : (fillState.pass 0).action 0 0 = some fillAction := by decide +kernel
  have hclock : (fillState.pass 0).clockAtOffset fillAction.offset = true := by decide +kernel
  have hnext : 0 = (fillState.pass 0).issuedBy 0 := by decide +kernel
  have hstate : (fillState.pass 0).get (TILE_STATE.state.tile 0) ≠ 0 := by decide +kernel
  have htile : (fillState.pass 0).tileClock 0 = true := by decide +kernel
  have hrows : (fillIssuedState.readPort 0 .fillCopy 0 64).2.fillTrap 0 (parseDesc (fillIssuedState.readPort 0 .fillCopy 0 64).1) false =
    none := by decide +kernel
  have hlate : fillIssuedState.tile.late = [] := by decide +kernel
  have hflips : fillIssuedState.flips = [] := by decide +kernel
  have hwf : Memory.wf (fillState.pass 0).mem = true := by decide +kernel
  obtain ⟨t, ht, -, -, -, hregs⟩ := hfill 0 0 0 fillAction _ fillState _ fillIssuedState rfl rfl hact hclock hnext rfl hstate htile rfl hrows
    hlate (by rw [hflips]; exact fun p hp => absurd hp List.not_mem_nil) hwf
  have hexec : exec (.actionFill 0 0 0) fillState = .next (fillIssuedState.seqFill 0 fillAction false) :=
    congrArg Host.Outcome.next (State.issue_due _ hact hclock hnext rfl hstate htile)
  cases hexec.symm.trans ht
  have hsame := hregs (TILE_TRAP.valid.tile 0) (by decide) (by decide)
  rw [fillIssuedState_traps.1, fillIssuedState_traps.2] at hsame
  exact absurd hsame (by decide)

end Sys2Proof.Machine
end

section
/-! PROOFS. Scrubbing (R127, R377, R378): a scrub read that the hazard detector counts. -/

set_option Elab.async false

namespace Sys2Proof.Machine

/-- Tile n's next chunk, and what follows it. -/
def State.runChunk (s : State) (n : Nat) : State :=
  ({ s with tile := { s.tile with scrubSpoke := Sparse.put s.tile.scrubSpoke n (s.spoke + 1) } }.scrubChunk n).scrubNext n

/-- An enabled engine of a tile that is on runs its chunk when it is time (R127). -/
theorem execScrubChunk_runs {dt n : Nat} {s : State} (hn : n < 9984) (hstate : (s.pass dt).get (TILE_STATE.state.tile n) ≠ 0)
    (henable : (s.pass dt).flag ((s.pass dt).scrubFld n TILE_SCRUB_CTRL.enable BAY_SCRUB_CTRL.enable) = true)
    (htime : (s.pass dt).chunkTime n = true) : execScrubChunk dt n [] s = .next ((s.pass dt).runChunk n) :=
  congrArg Host.Outcome.next (if_pos ⟨hn, hstate, henable, htime⟩)

/-- The debug flag is set and no image runs; the scrub engine of P-tile 9216 is at its first chunk, and a write of the first row of the
tile's scratchpad stands in the open CORE cycle. -/
def debugScrubState : State :=
  let s := ((State.reset.set (TILE_STATE.state.tile 9216) 1).set (BAY_SCRUB_CTRL.enable.bay 0) 1).setFlag HEAD_IMAGE_STATUS.debug true
  { s with tile := { s.tile with scrubAt := [(9216, 0)] } }.queueWrite 9216 .network 0 (leBytes 8 1)

/-- The detector counts the chunk's read of the row (kind 0x1). -/
theorem debugScrubState_counts :
    ((debugScrubState.pass 0).runChunk 9216).get (TILE_HAZ_COUNT.same_row.tile 9216) = 1
      ∧ (debugScrubState.pass 0).get (TILE_HAZ_COUNT.same_row.tile 9216) = 0 := by
  decide +kernel

/-- Refutes O22: its first clause says that a chunk changes no register where no stored bit is flipped. With the debug flag set the chunk's
reads are noted, and one of a row written in the same CORE cycle is a hazard: TILE_HAZ_COUNT goes from 0 to 1. -/
theorem not_scrubbing : ¬ Obligations.Scrubbing := by
  unfold Obligations.Scrubbing
  rintro ⟨hchunk, -⟩
  have hstate : (debugScrubState.pass 0).get (TILE_STATE.state.tile 9216) ≠ 0 := by decide +kernel
  have henable : (debugScrubState.pass 0).flag ((debugScrubState.pass 0).scrubFld 9216 TILE_SCRUB_CTRL.enable BAY_SCRUB_CTRL.enable) = true := by
    decide +kernel
  have hspoke : Sparse.find (debugScrubState.pass 0).tile.scrubSpoke 9216 ≠ some ((debugScrubState.pass 0).spoke + 1) := by decide +kernel
  have hidle : (debugScrubState.pass 0).running = false := by decide +kernel
  have hflips : (debugScrubState.pass 0).flips = [] := by decide +kernel
  have hat : Sparse.find (debugScrubState.pass 0).tile.scrubAt 9216 = some 0 := by decide +kernel
  have hmore : 0 + 1 < (debugScrubState.pass 0).scrubChunks 9216 := by decide +kernel
  obtain ⟨t, ht, -, hregs, -⟩ := hchunk 0 9216 0 debugScrubState _ rfl (by decide) hstate henable hspoke (.inl hidle) hflips hat hmore
  have htime : (debugScrubState.pass 0).chunkTime 9216 = true := by decide +kernel
  have hexec : exec (.scrubChunk 0 9216 []) debugScrubState = .next ((debugScrubState.pass 0).runChunk 9216) :=
    execScrubChunk_runs (by decide) hstate henable htime
  have heq : (debugScrubState.pass 0).runChunk 9216 = t := Host.Outcome.next.inj (hexec.symm.trans ht)
  obtain ⟨hafter, hbefore⟩ := debugScrubState_counts
  rw [heq, State.get_congr hregs, hbefore] at hafter
  exact absurd hafter (by decide)

end Sys2Proof.Machine
end

section
/-! PROOFS. The shadow check (R169, R171, R173, R174): the copies of a tap while no stored bit is flipped, the samples of a coach, and
what a comparison counts. -/

set_option Elab.async false

namespace Sys2Proof.Machine

/-! ### Reads through the code while no stored bit is flipped (R123, R125) -/

section
variable {s : State} (hflips : s.flips = [])
include hflips

theorem State.readRoof_clean (key : Nat) (who : Reader) : (s.readRoof key who).2 = s := by
  rw [State.readRoof, hflips, Sparse.find_nil]

/-- Roof words read one behind the other leave the state, and their payloads add up. -/
theorem State.foldl_readRoof_clean (key : Nat → Nat) (width : Nat) (l : List Nat) (bs : List Byte) :
    let r := l.foldl (fun (a : List Byte × State) j => (a.1 ++ leBytes width (a.2.readRoof (key j)).1, (a.2.readRoof (key j)).2)) (bs, s)
    r.1.length = bs.length + width * l.length ∧ r.2 = s := by
  induction l generalizing bs with
  | nil => exact ⟨rfl, rfl⟩
  | cons j l ih =>
    simp only [List.foldl_cons, State.readRoof_clean hflips]
    obtain ⟨hlen, hstate⟩ := ih (bs ++ leBytes width (s.readRoof (key j)).1)
    refine ⟨?_, hstate⟩
    rw [hlen, List.length_append, length_leBytes, List.length_cons, Nat.mul_succ]
    omega

theorem State.getWords_clean (n off count : Nat) :
    (s.getWords n off count).1.length = 68 * count ∧ (s.getWords n off count).2 = s := by
  obtain ⟨hlen, hstate⟩ := State.foldl_readRoof_clean hflips (fun j => tileBase n + off + 64 * j) 68 (List.range count) []
  rw [List.length_nil, Nat.zero_add, List.length_range] at hlen
  exact ⟨hlen, hstate⟩

theorem State.channelScales_clean (c half layer row count : Nat) (alt : Bool) :
    (s.channelScales c half layer row count alt).2 = s :=
  (State.foldl_readRoof_clean hflips (fun j => tableKey c (64 * (_ / 64 + j))) 64 _ []).2

theorem State.readCoded_clean (n key off len : Nat) (who : Reader) : s.readCoded n key off len who = (s.bytes key len, s) := by
  simp [State.readCoded, hflips]

/-- The check of a tap copies its three spans behind one another into the checking S-tile's scratchpad, and does nothing else. -/
theorem State.shadowCheck_copies (f : Fmt) (p : Tap) (n m a o : Nat) :
    ∃ bs, bs.length = spanLines f.wfmt * 2176 + 67584 ∧ (s.shadowCheck f p n m a o).2 = s.writeSpad n (shadowBase n) bs := by
  obtain ⟨hlen, hstate⟩ :=
    State.getWords_clean hflips m (2048 * s.halfLine m (p.weightOff / 2048) + p.weightOff % 2048) (spanLines f.wfmt * 32)
  simp only [State.shadowCheck, hstate, State.readCoded_clean hflips, State.channelScales_clean hflips]
  refine ⟨_, ?_, rfl⟩
  simp only [List.length_append, State.bytes, Memory.length_getBytes, hlen]
  omega
end

/-! ### Samples -/

/-- A sample takes its result where it is coach c's (R171). -/
def Sample.withResult (c : Nat) (r : Bool × Bool) (y : Sample) : Sample := if y.coach = c then { y with result := some r } else y

theorem Sample.withResult_coach (c : Nat) (r : Bool × Bool) (y : Sample) : (y.withResult c r).coach = y.coach := by
  unfold Sample.withResult
  split <;> rfl

/-- The sample of coach c has its result. -/
def State.recordResult (s : State) (c : Nat) (r : Bool × Bool) : State :=
  s.setServ fun v => { v with samples := v.samples.map (Sample.withResult c r) }

/-- A coach's sample takes a result and stays the coach's sample. -/
theorem State.recordResult_sample? {s : State} {c : Nat} {x : Sample} (h : s.sample? c = some x) (r : Bool × Bool) :
    (s.recordResult c r).sample? c = some { x with result := some r } := by
  have hc : x.coach = c := by simpa using List.find?_some h
  have hsame : ((fun y : Sample => y.coach == c) ∘ Sample.withResult c r) = fun y => y.coach == c := by
    funext y
    rw [Function.comp_apply, Sample.withResult_coach]
  calc (s.recordResult c r).sample? c
    _ = (s.sample? c).map (Sample.withResult c r) := by
      rw [State.sample?, State.recordResult, State.setServ_serv, List.find?_map, hsame, State.sample?]
    _ = some { x with result := some r } := by rw [h, Option.map_some, Sample.withResult, if_pos hc]

theorem State.dropSample_sample? (s : State) (c : Nat) : (s.dropSample c).sample? c = none := by
  simp [State.sample?, State.dropSample, List.find?_eq_none]

theorem State.dropSample_sameBut (s : State) (c : Nat) : s.sameBut (s.dropSample c) [.regs, .serv] :=
  (State.sameBut.refl s _).setServ _ (by simp)

/-- A count of a register leaves the samples as they are. -/
@[simp] theorem State.inc_sample? (s : State) (f : Fld) (d c : Nat) : (s.inc f d).sample? c = s.sample? c := rfl

/-- A missed sample is dropped and counted (R171). -/
theorem State.missSample_effect (s : State) (c : Nat) :
    (s.missSample c).get HEAD_SHADOW_STATS.missed = min (2 ^ HEAD_SHADOW_STATS.missed.w - 1) (s.get HEAD_SHADOW_STATS.missed + 1)
      ∧ ((s.missSample c).sample? c).isSome = false ∧ s.sameBut (s.missSample c) [.regs, .serv]
      ∧ s.regsBut (s.missSample c) [HEAD_SHADOW_STATS.missed] := by
  refine ⟨State.get_inc_same _ _ 1 (by decide), ?_, (s.dropSample_sameBut c).set _ _ (by simp), ?_⟩
  · rw [State.missSample, State.inc_sample?, State.dropSample_sample?]
    rfl
  · exact (State.regsBut_of_regs (State.setServ_regs ..) _).inc (f := HEAD_SHADOW_STATS.missed) 1 (by simp)

/-! ### Counting a comparison (R174) -/

/-- A field of any copy of an indexed register lies as it does in the first. -/
theorem Fld.ix_lo (f : Fld) (i : Nat) : (f.ix i).lo = f.lo := by rw [Fld.ix]
theorem Fld.ix_w (f : Fld) (i : Nat) : (f.ix i).w = f.w := by rw [Fld.ix]

theorem Fld.fits_ix {f : Fld} (h : f.fits) (i : Nat) : (f.ix i).fits := by
  rw [Fld.fits, Fld.ix_lo, Fld.ix_w]
  exact h

/-- It counts up to its largest value (R18). -/
theorem State.get_inc_ix (s : State) (f : Fld) (i : Nat) (h : f.fits) :
    (s.inc (f.ix i)).get (f.ix i) = min (2 ^ f.w - 1) (s.get (f.ix i) + 1) := by
  rw [State.get_inc_same _ _ _ (Fld.fits_ix h i), Fld.ix_w]

/-- Fields that share no bit share none in any copy. -/
theorem State.get_inc_ix_apart (s : State) {f g : Fld} (i : Nat) (h : g.fits) (ha : f.lo + f.w ≤ g.lo ∨ g.lo + g.w ≤ f.lo) :
    (s.inc (f.ix i)).get (g.ix i) = s.get (g.ix i) := by
  refine State.get_inc_apart s 1 (Fld.fits_ix h i) (.inr ?_)
  simpa only [Fld.ix_lo, Fld.ix_w] using ha

/-- A layer's status lies in another register than the device's count of comparisons. -/
theorem fmtStatus_key_ne_completed {f : Fld} (h : f.key = 0x120018) (l : Nat) : (f.ix l).key ≠ HEAD_SHADOW_STATS.completed.key := by
  simp only [Fld.ix, h, HEAD_SHADOW_STATS.completed]
  omega

/-- The comparison of coach c's sample drops it, and counts it for layer l and for the device. -/
def State.countSample (s : State) (c l : Nat) : State :=
  ((s.dropSample c).inc (HEAD_FMT_STATUS.samples.ix l)).inc HEAD_SHADOW_STATS.completed

/-- The fields that a comparison for layer l may change. -/
def compareFields (l : Nat) : List Fld :=
  [HEAD_FMT_STATUS.pressure.ix l, HEAD_FMT_STATUS.nonfinite.ix l, HEAD_FMT_STATUS.window_exceed.ix l, HEAD_FMT_STATUS.samples.ix l,
    HEAD_SHADOW_STATS.completed]

/-- The device's count lies apart from a layer's status. -/
theorem State.countSample_get_ix (s : State) (c l : Nat) {f : Fld} (hkey : f.key = 0x120018) (hf : f.fits) :
    (s.countSample c l).get (f.ix l) = (s.inc (HEAD_FMT_STATUS.samples.ix l)).get (f.ix l) :=
  (State.get_inc_apart _ 1 (Fld.fits_ix hf l) (.inl (fmtStatus_key_ne_completed hkey l).symm)).trans (State.get_congr rfl _)

theorem State.countSample_window (s : State) (c l : Nat) :
    (s.countSample c l).get (HEAD_FMT_STATUS.window_exceed.ix l) = s.get (HEAD_FMT_STATUS.window_exceed.ix l) := by
  rw [State.countSample_get_ix s c l rfl (by decide), State.get_inc_ix_apart _ _ (by decide) (by decide)]

/-- From `s` to `t` the sample of coach c has been compared, and counted for layer l and for the device. -/
structure State.Counted (c l : Nat) (s t : State) : Prop where
  samples : t.get (HEAD_FMT_STATUS.samples.ix l) =
    min (2 ^ HEAD_FMT_STATUS.samples.w - 1) (s.get (HEAD_FMT_STATUS.samples.ix l) + 1)
  completed : t.get HEAD_SHADOW_STATS.completed =
    min (2 ^ HEAD_SHADOW_STATS.completed.w - 1) (s.get HEAD_SHADOW_STATS.completed + 1)
  dropped : (t.sample? c).isSome = false
  parts : s.sameBut t [.regs, .serv]
  regs : s.regsBut t (compareFields l)

theorem State.countSample_counted (s : State) (c l : Nat) : State.Counted c l s (s.countSample c l) where
  samples := by rw [State.countSample_get_ix s c l rfl (by decide), State.get_inc_ix _ _ _ (by decide)]
  completed := by
    rw [State.countSample, State.get_inc_same _ _ _ (by decide),
      State.get_inc_apart _ 1 (by decide) (.inl (fmtStatus_key_ne_completed rfl l))]
    rfl
  dropped := by
    rw [State.countSample, State.inc_sample?, State.inc_sample?, State.dropSample_sample?]
    rfl
  parts := ((s.dropSample_sameBut c).set _ _ (by simp)).set _ _ (by simp)
  regs := ((State.regsBut_of_regs (State.setServ_regs ..) _).inc (f := HEAD_FMT_STATUS.samples.ix l) 1 (by simp [compareFields])).inc
    (f := HEAD_SHADOW_STATS.completed) 1 (by simp [compareFields])

/-- The window's count of exceedances may go up besides. -/
theorem State.Counted.inc_window {c l : Nat} {s t : State} (h : State.Counted c l s t) :
    State.Counted c l s (t.inc (HEAD_FMT_STATUS.window_exceed.ix l)) where
  samples := (State.get_inc_ix_apart t l (by decide) (by decide)).trans h.samples
  completed := (State.get_inc_apart t 1 (by decide) (.inl (fmtStatus_key_ne_completed rfl l))).trans h.completed
  dropped := h.dropped
  parts := h.parts.set _ _ (by simp)
  regs := h.regs.inc (f := HEAD_FMT_STATUS.window_exceed.ix l) 1 (by simp [compareFields])

/-- An exceedance within the limit is counted in the window, and no more (R174). -/
theorem State.exceed_within {s : State} {l : Nat} (nf : Bool) (h : s.get (HEAD_FMT_STATUS.window_exceed.ix l) + 1 ≤ (s.fmt l).limit) :
    s.exceed l nf = s.inc (HEAD_FMT_STATUS.window_exceed.ix l) := by
  refine if_pos ?_
  rw [State.get_inc_ix _ _ _ (by decide)]
  omega

/-! ### The commands -/

section
variable {dt c : Nat} {x : Sample} {i : Image} {p : Tap} {s : State} (hx : (s.pass dt).sample? c = some x)
include hx

theorem execShadowSampleMissed_misses (hres : x.result = none) : execShadowSampleMissed dt c s = .next ((s.pass dt).missSample c) := by
  simp [execShadowSampleMissed, hx, hres]

variable (hi : (s.pass dt).img.image = some i) (hp : i.taps[x.tap]? = some p)
include hi hp

/-- The copies complete in time: the sample has the result of its check (R171). -/
theorem execShadowCopyComplete_checks {m a o : Nat} (hres : x.result = none) (hm : (s.pass dt).tileOf (p.mLc * 256 + p.mLt) = some m)
    (ha : (s.pass dt).tileOf (p.aLc * 256 + p.aLt) = some a) (ho : (s.pass dt).tileOf (p.oLc * 256 + p.oLt) = some o)
    (hread : (s.pass dt).tapReadable ((s.pass dt).fmt p.layer) p m a o = true) (hwrite : (s.pass dt).pastOffset x p.writeOff = true)
    (hrelease : (s.pass dt).pastOffset x p.releaseOff = false) :
    execShadowCopyComplete dt c s = .next (((s.pass dt).shadowCheck ((s.pass dt).fmt p.layer) p x.by_ m a o).2.recordResult c
      ((s.pass dt).shadowCheck ((s.pass dt).fmt p.layer) p x.by_ m a o).1) := by
  simp only [execShadowCopyComplete, hx, hi, hp, hres, hm, ha, ho, hread, hwrite, hrelease]
  rfl

variable (hvoid : (s.pass dt).sampleVoid x = false)
include hvoid

/-- A sample without an exceedance is counted (R174). -/
theorem execShadowCompareComplete_counts {b : Bool} (hres : x.result = some (false, b)) :
    execShadowCompareComplete dt c s = .next ((s.pass dt).countSample c p.layer) := by
  simp [execShadowCompareComplete, State.countSample, hx, hi, hp, hres, hvoid]

/-- An exceedance of the present window, under a recipe that has not changed, is counted besides (R165, R174). -/
theorem execShadowCompareComplete_exceeds {b : Bool} (hres : x.result = some (true, b))
    (hsame : (s.pass dt).flag (HEAD_FMT_INFO.changed.ix p.layer) = false)
    (hwindow : x.turn / max 1 ((s.pass dt).fmt p.layer).window = (s.pass dt).turnNo / max 1 ((s.pass dt).fmt p.layer).window) :
    execShadowCompareComplete dt c s = .next (((s.pass dt).countSample c p.layer).exceed p.layer b) := by
  simp [execShadowCompareComplete, State.countSample, hx, hi, hp, hres, hvoid, hsame, hwindow]
end

/-- Settles O57: the check of a tap changes only the checking S-tile's scratchpad while no stored bit is flipped, and a comparison is
`State.Counted`, with or without the window's count. -/
theorem shadowSamples : Obligations.ShadowSamples := by
  unfold Obligations.ShadowSamples
  refine ⟨?_, ?_, ?_, ?_⟩
  · rintro dt c m a o x i p s _ rfl hx hi hp hres hm ha ho hread hwrite hrelease hflips -
    obtain ⟨bs, hlen, hcopy⟩ := State.shadowCheck_copies hflips ((s.pass dt).fmt p.layer) p x.by_ m a o
    refine ⟨_, execShadowCopyComplete_checks hx hi hp hres hm ha ho hread hwrite hrelease, ?_⟩
    rw [hcopy, ← hlen]
    have hsample : ((s.pass dt).writeSpad x.by_ (shadowBase x.by_) bs).sample? c = some x := hx
    refine ⟨?_, rfl, rfl, State.memBut_of_setBytes rfl, by simp [State.sameBut, State.recordResult, State.writeSpad]⟩
    rw [State.recordResult_sample? hsample]
    rfl
  · rintro dt c x s _ rfl hx hres
    obtain ⟨hmissed, hdropped, hsame, hregs⟩ := (s.pass dt).missSample_effect c
    exact ⟨_, execShadowSampleMissed_misses hx hres, hmissed, hdropped, rfl, rfl, hsame, hregs⟩
  · rintro dt c x i p b s _ rfl hx hi hp hvoid hres
    obtain ⟨hsamples, hcompleted, hdropped, hsame, hregs⟩ := (s.pass dt).countSample_counted c p.layer
    exact ⟨_, execShadowCompareComplete_counts hx hi hp hvoid hres, hsamples, hcompleted, hdropped, State.countSample_window _ c p.layer,
      rfl, rfl, hsame, hregs⟩
  · rintro dt c x i p b s _ rfl hx hi hp hvoid hres hchanged hwindow hlimit
    have hcount := (s.pass dt).countSample_window c p.layer
    have hexec := execShadowCompareComplete_exceeds hx hi hp hvoid hres hchanged hwindow
    rw [State.exceed_within b (by rw [hcount]; exact hlimit)] at hexec
    obtain ⟨hsamples, hcompleted, hdropped, hsame, hregs⟩ := ((s.pass dt).countSample_counted c p.layer).inc_window
    refine ⟨_, hexec, hsamples, hcompleted, hdropped, ?_, rfl, rfl, hsame, hregs⟩
    rw [State.get_inc_ix _ _ _ (by decide), hcount]

end Sys2Proof.Machine
end

section
/-! PROOFS. The other register writes (R17, R177): one write clears the enable of shadow checking and `model_pressure`. -/

set_option Elab.async false

namespace Sys2Proof.Machine

/-- A write of HEAD_SHADOW_CTRL: a 1 clears `model_pressure` (W1C), and `enable` takes its bit (R17). -/
theorem State.writeReg_shadowCtrl (s : State) (v : Nat) : s.writeReg HEAD_SHADOW_CTRL HEAD_SHADOW_CTRL.addr v =
    (s.set HEAD_SHADOW_CTRL.model_pressure (s.get HEAD_SHADOW_CTRL.model_pressure &&& (2 ^ 1 - 1 - bits v 33 1))).set
      HEAD_SHADOW_CTRL.enable (bits v 32 1) := rfl

theorem State.writeReg_clears_modelPressure {s : State} {v : Nat} (h : bits v 33 1 = 1) :
    (s.writeReg HEAD_SHADOW_CTRL HEAD_SHADOW_CTRL.addr v).get HEAD_SHADOW_CTRL.model_pressure = 0 := by
  rw [State.writeReg_shadowCtrl, State.get_set_apart _ _ (by decide) (by decide), State.get_set_same _ _ _ (by decide), h]
  simp

/-- The state in which a write of HEAD_SHADOW_CTRL has dropped the samples in progress (R177). -/
def State.shadowOff (s : State) (v : Nat) : State :=
  (s.writeReg HEAD_SHADOW_CTRL HEAD_SHADOW_CTRL.addr v).setServ fun y => { y with samples := [] }

/-- A host's write that clears `enable` drops them. -/
theorem State.hostWrite_shadowOff {s : State} {cmd v : Nat} (h : s.cmdRuns 2 [1, 2] = true) (hv : v.testBit 32 = false) :
    s.hostWrite cmd HEAD_SHADOW_CTRL.addr v = (((s.takeCommand 2 cmd).shadowOff v).respond 2 cmd stOk 0 true []).transmit :=
  State.hostWrite_runs (w := wrote ((s.takeCommand 2 cmd).shadowOff v)) h
    (fun role => (State.mgmtWrite_shadowCtrl _ role v).trans (congrArg wrote (if_neg (by simp [hv])))) rfl

/-- The operator's session of an operating device is open, and model pressure is set. -/
def modelPressureState : State :=
  (((State.reset.set HEAD_BOOT_STATUS.step 10).set CTL_PORT_STATUS.link 2).set CTL_PORT_STATUS.role 1).setFlag
    HEAD_SHADOW_CTRL.model_pressure true

/-- Refutes O26: its first clause lets a write that clears the enable of shadow checking change no register field but `enable`. The write of
2 ^ 33 clears `enable` and, as the 1 in a W1C field (R17), `model_pressure` of the same register. -/
theorem not_otherRegisterWrites : ¬ Obligations.OtherRegisterWrites := by
  unfold Obligations.OtherRegisterWrites
  rintro ⟨hshadow, -⟩
  have hruns : (modelPressureState.pass 0).cmdRuns 2 [1, 2] = true := by decide +kernel
  have hset : (modelPressureState.pass 0).get HEAD_SHADOW_CTRL.model_pressure = 1 := by decide +kernel
  obtain ⟨t, ht, -, -, -, -, -, hregs⟩ := hshadow 0 0 (2 ^ 33) modelPressureState _ rfl hruns (by decide)
  have hexec : exec (.shadowEnableWrite 0 0 (2 ^ 33)) modelPressureState = .next _ :=
    congrArg Host.Outcome.next (State.hostWrite_shadowOff hruns (by decide))
  cases hexec.symm.trans ht
  have hsame := hregs HEAD_SHADOW_CTRL.model_pressure (by decide) (by decide)
  rw [State.transmit_get, State.respond_get, State.shadowOff, State.setServ_get,
    State.writeReg_clears_modelPressure (by decide), hset] at hsame
  exact absurd hsame (by decide)

end Sys2Proof.Machine
end

section
/-! PROOFS. The sampling turn (R216, R219, R263): a result that waits when the sampling unit begins, of a slot of another carriage. -/

set_option Elab.async false

namespace Sys2Proof.Machine

/-- The sampling unit has worked on the live slots of the carriage at the last position. -/
def State.sampleSlots (s : State) (logits : List SlotLogits) (tree : Option Tree) : State :=
  (s.serv.reqs.filter fun r => r.phase == .slot && r.live && !r.lost && r.carriage == carAt s.depth s.turnNo s.depth).foldl
    (fun t r => t.sampleReq r logits tree) (s.setServ fun v => { v with sampledNow := true })

/-- And the tables of the next pass are written for every result there is, new or not (R219). -/
def State.sampleTurn (s : State) (logits : List SlotLogits) (tree : Option Tree) : State :=
  (s.sampleSlots logits tree).serv.pass.foldl (fun t p => t.prepareNext p) (s.sampleSlots logits tree)

/-- In a turn in which it has not worked, the sampling unit of a device that samples works. -/
theorem execTokenSampling_works {dt : Nat} {s : State} (logits : List SlotLogits) (tree : Option Tree) (hin : (s.pass dt).inTurn = true)
    (hfirst : (s.pass dt).serv.sampledNow = false) (hsamples : (s.pass dt).samples = true) :
    execTokenSampling dt logits tree s = .next ((s.pass dt).sampleTurn logits tree) :=
  congrArg Host.Outcome.next (if_neg (by simp [hin, hfirst, hsamples]))

/-- One layer group of two carriages of 16 lane slots, each slot with a page table of its own: 256 bytes of the scratchpad of logical tile
(0, 0). -/
def slotTables : KvGroup := ⟨4, 2, 1, 8, 0, (List.range 32).map fun i => (0, 256 * i), []⟩

/-- A sequence in lane slot 0 of carriage 0, with no page set yet. -/
def carriage0Req : Req := { newReq [] 3 0 0 0 with phase := .slot, live := true, sets := [[]] }

/-- The image of `fillState` with this group runs, in turn 0, so that carriage 1 is at the last position; a result of the sequence in
carriage 0 waits for the boundary, and the sampling unit has not worked. -/
def waitingResultState : State :=
  { fillState with
    img := { image := some { fillImage with depth := 1, kv := [slotTables] }, place := [(0, 0)] }
    serv := { reqs := [carriage0Req], pass := [⟨3, [7], [0], none⟩] } }

/-- The lane record of lane slot 0 of carriage 0 gets its pending mark: byte 7 of the copy that is not selected (R216, R217). -/
theorem waitingResultState_marks :
    ((waitingResultState.pass 0).sampleTurn [] none).bytes (spadKey 0 71) 1 = [2]
      ∧ (waitingResultState.pass 0).bytes (spadKey 0 71) 1 = [0] := by
  decide +kernel

/-- Refutes O56: its fourth clause lets the sampling turn change no memory but the tables of the carriage at the last position. The unit
writes the tables of the next pass for every result that waits, and no hypothesis says that none waits when it begins: one of a slot
of carriage 0 has that slot's lane record written while carriage 1 is at the last position. -/
theorem not_admissionAndSampling : ¬ Obligations.AdmissionAndSampling := by
  unfold Obligations.AdmissionAndSampling
  rintro ⟨-, -, -, hsampling, -⟩
  have hin : (waitingResultState.pass 0).inTurn = true := by decide +kernel
  have hfirst : (waitingResultState.pass 0).serv.sampledNow = false := by decide +kernel
  have hsamples : (waitingResultState.pass 0).samples = true := by decide +kernel
  have hsets : ∀ r ∈ (waitingResultState.pass 0).serv.reqs, ∀ l ∈ r.sets, l.length + 2 ≤ 2 ∧ ∀ k ∈ l, k.p < 2 := by decide +kernel
  have hwf : Memory.wf (waitingResultState.pass 0).mem = true := by decide +kernel
  obtain ⟨t, ht, -, -, -, -, hmem, -⟩ := hsampling 0 2 [] none waitingResultState _ rfl hin hfirst hsamples hsets hwf
  have hexec : exec (.tokenSampling 0 [] none) waitingResultState = .next ((waitingResultState.pass 0).sampleTurn [] none) :=
    execTokenSampling_works _ _ hin hfirst hsamples
  cases hexec.symm.trans ht
  have hsame := hmem (spadKey 0 71) (by decide +kernel)
  obtain ⟨hafter, hbefore⟩ := waitingResultState_marks
  rw [hafter, hbefore] at hsame
  exact absurd hsame (by decide)

end Sys2Proof.Machine
end

section
/-! PROOFS. Loading the staged image (R279, R370, R578): an image of no bytes, which no check refuses, and which no coach can take. -/

set_option Elab.async false

namespace Sys2Proof.Machine

/-! ### Placing the tiles of a logical coach -/

/-- No coach fits a logical coach that asks for more tiles of one class than a coach has tiles (R359). -/
theorem State.fits_false_of_crowded (s : State) {ts : List PlTile} {cls : Nat} (c : Nat) (hcls : cls < 3)
    (hmany : 144 < (ts.filter fun t => tileClass t.site == cls).length) : s.fits ts c = false := by
  refine Bool.eq_false_iff.2 fun hfit => ?_
  simp only [State.fits, Bool.and_eq_true, List.all_eq_true, List.mem_range, decide_eq_true_eq] at hfit
  have hroom := (hfit.2 cls hcls).trans (List.length_filter_le _ _)
  have hcoach : (coachTiles c).length = 144 := by simp [coachTiles]
  omega

/-- An image of one logical coach that no coach fits has no relocation (R359, R360). -/
theorem State.relocate_none_of_unfit {s : State} {i : Image} (hone : i.header.logicalCoaches = 1)
    (hfit : ∀ c, s.fits (tilesOf i 0) c = false) : s.relocate i = none := by
  have hassign : s.assign i = none := by simp [State.assign, hone, hfit, List.find?_eq_none.2]
  simp [State.relocate, hassign]

/-! ### The checks of an image, and its reload from the towers -/

/-- A check is made with the arrival of its byte, so none has failed while no byte is there. -/
theorem firstFailure_no_bytes (l : List Check) : firstFailure l 0 = none := by simp [firstFailure]

/-- An image of no bytes ends its load with OK, and where it has no relocation nothing is installed. -/
theorem State.loadWhole_of_unplaced {s : State} {i : Image} (send : Bool) (hbytes : i.header.imageBytes = 0)
    (hplace : s.relocate i = none) : s.loadWhole i send = s.endLong stOk 0 [] := by
  simp [State.loadWhole, State.install, hbytes, firstFailure_no_bytes, hplace]

/-- The end of a long command leaves the state of the image. -/
theorem State.endLong_imageState (s : State) (st d : Nat) (r : List Byte) :
    (s.endLong st d r).get HEAD_IMAGE_STATUS.state = s.get HEAD_IMAGE_STATUS.state := by
  cases hlong : s.port.long with
  | none => simp [State.endLong, hlong]
  | some c =>
    obtain ⟨-, -, -, hregs⟩ := State.endLong_effect hlong st d r
    exact hregs _ (by decide) (by decide)

/-- With the drain over, the staged image is loaded in place of the one unloaded (R279 step 3). -/
theorem execReloadComplete_loads {dt : Nat} {i : Image} {s : State} (hstaged : (s.pass dt).img.staged = some i)
    (hreload : (s.pass dt).serv.reloading = true) (hdrain : (s.pass dt).serv.drain = none) (hlong : (s.pass dt).longIs 0x102 = true) :
    execReloadComplete dt s = .next (((s.pass dt).unloadImage.setImageState 1).loadWhole i false) := by
  simp [execReloadComplete, hstaged, hreload, hdrain, hlong]

/-! ### The image that is neither refused nor installed -/

/-- An image whose header gives the file no bytes, and whose one logical coach has 145 tiles of class M. -/
def crowdedImage : Image :=
  { fillImage with header := { fillImage.header with imageBytes := 0 }, tiles := List.replicate 145 ⟨0, 0, 0⟩ }

theorem crowdedImage_relocate (s : State) : s.relocate crowdedImage = none :=
  have hmany : 144 < ((tilesOf crowdedImage 0).filter fun t => tileClass t.site == 0).length := by decide +kernel
  State.relocate_none_of_unfit rfl fun c => s.fits_false_of_crowded c (by decide) hmany

/-- A DRAIN_RELOAD whose drain is over. -/
def reloadCommand : LongCmd := ⟨0x102, 7, 0, 0, 0, 0, false, [9], false⟩

/-- It runs, and the image is staged in the towers. -/
def reloadState : State :=
  { State.reset with
    img := { staged := some crowdedImage }
    serv := { reloading := true }
    port := { long := some reloadCommand } }

/-- Refutes O50: its last clause lets every reload for which no check fails end in state 2. That an image has a relocation is a check
made at the last byte of its file (R363, R578); a header that gives the file no bytes has none made, so that the reload of such an
image ends with status 0, and where the image has no relocation it stays in state 1. -/
theorem not_loadCommands : ¬ Obligations.LoadCommands := by
  unfold Obligations.LoadCommands
  rintro ⟨-, -, -, -, -, hreload⟩
  have hstaged : (reloadState.pass 0).img.staged = some crowdedImage := by decide +kernel
  have hreloading : (reloadState.pass 0).serv.reloading = true := by decide +kernel
  have hdrain : (reloadState.pass 0).serv.drain = none := by decide +kernel
  have hlong : (reloadState.pass 0).port.long = some reloadCommand := by decide +kernel
  obtain ⟨t, ht, -, -, hstate, -⟩ := hreload 0 crowdedImage reloadCommand reloadState _ rfl hstaged hreloading hdrain hlong rfl
  have hexec : exec (.reloadComplete 0) reloadState = .next (((reloadState.pass 0).unloadImage.setImageState 1).endLong stOk 0 []) := by
    rw [← State.loadWhole_of_unplaced false rfl (crowdedImage_relocate _)]
    exact execReloadComplete_loads hstaged hreloading hdrain (by simp [State.longIs, hlong, reloadCommand])
  have hnext : _ = t := Host.Outcome.next.inj (hexec.symm.trans ht)
  have hbytes : crowdedImage.header.imageBytes = 0 := rfl
  rw [← hnext, State.endLong_imageState, (State.setImageState_effect _ 1).1, hbytes, firstFailure_no_bytes] at hstate
  exact absurd hstate (by decide)

end Sys2Proof.Machine
end

section
/-! PROOFS. Cancel records (R250, R268): what channel 2 does while the return reserve is exhausted. -/

set_option Elab.async false

namespace Sys2Proof.Machine

/-- While the reserve is exhausted a cancel record is not processed (R250). -/
theorem execCancel_waits {dt : Nat} {s : State} (b : List Byte) (hfull : 16384 ≤ (s.pass dt).reserved) :
    execCancel dt b s = .next (s.pass dt) :=
  congrArg Host.Outcome.next (if_pos (.inl hfull))

/-- 16,384 refused records wait for the host, in the whole of the reserve, and no request is queued. -/
def fullReserveState : State := { State.reset with serv := { rets := List.replicate 16384 ⟨0, 3, 2, 0, 0, 0, true⟩ } }

theorem fullReserveState_reserved : 16384 ≤ (fullReserveState.pass 0).reserved := by decide +kernel

/-- A cancel of tag 0 in ring 0 (R268). -/
def ring0Cancel : List Byte := [0, 0, 2] ++ List.replicate 13 0

/-- Refutes O55: its fourth clause counts every cancel that names nothing, with no hypothesis on the return reserve. While 16,384 records
sit in the reserve channel 2 accepts no record (R250), and nothing is counted. -/
theorem not_submitsAndCancels : ¬ Obligations.SubmitsAndCancels := by
  unfold Obligations.SubmitsAndCancels
  rintro ⟨-, -, -, hmiss, -⟩
  have hnone : (fullReserveState.pass 0).serv.reqs = [] := by decide +kernel
  obtain ⟨t, ht, hcount, -⟩ := hmiss 0 ring0Cancel fullReserveState _ rfl (by decide) (by decide) hnone
  have hexec : exec (.cancel 0 ring0Cancel) fullReserveState = .next (fullReserveState.pass 0) :=
    execCancel_waits _ fullReserveState_reserved
  cases hexec.symm.trans ht
  have hzero : (fullReserveState.pass 0).get HEAD_SERVE_STATS.cancel_miss = 0 := by decide +kernel
  rw [hzero] at hcount
  exact absurd hcount (by decide)

end Sys2Proof.Machine
end

section
/-! PROOFS. Barriers (R302 to R305): what a router does with an arrival, a member's arrive and its error, and the release. -/

set_option Elab.async false

namespace Sys2Proof.Machine

/-! ### The fields of a barrier's register -/

theorem State.get_set_bar (s : State) (n b v : Nat) {f : Fld} (hf : f.fits) : (s.set (f.bar n b) v).get (f.bar n b) = v % 2 ^ f.w :=
  State.get_set_same s _ v hf

/-- Fields of one barrier that share no bit. -/
theorem State.get_set_bar_apart (s : State) (n b v : Nat) {f g : Fld} (hg : g.fits) (ha : f.lo + f.w ≤ g.lo ∨ g.lo + g.w ≤ f.lo) :
    (s.set (f.bar n b) v).get (g.bar n b) = s.get (g.bar n b) := State.get_set_apart s v hg (.inr ha)

theorem State.get_inc_bar_apart (s : State) (n b d : Nat) {f g : Fld} (hg : g.fits) (ha : f.lo + f.w ≤ g.lo ∨ g.lo + g.w ≤ f.lo) :
    (s.inc (f.bar n b) d).get (g.bar n b) = s.get (g.bar n b) := State.get_inc_apart s d hg (.inr ha)

/-- The fields that a barrier's work at tile n may change. -/
def barrierFields (n b : Nat) : List Fld :=
  [TILE_BARRIER_b.gen.bar n b, TILE_BARRIER_b.waiting.bar n b, TILE_BARRIER_b.arrived.bar n b, TILE_BARRIER_b.releases.bar n b]

/-- Setting bits below a bound keeps a number below it. -/
theorem setBits_lt {v lo w x m : Nat} (hv : v < 2 ^ m) (hm : lo + w ≤ m) : setBits v lo w x < 2 ^ m := by
  obtain ⟨d, rfl⟩ := Nat.exists_eq_add_of_le hm
  have hlow := setBits_low_lt v lo w x
  have hhigh : v / 2 ^ (lo + w) + 1 ≤ 2 ^ d := (Nat.div_lt_iff_lt_mul (Nat.two_pow_pos _)).2 (by rwa [← Nat.pow_add, Nat.add_comm])
  calc setBits v lo w x
    _ = v / 2 ^ (lo + w) * 2 ^ (lo + w) + (x % 2 ^ w * 2 ^ lo + v % 2 ^ lo) := by rw [setBits_eq, Nat.add_assoc]
    _ < (v / 2 ^ (lo + w) + 1) * 2 ^ (lo + w) := by rw [Nat.add_one_mul]; omega
    _ ≤ 2 ^ d * 2 ^ (lo + w) := Nat.mul_le_mul_right _ hhigh
    _ = 2 ^ (lo + w + d) := by rw [← Nat.pow_add, Nat.add_comm]

/-! ### A flit of a tree on a link -/

section
variable (s : State) (m port : Nat) (p : Packet)

@[simp] theorem State.hop_regs : (s.hop m port p).regs = s.regs := rfl
@[simp] theorem State.hop_flag (f : Fld) : (s.hop m port p).flag f = s.flag f := rfl
@[simp] theorem State.hop_get (f : Fld) : (s.hop m port p).get f = s.get f := rfl
@[simp] theorem State.hop_hops : (s.hop m port p).net.hops = s.net.hops ++ [⟨m, port, p⟩] := rfl

/-- It changes the network alone. -/
theorem State.sameBut.hop {s t : State} {l : List Part} (h : s.sameBut t l) (hl : Part.net ∈ l) : s.sameBut (t.hop m port p) l :=
  h.trans (by simp [State.sameBut, State.hop, hl])
end

/-! ### An arrival at a router (R303) -/

/-- `arrived` of barrier b at tile n once an arrival from a port (4: the own tile) is noted. -/
def State.arrivedWith (s : State) (n b port : Nat) : Nat := setBits (s.get (TILE_BARRIER_b.arrived.bar n b)) port 1 1

/-- What the router waits for: its children and its own tile where that is a member. -/
def State.arrivalsNeeded (s : State) (n b : Nat) : Nat :=
  s.get (TILE_BARRIER_b.children.bar n b) + 16 * s.get (TILE_BARRIER_b.member.bar n b)

/-- The flit that the router of tile n sends for barrier b. -/
def State.barrierPacket (s : State) (n ty b : Nat) : Packet :=
  ⟨ty, 0, 0, endpoint n, b, 0, s.get (TILE_BARRIER_b.gen.bar n b), 0, 0, 0, 0, []⟩

/-- The arrival is noted. -/
def State.noteArrival (s : State) (n b port : Nat) : State := s.set (TILE_BARRIER_b.arrived.bar n b) (s.arrivedWith n b port)

/-- While others are to come, a router does no more. -/
theorem State.barrierCheck_waits {s : State} {n b : Nat} (h : s.get (TILE_BARRIER_b.arrived.bar n b) ≠ s.arrivalsNeeded n b) :
    s.barrierCheck n b = s := if_neg h

/-- When all have come, a router below another sends its own arrive up. -/
theorem State.barrierCheck_sends {s : State} {n b m : Nat} (h : s.get (TILE_BARRIER_b.arrived.bar n b) = s.arrivalsNeeded n b)
    (hparent : s.get (TILE_BARRIER_b.parent.bar n b) < 4) (hm : neighbour n (s.get (TILE_BARRIER_b.parent.bar n b)) = some m) :
    s.barrierCheck n b = s.hop m ((s.get (TILE_BARRIER_b.parent.bar n b) + 2) % 4) (s.barrierPacket n 7 b) := by
  have hflit : s.barrierFlit n (s.get (TILE_BARRIER_b.parent.bar n b)) 7 b =
      s.hop m ((s.get (TILE_BARRIER_b.parent.bar n b) + 2) % 4) (s.barrierPacket n 7 b) := by
    rw [State.barrierFlit, hm, State.barrierPacket]
  exact (if_pos h).trans ((if_pos hparent).trans hflit)

section
variable (s : State) (n b : Nat) {port : Nat}

theorem State.arrived_eq : s.arrived n b port = (s.noteArrival n b port).barrierCheck n b := rfl

theorem State.noteArrival_arrived (hport : port < 5) :
    (s.noteArrival n b port).get (TILE_BARRIER_b.arrived.bar n b) = s.arrivedWith n b port :=
  (State.get_set_bar s n b _ (by decide)).trans (Nat.mod_eq_of_lt (setBits_lt (s.get_lt _) hport))

/-- The other fields stand. -/
theorem State.noteArrival_get {g : Fld} (hg : g.fits) (ha : 53 ≤ g.lo ∨ g.lo + g.w ≤ 48) :
    (s.noteArrival n b port).get (g.bar n b) = s.get (g.bar n b) := State.get_set_bar_apart s n b _ hg ha

theorem State.noteArrival_needed : (s.noteArrival n b port).arrivalsNeeded n b = s.arrivalsNeeded n b := by
  rw [State.arrivalsNeeded, s.noteArrival_get n b (by decide) (by decide), s.noteArrival_get n b (by decide) (by decide),
    State.arrivalsNeeded]

theorem State.noteArrival_sameBut : s.sameBut (s.noteArrival n b port) [.regs] := (State.sameBut.refl s _).set _ _ (by simp)

theorem State.noteArrival_regsBut : s.regsBut (s.noteArrival n b port) (barrierFields n b) :=
  (State.regsBut.refl s _).set _ (by simp [barrierFields])
end

section
variable {s : State} {n b port : Nat} (hport : port < 5)
include hport

theorem State.arrived_waits (h : s.arrivedWith n b port ≠ s.arrivalsNeeded n b) : s.arrived n b port = s.noteArrival n b port := by
  rw [State.arrived_eq]
  exact State.barrierCheck_waits (by rwa [s.noteArrival_arrived n b hport, s.noteArrival_needed])

theorem State.arrived_sends {m : Nat} (h : s.arrivedWith n b port = s.arrivalsNeeded n b)
    (hparent : s.get (TILE_BARRIER_b.parent.bar n b) < 4) (hm : neighbour n (s.get (TILE_BARRIER_b.parent.bar n b)) = some m) :
    s.arrived n b port =
      (s.noteArrival n b port).hop m ((s.get (TILE_BARRIER_b.parent.bar n b) + 2) % 4) (s.barrierPacket n 7 b) := by
  have hup := s.noteArrival_get n b (port := port) (show TILE_BARRIER_b.parent.fits by decide) (by decide)
  have hgen := s.noteArrival_get n b (port := port) (show TILE_BARRIER_b.gen.fits by decide) (by decide)
  rw [← hup] at hparent hm
  have hsends := State.barrierCheck_sends (by rwa [s.noteArrival_arrived n b hport, s.noteArrival_needed]) hparent hm
  rwa [State.barrierPacket, hgen, hup, ← State.arrived_eq] at hsends
end

/-! ### A member tile arrives (R303, R305) -/

/-- The member waits. -/
def State.memberWaits (s : State) (n b : Nat) : State := s.set (TILE_BARRIER_b.waiting.bar n b) 1

/-- And its arrival is noted. -/
def State.memberArrives (s : State) (n b : Nat) : State := (s.memberWaits n b).noteArrival n b 4

section
variable (s : State) (n b : Nat)

/-- The other fields stand. -/
theorem State.memberWaits_get {g : Fld} (hg : g.fits) (ha : 54 ≤ g.lo ∨ g.lo + g.w ≤ 53) :
    (s.memberWaits n b).get (g.bar n b) = s.get (g.bar n b) := State.get_set_bar_apart s n b _ hg ha

theorem State.memberWaits_arrivedWith (port : Nat) : (s.memberWaits n b).arrivedWith n b port = s.arrivedWith n b port := by
  rw [State.arrivedWith, s.memberWaits_get n b (by decide) (by decide), State.arrivedWith]

theorem State.memberWaits_needed : (s.memberWaits n b).arrivalsNeeded n b = s.arrivalsNeeded n b := by
  rw [State.arrivalsNeeded, s.memberWaits_get n b (by decide) (by decide), s.memberWaits_get n b (by decide) (by decide),
    State.arrivalsNeeded]

theorem State.memberArrives_waiting : (s.memberArrives n b).flag (TILE_BARRIER_b.waiting.bar n b) = true := by
  simp (disch := decide) only [State.flag, State.memberArrives, State.noteArrival_get, State.memberWaits, State.get_set_bar]
  decide

theorem State.memberArrives_arrived : (s.memberArrives n b).get (TILE_BARRIER_b.arrived.bar n b) = s.arrivedWith n b 4 := by
  rw [State.memberArrives, State.noteArrival_arrived _ _ _ (by decide), State.memberWaits_arrivedWith]

theorem State.memberArrives_sameBut : s.sameBut (s.memberArrives n b) [.regs] :=
  ((State.sameBut.refl s _).set _ _ (by simp)).trans (State.noteArrival_sameBut _ n b)

theorem State.memberArrives_regsBut : s.regsBut (s.memberArrives n b) (barrierFields n b) :=
  ((State.regsBut.refl s _).set (f := TILE_BARRIER_b.waiting.bar n b) 1 (by simp [barrierFields])).trans (State.noteArrival_regsBut _ n b)
end

section
variable {s : State} {n b : Nat} (hvalid : s.flag (TILE_BARRIER_b.valid.bar n b) = true)
  (hmember : s.flag (TILE_BARRIER_b.member.bar n b) = true)
include hvalid hmember

/-- A second arrive is an error. -/
theorem State.barrierArrive_again (hwaiting : s.flag (TILE_BARRIER_b.waiting.bar n b) = true) :
    s.barrierArrive n b = (s.inc (TILE_NET_ERR.barrier_errors.tile n)).raise 86 n b 0 := by
  rw [State.barrierArrive, hvalid, hmember, hwaiting]
  rfl

variable (hwaiting : s.flag (TILE_BARRIER_b.waiting.bar n b) = false)
include hwaiting

theorem State.barrierArrive_arrives : s.barrierArrive n b = (s.memberWaits n b).arrived n b 4 := by
  rw [State.barrierArrive, hvalid, hmember, hwaiting]
  rfl

theorem State.barrierArrive_waits (h : s.arrivedWith n b 4 ≠ s.arrivalsNeeded n b) : s.barrierArrive n b = s.memberArrives n b := by
  rw [State.barrierArrive_arrives hvalid hmember hwaiting]
  exact State.arrived_waits (by decide) (by rwa [s.memberWaits_arrivedWith, s.memberWaits_needed])

theorem State.barrierArrive_sends {m : Nat} (h : s.arrivedWith n b 4 = s.arrivalsNeeded n b)
    (hparent : s.get (TILE_BARRIER_b.parent.bar n b) < 4) (hm : neighbour n (s.get (TILE_BARRIER_b.parent.bar n b)) = some m) :
    s.barrierArrive n b =
      (s.memberArrives n b).hop m ((s.get (TILE_BARRIER_b.parent.bar n b) + 2) % 4) (s.barrierPacket n 7 b) := by
  have hup := s.memberWaits_get n b (show TILE_BARRIER_b.parent.fits by decide) (by decide)
  have hgen := s.memberWaits_get n b (show TILE_BARRIER_b.gen.fits by decide) (by decide)
  rw [← hup] at hparent hm
  have hsends := State.arrived_sends (port := 4) (by decide) (by rwa [s.memberWaits_arrivedWith, s.memberWaits_needed]) hparent hm
  rw [State.barrierPacket, hgen, hup] at hsends
  exact (State.barrierArrive_arrives hvalid hmember hwaiting).trans hsends
end

section
variable (s : State) (n b : Nat)

/-- An error of a barrier is counted and reported. -/
def State.barrierError : State := (s.inc (TILE_NET_ERR.barrier_errors.tile n)).raise 86 n b 0

theorem State.barrierError_count : (s.barrierError n b).get (TILE_NET_ERR.barrier_errors.tile n) =
    min (2 ^ TILE_NET_ERR.barrier_errors.w - 1) (s.get (TILE_NET_ERR.barrier_errors.tile n) + 1) :=
  State.get_inc_same s (TILE_NET_ERR.barrier_errors.tile n) 1 (show TILE_NET_ERR.barrier_errors.fits by decide)

theorem State.barrierError_sameBut : s.sameBut (s.barrierError n b) [.regs, .ev] := by simp [State.sameBut, State.barrierError]

theorem State.barrierError_regsBut : s.regsBut (s.barrierError n b) [TILE_NET_ERR.barrier_errors.tile n] :=
  ((State.regsBut.refl s _).inc 1 (by simp)).of_regs (u := s.barrierError n b) rfl

/-- The state of the barrier stands. -/
theorem State.barrierError_get {c : Nat} {g : Fld} (hg : g.fits) (hkey : g.key = TILE_BARRIER_b.valid.key) :
    (s.barrierError n b).get (g.bar n c) = s.get (g.bar n c) := by
  refine s.barrierError_regsBut n b _ hg fun f hf => .inl ?_
  rw [List.mem_singleton.1 hf]
  simp only [Fld.bar, Fld.off, Fld.tile, hkey, TILE_BARRIER_b.valid, TILE_NET_ERR.barrier_errors]
  omega
end

/-! ### Flits of a barrier (R303) -/

/-- A flit is taken off its link. -/
def State.withoutHop (s : State) (h : Hop) : State := { s with net := { s.net with hops := s.net.hops.erase h } }

section
variable (s : State) (h : Hop)

theorem State.withoutHop_sameBut : s.sameBut (s.withoutHop h) [.regs, .net] := by simp [State.sameBut, State.withoutHop]

@[simp] theorem State.withoutHop_get (f : Fld) : (s.withoutHop h).get f = s.get f := rfl
@[simp] theorem State.withoutHop_flag (f : Fld) : (s.withoutHop h).flag f = s.flag f := rfl

theorem State.withoutHop_regsBut (l : List Fld) : s.regsBut (s.withoutHop h) l := State.regsBut_of_regs rfl l

@[simp] theorem State.withoutHop_arrivedWith (n b port : Nat) : (s.withoutHop h).arrivedWith n b port = s.arrivedWith n b port := rfl
@[simp] theorem State.withoutHop_needed (n b : Nat) : (s.withoutHop h).arrivalsNeeded n b = s.arrivalsNeeded n b := rfl
@[simp] theorem State.withoutHop_packet (n ty b : Nat) : (s.withoutHop h).barrierPacket n ty b = s.barrierPacket n ty b := rfl
end

theorem State.takeHop_found {s : State} {n port ty num : Nat} {h : Hop}
    (hfind : (s.net.hops.find? fun (h : Hop) => h.tile == n && h.port == port && h.pkt.ty == ty && h.pkt.dst == num) = some h) :
    s.takeHop n port ty num = some (h.pkt, s.withoutHop h) := by
  rw [State.takeHop, hfind]
  rfl

section
variable {dt n port b : Nat} {h : Hop} {s : State}

/-- A router takes an arrive flit of the present generation from a child. -/
theorem execBarrierArriveFlit_arrives
    (hfind : ((s.pass dt).net.hops.find? fun (h : Hop) => h.tile == n && h.port == port && h.pkt.ty == 7 && h.pkt.dst == b) = some h)
    (hvalid : (s.pass dt).flag (TILE_BARRIER_b.valid.bar n b) = true) (hgen : h.pkt.tag = (s.pass dt).get (TILE_BARRIER_b.gen.bar n b))
    (hchild : ((s.pass dt).get (TILE_BARRIER_b.children.bar n b)).testBit port = true) :
    exec (.barrierArriveFlit dt n port b) s = .next (((s.pass dt).withoutHop h).arrived n b port) := by
  simp only [exec, execBarrierArriveFlit, State.takeHop_found hfind]
  rw [if_pos ⟨hvalid, hgen, hchild⟩]

/-- A router takes the release from its parent. -/
theorem execBarrierReleaseFlit_releases
    (hfind : ((s.pass dt).net.hops.find? fun (h : Hop) => h.tile == n && h.port == port && h.pkt.ty == 8 && h.pkt.dst == b) = some h)
    (hvalid : (s.pass dt).flag (TILE_BARRIER_b.valid.bar n b) = true) (hparent : (s.pass dt).get (TILE_BARRIER_b.parent.bar n b) = port) :
    exec (.barrierReleaseFlit dt n port b) s = .next (((s.pass dt).withoutHop h).release n b) := by
  simp only [exec, execBarrierReleaseFlit, State.takeHop_found hfind]
  rw [if_pos ⟨hvalid, hparent⟩]
end

/-- What the arrival of a flit leaves, noted. -/
theorem State.flitArrival_effect (s : State) (n b : Nat) {port : Nat} (h : Hop) (hport : port < 5) :
    let t := (s.withoutHop h).noteArrival n b port
    t.get (TILE_BARRIER_b.arrived.bar n b) = s.arrivedWith n b port ∧ t.net.hops = s.net.hops.erase h ∧ s.sameBut t [.regs, .net]
      ∧ s.regsBut t (barrierFields n b) :=
  ⟨State.noteArrival_arrived _ n b hport, rfl, (s.withoutHop_sameBut h).trans ((State.noteArrival_sameBut _ n b).mono (by decide)),
    (s.withoutHop_regsBut h _).trans (State.noteArrival_regsBut _ n b)⟩

section
variable {s : State} {n b port : Nat} (h : Hop) (hport : port < 5)
include hport

theorem State.flitArrival_waits (hmore : s.arrivedWith n b port ≠ s.arrivalsNeeded n b) :
    (s.withoutHop h).arrived n b port = (s.withoutHop h).noteArrival n b port :=
  State.arrived_waits hport (by simpa using hmore)

theorem State.flitArrival_sends {m : Nat} (hlast : s.arrivedWith n b port = s.arrivalsNeeded n b)
    (hparent : s.get (TILE_BARRIER_b.parent.bar n b) < 4) (hm : neighbour n (s.get (TILE_BARRIER_b.parent.bar n b)) = some m) :
    (s.withoutHop h).arrived n b port = ((s.withoutHop h).noteArrival n b port).hop m
      ((s.get (TILE_BARRIER_b.parent.bar n b) + 2) % 4) (s.barrierPacket n 7 b) := by
  simpa using State.arrived_sends (s := s.withoutHop h) hport (by simpa using hlast) (by simpa using hparent) (by simpa using hm)
end

/-! ### The release (R303) -/

/-- The state with other traffic in the network. -/
def State.withNet (s : State) (net : NetB) : State := { s with net := net }

/-- A flit of a barrier changes only the network. -/
theorem State.barrierFlit_parts (s : State) (n q ty b : Nat) : ∃ net, s.barrierFlit n q ty b = s.withNet net := by
  unfold State.barrierFlit
  split
  · exact ⟨s.net, rfl⟩
  · exact ⟨_, rfl⟩

/-- And so do those to the children. -/
theorem State.foldl_barrierFlit_parts (kids n ty b : Nat) (qs : List Nat) (s : State) :
    ∃ net, qs.foldl (fun t q => if kids.testBit q then t.barrierFlit n q ty b else t) s = s.withNet net := by
  induction qs generalizing s with
  | nil => exact ⟨s.net, rfl⟩
  | cons q qs ih =>
    rw [List.foldl_cons]
    split
    · obtain ⟨net, hone⟩ := s.barrierFlit_parts n q ty b
      rw [hone]
      exact ih (s.withNet net)
    · exact ih s

/-- The register of a released barrier at a member tile: `gen` flips, nothing has arrived, nobody waits, one release more. -/
def State.memberReleased (s : State) (n b : Nat) : State :=
  (((s.set (TILE_BARRIER_b.gen.bar n b) (1 - s.get (TILE_BARRIER_b.gen.bar n b))).set (TILE_BARRIER_b.arrived.bar n b) 0).set
    (TILE_BARRIER_b.waiting.bar n b) 0).inc (TILE_BARRIER_b.releases.bar n b)

theorem State.release_member {s : State} {n b : Nat} (h : s.flag (TILE_BARRIER_b.member.bar n b) = true) :
    ∃ net, s.release n b = (s.withNet net).memberReleased n b := by
  obtain ⟨net, hflits⟩ := s.foldl_barrierFlit_parts (s.get (TILE_BARRIER_b.children.bar n b)) n 8 b (List.range 4)
  refine ⟨net, ?_⟩
  have hgen : (s.withNet net).get (TILE_BARRIER_b.gen.bar n b) = s.get (TILE_BARRIER_b.gen.bar n b) := State.get_congr rfl _
  simp only [State.release, hflits, h, if_true, State.memberReleased, hgen]

section
variable (s : State) (n b : Nat)

theorem State.memberReleased_gen :
    (s.memberReleased n b).get (TILE_BARRIER_b.gen.bar n b) = 1 - s.get (TILE_BARRIER_b.gen.bar n b) := by
  simp (disch := decide) only [State.memberReleased, State.get_inc_bar_apart, State.get_set_bar_apart, State.get_set_bar]
  exact Nat.mod_eq_of_lt (Nat.lt_succ_of_le (Nat.sub_le _ _))

theorem State.memberReleased_arrived : (s.memberReleased n b).get (TILE_BARRIER_b.arrived.bar n b) = 0 := by
  simp (disch := decide) only [State.memberReleased, State.get_inc_bar_apart, State.get_set_bar_apart, State.get_set_bar, Nat.zero_mod]

theorem State.memberReleased_waiting : (s.memberReleased n b).flag (TILE_BARRIER_b.waiting.bar n b) = false := by
  simp (disch := decide) only [State.flag, State.memberReleased, State.get_inc_bar_apart, State.get_set_bar, Nat.zero_mod]
  decide

theorem State.memberReleased_releases :
    (s.memberReleased n b).get (TILE_BARRIER_b.releases.bar n b) = min 65535 (s.get (TILE_BARRIER_b.releases.bar n b) + 1) := by
  rw [State.memberReleased, State.get_inc_same _ (TILE_BARRIER_b.releases.bar n b) _ (show TILE_BARRIER_b.releases.fits by decide)]
  simp (disch := decide) only [State.get_set_bar_apart]
  rfl

theorem State.memberReleased_sameBut : s.sameBut (s.memberReleased n b) [.regs, .net] :=
  ((((State.sameBut.refl s _).set _ _ (by simp)).set _ _ (by simp)).set _ _ (by simp)).set _ _ (by simp)

theorem State.memberReleased_regsBut : s.regsBut (s.memberReleased n b) (barrierFields n b) :=
  ((((State.regsBut.refl s _).set _ (by simp [barrierFields])).set _ (by simp [barrierFields])).set _ (by simp [barrierFields])).inc 1
    (by simp [barrierFields])
end

/-- What a release leaves at a member tile. -/
theorem State.release_effect {s : State} {n b : Nat} (h : s.flag (TILE_BARRIER_b.member.bar n b) = true) :
    (s.release n b).get (TILE_BARRIER_b.gen.bar n b) = 1 - s.get (TILE_BARRIER_b.gen.bar n b)
      ∧ (s.release n b).get (TILE_BARRIER_b.arrived.bar n b) = 0 ∧ (s.release n b).flag (TILE_BARRIER_b.waiting.bar n b) = false
      ∧ (s.release n b).get (TILE_BARRIER_b.releases.bar n b) = min 65535 (s.get (TILE_BARRIER_b.releases.bar n b) + 1)
      ∧ s.sameBut (s.release n b) [.regs, .net] ∧ s.regsBut (s.release n b) (barrierFields n b) := by
  obtain ⟨net, hrelease⟩ := State.release_member h
  have hnet : s.sameBut (s.withNet net) [.regs, .net] := by simp [State.sameBut, State.withNet]
  rw [hrelease]
  exact ⟨State.memberReleased_gen _ n b, State.memberReleased_arrived _ n b, State.memberReleased_waiting _ n b,
    State.memberReleased_releases _ n b, hnet.trans (State.memberReleased_sameBut _ n b),
    (State.regsBut_of_regs rfl _).trans (State.memberReleased_regsBut _ n b)⟩

/-! ### The statements -/

/-- An action of kind 3 that is due is an arrive at the barrier that it names (R365). -/
theorem execActionBarrierArrive_due {dt n i : Nat} {a : SchedAction} {s : State} (hact : (s.pass dt).action n i = some a)
    (hclock : (s.pass dt).clockAtOffset a.offset = true) (hnext : i = (s.pass dt).issuedBy n) (hkind : a.kind = 3)
    (hstate : (s.pass dt).get (TILE_STATE.state.tile n) ≠ 0) (htile : (s.pass dt).tileClock n = true) :
    exec (.actionBarrierArrive dt n i) s = .next (((s.pass dt).issued n a).barrierArrive n (a.chan % 64)) :=
  congrArg Host.Outcome.next (State.issue_due _ hact hclock hnext hkind hstate htile)

/-- Settles O5: a second arrive is `State.barrierError`, whose count lies in another register than the barrier. -/
theorem secondArrival : Obligations.SecondArrival := by
  unfold Obligations.SecondArrival
  rintro dt n i a s _ u rfl hu hact hclock hnext hkind hstate htile hvalid hmember hwaiting -
  have hexec := execActionBarrierArrive_due hact hclock hnext hkind hstate htile
  rw [← hu, State.barrierArrive_again hvalid hmember hwaiting] at hexec
  have hchan : a.chan % 64 % 2 ^ 64 = a.chan % 64 := by omega
  have hstands := u.barrierError_get n (a.chan % 64) (c := a.chan % 64) (show TILE_BARRIER_b.waiting.fits by decide) rfl
  refine ⟨u.barrierError n (a.chan % 64), hexec, u.barrierError_get n _ (by decide) rfl, ?_, u.barrierError_count n _, ?_,
    u.barrierError_sameBut n _, u.barrierError_regsBut n _⟩
  · rw [State.flag, hstands]
    exact hwaiting
  · rw [State.barrierError, State.raise_lastEvent, hchan, Nat.zero_mod]

/-- Settles O17: an arrival is noted, and sent on where it was the last one that the router waits for; a release rewrites the register of
a member's barrier and sends flits. -/
theorem barriers : Obligations.Barriers := by
  unfold Obligations.Barriers
  refine ⟨?_, ?_, ?_, ?_, ?_⟩
  · rintro dt n i a s _ u rfl hu hact hclock hnext hkind hstate htile hvalid hmember hwaiting hmore
    have hexec := execActionBarrierArrive_due hact hclock hnext hkind hstate htile
    rw [← hu, State.barrierArrive_waits hvalid hmember hwaiting hmore] at hexec
    exact ⟨_, hexec, u.memberArrives_waiting n _, u.memberArrives_arrived n _, u.memberArrives_sameBut n _, u.memberArrives_regsBut n _⟩
  · rintro dt n i m a s _ u rfl hu hact hclock hnext hkind hstate htile hvalid hmember hwaiting hlast hparent hm
    have hexec := execActionBarrierArrive_due hact hclock hnext hkind hstate htile
    rw [← hu, State.barrierArrive_sends hvalid hmember hwaiting hlast hparent hm] at hexec
    exact ⟨_, hexec, (State.hop_flag ..).trans (u.memberArrives_waiting n _), rfl,
      ((u.memberArrives_sameBut n _).mono (by decide)).hop _ _ _ (by decide), (u.memberArrives_regsBut n _).of_regs (State.hop_regs ..)⟩
  · rintro dt n port b h s _ rfl hfind - - hport hvalid hgen hchild hmore
    obtain ⟨harrived, hhops, hsame, hregs⟩ := (s.pass dt).flitArrival_effect n b h (port := port) (by omega)
    have hexec := execBarrierArriveFlit_arrives hfind hvalid hgen hchild
    rw [State.flitArrival_waits h (by omega) hmore] at hexec
    exact ⟨_, hexec, harrived, hhops, State.mem_of_sameBut hsame (by decide), hsame, hregs⟩
  · rintro dt n port b m h s _ rfl hfind - - hport hvalid hgen hchild hlast hparent hm
    obtain ⟨harrived, hhops, hsame, hregs⟩ := (s.pass dt).flitArrival_effect n b h (port := port) (by omega)
    have hexec := execBarrierArriveFlit_arrives hfind hvalid hgen hchild
    rw [State.flitArrival_sends h (by omega) hlast hparent hm] at hexec
    have hframe := hsame.hop m (((s.pass dt).get (TILE_BARRIER_b.parent.bar n b) + 2) % 4) ((s.pass dt).barrierPacket n 7 b) (by decide)
    refine ⟨_, hexec, (State.hop_get ..).trans harrived, ?_, State.mem_of_sameBut hframe (by decide), hframe,
      hregs.of_regs (State.hop_regs ..)⟩
    rw [State.hop_hops, hhops, State.barrierPacket]
  · rintro dt n port b h s _ rfl hfind - - hvalid hparent hmember
    have hexec := execBarrierReleaseFlit_releases hfind hvalid hparent
    obtain ⟨hgen, harrived, hwaiting, hreleases, hsame, hregs⟩ :=
      State.release_effect (s := (s.pass dt).withoutHop h) (((s.pass dt).withoutHop_flag h _).trans hmember)
    rw [State.withoutHop_get] at hgen hreleases
    have hframe := ((s.pass dt).withoutHop_sameBut h).trans hsame
    exact ⟨_, hexec, hgen, harrived, hwaiting, hreleases, State.mem_of_sameBut hframe (by decide), hframe,
      ((s.pass dt).withoutHop_regsBut h _).trans hregs⟩

end Sys2Proof.Machine
end

section
/-! PROOFS. Carts (R125, R287, R438): a management read over the network that meets an uncorrectable scratchpad word. -/

set_option Elab.async false

namespace Sys2Proof.Machine

/-- The answer to a management read of an address is on its way (R287). -/
def State.answerRead (s : State) (p : Packet) (a : Nat) : State :=
  (s.mgmtRead a).2.2.send ⟨10, p.vc, s.yxBit p.dst p.src, p.dst, p.src, 0, p.tag, 1, 0, p.offset,
    if (s.mgmtRead a).1 == stOk then 0 else 1, word8 (s.mgmtRead a).2.1⟩

/-- An answer on its way leaves the image. -/
theorem State.answerRead_img (s : State) (p : Packet) (a : Nat) : (s.answerRead p a).img = (s.mgmtRead a).2.2.img := rfl

/-- A management request of length 0 reads the register or word that it names, and is answered (R286, R287). -/
theorem execManagementRequest_reads {dt a : Nat} {p : Packet} {s u : State} (htake : (s.pass dt).take p = some u)
    (hbad : badPacket p = false) (hty : p.ty = 9) (haddr : rawAddr p.dst 0 p.offset = some a) (hlen : p.len = 0) :
    exec (.managementRequest dt p) s = .next (u.answerRead p a) := by
  simp [exec, execManagementRequest, State.receive, State.answerRead, htake, hbad, hty, haddr, hlen]

/-- A request of the head to read the first word of tile 0's scratchpad. -/
def spadReadPacket : Packet := ⟨9, 0, 0, headEp, endpoint 0, 0, 0, 0, 0, 0x8000000, 0, []⟩

/-- It is on its way; the image of `fillState` is in its first turn, which has been rerun four times, and two data bits of the word have
flipped. -/
def flippedReadState : State :=
  { fillState.set HEAD_REPAIR_STATUS.reruns 4 with
    flips := [(spadKey 0 0, 3)]
    net := { fly := [spadReadPacket] } }

theorem spadReadPacket_taken : ((flippedReadState.pass 0).take spadReadPacket).isSome = true := by decide +kernel

/-- The state in which the request has arrived. -/
def flippedReadArrived : State := ((flippedReadState.pass 0).take spadReadPacket).get spadReadPacket_taken

/-- The word cannot be corrected, and `State.mgmtRead` reads it as a port does, which voids the turn (R125; log entry 35 would have it void
nothing). The turn has no rerun point left, so the image stops (R422, R437), and its placement becomes the one before (R356). -/
theorem flippedReadArrived_stops :
    (flippedReadArrived.mgmtRead (tileBase 0 + 0x8000000)).2.2.img.before = [(0, 0)] ∧ (flippedReadState.pass 0).img.before = [] := by
  decide +kernel

/-- Refutes O20: its eighth clause lets a management read change no part of the state but registers, turn, events, strongbox, tiles, network
and repair. A read of an uncorrectable scratchpad word, in a turn that has had its four reruns, stops the image, which changes what the
state holds of the image too. -/
theorem not_carts : ¬ Obligations.Carts := by
  unfold Obligations.Carts
  rintro ⟨-, -, -, -, -, -, -, hread, -⟩
  have htake : (flippedReadState.pass 0).take spadReadPacket = some flippedReadArrived := (Option.some_get spadReadPacket_taken).symm
  have haddr : rawAddr spadReadPacket.dst 0 spadReadPacket.offset = some (tileBase 0 + 0x8000000) := by decide
  obtain ⟨t, ht, -, -, -, hsame⟩ := hread 0 spadReadPacket flippedReadArrived _ flippedReadState _ rfl htake (by decide) rfl haddr rfl
  cases (execManagementRequest_reads htake (by decide) rfl haddr rfl).symm.trans ht
  have himg : (flippedReadArrived.answerRead spadReadPacket _).img = (flippedReadState.pass 0).img :=
    State.sameBut_iff.1 hsame .img (by decide)
  obtain ⟨hafter, hbefore⟩ := flippedReadArrived_stops
  rw [← State.answerRead_img _ spadReadPacket, himg, hbefore] at hafter
  exact absurd hafter (by decide)

end Sys2Proof.Machine
end

section
/-! PROOFS. Transactions of a coupling (R326, R328, R337): what one that is handled frees in its receive buffer. -/

set_option Elab.async false

namespace Sys2Proof.Machine

/-- A well-formed transaction of type `ty` on a coupling that is up, for this member or of a tree, frees its flits and is handled (R337). -/
theorem State.txIn_handled {s : State} {k ty : Nat} {x : Tx} (f : State → State) (hk : k < 24) (hup : s.up k = true)
    (hallowed : txAllowed x = true) (hzero : x.reservedZero = true) (hflags : x.flags < 4) (hpush : x.push < 16) (hty : x.ty = ty)
    (hmember : x.dstMember = s.member ∨ x.ty = 2) : s.txIn k ty x f = f (s.freeFlits k x) := by
  have hown : (k == ownLink) = false := beq_false_of_ne (Nat.ne_of_lt hk)
  have hgood : ¬(4 ≤ x.flags ∨ 16 ≤ x.push) := by omega
  subst hty
  rcases hmember with hhere | htree
  · simp [State.txIn, hown, hup, hallowed, hzero, hgood, hhere]
  · simp [State.txIn, hown, hup, hallowed, hzero, hgood, htree]

/-- Freeing flits leaves the image. -/
theorem State.freeFlits_img (s : State) (k : Nat) (x : Tx) : (s.freeFlits k x).img = s.img := by
  unfold State.freeFlits
  split <;> rfl

/-- A multicast write without an image frees its flits, and no more. -/
theorem execMulticastWriteTx_frees {dt k : Nat} {x : Tx} {s : State} (hk : k < 24) (hup : (s.pass dt).up k = true)
    (hallowed : txAllowed x = true) (hzero : x.reservedZero = true) (hflags : x.flags < 4) (hpush : x.push < 16) (hty : x.ty = 2)
    (himg : (s.pass dt).img.image = none) : execMulticastWriteTx dt k x s = .next ((s.pass dt).freeFlits k x) := by
  have hnone : ((s.pass dt).freeFlits k x).img.image = none := by rw [State.freeFlits_img, himg]
  rw [execMulticastWriteTx, State.txIn_handled _ hk hup hallowed hzero hflags hpush hty (.inr hty)]
  simp [State.group, hnone]

/-- An empty multicast write on virtual channel 1. -/
def emptyMulticast : Tx := ⟨2, 1, 0, 0, 0, 0, 0, 0, 0, 0, 0, 0, 0, 0, 0, 0, 0, true, []⟩

/-- Its one flit, as the peer sends it (R325). -/
def emptyMulticastFlits : List LinkFlit := (txPayloads emptyMulticast).map (linkFlit 0 1 1 1)

/-- Coupling 0 is up, no image is loaded, and the transaction has arrived whole in the receive buffer. -/
def receivedTxState : State :=
  { State.reset.set (CPL_STATUS.state.cpl 0) 2 with cpl := { links := [(0, { inbox := [emptyMulticastFlits] })] } }

/-- The flit's place in the buffer is credited to the peer (R326, R328). -/
theorem receivedTxState_frees :
    (((receivedTxState.pass 0).freeFlits 0 emptyMulticast).link 0).freed = [(1, 1)] ∧ ((receivedTxState.pass 0).link 0).freed = [] := by
  decide +kernel

/-- Refutes O30: its second clause says that a multicast write without an image changes no part of the state. The flits that carried it
leave the coupling's receive buffer, and their credit goes back. -/
theorem not_couplingTransactions : ¬ Obligations.CouplingTransactions := by
  unfold Obligations.CouplingTransactions
  rintro ⟨-, hmulticast, -⟩
  have hup : (receivedTxState.pass 0).up 0 = true := by decide +kernel
  have himg : (receivedTxState.pass 0).img.image = none := by decide +kernel
  obtain ⟨t, ht, -, -, -, hsame⟩ :=
    hmulticast 0 0 emptyMulticast receivedTxState _ rfl (by decide) hup (by decide) rfl (by decide) (by decide) rfl himg
  have hexec : exec (.multicastWriteTx 0 0 emptyMulticast) receivedTxState = .next ((receivedTxState.pass 0).freeFlits 0 emptyMulticast) :=
    execMulticastWriteTx_frees (by decide) hup (by decide) rfl (by decide) (by decide) rfl himg
  cases hexec.symm.trans ht
  have hcpl : ((receivedTxState.pass 0).freeFlits 0 emptyMulticast).cpl = (receivedTxState.pass 0).cpl :=
    State.sameBut_iff.1 hsame .cpl (by decide)
  obtain ⟨hafter, hbefore⟩ := receivedTxState_frees
  rw [State.link, hcpl] at hafter
  exact absurd (hafter.symm.trans hbefore) (by decide)

end Sys2Proof.Machine
end

section
/-! PROOFS. Training of a coupling (R322, R324): what it does to the spare lane. -/

set_option Elab.async false

namespace Sys2Proof.Machine

/-- Coupling k when its training ends: the lanes that passed, no spare in use, no mirror, and nothing held. -/
def State.trainedLanes (s : State) (k good : Nat) : State :=
  (((((s.set (CPL_LANES.spare_used.cpl k) 0).set (CPL_LANES.spared_lane.cpl k) 0).set (CPL_LANES.mirror.cpl k) 0).set
    (CPL_LANES.mirroring.cpl k) 0).set (CPL_LANES.good.cpl k) good).setLink k {}

/-- Coupling k comes up with the peer's numbers. -/
def State.trainedUp (s : State) (k good pc pm : Nat) : State :=
  (((s.trainedLanes k good).set (CPL_STATUS.state.cpl k) 2).set (CPL_STATUS.peer_cpl.cpl k) pc).set (CPL_STATUS.peer_member.cpl k) pm

/-- Training with 16 good lanes or more brings a coupling up; without an image it sends no member number (R323). -/
theorem execCouplingTrainingEnd_up {dt k good pc pm : Nat} {s : State} (hstate : (s.pass dt).get (CPL_STATUS.state.cpl k) = 1)
    (hgood : 16 ≤ popcount 17 good) (himg : (s.pass dt).img.image = none) (hlong : (s.pass dt).port.long = none) :
    exec (.couplingTrainingEnd dt k good pc pm) s = .next ((s.pass dt).trainedUp k good pc pm) := by
  have hdone : ((s.pass dt).trainedUp k good pc pm).trainDone = (s.pass dt).trainedUp k good pc pm := by
    rw [State.trainDone, show ((s.pass dt).trainedUp k good pc pm).port.long = none from hlong]
  simp only [exec, execCouplingTrainingEnd, hstate, himg, hgood, ne_eq, not_true_eq_false, if_false, if_true, Option.isSome_none,
    Bool.false_eq_true]
  exact congrArg Host.Outcome.next hdone

/-- Fields of one coupling's registers that share no bit. -/
theorem State.get_set_cpl_apart (s : State) (k v : Nat) {f g : Fld} (hg : g.fits) (ha : f.apart g) :
    (s.set (f.cpl k) v).get (g.cpl k) = s.get (g.cpl k) :=
  State.get_set_apart s v hg (ha.imp_left fun hkey h => hkey (Nat.add_left_cancel h))

/-- After training no spare is in use. -/
theorem State.trainedUp_spareUsed (s : State) (k good pc pm : Nat) :
    (s.trainedUp k good pc pm).get (CPL_LANES.spare_used.cpl k) = 0 := by
  have hlanes : (s.trainedLanes k good).get (CPL_LANES.spare_used.cpl k) = 0 := by
    rw [State.trainedLanes, State.setLink_get]
    iterate 4 rw [State.get_set_cpl_apart _ _ _ (by decide) (by decide)]
    exact (State.get_set_same s (CPL_LANES.spare_used.cpl k) 0 (show CPL_LANES.spare_used.fits by decide)).trans (Nat.zero_mod _)
  rw [State.trainedUp]
  iterate 3 rw [State.get_set_cpl_apart _ _ _ (by decide) (by decide)]
  exact hlanes

/-- Coupling 0 trains again, after its spare has taken a lane (R324). -/
def retrainingState : State := (State.reset.set (CPL_STATUS.state.cpl 0) 1).set (CPL_LANES.spare_used.cpl 0) 1

/-- Refutes O28: its first clause lets a training that brings a coupling up change no field of CPL_LANES but `good`. Training
chooses the active lanes afresh (R322), and `spare_used`, set by an earlier substitution, reads 0 from then on. -/
theorem not_couplingLanes : ¬ Obligations.CouplingLanes := by
  unfold Obligations.CouplingLanes
  rintro ⟨htrain, -⟩
  have hstate : (retrainingState.pass 0).get (CPL_STATUS.state.cpl 0) = 1 := by decide +kernel
  have hspare : (retrainingState.pass 0).get (CPL_LANES.spare_used.cpl 0) = 1 := by decide +kernel
  have himg : (retrainingState.pass 0).img.image = none := by decide +kernel
  have hlong : (retrainingState.pass 0).port.long = none := by decide +kernel
  have hgood : 16 ≤ popcount 17 (2 ^ 17 - 1) := by decide
  obtain ⟨t, ht, -, -, -, -, -, -, hregs⟩ := htrain 0 0 (2 ^ 17 - 1) 5 9 retrainingState _ rfl (by decide) hstate hgood hlong
  cases (execCouplingTrainingEnd_up hstate hgood himg hlong).symm.trans ht
  have hkept := hregs (CPL_LANES.spare_used.cpl 0) (by decide) (by decide)
  rw [State.trainedUp_spareUsed, hspare] at hkept
  exact absurd hkept (by decide)

end Sys2Proof.Machine
end

section
/-! PROOFS. Collectives (R93, R313, R344): the push of a whole all-gather behind the writes of its port. -/

set_option Elab.async false

namespace Sys2Proof.Machine

/-- A whole all-gather pushes a slot through the network port of its tile, and goes on to the next instance. -/
theorem execCollectiveComplete_pushes {dt c n : Nat} {d : CollDecl} {s : State} (hcoll : (s.pass dt).collective c = some (d, n))
    (hwhole : ((s.pass dt).coll d).whole d.size = true) (hreducing : ((s.pass dt).coll d).reducing = false) (hkind : d.kind = 0) :
    exec (.collectiveComplete dt c) s =
      .next (((s.pass dt).remoteCirc n d.region 1 false none).setColl ((s.pass dt).coll d).advance) := by
  simp [exec, execCollectiveComplete, hcoll, hwhole, hreducing, hkind]

/-- An all-gather of two members, 128 bytes each, to tile 0 and its region 0. -/
def gatherDecl : CollDecl := ⟨7, 0, 128, 0, 0, 256, 0, [0, 1]⟩

/-- Its parts are whole, while two rows of a write that came through the network port of tile 0 wait for their slots. -/
def gatheredState : State :=
  { queuedPushState with
    net := {}
    img := { image := some { fillImage with group := some ⟨0, 2, false, false, 0, 0, [], [], [], [gatherDecl]⟩ }, place := [(0, 0)] }
    cpl := { colls := [⟨7, [128, 128], [0, 0], false⟩] } }

/-- The instance that follows. -/
def gatheredNextState : State :=
  ((gatheredState.pass 0).remoteCirc 0 gatherDecl.region 1 false none).setColl ((gatheredState.pass 0).coll gatherDecl).advance

/-- The port writes one row in a cycle, so the push stays behind the other for the next cycle, and the count is as before. -/
theorem gatheredNextState_counts :
    gatheredNextState.endCycle.circ 0 gatherDecl.region TILE_CIRC_PTR_n.count = 0
      ∧ (gatheredState.pass 0).circ 0 gatherDecl.region TILE_CIRC_PTR_n.count = 0 := by
  decide +kernel

/-- Refutes O31: its second clause says that the push of a whole all-gather raises the count at the end of the cycle. The model keeps
the push for the next cycle while a write of its network port waits at the tile (R93, R313), which no hypothesis excludes. -/
theorem not_collectives : ¬ Obligations.Collectives := by
  unfold Obligations.Collectives
  rintro ⟨-, hgather, -⟩
  have hcoll : (gatheredState.pass 0).collective 7 = some (gatherDecl, 0) := by decide +kernel
  have hwhole : ((gatheredState.pass 0).coll gatherDecl).whole gatherDecl.size = true := by decide +kernel
  have hreducing : ((gatheredState.pass 0).coll gatherDecl).reducing = false := by decide +kernel
  have hcirc : (gatheredState.pass 0).tile.circ = [] := by decide +kernel
  have henable : (gatheredState.pass 0).circ 0 gatherDecl.region TILE_CIRC_CFG_n.enable ≠ 0 := by decide +kernel
  have hwaits : ((gatheredState.pass 0).tile.waits.any fun (w : Wait) =>
      w.tile == 0 && w.circ == gatherDecl.region && w.pop == false) = false := by decide +kernel
  have hlegal : (gatheredState.pass 0).pushLegal 0 gatherDecl.region 1 = true := by decide +kernel
  obtain ⟨t, ht, -, hcount, -⟩ := hgather 0 7 0 gatherDecl gatheredState _ rfl hcoll hwhole hreducing rfl (by decide) hcirc henable
    hwaits hlegal
  cases (execCollectiveComplete_pushes hcoll hwhole hreducing rfl).symm.trans ht
  obtain ⟨hafter, hbefore⟩ := gatheredNextState_counts
  change gatheredNextState.endCycle.circ 0 gatherDecl.region _ = _ at hcount
  rw [hafter, hbefore] at hcount
  exact absurd hcount (by decide)

end Sys2Proof.Machine
end

section
/-! PROOFS. Raw requests (R326, R328, R348): what a raw response frees in the receive buffer of its coupling. -/

set_option Elab.async false

namespace Sys2Proof.Machine

/-- The response of the peer ends the RAW that waits for it. -/
def State.rawAnswered (s : State) (cmd : Nat) (x : Tx) : State :=
  ({ s with port := { s.port with raw := none } }.respond 0x40 cmd stOk 0 true (word8 x.status ++ word8 (leNat (x.data.take 8)))).transmit

/-- It changes no coupling. -/
theorem State.rawAnswered_link (s : State) (cmd : Nat) (x : Tx) (k : Nat) : (s.rawAnswered cmd x).link k = s.link k := by
  rw [State.link, State.rawAnswered, State.transmit_cpl, State.respond_cpl, State.link]

/-- Freeing flits leaves the port. -/
theorem State.freeFlits_port (s : State) (k : Nat) (x : Tx) : (s.freeFlits k x).port = s.port := by
  unfold State.freeFlits
  split <;> rfl

/-- A raw response with the tag that is waited for frees its flits, and answers the command. -/
theorem execRawResponse_answers {dt k cmd tk : Nat} {x : Tx} {s : State} (hk : k < 24) (hup : (s.pass dt).up k = true)
    (hvc : x.vc = 0) (hzero : x.reservedZero = true) (hflags : x.flags < 4) (hpush : x.push < 16) (hty : x.ty = 10)
    (hmember : x.dstMember = s.member) (hpass : s.member = (s.pass dt).member) (hraw : (s.pass dt).port.raw = some (cmd, k, tk))
    (htag : (x.tag + 1) % 256 = (s.pass dt).port.rawTag) :
    exec (.rawResponse dt k x) s = .next (((s.pass dt).freeFlits k x).rawAnswered cmd x) := by
  have hself : { x with dstMember := s.member } = x := by rw [← hmember]
  have hallowed : txAllowed x = true := by simp [txAllowed, hty, hvc]
  rw [← State.freeFlits_port _ k x] at hraw htag
  simp only [exec, execRawResponse, hself, State.rawAnswered,
    State.txIn_handled _ hk hup hallowed hzero hflags hpush hty (.inl (hmember.trans hpass)), hraw, htag, and_self, if_true]

/-- A raw response without data. -/
def emptyRawResponse : Tx := ⟨10, 0, 0, 0, 0, 0, 0, 0, 0, 0, 0, 255, 0, 0, 0, 0, 0, true, []⟩

/-- Coupling 0 is up, a RAW waits on it, and the response has arrived whole in the receive buffer, in its one flit. -/
def receivedResponseState : State :=
  { State.reset.set (CPL_STATUS.state.cpl 0) 2 with
    port := { raw := some (7, 0, 0) }
    cpl := { links := [(0, { inbox := [(txPayloads emptyRawResponse).map (linkFlit 0 0 1 1)] })] } }

/-- The flit's place in the buffer is credited to the peer (R326, R328). -/
theorem receivedResponseState_frees :
    (((receivedResponseState.pass 0).freeFlits 0 emptyRawResponse).link 0).freed = [(0, 1)]
      ∧ ((receivedResponseState.pass 0).link 0).freed = [] := by
  decide +kernel

/-- Refutes O32: its fifth clause lets a raw response change no part of the state but the port. The flits that carried it leave the
coupling's receive buffer, and their credit goes back. -/
theorem not_rawRequests : ¬ Obligations.RawRequests := by
  unfold Obligations.RawRequests
  rintro ⟨-, -, -, -, hresponse, -⟩
  have hup : (receivedResponseState.pass 0).up 0 = true := by decide +kernel
  have hmember : emptyRawResponse.dstMember = receivedResponseState.member := by decide +kernel
  have hpass : receivedResponseState.member = (receivedResponseState.pass 0).member := by decide +kernel
  have hraw : (receivedResponseState.pass 0).port.raw = some (7, 0, 0) := by decide +kernel
  have htag : (emptyRawResponse.tag + 1) % 256 = (receivedResponseState.pass 0).port.rawTag := by decide +kernel
  obtain ⟨t, ht, -, -, -, hsame⟩ := hresponse 0 0 7 0 emptyRawResponse receivedResponseState _ rfl (by decide) hup rfl rfl (by decide)
    (by decide) rfl hraw htag
  cases (execRawResponse_answers (by decide) hup rfl rfl (by decide) (by decide) rfl hmember hpass hraw htag).symm.trans ht
  have hcpl : (((receivedResponseState.pass 0).freeFlits 0 emptyRawResponse).rawAnswered 7 emptyRawResponse).cpl =
      (receivedResponseState.pass 0).cpl := State.sameBut_iff.1 hsame .cpl (by decide)
  obtain ⟨hafter, hbefore⟩ := receivedResponseState_frees
  rw [← State.rawAnswered_link _ 7 emptyRawResponse, State.link, hcpl] at hafter
  exact absurd (hafter.symm.trans hbefore) (by decide)

end Sys2Proof.Machine
end

section
/-! PROOFS. A step on a sound state (R387, R403, R443): the time of an empty queue, and the command at its front. -/

set_option Elab.async false

namespace Sys2Proof.Machine

/-- Soundness does not speak of the queue. -/
theorem State.Sound.withPending {s : State} (h : s.Sound) (r : List Instr) : ({ s with pending := r } : State).Sound :=
  ⟨h.mem, h.regs, h.stream, h.log, h.chans⟩

/-- Settles O2: on an empty queue one tick passes, which keeps a sound state sound; else the front command runs on the state with the
rest of the queue, and every command keeps a sound state sound. -/
theorem soundKeptByStep : Obligations.SoundKeptByStep := by
  intro s t hs hstep
  cases hq : s.pending with
  | nil =>
    rw [step, hq] at hstep
    cases hstep
    exact (State.pass_keeps 1 (State.Keeps.refl s)).sound hs
  | cons c rest =>
    rw [step, hq] at hstep
    exact (exec_keeps hstep).sound (hs.withPending rest)

end Sys2Proof.Machine
end

section
/-! PROOFS. Mailboxes (R405 to R410, R504): what a doorbell, a word and the host's record change, and the commands of both ends. -/

set_option Elab.async false

namespace Sys2Proof.Machine

/-! ### The queues of a mailbox -/

section
variable (s : State) (m e : Nat)

@[simp] theorem State.mbxOutOf_setMbx (q : MbxQueue) : (s.setMbx m e q).mbxOutOf m e = q := by
  simp [State.mbxOutOf, State.setMbx]

theorem State.mbxOutOf_congr {t : State} (h : t.mbx = s.mbx) : t.mbxOutOf m e = s.mbxOutOf m e := by
  rw [State.mbxOutOf, State.mbxOutOf, h]

theorem State.setMbx_sameBut (q : MbxQueue) : s.sameBut (s.setMbx m e q) [.mbx] := by simp [State.sameBut]

/-! ### What an end is told (R408, R504) -/

theorem State.raiseHead_sameBut (num a b : Nat) : s.sameBut (s.raiseHead num a b) [.ev] := by simp [State.sameBut]

/-- A signal adds a notification record or an event, and changes nothing else. -/
theorem State.mbxSignal_parts (before : Bool × Bool × Bool) :
    ∃ ev port, s.mbxSignal before m e = { s with ev := ev, port := port } := by
  unfold State.mbxSignal
  split
  · dsimp only
    split
    · exact ⟨_, _, rfl⟩
    · exact ⟨s.ev, s.port, rfl⟩
  · dsimp only
    split
    · exact ⟨_, _, rfl⟩
    · exact ⟨s.ev, s.port, rfl⟩

theorem State.mbxChange_regs (f : State → State) : (s.mbxChange m e f).regs = (f s).regs := by
  obtain ⟨ev, port, h⟩ := (f s).mbxSignal_parts m e (s.mbxSignals m e)
  rw [State.mbxChange, h]

theorem State.mbxChange_mbx (f : State → State) : (s.mbxChange m e f).mbx = (f s).mbx := by
  obtain ⟨ev, port, h⟩ := (f s).mbxSignal_parts m e (s.mbxSignals m e)
  rw [State.mbxChange, h]

/-- A change of registers at an end, with what it signals. -/
theorem State.mbxChange_sameBut {f : State → State} (h : s.sameBut (f s) [.regs]) :
    s.sameBut (s.mbxChange m e f) [.regs, .ev, .port] := by
  obtain ⟨ev, port, hs⟩ := (f s).mbxSignal_parts m e (s.mbxSignals m e)
  rw [State.mbxChange, hs]
  exact (h.mono (by simp)).trans (by simp [State.sameBut])

/-- A field of an end's page fits where the field does. -/
theorem Fld.page_fits {f : Fld} (h : f.fits) (m e : Nat) : (f.page m e).fits := h

/-- Setting a field of an end's page, with what it signals. -/
theorem State.mbxChange_set_effect {f : Fld} (hf : f.fits) (v : State → Nat) :
    let t := s.mbxChange m e fun u => u.set (f.page m e) (v u)
    t.get (f.page m e) = v s % 2 ^ f.w ∧ t.mbx = s.mbx ∧ s.sameBut t [.regs, .ev, .port] ∧ s.regsBut t [f.page m e] := by
  intro t
  have hregs : t.regs = (s.set (f.page m e) (v s)).regs := s.mbxChange_regs m e _
  exact ⟨(State.get_congr hregs _).trans (State.get_set_same _ _ _ (Fld.page_fits hf m e)), s.mbxChange_mbx m e _,
    s.mbxChange_sameBut m e ((State.sameBut.refl s _).set _ _ (by simp)), ((State.regsBut.refl s _).set _ (by simp)).of_regs hregs⟩

/-- The bits of a ring join the doorbells of the end. -/
theorem State.mbxBell_effect (b : Nat) :
    (s.mbxBell m e b).get (MBX_BELL.bell.page m e) = (s.get (MBX_BELL.bell.page m e) ||| b % 2 ^ 32)
      ∧ (s.mbxBell m e b).mbx = s.mbx ∧ s.sameBut (s.mbxBell m e b) [.regs, .ev, .port]
      ∧ s.regsBut (s.mbxBell m e b) [MBX_BELL.bell.page m e] := by
  obtain ⟨hbell, hframe⟩ := s.mbxChange_set_effect m e (f := MBX_BELL.bell) (by decide)
    fun t => t.get (MBX_BELL.bell.page m e) ||| b % 2 ^ 32
  exact ⟨hbell.trans (Nat.mod_eq_of_lt (Nat.or_lt_two_pow (s.get_lt _) (Nat.mod_lt _ (Nat.two_pow_pos 32)))), hframe⟩

/-! ### Words (R406) -/

/-- A word sent with room joins the queue, and rings bit 0 at the other end. -/
theorem State.mbxSend_room {v : Nat} (h : (s.mbxOutOf m e).words.length < 8) :
    ∃ timer, s.mbxSend m e v = (s.setMbx m e ⟨(s.mbxOutOf m e).words ++ [v % 2 ^ 64], timer⟩).mbxBell m (1 - e) 1 :=
  ⟨_, by simp only [State.mbxSend, if_pos h]; rfl⟩

theorem State.mbxSend_effect {v : Nat} (h : (s.mbxOutOf m e).words.length < 8) :
    ((s.mbxSend m e v).mbxOutOf m e).words = (s.mbxOutOf m e).words ++ [v % 2 ^ 64]
      ∧ s.sameBut (s.mbxSend m e v) [.regs, .ev, .port, .mbx] ∧ s.regsBut (s.mbxSend m e v) [MBX_BELL.bell.page m (1 - e)] := by
  obtain ⟨timer, heq⟩ := s.mbxSend_room m e (v := v) h
  obtain ⟨-, hmbx, hsame, hregs⟩ :=
    (s.setMbx m e ⟨(s.mbxOutOf m e).words ++ [v % 2 ^ 64], timer⟩).mbxBell_effect m (1 - e) 1
  rw [heq]
  refine ⟨?_, ((s.setMbx_sameBut m e _).mono (by simp)).trans (hsame.mono (by simp)), (State.regsBut_of_regs rfl _).trans hregs⟩
  rw [State.mbxOutOf_congr _ m e hmbx, State.mbxOutOf_setMbx]

/-- A receive takes the oldest word. -/
theorem State.mbxRecv_word {w : Nat} {ws : List Nat} (h : (s.mbxOutOf m (1 - e)).words = w :: ws) :
    ∃ timer, s.mbxRecv m e = (w, s.setMbx m (1 - e) ⟨ws, timer⟩) :=
  ⟨if ws.isEmpty then none else some s.ticks, by simp only [State.mbxRecv, h]⟩

theorem State.mbxRecv_empty (h : (s.mbxOutOf m (1 - e)).words = []) :
    s.mbxRecv m e = (0, s.setFlag (MBX_STATUS.underrun.page m e) true) := by
  simp only [State.mbxRecv, h]

/-! ### The control register of an end (R410) -/

theorem State.mbxCtrl_timeout (v : Nat) :
    (s.mbxCtrl m e v).get (MBX_CTRL.timeout.page m e) = max 1 (min (v % 2 ^ 20) 1000000) := by
  have hbits : bits v 0 20 = v % 2 ^ 20 := by simp [bits]
  have hset (x : Nat) : (s.set (MBX_CTRL.timeout.page m e) x).get (MBX_CTRL.timeout.page m e) = x % 2 ^ 20 :=
    State.get_set_same _ _ _ (Fld.page_fits (by decide) m e)
  have hget : (s.mbxCtrl m e v).get (MBX_CTRL.timeout.page m e) =
      (if bits v 0 20 = 0 then 1 else min (bits v 0 20) 1000000) % 2 ^ 20 := by
    unfold State.mbxCtrl
    dsimp only
    split
    · exact (State.setMbx_get ..).trans (hset _)
    · exact hset _
  rw [hget, hbits]
  split <;> omega

/-- Bit 32 flushes the direction out of the end. -/
theorem State.mbxCtrl_flush {v : Nat} (h : v.testBit 32 = true) : (s.mbxCtrl m e v).mbxOutOf m e = ⟨[], none⟩ := by
  have hbit : bits v 32 1 = 1 := by simpa [bits, Nat.testBit_eq_decide_div_mod_eq] using h
  rw [State.mbxCtrl, if_pos hbit, State.mbxOutOf_setMbx]

theorem State.mbxCtrl_frame (v : Nat) :
    s.sameBut (s.mbxCtrl m e v) [.regs, .mbx] ∧ s.regsBut (s.mbxCtrl m e v) [MBX_CTRL.timeout.page m e] := by
  have hsame (x : Nat) : s.sameBut (s.set (MBX_CTRL.timeout.page m e) x) [.regs, .mbx] := (State.sameBut.refl s _).set _ _ (by simp)
  have hregs (x : Nat) : s.regsBut (s.set (MBX_CTRL.timeout.page m e) x) [MBX_CTRL.timeout.page m e] :=
    (State.regsBut.refl s _).set _ (by simp)
  unfold State.mbxCtrl
  dsimp only
  split
  · exact ⟨(hsame _).trans ((State.setMbx_sameBut _ m e _).mono (by simp)), (hregs _).of_regs rfl⟩
  · exact ⟨hsame _, hregs _⟩
end

/-! ### Who runs an operation (R405, R409) -/

/-- A guard reaches its own ends. -/
theorem mbxRun_guard (s : State) (op ident : Nat) {m e : Nat} (f : State → Nat → Nat × State) (hm : m < 28) (he : e < 2)
    (hg : (mbxGuard m e).isSome = true) : mbxRun s false op m e ident f = (f s e).2 := by
  simp only [mbxRun, hm, he, hg, Bool.false_eq_true, and_self, if_true, if_false]

/-- The host reaches end A of mailboxes 0 to 15 and is answered. -/
theorem mbxRun_host (s : State) (op e ident : Nat) {m : Nat} (f : State → Nat → Nat × State) (hm : m < 16) :
    mbxRun s true op m e ident f = (f (s.consume 1 16) 0).2.mbxAnswer op m 0 ident (f (s.consume 1 16) 0).1 := by
  simp only [mbxRun, hm, if_true]

section
variable (s : State)

theorem State.consume_sameBut (c n : Nat) : s.sameBut (s.consume c n) [.port] := by simp [State.sameBut, State.consume]

theorem State.mbxAnswer_sameBut (op m status ident value : Nat) : s.sameBut (s.mbxAnswer op m status ident value) [.port] := by
  simp [State.sameBut, State.mbxAnswer]

theorem State.mbxAnswer_last (op m status ident value : Nat) :
    (s.mbxAnswer op m status ident value).port.mbxOut.getLast? = some ⟨op, m, status, ident, value⟩ := List.getLast?_concat

/-- What an operation of the host leaves: what its effect on the state without the record leaves, and the port. -/
theorem State.mbxHost_sameBut {u : State} {l : List Part} (op m status ident value : Nat) (h : (s.consume 1 16).sameBut u l)
    (hp : Part.port ∈ l) : s.sameBut (u.mbxAnswer op m status ident value) l :=
  have hl : [Part.port] ⊆ l := by simpa using hp
  (((s.consume_sameBut 1 16).mono hl).trans h).trans ((State.mbxAnswer_sameBut u op m status ident value).mono hl)
end

/-! ### The statements -/

/-- Settles O12: a send at either end is `mbxSend` with room, a receive takes the oldest word or sets `underrun`, and the host's record is
answered behind it. -/
theorem mailboxWords : Obligations.MailboxWords := by
  unfold Obligations.MailboxWords
  refine ⟨?_, ?_, ?_, ?_, ?_⟩
  · rintro dt m e ident v s _ rfl hm he hg hroom
    obtain ⟨hwords, hsame, hregs⟩ := (s.elapse dt).mbxSend_effect m e (v := v) hroom
    exact ⟨_, congrArg Host.Outcome.next (mbxRun_guard _ 1 ident _ hm he hg), hwords, State.mem_of_sameBut hsame (by decide), hsame,
      hregs⟩
  · rintro dt m ident v s _ rfl hm hroom
    obtain ⟨hwords, hsame, hregs⟩ := ((s.elapse dt).consume 1 16).mbxSend_effect m 0 (v := v) hroom
    have hframe := State.mbxHost_sameBut (s.elapse dt) 1 m 0 ident ((((s.elapse dt).consume 1 16).mbxSend m 0 v).mbxStatus m 0) hsame
      (by simp)
    exact ⟨_, congrArg Host.Outcome.next (mbxRun_host _ 1 0 ident _ hm), hwords, State.mbxAnswer_last ..,
      State.mem_of_sameBut hframe (by decide), hframe, ((State.regsBut_of_regs rfl _).trans hregs).of_regs rfl⟩
  · rintro dt m e ident w ws s _ rfl hm he hg hword
    obtain ⟨timer, hrecv⟩ := (s.elapse dt).mbxRecv_word m e hword
    refine ⟨_, congrArg Host.Outcome.next ((mbxRun_guard _ 2 ident _ hm he hg).trans (congrArg Prod.snd hrecv)), ?_, rfl, rfl,
      State.setMbx_sameBut ..⟩
    rw [State.mbxOutOf_setMbx]
  · rintro dt m e ident s _ rfl hm he hg hempty
    have hrecv := (s.elapse dt).mbxRecv_empty m e hempty
    exact ⟨_, congrArg Host.Outcome.next ((mbxRun_guard _ 2 ident _ hm he hg).trans (congrArg Prod.snd hrecv)),
      State.flag_setFlag_same _ _ _ (Fld.page_fits (by decide) m e) rfl, rfl, (State.sameBut.refl _ _).setFlag _ _ (by simp),
      (State.regsBut.refl _ _).setFlag _ (by simp)⟩
  · rintro dt m ident w ws s _ rfl hm hword
    obtain ⟨timer, hrecv⟩ := ((s.elapse dt).consume 1 16).mbxRecv_word m 0 hword
    have hrun := mbxRun_host (s.elapse dt) 2 0 ident (fun t d => t.mbxRecv m d) hm
    rw [hrecv] at hrun
    refine ⟨_, congrArg Host.Outcome.next hrun, ?_, State.mbxAnswer_last .., ?_⟩
    · exact congrArg MbxQueue.words (State.mbxOutOf_setMbx ..)
    · exact State.mbxHost_sameBut _ _ _ _ _ _ ((State.setMbx_sameBut ..).mono (by simp)) (by simp)

/-- The timer of a direction out of an end has run for the time-out of its register. -/
theorem execMbxTimeout_expires {dt m e x : Nat} {s : State} (htimer : ((s.elapse dt).mbxOutOf m e).timer = some x)
    (hdue : x + 160 * (s.elapse dt).get (MBX_CTRL.timeout.page m e) ≤ (s.elapse dt).ticks) :
    execMbxTimeout dt m e s = .next (((((s.elapse dt).setMbx m e ⟨((s.elapse dt).mbxOutOf m e).words, none⟩).mbxChange m e fun u =>
      u.setFlag (MBX_STATUS.timeout.page m e) true)).raiseHead 232 m e) := by
  have hticks : x + usTicks ((s.elapse dt).get (MBX_CTRL.timeout.page m e)) ≤ (s.elapse dt).ticks := by
    rw [usTicks, Nat.mul_comm]; exact hdue
  simp only [execMbxTimeout, htimer, if_pos hticks]

/-- Settles O13: a ring and a mask write are changes of a field with its signal, a clear, a control write and the host's status read act
on their own end, and an expired timer sets `timeout` and raises its event. -/
theorem mailboxSignals : Obligations.MailboxSignals := by
  unfold Obligations.MailboxSignals
  refine ⟨?_, ?_, ?_, ?_, ?_, ?_⟩
  · rintro dt m e ident v s _ rfl hm he hg
    obtain ⟨hbell, hmbx, hsame, hregs⟩ := (s.elapse dt).mbxBell_effect m (1 - e) v
    exact ⟨_, congrArg Host.Outcome.next (mbxRun_guard _ 3 ident _ hm he hg), hbell, hmbx, State.mem_of_sameBut hsame (by decide), hsame,
      hregs⟩
  · rintro dt m e ident v s _ rfl hm he hg
    refine ⟨_, congrArg Host.Outcome.next (mbxRun_guard _ 5 ident _ hm he hg), ?_, rfl, rfl, (State.sameBut.refl _ _).set _ _ (by simp),
      (State.regsBut.refl _ _).set _ (by simp)⟩
    exact (State.get_set_same _ _ _ (Fld.page_fits (by decide) m e)).trans
      (Nat.mod_eq_of_lt (Nat.and_le_left.trans_lt (State.get_lt _ (MBX_BELL.bell.page m e))))
  · rintro dt m e ident v s _ rfl hm he hg
    obtain ⟨hmask, hmbx, hsame, hregs⟩ := (s.elapse dt).mbxChange_set_effect m e (f := MBX_MASK.mask) (by decide)
      fun _ => v
    exact ⟨_, congrArg Host.Outcome.next (mbxRun_guard _ 6 ident _ hm he hg), hmask, hmbx, State.mem_of_sameBut hsame (by decide), hsame,
      hregs⟩
  · rintro dt m ident s _ rfl hm
    exact ⟨_, congrArg Host.Outcome.next (mbxRun_host _ 4 0 ident _ hm), State.mbxAnswer_last .., rfl, rfl, rfl,
      State.mbxHost_sameBut _ _ _ _ _ _ (State.sameBut.refl _ _) (by simp)⟩
  · rintro dt m e ident v s _ rfl hm he hg
    obtain ⟨hsame, hregs⟩ := (s.elapse dt).mbxCtrl_frame m e v
    exact ⟨_, congrArg Host.Outcome.next (mbxRun_guard _ 7 ident _ hm he hg), State.mbxCtrl_timeout .., State.mbxCtrl_flush _ m e,
      State.mem_of_sameBut hsame (by decide), hsame, hregs⟩
  · rintro dt m e x s _ rfl htimer hdue
    obtain ⟨hflag, hmbx, hsame, hregs⟩ :=
      ((s.elapse dt).setMbx m e ⟨((s.elapse dt).mbxOutOf m e).words, none⟩).mbxChange_set_effect m e (f := MBX_STATUS.timeout)
        (by decide) fun _ => 1
    refine ⟨_, execMbxTimeout_expires htimer hdue, ?_, ?_, State.raiseHead_lastEvent .., ?_, ?_⟩
    · exact congrArg (· != 0) hflag
    · exact (State.mbxOutOf_congr _ m e hmbx).trans (State.mbxOutOf_setMbx ..)
    · exact (((State.setMbx_sameBut ..).mono (by simp)).trans (hsame.mono (by simp))).trans ((State.raiseHead_sameBut ..).mono (by simp))
    · exact ((State.regsBut_of_regs rfl _).trans hregs).of_regs rfl

end Sys2Proof.Machine
end

section
/-! PROOFS. Failing units (R412, R416, R433, R548): what an entry of the defect map changes, tiles without a heartbeat, failing tower
channels and their restores. -/

set_option Elab.async false

namespace Sys2Proof.Machine

/-! ### Frames of field updates -/

section
variable {s t : State} {l : List Fld}

theorem State.regsBut.foldl {α : Type} {f : State → α → State} {xs : List α} (h : s.regsBut t l)
    (hf : ∀ t, ∀ x ∈ xs, s.regsBut t l → s.regsBut (f t x) l) : s.regsBut (xs.foldl f t) l := by
  induction xs generalizing t with
  | nil => exact h
  | cons x xs ih => exact ih (hf t x (by simp) h) fun u y hy => hf u y (by simp [hy])

/-- What is apart from a whole register is apart from each of its fields. -/
theorem Fld.apart_of_whole {f g : Fld} (hg : g.fits) (h : (Fld.whole g.key).apart f) : g.apart f := by
  simp only [Fld.fits, Fld.apart, Fld.whole] at *
  omega

/-- A list that names the registers of the fields whole says less. -/
theorem State.regsBut.widen {l' : List Fld} (h : s.regsBut t l) (hl : ∀ g ∈ l, g.fits ∧ (g ∈ l' ∨ Fld.whole g.key ∈ l')) :
    s.regsBut t l' := by
  intro f hf ha
  refine h f hf fun g hg => ?_
  obtain ⟨hfit, hmem | hmem⟩ := hl g hg
  · exact ha g hmem
  · exact Fld.apart_of_whole hfit (ha _ hmem)

/-- Whether a turn goes on is told by the image's state and the turn. -/
theorem State.turning_of_frames {lp : List Part} (hsame : s.sameBut t lp) (hp : Part.turn ∉ lp) (hregs : s.regsBut t l)
    (hl : ∀ g ∈ l, g.apart HEAD_IMAGE_STATUS.state) : t.turning = s.turning := by
  have hturn : t.turn = s.turn := State.sameBut_iff.1 hsame .turn hp
  rw [State.turning, State.turning, State.running, State.running, hregs _ (by decide) hl, hturn]

theorem State.sameBut.raise {lp : List Part} (h : s.sameBut t lp) (num coord a b : Nat) (hp : Part.ev ∈ lp) :
    s.sameBut (t.raise num coord a b) lp := h.trans (by simp [State.sameBut, hp])

theorem State.regsBut.rep (h : s.regsBut t l) (r : RepB) : s.regsBut { t with rep := r } l := h.of_regs rfl

theorem State.sameBut.rep {lp : List Part} (h : s.sameBut t lp) (r : RepB) (hp : Part.rep ∈ lp) : s.sameBut { t with rep := r } lp :=
  h.trans (by simp [State.sameBut, hp])
end

/-! ### Where the registers of units lie (R37) -/

/-- A register of the head lies below those of the tiles. -/
theorem Fld.apart_tile {f : Fld} (h : f.key < 0x100000000000) (x : Fld) (n : Nat) : f.apart (x.tile n) := by
  have hkey : 0x100000000000 ≤ (x.tile n).key := by
    simp only [Fld.tile, tileBase]
    split <;> omega
  exact .inl (h.trans_le hkey).ne

/-- It lies below those of the towers too. -/
theorem Fld.apart_twr {f : Fld} (h : f.key < 0x100000000000) (x : Fld) (k : Nat) : f.apart (x.twr k) ∧ (x.twr k).apart f := by
  have hkey : 0x100000000000 ≤ (x.twr k).key := by
    simp only [Fld.twr, bayBase]
    omega
  exact ⟨.inl (h.trans_le hkey).ne, .inl (h.trans_le hkey).ne'⟩

/-! ### An entry of the defect map (R412) -/

section
variable {s : State} (w : Nat) (h : s.sbx.store.length < 4096)
include h

/-- While the store has room an entry joins the store and the head's copy. -/
theorem State.addDefect_room : s.addDefect w =
    { s.set HEAD_DEFECT_INDEX.entries (s.rep.defects.length + 1) with
      rep := { s.rep with defects := s.rep.defects ++ [w] }, sbx := { s.sbx with store := s.sbx.store ++ [w] } } := if_pos h

theorem State.addDefect_room_effect :
    (s.addDefect w).rep.defects = s.rep.defects ++ [w] ∧ (s.addDefect w).sbx.store = s.sbx.store ++ [w]
      ∧ (s.addDefect w).ev = s.ev ∧ s.regsBut (s.addDefect w) [HEAD_DEFECT_INDEX.entries] := by
  rw [s.addDefect_room w h]
  exact ⟨rfl, rfl, rfl, ((State.regsBut.refl s _).set _ (by simp)).of_regs rfl⟩
end

/-! ### Missing heartbeats (R416, R548) -/

section
variable {dt n : Nat} {s : State} (hn : n < 9984) (hinit : (s.pass dt).get (TILE_STATE.state.tile n) ≠ 0)
  (hfail : (s.pass dt).get (TILE_STATE.state.tile n) ≠ 4) (hjobs : (s.pass dt).rep.jobs = []) (hadv : (s.pass dt).rep.advance = none)
include hn hinit hfail hjobs hadv

/-- With no repair under way, a tile of the image is lost. -/
theorem execHeartbeatMissing_loses {key : Nat} (hlog : (s.pass dt).logicalOf n = some key) (hthm : (s.pass dt).get THM_STATUS.state ≠ 3) :
    execHeartbeatMissing dt n s = .next ((s.pass dt).loseTile n 2) := by
  simp only [execHeartbeatMissing, hinit, hfail, not_le.2 hn, hjobs, hadv, hlog, hthm, List.find?_nil, Option.isSome_some, or_self,
    if_false, if_true]

/-- With no repair under way, a coach that holds nothing of the image is reset by a guard. -/
theorem execHeartbeatMissing_resets (hsite : n < 9216) (hlog : (s.pass dt).logicalOf n = none)
    (huse : (s.pass dt).coachInUse (n / 144) = false) (hreset : (s.pass dt).boot.guardResets.contains (n / 144) = false) :
    execHeartbeatMissing dt n s = .next { s.pass dt with
      boot := { (s.pass dt).boot with guardResets := (s.pass dt).boot.guardResets ++ [n / 144] } } := by
  simp only [execHeartbeatMissing, hinit, hfail, not_le.2 hn, hjobs, hadv, hlog, hsite, huse, hreset, List.find?_nil, Option.isSome_none,
    Bool.not_false, and_self, or_self, Bool.false_eq_true, if_false, if_true]
end

/-- The tile of a logical tile fails, with event 69 and its entry. -/
def State.tileLost (s : State) (n finding key : Nat) : State :=
  ((s.set (TILE_STATE.state.tile n) 4).raise 69 n finding key).addDefect (tileDefect n)

/-- Outside a turn a lost tile is failed and recorded. -/
theorem State.loseTile_idle {s : State} {n finding key : Nat} {i : Image} (hjobs : s.rep.jobs = []) (hlog : s.logicalOf n = some key)
    (himg : s.img.image = some i) (hturn : s.turning = false) (hdef : s.hasDefect 1 (placeOf n) (siteOf n) = false) :
    s.loseTile n finding = s.tileLost n finding key := by
  simp only [State.loseTile, hdef, hjobs, hlog, himg, hturn, List.any_nil, Bool.false_eq_true, or_self, Bool.not_false, if_false, if_true,
    State.tileLost]

theorem State.tileLost_effect {s : State} (n finding key : Nat) (hroom : s.sbx.store.length < 4096) :
    let t := s.tileLost n finding key
    t.get (TILE_STATE.state.tile n) = 4 ∧ t.rep.defects = s.rep.defects ++ [tileDefect n] ∧ t.sbx.store = s.sbx.store ++ [tileDefect n]
      ∧ t.lastEvent = some (69, finding % 2 ^ 64, key % 2 ^ 64) ∧ s.sameBut t [.regs, .ev, .sbx, .rep]
      ∧ s.regsBut t [TILE_STATE.state.tile n, HEAD_DEFECT_INDEX.entries, SBX_STATUS.alarm] := by
  intro t
  obtain ⟨hdefects, hstore, hev, hregs⟩ :=
    State.addDefect_room_effect (s := (s.set (TILE_STATE.state.tile n) 4).raise 69 n finding key) (tileDefect n) hroom
  have hfit : (TILE_STATE.state.tile n).fits := (by decide : TILE_STATE.state.fits)
  refine ⟨?_, hdefects, hstore, ?_, ?_, ?_⟩
  · refine (hregs _ hfit fun g hg => ?_).trans (State.get_set_same s _ 4 hfit)
    exact List.mem_singleton.1 hg ▸ Fld.apart_tile (by decide) _ n
  · exact (State.lastEvent_congr hev).trans (State.raise_lastEvent ..)
  · exact (((State.sameBut.refl s _).set _ _ (by simp)).raise _ _ _ _ (by simp)).trans (State.addDefect_sameBut _ _)
  · exact (((State.regsBut.refl s _).set (f := TILE_STATE.state.tile n) 4 (by simp)).of_regs (State.raise_regs ..)).trans
      (hregs.mono (by simp))

/-! ### Tower channels (R433) -/

section
variable {dt k ch : Nat} {ovr : Bool} {s : State} (hovr : ovr = false ∨ (s.pass dt).heldOver 1 4 none = true) (hk : k < 24) (hch : ch < 32)
  (hstate : (s.pass dt).get (TWR_STATUS.state.twr k) = 2) (hdue : (s.pass dt).rep.chanDue = [])
  (hspare : (s.pass dt).flag (TWR_STATUS.spare_used.twr k) = false)
include hovr hk hch hstate hdue hspare

/-- A failing channel of a tower with its spare waits for the boundary, or is replaced at once. -/
theorem execTowerChannelFailing_spare : execTowerChannelFailing dt k ⟨ch, ovr⟩ s = .next
    (if (s.pass dt).turning then { s.pass dt with rep := { (s.pass dt).rep with chanDue := [(k, ch)] } }
     else (s.pass dt).replaceChannel k ch) := by
  have hheld : ¬ (ovr = true ∧ (!(s.pass dt).heldOver 1 4 none) = true) := by
    rcases hovr with h | h <;> simp [h]
  simp only [execTowerChannelFailing, not_le.2 hk, not_le.2 hch, hheld, hstate, hdue, hspare, List.contains_nil, List.any_nil,
    List.nil_append, ne_eq, not_true_eq_false, Bool.false_eq_true, or_self, if_false]
end

/-- The spare channel of tower k takes the place of channel ch, which is to be restored. -/
def State.channelReplaced (s : State) (k ch : Nat) : State :=
  let s1 := (((s.setFlag (TWR_STATUS.spare_used.twr k) true).set (TWR_STATUS.replaced_channel.twr k) ch).addDefect
    (defectWord 6 k ch 0)).raise 76 (coordBay k 1) (defectWord 6 k ch 0) 0
  { s1 with rep := { s1.rep with restoring := s1.rep.restoring ++ [(k, ch)] } }

/-- While a turn goes on the repair is noted. -/
theorem State.replaceChannel_eq (s : State) (k ch : Nat) : s.replaceChannel k ch =
    if (s.channelReplaced k ch).turning then (s.channelReplaced k ch).noteRepair 4 else s.channelReplaced k ch := rfl

/-- The entry of a tower's channel is a word. -/
theorem channelDefect_lt {k ch : Nat} (hk : k < 24) (hch : ch < 32) : defectWord 6 k ch 0 < 2 ^ 64 := by
  unfold defectWord
  omega

theorem State.channelReplaced_effect {s : State} {k ch : Nat} (hk : k < 24) (hch : ch < 32) (hroom : s.sbx.store.length < 4096) :
    let t := s.channelReplaced k ch
    t.flag (TWR_STATUS.spare_used.twr k) = true ∧ t.get (TWR_STATUS.replaced_channel.twr k) = ch
      ∧ t.rep.defects = s.rep.defects ++ [defectWord 6 k ch 0] ∧ (k, ch) ∈ t.rep.restoring
      ∧ t.lastEvent = some (76, defectWord 6 k ch 0, 0) ∧ s.sameBut t [.regs, .ev, .sbx, .rep]
      ∧ s.regsBut t [TWR_STATUS.spare_used.twr k, TWR_STATUS.replaced_channel.twr k, HEAD_DEFECT_INDEX.entries] := by
  intro t
  obtain ⟨hdefects, -, -, hregs⟩ := State.addDefect_room_effect
    (s := (s.setFlag (TWR_STATUS.spare_used.twr k) true).set (TWR_STATUS.replaced_channel.twr k) ch) (defectWord 6 k ch 0) hroom
  have hspare : (TWR_STATUS.spare_used.twr k).fits := (by decide : TWR_STATUS.spare_used.fits)
  have hchan : (TWR_STATUS.replaced_channel.twr k).fits := (by decide : TWR_STATUS.replaced_channel.fits)
  have hindex (f : Fld) : ∀ g ∈ [HEAD_DEFECT_INDEX.entries], g.apart (f.twr k) := fun g hg =>
    List.mem_singleton.1 hg ▸ (Fld.apart_twr (by decide) f k).1
  refine ⟨?_, ?_, hdefects, List.mem_append_right _ (by simp), ?_, ?_, ?_⟩
  · have hflag : t.flag (TWR_STATUS.spare_used.twr k) = _ := hregs.flag hspare (hindex _)
    rw [hflag, State.flag, State.get_set_apart _ _ hspare (.inr (.inl (by decide : 8 + 5 ≤ 13))), ← State.flag,
      State.flag_setFlag_same _ _ _ hspare rfl]
  · exact (hregs _ hchan (hindex _)).trans ((State.get_set_same _ _ _ hchan).trans (Nat.mod_eq_of_lt hch))
  · exact (State.raise_lastEvent ..).trans (by rw [Nat.mod_eq_of_lt (channelDefect_lt hk hch), Nat.zero_mod])
  · exact ((((((State.sameBut.refl s _).setFlag _ _ (by simp)).set _ _ (by simp)).trans (State.addDefect_sameBut _ _)).raise _ _ _ _
      (by simp)).rep _ (by simp))
  · exact ((((State.regsBut.refl s _).setFlag true (by simp)).set ch (by simp)).trans (hregs.mono (by simp))).of_regs rfl

/-- Outside a turn it is not. -/
theorem State.replaceChannel_idle {s : State} {k ch : Nat} (hturn : s.turning = false) (hk : k < 24) (hch : ch < 32)
    (hroom : s.sbx.store.length < 4096) : s.replaceChannel k ch = s.channelReplaced k ch := by
  obtain ⟨-, -, -, -, -, hsame, hregs⟩ := State.channelReplaced_effect hk hch hroom
  have hapart : ∀ g ∈ [TWR_STATUS.spare_used.twr k, TWR_STATUS.replaced_channel.twr k, HEAD_DEFECT_INDEX.entries],
      g.apart HEAD_IMAGE_STATUS.state :=
    List.forall_mem_cons.2 ⟨(Fld.apart_twr (by decide) _ k).2, List.forall_mem_cons.2 ⟨(Fld.apart_twr (by decide) _ k).2, by decide⟩⟩
  have hstill : (s.channelReplaced k ch).turning = s.turning := State.turning_of_frames hsame (by decide) hregs hapart
  rw [State.replaceChannel_eq, hstill, hturn]
  rfl

/-! ### Restores (R433, R438) -/

/-- Channel ch of tower k is restored. -/
def State.restoreDone (s : State) (k ch : Nat) : State :=
  { s with rep := { s.rep with restoring := s.rep.restoring.erase (k, ch) } }

/-- A restore that read every word loses nothing. -/
theorem State.endRestore_whole {s : State} {k ch : Nat} (h : s.copyBlocked k [] = false) : s.endRestore k ch [] =
    if (s.restoreDone k ch).rep.restoring.isEmpty = true ∧ s.get HEAD_REPAIR_STATUS.state = 4 then
      (s.restoreDone k ch).set HEAD_REPAIR_STATUS.state 0
    else s.restoreDone k ch := by
  simp only [State.endRestore, h, Bool.false_eq_true, if_false, List.isEmpty_nil, if_true]
  rfl

/-- The last restore of all ends the state of the repair that stands for restores. -/
theorem State.endRestore_last {s : State} {k ch : Nat} (h : s.copyBlocked k [] = false) (hlast : s.rep.restoring = [(k, ch)]) :
    (s.endRestore k ch []).rep.restoring = []
      ∧ (s.endRestore k ch []).get HEAD_REPAIR_STATUS.state =
        (if s.get HEAD_REPAIR_STATUS.state = 4 then 0 else s.get HEAD_REPAIR_STATUS.state)
      ∧ s.sameBut (s.endRestore k ch []) [.regs, .rep] := by
  have hnone : (s.restoreDone k ch).rep.restoring = [] := by simp [State.restoreDone, hlast]
  have hsame : s.sameBut (s.restoreDone k ch) [.regs, .rep] := (State.sameBut.refl s _).rep _ (by simp)
  rw [State.endRestore_whole h, hnone]
  by_cases hstate : s.get HEAD_REPAIR_STATUS.state = 4
  · rw [if_pos ⟨rfl, hstate⟩, if_pos hstate]
    exact ⟨hnone, State.get_set_same _ _ 0 (by decide), hsame.set _ _ (by simp)⟩
  · rw [if_neg fun h => hstate h.2, if_neg hstate]
    exact ⟨hnone, rfl, hsame⟩

/-! ### The statement -/

/-- Settles O36: a silent tile of an idle image is lost by `tileLost`, one of an unused coach has its coach reset, a failing channel with a
spare waits for the boundary of a running image or is replaced, and the last restore that read every word ends. -/
theorem failingUnits : Obligations.FailingUnits := by
  unfold Obligations.FailingUnits
  refine ⟨?_, ?_, ?_, ?_, ?_⟩
  · rintro dt n s _ rfl hn hinit hfail hjobs hadv hlog huse hreset
    exact ⟨_, execHeartbeatMissing_resets (by omega) hinit hfail hjobs hadv hn hlog huse hreset, rfl, rfl, rfl, rfl,
      by simp [State.sameBut]⟩
  · rintro dt n key i s _ rfl hn hinit hfail hjobs hadv hlog himg hthm hturn hdef hroom
    have hexec := execHeartbeatMissing_loses hn hinit hfail hjobs hadv hlog hthm
    rw [State.loseTile_idle hjobs hlog himg hturn hdef] at hexec
    obtain ⟨hfailed, hentry, hstore, hevent, hsame, hregs⟩ := State.tileLost_effect n 2 key hroom
    exact ⟨_, hexec, hfailed, hentry, hstore, hevent, State.mem_of_sameBut hsame (by decide), hsame, hregs⟩
  · rintro dt k ch ovr s _ rfl hovr hk hch hstate hdue hspare hturn
    have hexec := execTowerChannelFailing_spare hovr hk hch hstate hdue hspare
    rw [if_pos hturn] at hexec
    exact ⟨_, hexec, rfl, rfl, rfl, (State.sameBut.refl _ _).rep _ (by simp)⟩
  · rintro dt k ch ovr s _ rfl hovr hk hch hstate hdue hspare hturn hroom
    have hexec := execTowerChannelFailing_spare hovr hk hch hstate hdue hspare
    rw [if_neg (by rw [hturn]; decide), State.replaceChannel_idle hturn hk hch hroom] at hexec
    obtain ⟨hused, hchan, hentry, hrestoring, hevent, hsame, hregs⟩ := State.channelReplaced_effect hk hch hroom
    exact ⟨_, hexec, hused, hchan, hentry, hrestoring, hevent, State.mem_of_sameBut hsame (by decide), hsame, hregs.mono (by simp)⟩
  · rintro dt k ch s _ rfl hlast hawake hopen hblocked
    obtain ⟨hnone, hstate, hsame⟩ := State.endRestore_last hblocked hlast
    refine ⟨_, congrArg Host.Outcome.next (if_pos ⟨by simp [hlast], by rw [hawake]; rfl, by rw [hopen]; rfl⟩), hnone, hstate,
      State.mem_of_sameBut hsame (by decide), State.sameBut_iff.1 hsame .img (by decide), hsame.mono (by simp)⟩

end Sys2Proof.Machine
end

section
/-! PROOFS. Watchdogs (R439, R440, R501): the expiry of a guard's watchdog, what it hands to its watcher, and a guard that runs again. -/

set_option Elab.async false

namespace Sys2Proof.Machine

/-! ### The fields of a watchdog (R439) -/

/-- The fields of a guard's watchdog fit where those of the first do. -/
theorem Fld.guard_fits {f : Fld} (h : f.fits) (g : Nat) : (f.guard g).fits := h

theorem State.get_set_guard (s : State) (g v : Nat) {f : Fld} (hf : f.fits) : (s.set (f.guard g) v).get (f.guard g) = v % 2 ^ f.w :=
  s.get_set_same _ v (Fld.guard_fits hf g)

/-- Fields of one watchdog that share no bit. -/
theorem State.get_set_guard_apart (s : State) (g v : Nat) {f x : Fld} (hx : x.fits) (ha : f.lo + f.w ≤ x.lo ∨ x.lo + x.w ≤ f.lo) :
    (s.set (f.guard g) v).get (x.guard g) = s.get (x.guard g) := s.get_set_apart v (Fld.guard_fits hx g) (.inr ha)

theorem whole_watchdog_mem {i : Nat} (hi : i < 4) : Fld.whole (GRD_WATCHDOG_i.state.guard i).key ∈ watchFields :=
  List.mem_append_left _ (List.mem_append_left _ (List.mem_map_of_mem (List.mem_range.2 hi)))

/-- Setting a field of a guard's watchdog. -/
theorem State.regsBut.setWatchdog {s t : State} (h : s.regsBut t watchFields) {f : Fld} {g : Nat} (v : Nat) (hg : g < 4)
    (hkey : f.key = GRD_WATCHDOG_i.state.key) : s.regsBut (t.set (f.guard g) v) watchFields :=
  h.trans (t.regsBut_setReg _ (by rw [Fld.guard, Fld.off, hkey]; exact whole_watchdog_mem hg))

/-- The fields that name the watchers. -/
def watcherFields : List Fld := (List.range 4).map GRD_WATCHDOG_i.watcher.guard

theorem State.syncWatchers_sameBut (s : State) : s.sameBut s.syncWatchers [.regs] :=
  (State.sameBut.refl s _).foldl fun _ _ h => h.set _ _ (by simp)

theorem State.syncWatchers_regsBut (s : State) : s.regsBut s.syncWatchers watcherFields :=
  (State.regsBut.refl s _).foldl fun _ _ hi h => h.set _ (List.mem_map_of_mem hi)

/-- A watchdog's other fields share no bit with those of the watchers. -/
theorem watcherFields_apart {f : Fld} (h : f.lo + f.w ≤ 56 ∨ 58 ≤ f.lo) : ∀ g ∈ watcherFields, g.apart f := by
  intro g hg
  obtain ⟨i, -, rfl⟩ := List.mem_map.1 hg
  exact .inr h.symm

theorem State.syncWatchers_watchFields (s : State) : s.regsBut s.syncWatchers watchFields :=
  (State.regsBut.refl s _).foldl fun _ _ hi h => h.setWatchdog _ (List.mem_range.1 hi) rfl

/-! ### A guard's sources move to its watcher (R501) -/

/-- The source that guard g serves. -/
def State.servedBy (s : State) (g : Nat) : List Nat := if s.flag (svcValid g) then [s.get (svc g)] else []

/-- Source n, served by a guard no more, is pending again. -/
def State.repend (s : State) (n : Nat) : State :=
  (s.setFlag (EVT_SRC_n.in_service.src n) ((List.range 4).any fun h => s.flag (svcValid h) && s.get (svc h) == n)).setFlag
    (EVT_SRC_n.pending.src n) true

/-- The fields that say of each source whether it pends and whether it is in service. -/
def sourceFields : List Fld := (List.range 256).flatMap fun n => [EVT_SRC_n.pending.src n, EVT_SRC_n.in_service.src n]

theorem mem_sourceFields {f : Fld} : f ∈ sourceFields ↔ ∃ n < 256, f = EVT_SRC_n.pending.src n ∨ f = EVT_SRC_n.in_service.src n := by
  simp [sourceFields]

/-- The sources' registers lie above those of the watchdogs and of the guards' service. -/
theorem sourceFields_apart {f : Fld} (h : f.key < 0x1C1000) : ∀ g ∈ sourceFields, g.apart f := by
  intro g hg
  obtain ⟨n, -, rfl | rfl⟩ := mem_sourceFields.1 hg
  · exact .inl (h.trans_le (Nat.le_add_right _ _)).ne'
  · exact .inl (h.trans_le (Nat.le_add_right _ _)).ne'

theorem sourceFields_subset : sourceFields ⊆ watchFields := by
  intro f hf
  obtain ⟨n, hn, hf⟩ := mem_sourceFields.1 hf
  refine List.mem_append_right _ (List.mem_flatMap.2 ⟨n, List.mem_range.2 hn, ?_⟩)
  rcases hf with rfl | rfl <;> simp

theorem svc_fits {g : Nat} (hg : g < 4) : (svcValid g).fits ∧ (svc g).fits := by
  simp only [Fld.fits, svcValid, svc]
  omega

section
variable (s : State) (g : Nat)

theorem State.servedBy_lt {n : Nat} (hn : n ∈ s.servedBy g) : n < 256 := by
  unfold State.servedBy at hn
  split at hn
  · exact List.mem_singleton.1 hn ▸ s.get_lt (svc g)
  · exact absurd hn (by simp)

/-- The guard serves nothing more. -/
def State.unserved (ev : EvB) : State := (({ s with ev := ev } : State).setFlag (svcValid g) false).set (svc g) 0

theorem State.moveSources_parts : ∃ ev, s.moveSources g = (s.servedBy g).foldl State.repend (s.unserved g ev) := ⟨_, rfl⟩

theorem State.unserved_sameBut (ev : EvB) : s.sameBut (s.unserved g ev) [.regs, .ev] := by simp [State.sameBut, State.unserved]

theorem State.unserved_regsBut (ev : EvB) : s.regsBut (s.unserved g ev) [svcValid g, svc g] :=
  ((State.regsBut_of_regs (t := { s with ev := ev }) rfl _).setFlag _ (by simp)).set _ (by simp)

theorem State.unserved_valid (ev : EvB) (hg : g < 4) : (s.unserved g ev).flag (svcValid g) = false := by
  have hfit := (svc_fits hg).1
  have hkeep : (s.unserved g ev).get (svcValid g) = (({ s with ev := ev } : State).setFlag (svcValid g) false).get (svcValid g) :=
    State.get_set_apart _ _ hfit (.inr (.inl le_rfl))
  rw [State.flag, hkeep, ← State.flag, State.flag_setFlag_same _ _ _ hfit rfl]

theorem State.foldl_repend_sameBut (ns : List Nat) : s.sameBut (ns.foldl State.repend s) [.regs] :=
  (State.sameBut.refl s _).foldl fun _ _ h => (h.setFlag _ _ (by simp)).setFlag _ _ (by simp)

theorem State.foldl_repend_regsBut {ns : List Nat} (hns : ∀ n ∈ ns, n < 256) : s.regsBut (ns.foldl State.repend s) sourceFields :=
  (State.regsBut.refl s _).foldl fun _ n hn h => (h.setFlag _ (mem_sourceFields.2 ⟨n, hns n hn, .inr rfl⟩)).setFlag _
    (mem_sourceFields.2 ⟨n, hns n hn, .inl rfl⟩)

theorem State.moveSources_sameBut : s.sameBut (s.moveSources g) [.regs, .ev] := by
  obtain ⟨ev, h⟩ := s.moveSources_parts g
  rw [h]
  exact (s.unserved_sameBut g ev).trans ((State.foldl_repend_sameBut _ _).mono (by simp))

theorem State.moveSources_regsBut : s.regsBut (s.moveSources g) ([svcValid g, svc g] ++ sourceFields) := by
  obtain ⟨ev, h⟩ := s.moveSources_parts g
  rw [h]
  exact ((s.unserved_regsBut g ev).mono (by simp)).trans
    ((State.foldl_repend_regsBut _ fun _ => s.servedBy_lt g).mono (List.subset_append_right _ _))

/-- What changes lies above the watchdogs. -/
theorem State.moveSources_watchdog {f : Fld} (hf : f.fits) (hkey : f.key < 0x1C0000) : (s.moveSources g).get f = s.get f := by
  refine s.moveSources_regsBut g f hf fun x hx => ?_
  rcases List.mem_append.1 hx with hx | hx
  · have hx : x.key = 0x1C0000 := by
      rcases List.mem_pair.1 hx with rfl | rfl <;> rfl
    exact .inl (by omega)
  · exact sourceFields_apart (by omega) x hx

theorem State.moveSources_watchFields (hg : g < 4) : s.regsBut (s.moveSources g) watchFields := by
  refine (s.moveSources_regsBut g).widen fun x hx => ?_
  rcases List.mem_append.1 hx with hx | hx
  · have hwhole : Fld.whole EVT_CTRL.addr ∈ watchFields := List.mem_append_left _ (List.mem_append_right _ (by simp))
    rcases List.mem_pair.1 hx with rfl | rfl
    · exact ⟨(svc_fits hg).1, .inr hwhole⟩
    · exact ⟨(svc_fits hg).2, .inr hwhole⟩
  · refine ⟨?_, .inl (sourceFields_subset hx)⟩
    obtain ⟨n, -, rfl | rfl⟩ := mem_sourceFields.1 hx
    · exact (by decide : EVT_SRC_n.pending.fits)
    · exact (by decide : EVT_SRC_n.in_service.fits)

theorem State.moveSources_valid (hg : g < 4) : (s.moveSources g).flag (svcValid g) = false := by
  obtain ⟨ev, h⟩ := s.moveSources_parts g
  have hsources := State.foldl_repend_regsBut (s.unserved g ev) fun _ => s.servedBy_lt g
  rw [h, hsources.flag (svc_fits hg).1 (sourceFields_apart (by simp [svcValid, EVT_CTRL.svc0])), s.unserved_valid g ev hg]
end

/-! ### A watchdog expires (R439, R440) -/

/-- An expiry of guard g's watchdog is counted, with its time. -/
def State.countExpiry (s : State) (g : Nat) : State :=
  (s.inc (GRD_WATCHDOG_i.expiries.guard g)).set (GRD_WATCHDOG_i.last_expiry.guard g) (s.count / 65536)

/-- The watcher notes an expiry of guard g after those of `old`. -/
def State.noteExpiry (s : State) (g : Nat) (old : List Nat) : State :=
  { s with rep := { s.rep with expiries := Sparse.put s.rep.expiries g (s.ticks :: old) } }

/-- The watchdog of guard g expires, after the expiries `old`, and leaves the guard in state `st`. -/
def State.expired (s : State) (g : Nat) (old : List Nat) (st : Nat) : State :=
  ((s.countExpiry g).noteExpiry g old).set (GRD_WATCHDOG_i.state.guard g) st

/-- The guard's duties move to its watcher, with event 83. -/
def State.handsOver (s : State) (g : Nat) : State :=
  (s.syncWatchers.moveSources g).raiseHead 83 g (s.syncWatchers.get (GRD_WATCHDOG_i.watcher.guard g))

/-- The guard is dead, with its entry and event 5. -/
def State.guardDies (s : State) (g : Nat) : State := (s.addDefect (defectWord 8 g 0 0)).raiseHead 5 g 0

section
variable {dt g : Nat} {s : State} (hg : g < 4) (hstate : (s.pass dt).get (GRD_WATCHDOG_i.state.guard g) = 0)
  (hdue : (Sparse.find (s.pass dt).rep.restarts g).getD 0 + 1600000 ≤ (s.pass dt).ticks)
include hg hstate hdue

/-- A watchdog that is due expires, and the guard is dead where the two expiries before came within a second. -/
theorem execWatchdogExpiry_expires {old : List Nat} (hold : ((Sparse.find (s.pass dt).rep.expiries g).getD []).take 2 = old) :
    execWatchdogExpiry dt g s = .next (
      let dead := old.length == 2 && old.all fun t => decide ((s.pass dt).ticks < t + 160000000)
      let s4 := ((s.pass dt).expired g old (if dead then 3 else 1)).handsOver g
      if dead then s4.guardDies g else s4) := by
  subst hold
  refine congrArg Host.Outcome.next (if_neg ?_)
  rintro (h | h | h)
  · omega
  · exact h hstate
  · rw [usTicks] at h; omega

theorem execWatchdogExpiry_first (hnone : Sparse.find (s.pass dt).rep.expiries g = none) :
    execWatchdogExpiry dt g s = .next (((s.pass dt).expired g [] 1).handsOver g) :=
  execWatchdogExpiry_expires hg hstate hdue (old := []) (by rw [hnone]; rfl)

theorem execWatchdogExpiry_third {a b : Nat} (hfind : Sparse.find (s.pass dt).rep.expiries g = some [a, b])
    (ha : (s.pass dt).ticks < a + 160000000) (hb : (s.pass dt).ticks < b + 160000000) :
    execWatchdogExpiry dt g s = .next ((((s.pass dt).expired g [a, b] 3).handsOver g).guardDies g) := by
  have hdead : ([a, b].length == 2 && [a, b].all fun t => decide ((s.pass dt).ticks < t + 160000000)) = true := by simp [ha, hb]
  rw [execWatchdogExpiry_expires hg hstate hdue (old := [a, b]) (by rw [hfind]; rfl), hdead]
  rfl
end

section
variable (s : State) (g : Nat) (old : List Nat) (st : Nat)

theorem State.countExpiry_count : (s.countExpiry g).get (GRD_WATCHDOG_i.expiries.guard g) =
    min (2 ^ GRD_WATCHDOG_i.expiries.w - 1) (s.get (GRD_WATCHDOG_i.expiries.guard g) + 1) :=
  (State.get_set_guard_apart _ g _ (by decide) (by decide)).trans (s.get_inc_same _ 1 (Fld.guard_fits (by decide) g))

theorem State.countExpiry_watchFields (hg : g < 4) : s.regsBut (s.countExpiry g) watchFields :=
  ((State.regsBut.refl s _).setWatchdog (f := GRD_WATCHDOG_i.expiries) _ hg rfl).setWatchdog (f := GRD_WATCHDOG_i.last_expiry) _ hg rfl

@[simp] theorem State.noteExpiry_get (f : Fld) : (s.noteExpiry g old).get f = s.get f := rfl

theorem State.expired_sameBut : s.sameBut (s.expired g old st) [.regs, .rep] := by
  simp [State.sameBut, State.expired, State.noteExpiry, State.countExpiry]

theorem State.expired_expiries : Sparse.find (s.expired g old st).rep.expiries g = some (s.ticks :: old) := Sparse.find_put_same ..

theorem State.expired_state : (s.expired g old st).get (GRD_WATCHDOG_i.state.guard g) = st % 2 ^ GRD_WATCHDOG_i.state.w :=
  State.get_set_guard _ g st (by decide)

theorem State.expired_count : (s.expired g old st).get (GRD_WATCHDOG_i.expiries.guard g) =
    min (2 ^ GRD_WATCHDOG_i.expiries.w - 1) (s.get (GRD_WATCHDOG_i.expiries.guard g) + 1) := by
  rw [State.expired, State.get_set_guard_apart _ _ _ (by decide) (by decide), State.noteExpiry_get, State.countExpiry_count]

theorem State.expired_watchFields (hg : g < 4) : s.regsBut (s.expired g old st) watchFields :=
  ((s.countExpiry_watchFields g hg).rep _).setWatchdog _ hg rfl

theorem State.handsOver_sameBut : s.sameBut (s.handsOver g) [.regs, .ev] :=
  ((s.syncWatchers_sameBut.mono (by simp)).trans (s.syncWatchers.moveSources_sameBut g)).raise _ _ _ _ (by simp)

theorem State.handsOver_regsBut (hg : g < 4) : s.regsBut (s.handsOver g) watchFields :=
  (s.syncWatchers_watchFields.trans (s.syncWatchers.moveSources_watchFields g hg)).of_regs rfl

theorem State.handsOver_valid (hg : g < 4) : (s.handsOver g).flag (svcValid g) = false := s.syncWatchers.moveSources_valid g hg

theorem State.handsOver_lastEvent (hg : g < 4) :
    ((s.handsOver g).lastEvent.map fun (e : Nat × Nat × Nat) => (e.1, e.2.1)) = some (83, g) := by
  rw [State.handsOver, State.raiseHead_lastEvent, Option.map_some, Nat.mod_eq_of_lt (hg.trans (by decide))]

/-- The watchdogs keep all but their watchers. -/
theorem State.handsOver_watchdog {f : Fld} (hg : g < 4) (hf : f.fits) (hkey : f.key = GRD_WATCHDOG_i.state.key)
    (hbits : f.lo + f.w ≤ 56 ∨ 58 ≤ f.lo) : (s.handsOver g).get (f.guard g) = s.get (f.guard g) := by
  have hlt : (f.guard g).key < 0x1C0000 := by simp only [Fld.guard, Fld.off, hkey, GRD_WATCHDOG_i.state]; omega
  exact (s.syncWatchers.moveSources_watchdog g (Fld.guard_fits hf g) hlt).trans
    (s.syncWatchers_regsBut _ (Fld.guard_fits hf g) (watcherFields_apart hbits))
end

/-- What an expiry changes in any case. -/
theorem State.expiry_effect (s : State) {g : Nat} (old : List Nat) (st : Nat) (hg : g < 4) :
    let t := (s.expired g old st).handsOver g
    t.get (GRD_WATCHDOG_i.state.guard g) = st % 2 ^ GRD_WATCHDOG_i.state.w
      ∧ t.get (GRD_WATCHDOG_i.expiries.guard g) = min (2 ^ GRD_WATCHDOG_i.expiries.w - 1) (s.get (GRD_WATCHDOG_i.expiries.guard g) + 1)
      ∧ t.rep = (s.expired g old st).rep ∧ s.sameBut t [.regs, .ev, .rep] ∧ s.regsBut t watchFields := by
  intro t
  have hkept := (s.expired g old st).handsOver_sameBut g
  refine ⟨?_, ?_, State.sameBut_iff.1 hkept .rep (by decide), ?_, ?_⟩
  · exact (State.handsOver_watchdog _ g (f := GRD_WATCHDOG_i.state) hg (by decide) rfl (by decide)).trans (s.expired_state g old st)
  · exact (State.handsOver_watchdog _ g (f := GRD_WATCHDOG_i.expiries) hg (by decide) rfl (by decide)).trans (s.expired_count g old st)
  · exact ((s.expired_sameBut g old st).mono (by simp)).trans (hkept.mono (by simp))
  · exact (s.expired_watchFields g old st hg).trans ((s.expired g old st).handsOver_regsBut g hg)

/-- A guard's death leaves its watchdog's state. -/
theorem State.guardDies_effect {s : State} {g : Nat} (hg : g < 4) (hroom : s.sbx.store.length < 4096) :
    (s.guardDies g).get (GRD_WATCHDOG_i.state.guard g) = s.get (GRD_WATCHDOG_i.state.guard g)
      ∧ defectWord 8 g 0 0 ∈ (s.guardDies g).rep.defects ∧ (s.guardDies g).lastEvent = some (5, g, 0)
      ∧ s.sameBut (s.guardDies g) [.regs, .ev, .sbx, .rep] ∧ s.regsBut (s.guardDies g) [HEAD_DEFECT_INDEX.entries] := by
  obtain ⟨hdefects, -, -, hregs⟩ := State.addDefect_room_effect (defectWord 8 g 0 0) hroom
  have hindex : HEAD_DEFECT_INDEX.entries.apart (GRD_WATCHDOG_i.state.guard g) :=
    .inl (Nat.ne_of_lt (Nat.lt_of_lt_of_le (by decide) (Nat.le_add_right GRD_WATCHDOG_i.state.key (8 * g))))
  refine ⟨?_, ?_, ?_, (s.addDefect_sameBut _).raise 5 (coordHead 5) g 0 (by simp), hregs.of_regs rfl⟩
  · exact hregs _ (Fld.guard_fits (by decide) g) fun x hx => List.mem_singleton.1 hx ▸ hindex
  · exact hdefects.symm ▸ List.mem_append_right _ (by simp)
  · rw [State.guardDies, State.raiseHead_lastEvent, Nat.mod_eq_of_lt (hg.trans (by decide)), Nat.zero_mod]

/-! ### A guard runs again (R439) -/

/-- Guard g runs with its watchdog restarted, before its watcher is chosen again. -/
def State.restarted (s : State) (g : Nat) : State :=
  { s.set (GRD_WATCHDOG_i.state.guard g) 0 with rep := { s.rep with restarts := Sparse.put s.rep.restarts g s.ticks } }

/-- A guard runs, its watchdog restarted, and takes its duties back. -/
theorem State.guardRuns_effect {s : State} {g from_ : Nat} (hg : g < 4) (hstate : s.get (GRD_WATCHDOG_i.state.guard g) = from_) :
    (s.guardRuns g from_).get (GRD_WATCHDOG_i.state.guard g) = 0 ∧ Sparse.find (s.guardRuns g from_).rep.restarts g = some s.ticks
      ∧ (s.guardRuns g from_).mem = s.mem ∧ (s.guardRuns g from_).ev = s.ev ∧ s.sameBut (s.guardRuns g from_) [.regs, .rep]
      ∧ s.regsBut (s.guardRuns g from_) watchFields := by
  have hrun : s.guardRuns g from_ = (s.restarted g).syncWatchers := if_pos ⟨hg, hstate⟩
  rw [hrun]
  have hwatch := (s.restarted g).syncWatchers_sameBut
  have hsame : s.sameBut (s.restarted g).syncWatchers [.regs, .rep] :=
    (((State.sameBut.refl s _).set _ _ (by simp)).rep _ (by simp)).trans (hwatch.mono (by simp))
  have hrep : (s.restarted g).syncWatchers.rep = (s.restarted g).rep := State.sameBut_iff.1 hwatch .rep (by decide)
  refine ⟨?_, hrep ▸ Sparse.find_put_same .., State.sameBut_iff.1 hsame .mem (by decide), State.sameBut_iff.1 hsame .ev (by decide), hsame,
    (((State.regsBut.refl s _).setWatchdog 0 hg rfl).rep _).trans (s.restarted g).syncWatchers_watchFields⟩
  have hkeep := (s.restarted g).syncWatchers_regsBut (GRD_WATCHDOG_i.state.guard g) (Fld.guard_fits (by decide) g)
    (watcherFields_apart (f := GRD_WATCHDOG_i.state.guard g) (.inr (by decide : 58 ≤ 62)))
  exact hkeep.trans (s.get_set_guard g 0 (by decide))

/-! ### The statement -/

/-- Settles O37: an expiry is noted and hands the guard's work on, with a defect-map entry and event 5 where two within a second came
before, and a guard that runs again restarts its watchdog. -/
theorem watchdogs : Obligations.Watchdogs := by
  unfold Obligations.Watchdogs
  refine ⟨?_, ?_, ?_, ?_, ?_, ?_⟩
  · rintro dt g s _ rfl hg hstate
    exact ⟨_, congrArg Host.Outcome.next (if_pos ⟨hg, hstate⟩), Sparse.find_put_same .., rfl, rfl,
      (State.sameBut.refl _ _).rep _ (by simp)⟩
  · rintro dt g s _ rfl hg hstate hdue hnone
    obtain ⟨hreset, hcount, hrep, hsame, hregs⟩ := (s.pass dt).expiry_effect [] 1 hg
    refine ⟨_, execWatchdogExpiry_first hg hstate hdue hnone, hreset, hcount, ?_, State.handsOver_lastEvent _ g hg,
      State.handsOver_valid _ g hg, State.mem_of_sameBut hsame (by decide), hsame, hregs⟩
    exact (congrArg (fun r : RepB => Sparse.find r.expiries g) hrep).trans ((s.pass dt).expired_expiries g [] 1)
  · rintro dt g a b s _ rfl hg hstate hdue hfind ha hb hroom
    obtain ⟨hthird, -, -, hexpired, hwatch⟩ := (s.pass dt).expiry_effect [a, b] 3 hg
    have hstore : (((s.pass dt).expired g [a, b] 3).handsOver g).sbx = (s.pass dt).sbx := State.sameBut_iff.1 hexpired .sbx (by decide)
    obtain ⟨hkept, hentry, hevent, hdies, hregs⟩ := State.guardDies_effect hg (hstore ▸ hroom)
    have hsame := (hexpired.mono (by simp)).trans hdies
    exact ⟨_, execWatchdogExpiry_third hg hstate hdue hfind ha hb, hkept.trans hthird, hentry, hevent,
      State.mem_of_sameBut hsame (by decide), hsame, (hwatch.mono (List.subset_append_right _ _)).trans (hregs.mono (by simp))⟩
  · rintro dt g s _ rfl hg hstate
    exact ⟨_, rfl, State.guardRuns_effect hg hstate⟩
  · rintro dt g s _ rfl hg hstate
    exact ⟨_, congrArg Host.Outcome.next (if_pos ⟨hg, hstate⟩), State.get_set_guard _ g 2 (by decide), rfl, rfl, rfl,
      (State.sameBut.refl _ _).set _ _ (by simp), (State.regsBut.refl _ _).setWatchdog _ hg rfl⟩
  · rintro dt g s _ rfl hg hstate
    exact ⟨_, rfl, State.guardRuns_effect hg hstate⟩

end Sys2Proof.Machine
end

section
/-! PROOFS. The rail buses (R447, R448, R449): the words of a transaction, the requests that are sent, and what an answer or a failure
changes. -/

set_option Elab.async false

namespace Sys2Proof.Machine

/-! ### The words of a bus (R447) -/

theorem crc8_lt (v : Nat) : crc8 v < 256 := by
  refine List.foldlRecOn (motive := (· < 256)) _ _ (by decide) fun c _ i _ => ?_
  have hshift : c * 2 % 256 < 2 ^ 8 := Nat.mod_lt _ (by decide)
  exact Nat.xor_lt_two_pow hshift (by split <;> decide)

section
variable (rail op data : Nat)

theorem railWord_check : crc8 (railWord rail op data / 256) = railWord rail op data % 256 := by
  have hcrc := crc8_lt (rail * 2 ^ 24 + op * 2 ^ 20 + data % 65536 * 2 ^ 4)
  have hbody : railWord rail op data / 256 = rail * 2 ^ 24 + op * 2 ^ 20 + data % 65536 * 2 ^ 4 := by
    simp only [railWord]
    omega
  rw [hbody]
  simp only [railWord]
  omega

theorem bits_railWord_data : bits (railWord rail op data) 12 16 = data % 65536 := by
  have hcrc := crc8_lt (rail * 2 ^ 24 + op * 2 ^ 20 + data % 65536 * 2 ^ 4)
  simp only [bits, railWord]
  omega

variable {op} (hop : op < 16)
include hop

theorem bits_railWord_op : bits (railWord rail op data) 28 4 = op := by
  have hcrc := crc8_lt (rail * 2 ^ 24 + op * 2 ^ 20 + data % 65536 * 2 ^ 4)
  simp only [bits, railWord]
  omega

theorem bits_railWord_rail : bits (railWord rail op data) 32 8 = rail % 256 := by
  have hcrc := crc8_lt (rail * 2 ^ 24 + op * 2 ^ 20 + data % 65536 * 2 ^ 4)
  simp only [bits, railWord]
  omega
end

/-! ### Requests (R448) -/

/-- Requests join the end of the queue of the buses. -/
def State.railAsked (s : State) (l : List Nat) : State := { s with pwr := { s.pwr with bus := s.pwr.bus ++ l } }

@[simp] theorem State.railAsked_extest (s : State) (l : List Nat) : (s.railAsked l).extest = s.extest := rfl

theorem State.railAsked_railAsked (s : State) (l m : List Nat) : (s.railAsked l).railAsked m = s.railAsked (l ++ m) := by
  simp only [State.railAsked, List.append_assoc]

theorem State.railAsked_sameBut (s : State) (l : List Nat) : s.sameBut (s.railAsked l) [.pwr] := (State.sameBut.refl s _).pwr _ (by simp)

/-- Outside EXTEST a request that sets no voltage is queued, and no more. -/
theorem State.sendRail_asks {s : State} {op : Nat} (rail data : Nat) (hopen : s.extest = false) (hop : op ≠ 1) :
    s.sendRail rail op data = s.railAsked [railWord rail op data] := by
  rw [State.sendRail, hopen]
  exact if_neg hop

/-- Several rails are asked for their status in turn. -/
theorem State.foldl_sendRail_status {s : State} (rails : List Nat) (hopen : s.extest = false) :
    rails.foldl (fun t r => t.sendRail r 4 0) s = s.railAsked (rails.map fun r => railWord r 4 0) := by
  induction rails generalizing s with
  | nil => simp [State.railAsked]
  | cons r rails ih =>
    rw [List.foldl_cons, State.sendRail_asks r 0 hopen (by decide), ih (by simp [hopen]), State.railAsked_railAsked]
    rfl

/-! ### Responses (R448) -/

/-- The request that a response answers leaves the queue. -/
def State.railTaken (s : State) (q : Nat) : State := { s with pwr := { s.pwr with bus := s.pwr.bus.erase q } }

theorem State.railTaken_sameBut (s : State) (q : Nat) : s.sameBut (s.railTaken q) [.pwr] := (State.sameBut.refl s _).pwr _ (by simp)

section
variable {dt : Nat} {r : Resp} {s : State} (hbus : (s.pass dt).pwr.bus.contains r.req = true)
include hbus

/-- A good response tells what its request asked for. -/
theorem execRailBusResponse_good (hcheck : crc8 (r.rsp / 256) = r.rsp % 256) (hrail : bits r.rsp 32 8 = bits r.req 32 8)
    (hack : bits r.rsp 28 4 = 0) : execRailBusResponse dt r s =
      .next ((((s.pass dt).railTaken r.req).railDone (bits r.req 32 8)).railAnswer (bits r.req 32 8) (bits r.req 28 4)
        (bits r.rsp 12 16)) := by
  have hgood : ¬(crc8 (r.rsp / 256) ≠ r.rsp % 256 ∨ bits r.rsp 32 8 ≠ bits r.req 32 8) := by simp [hcheck, hrail]
  exact congrArg Host.Outcome.next ((if_pos hbus).trans ((if_neg hgood).trans (if_pos hack)))

/-- One whose check fails is a failure of the transaction. -/
theorem execRailBusResponse_bad (hcheck : crc8 (r.rsp / 256) ≠ r.rsp % 256) :
    execRailBusResponse dt r s = .next (((s.pass dt).railTaken r.req).railFailed (bits r.req 32 8) r.req) :=
  congrArg Host.Outcome.next ((if_pos hbus).trans (if_pos (.inl hcheck)))
end

/-- The first failure in a row is counted, and the request is sent again. -/
theorem State.railFailed_first {s : State} {n : Nat} (q : Nat) (h : Sparse.find s.pwr.failures n = none) : s.railFailed n q =
    { s with pwr := { s.pwr with failures := Sparse.put s.pwr.failures n 1, bus := s.pwr.bus ++ [q] } } := by
  simp [State.railFailed, h]

/-- The third is reported. -/
theorem State.railFailed_third {s : State} {n : Nat} (q : Nat) (h : Sparse.find s.pwr.failures n = some 2) : s.railFailed n q =
    (({ s with pwr := { s.pwr with failures := Sparse.drop s.pwr.failures n, asked := none, answered := none } } : State).setFlag
      (PWR_RAIL_STATUS.bus_fault.ix n) true).raiseHead 20 n 0 := by
  simp [State.railFailed, h]

/-- The fields of a rail's status that its transactions may change (R471). -/
def railFields (n : Nat) : List Fld :=
  [PWR_RAIL_STATUS.bus_fault.ix n, PWR_RAIL_STATUS.current.ix n, PWR_RAIL_STATUS.set_mv.ix n, PWR_RAIL_STATUS.read_mv.ix n]

theorem busFault_fits (n : Nat) : (PWR_RAIL_STATUS.bus_fault.ix n).fits := (by decide : PWR_RAIL_STATUS.bus_fault.fits)

/-- A good answer to READ_V gives the voltage, and the bus of the rail works. -/
theorem State.voltageRead_effect (s : State) (n : Nat) {v : Nat} (hv : v < 4096) :
    let t := (s.railDone n).railAnswer n 2 v
    t.get (PWR_RAIL_STATUS.read_mv.ix n) = v ∧ t.flag (PWR_RAIL_STATUS.bus_fault.ix n) = false ∧ t.pwr.bus = s.pwr.bus
      ∧ s.sameBut t [.regs, .pwr] ∧ s.regsBut t (railFields n) := by
  intro t
  have hread : (PWR_RAIL_STATUS.read_mv.ix n).fits := (by decide : PWR_RAIL_STATUS.read_mv.fits)
  have hapart : (PWR_RAIL_STATUS.read_mv.ix n).apart (PWR_RAIL_STATUS.bus_fault.ix n) := .inr (.inl (by decide : 0 + 12 ≤ 57))
  have hclear : (s.railDone n).get (PWR_RAIL_STATUS.bus_fault.ix n) = 0 := State.get_setFlag_same _ _ false (busFault_fits n) rfl
  refine ⟨?_, ?_, rfl, ?_, ?_⟩
  · exact (State.get_set_same _ _ v hread).trans (Nat.mod_eq_of_lt hv)
  · exact congrArg (· != 0) ((State.get_set_apart (s.railDone n) v (busFault_fits n) hapart).trans hclear)
  · exact (((State.sameBut.refl s _).pwr _ (by simp)).setFlag _ _ (by simp)).set _ _ (by simp)
  · exact (((State.regsBut_of_regs (t := { s with pwr := { s.pwr with failures := Sparse.drop s.pwr.failures n } }) rfl _).setFlag _
      (by simp [railFields])).set _ (by simp [railFields]))

/-- The third failure in a row sets `bus_fault` and raises RAIL_FAULT. -/
theorem State.railFailed_third_effect {s : State} {n : Nat} (q : Nat) (hn : n < 256) (h : Sparse.find s.pwr.failures n = some 2) :
    let t := s.railFailed n q
    t.pwr.bus = s.pwr.bus ∧ t.flag (PWR_RAIL_STATUS.bus_fault.ix n) = true ∧ t.lastEvent = some (20, n, 0)
      ∧ s.sameBut t [.regs, .ev, .pwr] ∧ s.regsBut t (railFields n) := by
  rw [State.railFailed_third q h]
  refine ⟨rfl, ?_, ?_, ?_, ?_⟩
  · exact State.flag_setFlag_same _ _ true (busFault_fits n) rfl
  · rw [State.raiseHead_lastEvent, Nat.mod_eq_of_lt (hn.trans (by decide)), Nat.zero_mod]
  · exact (((State.sameBut.refl s _).pwr _ (by simp)).setFlag _ _ (by simp)).raise _ _ _ _ (by simp)
  · exact ((State.regsBut_of_regs (t := { s with pwr := { s.pwr with
      failures := Sparse.drop s.pwr.failures n, asked := none, answered := none } }) rfl _).setFlag _ (by simp [railFields])).of_regs rfl

/-! ### Set points (R449) -/

/-- 100 microseconds after the answer to the last set point the step it was for counts as settled. -/
theorem execSetPointSettled_due {dt a w : Nat} {s : State} (hasked : (s.pass dt).pwr.asked = some w)
    (hanswered : (s.pass dt).pwr.answered = some a) (hdue : a + 16000 ≤ (s.pass dt).ticks) : execSetPointSettled dt s = .next
    { s.pass dt with
      turn := { (s.pass dt).turn with settled := w }
      pwr := { (s.pass dt).pwr with asked := none, answered := none } } := by
  simp only [execSetPointSettled, hasked, hanswered]
  exact congrArg Host.Outcome.next (if_pos hdue)

/-! ### The statement -/

/-- Settles O38: a good response is `railAnswer` after `railDone`, a failed one `railFailed`, at the first and at the third failure in a
row, and alerts and polls queue their requests. -/
theorem railTransactions : Obligations.RailTransactions := by
  unfold Obligations.RailTransactions
  refine ⟨?_, ?_, ?_, ?_, ?_, ?_⟩
  · rintro dt a w s _ rfl hasked hanswered hdue
    exact ⟨_, execSetPointSettled_due hasked hanswered hdue, rfl, rfl, rfl, rfl, rfl, by simp [State.sameBut]⟩
  · rintro dt ⟨q, a⟩ n v s _ rfl hbus rfl rfl hn hv
    have hrail (op data : Nat) (hop : op < 16) : bits (railWord n op data) 32 8 = n :=
      (bits_railWord_rail n data hop).trans (Nat.mod_eq_of_lt (by omega))
    have hexec := execRailBusResponse_good hbus (railWord_check ..) ((hrail 0 v (by decide)).trans (hrail 2 0 (by decide)).symm)
      (bits_railWord_op n v (by decide))
    rw [hrail 2 0 (by decide), bits_railWord_op n 0 (by decide), bits_railWord_data, Nat.mod_eq_of_lt (by omega)] at hexec
    obtain ⟨hread, hfault, htaken, hsame, hregs⟩ := ((s.pass dt).railTaken (railWord n 2 0)).voltageRead_effect n hv
    have hframe := (((s.pass dt).railTaken_sameBut (railWord n 2 0)).mono (by simp)).trans hsame
    exact ⟨_, hexec, hread, hfault, htaken, State.mem_of_sameBut hframe (by decide), State.sameBut_iff.1 hframe .ev (by decide), hframe,
      (State.regsBut_of_regs rfl _).trans hregs⟩
  · rintro dt r _ s _ rfl hbus rfl hcheck hnone
    have hexec := execRailBusResponse_bad hbus hcheck
    rw [State.railFailed_first (s := (s.pass dt).railTaken r.req) r.req hnone] at hexec
    exact ⟨_, hexec, rfl, Sparse.find_put_same .., rfl, rfl, rfl, (State.sameBut.refl _ _).pwr _ (by simp)⟩
  · rintro dt r _ s _ rfl hbus rfl hcheck htwo
    obtain ⟨htaken, hfault, hevent, hsame, hregs⟩ :=
      State.railFailed_third_effect (s := (s.pass dt).railTaken r.req) r.req (Nat.mod_lt _ (by decide)) htwo
    have hframe := (((s.pass dt).railTaken_sameBut r.req).mono (by simp)).trans hsame
    exact ⟨_, execRailBusResponse_bad hbus hcheck, htaken, hfault, hevent, State.mem_of_sameBut hframe (by decide), hframe,
      (State.regsBut_of_regs rfl _).trans hregs⟩
  · rintro dt bus s _ rfl hopen
    have hexec : exec (.railAlert dt bus) s = .next ((s.pass dt).railAsked _) :=
      congrArg Host.Outcome.next ((if_neg (ne_true_of_eq_false hopen)).trans (State.foldl_sendRail_status _ hopen))
    exact ⟨_, hexec, rfl, rfl, rfl, State.railAsked_sameBut ..⟩
  · rintro dt n s _ rfl hopen hn
    have hsent : ((((s.pass dt).sendRail n 4 0).sendRail n 2 0).sendRail n 3 0) =
        (s.pass dt).railAsked [railWord n 4 0, railWord n 2 0, railWord n 3 0] := by
      simp [State.sendRail_asks, State.railAsked_railAsked, hopen]
    have hpoll : ¬((s.pass dt).busSuspended = true ∨ 0xB5 ≤ n) := not_or.2 ⟨ne_true_of_eq_false hopen, not_le.2 hn⟩
    have hexec : exec (.railStatusPoll dt n) s = .next ((s.pass dt).railAsked _) :=
      congrArg Host.Outcome.next ((if_neg hpoll).trans hsent)
    exact ⟨_, hexec, rfl, rfl, rfl, State.railAsked_sameBut ..⟩

end Sys2Proof.Machine
end

section
/-! PROOFS. The POWER hold (R459): a release while the plan is still exceeded. -/

set_option Elab.async false

namespace Sys2Proof.Machine

/-- While the watts exceed the budget, and before 64 spokes have passed, a POWER hold stays: only the average is noted (R459). -/
theorem execPowerHoldRelease_exceeded {dt w a : Nat} {s : State} (hat : (s.pass dt).pwr.holdAt = some a)
    (hover : (s.pass dt).get PWR_PLAN.budget < w) (hearly : (s.pass dt).spoke < a + 64) :
    exec (.powerHoldRelease dt w) s = .next ((s.pass dt).set PWR_GOV.avg_power ((s.pass dt).averagePower w)) := by
  have hregs : (s.pass dt).regsBut ((s.pass dt).set PWR_GOV.avg_power ((s.pass dt).averagePower w)) [PWR_GOV.avg_power] :=
    (State.regsBut.refl _ _).set _ (by simp)
  have hbudget := hregs PWR_PLAN.budget (by decide) (by decide)
  have hspoke : ((s.pass dt).set PWR_GOV.avg_power ((s.pass dt).averagePower w)).spoke = (s.pass dt).spoke :=
    congrArg (· / 8) (hregs.count (by decide))
  have hmore : w ≤ (s.pass dt).averagePower w := Nat.le_add_right _ _
  simp only [exec, execPowerHoldRelease, State.set_pwr, hat, hbudget, hspoke]
  exact congrArg Host.Outcome.next (if_neg (by omega))

/-- The image of `fillState` runs in spoke 500 with a budget of 20,000 W and the POWER hold that was raised in spoke 492. -/
def exceededPlanState : State :=
  { (fillState.set HEAD_AXLE_COUNT.count 4000).set PWR_PLAN.budget 20000 with
    turn := { holds := [⟨1, 4, 492, none, none, 0, none⟩], nextHold := 2 }
    pwr := { holdAt := some 492 } }

/-- Refutes O39: its seventh clause lets every POWER hold end eight spokes after its raise. While the average that is reported, here
20,001 W, exceeds the plan's budget, a condition of R459 holds, and the hold stays until 64 spokes have passed. -/
theorem not_droopsAndPower : ¬ Obligations.DroopsAndPower := by
  unfold Obligations.DroopsAndPower
  rintro ⟨-, -, -, -, -, -, hrelease, -⟩
  have hat : (exceededPlanState.pass 0).pwr.holdAt = some 492 := by decide +kernel
  have hholding : (exceededPlanState.pass 0).holding 4 = true := by decide +kernel
  have hdue : 492 + 8 ≤ (exceededPlanState.pass 0).spoke := by decide +kernel
  have hearly : (exceededPlanState.pass 0).spoke < 492 + 64 := by decide +kernel
  have hover : (exceededPlanState.pass 0).get PWR_PLAN.budget < 20001 := by decide +kernel
  obtain ⟨t, ht, -, -, hnone, -⟩ := hrelease 0 20001 492 exceededPlanState _ rfl hat hholding hdue (by decide)
  have hnext := Host.Outcome.next.inj ((execPowerHoldRelease_exceeded hat hover hearly).symm.trans ht)
  rw [← hnext, State.set_pwr, hat] at hnone
  exact absurd hnone (by decide)

end Sys2Proof.Machine
end

section
/-! PROOFS. The idle boundary (R78, R81, R581): a shadow that `hold` defers. -/

set_option Elab.async false

namespace Sys2Proof.Machine

theorem State.applyCoachOn_turn (s : State) (v : Nat) : (s.applyCoachOn v).turn = s.turn := by
  have hopen : s.sameBut (s.applyCoachOn v) openParts :=
    (((State.sameBut.refl s _).set _ _ (by decide)).foldl fun t c h =>
      State.sameBut.ite (h.trans (t.openCoach_sameBut c 0)) h).pwr _ (by decide)
  exact State.sameBut_iff.1 hopen .turn (by decide)

theorem State.startCoaches_turn (s : State) (drew : List (Nat × Nat)) : (s.startCoaches drew).turn = s.turn := by
  have hstart : s.sameBut (s.startCoaches drew) [.regs, .pwr] := by
    refine ((State.sameBut.refl s _).pwr _ (by simp)).foldl fun t c h => State.sameBut.ite (State.sameBut.pwr ?_ _ (by simp)) h
    exact h.foldl fun u d h => State.sameBut.ite h ((h.set _ _ (by simp)).set _ _ (by simp))
  exact State.sameBut_iff.1 hstart .turn (by decide)

theorem State.stopLink_sameBut (s : State) (m q : Nat) : s.sameBut (s.stopLink m q) [.regs] := by
  unfold State.stopLink
  split <;> simp [State.sameBut]

theorem State.markFailed_sameBut (s : State) (m q : Nat) : s.sameBut (s.markFailed m q) [.regs] := by
  unfold State.markFailed
  refine State.sameBut.trans (State.sameBut.set ?_ _ _ (by simp)) (State.stopLink_sameBut _ m q)
  split <;> simp [State.sameBut]

theorem State.failStopped_turn (s : State) : s.failStopped.turn = s.turn := by
  have hports : s.sameBut s.failStopped [.regs, .ev, .sbx, .net, .rep] := by
    refine State.sameBut.foldl (by simp [State.sameBut]) fun t p h => ?_
    exact (h.trans ((t.markFailed_sameBut p.1 p.2).mono (by simp))).trans ((State.addDefect_sameBut _ _).mono (by simp))
  exact State.sameBut_iff.1 hports .turn (by decide)

/-- At an idle boundary at which no shadow is due, the shadows stay. -/
theorem execIdleBoundary_early {dt : Nat} {drew : List (Nat × Nat)} {s : State} (hidle : (s.pass dt).running = false)
    (hcount : (s.pass dt).count % 64 = 0) (hdue : (s.pass dt).dueShadows (s.pass dt).ticks = []) :
    ∃ t, exec (.idleBoundary dt drew) s = .next t ∧ t.turn.shadows = (s.pass dt).turn.shadows := by
  refine ⟨_, congrArg Host.Outcome.next (if_pos ⟨by simp [hidle], hcount⟩), ?_⟩
  rw [State.failStopped_turn, State.startCoaches_turn, State.applyCoachOn_turn, hdue]
  exact List.filter_eq_self.2 fun _ _ => rfl

/-- The tick at which an idle boundary begins, with a coach power-on shadow that the host wrote at tick 5 and, in the tick of the boundary
itself, the host's write of 0 to `hold`. -/
def releasedHoldState : State :=
  ({ State.reset.setFlag HEAD_SWAP_CTRL.hold true with
    ticks := 64
    turn := { shadows := [⟨.coachOn, true, 5, 1⟩] } } : State).writeHold false

/-- Refutes O40: its last clause asks of `hold` only that it reads 0. A write of 0 in the tick in which the boundary's spoke begins comes
after that boundary (R78): `hold` stood at 1 when the spoke began, and the shadow waits for the next idle boundary (R81). -/
theorem not_coachPowerUp : ¬ Obligations.CoachPowerUp := by
  unfold Obligations.CoachPowerUp
  rintro ⟨-, -, -, -, hboundary⟩
  have hidle : (releasedHoldState.pass 0).running = false := by decide +kernel
  have hcount : (releasedHoldState.pass 0).count % 64 = 0 := by decide +kernel
  have hshadows : (releasedHoldState.pass 0).turn.shadows = [⟨.coachOn, true, 5, 1⟩] := by decide +kernel
  have hticks : 5 < (releasedHoldState.pass 0).ticks := by decide +kernel
  have hhold : (releasedHoldState.pass 0).flag HEAD_SWAP_CTRL.hold = false := by decide +kernel
  have hisolated : (releasedHoldState.pass 0).rep.isolated = [] := by decide +kernel
  have hactive : (releasedHoldState.pass 0).get PWR_COACH_ACTIVE.on = 0 := by decide +kernel
  have hdue : (releasedHoldState.pass 0).dueShadows (releasedHoldState.pass 0).ticks = [] := by decide +kernel
  obtain ⟨t, ht, hnone, -⟩ :=
    hboundary 0 [] 5 1 releasedHoldState _ rfl hidle hcount hshadows hticks hhold (by decide) hisolated hactive
  obtain ⟨u, hu, hkept⟩ := execIdleBoundary_early (drew := []) hidle hcount hdue
  cases hu.symm.trans ht
  rw [hnone, hshadows] at hkept
  exact absurd hkept (by decide)

end Sys2Proof.Machine
end

section
/-! PROOFS. The test access port (R568 to R574): what loading an instruction leaves, the selections of the analogue test bus, and what no
command but a production instruction is refused for. -/

set_option Elab.async false

namespace Sys2Proof.Machine

/-! ### Frames of start-up, test access and temperature -/

section
variable {s t : State} {l : List Part} (h : s.sameBut t l)
include h

theorem State.sameBut.boot (b : BootB) (hl : Part.boot ∈ l) : s.sameBut { t with boot := b } l := h.trans (by simp [State.sameBut, hl])

theorem State.sameBut.thm (x : ThmB) (hl : Part.thm ∈ l) : s.sameBut { t with thm := x } l := h.trans (by simp [State.sameBut, hl])
end

theorem State.ev_of_sameBut {s t : State} {l : List Part} (h : s.sameBut t l) (hl : Part.ev ∉ l) : t.ev = s.ev := by
  obtain ⟨-, -, -, -, -, -, -, hev, -⟩ := h
  exact hev.resolve_left hl

/-! ### Loading an instruction (R568) -/

/-- The port with an instruction loaded; one that replaces EXTEST leaves the rails to be read (R570). -/
def State.tapLoaded (s : State) (code : Nat) : State :=
  { s with boot := { s.boot with tapInstr := code, extestEnded := s.boot.extestEnded || (s.extest && code != 0) } }

theorem State.loadTap_on {s : State} (h : s.boot.pwrgood = true) (code : Nat) (f : State → State) :
    s.loadTap code f = f (s.tapLoaded code) := if_pos h

theorem State.tapLoaded_sameBut (s : State) (code : Nat) : s.sameBut (s.tapLoaded code) [.boot] :=
  (State.sameBut.refl s _).boot _ (by simp)

theorem State.capture_sameBut (s : State) (v : Nat) : s.sameBut (s.capture v) [.boot] := (State.sameBut.refl s _).boot _ (by simp)

/-- With EXTEST loaded, it is in effect while `debug` is 1 and no image is loaded. -/
theorem State.tapLoaded_extest (s : State) :
    (s.tapLoaded 0).extest = (s.flag SBX_POLICY.debug && s.get HEAD_IMAGE_STATUS.state == 0) := rfl

/-- The boundary register captures the levels at the contacts and drives the cells that were shifted in. -/
def State.driven (s : State) (pins cells : List Bool) : State :=
  { s with boot := { s.boot with tapData := cellBits pins, boundary := cells } }

theorem State.driven_sameBut (s : State) (pins cells : List Bool) : s.sameBut (s.driven pins cells) [.boot] :=
  (State.sameBut.refl s _).boot _ (by simp)

section
variable {dt : Nat} {pins cells : List Bool} {s : State} (hpwr : (s.pass dt).boot.pwrgood = true)
include hpwr

theorem execExtest_driven (h : ((s.pass dt).tapLoaded 0).extest = true) :
    exec (.extest dt pins cells) s = .next (((s.pass dt).tapLoaded 0).driven pins cells) :=
  congrArg Host.Outcome.next ((State.loadTap_on hpwr ..).trans (if_pos h))

theorem execExtest_bypass (h : ((s.pass dt).tapLoaded 0).extest = false) :
    exec (.extest dt pins cells) s = .next (((s.pass dt).tapLoaded 0).capture 0) :=
  congrArg Host.Outcome.next ((State.loadTap_on hpwr ..).trans (if_neg (ne_true_of_eq_false h)))

/-- With codes 0x20 to 0xFE the port acts as BYPASS while `debug` is 0. -/
theorem execProductionInstruction_bypass {code : Nat} (hlo : 0x20 ≤ code) (hhi : code ≤ 0xFE)
    (hdebug : (s.pass dt).flag SBX_POLICY.debug = false) :
    exec (.productionInstruction dt code) s = .next (((s.pass dt).tapLoaded code).capture 0) := by
  have hcode : ¬(code < 0x20 ∨ 0xFE < code ∨ (!(s.pass dt).boot.pwrgood) = true) := by simp [hpwr]; omega
  exact (if_neg hcode).trans ((if_neg (ne_true_of_eq_false hdebug)).trans (congrArg Host.Outcome.next (State.loadTap_on hpwr ..)))

/-- While `debug` is 1 it is refused. -/
theorem execProductionInstruction_refused {code : Nat} (hlo : 0x20 ≤ code) (hhi : code ≤ 0xFE)
    (hdebug : (s.pass dt).flag SBX_POLICY.debug = true) :
    exec (.productionInstruction dt code) s = .refused .productionInstruction := by
  have hcode : ¬(code < 0x20 ∨ 0xFE < code ∨ (!(s.pass dt).boot.pwrgood) = true) := by simp [hpwr]; omega
  exact (if_neg hcode).trans (if_pos hdebug)
end

/-- A code that is none, or a port without power, leaves the state as time left it. -/
theorem execProductionInstruction_idle {dt code : Nat} {s : State}
    (h : code < 0x20 ∨ 0xFE < code ∨ (!(s.pass dt).boot.pwrgood) = true) :
    exec (.productionInstruction dt code) s = .next (s.pass dt) := if_pos h

/-! ### STATUS_READ (R569) -/

/-- A register whose Reset column is a word holds a word. -/
theorem State.reg_lt (s : State) {k : Nat} (h : regDefault k < 2 ^ 64) : s.reg k < 2 ^ 64 := by
  unfold State.reg
  split
  · exact BitVec.isLt _
  · exact h

/-- Settles O6: the two registers stand side by side in the data register. -/
theorem statusRead : Obligations.StatusRead := by
  unfold Obligations.StatusRead
  rintro dt s _ rfl hpwr
  have hsbx : (s.pass dt).reg SBX_STATUS.addr < 2 ^ 64 := State.reg_lt _ (by decide)
  refine ⟨_, congrArg Host.Outcome.next (State.loadTap_on hpwr ..), rfl, ?_, add_mul_two_pow_div hsbx _, rfl, rfl,
    (State.tapLoaded_sameBut _ _).trans (State.capture_sameBut _ _)⟩
  exact (Nat.add_mul_mod_self_right ..).trans (Nat.mod_eq_of_lt hsbx)

/-! ### Selections of the analogue test bus (R572, R574) -/

/-- The registers of the eight pins. -/
def pinFields : List Fld := (List.range 8).map fun i => .whole (HEAD_ATB_SEL_n.bus.pin i).key

theorem State.regsBut.setPin {s t : State} (h : s.regsBut t pinFields) {f : Fld} {n : Nat} (v : Nat) (hn : n < 8)
    (hkey : f.key = HEAD_ATB_SEL_n.bus.key) : s.regsBut (t.set (f.pin n) v) pinFields := by
  refine h.trans (t.regsBut_setReg _ ?_)
  rw [Fld.pin, Fld.off, hkey]
  exact List.mem_map_of_mem (f := fun i => Fld.whole (HEAD_ATB_SEL_n.bus.pin i).key) (List.mem_range.2 hn)

/-- From `s` to `t` only the selections of the test bus have changed, and the connections and diodes that wait. -/
structure State.Selects (s t : State) : Prop where
  parts : ∃ regs atbDue diodeDue, t = { s with regs := regs, boot := { s.boot with atbDue := atbDue, diodeDue := diodeDue } }
  regs : s.regsBut t pinFields

namespace State.Selects

variable {s t : State} {n : Nat}

theorem refl (s : State) : s.Selects s := ⟨⟨s.regs, s.boot.atbDue, s.boot.diodeDue, rfl⟩, State.regsBut.refl s _⟩

theorem due (h : s.Selects t) (a d : List (Nat × Nat)) : s.Selects { t with boot := { t.boot with atbDue := a, diodeDue := d } } := by
  obtain ⟨⟨regs, _, _, rfl⟩, hregs⟩ := h
  exact ⟨⟨regs, a, d, rfl⟩, hregs.of_regs rfl⟩

theorem setPin (h : s.Selects t) {f : Fld} (v : Nat) (hn : n < 8) (hkey : f.key = HEAD_ATB_SEL_n.bus.key) :
    s.Selects (t.set (f.pin n) v) := by
  obtain ⟨⟨_, a, d, rfl⟩, hregs⟩ := h
  exact ⟨⟨_, a, d, rfl⟩, hregs.setPin v hn hkey⟩

theorem openPin (h : s.Selects t) (hn : n < 8) : s.Selects (t.openPin n) := by
  have hopen := h.setPin (f := HEAD_ATB_SEL_n.connected) 0 hn rfl
  unfold State.openPin
  split
  · split
    · exact hopen.due _ _
    · exact hopen.due _ _
  · exact hopen.due _ _

theorem atbWrite (h : s.Selects t) (bus unit node : Nat) (hn : n < 8) : s.Selects (t.atbWrite n bus unit node) := by
  have hopen := (((h.openPin hn).setPin (f := HEAD_ATB_SEL_n.bus) bus hn rfl).setPin (f := HEAD_ATB_SEL_n.node) node hn rfl).setPin
    (f := HEAD_ATB_SEL_n.unit) unit hn rfl
  unfold State.atbWrite
  split
  · exact h.setPin _ hn rfl
  · split
    · exact h
    · dsimp only
      split
      · exact hopen
      · exact hopen.due _ _

/-- Writes of several pins in turn. -/
theorem foldl {f : State → Nat → State} {ns : List Nat} (h : s.Selects t) (hf : ∀ u, ∀ n ∈ ns, s.Selects u → s.Selects (f u n)) :
    s.Selects (ns.foldl f t) := by
  induction ns generalizing t with
  | nil => exact h
  | cons n ns ih => exact ih (hf t n (by simp) h) fun u m hm => hf u m (by simp [hm])

end State.Selects

/-- A pin whose microsecond has passed is connected. -/
def State.pinClosed (s : State) (n : Nat) : State :=
  ({ s with boot := { s.boot with atbDue := s.boot.atbDue.filter fun (x : Nat × Nat) => x.1 != n } } : State).setFlag
    (HEAD_ATB_SEL_n.connected.pin n) true

theorem State.pinClosed_effect (s : State) (n : Nat) :
    (s.pinClosed n).flag (HEAD_ATB_SEL_n.connected.pin n) = true ∧ s.sameBut (s.pinClosed n) [.regs, .boot]
      ∧ s.regsBut (s.pinClosed n) [HEAD_ATB_SEL_n.connected.pin n] :=
  ⟨State.flag_setFlag_same _ _ _ (show HEAD_ATB_SEL_n.connected.fits by decide) rfl,
    ((State.sameBut.refl s _).boot _ (by simp)).setFlag _ _ (by simp),
    (State.regsBut_of_regs rfl _).trans ((State.regsBut.refl _ _).setFlag _ (by simp))⟩

section
variable {dt n : Nat} {s : State}
  (hdue : ((s.pass dt).boot.atbDue.any fun (x : Nat × Nat) => x.1 == n && decide (x.2 ≤ (s.pass dt).ticks)) = true)
include hdue

theorem execAtbConnect_plain (hnone : atbDiode n ((s.pass dt).atbSel n).1 ((s.pass dt).atbSel n).2 = none) :
    exec (.atbConnect dt n) s = .next ((s.pass dt).pinClosed n) := by
  refine congrArg Host.Outcome.next ((if_pos hdue).trans ?_)
  simp only [hnone]
  rfl

/-- A diode that is forced is out of use (R476). -/
theorem execAtbConnect_diode {d : Nat} (hsome : atbDiode n ((s.pass dt).atbSel n).1 ((s.pass dt).atbSel n).2 = some d) :
    exec (.atbConnect dt n) s = .next { (s.pass dt).pinClosed n with
      thm := { (s.pass dt).thm with atb := d :: (s.pass dt).thm.atb.filter (· != d) } } := by
  refine congrArg Host.Outcome.next ((if_pos hdue).trans ?_)
  simp only [hsome]
  rfl
end

/-- A diode that no pin forces returns to use once its time has come. -/
theorem execAtbDiodeReturn_free {dt d a : Nat} {s : State} (hdue : (s.pass dt).boot.diodeDue = [(d, a)]) (ha : a ≤ (s.pass dt).ticks)
    (hfree : (s.pass dt).diodeForced d = false) : exec (.atbDiodeReturn dt d) s = .next { s.pass dt with
      boot := { (s.pass dt).boot with diodeDue := [] }
      thm := { (s.pass dt).thm with atb := (s.pass dt).thm.atb.filter (· != d) } } := by
  have hany : ((s.pass dt).boot.diodeDue.any fun x => x.1 == d && decide (x.2 ≤ (s.pass dt).ticks)) = true := by simp [hdue, ha]
  have hnone : ((s.pass dt).boot.diodeDue.filter fun (x : Nat × Nat) => !(x.1 == d && decide (x.2 ≤ (s.pass dt).ticks))) = [] := by
    simp [hdue, ha]
  refine congrArg Host.Outcome.next ((if_pos hany).trans ?_)
  simp only [hnone]
  exact if_neg (ne_true_of_eq_false hfree)

/-- ATB_SEL captures the selections as they stand, then writes those of the eight pins. -/
def State.atbSelected (s : State) (v : Nat) : State :=
  (List.range 8).foldl (fun u n => u.atbWrite n (bits v (20 * n + 8) 6) (bits v (20 * n + 16) 3) (bits v (20 * n) 5))
    ((s.tapLoaded 0x11).capture (s.tapLoaded 0x11).atbBits)

theorem State.atbSelected_selects (s : State) (v : Nat) :
    ((s.tapLoaded 0x11).capture (s.tapLoaded 0x11).atbBits).Selects (s.atbSelected v) :=
  (State.Selects.refl _).foldl fun _ _ hn h => h.atbWrite _ _ _ (List.mem_range.1 hn)

/-! ### The statements -/

/-- Settles O48: an instruction is loaded and what it captures is set; after EXTEST the rails are asked for their status; a pin closes, with
its diode out of use, and the diode returns. -/
theorem testAccessPort : Obligations.TestAccessPort := by
  unfold Obligations.TestAccessPort
  refine ⟨?tapReset, ?extest, ?extestOff, ?samplePreload, ?idcode, ?atbSel, ?bypass, ?extestEnd, ?production, ?productionDebug, ?atbConnect,
    ?atbDiode, ?diodeReturn⟩
  case tapReset =>
    rintro dt s _ rfl
    have hexec : exec (.tapReset dt) s = .next (s.pass dt).resetTap := rfl
    generalize s.pass dt = s' at hexec ⊢
    exact ⟨_, hexec, rfl, rfl, rfl, rfl, (State.sameBut.refl _ _).boot _ (by simp)⟩
  case extest =>
    rintro dt pins cells s _ rfl hpwr hdebug himg
    have hon : ((s.pass dt).tapLoaded 0).extest = true := by rw [State.tapLoaded_extest, hdebug, himg]; rfl
    have hexec := execExtest_driven (pins := pins) (cells := cells) hpwr hon
    generalize s.pass dt = s' at hexec hon ⊢
    exact ⟨_, hexec, rfl, rfl, rfl, hon, rfl, rfl, (State.tapLoaded_sameBut s' 0).trans (State.driven_sameBut _ _ _)⟩
  case extestOff =>
    rintro dt pins cells s _ rfl hpwr hor
    have hoff : ((s.pass dt).tapLoaded 0).extest = false := by rw [State.tapLoaded_extest]; rcases hor with h | h <;> simp [h]
    have hexec := execExtest_bypass (pins := pins) (cells := cells) hpwr hoff
    generalize s.pass dt = s' at hexec hoff ⊢
    exact ⟨_, hexec, rfl, rfl, rfl, hoff, rfl, rfl, (State.tapLoaded_sameBut s' 0).trans (State.capture_sameBut _ _)⟩
  case samplePreload =>
    rintro dt pins cells s _ rfl hpwr
    have hexec : exec (.samplePreload dt pins cells) s = .next (((s.pass dt).tapLoaded 1).driven pins cells) :=
      congrArg Host.Outcome.next (State.loadTap_on hpwr ..)
    generalize s.pass dt = s' at hexec ⊢
    exact ⟨_, hexec, rfl, rfl, rfl, rfl, rfl, rfl, (State.tapLoaded_sameBut s' 1).trans (State.driven_sameBut _ _ _)⟩
  case idcode =>
    rintro dt s _ rfl hpwr
    have hexec : exec (.idcode dt) s = .next (((s.pass dt).tapLoaded 2).capture ((s.pass dt).tapLoaded 2).idcode) :=
      congrArg Host.Outcome.next (State.loadTap_on hpwr ..)
    generalize s.pass dt = s' at hexec ⊢
    exact ⟨_, hexec, rfl, rfl, rfl, rfl, (State.tapLoaded_sameBut s' 2).trans (State.capture_sameBut _ _)⟩
  case atbSel =>
    rintro dt v s _ rfl hpwr
    have hexec : exec (.atbSel dt v) s = .next ((s.pass dt).atbSelected v) := congrArg Host.Outcome.next (State.loadTap_on hpwr ..)
    generalize s.pass dt = s' at hexec ⊢
    obtain ⟨⟨_, _, _, hparts⟩, hregs⟩ := s'.atbSelected_selects v
    refine ⟨_, hexec, ?_, ?_, ?_, ?_, (State.regsBut_of_regs rfl _).trans hregs⟩
    · rw [hparts]; rfl
    · rw [hparts]; rfl
    · rw [hparts]; rfl
    · rw [hparts]; simp [State.sameBut, State.tapLoaded, State.capture]
  case bypass =>
    rintro dt s _ rfl hpwr
    have hexec : exec (.bypass dt) s = .next (((s.pass dt).tapLoaded 0xFF).capture 0) :=
      congrArg Host.Outcome.next (State.loadTap_on hpwr ..)
    generalize s.pass dt = s' at hexec ⊢
    exact ⟨_, hexec, rfl, rfl, rfl, rfl, (State.tapLoaded_sameBut s' 0xFF).trans (State.capture_sameBut _ _)⟩
  case extestEnd =>
    rintro dt s _ rfl hended hopen
    have hexec : exec (.extestEnd dt) s =
        .next (({ s.pass dt with boot := { (s.pass dt).boot with extestEnded := false } } : State).railAsked _) :=
      congrArg Host.Outcome.next ((if_pos ⟨hended, by rw [hopen]; rfl⟩).trans (State.foldl_sendRail_status _ hopen))
    generalize s.pass dt = s' at hexec ⊢
    exact ⟨_, hexec, rfl, rfl, rfl, rfl, ((State.sameBut.refl _ _).boot _ (by simp)).pwr _ (by simp)⟩
  case production =>
    rintro dt code s _ rfl hpwr hlo hhi hdebug
    have hexec := execProductionInstruction_bypass hpwr hlo hhi hdebug
    generalize s.pass dt = s' at hexec ⊢
    exact ⟨_, hexec, rfl, rfl, rfl, rfl, rfl, (State.tapLoaded_sameBut s' code).trans (State.capture_sameBut _ _)⟩
  case productionDebug =>
    rintro dt code s _ rfl hpwr hlo hhi hdebug
    exact execProductionInstruction_refused hpwr hlo hhi hdebug
  case atbConnect =>
    rintro dt n s _ rfl hdue hn hnone
    have hexec := execAtbConnect_plain hdue hnone
    generalize s.pass dt = s' at hexec ⊢
    obtain ⟨hclosed, hsame, hregs⟩ := s'.pinClosed_effect n
    exact ⟨_, hexec, hclosed, rfl, rfl, rfl, hsame, hregs⟩
  case atbDiode =>
    rintro dt n d s _ rfl hdue hn hsome
    have hexec := execAtbConnect_diode hdue hsome
    generalize s.pass dt = s' at hexec ⊢
    obtain ⟨hclosed, hsame, hregs⟩ := s'.pinClosed_effect n
    exact ⟨_, hexec, hclosed, by simp [State.sensorIn], rfl, (hsame.mono (by simp)).thm _ (by simp), hregs.of_regs rfl⟩
  case diodeReturn =>
    rintro dt d a s _ rfl hdue ha hfree
    have hexec := execAtbDiodeReturn_free hdue ha hfree
    generalize s.pass dt = s' at hexec ⊢
    exact ⟨_, hexec, by simp, rfl, rfl, rfl, rfl, by simp [State.sameBut]⟩

/-- Every other command answers a next state: its meaning is `.next` of the state that it leaves. -/
theorem exec_next_of_not_production {c : Instr} (s : State) (h : ∀ dt code, c ≠ .productionInstruction dt code) :
    ∃ t, exec c s = .next t := by
  cases c
  case productionInstruction dt code => exact absurd rfl (h dt code)
  all_goals exact ⟨_, rfl⟩

/-- Settles O59: a production instruction acts as BYPASS or does nothing, unless its code, PWRGOOD and `debug` all allow it. -/
theorem nothingStopsTheBlock : Obligations.NothingStopsTheBlock := by
  intro c s
  by_cases hprod : ∃ dt code, c = .productionInstruction dt code
  · obtain ⟨dt, code, rfl⟩ := hprod
    by_cases hidle : code < 0x20 ∨ 0xFE < code ∨ (!(s.pass dt).boot.pwrgood) = true
    · exact .inl ⟨_, execProductionInstruction_idle hidle⟩
    · obtain ⟨hlo, hhi, hpwr⟩ : 0x20 ≤ code ∧ code ≤ 0xFE ∧ (s.pass dt).boot.pwrgood = true := by simpa using hidle
      cases hdebug : (s.pass dt).flag SBX_POLICY.debug with
      | false => exact .inl ⟨_, execProductionInstruction_bypass hpwr hlo hhi hdebug⟩
      | true => exact .inr ⟨dt, code, rfl, hlo, hhi, hpwr, hdebug, execProductionInstruction_refused hpwr hlo hhi hdebug⟩
  · exact .inl (exec_next_of_not_production s fun dt code hc => hprod ⟨dt, code, hc⟩)

end Sys2Proof.Machine
end

section
/-! PROOFS. The event controller (R500 to R505): what an arrival does, selection for an idle guard, delivery, the end of service. -/

set_option Elab.async false

namespace Sys2Proof.Machine

/-! ### An arrival (R500) -/

section
variable (s : State) (n : Nat)

/-- Source n has one arrival more and is pending. -/
def State.arrivedSource : State := (s.inc (EVT_SRC_n.count.src n)).setFlag (EVT_SRC_n.pending.src n) true

theorem State.arrivedSource_pending : (s.arrivedSource n).flag (EVT_SRC_n.pending.src n) = true :=
  State.flag_setFlag_same _ _ _ (by decide : EVT_SRC_n.pending.fits) rfl

theorem State.arrivedSource_count :
    (s.arrivedSource n).get (EVT_SRC_n.count.src n) = min 255 (s.get (EVT_SRC_n.count.src n) + 1) :=
  (State.get_setFlag_apart (f := EVT_SRC_n.pending.src n) (g := EVT_SRC_n.count.src n) _ true (by decide : EVT_SRC_n.count.fits)
    (.inr (.inr (by decide : 8 ≤ 63)))).trans (s.get_inc_same _ 1 (by decide : EVT_SRC_n.count.fits))

theorem State.arrivedSource_regsBut :
    s.regsBut (s.arrivedSource n) [EVT_SRC_n.pending.src n, EVT_SRC_n.count.src n] :=
  ((State.regsBut.refl s _).inc _ (by simp)).setFlag _ (by simp)

/-- The sources' registers are not those that say which guards are out. -/
theorem State.arrivedSource_liveGuards : (s.arrivedSource n).liveGuards = s.liveGuards := by
  refine List.filter_congr fun g hg => ?_
  have hg : g < 4 := List.mem_range.1 hg
  have hstate : (s.arrivedSource n).get (GRD_WATCHDOG_i.state.guard g) = s.get (GRD_WATCHDOG_i.state.guard g) := by
    refine s.arrivedSource_regsBut n _ (Fld.guard_fits (by decide) g) fun x hx => .inl ?_
    rcases List.mem_pair.1 hx with rfl | rfl <;>
      simp only [Fld.src, Fld.guard, Fld.off, EVT_SRC_n.pending, EVT_SRC_n.count, GRD_WATCHDOG_i.state] <;> omega
  rw [State.guardOut, State.guardOut, hstate]
end

section
variable (s : State) (e : EvRec)

/-- A source below 16 pends at every live guard (R501). -/
def State.pendAtGuards (n : Nat) : State :=
  if n < 16 then
    { s with ev := { s.ev with pend := s.ev.pend ++ (s.liveGuards.map fun g => (g, n)).filter fun p => !s.ev.pend.contains p } }
  else s

/-- A record that is streamed is held for its order (R95). -/
def State.holdIf (c : Prop) [Decidable c] : State :=
  if c then { s with ev := { s.ev with held := s.ev.held ++ [e] } } else s

/-- The service log keeps some of the events (R443). -/
def State.logIf (c : Prop) [Decidable c] (r : Rec4) : State := if c then s.logRecord r else s

theorem State.arrive_eq : s.arrive e = (((s.arrivedSource e.num).pendAtGuards e.num).holdIf e
    (e.num < 16 ∨ s.flag (EVT_SRC_n.stream.src e.num) = true)).logIf (loggedEvent e.num = true) e.record := rfl

theorem State.pendAtGuards_sameBut (n : Nat) : s.sameBut (s.pendAtGuards n) [.ev] :=
  State.sameBut.ite (by simp [State.sameBut]) (.refl _ _)

theorem State.holdIf_sameBut (c : Prop) [Decidable c] : s.sameBut (s.holdIf e c) [.ev] :=
  State.sameBut.ite (by simp [State.sameBut]) (.refl _ _)

theorem State.logIf_sameBut (c : Prop) [Decidable c] (r : Rec4) : s.sameBut (s.logIf c r) [.sbx] :=
  State.sameBut.ite (by simp [State.sameBut, State.logRecord]) (.refl _ _)

theorem State.mem_pendAtGuards {n g : Nat} (h16 : n < 16) (hg : g ∈ s.liveGuards) : (g, n) ∈ (s.pendAtGuards n).ev.pend := by
  rw [State.pendAtGuards, if_pos h16]
  by_cases hp : (g, n) ∈ s.ev.pend
  · exact List.mem_append_left _ hp
  · exact List.mem_append_right _ (List.mem_filter.2 ⟨List.mem_map_of_mem hg, by simpa using hp⟩)

theorem State.holdIf_pend (c : Prop) [Decidable c] : (s.holdIf e c).ev.pend = s.ev.pend := by
  unfold State.holdIf
  split <;> rfl

theorem State.logIf_ev (c : Prop) [Decidable c] (r : Rec4) : (s.logIf c r).ev = s.ev := by
  unfold State.logIf
  split <;> rfl

theorem State.arrive_regs : (s.arrive e).regs = (s.arrivedSource e.num).regs := by
  rw [State.arrive_eq]
  exact (State.regs_of_sameBut (State.logIf_sameBut ..) (by simp)).trans ((State.regs_of_sameBut (State.holdIf_sameBut ..) (by simp)).trans
    (State.regs_of_sameBut (State.pendAtGuards_sameBut ..) (by simp)))

theorem State.arrive_pend (h16 : e.num < 16) {g : Nat} (hg : g ∈ s.liveGuards) : (g, e.num) ∈ (s.arrive e).ev.pend := by
  rw [State.arrive_eq, State.logIf_ev, State.holdIf_pend]
  exact State.mem_pendAtGuards _ h16 (s.arrivedSource_liveGuards e.num ▸ hg)

theorem State.arrive_sameBut : s.sameBut (s.arrive e) [.regs, .ev, .sbx] := by
  rw [State.arrive_eq]
  have hregs : s.sameBut (s.arrivedSource e.num) [.regs] := by simp [State.sameBut, State.arrivedSource, State.inc]
  exact (((hregs.mono (by simp)).trans ((State.pendAtGuards_sameBut ..).mono (by simp))).trans
    ((State.holdIf_sameBut ..).mono (by simp))).trans ((State.logIf_sameBut ..).mono (by simp))

/-- What the arrival of a record does, from the state `s'` in which the record is still on its way. -/
theorem State.arrive_effect {s' : State} (hev : s'.sameBut s [.ev]) :
    (s.arrive e).flag (EVT_SRC_n.pending.src e.num) = true
    ∧ (s.arrive e).get (EVT_SRC_n.count.src e.num) = min 255 (s'.get (EVT_SRC_n.count.src e.num) + 1)
    ∧ (e.num < 16 → ∀ g : Nat, g ∈ s'.liveGuards → (g, e.num) ∈ (s.arrive e).ev.pend) ∧ s'.sameBut (s.arrive e) [.regs, .ev, .sbx]
    ∧ s'.regsBut (s.arrive e) [EVT_SRC_n.pending.src e.num, EVT_SRC_n.count.src e.num] := by
  have hregs : s.regs = s'.regs := State.regs_of_sameBut hev (by simp)
  have hlive : s.liveGuards = s'.liveGuards := by simp only [State.liveGuards, State.guardOut, State.get_congr hregs]
  refine ⟨?_, ?_, fun h16 g hg => s.arrive_pend e h16 (hlive ▸ hg), (hev.mono (by simp)).trans (s.arrive_sameBut e),
    (State.regsBut_of_regs hregs _).trans ((s.arrivedSource_regsBut e.num).of_regs (s.arrive_regs e))⟩
  · exact (State.flag_congr (s.arrive_regs e) _).trans (s.arrivedSource_pending _)
  · rw [State.get_congr (s.arrive_regs e), s.arrivedSource_count, State.get_congr hregs]
end

/-- The record has left the way to the controller. -/
def State.landed (s : State) (i : Nat) : State := { s with ev := { s.ev with inflight := s.ev.inflight.eraseIdx i } }

theorem State.landed_sameBut (s : State) (i : Nat) : s.sameBut (s.landed i) [.ev] := by simp [State.sameBut, State.landed]

section
variable {dt i : Nat} {e : EvRec} {s : State} (h : (s.elapse dt).ev.inflight[i]? = some e)
include h

theorem execEventArrival_some : exec (.eventArrival dt i) s = .next (((s.elapse dt).landed i).arrive e) := by
  change execEventArrival dt i s = _
  simp only [execEventArrival, h, State.landed]

theorem execEventRecordPacket_some (hcoord : e.coord < 10240) :
    exec (.eventRecordPacket dt i) s = .next (((s.elapse dt).landed i).arrive e) := by
  change execEventRecordPacket dt i s = _
  simp only [execEventRecordPacket, h, State.landed, if_pos hcoord]
end

/-! ### Selection for an idle guard (R502, R503) -/

/-- Source n can be selected for guard g: it is pending, routed to the guard and unmasked. -/
def State.CanSelect (s : State) (g n : Nat) : Prop :=
  if n < 16 then (g, n) ∈ s.ev.pend
  else s.flag (EVT_SRC_n.pending.src n) = true ∧ s.routeOf n = g ∧ s.flag (EVT_SRC_n.mask.src n) = false

theorem State.selectable_eq_some {s : State} {g n : Nat} (hn : n < 256) (h : s.CanSelect g n) (hlow : ∀ m < n, ¬s.CanSelect g m) :
    s.selectable g = some n := by
  have hcan (m : Nat) : (if m < 16 then s.ev.pend.contains (g, m)
      else s.flag (EVT_SRC_n.pending.src m) && s.routeOf m == g && !s.flag (EVT_SRC_n.mask.src m)) = true ↔ s.CanSelect g m := by
    unfold State.CanSelect
    split <;> simp [and_assoc]
  refine List.find?_range_eq_some.2 ⟨(hcan n).2 h, List.mem_range.2 hn, fun m hm => ?_⟩
  exact Bool.not_eq_true' _ ▸ Bool.eq_false_iff.2 ((hcan m).not.2 (hlow m hm))

section
variable {dt g n : Nat} {s : State}

theorem execEventSelect_disabled (h : (s.elapse dt).flag EVT_CTRL.disable = true) :
    exec (.eventSelect dt g) s = .next (s.elapse dt) :=
  congrArg Host.Outcome.next (if_neg fun hc => by simp [h] at hc)

theorem execEventSelect_selects (hg : g < 4) (hd : (s.elapse dt).flag EVT_CTRL.disable = false)
    (hv : (s.elapse dt).flag (svcValid g) = false) (hsel : ((s.elapse dt).ev.selected.any fun p => p.1 == g) = false)
    (hn : (s.elapse dt).selectable g = some n) :
    ∃ t, exec (.eventSelect dt g) s = .next t
      ∧ t.ev.selected = (s.elapse dt).ev.selected ++ [(g, n)] ∧ t.regs = (s.elapse dt).regs ∧ (s.elapse dt).sameBut t [.ev] := by
  refine ⟨{ s.elapse dt with ev := { (s.elapse dt).ev with selected := (s.elapse dt).ev.selected ++ [(g, n)] } },
    ?_, rfl, rfl, by simp [State.sameBut]⟩
  change execEventSelect dt g s = _
  simp only [execEventSelect]
  rw [if_pos ⟨hg, by rw [hd]; rfl, by rw [hv]; rfl, by rw [hsel]; rfl⟩, hn]
end

/-- Settles O7. -/
theorem globalDisable : Obligations.GlobalDisable := by
  unfold Obligations.GlobalDisable
  refine ⟨?disabled, ?arrival, ?packet, ?selects⟩
  case disabled =>
    rintro dt g s _ rfl h
    exact execEventSelect_disabled h
  case arrival =>
    rintro dt i e s _ rfl - h
    exact ⟨_, execEventArrival_some h, State.arrive_effect _ e (State.landed_sameBut _ i)⟩
  case packet =>
    rintro dt i e s _ rfl - h hcoord
    exact ⟨_, execEventRecordPacket_some h hcoord, State.arrive_effect _ e (State.landed_sameBut _ i)⟩
  case selects =>
    rintro dt g n s _ rfl hg hn hd hv hsel hcan hlow
    exact execEventSelect_selects hg hd hv (by simpa using hsel) (State.selectable_eq_some hn hcan hlow)

/-! ### Delivery and end of service (R502) -/

section
variable (s : State) (g n : Nat)

/-- The selection of guard g is used up. -/
def State.unselected : State :=
  { s with ev := { s.ev with selected := s.ev.selected.filter (fun p => p.1 != g), pend := s.ev.pend.filter (fun p => p != (g, n)) } }

/-- Guard g serves source n, which pends further when `left` says that another guard still waits for it. -/
def State.served (left : Bool) : State :=
  (((s.set (svc g) n).setFlag (svcValid g) true).setFlag (EVT_SRC_n.in_service.src n) true).setFlag (EVT_SRC_n.pending.src n) left

theorem execEventDeliver_some {dt : Nat} {s : State} (h : (s.elapse dt).ev.selected.find? (fun p => p.1 == g) = some (g, n)) :
    ∃ left, exec (.eventDeliver dt g) s = .next (((s.elapse dt).unselected g n).served g n left) := by
  refine ⟨n < 16 && ((s.elapse dt).unselected g n).ev.pend.any fun p => p.2 == n, ?_⟩
  change execEventDeliver dt g s = _
  simp only [execEventDeliver, h]
  rfl

/-- The source's register is not that of the guards' service. -/
theorem src_apart_ctrl {f x : Fld} (hf : f.key = 0x1C1000) (hx : x.key = 0x1C0000) (m : Nat) : (f.src m).apart x :=
  .inl (by simp only [Fld.src, Fld.off]; omega)

variable {g n}

theorem State.served_effect (hg : g < 4) (hn : n < 256) (left : Bool) :
    (s.served g n left).flag (svcValid g) = true ∧ (s.served g n left).get (svc g) = n
    ∧ (s.served g n left).flag (EVT_SRC_n.in_service.src n) = true
    ∧ s.sameBut (s.served g n left) [.regs]
    ∧ s.regsBut (s.served g n left) [svc g, svcValid g, EVT_SRC_n.pending.src n, EVT_SRC_n.in_service.src n] := by
  obtain ⟨hvalid, hsvc⟩ := svc_fits hg
  refine ⟨?_, ?_, ?_, by simp [State.sameBut, State.served], ?_⟩
  · rw [State.served, State.flag, State.get_setFlag_apart _ _ hvalid (src_apart_ctrl rfl rfl n),
      State.get_setFlag_apart _ _ hvalid (src_apart_ctrl rfl rfl n), State.get_setFlag_same _ _ _ hvalid rfl]
    rfl
  · rw [State.served, State.get_setFlag_apart _ _ hsvc (src_apart_ctrl rfl rfl n),
      State.get_setFlag_apart _ _ hsvc (src_apart_ctrl rfl rfl n), State.get_setFlag_apart _ _ hsvc (.inr (.inr le_rfl)),
      State.get_set_same _ _ _ hsvc]
    exact Nat.mod_eq_of_lt hn
  · have hin : (EVT_SRC_n.in_service.src n).fits := (by decide : EVT_SRC_n.in_service.fits)
    rw [State.served, State.flag, State.get_setFlag_apart _ _ hin (.inr (.inr (le_refl 63))), State.get_setFlag_same _ _ _ hin rfl]
    rfl
  · exact ((((State.regsBut.refl s _).set _ (by simp)).setFlag _ (by simp)).setFlag _ (by simp)).setFlag _ (by simp)

/-- Guard g is free; its source stays in service while another guard serves it too. -/
def State.freed (still : Bool) : State :=
  ((s.setFlag (svcValid g) false).set (svc g) 0).setFlag (EVT_SRC_n.in_service.src (s.get (svc g))) still

theorem execGuardEndOfService_valid {dt : Nat} {s : State} (hg : g < 4) (h : (s.elapse dt).flag (svcValid g) = true) :
    ∃ still, exec (.guardEndOfService dt g) s = .next ((s.elapse dt).freed (g := g) still) :=
  ⟨_, congrArg Host.Outcome.next (if_pos ⟨hg, h⟩)⟩

theorem State.freed_effect (hg : g < 4) (still : Bool) :
    (s.freed (g := g) still).flag (svcValid g) = false ∧ (s.freed (g := g) still).get (svc g) = 0
    ∧ s.sameBut (s.freed (g := g) still) [.regs]
    ∧ s.regsBut (s.freed (g := g) still) [svc g, svcValid g, EVT_SRC_n.in_service.src (s.get (svc g))] := by
  obtain ⟨hvalid, hsvc⟩ := svc_fits hg
  refine ⟨?_, ?_, by simp [State.sameBut, State.freed], ?_⟩
  · rw [State.freed, State.flag, State.get_setFlag_apart _ _ hvalid (src_apart_ctrl rfl rfl _),
      State.get_set_apart _ _ hvalid (.inr (.inl le_rfl)), State.get_setFlag_same _ _ _ hvalid rfl]
    rfl
  · rw [State.freed, State.get_setFlag_apart _ _ hsvc (src_apart_ctrl rfl rfl _), State.get_set_same _ _ _ hsvc, Nat.zero_mod]
  · exact (((State.regsBut.refl s _).setFlag _ (by simp)).set _ (by simp)).setFlag _ (by simp)
end

/-- Settles O11. -/
theorem eventService : Obligations.EventService := by
  unfold Obligations.EventService
  refine ⟨?selects, ?delivers, ?endOfService, ?mask, ?disable⟩
  case selects =>
    rintro dt g n s _ rfl hg hd hv hsel hn
    exact execEventSelect_selects hg hd hv hsel hn
  case delivers =>
    rintro dt g n s _ rfl h hg hn
    obtain ⟨left, hexec⟩ := execEventDeliver_some g n h
    obtain ⟨hvalid, hsvc, hin, hsame, hregs⟩ := ((s.elapse dt).unselected g n).served_effect hg hn left
    have hev : (s.elapse dt).sameBut ((s.elapse dt).unselected g n) [.ev] := by simp [State.sameBut, State.unselected]
    refine ⟨_, hexec, hvalid, hsvc, hin, ?_, (hev.mono (by simp)).trans (hsame.mono (by simp)), hregs⟩
    simp [State.served, State.unselected]
  case endOfService =>
    rintro dt g s _ rfl hg hvalid
    obtain ⟨still, hexec⟩ := execGuardEndOfService_valid hg hvalid
    obtain ⟨hfree, hsvc, hsame, hregs⟩ := (s.elapse dt).freed_effect hg still
    exact ⟨_, hexec, hfree, hsvc, rfl, hsame, hregs⟩
  case mask =>
    rintro dt g n m s _ rfl hlo hhi hroute
    exact ⟨_, congrArg Host.Outcome.next (if_pos ⟨hlo, hhi, hroute⟩), State.flag_setFlag_same _ _ _ (by decide : EVT_SRC_n.mask.fits) rfl,
      rfl, rfl, (State.sameBut.refl _ _).setFlag _ _ (by simp), (State.regsBut.refl _ _).setFlag _ (by simp)⟩
  case disable =>
    rintro dt b s _ rfl
    exact ⟨_, rfl, State.flag_setFlag_same _ _ _ (by decide) rfl, fun f hf ha => State.get_setFlag_apart _ _ hf ha, rfl, rfl,
      (State.sameBut.refl _ _).setFlag _ _ (by simp), (State.regsBut.refl _ _).setFlag _ (by simp)⟩

end Sys2Proof.Machine
end

section
/-! PROOFS. Clock requests (R491, R494, R495) and the readiness of PLLs, sources and REFCLK (R493, R496 to R498). -/

set_option Elab.async false

namespace Sys2Proof.Machine

/-! ### What a request reports (R494) -/

section
variable (s : State) (d : Nat)

theorem State.clkReport_done : s.clkReport d 0 = s.set (CLK_DOM_STATUS.result.ix d) 0 := rfl

/-- A request done changes the result alone. -/
theorem State.clkReport_done_effect :
    (s.clkReport d 0).get (CLK_DOM_STATUS.result.ix d) = 0
    ∧ (s.clkReport d 0).get (CLK_DOM_STATUS.refusals.ix d) = s.get (CLK_DOM_STATUS.refusals.ix d)
    ∧ s.sameBut (s.clkReport d 0) [.regs] ∧ s.regsBut (s.clkReport d 0) [CLK_DOM_STATUS.result.ix d] := by
  rw [State.clkReport_done]
  exact ⟨State.get_set_same _ _ 0 (Fld.fits_ix (by decide : CLK_DOM_STATUS.result.fits) d),
    State.get_set_apart _ _ (Fld.fits_ix (by decide : CLK_DOM_STATUS.refusals.fits) d) (.inr (.inr (by decide : 48 ≤ 60))),
    (State.sameBut.refl s _).set _ _ (by simp), (State.regsBut.refl s _).set _ (by simp)⟩

/-- A request refused is counted, and changes no clock. -/
theorem State.clkReport_refused_effect {r : Nat} (hr : r ≠ 0) (hlt : r < 8) :
    (s.clkReport d r).get (CLK_DOM_STATUS.result.ix d) = r
    ∧ (s.clkReport d r).get (CLK_DOM_STATUS.refusals.ix d)
      = min (2 ^ CLK_DOM_STATUS.refusals.w - 1) (s.get (CLK_DOM_STATUS.refusals.ix d) + 1)
    ∧ (s.clkReport d r).flag (CLK_DOM_STATUS.on_seco.ix d) = s.flag (CLK_DOM_STATUS.on_seco.ix d)
    ∧ s.sameBut (s.clkReport d r) [.regs] ∧ s.regsBut (s.clkReport d r) [CLK_DOM_STATUS.result.ix d, CLK_DOM_STATUS.refusals.ix d] := by
  have heq : s.clkReport d r = (s.set (CLK_DOM_STATUS.result.ix d) r).inc (CLK_DOM_STATUS.refusals.ix d) := if_neg hr
  have hresult := Fld.fits_ix (by decide : CLK_DOM_STATUS.result.fits) d
  have hrefusals := Fld.fits_ix (by decide : CLK_DOM_STATUS.refusals.fits) d
  have hsource := Fld.fits_ix (by decide : CLK_DOM_STATUS.on_seco.fits) d
  have hregs : s.regsBut (s.clkReport d r) [CLK_DOM_STATUS.result.ix d, CLK_DOM_STATUS.refusals.ix d] :=
    heq ▸ ((State.regsBut.refl s _).set _ (by simp)).inc _ (by simp)
  refine ⟨?_, ?_, hregs.flag hsource ?_, by rw [heq]; simp [State.sameBut, State.inc], hregs⟩
  · have hkeep := (s.set (CLK_DOM_STATUS.result.ix d) r).get_inc_apart (f := CLK_DOM_STATUS.refusals.ix d) 1 hresult
      (.inr (.inl (by decide : 48 ≤ 60)))
    rw [heq, hkeep, State.get_set_same _ _ _ hresult]
    exact Nat.mod_eq_of_lt hlt
  · have hkeep := s.get_set_apart (f := CLK_DOM_STATUS.result.ix d) r hrefusals (.inr (.inr (by decide : 48 ≤ 60)))
    rw [heq, State.get_inc_same _ _ _ hrefusals, hkeep, Fld.ix_w]
  · rintro g hg
    rcases List.mem_pair.1 hg with rfl | rfl
    · exact .inr (.inr (by decide : 60 ≤ 60))
    · exact .inr (.inl (by decide : 48 ≤ 59))
end

/-! ### Gate, ungate and switch (R491, R494, R495) -/

section
variable {s : State} {d i p : Nat}

theorem State.gateResult_device (hm : mayRequest .device d = true) (h1 : d ≠ 1) (hrun : s.running = false) :
    s.gateResult .device d [i] = if s.childRuns d i then 1 else 0 := by
  simp [State.gateResult, hm, h1, hrun]

theorem State.ungateResult_device (hm : mayRequest .device d = true) (h1 : d ≠ 1) (hrun : s.running = false)
    (hp : clkParent d = some p) : s.ungateResult .device d [i] = if s.isGated p (clkFeeds d i) then 1 else 0 := by
  simp [State.ungateResult, hm, h1, hrun, hp]

/-- The clock joins the gated ones, unless it is one of them. -/
def State.gateAdded (s : State) (d i : Nat) : State :=
  { s.clkReport d 0 with boot := { s.boot with gated := s.boot.gated ++ ([i].filter fun j => !s.isGated d j).map fun j => (d, j) } }

/-- The clock leaves the gated ones. -/
def State.gateRemoved (s : State) (d i : Nat) : State :=
  { s.clkReport d 0 with boot := { s.boot with gated := s.boot.gated.filter fun (x : Nat × Nat) => !(x.1 == d && [i].contains x.2) } }

theorem State.gateAdded_gated : (s.gateAdded d i).isGated d i = true := by
  by_cases h : (d, i) ∈ s.boot.gated <;> simp [State.isGated, State.gateAdded, h]

theorem State.gateRemoved_gated : (s.gateRemoved d i).isGated d i = false := by simp [State.isGated, State.gateRemoved]

section
variable (hi : i < clkInstances d)
include hi

theorem State.clkRequest_gate (seco : Bool) : s.clkRequest .device d 1 seco (some i) =
    if s.gateResult .device d [i] = 0 then s.gateAdded d i else s.clkReport d (s.gateResult .device d [i]) := by
  simp only [State.clkRequest, if_pos hi]
  split
  · next h => simp only [h]; rfl
  · rfl

theorem State.clkRequest_ungate (seco : Bool) : s.clkRequest .device d 2 seco (some i) =
    if s.ungateResult .device d [i] = 0 then s.gateRemoved d i else s.clkReport d (s.ungateResult .device d [i]) := by
  simp only [State.clkRequest, if_pos hi]
  split
  · next h => simp only [h]; rfl
  · rfl

theorem execClkGate_done {dt cmd : Nat} (hm : mayRequest .device d = true) (h1 : d ≠ 1) (hrun : (s.pass dt).running = false)
    (hc : (s.pass dt).childRuns d i = false) : exec (.clkGate dt .device cmd d i) s = .next ((s.pass dt).gateAdded d i) :=
  congrArg Host.Outcome.next ((State.clkRequest_gate hi _).trans (if_pos (by rw [State.gateResult_device hm h1 hrun, hc]; rfl)))

theorem execClkGate_nack {dt cmd : Nat} (hm : mayRequest .device d = true) (h1 : d ≠ 1) (hrun : (s.pass dt).running = false)
    (hc : (s.pass dt).childRuns d i = true) : exec (.clkGate dt .device cmd d i) s = .next ((s.pass dt).clkReport d 1) := by
  have hr : (s.pass dt).gateResult .device d [i] = 1 := by rw [State.gateResult_device hm h1 hrun, hc]; rfl
  exact congrArg Host.Outcome.next ((State.clkRequest_gate hi _).trans (by rw [hr, if_neg one_ne_zero]))

theorem execClkUngate_done {dt cmd : Nat} (hm : mayRequest .device d = true) (h1 : d ≠ 1) (hrun : (s.pass dt).running = false)
    (hp : clkParent d = some p) (hc : (s.pass dt).isGated p (clkFeeds d i) = false) :
    exec (.clkUngate dt .device cmd d i) s = .next ((s.pass dt).gateRemoved d i) :=
  congrArg Host.Outcome.next ((State.clkRequest_ungate hi _).trans (if_pos (by rw [State.ungateResult_device hm h1 hrun hp, hc]; rfl)))

theorem execClkUngate_nack {dt cmd : Nat} (hm : mayRequest .device d = true) (h1 : d ≠ 1) (hrun : (s.pass dt).running = false)
    (hp : clkParent d = some p) (hc : (s.pass dt).isGated p (clkFeeds d i) = true) :
    exec (.clkUngate dt .device cmd d i) s = .next ((s.pass dt).clkReport d 1) := by
  have hr : (s.pass dt).ungateResult .device d [i] = 1 := by rw [State.ungateResult_device hm h1 hrun hp, hc]; rfl
  exact congrArg Host.Outcome.next ((State.clkRequest_ungate hi _).trans (by rw [hr, if_neg one_ne_zero]))
end

theorem execClkSwitch_done {dt cmd : Nat} (hd : d = 1 ∨ d = 17) (hready : (s.pass dt).flag CLK_STATUS.seco_ready = true) :
    exec (.clkSwitch dt .device cmd d true) s
      = .next (((s.pass dt).clkReport d 0).setFlag (CLK_DOM_STATUS.on_seco.ix d) true) := by
  have hr : (s.pass dt).switchResult .device d true = 0 := by rcases hd with rfl | rfl <;> simp [State.switchResult, mayRequest, hready]
  refine congrArg Host.Outcome.next (?_ : (s.pass dt).clkRequest .device d 3 true none = _)
  simp only [State.clkRequest, hr, if_true]

theorem execClkSwitch_denied {dt cmd : Nat} {b : Bool} (h1 : d ≠ 1) (h17 : d ≠ 17) :
    exec (.clkSwitch dt .device cmd d b) s = .next ((s.pass dt).clkReport d 3) := by
  have hr : (s.pass dt).switchResult .device d b = 3 := by simp [State.switchResult, h1, h17]
  refine congrArg Host.Outcome.next (?_ : (s.pass dt).clkRequest .device d 3 b none = _)
  simp [State.clkRequest, hr]

/-- The host may request nothing on a domain that is not its own. -/
theorem State.clkRequest_host_denied (hm : mayRequest .host d = false) : s.clkRequest .host d 1 false none = s.clkReport d 3 := by
  have hr (l : List Nat) : s.gateResult .host d l = 3 := by simp [State.gateResult, hm]
  simp [State.clkRequest, hr]

theorem execClkGate_host_denied {dt cmd : Nat} (hruns : (s.pass dt).cmdRuns 2 [1, 2] = true)
    (hindex : (s.pass dt).get CLK_DOM_INDEX.domain = d) (hlo : 1 ≤ d) (hhi : d < 26) (hm : mayRequest .host d = false) :
    exec (.clkGate dt .host cmd d i) s =
      .next ((((s.pass dt).takeCommand 2 cmd).clkReport d 3).respond 2 cmd stOk 0 true []).transmit := by
  have hbank : ((s.pass dt).takeCommand 2 cmd).bankIx .clkDom 0 = some d := by
    simp only [State.bankIx, State.takeCommand_get, hindex, if_pos (⟨hlo, by omega⟩ : 1 ≤ d ∧ d ≤ 25)]
  refine congrArg Host.Outcome.next (State.hostWrite_runs (w := wrote _) hruns (fun role => ?_) rfl)
  rw [State.mgmtWrite_clkCtrl, hbank]
  exact congrArg wrote (State.clkRequest_host_denied hm)
end

/-- A switch sets the source of the domain beside its result. -/
theorem State.switched_effect (s : State) (d : Nat) :
    ((s.clkReport d 0).setFlag (CLK_DOM_STATUS.on_seco.ix d) true).flag (CLK_DOM_STATUS.on_seco.ix d) = true
    ∧ ((s.clkReport d 0).setFlag (CLK_DOM_STATUS.on_seco.ix d) true).get (CLK_DOM_STATUS.result.ix d) = 0
    ∧ s.sameBut ((s.clkReport d 0).setFlag (CLK_DOM_STATUS.on_seco.ix d) true) [.regs]
    ∧ s.regsBut ((s.clkReport d 0).setFlag (CLK_DOM_STATUS.on_seco.ix d) true) [CLK_DOM_STATUS.result.ix d, CLK_DOM_STATUS.on_seco.ix d] := by
  obtain ⟨hresult, -, hsame, hregs⟩ := s.clkReport_done_effect d
  refine ⟨State.flag_setFlag_same _ _ _ (Fld.fits_ix (by decide) d) rfl, ?_, hsame.setFlag _ _ (by simp),
    (hregs.mono (by simp)).setFlag _ (by simp)⟩
  have hkeep := (s.clkReport d 0).get_setFlag_apart (f := CLK_DOM_STATUS.on_seco.ix d) (g := CLK_DOM_STATUS.result.ix d) true
    (Fld.fits_ix (by decide) d) (.inr (.inl (by decide : 60 ≤ 60)))
  rw [hkeep, hresult]

/-- Settles O41. -/
theorem clockRequests : Obligations.ClockRequests := by
  unfold Obligations.ClockRequests
  refine ⟨?gate, ?gateNack, ?ungate, ?ungateNack, ?switch, ?switchDenied, ?hostDenied⟩
  case gate =>
    rintro dt cmd d i s _ rfl hm h1 hrun hi hc
    obtain ⟨hresult, hrefusals, hsame, hregs⟩ := (s.pass dt).clkReport_done_effect d
    exact ⟨_, execClkGate_done hi hm h1 hrun hc, State.gateAdded_gated, hresult, hrefusals, by simp [State.gateAdded, State.clkReport_done],
      by simp [State.gateAdded, State.clkReport_done], (hsame.mono (by simp)).boot _ (by simp), hregs.of_regs rfl⟩
  case gateNack =>
    rintro dt cmd d i s _ rfl hm h1 hrun hi hc
    obtain ⟨hresult, hrefusals, -, hsame, hregs⟩ := (s.pass dt).clkReport_refused_effect d (r := 1) (by decide) (by decide)
    exact ⟨_, execClkGate_nack hi hm h1 hrun hc, rfl, hresult, hrefusals, rfl, hsame, hregs⟩
  case ungate =>
    rintro dt cmd d i p s _ rfl hm h1 hrun hi hp hc
    obtain ⟨hresult, -, hsame, hregs⟩ := (s.pass dt).clkReport_done_effect d
    exact ⟨_, execClkUngate_done hi hm h1 hrun hp hc, State.gateRemoved_gated, hresult, by simp [State.gateRemoved, State.clkReport_done],
      by simp [State.gateRemoved, State.clkReport_done], (hsame.mono (by simp)).boot _ (by simp), hregs.of_regs rfl⟩
  case ungateNack =>
    rintro dt cmd d i p s _ rfl hm h1 hrun hi hp hc
    obtain ⟨hresult, hrefusals, -, hsame, hregs⟩ := (s.pass dt).clkReport_refused_effect d (r := 1) (by decide) (by decide)
    exact ⟨_, execClkUngate_nack hi hm h1 hrun hp hc, rfl, hresult, hrefusals, rfl, hsame, hregs⟩
  case switch =>
    rintro dt cmd d s _ rfl hd hready
    obtain ⟨hflag, hresult, hsame, hregs⟩ := (s.pass dt).switched_effect d
    exact ⟨_, execClkSwitch_done hd hready, hflag, hresult, rfl, rfl, hsame, hregs⟩
  case switchDenied =>
    rintro dt cmd d b s _ rfl h1 h17 -
    obtain ⟨hresult, -, hsource, hsame, hregs⟩ := (s.pass dt).clkReport_refused_effect d (r := 3) (by decide) (by decide)
    exact ⟨_, execClkSwitch_denied h1 h17, hsource, hresult, rfl, rfl, hsame, hregs⟩
  case hostDenied =>
    rintro dt cmd d i s _ rfl hruns hindex hlo hhi hm
    obtain ⟨hresult, hrefusals, -, hsame, hregs⟩ :=
      ((s.pass dt).takeCommand 2 cmd).clkReport_refused_effect d (r := 3) (by decide) (by decide)
    have htake := (s.pass dt).takeCommand_sameBut 2 cmd
    have hsend := (State.respond_sameBut (((s.pass dt).takeCommand 2 cmd).clkReport d 3) 2 cmd stOk 0 true []).trans (State.transmit_sameBut _)
    refine ⟨_, execClkGate_host_denied hruns hindex hlo hhi hm, ?_, ?_, ?_, ?_, ?_,
      ((htake.mono (by simp)).trans (hsame.mono (by simp))).trans (hsend.mono (by simp)), ?_⟩
    · simp [stOk]
    · simpa using hresult
    · simpa using hrefusals
    · simp [State.clkReport, State.inc]
    · simp [State.clkReport, State.inc]
    · exact ((State.regsBut_of_regs (State.takeCommand_regs ..) _).trans hregs).of_regs (by simp)

end Sys2Proof.Machine
end

section
/-! PROOFS. The readiness of PLLs, sources and REFCLK (R493, R496 to R498). -/

set_option Elab.async false

namespace Sys2Proof.Machine

/-- The ready flags of the ring, guard and port PLLs. -/
def readyFlags : List Fld := [CLK_STATUS.port_ready, CLK_STATUS.guard_ready, CLK_STATUS.ring_ready]

/-! ### A PLL reports or loses lock (R493) -/

section
variable (s : State) (d i : Nat) (b : Bool)

/-- The ready flag of a PLL's domain, for the three that have one. -/
theorem State.setReady_eq : s.setReady d b =
    if d = 6 then s.setFlag CLK_STATUS.ring_ready b
    else if d = 17 then s.setFlag CLK_STATUS.guard_ready b
    else if d = 14 then s.setFlag CLK_STATUS.port_ready b else s := rfl

theorem State.setReady_sameBut : s.sameBut (s.setReady d b) [.regs] :=
  .ite ((State.sameBut.refl s _).setFlag _ _ (by simp)) (.ite ((State.sameBut.refl s _).setFlag _ _ (by simp))
    (.ite ((State.sameBut.refl s _).setFlag _ _ (by simp)) (.refl s _)))

theorem State.setReady_regsBut : s.regsBut (s.setReady d b) readyFlags := by
  rw [State.setReady_eq]
  split
  · exact (State.regsBut.refl s _).setFlag _ (by simp [readyFlags])
  · split
    · exact (State.regsBut.refl s _).setFlag _ (by simp [readyFlags])
    · split
      · exact (State.regsBut.refl s _).setFlag _ (by simp [readyFlags])
      · exact .refl s _

theorem State.setReady_flag : (s.setReady 6 b).flag CLK_STATUS.ring_ready = b ∧ (s.setReady 17 b).flag CLK_STATUS.guard_ready = b
    ∧ (s.setReady 14 b).flag CLK_STATUS.port_ready = b :=
  ⟨State.flag_setFlag_same _ _ _ (by decide) rfl, State.flag_setFlag_same _ _ _ (by decide) rfl,
    State.flag_setFlag_same _ _ _ (by decide) rfl⟩

/-- The PLL joins those that are ready, or leaves them, and its tiles run again or stop. -/
def State.pllSet (ready : List (Nat × Nat)) : State := ({ s with boot := { s.boot with ready := ready } } : State).setReady d b |>.haltTiles d i !b

variable {s d i b} {ready : List (Nat × Nat)}

theorem State.pllSet_regs :
    (s.pllSet d i b ready).regs = (({ s with boot := { s.boot with ready := ready } } : State).setReady d b).regs := rfl

theorem State.pllSet_sameBut : s.sameBut (s.pllSet d i b ready) [.regs, .boot] :=
  (((State.sameBut.refl s _).boot _ (by simp)).trans ((State.setReady_sameBut ..).mono (by simp))).boot _ (by simp)

theorem State.pllSet_regsBut : s.regsBut (s.pllSet d i b ready) readyFlags :=
  ((State.regsBut_of_regs rfl _).trans (State.setReady_regsBut { s with boot := { s.boot with ready := ready } } d b)).of_regs
    State.pllSet_regs

theorem State.pllSet_ready : (s.pllSet d i b ready).boot.ready = ready := by
  have h : (({ s with boot := { s.boot with ready := ready } } : State).setReady d b).boot = { s.boot with ready := ready } := by
    rw [State.setReady_eq]
    split_ifs <;> rfl
  exact congrArg BootB.ready h

theorem State.pllSet_flag : (d = 6 → (s.pllSet d i b ready).flag CLK_STATUS.ring_ready = b)
    ∧ (d = 17 → (s.pllSet d i b ready).flag CLK_STATUS.guard_ready = b)
    ∧ (d = 14 → (s.pllSet d i b ready).flag CLK_STATUS.port_ready = b) := by
  refine ⟨?_, ?_, ?_⟩
  · rintro rfl; exact (State.flag_congr State.pllSet_regs _).trans (State.setReady_flag _ b).1
  · rintro rfl; exact (State.flag_congr State.pllSet_regs _).trans (State.setReady_flag _ b).2.1
  · rintro rfl; exact (State.flag_congr State.pllSet_regs _).trans (State.setReady_flag _ b).2.2
end

section
variable {dt d i : Nat} {s : State}

theorem execPllReady_fed (hpll : isPll d i = true) (hfed : (s.pass dt).pllFed d = true)
    (hnew : (s.pass dt).boot.ready.contains (d, i) = false) :
    exec (.pllReady dt d i) s = .next ((s.pass dt).pllSet d i true ((s.pass dt).boot.ready ++ [(d, i)])) :=
  congrArg Host.Outcome.next (if_pos ⟨hpll, hfed, by rw [hnew]; rfl⟩)

theorem execPllLockLost_ready (h : (s.pass dt).boot.ready.contains (d, i) = true) :
    exec (.pllLockLost dt d i) s
      = .next (((s.pass dt).pllSet d i false ((s.pass dt).boot.ready.erase (d, i))).raiseHead 18 d i) :=
  congrArg Host.Outcome.next (if_pos h)
end

/-! ### REFCLK fails, or a source is lost (R496, R498) -/

section
variable (s : State)

/-- After step 5 of start-up a failing REFCLK halts it. -/
theorem State.refclkFail_eq : s.refclkFail =
    if 5 < s.get HEAD_BOOT_STATUS.step ∧ s.get HEAD_BOOT_STATUS.step < 10 ∧ s.get HEAD_BOOT_STATUS.halt = 0 then
      ((s.setFlag CLK_STATUS.refclk_fail true).raiseHead 9 (s.get CLK_STATUS.refclk_khz) 0).set HEAD_BOOT_STATUS.halt 5
    else (s.setFlag CLK_STATUS.refclk_fail true).raiseHead 9 (s.get CLK_STATUS.refclk_khz) 0 := rfl

theorem State.refclkFail_ev : (s.refclkFail).ev = ((s.setFlag CLK_STATUS.refclk_fail true).raiseHead 9 (s.get CLK_STATUS.refclk_khz) 0).ev := by
  rw [State.refclkFail_eq]
  split <;> rfl

theorem State.refclkFail_lastEvent : s.refclkFail.lastEvent = some (9, s.get CLK_STATUS.refclk_khz, 0) := by
  have hlt : s.get CLK_STATUS.refclk_khz < 2 ^ 64 := (s.get_lt _).trans (by decide)
  rw [State.lastEvent_congr s.refclkFail_ev, State.raiseHead_lastEvent, Nat.mod_eq_of_lt hlt, Nat.zero_mod]

theorem State.refclkFail_sameBut : s.sameBut s.refclkFail [.regs, .ev] := by
  have h : s.sameBut ((s.setFlag CLK_STATUS.refclk_fail true).raiseHead 9 (s.get CLK_STATUS.refclk_khz) 0) [.regs, .ev] :=
    ((State.sameBut.refl s _).setFlag _ _ (by simp)).raise _ _ _ _ (by simp)
  rw [State.refclkFail_eq]
  exact .ite (h.set _ _ (by simp)) h

theorem State.refclkFail_boot : s.refclkFail.boot = s.boot := by
  rw [State.refclkFail_eq]
  split <;> rfl

theorem State.refclkFail_regsBut : s.regsBut s.refclkFail [CLK_STATUS.refclk_fail, HEAD_BOOT_STATUS.halt] := by
  have h : s.regsBut ((s.setFlag CLK_STATUS.refclk_fail true).raiseHead 9 (s.get CLK_STATUS.refclk_khz) 0)
      [CLK_STATUS.refclk_fail, HEAD_BOOT_STATUS.halt] := ((State.regsBut.refl s _).setFlag _ (by simp)).of_regs rfl
  rw [State.refclkFail_eq]
  split
  · exact h.set _ (by simp)
  · exact h

theorem State.refclkFail_flag : s.refclkFail.flag CLK_STATUS.refclk_fail = true := by
  have h : (s.setFlag CLK_STATUS.refclk_fail true).flag CLK_STATUS.refclk_fail = true := State.flag_setFlag_same _ _ _ (by decide) rfl
  rw [State.refclkFail_eq]
  split
  · have hkeep := (State.regsBut.refl (s.setFlag CLK_STATUS.refclk_fail true) [HEAD_BOOT_STATUS.halt]).set (f := HEAD_BOOT_STATUS.halt) 5 (by simp)
    exact (hkeep.flag (by decide) (by decide)).trans h
  · exact h

/-- Every domain fed from REFCLK stops. -/
def State.unfed : State :=
  let u := (((s.setFlag CLK_STATUS.refclk_ready false).setReady 6 false).setReady 17 false).setReady 14 false
  { u with boot := { u.boot with ready := u.boot.ready.filter fun (x : Nat × Nat) => x.1 == 3 || x.1 == 4 } }

/-- The registers that the loss of REFCLK clears. -/
def refclkFlags : List Fld := CLK_STATUS.refclk_ready :: HEAD_AXLE_STATUS.lock :: readyFlags

theorem State.unfed_sameBut : s.sameBut s.unfed [.regs, .boot] := by simp [State.sameBut, State.unfed, State.setReady]

theorem State.unfed_regsBut : s.regsBut s.unfed refclkFlags := by
  have hready (u : State) (d : Nat) : u.regsBut (u.setReady d false) refclkFlags := (u.setReady_regsBut d false).mono (by simp [refclkFlags])
  exact ((((State.regsBut.refl s _).setFlag _ (by simp [refclkFlags])).trans (hready _ 6)).trans (hready _ 17)).trans
    ((hready _ 14).of_regs rfl)

theorem State.unfed_flag : s.unfed.flag CLK_STATUS.refclk_ready = false ∧ s.unfed.flag CLK_STATUS.ring_ready = false := by
  have hkeep (u : State) (d : Nat) {f : Fld} (hf : f.fits) (hd : d = 17 ∨ d = 14) (h17 : CLK_STATUS.guard_ready.apart f)
      (h14 : CLK_STATUS.port_ready.apart f) : (u.setReady d false).get f = u.get f := by
    rcases hd with rfl | rfl
    · exact State.get_setFlag_apart _ _ hf h17
    · exact State.get_setFlag_apart _ _ hf h14
  constructor
  · refine (State.flag_congr (t := s.unfed) (s := (((s.setFlag CLK_STATUS.refclk_ready false).setReady 6 false).setReady 17 false).setReady
      14 false) rfl _).trans ?_
    rw [State.flag, hkeep _ _ (by decide) (.inr rfl) (by decide) (by decide), hkeep _ _ (by decide) (.inl rfl) (by decide) (by decide),
      State.setReady_eq, if_pos rfl, State.get_setFlag_apart _ _ (by decide) (by decide), State.get_setFlag_same _ _ _ (by decide) rfl]
    rfl
  · refine (State.flag_congr (t := s.unfed) (s := (((s.setFlag CLK_STATUS.refclk_ready false).setReady 6 false).setReady 17 false).setReady
      14 false) rfl _).trans ?_
    rw [State.flag, hkeep _ _ (by decide) (.inr rfl) (by decide) (by decide), hkeep _ _ (by decide) (.inl rfl) (by decide) (by decide)]
    exact (State.setReady_flag _ false).1

/-- AXLE has no source that it could hold over from. -/
def State.unheld : State := if s.get HEAD_AXLE_STATUS.lock = 2 then s.set HEAD_AXLE_STATUS.lock 0 else s

theorem State.unheld_sameBut : s.sameBut s.unheld [.regs] := .ite ((State.sameBut.refl s _).set _ _ (by simp)) (.refl s _)

theorem State.unheld_regsBut : s.regsBut s.unheld [HEAD_AXLE_STATUS.lock] := by
  unfold State.unheld
  split
  · exact (State.regsBut.refl s _).set _ (by simp)
  · exact .refl s _

variable {s}

/-- Without a running image the loss of REFCLK stops no image. -/
theorem State.loseRefclk_idle (h : s.running = false) : s.loseRefclk = s.unfed.unheld := by
  have hrun : s.unfed.unheld.running = false := by
    rw [← h, State.running, State.running, State.unheld_regsBut _ _ (by decide) (by decide), State.unfed_regsBut _ _ (by decide) (by decide)]
  exact if_neg (ne_true_of_eq_false hrun)

theorem State.loseRefclk_effect (h : s.running = false) :
    s.loseRefclk.flag CLK_STATUS.refclk_ready = false ∧ s.loseRefclk.flag CLK_STATUS.ring_ready = false
    ∧ s.sameBut s.loseRefclk [.regs, .boot] ∧ s.regsBut s.loseRefclk refclkFlags := by
  obtain ⟨href, hring⟩ := s.unfed_flag
  have hregs := s.unfed.unheld_regsBut
  rw [State.loseRefclk_idle h]
  exact ⟨(hregs.flag (by decide) (by decide)).trans href, (hregs.flag (by decide) (by decide)).trans hring,
    s.unfed_sameBut.trans (s.unfed.unheld_sameBut.mono (by simp)), s.unfed_regsBut.trans (hregs.mono (by simp [refclkFlags]))⟩
end

section
variable (s : State) {d : Nat}

/-- Domain d goes over to the secondary oscillator, and REFCLK fails. -/
def State.overToSeco (d : Nat) : State := ((s.setFlag (CLK_DOM_STATUS.on_seco.ix d) true).raiseHead 18 d 0).refclkFail

theorem State.overToSeco_sameBut : s.sameBut (s.overToSeco d) [.regs, .ev] :=
  (((State.sameBut.refl s _).setFlag _ _ (by simp)).raise _ _ _ _ (by simp)).trans (State.refclkFail_sameBut _)

theorem State.overToSeco_regsBut :
    s.regsBut (s.overToSeco d) [CLK_DOM_STATUS.on_seco.ix d, CLK_STATUS.refclk_fail, HEAD_BOOT_STATUS.halt] :=
  (((State.regsBut.refl s _).setFlag _ (by simp)).of_regs rfl).trans ((State.refclkFail_regsBut _).mono (by simp))

theorem State.overToSeco_boot : (s.overToSeco d).boot = s.boot := State.refclkFail_boot _

/-- The copies of CLK_DOM_STATUS lie in other registers than CLK_STATUS and HEAD_BOOT_STATUS. -/
theorem onSeco_apart (hd : d ≠ 0) {f : Fld} (hf : f.key < 0x1000000) : f.apart (CLK_DOM_STATUS.on_seco.ix d)
    ∧ (CLK_DOM_STATUS.on_seco.ix d).apart f := by
  have hne : (CLK_DOM_STATUS.on_seco.ix d).key ≠ f.key := by simp only [Fld.ix, CLK_DOM_STATUS.on_seco]; omega
  exact ⟨.inl hne.symm, .inl hne⟩

theorem State.overToSeco_effect (hd : d ≠ 0) :
    (s.overToSeco d).flag (CLK_DOM_STATUS.on_seco.ix d) = true ∧ (s.overToSeco d).flag CLK_STATUS.refclk_fail = true
    ∧ (s.overToSeco d).lastEvent = some (9, s.get CLK_STATUS.refclk_khz, 0) := by
  have hfit : (CLK_DOM_STATUS.on_seco.ix d).fits := Fld.fits_ix (by decide) d
  refine ⟨?_, State.refclkFail_flag _, ?_⟩
  · refine ((State.refclkFail_regsBut _).flag hfit fun g hg => ?_).trans (State.flag_setFlag_same s _ true hfit rfl)
    rcases List.mem_pair.1 hg with rfl | rfl
    · exact (onSeco_apart hd (by decide)).1
    · exact (onSeco_apart hd (by decide)).1
  · rw [State.overToSeco, State.refclkFail_lastEvent, State.raiseHead_get,
      State.get_setFlag_apart _ _ (by decide) (onSeco_apart hd (by decide)).2]
end

section
variable {dt : Nat} {s : State}

/-- WARD's PLL stops being ready. -/
def State.wardLost (s : State) : State :=
  ({ s with boot := { s.boot with ready := s.boot.ready.erase (17, 0) } } : State).setReady 17 false

theorem execClockSourceLost_ward (h : (s.pass dt).flag (CLK_DOM_STATUS.on_seco.ix 17) = false) :
    exec (.clockSourceLost dt 17) s = .next ((s.pass dt).overToSeco 17).wardLost :=
  congrArg Host.Outcome.next ((if_pos ⟨.inr rfl, by rw [h]; rfl⟩).trans (if_neg (by decide)))

theorem execClockSourceLost_aux (h : (s.pass dt).flag (CLK_DOM_STATUS.on_seco.ix 1) = false) :
    exec (.clockSourceLost dt 1) s
      = .next (((s.pass dt).overToSeco 1).setFlag (CLK_DOM_STATUS.on_seco.ix 17) true).loseRefclk :=
  congrArg Host.Outcome.next ((if_pos ⟨.inl rfl, by rw [h]; rfl⟩).trans (if_pos rfl))
end

theorem State.wardLost_sameBut (s : State) : s.sameBut s.wardLost [.regs, .boot] :=
  ((State.sameBut.refl s _).boot _ (by simp)).trans ((State.setReady_sameBut ..).mono (by simp))

theorem State.wardLost_regsBut (s : State) : s.regsBut s.wardLost [CLK_STATUS.guard_ready] :=
  (State.regsBut_of_regs rfl _).trans ((State.regsBut.refl _ _).setFlag (f := CLK_STATUS.guard_ready) false (by simp))

theorem State.wardLost_flag (s : State) : s.wardLost.flag CLK_STATUS.guard_ready = false := (State.setReady_flag _ false).2.1

/-! ### REFCLK is measured (R497, R498) -/

section
variable {dt khz : Nat} {s : State}

theorem execOscDelayExpiry_due {a : Nat} (ha : (s.pass dt).boot.oscDue = some a) (hle : a ≤ (s.pass dt).ticks) :
    exec (.oscDelayExpiry dt) s = .next { s.pass dt with boot := { (s.pass dt).boot with oscDone := true } } := by
  refine congrArg Host.Outcome.next ?_
  simp only [ha, if_pos hle]

section
variable (hosc : (s.pass dt).boot.oscDone = true) (hstep : 5 ≤ (s.pass dt).get HEAD_BOOT_STATUS.step)
include hosc hstep

theorem execRefclkMeasurement_good (hlo : 95000 ≤ khz) (hhi : khz ≤ 105000) (hfail : (s.pass dt).flag CLK_STATUS.refclk_fail = false) :
    exec (.refclkMeasurement dt khz) s
      = .next (((s.pass dt).set CLK_STATUS.refclk_khz khz).setFlag CLK_STATUS.refclk_ready true) :=
  congrArg Host.Outcome.next ((if_pos ⟨hosc, hstep⟩).trans (if_pos ⟨hlo, hhi, by rw [hfail]; rfl⟩))

theorem execRefclkMeasurement_bad (hkhz : khz < 95000 ∨ 105000 < khz) :
    exec (.refclkMeasurement dt khz) s = .next ((s.pass dt).set CLK_STATUS.refclk_khz khz) :=
  congrArg Host.Outcome.next ((if_pos ⟨hosc, hstep⟩).trans (if_neg (by omega)))
end

theorem execRefclkFail_due {a : Nat} (ha : (s.pass dt).boot.oscDue = some a) (hosc : (s.pass dt).boot.oscDone = true)
    (hstep : (s.pass dt).get HEAD_BOOT_STATUS.step = 5) (hdue : max a (s.pass dt).boot.stepTick + 1600000 ≤ (s.pass dt).ticks)
    (hready : (s.pass dt).flag CLK_STATUS.refclk_ready = false) (hfail : (s.pass dt).flag CLK_STATUS.refclk_fail = false) :
    exec (.refclkFail dt) s = .next (s.pass dt).refclkFail := by
  refine congrArg Host.Outcome.next ?_
  simp only [ha]
  exact if_pos ⟨hosc, hstep, hdue, by rw [hready]; rfl, by rw [hfail]; rfl⟩
end

/-- Settles O42. -/
theorem clockReadiness : Obligations.ClockReadiness := by
  unfold Obligations.ClockReadiness
  refine ⟨?ready, ?lockLost, ?wardLost, ?auxLost, ?delay, ?good, ?bad, ?fail⟩
  case ready =>
    rintro dt d i s _ rfl hpll hfed hnew
    have hexec := execPllReady_fed hpll hfed hnew
    generalize s.pass dt = s' at hexec ⊢
    have hsame := s'.pllSet_sameBut (d := d) (i := i) (b := true) (ready := s'.boot.ready ++ [(d, i)])
    obtain ⟨hring, hguard, hport⟩ := s'.pllSet_flag (d := d) (i := i) (b := true) (ready := s'.boot.ready ++ [(d, i)])
    exact ⟨_, hexec, State.pllSet_ready, hring, hguard, hport, State.mem_of_sameBut hsame (by simp),
      State.ev_of_sameBut hsame (by simp), hsame, State.pllSet_regsBut⟩
  case lockLost =>
    rintro dt d i s _ rfl hready hd hi
    have hexec := execPllLockLost_ready hready
    generalize s.pass dt = s' at hexec ⊢
    have hsame := s'.pllSet_sameBut (d := d) (i := i) (b := false) (ready := s'.boot.ready.erase (d, i))
    obtain ⟨hring, hguard, -⟩ := s'.pllSet_flag (d := d) (i := i) (b := false) (ready := s'.boot.ready.erase (d, i))
    refine ⟨_, hexec, State.pllSet_ready, ?_, hring, hguard, (State.mem_of_sameBut hsame (by simp) :),
      (hsame.mono (by simp)).raise _ _ _ _ (by simp), (State.pllSet_regsBut (i := i)).of_regs rfl⟩
    rw [State.raiseHead_lastEvent, Nat.mod_eq_of_lt (by omega), Nat.mod_eq_of_lt (by omega)]
  case wardLost =>
    rintro dt s _ rfl hseco
    have hexec := execClockSourceLost_ward hseco
    generalize s.pass dt = s' at hexec ⊢
    obtain ⟨honSeco, hfail, hevent⟩ := s'.overToSeco_effect (d := 17) (by decide)
    have hward := (s'.overToSeco 17).wardLost_regsBut
    have hsame := (s'.overToSeco_sameBut (d := 17)).mono (l' := [.regs, .ev, .boot]) (by simp) |>.trans
      ((s'.overToSeco 17).wardLost_sameBut.mono (by simp))
    exact ⟨_, hexec, (hward.flag (by decide) (by decide)).trans honSeco, (hward.flag (by decide) (by decide)).trans hfail,
      State.wardLost_flag _, hevent, State.mem_of_sameBut hsame (by simp), hsame,
      (s'.overToSeco_regsBut.mono (by simp)).trans (hward.mono (by simp))⟩
  case auxLost =>
    rintro dt s _ rfl hseco hrun
    have hexec := execClockSourceLost_aux hseco
    generalize s.pass dt = s' at hexec hrun ⊢
    obtain ⟨honSeco, hfail, hevent⟩ := s'.overToSeco_effect (d := 1) (by decide)
    have hset : (s'.overToSeco 1).regsBut ((s'.overToSeco 1).setFlag (CLK_DOM_STATUS.on_seco.ix 17) true) [CLK_DOM_STATUS.on_seco.ix 17] :=
      (State.regsBut.refl _ _).setFlag _ (by simp)
    have hidle : ((s'.overToSeco 1).setFlag (CLK_DOM_STATUS.on_seco.ix 17) true).running = false := by
      rw [← hrun, State.running, State.running, hset _ (by decide) (by decide), s'.overToSeco_regsBut _ (by decide) (by decide)]
    obtain ⟨href, hring, hlost, hregs⟩ := State.loseRefclk_effect hidle
    have hsame := ((s'.overToSeco_sameBut (d := 1)).mono (l' := [.regs, .ev, .boot]) (by simp) |>.setFlag (CLK_DOM_STATUS.on_seco.ix 17)
      true (by simp)).trans (hlost.mono (by simp))
    refine ⟨_, hexec, ?_, ?_, href, hring, ?_, State.mem_of_sameBut hsame (by simp), hsame,
      ((s'.overToSeco_regsBut.mono (by simp)).trans (hset.mono (by simp))).trans (hregs.mono (by simp [refclkFlags, readyFlags]))⟩
    · exact (hregs.flag (by decide) (by decide)).trans ((hset.flag (by decide) (by decide)).trans honSeco)
    · exact (hregs.flag (by decide) (by decide)).trans (State.flag_setFlag_same _ _ _ (by decide) rfl)
    · exact (State.lastEvent_congr (State.ev_of_sameBut hlost (by simp))).trans hevent
  case delay =>
    rintro dt a s _ rfl ha hle
    have hexec := execOscDelayExpiry_due ha hle
    generalize s.pass dt = s' at hexec ⊢
    exact ⟨_, hexec, rfl, rfl, rfl, (State.sameBut.refl _ _).boot _ (by simp)⟩
  case good =>
    rintro dt khz s _ rfl hosc hstep hlo hhi hfail
    have hexec := execRefclkMeasurement_good hosc hstep hlo hhi hfail
    generalize s.pass dt = s' at hexec ⊢
    refine ⟨_, hexec, ?_, State.flag_setFlag_same _ _ _ (by decide) rfl, rfl, rfl,
      ((State.sameBut.refl _ _).set _ _ (by simp)).setFlag _ _ (by simp), ((State.regsBut.refl _ _).set _ (by simp)).setFlag _ (by simp)⟩
    rw [State.get_setFlag_apart _ _ (by decide) (by decide), State.get_set_same _ _ _ (by decide)]
    exact Nat.mod_eq_of_lt (hhi.trans_lt (by decide))
  case bad =>
    rintro dt khz s _ rfl hosc hstep hkhz hlt
    have hexec := execRefclkMeasurement_bad hosc hstep hkhz
    generalize s.pass dt = s' at hexec ⊢
    have hregs : s'.regsBut (s'.set CLK_STATUS.refclk_khz khz) [CLK_STATUS.refclk_khz] := (State.regsBut.refl _ _).set _ (by simp)
    refine ⟨_, hexec, ?_, hregs.flag (by decide) (by decide), rfl, rfl, (State.sameBut.refl _ _).set _ _ (by simp), hregs.mono (by simp)⟩
    rw [State.get_set_same _ _ _ (by decide)]
    exact Nat.mod_eq_of_lt hlt
  case fail =>
    rintro dt a s _ rfl ha hosc hstep hdue hready hfail
    have hexec := execRefclkFail_due ha hosc hstep hdue hready hfail
    generalize s.pass dt = s' at hexec ⊢
    exact ⟨_, hexec, State.refclkFail_flag _, State.refclkFail_lastEvent _, State.refclkFail_boot _,
      State.mem_of_sameBut s'.refclkFail_sameBut (by simp), s'.refclkFail_sameBut, s'.refclkFail_regsBut⟩

end Sys2Proof.Machine
end

section
/-! PROOFS. What the statements of temperature sensing and of the hold state leave out (R476, R483, R484). -/

set_option Elab.async false

namespace Sys2Proof.Machine

/-- The state that a command leaves, when it answers one. -/
def State.afterCommand (s : State) (c : Instr) : Option State :=
  match exec c s with
  | .next t => some t
  | _ => none

theorem State.afterCommand_of_next {c : Instr} {s t : State} (h : exec c s = .next t) : s.afterCommand c = some t := by
  rw [State.afterCommand, h]

/-- All sensors read 0, and the diodes of hot spot 1, one of them excluded, have agreed for a second. -/
def agreedDiodesState : State :=
  { State.reset.set (THM_SENSOR.state.ix 2) 1 with ticks := 160000000, thm := { agreeFrom := [(1, 0)] } }

/-- Refutes O43: the last clause lets an update of references change the states of the sensors of hot spot h alone. The same update takes
the excluded diode of any other hot spot back into use once its pair has agreed for a second (R476). -/
theorem not_temperatureSensing : ¬ Obligations.TemperatureSensing := by
  unfold Obligations.TemperatureSensing
  rintro ⟨-, -, -, -, hupdate⟩
  have hfirst : (agreedDiodesState.pass 0).sensorIn (2 * 0) = true := by decide +kernel
  have hsecond : (agreedDiodesState.pass 0).sensorIn (2 * 0 + 1) = true := by decide +kernel
  have hroof : (agreedDiodesState.pass 0).sensorIn (256 + 0) = true := by decide +kernel
  have hclose : ((agreedDiodesState.pass 0).readingOf (2 * 0) - (agreedDiodesState.pass 0).readingOf (2 * 0 + 1)).natAbs ≤ 8 := by
    decide +kernel
  obtain ⟨t, ht, -, -, -, -, hregs⟩ := hupdate 0 0 agreedDiodesState _ rfl (by decide) hfirst hsecond hroof hclose
  have hkept : t.get (THM_SENSOR.state.ix 2) = (agreedDiodesState.pass 0).get (THM_SENSOR.state.ix 2) := hregs _ (by decide) (by decide)
  have hbefore : (agreedDiodesState.pass 0).get (THM_SENSOR.state.ix 2) = 1 := by decide +kernel
  have hafter : (agreedDiodesState.afterCommand (.referenceUpdate 0)).map (·.get (THM_SENSOR.state.ix 2)) = some 0 := by decide +kernel
  rw [State.afterCommand_of_next ht, Option.map_some, hkept, hbefore] at hafter
  exact absurd hafter (by decide)

/-- A device about to enter the hold state: coach 0 has its first quadrant on and no other domain, both diodes of its hot spot 0 have
failed, and the roof of that hot spot reads 0 with a learned offset of 120 °C. -/
def hotQuadrantState : State :=
  { (((State.reset.set THM_STATUS.state 2).set (PWR_DOM_STATE.state.ix 0) 2).set (THM_SENSOR.state.ix 0) 2).set (THM_SENSOR.state.ix 1) 2 with
    thm := { offsets := [(0, 4576)], cause := 1 } }

/-- Refutes O45: the first clause asks that no hot spot is too hot before the entry. Before it a hot spot counts while its whole coach is
on, and from the entry on while the quadrants are; so the entry itself can find a hot spot at 115 °C, and goes on to the first shutdown
stage, state 5 (R484). -/
theorem not_holdState : ¬ Obligations.HoldState := by
  unfold Obligations.HoldState
  rintro ⟨hentry, -⟩
  have hstate : (hotQuadrantState.pass 0).get THM_STATUS.state = 2 := by decide +kernel
  have hfly : (hotQuadrantState.pass 0).net.fly = [] := by decide +kernel
  have hhops : (hotQuadrantState.pass 0).net.hops = [] := by decide +kernel
  have hbufs : (hotQuadrantState.pass 0).net.bufs = [] := by decide +kernel
  have hcool : (hotQuadrantState.pass 0).tooHot = false := by decide +kernel
  have hcause : (hotQuadrantState.pass 0).thm.cause ≠ 5 := by decide +kernel
  have hlt : (hotQuadrantState.pass 0).thm.cause < 16 := by decide +kernel
  obtain ⟨t, ht, hheld, -⟩ := hentry 0 hotQuadrantState _ rfl hstate hfly hhops hbufs hcool hcause hlt
  have hafter : (hotQuadrantState.afterCommand (.holdStateEntry 0)).map (·.get THM_STATUS.state) = some 5 := by decide +kernel
  rw [State.afterCommand_of_next ht, Option.map_some, hheld] at hafter
  exact absurd hafter (by decide)

end Sys2Proof.Machine
end

section
/-! PROOFS. Coolant frames, fast throttle and sustained heat (R477 to R479, R482). -/

set_option Elab.async false

namespace Sys2Proof.Machine

/-! ### The THERMAL hold (R482) -/

section
variable (s : State) (cause : Nat)

/-- State 2 with its cause, which the guard raises before the hold. -/
def State.thermalState : State := { s.set THM_STATUS.state 2 with thm := { s.thm with cause := cause } }

theorem State.thermalState_effect : (s.thermalState cause).get THM_STATUS.state = 2
    ∧ s.sameBut (s.thermalState cause) [.regs, .thm] ∧ s.regsBut (s.thermalState cause) [THM_STATUS.state] :=
  ⟨State.get_set_same s THM_STATUS.state 2 (by decide), ((State.sameBut.refl s _).set _ _ (by simp)).thm _ (by simp),
    ((State.regsBut.refl s _).set _ (by simp)).of_regs rfl⟩

/-- While an image runs, the hold is raised unless it stands. -/
def State.holdThermal : State := if s.running ∧ !s.holding 5 then s.raiseHold 5 (coordHead 30) else s

theorem State.holdThermal_sameBut : s.sameBut s.holdThermal [.turn] := .ite (s.raiseHold_same 5 _) (.refl s _)

theorem State.holdThermal_holding (h : s.running = true) : s.holdThermal.holding 5 = true := by
  unfold State.holdThermal
  split
  · exact s.raiseHold_holding 5 _
  · next hc => simpa [h] using hc

theorem State.thermalHold_eq : s.thermalHold cause =
    if s.get THM_STATUS.state < 2 then (s.thermalState cause).holdThermal else s := rfl

theorem State.thermalHold_sameBut : s.sameBut (s.thermalHold cause) [.regs, .turn, .thm] := by
  obtain ⟨-, hsame, -⟩ := s.thermalState_effect cause
  exact State.thermalHold_eq s cause ▸
    .ite ((hsame.mono (by simp)).trans ((State.holdThermal_sameBut _).mono (by simp))) (.refl s _)

theorem State.thermalHold_regsBut : s.regsBut (s.thermalHold cause) [THM_STATUS.state] := by
  obtain ⟨-, -, hregs⟩ := s.thermalState_effect cause
  rw [State.thermalHold_eq]
  split
  · exact hregs.of_regs (State.regs_of_sameBut (State.holdThermal_sameBut _) (by simp))
  · exact .refl s _

/-- Of the thermal state only the cause changes. -/
theorem State.thermalHold_thm : ∃ c, (s.thermalHold cause).thm = { s.thm with cause := c } := by
  rw [State.thermalHold_eq]
  split
  · exact ⟨cause, State.sameBut_iff.1 (State.holdThermal_sameBut (s.thermalState cause)) .thm (by decide)⟩
  · exact ⟨s.thm.cause, rfl⟩

variable {s}

theorem State.thermalHold_below (h : s.get THM_STATUS.state < 2) : (s.thermalHold cause).get THM_STATUS.state = 2
    ∧ (s.thermalHold cause).thm.cause = cause ∧ (s.running = true → (s.thermalHold cause).holding 5 = true) := by
  obtain ⟨hstate, -, hregs⟩ := s.thermalState_effect cause
  have hsame := (s.thermalState cause).holdThermal_sameBut
  rw [State.thermalHold_eq, if_pos h]
  refine ⟨?_, congrArg ThmB.cause (State.sameBut_iff.1 hsame .thm (by decide)), fun hrun => State.holdThermal_holding _ ?_⟩
  · rw [State.get_congr (State.regs_of_sameBut hsame (by simp)), hstate]
  · rw [State.running, hregs _ (by decide) (by decide), ← State.running, hrun]

theorem State.thermalHold_state : 2 ≤ (s.thermalHold cause).get THM_STATUS.state := by
  by_cases h : s.get THM_STATUS.state < 2
  · exact (State.thermalHold_below cause h).1.ge
  · rw [State.thermalHold_eq, if_neg h]
    exact Nat.le_of_not_lt h
end

theorem State.followExit_sameBut (s : State) : s.sameBut s.followExit [.thm] := (State.sameBut.refl s _).thm _ (by simp)

/-! ### Fast throttle (R479) -/

section
variable (s : State) (by_ : Nat)

/-- An assertion is counted and reported. -/
def State.throttleNoted : State := (s.inc THM_COUNTS.fast_asserts).raiseHead 28 by_ 0

theorem State.throttleNoted_effect :
    (s.throttleNoted by_).get THM_COUNTS.fast_asserts = min (2 ^ THM_COUNTS.fast_asserts.w - 1) (s.get THM_COUNTS.fast_asserts + 1)
    ∧ (s.throttleNoted by_).lastEvent = some (28, by_ % 2 ^ 64, 0) ∧ s.sameBut (s.throttleNoted by_) [.regs, .ev]
    ∧ s.regsBut (s.throttleNoted by_) [THM_COUNTS.fast_asserts] :=
  ⟨State.get_inc_same s _ 1 (by decide), State.raiseHead_lastEvent _ _ _ _,
    ((State.sameBut.refl s _).set _ _ (by simp)).raise _ _ _ _ (by simp), ((State.regsBut.refl s _).inc _ (by simp)).of_regs rfl⟩

/-- What an accepted assertion does, from a state of any kind. -/
theorem State.fastThrottle_effect :
    (s.fastThrottle by_).get THM_COUNTS.fast_asserts = min (2 ^ THM_COUNTS.fast_asserts.w - 1) (s.get THM_COUNTS.fast_asserts + 1)
    ∧ (s.fastThrottle by_).lastEvent = some (28, by_ % 2 ^ 64, 0) ∧ 2 ≤ (s.fastThrottle by_).get THM_STATUS.state
    ∧ (∃ c, (s.fastThrottle by_).thm = { s.thm with cause := c })
    ∧ s.sameBut (s.fastThrottle by_) [.regs, .turn, .ev, .thm]
    ∧ s.regsBut (s.fastThrottle by_) [THM_COUNTS.fast_asserts, THM_STATUS.state] := by
  obtain ⟨hcount, hevent, hsame, hregs⟩ := s.throttleNoted_effect by_
  have hheld := (s.throttleNoted by_).thermalHold_sameBut (by_ + 1)
  have hstate := (s.throttleNoted by_).thermalHold_regsBut (by_ + 1)
  exact ⟨(hstate _ (by decide) (by decide)).trans hcount, (State.lastEvent_congr (State.ev_of_sameBut hheld (by simp))).trans hevent,
    State.thermalHold_state _, State.thermalHold_thm (s.throttleNoted by_) (by_ + 1), (hsame.mono (by simp)).trans (hheld.mono (by simp)),
    (hregs.mono (by simp)).trans (hstate.mono (by simp))⟩

theorem State.fastThrottle_below (h : s.get THM_STATUS.state < 2) :
    (s.fastThrottle by_).get THM_STATUS.state = 2 ∧ (s.fastThrottle by_).thm.cause = by_ + 1 := by
  obtain ⟨-, -, -, hregs⟩ := s.throttleNoted_effect by_
  have hbelow : (s.throttleNoted by_).get THM_STATUS.state < 2 := by rwa [hregs _ (by decide) (by decide)]
  obtain ⟨hstate, hcause, -⟩ := State.thermalHold_below (by_ + 1) hbelow
  exact ⟨hstate, hcause⟩
end

/-! ### A frame of the coolant unit (R477, R478) -/

section
variable (s : State) (v : Nat)

/-- The fields that a good frame sets. -/
def coolFields : List Fld := [THM_COOL.frames, THM_COOL.lost, THM_COOL.flow, THM_COOL.outlet, THM_COOL.inlet]

/-- The registers after a good frame. -/
def State.coolSet : State :=
  ((((s.inc THM_COOL.frames).setFlag THM_COOL.lost false).set THM_COOL.flow (bits v 14 2)).set THM_COOL.outlet (bits v 16 12)).set
    THM_COOL.inlet (bits v 28 12)

theorem State.coolSet_sameBut : s.sameBut (s.coolSet v) [.regs] :=
  (((((State.sameBut.refl s _).set _ _ (by simp)).setFlag _ _ (by simp)).set _ _ (by simp)).set _ _ (by simp)).set _ _ (by simp)

theorem State.coolSet_regsBut : s.regsBut (s.coolSet v) coolFields :=
  (((((State.regsBut.refl s _).inc _ (by simp [coolFields])).setFlag _ (by simp [coolFields])).set _ (by simp [coolFields])).set _
    (by simp [coolFields])).set _ (by simp [coolFields])

theorem bits_mod_self (v lo w : Nat) : bits v lo w % 2 ^ w = bits v lo w := Nat.mod_mod _ _

theorem State.coolSet_inlet : (s.coolSet v).get THM_COOL.inlet = bits v 28 12 :=
  (State.get_set_same _ _ _ (by decide)).trans (bits_mod_self v 28 12)

theorem State.coolSet_outlet : (s.coolSet v).get THM_COOL.outlet = bits v 16 12 := by
  rw [State.coolSet, State.get_set_apart _ _ (by decide) (by decide), State.get_set_same _ _ _ (by decide)]
  exact bits_mod_self v 16 12

theorem State.coolSet_flow : (s.coolSet v).get THM_COOL.flow = bits v 14 2 := by
  rw [State.coolSet, State.get_set_apart _ _ (by decide) (by decide), State.get_set_apart _ _ (by decide) (by decide),
    State.get_set_same _ _ _ (by decide)]
  exact bits_mod_self v 14 2

theorem State.coolSet_lost : (s.coolSet v).flag THM_COOL.lost = false := by
  rw [State.coolSet, State.flag, State.get_set_apart _ _ (by decide) (by decide), State.get_set_apart _ _ (by decide) (by decide),
    State.get_set_apart _ _ (by decide) (by decide), State.get_setFlag_same _ _ _ (by decide) rfl]
  rfl

theorem State.coolSet_frames :
    (s.coolSet v).get THM_COOL.frames = min (2 ^ THM_COOL.frames.w - 1) (s.get THM_COOL.frames + 1) := by
  rw [State.coolSet, State.get_set_apart _ _ (by decide) (by decide), State.get_set_apart _ _ (by decide) (by decide),
    State.get_set_apart _ _ (by decide) (by decide), State.get_setFlag_apart _ _ (by decide) (by decide),
    State.get_inc_same _ _ _ (by decide)]

/-- Whether a frame's inlet lies outside its range. -/
def coolWarm (v : Nat) : Bool := decide (quarter (bits v 28 12) < 100 ∨ 160 < quarter (bits v 28 12))

/-- A good frame is noted, and an inlet that leaves its range is reported. -/
def State.coolNoted : State :=
  let u := { s.coolSet v with thm := { s.thm with frameTick := s.ticks, warned := coolWarm v, stopped := bits v 14 2 == 2 } }
  if coolWarm v && !s.thm.warned then u.raiseHead 27 (bits v 28 12) 0 else u

theorem State.coolNoted_regs : (s.coolNoted v).regs = (s.coolSet v).regs := by
  unfold State.coolNoted
  dsimp only
  split <;> rfl

theorem State.coolNoted_thm :
    (s.coolNoted v).thm = { s.thm with frameTick := s.ticks, warned := coolWarm v, stopped := bits v 14 2 == 2 } := by
  unfold State.coolNoted
  dsimp only
  split <;> rfl

theorem State.coolNoted_sameBut : s.sameBut (s.coolNoted v) [.regs, .ev, .thm] := by
  have h := ((s.coolSet_sameBut v).mono (l' := [.regs, .ev, .thm]) (by simp)).thm
    { s.thm with frameTick := s.ticks, warned := coolWarm v, stopped := bits v 14 2 == 2 } (by simp)
  exact .ite (h.raise _ _ _ _ (by simp)) h

/-- A frame that reports stopped flow, after one that did not, is an assertion of fast throttle. -/
def State.coolFrame : State :=
  if bits v 14 2 == 2 && !s.thm.stopped then (s.coolNoted v).fastThrottle 1 else s.coolNoted v

/-- What an assertion may change beyond the coolant registers. -/
theorem State.coolFrame_frame : (s.coolNoted v).sameBut (s.coolFrame v) [.regs, .turn, .ev, .thm]
    ∧ (s.coolNoted v).regsBut (s.coolFrame v) [THM_COUNTS.fast_asserts, THM_STATUS.state]
    ∧ ∃ c, (s.coolFrame v).thm = { (s.coolNoted v).thm with cause := c } := by
  obtain ⟨-, -, -, hthm, hsame, hregs⟩ := (s.coolNoted v).fastThrottle_effect 1
  unfold State.coolFrame
  split
  · exact ⟨hsame, hregs, hthm⟩
  · exact ⟨.refl _ _, .refl _ _, _, rfl⟩

theorem State.coolFrame_sameBut : s.sameBut (s.coolFrame v) [.regs, .turn, .ev, .thm] :=
  ((s.coolNoted_sameBut v).mono (by simp)).trans (s.coolFrame_frame v).1

theorem State.coolFrame_regsBut :
    s.regsBut (s.coolFrame v) [.whole THM_COOL.addr, THM_COUNTS.fast_asserts, THM_STATUS.state] := by
  obtain ⟨-, hregs, -⟩ := s.coolFrame_frame v
  exact (((s.coolSet_regsBut v).widen (by decide)).of_regs (s.coolNoted_regs v)).trans (hregs.mono (by simp))

/-- The coolant registers are those that the frame set. -/
theorem State.coolFrame_get {f : Fld} (hf : f.fits) (hkey : f.key = THM_COOL.addr) : (s.coolFrame v).get f = (s.coolSet v).get f := by
  obtain ⟨-, hregs, -⟩ := s.coolFrame_frame v
  refine (hregs f hf fun g hg => .inl ?_).trans (State.get_congr (s.coolNoted_regs v) f)
  rw [hkey]
  rcases List.mem_pair.1 hg with rfl | rfl <;> decide

theorem State.coolFrame_thm :
    (s.coolFrame v).thm.frameTick = s.ticks ∧ (s.coolFrame v).thm.stopped = (bits v 14 2 == 2) := by
  obtain ⟨-, -, c, hthm⟩ := s.coolFrame_frame v
  rw [hthm, State.coolNoted_thm]
  exact ⟨rfl, rfl⟩
end

section
variable {dt v : Nat} {s : State}

theorem execCoolStatFrame_good (hcrc : crc8 (v / 256) = v % 256) (hflow : bits v 14 2 ≠ 3) :
    exec (.coolStatFrame dt v) s = .next ((s.pass dt).coolFrame v).followExit :=
  congrArg Host.Outcome.next (if_neg (by simp [hcrc, hflow]))

theorem execCoolStatFrame_bad (h : crc8 (v / 256) ≠ v % 256 ∨ bits v 14 2 = 3) :
    exec (.coolStatFrame dt v) s = .next ((s.pass dt).inc THM_COOL.bad_frames) := congrArg Host.Outcome.next (if_pos h)

/-- What a good frame does. -/
theorem State.coolFollowed_effect (s : State) (v : Nat) :
    (s.coolFrame v).followExit.get THM_COOL.frames = min (2 ^ THM_COOL.frames.w - 1) (s.get THM_COOL.frames + 1)
    ∧ (s.coolFrame v).followExit.get THM_COOL.flow = bits v 14 2 ∧ (s.coolFrame v).followExit.get THM_COOL.outlet = bits v 16 12
    ∧ (s.coolFrame v).followExit.get THM_COOL.inlet = bits v 28 12 ∧ (s.coolFrame v).followExit.flag THM_COOL.lost = false
    ∧ s.sameBut (s.coolFrame v).followExit [.regs, .turn, .ev, .thm]
    ∧ s.regsBut (s.coolFrame v).followExit [.whole THM_COOL.addr, THM_COUNTS.fast_asserts, THM_STATUS.state] := by
  have hget {f : Fld} (hf : f.fits) (hkey : f.key = THM_COOL.addr) : (s.coolFrame v).followExit.get f = (s.coolSet v).get f :=
    (State.get_congr (State.regs_of_sameBut (s.coolFrame v).followExit_sameBut (by simp)) f).trans (s.coolFrame_get v hf hkey)
  refine ⟨?_, ?_, ?_, ?_, ?_, (s.coolFrame_sameBut v).thm _ (by simp), (s.coolFrame_regsBut v).of_regs rfl⟩
  · rw [hget (by decide) rfl, State.coolSet_frames]
  · rw [hget (by decide) rfl, State.coolSet_flow]
  · rw [hget (by decide) rfl, State.coolSet_outlet]
  · rw [hget (by decide) rfl, State.coolSet_inlet]
  · rw [State.flag, hget (by decide) rfl, ← State.flag, State.coolSet_lost]

theorem execCoolLost_due (hdue : (s.pass dt).thm.frameTick + 1600000 ≤ (s.pass dt).ticks)
    (hlost : (s.pass dt).flag THM_COOL.lost = false) :
    exec (.coolLost dt) s = .next (((s.pass dt).setFlag THM_COOL.lost true).raiseHead 26 0 0).followExit :=
  congrArg Host.Outcome.next (if_pos ⟨hdue, by rw [hlost]; rfl⟩)

/-- The input is asserted. -/
def State.inputAsserted (s : State) : State := { s with thm := { s.thm with throttled := true } }

theorem State.inputAsserted_sameBut (s : State) : s.sameBut s.inputAsserted [.thm] := (State.sameBut.refl s _).thm _ (by simp)

theorem execFastThrottleIn_new (h : (s.pass dt).thm.throttled = false) :
    exec (.fastThrottleIn dt) s = .next ((s.pass dt).inputAsserted.fastThrottle 0).followExit :=
  congrArg Host.Outcome.next (if_neg (ne_true_of_eq_false h))

theorem execFastThrottleIn_again (h : (s.pass dt).thm.throttled = true) : exec (.fastThrottleIn dt) s = .next (s.pass dt) :=
  congrArg Host.Outcome.next (if_pos h)

theorem execThermalSustained_due {a : Nat} (hhot : (s.pass dt).thm.hotFrom = some a) (hdue : a + 1600000 ≤ (s.pass dt).ticks)
    (hk : (s.pass dt).k = 48) : exec (.thermalSustained dt) s = .next ((s.pass dt).thermalHold 4) := by
  refine congrArg Host.Outcome.next ?_
  simp only [hhot]
  exact if_pos ⟨hdue, hk⟩
end

/-- Settles O44. -/
theorem coolantAndHeat : Obligations.CoolantAndHeat := by
  unfold Obligations.CoolantAndHeat
  refine ⟨?good, ?bad, ?stopped, ?lost, ?asserted, ?again, ?deasserted, ?sustained⟩
  case good =>
    rintro dt v s _ rfl hcrc hflow
    have hexec := execCoolStatFrame_good (dt := dt) (s := s) hcrc hflow
    generalize s.pass dt = s' at hexec ⊢
    obtain ⟨hframes, hf, ho, hi, hlost, hsame, hregs⟩ := s'.coolFollowed_effect v
    exact ⟨_, hexec, hframes, hf, ho, hi, hlost, (s'.coolFrame_thm v).1, State.mem_of_sameBut hsame (by simp), hsame, hregs⟩
  case bad =>
    rintro dt v s _ rfl h
    have hexec := execCoolStatFrame_bad (dt := dt) (s := s) h
    generalize s.pass dt = s' at hexec ⊢
    have hregs : s'.regsBut (s'.inc THM_COOL.bad_frames) [THM_COOL.bad_frames] := (State.regsBut.refl _ _).inc _ (by simp)
    exact ⟨_, hexec, State.get_inc_same _ _ _ (by decide), hregs _ (by decide) (by decide), hregs _ (by decide) (by decide), rfl, rfl, rfl,
      rfl, (State.sameBut.refl _ _).set _ _ (by simp), hregs⟩
  case stopped =>
    rintro dt v s _ rfl hcrc hflow hstop
    have hexec := execCoolStatFrame_good (dt := dt) (s := s) hcrc (by omega)
    generalize s.pass dt = s' at hexec hstop ⊢
    obtain ⟨-, -, -, -, -, hsame, hregs⟩ := s'.coolFollowed_effect v
    have hframe : s'.coolFrame v = (s'.coolNoted v).fastThrottle 1 := if_pos (by rw [hflow, hstop]; rfl)
    obtain ⟨hcount, hevent, hstate, -, -, -⟩ := (s'.coolNoted v).fastThrottle_effect 1
    have hkept : (s'.coolNoted v).get THM_COUNTS.fast_asserts = s'.get THM_COUNTS.fast_asserts :=
      (State.get_congr (s'.coolNoted_regs v) _).trans (s'.coolSet_regsBut v _ (by decide) (by decide))
    refine ⟨_, hexec, ?_, ?_, ?_, ?_, State.mem_of_sameBut hsame (by simp), hsame, hregs⟩
    · rw [hframe, ← hkept]; exact hcount
    · exact (s'.coolFrame_thm v).2.trans (by rw [hflow]; rfl)
    · rw [hframe]; exact hstate
    · rw [hframe]; exact hevent
  case lost =>
    rintro dt s _ rfl hdue hlost
    have hexec := execCoolLost_due hdue hlost
    generalize s.pass dt = s' at hexec ⊢
    exact ⟨_, hexec, State.flag_setFlag_same s' _ _ (by decide) rfl, State.raiseHead_lastEvent _ _ _ _, rfl, rfl,
      (((State.sameBut.refl s' _).setFlag _ _ (by simp)).raise _ _ _ _ (by simp)).thm _ (by simp),
      ((State.regsBut.refl s' _).setFlag _ (by simp)).of_regs rfl⟩
  case asserted =>
    rintro dt s _ rfl hnew hbelow
    have hexec := execFastThrottleIn_new hnew
    generalize s.pass dt = s' at hexec hbelow ⊢
    obtain ⟨hcount, hevent, -, ⟨c, hthm⟩, hsame, hregs⟩ := s'.inputAsserted.fastThrottle_effect 0
    obtain ⟨hstate, hcause⟩ := s'.inputAsserted.fastThrottle_below 0 hbelow
    have hframe := ((s'.inputAsserted_sameBut.mono (by simp)).trans hsame).trans
      ((State.followExit_sameBut _).mono (l' := [.regs, .turn, .ev, .thm]) (by simp))
    exact ⟨_, hexec, congrArg ThmB.throttled hthm, hcount, hstate, hcause, hevent, State.mem_of_sameBut hframe (by simp), hframe,
      ((State.regsBut_of_regs rfl _).trans hregs).of_regs rfl⟩
  case again =>
    rintro dt s _ rfl h
    exact ⟨_, execFastThrottleIn_again h, rfl, .refl _ _⟩
  case deasserted =>
    rintro dt s _ rfl
    have hexec : exec (.fastThrottleDeasserted dt) s =
      .next ({ s.pass dt with thm := { (s.pass dt).thm with throttled := false } } : State).followExit := rfl
    generalize s.pass dt = s' at hexec ⊢
    exact ⟨_, hexec, rfl, rfl, rfl, rfl, rfl, ((State.sameBut.refl s' _).thm _ (by simp)).thm _ (by simp)⟩
  case sustained =>
    rintro dt a s _ rfl hhot hdue hk hbelow
    have hexec := execThermalSustained_due hhot hdue hk
    generalize s.pass dt = s' at hexec hbelow ⊢
    obtain ⟨hstate, hcause, hhold⟩ := State.thermalHold_below 4 hbelow
    have hsame := s'.thermalHold_sameBut 4
    exact ⟨_, hexec, hstate, hcause, hhold, State.mem_of_sameBut hsame (by simp), State.ev_of_sameBut hsame (by simp), hsame,
      s'.thermalHold_regsBut 4⟩

end Sys2Proof.Machine
end

section
/-! PROOFS. Start-up (R536, R538, R543): how a step begins, ends and runs out of time. -/

set_option Elab.async false

namespace Sys2Proof.Machine

/-! ### A step begins (R538) -/

section
variable (s : State) (n : Nat)

/-- What every step begins with. -/
def State.stepBegun : State := { s.set HEAD_BOOT_STATUS.step n with boot := { s.boot with stepTick := s.ticks } }

theorem State.stepBegun_sameBut : s.sameBut (s.stepBegun n) [.regs, .boot] :=
  ((State.sameBut.refl s _).set _ _ (by simp)).boot _ (by simp)

theorem State.stepBegun_regsBut : s.regsBut (s.stepBegun n) [HEAD_BOOT_STATUS.step] :=
  ((State.regsBut.refl s _).set _ (by simp)).of_regs rfl

theorem State.stepBegun_sbx : (s.stepBegun n).sbx = s.sbx := rfl

variable {n}

theorem State.stepBegun_step (hn : n < 16) : (s.stepBegun n).get HEAD_BOOT_STATUS.step = n :=
  (State.get_set_same s HEAD_BOOT_STATUS.step n (by decide)).trans (Nat.mod_eq_of_lt hn)
end

/-! ### PWRGOOD rises (R536) -/

/-- The strap is taken, and the oscillator delay runs from now. -/
def State.strapTaken (s : State) (strap : Nat) : State :=
  { s.set CLK_STATUS.osc_dly strap with
    boot := { s.boot with pwrgood := true, fell := none, oscDue := some (s.ticks + usTicks (50 * strapDelay strap)), startTick := s.ticks } }

theorem execPwrgoodRise_starts {dt strap : Nat} {s : State} (hpwr : (s.pass dt).boot.pwrgood = false) (hfell : (s.pass dt).boot.fell = none) :
    exec (.pwrgoodRise dt strap) s = .next (((s.pass dt).strapTaken (strap % 16)).stepBegun 2) :=
  congrArg Host.Outcome.next ((if_neg (ne_true_of_eq_false hpwr)).trans (if_neg (by rw [hfell]; decide)))

theorem State.strapTaken_effect (s : State) {strap : Nat} (h : strap < 16) :
    (s.strapTaken strap).get CLK_STATUS.osc_dly = strap ∧ s.sameBut (s.strapTaken strap) [.regs, .boot]
    ∧ s.regsBut (s.strapTaken strap) [CLK_STATUS.osc_dly] :=
  ⟨(State.get_set_same s CLK_STATUS.osc_dly strap (by decide)).trans (Nat.mod_eq_of_lt h),
    ((State.sameBut.refl s _).set _ _ (by simp)).boot _ (by simp), ((State.regsBut.refl s _).set _ (by simp)).of_regs rfl⟩

/-! ### A step ends, or runs out of time (R538) -/

/-- The fields of HEAD_BOOT_STATUS that start-up sets. -/
def bootFields : List Fld := [HEAD_BOOT_STATUS.step, HEAD_BOOT_STATUS.halt, HEAD_BOOT_STATUS.bist_fail, HEAD_BOOT_STATUS.towers_failed,
  HEAD_BOOT_STATUS.couplings_up, HEAD_BOOT_STATUS.ready_ms]

theorem State.halted_effect (s : State) {c : Nat} (hc : c < 16) :
    (s.set HEAD_BOOT_STATUS.halt c).get HEAD_BOOT_STATUS.halt = c
    ∧ (s.set HEAD_BOOT_STATUS.halt c).get HEAD_BOOT_STATUS.step = s.get HEAD_BOOT_STATUS.step
    ∧ s.sameBut (s.set HEAD_BOOT_STATUS.halt c) [.regs] ∧ s.regsBut (s.set HEAD_BOOT_STATUS.halt c) bootFields :=
  ⟨(State.get_set_same s _ _ (by decide)).trans (Nat.mod_eq_of_lt hc), State.get_set_apart s _ (by decide) (by decide),
    (State.sameBut.refl s _).set _ _ (by simp), (State.regsBut.refl s _).set _ (by simp [bootFields])⟩

section
variable {s : State} {n : Nat} (hstep : s.get HEAD_BOOT_STATUS.step = n) (hhalt : s.get HEAD_BOOT_STATUS.halt = 0)
include hstep hhalt

theorem State.starting_of_step (hlo : 2 ≤ n) (hhi : n ≤ 9) : s.starting = true := by simp [State.starting, hstep, hhalt, hlo, hhi]
end

section
variable {dt n : Nat} {e : StartEnv} {s : State} (hstep : (s.pass dt).get HEAD_BOOT_STATUS.step = n)
  (hhalt : (s.pass dt).get HEAD_BOOT_STATUS.halt = 0) (hlo : 2 ≤ n) (hhi : n ≤ 9)
include hstep hhalt hlo hhi

theorem execStartupStepComplete_done (hdone : (s.pass dt).stepDone n = true) :
    exec (.startupStepComplete dt e) s = .next ((s.pass dt).finishStep n e) := by
  subst hstep
  exact congrArg Host.Outcome.next (if_pos ⟨State.starting_of_step rfl hhalt hlo hhi, hdone⟩)

/-- Steps 2 to 5 halt when they exceed their limit. -/
theorem execStartupStepTimeout_halts (hlimit : (s.pass dt).boot.stepTick + (s.pass dt).stepLimit n ≤ (s.pass dt).ticks) (h5 : n ≤ 5) :
    exec (.startupStepTimeout dt e) s = .next ((s.pass dt).set HEAD_BOOT_STATUS.halt
      (if n = 2 then if (s.pass dt).get SBX_STATUS.mode = 2 then 1 else 2 else n)) := by
  have hstart := State.starting_of_step hstep hhalt hlo hhi
  change execStartupStepTimeout dt e s = _
  simp only [execStartupStepTimeout, hstep]
  rw [if_pos ⟨hstart, hlimit⟩]
  obtain rfl | rfl | rfl | rfl : n = 2 ∨ n = 3 ∨ n = 4 ∨ n = 5 := by omega
  all_goals rfl
end

/-! ### The end of steps 2 and 3 (R538) -/

theorem State.finishStep_noSlot {s : State} {e : StartEnv} (h : s.bootSlot = none) :
    s.finishStep 2 e = s.set HEAD_BOOT_STATUS.halt 2 := by
  simp only [State.finishStep, h]

/-- Each guard watches its neighbour. -/
def State.watchNeighbours (s : State) : State :=
  (List.range 4).foldl (fun t i => t.set (GRD_WATCHDOG_i.watcher.guard i) ((i + 1) % 4)) s

/-- The version of the slot that booted is the least one, and no slot waits to be reported. -/
def State.versionKept (s : State) : State :=
  { s with sbx := { s.sbx with minSvn := s.slotSvn (s.get SBX_STATUS.boot_slot), notBootable := [] } }

theorem State.versionKept_minSvn (s : State) : s.versionKept.sbx.minSvn = s.slotSvn (s.get SBX_STATUS.boot_slot) := rfl

theorem State.finishStep_watchers {s : State} {e : StartEnv} (h : s.sbx.notBootable = []) :
    s.finishStep 3 e = s.versionKept.watchNeighbours.stepBegun 4 := by
  simp only [State.finishStep, h]
  rfl

/-- The registers of the four guards' watchers. -/
def guardFields : List Fld := (List.range 4).flatMap fun i => [GRD_WATCHDOG_i.state.guard i, GRD_WATCHDOG_i.watcher.guard i]

theorem State.watchNeighbours_sameBut (s : State) : s.sameBut s.watchNeighbours [.regs] :=
  (State.sameBut.refl s _).foldl fun _ _ h => h.set _ _ (by simp)

theorem State.watchNeighbours_regsBut (s : State) : s.regsBut s.watchNeighbours guardFields :=
  (State.regsBut.refl s _).foldl fun _ i hi h => h.set _ (List.mem_flatMap.2 ⟨i, hi, by simp⟩)

theorem State.watchNeighbours_watcher (s : State) {g : Nat} (hg : g < 4) :
    s.watchNeighbours.get (GRD_WATCHDOG_i.watcher.guard g) = (g + 1) % 4 := by
  have hsame (u : State) : (u.set (GRD_WATCHDOG_i.watcher.guard g) ((g + 1) % 4)).get (GRD_WATCHDOG_i.watcher.guard g) = (g + 1) % 4 :=
    (u.get_set_guard g _ (by decide)).trans (Nat.mod_mod _ _)
  have hother (u : State) {i : Nat} (v : Nat) (hi : i ≠ g) :
      (u.set (GRD_WATCHDOG_i.watcher.guard i) v).get (GRD_WATCHDOG_i.watcher.guard g) = u.get (GRD_WATCHDOG_i.watcher.guard g) :=
    State.get_set_apart _ _ (Fld.guard_fits (by decide) g) (.inl (by simp only [Fld.guard, Fld.off]; omega))
  have hwatch : s.watchNeighbours = ((((s.set (GRD_WATCHDOG_i.watcher.guard 0) 1).set (GRD_WATCHDOG_i.watcher.guard 1) 2).set
    (GRD_WATCHDOG_i.watcher.guard 2) 3).set (GRD_WATCHDOG_i.watcher.guard 3) 0) := rfl
  obtain rfl | rfl | rfl | rfl : g = 0 ∨ g = 1 ∨ g = 2 ∨ g = 3 := by omega
  · rw [hwatch, hother _ _ (by decide), hother _ _ (by decide), hother _ _ (by decide)]; exact hsame _
  · rw [hwatch, hother _ _ (by decide), hother _ _ (by decide)]; exact hsame _
  · rw [hwatch, hother _ _ (by decide)]; exact hsame _
  · exact hsame _

/-! ### Step 7 ends and step 8 begins (R543) -/

/-- From `s` to `t` coaches have been asked to power on: HEAD_BOOT_STATUS stands. -/
structure State.PowersOn (s t : State) : Prop where
  parts : s.sameBut t [.regs, .boot, .pwr]
  boot : ∀ f : Fld, f.fits → f.key = HEAD_BOOT_STATUS.addr → t.get f = s.get f

namespace State.PowersOn

variable {s t : State}

theorem refl (s : State) : s.PowersOn s := ⟨.refl s _, fun _ _ _ => rfl⟩

theorem set (h : s.PowersOn t) {f : Fld} (v : Nat) (hkey : f.key ≠ HEAD_BOOT_STATUS.addr) : s.PowersOn (t.set f v) :=
  ⟨h.parts.set _ _ (by simp), fun g hg hg' => (State.get_set_apart _ _ hg (.inl (hg' ▸ hkey))).trans (h.boot g hg hg')⟩

/-- A copy of an indexed register below HEAD_BOOT_STATUS is not that one. -/
theorem setIx (h : s.PowersOn t) {f : Fld} (i v : Nat) (hkey : f.key < HEAD_BOOT_STATUS.addr) : s.PowersOn (t.set (f.ix i) v) :=
  h.set v (by simp only [Fld.ix, HEAD_BOOT_STATUS] at hkey ⊢; omega)

theorem pwr (h : s.PowersOn t) (p : PwrB) : s.PowersOn { t with pwr := p } := ⟨h.parts.pwr _ (by simp), h.boot⟩

theorem sendRail (h : s.PowersOn t) (rail op data : Nat) : s.PowersOn (t.sendRail rail op data) := by
  unfold State.sendRail
  split
  · exact h
  · dsimp only
    split
    · exact (h.pwr _).setIx _ _ (by decide)
    · exact h.pwr _

theorem foldl {α : Type} {f : State → α → State} {xs : List α} (h : s.PowersOn t) (hf : ∀ u x, s.PowersOn u → s.PowersOn (f u x)) :
    s.PowersOn (xs.foldl f t) := by
  induction xs generalizing t with
  | nil => exact h
  | cons x xs ih => exact ih (hf t x h)

end State.PowersOn

/-- The coaches that are not isolated. -/
def State.goodCoaches (s : State) : List Nat := (List.range 64).filter fun c => !s.rep.isolated.contains c

/-- Step 8 begins: the coaches in use wait to power on. -/
theorem State.beginStep_coaches (s : State) :
    (s.stepBegun 8).PowersOn (s.beginStep 8) ∧ (s.beginStep 8).pwr.waiting = s.goodCoaches := by
  refine ⟨?_, rfl⟩
  refine State.PowersOn.pwr ?_ _
  refine State.PowersOn.foldl ?_ fun t c h => ?retained
  · refine State.PowersOn.foldl ?_ fun t b h => (h.sendRail _ _ _).sendRail _ _ _
    refine State.PowersOn.foldl ?_ fun t c h => (((h.sendRail _ _ _).sendRail _ _ _).sendRail _ _ _).sendRail _ _ _
    exact ((State.PowersOn.refl _).set _ (by decide)).set _ (by decide)
  case retained =>
    split
    · exact h.setIx _ _ (by decide)
    · exact h

/-- The couplings that are up are counted. -/
def State.couplingsCounted (s : State) : State :=
  s.set HEAD_BOOT_STATUS.couplings_up ((List.range 24).filter fun b => s.get (CPL_STATUS.state.cpl b) == 2).length

theorem State.couplingsCounted_get (s : State) : s.couplingsCounted.get HEAD_BOOT_STATUS.couplings_up =
    ((List.range 24).filter fun b => s.get (CPL_STATUS.state.cpl b) == 2).length := by
  have hle : ((List.range 24).filter fun b => s.get (CPL_STATUS.state.cpl b) == 2).length ≤ 24 :=
    (List.length_filter_le _ _).trans (List.length_range).le
  exact (State.get_set_same _ _ _ (by decide)).trans (Nat.mod_eq_of_lt (hle.trans_lt (by decide)))

theorem State.finishStep_couplings (s : State) (e : StartEnv) : s.finishStep 7 e = s.couplingsCounted.beginStep 8 := rfl

/-- Settles O46. -/
theorem startUpSteps : Obligations.StartUpSteps := by
  unfold Obligations.StartUpSteps
  refine ⟨?rise, ?noSlot, ?watchers, ?couplings, ?timeout, ?timeout2⟩
  case rise =>
    rintro dt strap s _ rfl hpwr hfell
    have hexec := execPwrgoodRise_starts (strap := strap) hpwr hfell
    generalize s.pass dt = s' at hexec ⊢
    obtain ⟨hdelay, hsame, hregs⟩ := s'.strapTaken_effect (Nat.mod_lt strap (by decide : 16 > 0))
    have hbegun := (s'.strapTaken (strap % 16)).stepBegun_regsBut 2
    exact ⟨_, hexec, State.stepBegun_step _ (by decide), (hbegun _ (by decide) (by decide)).trans hdelay, rfl, rfl, rfl, rfl,
      hsame.trans (State.stepBegun_sameBut _ _), (hregs.mono (by simp)).trans (hbegun.mono (by simp))⟩
  case noSlot =>
    rintro dt e s _ rfl hstep hhalt hmode hslot
    have hexec := execStartupStepComplete_done (e := e) hstep hhalt (by decide) (by decide)
      (by rw [State.stepDone, hmode]; rfl)
    rw [State.finishStep_noSlot hslot] at hexec
    generalize s.pass dt = s' at hexec hstep ⊢
    obtain ⟨hhalted, hkept, hsame, hregs⟩ := s'.halted_effect (c := 2) (by decide)
    exact ⟨_, hexec, hhalted, hkept.trans hstep, rfl, hsame, hregs⟩
  case watchers =>
    rintro dt e g s _ rfl hstep hhalt hslots hg
    have hexec := execStartupStepComplete_done (e := e) hstep hhalt (by decide) (by decide) rfl
    rw [State.finishStep_watchers hslots] at hexec
    generalize s.pass dt = s' at hexec ⊢
    have hkept : s'.sameBut s'.versionKept [.regs, .sbx, .boot] := by simp [State.sameBut, State.versionKept]
    have hwatch := s'.versionKept.watchNeighbours_sameBut
    have hbegun := s'.versionKept.watchNeighbours.stepBegun_regsBut 4
    have hsame := (hkept.trans (hwatch.mono (by simp))).trans
      ((s'.versionKept.watchNeighbours.stepBegun_sameBut 4).mono (l' := [.regs, .sbx, .boot]) (by simp))
    have hsbx : s'.versionKept.watchNeighbours.sbx = s'.versionKept.sbx := State.sameBut_iff.1 hwatch .sbx (by decide)
    have hticks : s'.versionKept.watchNeighbours.ticks = s'.versionKept.ticks := State.sameBut_iff.1 hwatch .ticks (by decide)
    have hsvn : (s'.versionKept.watchNeighbours.stepBegun 4).sbx.minSvn = s'.slotSvn (s'.get SBX_STATUS.boot_slot) := by
      rw [State.stepBegun_sbx, hsbx, State.versionKept_minSvn]
    refine ⟨_, hexec, State.stepBegun_step _ (by decide), ?_, hsvn, hticks, State.mem_of_sameBut hsame (by simp),
      State.ev_of_sameBut hsame (by simp), hsame, ?_⟩
    · refine (hbegun _ (Fld.guard_fits (by decide) g) fun x hx => .inl ?_).trans (State.watchNeighbours_watcher _ hg)
      rw [List.mem_singleton.1 hx]
      simp only [Fld.guard, Fld.off, GRD_WATCHDOG_i.watcher, HEAD_BOOT_STATUS.step]
      omega
    · exact ((State.regsBut_of_regs rfl _).trans (s'.versionKept.watchNeighbours_regsBut.mono (List.subset_append_right _ _))).trans
        (hbegun.mono (by simp))
  case couplings =>
    rintro dt e s _ rfl hstep hhalt hup
    have hexec := execStartupStepComplete_done (e := e) hstep hhalt (by decide) (by decide) hup
    rw [State.finishStep_couplings] at hexec
    generalize s.pass dt = s' at hexec ⊢
    obtain ⟨⟨hparts, hboot⟩, hwaiting⟩ := s'.couplingsCounted.beginStep_coaches
    have hsame := (((State.sameBut.refl s' [.regs, .boot, .pwr]).set _ _ (by simp)).trans
      ((s'.couplingsCounted.stepBegun_sameBut 8).mono (by simp))).trans hparts
    refine ⟨_, hexec, ?_, ?_, hwaiting, State.mem_of_sameBut hsame (by simp), hsame⟩
    · exact (hboot _ (by decide) rfl).trans (State.stepBegun_step _ (by decide))
    · exact (hboot _ (by decide) rfl).trans ((s'.couplingsCounted.stepBegun_regsBut 8 _ (by decide) (by decide)).trans
        s'.couplingsCounted_get)
  case timeout =>
    rintro dt e s _ rfl hstep hhalt hlimit
    have hexec := execStartupStepTimeout_halts (e := e) rfl hhalt (by omega) (by omega) hlimit (by omega)
    rw [if_neg (by omega)] at hexec
    generalize s.pass dt = s' at hexec hstep ⊢
    obtain ⟨hhalted, hkept, hsame, hregs⟩ := s'.halted_effect (c := s'.get HEAD_BOOT_STATUS.step) (by omega)
    exact ⟨_, hexec, hhalted, hkept, rfl, rfl, hsame, hregs⟩
  case timeout2 =>
    rintro dt e s _ rfl hstep hhalt hlimit
    have hexec := execStartupStepTimeout_halts (e := e) hstep hhalt (by decide) (by decide) ((Nat.add_comm _ _).trans_le hlimit)
      (by decide)
    rw [if_pos rfl] at hexec
    generalize s.pass dt = s' at hexec hstep ⊢
    obtain ⟨hhalted, hkept, hsame, hregs⟩ := s'.halted_effect (c := if s'.get SBX_STATUS.mode = 2 then 1 else 2) (by split <;> decide)
    exact ⟨_, hexec, hhalted, hkept.trans hstep, rfl, hsame, hregs⟩

end Sys2Proof.Machine
end

section
/-! PROOFS. Handshakes and sessions (R511, R515 to R518). -/

set_option Elab.async false

namespace Sys2Proof.Machine

/-! ### A session ends, and a handshake is given up (R389, R516) -/

section
variable (s : State)

/-- The link's state once the session, if one is open, has ended. -/
theorem State.endSession_link : s.endSession.get CTL_PORT_STATUS.link =
    if s.get CTL_PORT_STATUS.link = 2 then 1 else s.get CTL_PORT_STATUS.link := by
  split
  · next h => exact (State.endSession_effect h).1
  · next h => rw [State.endSession, if_neg h]

theorem State.endSession_sameBut : s.sameBut s.endSession [.regs, .port] := by
  by_cases h : s.get CTL_PORT_STATUS.link = 2
  · obtain ⟨-, -, -, -, -, hsame, -⟩ := State.endSession_effect h
    exact hsame
  · rw [State.endSession, if_neg h]
    exact .refl s _

theorem State.endSession_regsBut : s.regsBut s.endSession [CTL_PORT_STATUS.role, CTL_PORT_STATUS.link] := by
  by_cases h : s.get CTL_PORT_STATUS.link = 2
  · obtain ⟨-, -, -, -, -, -, hregs⟩ := State.endSession_effect h
    exact hregs
  · rw [State.endSession, if_neg h]
    exact .refl s _

theorem State.endSession_shake : s.endSession.port.shake = s.port.shake := by
  unfold State.endSession
  split <;> rfl

theorem State.dropShake_sameBut : s.sameBut s.dropShake [.regs, .port] :=
  .ite (by simp [State.sameBut, State.inc]) (.refl s _)

theorem State.dropShake_regsBut : s.regsBut s.dropShake [SBX_STATUS.hs_fail] := by
  unfold State.dropShake
  split
  · exact (State.regsBut_of_regs rfl _).trans ((State.regsBut.refl { s with port := { s.port with shake := none } } _).inc _ (by simp))
  · exact .refl s _

theorem State.dropShake_shake : s.dropShake.port.shake = none := by
  unfold State.dropShake
  split
  · rfl
  · next h => simpa using h

variable {s}

theorem State.dropShake_none (h : s.port.shake = none) : s.dropShake = s := if_neg (by rw [h]; decide)

theorem State.dropShake_hsFail (h : s.port.shake.isSome = true) :
    s.dropShake.get SBX_STATUS.hs_fail = min (2 ^ SBX_STATUS.hs_fail.w - 1) (s.get SBX_STATUS.hs_fail + 1) := by
  rw [State.dropShake, if_pos h]
  exact State.get_inc_same { s with port := { s.port with shake := none } } _ 1 (by decide)

theorem State.sendShake_sameBut (s : State) (m : List Byte) : s.sameBut (s.sendShake m) [.port] := by simp [State.sameBut, State.sendShake]
end

/-! ### H1 (R516) -/

/-- An H1 of the operator for slot 0, with its nonce. -/
def operatorHello (n : List Byte) : List Byte := [1, 1, 0, 0] ++ n

/-- No session is open and no handshake is in progress. -/
def State.cleared (s : State) : State := s.endSession.dropShake

theorem State.cleared_sameBut (s : State) : s.sameBut s.cleared [.regs, .port] :=
  s.endSession_sameBut.trans (State.dropShake_sameBut _)

/-- The registers that the begin of a handshake may change. -/
def helloFields : List Fld := [CTL_PORT_STATUS.role, CTL_PORT_STATUS.link, SBX_STATUS.hs_fail]

theorem State.cleared_regsBut (s : State) : s.regsBut s.cleared helloFields :=
  (s.endSession_regsBut.mono (by simp [helloFields])).trans ((State.dropShake_regsBut _).mono (by simp [helloFields]))

theorem State.cleared_mode (s : State) : s.cleared.get SBX_STATUS.mode = s.get SBX_STATUS.mode :=
  s.cleared_regsBut _ (by decide) (by decide)

theorem State.cleared_link (s : State) : s.cleared.get CTL_PORT_STATUS.link =
    if s.get CTL_PORT_STATUS.link = 2 then 1 else s.get CTL_PORT_STATUS.link :=
  (State.dropShake_regsBut _ _ (by decide) (by decide)).trans s.endSession_link

/-- The message that answers H1, up to its signature. -/
def State.helloBody (s : State) : List Byte :=
  [2, 0, 0, 0] ++ (s.takeBytes 32).1 ++ Config.mlkemEk s.sbx.kems ++ Config.sha3 identityPk

/-- The answer to H1. -/
def State.helloAnswer (s : State) (m : List Byte) : List Byte := s.helloBody ++ Config.mldsaSign 2 (Config.sha3 (m ++ s.helloBody))

/-- The handshake that the operator's H1 begins, with a new key pair, and its answer. -/
def State.helloTaken (s : State) (m : List Byte) : State :=
  { s with free := s.free + 32, sbx := { s.sbx with kems := s.sbx.kems + 1 }
           port := { s.port with shake := some ⟨m, s.helloAnswer m, 1, 0, s.sbx.kems, s.ticks⟩, shakeOut := s.helloAnswer m } }

/-- A strongbox in its error state refuses. -/
def State.helloRefused (s : State) : State := (s.inc SBX_STATUS.hs_fail).sendShake [2, 4]

section
variable {s : State} {n : List Byte} (hlink : 1 ≤ s.get CTL_PORT_STATUS.link) (hn : n.length = 32)
include hlink hn

theorem State.helloIn_operator : s.helloIn (operatorHello n) =
    if s.cleared.get SBX_STATUS.mode = 2 then s.cleared.helloRefused else s.cleared.helloTaken (operatorHello n) := by
  refine (if_neg ?_).trans rfl
  rintro (h | h | h | h | h)
  · omega
  · exact h (by simp [operatorHello, hn])
  · exact h rfl
  · exact h rfl
  · exact Bool.false_ne_true h
end

/-! ### H2 (R517) -/

section
variable {s : State} {h : Shake} {m : List Byte} (hshake : s.port.shake = some h) (hlink : 1 ≤ s.get CTL_PORT_STATUS.link)
  (hlen : m.length = 4824) (htake : m.take 4 = [3, 0, 0, 0])
include hshake hlink hlen htake

/-- The operator's key that H2 carries. -/
def carriedKey (m : List Byte) : List Byte := (m.drop 1092).take 1312

theorem State.finishIn_refused {st : Nat} (hst : s.shakeStatus h m = st) (h0 : st ≠ 0) :
    s.finishIn m = s.dropShake.sendShake ([4, BitVec.ofNat 8 st, 0, 0] ++ leBytes 32 0) := by
  subst hst
  simp only [State.finishIn, hshake]
  rw [if_neg (by rintro (h | h | h); exacts [by omega, h hlen, h htake]), if_pos h0]

/-- The device's answer to an H2 that it accepts. -/
def acceptAnswer (ss t : List Byte) : List Byte := [4, 0, 0, 0] ++ Config.sha3 (ss ++ confirmLabel ++ t)

theorem State.finishIn_accepted (hst : s.shakeStatus h m = 0) : ∃ ss t,
    s.finishIn m = ((s.openSession h.role (carriedKey m) ss t).sendShake (acceptAnswer ss t)).transmit := by
  refine ⟨Config.mlkemDecaps h.kem ((m.drop 4).take 1088), Config.sha3 (h.h1 ++ h.d1 ++ m), ?_⟩
  simp only [State.finishIn, hshake]
  rw [if_neg (by rintro (h | h | h); exacts [by omega, h hlen, h htake]), if_neg (by rw [hst]; decide)]
  rfl
end

section
variable {s : State} {h : Shake} {m : List Byte} (hmode : s.get SBX_STATUS.mode ≠ 2)
include hmode

theorem State.shakeStatus_service (hrole : h.role = 2) (hallow : s.flag SBX_POLICY.allow_service = false) : s.shakeStatus h m = 1 := by
  simp [State.shakeStatus, hmode, hrole, hallow]

/-- Any key serves a device that no operator has claimed; its signature tells. -/
theorem State.shakeStatus_unclaimed (hrole : h.role = 1) (hclaimed : s.flag SBX_STATUS.claimed = false) : s.shakeStatus h m =
    if Config.mldsaVerify 3 (carriedKey m) (Config.sha3 (h.h1 ++ h.d1 ++ m.take 2404)) (m.drop 2404) = true then 0 else 3 := by
  have hkey : ¬(!(if h.role = 2 then Config.sha3 (carriedKey m) == Config.fusedDigest 1
      else if s.flag SBX_STATUS.claimed = true then Sparse.find s.sbx.keys h.slot == some (carriedKey m) else true)) = true := by
    simp [hrole, hclaimed]
  refine (if_neg hmode).trans ((if_neg (by simp [hrole])).trans ((if_neg hkey).trans ?_))
  change (if (!Config.mldsaVerify 3 (carriedKey m) (Config.sha3 (h.h1 ++ h.d1 ++ m.take 2404)) (m.drop 2404)) = true then 3 else 0) = _
  cases Config.mldsaVerify 3 (carriedKey m) (Config.sha3 (h.h1 ++ h.d1 ++ m.take 2404)) (m.drop 2404) <;> rfl
end

/-- A handshake that is refused is dropped, with the answer that says why. -/
theorem State.refused_effect {s : State} (hshake : s.port.shake.isSome = true) (answer : List Byte) :
    (s.dropShake.sendShake answer).port.shake = none ∧ (s.dropShake.sendShake answer).port.shakeOut = answer
    ∧ (s.dropShake.sendShake answer).get SBX_STATUS.hs_fail = min (2 ^ SBX_STATUS.hs_fail.w - 1) (s.get SBX_STATUS.hs_fail + 1)
    ∧ s.sameBut (s.dropShake.sendShake answer) [.regs, .port] ∧ s.regsBut (s.dropShake.sendShake answer) [SBX_STATUS.hs_fail] :=
  ⟨s.dropShake_shake, rfl, State.dropShake_hsFail hshake, s.dropShake_sameBut.trans ((State.sendShake_sameBut _ _).mono (by simp)),
    s.dropShake_regsBut.of_regs rfl⟩

/-! ### The session opens (R389, R515) -/

/-- `claimed` and `occupied` follow the keys. -/
theorem State.syncKeys_sameBut (s : State) : s.sameBut s.syncKeys [.regs] :=
  ((State.sameBut.refl s _).set _ _ (by simp)).setFlag _ _ (by simp)

theorem State.syncKeys_regsBut (s : State) : s.regsBut s.syncKeys [SBX_STATUS.claimed, SBX_KEY_STATE.occupied] :=
  ((State.regsBut.refl s _).set _ (by simp)).setFlag _ (by simp)

theorem Sparse.mem_put_self {α : Type} (m : Sparse α) (k : Nat) (v : α) : (k, v) ∈ Sparse.put m k v := by
  induction m with
  | nil => simp [Sparse.put]
  | cons p m ih =>
    unfold Sparse.put
    split_ifs
    · exact List.mem_cons_self
    · exact List.mem_cons_self
    · exact List.mem_cons_of_mem _ ih

section
variable (s : State) (pk : List Byte)

/-- An unclaimed device enrols the operator's key into slot 0. -/
def State.enrolled : State := ({ s with sbx := { s.sbx with keys := Sparse.put s.sbx.keys 0 pk } } : State).syncKeys

theorem State.enrolled_claimed : (s.enrolled pk).flag SBX_STATUS.claimed = true := by
  refine (State.flag_setFlag_same _ _ _ (by decide) rfl).trans (List.any_eq_true.2 ⟨_, Sparse.mem_put_self s.sbx.keys 0 pk, rfl⟩)

theorem State.enrolled_key : Sparse.find (s.enrolled pk).sbx.keys 0 = some pk := Sparse.find_put_same _ _ _

theorem State.enrolled_sameBut : s.sameBut (s.enrolled pk) [.regs, .sbx] :=
  State.sameBut.trans (by simp [State.sameBut]) ((State.syncKeys_sameBut { s with sbx := { s.sbx with keys := Sparse.put s.sbx.keys 0 pk } }).mono
    (by simp))

theorem State.enrolled_regsBut : s.regsBut (s.enrolled pk) [SBX_STATUS.claimed, SBX_KEY_STATE.occupied] :=
  (State.regsBut_of_regs rfl _).trans (State.syncKeys_regsBut { s with sbx := { s.sbx with keys := Sparse.put s.sbx.keys 0 pk } })

/-- The port of a session that opens: its secret, keys of phase 0, and every channel sending again. -/
def State.sessionPort (ss t : List Byte) : PortB :=
  { s.port with
    secret := ss, transcript := t, txPhase := 0, rxPhase := 0, controlMark := s.port.controls, shake := none
    chans := s.port.chans.map fun (x : Chan) =>
      { x with txEnd := x.txNext, txMark := mod32 (x.txNext + 2 ^ 32 - x.unacked.length), ackTick := s.ticks, told := none } }

/-- The link shows the open session. -/
def State.sessionShown (role : Nat) (p : PortB) : State :=
  (({ s with port := p }.set CTL_PORT_STATUS.link 2).set CTL_PORT_STATUS.role role).set CTL_PORT_STATUS.key_phase 0

theorem State.reseal_same : s.sameButChans s.reseal := State.foldl_same _ _ (fun _ _ => State.updChan_same _ _ _) _

theorem State.openSession_eq (role : Nat) (ss t : List Byte) : s.openSession role pk ss t =
    (fun u : State => (u.sessionShown role (u.sessionPort ss t)).reseal)
      (if role = 1 ∧ (!s.flag SBX_STATUS.claimed) = true then s.enrolled pk else s) := rfl

theorem State.sessionPort_shake (ss t : List Byte) : (s.sessionPort ss t).shake = none := rfl

variable {s}

theorem State.openSession_unclaimed (h : s.flag SBX_STATUS.claimed = false) (ss t : List Byte) :
    s.openSession 1 pk ss t = ((s.enrolled pk).sessionShown 1 ((s.enrolled pk).sessionPort ss t)).reseal := by
  rw [State.openSession_eq, if_pos ⟨rfl, by rw [h]; rfl⟩]
end

/-- Fields that an open session shows. -/
theorem State.sessionShown_effect (s : State) (p : PortB) :
    (s.sessionShown 1 p).get CTL_PORT_STATUS.link = 2 ∧ (s.sessionShown 1 p).get CTL_PORT_STATUS.role = 1
    ∧ (s.sessionShown 1 p).get CTL_PORT_STATUS.key_phase = 0 ∧ s.sameBut (s.sessionShown 1 p) [.regs, .port]
    ∧ s.regsBut (s.sessionShown 1 p) [CTL_PORT_STATUS.key_phase, CTL_PORT_STATUS.role, CTL_PORT_STATUS.link] := by
  refine ⟨?_, ?_, State.get_set_same _ _ _ (by decide), by simp [State.sameBut, State.sessionShown], ?_⟩
  · rw [State.sessionShown, State.get_set_apart _ _ (by decide) (by decide), State.get_set_apart _ _ (by decide) (by decide)]
    exact State.get_set_same _ _ _ (by decide)
  · rw [State.sessionShown, State.get_set_apart _ _ (by decide) (by decide)]
    exact State.get_set_same _ _ _ (by decide)
  · exact (State.regsBut_of_regs rfl _).trans
      ((((State.regsBut.refl { s with port := p } _).set _ (by simp)).set _ (by simp)).set _ (by simp))

/-- What the channels and the answer add to a state changes its port alone. -/
theorem State.answeredSession_parts (s : State) (answer : List Byte) :
    (s.reseal.sendShake answer).transmit.port.shake = s.port.shake ∧ (s.reseal.sendShake answer).transmit.regs = s.regs
    ∧ (s.reseal.sendShake answer).transmit.sbx = s.sbx ∧ s.sameBut (s.reseal.sendShake answer).transmit [.port] := by
  obtain ⟨l, n, o, hseal⟩ := s.reseal_same
  obtain ⟨l', n', o', hsend⟩ := State.transmit_same (s.reseal.sendShake answer)
  rw [hsend, hseal]
  exact ⟨rfl, rfl, rfl, by simp [State.sameBut, State.sendShake]⟩

section
variable {dt : Nat} {s : State}

theorem execHandshakeTimeout_due {h : Shake} (hshake : (s.pass dt).port.shake = some h) (hdue : h.tick + 160000000 ≤ (s.pass dt).ticks) :
    exec (.handshakeTimeout dt) s = .next (s.pass dt).dropShake := by
  refine congrArg Host.Outcome.next ?_
  simp only [hshake]
  exact if_pos hdue
end

/-- The registers that the end of a handshake may change. -/
def finishFields : List Fld := [SBX_STATUS.claimed, SBX_STATUS.hs_fail, CTL_PORT_STATUS.key_phase, CTL_PORT_STATUS.role, CTL_PORT_STATUS.link,
  SBX_KEY_STATE.occupied]

/-- A session that opens for an unclaimed device, from the state before H2. -/
theorem State.opened_effect {s : State} (hclaimed : s.flag SBX_STATUS.claimed = false) (pk ss t answer : List Byte) :
    ∃ u, ((s.openSession 1 pk ss t).sendShake answer).transmit = u ∧ u.get CTL_PORT_STATUS.link = 2 ∧ u.get CTL_PORT_STATUS.role = 1
      ∧ u.get CTL_PORT_STATUS.key_phase = 0 ∧ Sparse.find u.sbx.keys 0 = some pk ∧ u.flag SBX_STATUS.claimed = true
      ∧ u.port.shake = none ∧ s.sameBut u [.regs, .port, .sbx] ∧ s.regsBut u finishFields := by
  rw [State.openSession_unclaimed pk hclaimed]
  have hnone := (s.enrolled pk).sessionPort_shake ss t
  generalize (s.enrolled pk).sessionPort ss t = p at hnone ⊢
  have hkey := s.enrolled_key pk
  have hclaim := s.enrolled_claimed pk
  have henrol := s.enrolled_sameBut pk
  have henrolled := s.enrolled_regsBut pk
  generalize s.enrolled pk = e at hkey hclaim henrol henrolled ⊢
  obtain ⟨hlink, hrole, hphase, hshown, hfields⟩ := e.sessionShown_effect p
  have hshownKeys : (e.sessionShown 1 p).sbx = e.sbx := State.sameBut_iff.1 hshown .sbx (by decide)
  have hshownShake : (e.sessionShown 1 p).port.shake = p.shake := by simp [State.sessionShown]
  generalize e.sessionShown 1 p = v at hlink hrole hphase hshown hfields hshownKeys hshownShake ⊢
  obtain ⟨hshake, hregs, hsbx, hport⟩ := v.answeredSession_parts answer
  refine ⟨_, rfl, (State.get_congr hregs _).trans hlink, (State.get_congr hregs _).trans hrole, (State.get_congr hregs _).trans hphase, ?_, ?_,
    hshake.trans (hshownShake.trans hnone), ((henrol.mono (by simp)).trans (hshown.mono (by simp))).trans (hport.mono (by simp)),
    ((henrolled.mono (by simp [finishFields])).trans (hfields.mono (by simp [finishFields]))).of_regs hregs⟩
  · rw [hsbx, hshownKeys, hkey]
  · exact (State.flag_congr hregs _).trans ((hfields.flag (by decide) (by decide)).trans hclaim)

/-- Settles O54. -/
theorem handshakes : Obligations.Handshakes := by
  unfold Obligations.Handshakes
  refine ⟨?begins, ?refuses, ?service, ?unclaimed, ?timeout⟩
  case begins =>
    rintro dt n s _ rfl hlink hn hmode
    have hexec : exec (.handshakeH1 dt (operatorHello n)) s = .next ((s.pass dt).cleared.helloTaken (operatorHello n)) :=
      congrArg Host.Outcome.next ((State.helloIn_operator hlink hn).trans (if_neg (by rwa [State.cleared_mode])))
    generalize s.pass dt = s' at hexec ⊢
    have hsame := s'.cleared_sameBut
    refine ⟨_, hexec, ?_, ?_, s'.cleared_link, (State.mem_of_sameBut hsame (by simp) :), ?_, s'.cleared_regsBut.of_regs rfl⟩
    · exact congrArg (fun a => some (operatorHello n, 1, 0, a)) (State.sameBut_iff.1 hsame .ticks (by decide))
    · exact congrArg (fun b : SbxB => b.kems + 1) (State.sameBut_iff.1 hsame .sbx (by decide))
    · exact (hsame.mono (by simp)).trans (by simp [State.sameBut, State.helloTaken])
  case refuses =>
    rintro dt n s _ rfl hlink hn hmode hshake
    have hexec : exec (.handshakeH1 dt (operatorHello n)) s = .next (s.pass dt).cleared.helloRefused :=
      congrArg Host.Outcome.next ((State.helloIn_operator hlink hn).trans (if_pos (by rwa [State.cleared_mode])))
    generalize s.pass dt = s' at hexec hshake ⊢
    have hcleared : s'.cleared = s'.endSession := State.dropShake_none (s'.endSession_shake.trans hshake)
    have hsame := s'.cleared_sameBut
    have hcount : s'.cleared.get SBX_STATUS.hs_fail = s'.get SBX_STATUS.hs_fail := by
      rw [hcleared, s'.endSession_regsBut _ (by decide) (by decide)]
    refine ⟨_, hexec, State.dropShake_shake _, rfl, ?_, State.sameBut_iff.1 hsame .sbx (by decide), (State.mem_of_sameBut hsame (by simp) :),
      hsame.trans (by simp [State.sameBut, State.helloRefused, State.sendShake, State.inc]), ?_⟩
    · rw [← hcount]
      exact State.get_inc_same s'.cleared _ 1 (by decide)
    · exact (s'.cleared_regsBut.inc (f := SBX_STATUS.hs_fail) 1 (by simp [helloFields])).of_regs rfl
  case service =>
    rintro dt h m s _ rfl hshake hlink hlen htake hmode hrole hallow
    have hexec : exec (.handshakeH2 dt m) s = _ := congrArg Host.Outcome.next
      (State.finishIn_refused hshake hlink hlen htake (State.shakeStatus_service hmode hrole hallow) (by decide))
    generalize s.pass dt = s' at hexec hshake ⊢
    obtain ⟨hnone, hout, hcount, hsame, hregs⟩ :=
      State.refused_effect (by rw [hshake]; rfl : s'.port.shake.isSome = true) ([4, BitVec.ofNat 8 1, 0, 0] ++ leBytes 32 0)
    exact ⟨_, hexec, hnone, hout, hcount, hregs _ (by decide) (by decide), State.sameBut_iff.1 hsame .sbx (by decide),
      State.mem_of_sameBut hsame (by simp), hsame, hregs.mono (by simp)⟩
  case unclaimed =>
    rintro dt h m s _ rfl hshake hlink hlen htake hmode hrole hclaimed
    have hstatus := State.shakeStatus_unclaimed (m := m) hmode hrole hclaimed
    cases hverify : Config.mldsaVerify 3 (carriedKey m) (Config.sha3 (h.h1 ++ h.d1 ++ m.take 2404)) (m.drop 2404) with
    | true =>
      rw [hverify, if_pos rfl] at hstatus
      obtain ⟨ss, t, hfinish⟩ := State.finishIn_accepted hshake hlink hlen htake hstatus
      rw [hrole] at hfinish
      have hexec : exec (.handshakeH2 dt m) s = _ := congrArg Host.Outcome.next hfinish
      generalize s.pass dt = s' at hexec hclaimed ⊢
      obtain ⟨_, rfl, hopen, hshown, hphase, hkey, hclaim, hnone, hsame, hregs⟩ :=
        State.opened_effect hclaimed (carriedKey m) ss t (acceptAnswer ss t)
      exact ⟨_, hexec, fun _ => ⟨hopen, hshown, hphase, hkey, hclaim⟩, fun hfalse => absurd (hverify.symm.trans hfalse) (by decide), hnone,
        State.mem_of_sameBut hsame (by simp), hsame, hregs⟩
    | false =>
      rw [hverify, if_neg (by decide)] at hstatus
      have hexec : exec (.handshakeH2 dt m) s = _ :=
        congrArg Host.Outcome.next (State.finishIn_refused hshake hlink hlen htake hstatus (by decide))
      generalize s.pass dt = s' at hexec hshake ⊢
      obtain ⟨hnone, hout, hcount, hsame, hregs⟩ :=
        State.refused_effect (by rw [hshake]; rfl : s'.port.shake.isSome = true) ([4, BitVec.ofNat 8 3, 0, 0] ++ leBytes 32 0)
      exact ⟨_, hexec, fun htrue => absurd (hverify.symm.trans htrue) (by decide),
        fun _ => ⟨hout, State.sameBut_iff.1 hsame .sbx (by decide), hcount⟩, hnone, State.mem_of_sameBut hsame (by simp),
        hsame.mono (by simp), hregs.mono (by simp)⟩
  case timeout =>
    rintro dt h s _ rfl hshake hdue
    have hexec := execHandshakeTimeout_due hshake hdue
    generalize s.pass dt = s' at hexec hshake ⊢
    have hsame := s'.dropShake_sameBut
    exact ⟨_, hexec, s'.dropShake_shake, State.dropShake_hsFail (by rw [hshake]; rfl), State.sameBut_iff.1 hsame .sbx (by decide),
      State.mem_of_sameBut hsame (by simp), State.ev_of_sameBut hsame (by simp), hsame, s'.dropShake_regsBut⟩

end Sys2Proof.Machine
end

section
/-! PROOFS. The strongbox's policy, operator keys, alarms and reports (R515, R527, R529 to R533). -/

set_option Elab.async false

namespace Sys2Proof.Machine

/-! ### A failing test (R511, R533) -/

section
variable (s : State) (code : Nat)

/-- The strongbox in its error state, with its alarm. -/
def State.boxFailed : State := (s.set SBX_STATUS.mode 2).alarm code

theorem State.boxFailed_effect (hcode : code < 8) :
    (s.boxFailed code).get SBX_STATUS.mode = 2 ∧ (s.boxFailed code).get SBX_STATUS.alarm = code
    ∧ (s.boxFailed code).lastEvent = some (6, code, 0) ∧ s.sameBut (s.boxFailed code) [.regs, .ev]
    ∧ s.regsBut (s.boxFailed code) [SBX_STATUS.mode, SBX_STATUS.alarm] := by
  refine ⟨?_, ?_, ?_, (((State.sameBut.refl s _).set _ _ (by simp)).set _ _ (by simp)).raise _ _ _ _ (by simp),
    (((State.regsBut.refl s _).set _ (by simp)).set _ (by simp)).of_regs rfl⟩
  · rw [State.boxFailed, State.alarm, State.raiseHead_get, State.get_set_apart _ _ (by decide) (by decide),
      State.get_set_same _ _ _ (by decide)]
    rfl
  · rw [State.boxFailed, State.alarm, State.raiseHead_get, State.get_set_same _ _ _ (by decide)]
    exact Nat.mod_eq_of_lt hcode
  · rw [State.boxFailed, State.alarm, State.raiseHead_lastEvent, Nat.mod_eq_of_lt (hcode.trans (by decide)), Nat.zero_mod]
end

section
variable {dt code : Nat} {s : State} (hcode : code = 3 ∨ code = 4)
include hcode

theorem execSbxAlarm_fails (hmode : (s.pass dt).get SBX_STATUS.mode ≠ 3) :
    exec (.sbxAlarm dt code) s = .next ((s.pass dt).cleared.boxFailed code) :=
  congrArg Host.Outcome.next ((if_neg (by omega)).trans ((if_neg (by omega)).trans (if_neg hmode)))

/-- While the strongbox zeroises, the failure waits. -/
theorem execSbxAlarm_waits (hmode : (s.pass dt).get SBX_STATUS.mode = 3) :
    exec (.sbxAlarm dt code) s = .next { s.pass dt with sbx := { (s.pass dt).sbx with failing := some code } } :=
  congrArg Host.Outcome.next ((if_neg (by omega)).trans ((if_neg (by omega)).trans (if_pos hmode)))
end

/-! ### ATTEST and ZEROISE (R527, R532) -/

section
variable (s : State) (cmd : Nat)

/-- The report counter of a report that begins. -/
def State.reportCounted : State :=
  (s.startLong 0x110 cmd 0 false [] false).set SBX_STATUS.reports ((s.get SBX_STATUS.reports + 1) % 2 ^ 32)

theorem State.reportCounted_effect :
    (s.reportCounted cmd).get SBX_STATUS.reports = (s.get SBX_STATUS.reports + 1) % 2 ^ 32
    ∧ (∃ c, (s.reportCounted cmd).port.long = some c ∧ c.opcode = 0x110 ∧ c.cmdId = cmd)
    ∧ s.sameBut (s.reportCounted cmd) [.regs, .port]
    ∧ s.regsBut (s.reportCounted cmd) [CTL_PORT_STATUS.long_cmd, SBX_STATUS.reports] := by
  obtain ⟨-, hlong, hsame, hregs⟩ := s.startLong_effect 0x110 cmd 0 false [] false
  exact ⟨(State.get_set_same _ _ _ (by decide)).trans (Nat.mod_mod _ _), ⟨_, hlong, rfl, rfl⟩, hsame.set _ _ (by simp),
    (hregs.mono (by simp)).set _ (by simp)⟩

theorem execAttest_reports {dt : Nat} {nonce : List Byte} {s : State} (hruns : (s.pass dt).cmdRuns 0x110 [1, 2] = true)
    (hn : nonce.length = 32) : ∃ r, exec (.attest dt cmd nonce) s =
      .next (((((s.pass dt).takeCommand 0x110 cmd).reportCounted cmd).endLong stOk 0 r).transmit) :=
  ⟨_, congrArg Host.Outcome.next ((State.command_runs _ hruns).trans (congrArg State.transmit (if_neg fun h => h hn)))⟩

/-- The image is stopped, and the strongbox zeroises. -/
def State.zeroising : State := (s.stopImage.setImageState 0).set SBX_STATUS.mode 3

theorem State.zeroising_effect : s.zeroising.get SBX_STATUS.mode = 3 ∧ s.zeroising.get HEAD_IMAGE_STATUS.state = 0
    ∧ s.sameBut s.zeroising stopParts := by
  obtain ⟨hstate, hsame, -⟩ := s.stopImage.setImageState_effect 0
  refine ⟨State.get_set_same _ _ _ (by decide), ?_, (s.stopImage_sameBut.trans (hsame.mono (by decide))).set _ _ (by decide)⟩
  rw [State.zeroising, State.get_set_apart _ _ (by decide) (by decide), hstate]
  rfl

theorem execZeroise_starts {dt n : Nat} {s : State} (hruns : (s.pass dt).cmdRuns 0x111 [1, 2] = true) (hn : n = 1 ∨ n = 2)
    (hshake : (s.pass dt).port.shake = none) : exec (.zeroise dt cmd n) s =
      .next ((((s.pass dt).takeCommand 0x111 cmd).startLong 0x111 cmd 0 false [n] false).zeroising.transmit) := by
  have hnone : (((s.pass dt).takeCommand 0x111 cmd).startLong 0x111 cmd 0 false [n] false).port.shake = none := by
    obtain ⟨l, k, o, htake⟩ := State.takeCommand_same (s.pass dt) 0x111 cmd
    rw [htake]
    exact hshake
  refine congrArg Host.Outcome.next ((State.command_runs _ hruns).trans (congrArg State.transmit ((if_neg (by omega)).trans ?_)))
  rw [State.dropShake_none hnone]
  rfl
end

/-! ### Operator keys (R531, R534) -/

/-- The registers that a change of the keys sets. -/
def keyFields : List Fld := [SBX_KEY_STATE.result, SBX_KEY_STATE.occupied, SBX_STATUS.claimed]

section
variable (s : State) (n : Nat)

/-- What became of an enrolment, and of a removal. -/
def State.enrolResult : Nat :=
  if (Sparse.find s.sbx.keys n).isSome then 1 else if !Config.mldsaKeyValid s.stagedKey then 4 else 0
def State.removeResult : Nat := if (Sparse.find s.sbx.keys n).isNone then 2 else if s.operatorKeys = [n] then 3 else 0

/-- The result is told, and with result 0 the keys are new. -/
def State.keysSet (r : Nat) (keys : Sparse (List Byte)) : State :=
  if r = 0 then ({ s.set SBX_KEY_STATE.result r with sbx := { s.sbx with keys := keys } } : State).syncKeys else s.set SBX_KEY_STATE.result r

theorem State.enrolKey_eq : s.enrolKey n = s.keysSet (s.enrolResult n) (Sparse.put s.sbx.keys n s.stagedKey) := rfl
theorem State.removeKey_eq : s.removeKey n = s.keysSet (s.removeResult n) (Sparse.drop s.sbx.keys n) := rfl

theorem State.enrolResult_lt : s.enrolResult n < 16 := by
  unfold State.enrolResult
  split_ifs <;> decide

theorem State.removeResult_lt : s.removeResult n < 16 := by
  unfold State.removeResult
  split_ifs <;> decide

variable {n}

theorem State.keysSet_effect {r : Nat} (hr : r < 16) (keys : Sparse (List Byte)) :
    (s.keysSet r keys).get SBX_KEY_STATE.result = r ∧ (r = 0 → (s.keysSet r keys).sbx.keys = keys)
    ∧ (r ≠ 0 → (s.keysSet r keys).sbx = s.sbx) ∧ s.sameBut (s.keysSet r keys) [.regs, .sbx] ∧ s.regsBut (s.keysSet r keys) keyFields := by
  have hresult : (s.set SBX_KEY_STATE.result r).get SBX_KEY_STATE.result = r :=
    (State.get_set_same s SBX_KEY_STATE.result r (by decide)).trans (Nat.mod_eq_of_lt hr)
  have hregs : s.regsBut (s.set SBX_KEY_STATE.result r) keyFields := (State.regsBut.refl s _).set _ (by simp [keyFields])
  unfold State.keysSet
  split
  · next h0 =>
    have hsync := State.syncKeys_regsBut { s.set SBX_KEY_STATE.result r with sbx := { s.sbx with keys := keys } }
    exact ⟨(hsync _ (by decide) (by decide)).trans hresult, fun _ => rfl, fun h => absurd h0 h, by simp [State.sameBut, State.syncKeys],
      (hregs.of_regs rfl).trans (hsync.mono (by simp [keyFields]))⟩
  · next h0 => exact ⟨hresult, fun h => absurd h h0, fun _ => rfl, by simp [State.sameBut], hregs⟩
end

/-! ### A write that its role decides (R515) -/

theorem State.hostWrite_runs_role {s : State} {cmd a v : Nat} {w : Wrote} (h : s.cmdRuns 2 [1, 2] = true)
    (hw : (s.takeCommand 2 cmd).mgmtWrite s.role a v = w) (hs : w.swap = false) :
    s.hostWrite cmd a v = (w.s.respond 2 cmd w.status 0 true []).transmit := by
  rw [State.hostWrite, State.command_runs s h]
  simp [hw, hs]

section
variable {dt cmd n : Nat} {s : State} (hruns : (s.pass dt).cmdRuns 2 [1, 2] = true) (hrole : (s.pass dt).role = 1) (hn : n < 8)
include hruns hrole hn

theorem execKeyEnrol_operator : exec (.keyEnrol dt cmd n) s =
    .next ((((s.pass dt).takeCommand 2 cmd).enrolKey n).respond 2 cmd stOk 0 true []).transmit := by
  have hmod : n % 8 = n := Nat.mod_eq_of_lt hn
  have hop : bits (0x100 + n) 8 8 = 1 := by simp only [bits]; omega
  have hslot : (0x100 + n) % 8 = n := by omega
  refine congrArg Host.Outcome.next (State.hostWrite_runs_role (w := wrote _) hruns ?_ rfl)
  rw [hrole, hmod, State.mgmtWrite_keyCtrl, State.writeKeyCtrl, if_neg (by decide), hop, hslot]
  rfl

theorem execKeyRemove_operator : exec (.keyRemove dt cmd n) s =
    .next ((((s.pass dt).takeCommand 2 cmd).removeKey n).respond 2 cmd stOk 0 true []).transmit := by
  have hmod : n % 8 = n := Nat.mod_eq_of_lt hn
  have hop : bits (0x200 + n) 8 8 = 2 := by simp only [bits]; omega
  have hslot : (0x200 + n) % 8 = n := by omega
  refine congrArg Host.Outcome.next (State.hostWrite_runs_role (w := wrote _) hruns ?_ rfl)
  rw [hrole, hmod, State.mgmtWrite_keyCtrl, State.writeKeyCtrl, if_neg (by decide), hop, hslot]
  rfl
end

/-! ### The policy (R515, R529, R530) -/

/-- The registers that the policy sets. -/
def policyFields : List Fld := [SBX_POLICY.raw_debug, SBX_POLICY.debug, SBX_POLICY.allow_debug, SBX_POLICY.allow_service]

/-- Those that debug operation sets besides. -/
def debugFields : List Fld :=
  [SBX_POLICY.raw_debug, SBX_POLICY.debug, SBX_POLICY.allow_debug, SBX_POLICY.allow_service, SBX_STATUS.debug_active]
    ++ (List.range 24).map fun k => Fld.cpl CPL_CONFIG.raw_debug k

section
variable (s : State) (d r : Bool)

/-- The strongbox's own flags of debug operation. -/
def State.debugFlags : State := ((s.setFlag SBX_POLICY.debug d).setFlag SBX_POLICY.raw_debug r).setFlag SBX_STATUS.debug_active d

/-- The registers of the couplings lie below the strongbox's. -/
theorem State.setDebug_couplings :
    (s.debugFlags d r).regsBut (s.setDebug d r) ((List.range 24).map fun k => Fld.cpl CPL_CONFIG.raw_debug k) :=
  (State.regsBut.refl (s.debugFlags d r) _).foldl fun _ _ hk h => h.setFlag _ (List.mem_map_of_mem hk)

theorem couplings_apart {f : Fld} (hf : 0x400000000000 ≤ f.key) :
    ∀ g ∈ (List.range 24).map fun k => Fld.cpl CPL_CONFIG.raw_debug k, g.apart f := by
  intro g hg
  obtain ⟨k, hk, rfl⟩ := List.mem_map.1 hg
  have hlt : k < 24 := List.mem_range.1 hk
  exact .inl (by simp only [Fld.cpl, bayBase, CPL_CONFIG.raw_debug]; omega)

theorem State.setDebug_get {f : Fld} (hf : f.fits) (hkey : 0x400000000000 ≤ f.key) :
    (s.setDebug d r).get f = (s.debugFlags d r).get f := s.setDebug_couplings d r f hf (couplings_apart hkey)

theorem State.setDebug_sameBut : s.sameBut (s.setDebug d r) [.regs] :=
  ((((State.sameBut.refl s _).setFlag _ _ (by simp)).setFlag _ _ (by simp)).setFlag _ _ (by simp)).foldl fun _ _ h => h.setFlag _ _ (by simp)

theorem State.debugFlags_regsBut : s.regsBut (s.debugFlags d r) [SBX_POLICY.debug, SBX_POLICY.raw_debug, SBX_STATUS.debug_active] :=
  (((State.regsBut.refl s _).setFlag _ (by simp)).setFlag _ (by simp)).setFlag _ (by simp)

theorem State.setDebug_regsBut : s.regsBut (s.setDebug d r) debugFields :=
  ((s.debugFlags_regsBut d r).mono (by simp [debugFields])).trans ((s.setDebug_couplings d r).mono (List.subset_append_right _ _))

theorem State.setDebug_flags : (s.setDebug d r).flag SBX_POLICY.debug = d ∧ (s.setDebug d r).flag SBX_POLICY.raw_debug = r
    ∧ (s.setDebug d r).flag SBX_STATUS.debug_active = d ∧ (s.setDebug d r).flag SBX_POLICY.allow_debug = s.flag SBX_POLICY.allow_debug
    ∧ (s.setDebug d r).flag SBX_POLICY.allow_service = s.flag SBX_POLICY.allow_service := by
  have hflag {f : Fld} (hf : f.fits) (hkey : 0x400000000000 ≤ f.key) : (s.setDebug d r).flag f = (s.debugFlags d r).flag f := by
    rw [State.flag, State.flag, s.setDebug_get d r hf hkey]
  have hkeep := s.debugFlags_regsBut d r
  refine ⟨?_, ?_, ?_, ?_, ?_⟩
  · rw [hflag (by decide) (by decide), State.debugFlags, State.flag, State.get_setFlag_apart _ _ (by decide) (by decide),
      State.get_setFlag_apart _ _ (by decide) (by decide), ← State.flag, State.flag_setFlag_same _ _ _ (by decide) rfl]
  · rw [hflag (by decide) (by decide), State.debugFlags, State.flag, State.get_setFlag_apart _ _ (by decide) (by decide), ← State.flag,
      State.flag_setFlag_same _ _ _ (by decide) rfl]
  · rw [hflag (by decide) (by decide), State.debugFlags, State.flag_setFlag_same _ _ _ (by decide) rfl]
  · rw [hflag (by decide) (by decide), hkeep.flag (by decide) (by decide)]
  · rw [hflag (by decide) (by decide), hkeep.flag (by decide) (by decide)]
end

/-- A one-bit field is a bit of its register. -/
theorem State.flag_eq_testBit (s : State) {f : Fld} (hw : f.w = 1) : s.flag f = (s.reg f.key).testBit f.lo := by
  rw [State.flag, State.get, bits, hw, Nat.testBit_eq_decide_div_mod_eq]
  obtain h | h := Nat.mod_two_eq_zero_or_one (s.reg f.key / 2 ^ f.lo)
  · simp [h]
  · simp [h]

theorem testBit_eq_bits (v i : Nat) : v.testBit i = (bits v i 1 == 1) := by
  rw [bits, Nat.testBit_eq_decide_div_mod_eq]
  rfl

/-- Bits outside the one that is cleared are written as they stand. -/
theorem testBit_setBits (v x : Nat) {i j : Nat} (h : i ≠ j) : (setBits v i 1 x).testBit j = v.testBit j := by
  rw [testBit_eq_bits, testBit_eq_bits, bits_setBits_apart v x (by omega)]

theorem testBit_setBits_zero (v i : Nat) : (setBits v i 1 0).testBit i = false := by
  rw [testBit_eq_bits, bits_setBits_same]
  rfl

/-- A policy is written when the bits of the other role stand. -/
theorem policy_bits_stand {v now m : Nat} (hm : m < 16) (h : ∀ i < 4, m.testBit i = true → v.testBit i = now.testBit i) :
    (v % 16 ^^^ now % 16) &&& m = 0 := by
  refine Nat.eq_of_testBit_eq fun i => ?_
  rw [Nat.testBit_and, Nat.testBit_xor, Nat.zero_testBit, show 16 = 2 ^ 4 from rfl, Nat.testBit_mod_two_pow, Nat.testBit_mod_two_pow]
  by_cases hi : i < 4
  · cases hb : m.testBit i with
    | false => simp
    | true => simp [h i hi hb]
  · rw [Nat.testBit_lt_two_pow (hm.trans_le (Nat.pow_le_pow_right (by decide) (Nat.le_of_not_lt hi) : 2 ^ 4 ≤ 2 ^ i)), Bool.and_false]

section
variable {s : State} {v : Nat}

/-- The service role sets debug operation within a grant, while no image is loaded. -/
theorem State.writePolicy_service (hservice : v.testBit 0 = s.flag SBX_POLICY.allow_service)
    (hdebug : v.testBit 1 = s.flag SBX_POLICY.allow_debug) (hgrant : s.flag SBX_POLICY.allow_debug = true)
    (hstate : s.get HEAD_IMAGE_STATUS.state = 0) (hd : v.testBit 2 = true) :
    s.writePolicy 2 v = wrote (s.setDebug true (v.testBit 3)) := by
  rw [State.flag_eq_testBit s rfl] at hservice hdebug hgrant
  have hstand : (v % 16 ^^^ s.reg (Fld.key SBX_POLICY.raw_debug) % 16) &&& 3 = 0 := by
    refine policy_bits_stand (by decide) fun i hi hm => ?_
    obtain rfl | rfl | rfl | rfl : i = 0 ∨ i = 1 ∨ i = 2 ∨ i = 3 := by omega
    · exact hservice
    · exact hdebug
    · exact absurd hm (by decide)
    · exact absurd hm (by decide)
  have hnow : (s.reg (Fld.key SBX_POLICY.raw_debug)).testBit 1 = true := hgrant
  refine (if_neg ?_).trans ((if_neg (by decide)).trans ((if_neg ?_).trans (by rw [hd])))
  · rintro (h | h)
    · exact h hstand
    · exact absurd h (by decide)
  · rintro (⟨-, -, h | h⟩ | ⟨-, h⟩)
    · rw [hnow] at h; exact absurd h (by decide)
    · exact h hstate
    · rw [hd] at h; exact absurd h (by decide)

/-- The operator's two grants. -/
def State.granted (s : State) (service debug : Bool) : State :=
  (s.setFlag SBX_POLICY.allow_service service).setFlag SBX_POLICY.allow_debug debug

theorem State.granted_effect (s : State) (service debug : Bool) :
    (s.granted service debug).flag SBX_POLICY.allow_service = service ∧ (s.granted service debug).flag SBX_POLICY.allow_debug = debug
    ∧ s.sameBut (s.granted service debug) [.regs]
    ∧ s.regsBut (s.granted service debug) [SBX_POLICY.allow_debug, SBX_POLICY.allow_service] := by
  refine ⟨?_, State.flag_setFlag_same _ _ _ (by decide) rfl, ((State.sameBut.refl s _).setFlag _ _ (by simp)).setFlag _ _ (by simp),
    ((State.regsBut.refl s _).setFlag _ (by simp)).setFlag _ (by simp)⟩
  rw [State.granted, State.flag, State.get_setFlag_apart _ _ (by decide) (by decide), ← State.flag,
    State.flag_setFlag_same _ _ _ (by decide) rfl]

/-- The operator sets both grants; the one of debug taken back ends debug operation, and a debug image with it. -/
theorem State.writePolicy_operator (h2 : v.testBit 2 = (s.reg SBX_POLICY.addr).testBit 2)
    (h3 : v.testBit 3 = (s.reg SBX_POLICY.addr).testBit 3) : s.writePolicy 1 v =
      if (s.reg SBX_POLICY.addr).testBit 1 = true ∧ (!v.testBit 1) = true then
        wrote ((s.granted (v.testBit 0) (v.testBit 1)).setDebug false false).dropDebugImage
      else wrote (s.granted (v.testBit 0) (v.testBit 1)) := by
  have hstand : (v % 16 ^^^ s.reg (Fld.key SBX_POLICY.raw_debug) % 16) &&& 12 = 0 := by
    refine policy_bits_stand (by decide) fun i hi hm => ?_
    obtain rfl | rfl | rfl | rfl : i = 0 ∨ i = 1 ∨ i = 2 ∨ i = 3 := by omega
    · exact absurd hm (by decide)
    · exact absurd hm (by decide)
    · exact h2
    · exact h3
  refine (if_neg ?_).trans (if_pos rfl)
  rintro (h | h)
  · exact h hstand
  · exact absurd h (by decide)

theorem State.policy_testBit_debug (s : State) : (s.reg SBX_POLICY.addr).testBit 1 = s.flag SBX_POLICY.allow_debug :=
  (State.flag_eq_testBit s (f := SBX_POLICY.allow_debug) rfl).symm

theorem State.policy_testBit_service (s : State) : (s.reg SBX_POLICY.addr).testBit 0 = s.flag SBX_POLICY.allow_service :=
  (State.flag_eq_testBit s (f := SBX_POLICY.allow_service) rfl).symm

/-- Neither touches the image's own debug flag. -/
theorem State.granted_image (s : State) (service debug : Bool) :
    (s.granted service debug).flag HEAD_IMAGE_STATUS.debug = s.flag HEAD_IMAGE_STATUS.debug := by
  obtain ⟨-, -, -, hregs⟩ := s.granted_effect service debug
  exact hregs.flag (by decide) (by decide)

theorem State.setDebug_image (s : State) (d r : Bool) :
    (s.setDebug d r).flag HEAD_IMAGE_STATUS.debug = s.flag HEAD_IMAGE_STATUS.debug := (s.setDebug_regsBut d r).flag (by decide) (by decide)

theorem State.dropDebugImage_plain (h : s.flag HEAD_IMAGE_STATUS.debug = false) : s.dropDebugImage = s := if_pos (by rw [h]; rfl)
end

section
variable {dt cmd v : Nat} {s : State} (hruns : (s.pass dt).cmdRuns 2 [1, 2] = true)
include hruns

theorem execSbxPolicyWrite_service (hrole : (s.pass dt).role = 2) (hservice : v.testBit 0 = (s.pass dt).flag SBX_POLICY.allow_service)
    (hdebug : v.testBit 1 = (s.pass dt).flag SBX_POLICY.allow_debug) (hgrant : (s.pass dt).flag SBX_POLICY.allow_debug = true)
    (hstate : (s.pass dt).get HEAD_IMAGE_STATUS.state = 0) (hd : v.testBit 2 = true) : exec (.sbxPolicyWrite dt cmd v) s =
      .next ((((s.pass dt).takeCommand 2 cmd).setDebug true (v.testBit 3)).respond 2 cmd stOk 0 true []).transmit := by
  refine congrArg Host.Outcome.next (State.hostWrite_runs_role (w := wrote _) hruns ?_ rfl)
  rw [hrole, State.mgmtWrite_policy]
  exact State.writePolicy_service (by simpa using hservice) (by simpa using hdebug) (by simpa using hgrant) (by simpa using hstate) hd

variable (hrole : (s.pass dt).role = 1)
include hrole

/-- The operator takes the grant of debug back. -/
theorem execAllowDebugClear_granted (hgrant : (s.pass dt).flag SBX_POLICY.allow_debug = true)
    (himage : (s.pass dt).flag HEAD_IMAGE_STATUS.debug = false) : exec (.allowDebugClear dt cmd) s =
      .next (((((s.pass dt).takeCommand 2 cmd).granted ((s.pass dt).flag SBX_POLICY.allow_service) false).setDebug false false).respond
        2 cmd stOk 0 true []).transmit := by
  have hkept {j : Nat} (hj : 1 ≠ j) := testBit_setBits ((s.pass dt).reg SBX_POLICY.addr) 0 hj
  have hcleared := testBit_setBits_zero ((s.pass dt).reg SBX_POLICY.addr) 1
  have hdebug : ((s.pass dt).reg SBX_POLICY.addr).testBit 1 = true := ((s.pass dt).policy_testBit_debug).trans hgrant
  have hplain := ((((s.pass dt).takeCommand 2 cmd).granted ((s.pass dt).flag SBX_POLICY.allow_service) false).setDebug_image false false).trans
    ((((s.pass dt).takeCommand 2 cmd).granted_image ((s.pass dt).flag SBX_POLICY.allow_service) false).trans
      ((State.takeCommand_flag ..).trans himage))
  refine congrArg Host.Outcome.next (State.hostWrite_runs_role (w := wrote ((((s.pass dt).takeCommand 2 cmd).granted
    ((s.pass dt).flag SBX_POLICY.allow_service) false).setDebug false false)) hruns ?_ rfl)
  rw [hrole, State.mgmtWrite_policy, State.writePolicy_operator (by simpa using hkept (by decide)) (by simpa using hkept (by decide)),
    hcleared, hkept (by decide), if_pos ⟨by simpa using hdebug, rfl⟩, State.policy_testBit_service, State.dropDebugImage_plain hplain]

/-- The operator takes the grant of the service role back. -/
theorem execAllowServiceClear_operator : exec (.allowServiceClear dt cmd) s =
    .next ((((s.pass dt).takeCommand 2 cmd).granted false ((s.pass dt).flag SBX_POLICY.allow_debug)).respond 2 cmd stOk 0 true []).transmit := by
  have hkept {j : Nat} (hj : 0 ≠ j) := testBit_setBits ((s.pass dt).reg SBX_POLICY.addr) 0 hj
  have hcleared := testBit_setBits_zero ((s.pass dt).reg SBX_POLICY.addr) 0
  refine congrArg Host.Outcome.next (State.hostWrite_runs_role
    (w := wrote (((s.pass dt).takeCommand 2 cmd).granted false ((s.pass dt).flag SBX_POLICY.allow_debug))) hruns ?_ rfl)
  rw [hrole, State.mgmtWrite_policy, State.writePolicy_operator (by simpa using hkept (by decide)) (by simpa using hkept (by decide)),
    hcleared, hkept (by decide), if_neg (by simp), State.policy_testBit_debug]
end

/-- What a host's write leaves when its effect sets registers alone. -/
theorem State.written_effect {s u : State} {l : List Fld} (cmd : Nat) (hsame : (s.takeCommand 2 cmd).sameBut u [.regs])
    (hregs : (s.takeCommand 2 cmd).regsBut u l) :
    (u.respond 2 cmd stOk 0 true []).transmit.lastResponse = some ⟨2, 0, 0, cmd, true, []⟩
    ∧ (∀ f : Fld, (u.respond 2 cmd stOk 0 true []).transmit.flag f = u.flag f)
    ∧ s.sameBut (u.respond 2 cmd stOk 0 true []).transmit [.regs, .port] ∧ s.regsBut (u.respond 2 cmd stOk 0 true []).transmit l := by
  refine ⟨by simp [stOk], fun f => by simp, State.answered 2 cmd stOk 0 true [] (hsame.mono (by simp)) (by simp), ?_⟩
  exact ((State.regsBut_of_regs (State.takeCommand_regs ..) _).trans hregs).of_regs (by simp)

end Sys2Proof.Machine
end

section
/-! PROOFS. What ZEROISE erases, and its end (R532, R533). -/

set_option Elab.async false

namespace Sys2Proof.Machine

/-! ### Unloading an image leaves the control port alone -/

/-- A filter that every entry of a key passes leaves what the key finds. -/
theorem Sparse.find_filter_of {α : Type} (m : Sparse α) {p : Nat × α → Bool} {k : Nat} (h : ∀ v, p (k, v) = true) :
    Sparse.find (m.filter p) k = Sparse.find m k := by
  induction m with
  | nil => rfl
  | cons x m ih =>
    obtain ⟨a, b⟩ := x
    rw [List.filter_cons]
    by_cases hk : k = a
    · subst hk
      rw [if_pos (h b)]
      simp [Sparse.find]
    · split <;> simp only [Sparse.find, if_neg hk, ih]

/-- From `s` to `t` registers have changed, and what else `l` lists: the control port's status stands. -/
structure State.Unloads (l : List Part) (s t : State) : Prop where
  regs : Part.regs ∈ l
  parts : s.sameBut t l
  port : ∀ f : Fld, f.fits → f.key = CTL_PORT_STATUS.addr → t.get f = s.get f

namespace State.Unloads

variable {l : List Part} {s t u : State}

theorem refl (s : State) (hl : Part.regs ∈ l) : State.Unloads l s s := ⟨hl, .refl s _, fun _ _ _ => rfl⟩

theorem mono {l' : List Part} (h : State.Unloads l s t) (hl : l ⊆ l') : State.Unloads l' s t := ⟨hl h.regs, h.parts.mono hl, h.port⟩

theorem trans (h : State.Unloads l s t) (k : State.Unloads l t u) : State.Unloads l s u :=
  ⟨h.regs, h.parts.trans k.parts, fun f hf hkey => (k.port f hf hkey).trans (h.port f hf hkey)⟩

theorem set (h : State.Unloads l s t) {f : Fld} (v : Nat) (hkey : f.key ≠ CTL_PORT_STATUS.addr := by decide) :
    State.Unloads l s (t.set f v) :=
  ⟨h.regs, h.parts.set _ _ h.regs, fun g hg hg' => (State.get_set_apart _ _ hg (.inl (hg' ▸ hkey))).trans (h.port g hg hg')⟩

/-- A copy of an indexed register of the head lies elsewhere. -/
theorem setIx (h : State.Unloads l s t) {f : Fld} (i v : Nat) (hkey : f.key < CTL_PORT_STATUS.addr := by decide) :
    State.Unloads l s (t.set (f.ix i) v) :=
  h.set v (by simp only [Fld.ix, CTL_PORT_STATUS] at hkey ⊢; omega)

theorem setTile (h : State.Unloads l s t) (f : Fld) (n v : Nat) : State.Unloads l s (t.set (f.tile n) v) :=
  h.set v (by simp only [Fld.tile, tileBase, CTL_PORT_STATUS]; split <;> omega)

theorem setCpl (h : State.Unloads l s t) (f : Fld) (k v : Nat) : State.Unloads l s (t.set (f.cpl k) v) :=
  h.set v (by simp only [Fld.cpl, bayBase, CTL_PORT_STATUS]; omega)

/-- Registers that are dropped from the store, the control port's not among them. -/
theorem filter (h : State.Unloads l s t) {p : Nat × Word → Bool} (hp : ∀ v, p (CTL_PORT_STATUS.addr, v) = true) :
    State.Unloads l s { t with regs := t.regs.filter p } := by
  refine ⟨h.regs, h.parts.trans (by simp [State.sameBut, h.regs]), fun f hf hkey => (?_ : _ = t.get f).trans (h.port f hf hkey)⟩
  rw [State.get, State.get, State.reg, State.reg, hkey, Sparse.find_filter_of t.regs hp]

theorem img (h : State.Unloads l s t) (i : ImgB) (hl : Part.img ∈ l) : State.Unloads l s { t with img := i } :=
  ⟨h.regs, h.parts.trans (by simp [State.sameBut, hl]), h.port⟩

theorem foldl {α : Type} {f : State → α → State} {xs : List α} (h : State.Unloads l s t) (hf : ∀ u x, State.Unloads l s u → State.Unloads l s (f u x)) :
    State.Unloads l s (xs.foldl f t) := by
  induction xs generalizing t with
  | nil => exact h
  | cons x xs ih => exact ih (hf t x h)

theorem syncSched (h : State.Unloads l s t) : State.Unloads l s t.syncSched := ((((((h.set _).set _).set _).set _).set _).set _).set _

theorem dropBanks (h : State.Unloads l s t) {lo hi : Nat} (hout : CTL_PORT_STATUS.addr < lo ∨ hi ≤ CTL_PORT_STATUS.addr) :
    State.Unloads l s (t.dropBanks lo hi) := by
  have hmod : CTL_PORT_STATUS.addr % 281474976710656 = CTL_PORT_STATUS.addr := by decide
  refine h.filter fun v => ?_
  simp only [hmod, Bool.not_eq_true', decide_eq_false_iff_not]
  omega

theorem syncConfig (h : State.Unloads l s t) : State.Unloads l s t.syncConfig := by
  unfold State.syncConfig
  refine foldl ?_ fun u k h => ((h.setCpl _ _ _).setCpl _ _ _).setCpl _ _ _
  refine ((((((((?_ : State.Unloads l s _).set _).set _).set _).set _).set _).set _).set _).set _
  refine foldl ?_ fun u g h => (((h.setIx _ _).setIx _ _).setIx _ _).setIx _ _
  refine dropBanks ?_ (by decide)
  exact ((((((((((h.syncSched.set _).set _).set _).set _).set _).set _).set _).set _).set _).set _).set _

end State.Unloads

/-- The image leaves its registers' store, and is none. -/
def State.imageGone (s : State) : State :=
  { s with
    regs := s.regs.filter fun (p : Nat × Word) => !imageKey p.1
    img := { s.img with image := none, place := [], homes := [], measure := [], before := if s.img.image.isSome then s.img.place else s.img.before } }

/-- No tile holds a logical tile. -/
def State.tilesVacated (s : State) : State :=
  s.img.place.foldl (fun t p => t.vacate p.2 (if t.get (TILE_STATE.state.tile p.2) = 2 then 1 else t.get (TILE_STATE.state.tile p.2))) s

theorem State.unloadImage_eq (s : State) : s.unloadImage =
    (((s.tilesVacated.imageGone.set HEAD_IMAGE_STATUS.moved 0).setFlag HEAD_FMT_SET.in_effect false).syncConfig.syncReserves.setImageState 0) :=
  rfl

theorem State.Unloads.setImageState {l : List Part} {s t : State} (h : State.Unloads l s t) (v : Nat) : State.Unloads l s (t.setImageState v) := by
  unfold State.setImageState State.syncPhase
  split
  · exact h.set _
  · exact (h.set _).set _

theorem State.tilesVacated_unloads (s : State) : State.Unloads [.regs] s s.tilesVacated :=
  (State.Unloads.refl s (by simp)).foldl fun _ _ h => ((h.setTile _ _ _).setTile _ _ _).setTile _ _ _

theorem State.imageGone_unloads (s : State) : State.Unloads [.regs, .img] s s.imageGone :=
  ((State.Unloads.refl s (by simp)).filter (p := fun p => !imageKey p.1)
    fun _ => (by decide : (!imageKey CTL_PORT_STATUS.addr) = true)).img _ (by simp)

/-- What follows the image's going sets registers alone. -/
theorem State.imageGone_registers (s : State) : State.Unloads [.regs] s.tilesVacated.imageGone s.unloadImage := by
  rw [State.unloadImage_eq]
  exact ((((((State.Unloads.refl s.tilesVacated.imageGone (by simp)).set _).set _).syncConfig).set _).set _).setImageState 0

theorem State.unloadImage_unloads (s : State) : State.Unloads [.regs, .img] s s.unloadImage :=
  ((s.tilesVacated_unloads.mono (by simp)).trans (State.imageGone_unloads _)).trans (s.imageGone_registers.mono (by simp))

theorem State.unloadImage_image (s : State) : s.unloadImage.img.image = none :=
  congrArg ImgB.image (State.sameBut_iff.1 s.imageGone_registers.parts .img (by decide))

/-! ### What ZEROISE erases (R532) -/

section
variable (s : State)

/-- Memory, the salt, what is staged, requests and mailboxes are gone. -/
def State.dataGone : State :=
  { s with
    mem := s.mem.filter fun (c : Host.Cell) => zeroiseKeeps c.1
    flips := s.flips.filter fun (c : Nat × Nat) => zeroiseKeeps c.1
    sbx := { s.sbx with salt := s.sbx.salt + 1 }
    img := { s.img with load := none, staged := none, before := [] }
    serv := { ({} : ServB) with rets := s.serv.rets, nextId := s.serv.nextId, retCount := s.serv.retCount, carView := s.serv.carView, kvView := s.serv.kvView }
    mbx := [] }

theorem State.dataGone_fields : s.dataGone.img = { s.img with load := none, staged := none, before := [] } ∧ s.dataGone.mbx = []
    ∧ s.dataGone.sbx = { s.sbx with salt := s.sbx.salt + 1 } ∧ s.dataGone.mem = s.mem.filter (fun (x : Host.Cell) => zeroiseKeeps x.1)
    ∧ s.dataGone.regs = s.regs := ⟨rfl, rfl, rfl, rfl, rfl⟩

/-- The registers of the mailboxes, and the count of nodes of prompts kept, follow. -/
def State.registersGone : State := (s.resetRegs MBX_SEND.addr (MBX_SEND.addr + 28 * 0x200)).syncNodes.syncEligible

theorem State.eraseData_eq : s.eraseData = (s.unloadImage.set HEAD_WEIGHTS_VALID.valid 0).dataGone.registersGone := rfl

theorem State.registersGone_sameBut : s.sameBut s.registersGone [.regs, .serv] :=
  ((State.sameBut.trans (by simp [State.sameBut]) ((State.sameBut.refl (s.resetRegs MBX_SEND.addr (MBX_SEND.addr + 28 * 0x200)) _).set
    HEAD_PREFIX_STATUS.nodes _ (by simp))).setServ _ (by simp))

/-- A field below the mailboxes, other than the count of nodes, stands. -/
theorem State.registersGone_get {f : Fld} (hf : f.fits) (hkey : f.key < MBX_SEND.addr) (hnodes : HEAD_PREFIX_STATUS.nodes.apart f) :
    s.registersGone.get f = s.get f := by
  refine (State.get_set_apart (s.resetRegs MBX_SEND.addr (MBX_SEND.addr + 28 * 0x200)) _ hf hnodes).trans ?_
  rw [State.get, State.get, State.reg, State.reg, State.resetRegs, Sparse.find_dropRange_out _ (.inl hkey)]

/-- What both scopes of ZEROISE leave of a state: no image, no mailboxes, a new salt, and the memory that is kept. -/
structure State.Erased (s e : State) : Prop where
  image : e.img.image = none
  staged : e.img.staged = none
  mbx : e.mbx = []
  salt : e.sbx.salt = s.sbx.salt + 1
  failing : e.sbx.failing = s.sbx.failing
  mem : e.mem = s.mem.filter (fun (x : Host.Cell) => zeroiseKeeps x.1)
  valid : e.get HEAD_WEIGHTS_VALID.valid = 0
  parts : s.sameBut e [.regs, .mem, .flips, .ev, .port, .mbx, .sbx, .img, .serv]

theorem State.eraseData_effect : s.Erased s.eraseData ∧ s.eraseData.sbx.keys = s.sbx.keys ∧ s.eraseData.port = s.port
    ∧ s.eraseData.get CTL_PORT_STATUS.link = s.get CTL_PORT_STATUS.link := by
  have himage := s.unloadImage_image
  obtain ⟨-, hunload, hport⟩ := s.unloadImage_unloads
  have hlink := hport CTL_PORT_STATUS.link (by decide) rfl
  rw [State.eraseData_eq]
  generalize s.unloadImage = u at himage hunload hlink ⊢
  have hset : s.sameBut (u.set HEAD_WEIGHTS_VALID.valid 0) [.regs, .img] := hunload.set _ _ (by simp)
  have hvalid : (u.set HEAD_WEIGHTS_VALID.valid 0).get HEAD_WEIGHTS_VALID.valid = 0 := State.get_set_same _ _ _ (by decide)
  have hlinked : (u.set HEAD_WEIGHTS_VALID.valid 0).get CTL_PORT_STATUS.link = s.get CTL_PORT_STATUS.link :=
    (State.get_set_apart _ _ (by decide) (by decide)).trans hlink
  have hnone : (u.set HEAD_WEIGHTS_VALID.valid 0).img.image = none := by rw [State.set_img, himage]
  generalize u.set HEAD_WEIGHTS_VALID.valid 0 = w at hset hvalid hlinked hnone ⊢
  have hdata : w.sameBut w.dataGone [.regs, .mem, .flips, .mbx, .sbx, .img, .serv] := by simp [State.sameBut, State.dataGone]
  obtain ⟨himg, hmbx, hsbx, hmem, hkept⟩ := w.dataGone_fields
  generalize w.dataGone = d at hdata himg hmbx hsbx hmem hkept ⊢
  have hgone := d.registersGone_sameBut
  have hgoneImg : d.registersGone.img = d.img := State.sameBut_iff.1 hgone .img (by decide)
  have hgoneMbx : d.registersGone.mbx = d.mbx := State.sameBut_iff.1 hgone .mbx (by decide)
  have hgoneSbx : d.registersGone.sbx = d.sbx := State.sameBut_iff.1 hgone .sbx (by decide)
  have hgoneMem : d.registersGone.mem = d.mem := State.sameBut_iff.1 hgone .mem (by decide)
  have hsetSbx : w.sbx = s.sbx := State.sameBut_iff.1 hset .sbx (by decide)
  have hsetMem : w.mem = s.mem := State.sameBut_iff.1 hset .mem (by decide)
  have hparts := ((hset.mono (by simp)).trans hdata).trans (hgone.mono (by simp))
  refine ⟨⟨?_, ?_, ?_, ?_, ?_, ?_, ?_, hparts.mono (by simp)⟩, ?_, State.sameBut_iff.1 hparts .port (by decide), ?_⟩
  · rw [hgoneImg, himg, hnone]
  · rw [hgoneImg, himg]
  · rw [hgoneMbx, hmbx]
  · rw [hgoneSbx, hsbx, hsetSbx]
  · rw [hgoneSbx, hsbx, hsetSbx]
  · rw [hgoneMem, hmem, hsetMem]
  · rw [d.registersGone_get (by decide) (by decide) (by decide), State.get_congr hkept, hvalid]
  · rw [hgoneSbx, hsbx, hsetSbx]
  · rw [d.registersGone_get (by decide) (by decide) (by decide), State.get_congr hkept, hlinked]
end

/-! ### The keys and grants that scope 2 erases besides (R532) -/

section
variable (s : State)

/-- No operator key is held. -/
def State.keyless : State := ({ s with sbx := { s.sbx with keys := [] } } : State).syncKeys

theorem State.eraseKeys_eq : s.eraseKeys = (s.keyless.setDebug false false).granted true true := by
  rw [State.eraseKeys, State.granted, State.keyless]

theorem State.keyless_effect : s.keyless.sbx = { s.sbx with keys := [] } ∧ s.sameBut s.keyless [.regs, .sbx]
    ∧ s.regsBut s.keyless [SBX_STATUS.claimed, SBX_KEY_STATE.occupied] := by
  have hsync := State.syncKeys_sameBut { s with sbx := { s.sbx with keys := [] } }
  exact ⟨State.sameBut_iff.1 hsync .sbx (by decide), State.sameBut.trans (by simp [State.sameBut]) (hsync.mono (by simp)),
    (State.regsBut_of_regs rfl _).trans (State.syncKeys_regsBut { s with sbx := { s.sbx with keys := [] } })⟩

/-- The registers that the erasure of the keys sets. -/
def erasedKeyFields : List Fld := [SBX_STATUS.claimed, SBX_KEY_STATE.occupied] ++ debugFields

theorem State.eraseKeys_effect : s.eraseKeys.flag SBX_POLICY.allow_service = true ∧ s.eraseKeys.flag SBX_POLICY.allow_debug = true
    ∧ s.eraseKeys.flag SBX_POLICY.debug = false ∧ s.eraseKeys.sbx = { s.sbx with keys := [] }
    ∧ s.sameBut s.eraseKeys [.regs, .sbx] ∧ s.regsBut s.eraseKeys erasedKeyFields := by
  rw [State.eraseKeys_eq]
  obtain ⟨hkeys, hkeyless, hfields⟩ := s.keyless_effect
  generalize s.keyless = k at hkeys hkeyless hfields ⊢
  obtain ⟨hdebug, -, -, -, -⟩ := k.setDebug_flags false false
  have hset := k.setDebug_sameBut false false
  have hsetFields := k.setDebug_regsBut false false
  generalize k.setDebug false false = d at hdebug hset hsetFields ⊢
  obtain ⟨hservice, hgrant, hgranted, hgrants⟩ := d.granted_effect true true
  generalize d.granted true true = g at hservice hgrant hgranted hgrants ⊢
  have hgrantedSbx : g.sbx = d.sbx := State.sameBut_iff.1 hgranted .sbx (by decide)
  have hsetSbx : d.sbx = k.sbx := State.sameBut_iff.1 hset .sbx (by decide)
  refine ⟨hservice, hgrant, (hgrants.flag (by decide) (by decide)).trans hdebug, by rw [hgrantedSbx, hsetSbx, hkeys],
    (hkeyless.trans (hset.mono (by simp))).trans (hgranted.mono (by simp)), (hfields.mono (List.subset_append_left _ _)).trans ?_⟩
  exact (hsetFields.mono (List.subset_append_right _ _)).trans (hgrants.mono (by simp [debugFields]))

theorem State.eraseKeys_port : s.eraseKeys.port = s.port := by
  obtain ⟨-, -, -, -, hsame, -⟩ := s.eraseKeys_effect
  exact State.sameBut_iff.1 hsame .port (by decide)

variable {s}

theorem State.Erased.eraseKeys {e : State} (h : s.Erased e) : s.Erased e.eraseKeys := by
  obtain ⟨-, -, -, hsbx, hsame, hregs⟩ := e.eraseKeys_effect
  have himg : e.eraseKeys.img = e.img := State.sameBut_iff.1 hsame .img (by decide)
  have hmbx : e.eraseKeys.mbx = e.mbx := State.sameBut_iff.1 hsame .mbx (by decide)
  have hmem : e.eraseKeys.mem = e.mem := State.sameBut_iff.1 hsame .mem (by decide)
  exact ⟨by rw [himg, h.image], by rw [himg, h.staged], hmbx.trans h.mbx, by rw [hsbx, h.salt], by rw [hsbx, h.failing], hmem.trans h.mem,
    (hregs _ (by decide) (by decide)).trans h.valid, h.parts.trans (hsame.mono (by simp))⟩
end

/-! ### ZEROISE completes (R532, R533) -/

/-- The registers that the end of the command sets. -/
def completeFields : List Fld := [CTL_PORT_STATUS.long_cmd, CTL_PORT_STATUS.role, CTL_PORT_STATUS.link, SBX_STATUS.mode]

/-- The port after the final response, which goes with the session. -/
def State.parted (s : State) (cmd : Nat) : State :=
  { s with port := { s.port with parting := some ⟨0x111, stOk, 0, cmd, true, []⟩, zeroiseFailed := false } }

/-- The end of ZEROISE on the state `s` that the erasure left. -/
def State.zeroised (s : State) (scope cmd : Nat) : State :=
  (((s.endLong stOk 0 []).parted cmd).endSession.set SBX_STATUS.mode 1).raiseHead 7 scope 0

theorem State.parted_parts (s : State) (cmd : Nat) : (s.parted cmd).port.long = s.port.long ∧ s.sameBut (s.parted cmd) [.port]
    ∧ (s.parted cmd).regs = s.regs := ⟨rfl, by simp [State.sameBut, State.parted], rfl⟩

theorem State.endSession_long (s : State) : s.endSession.port.long = s.port.long := by
  unfold State.endSession
  split <;> rfl

theorem State.zeroised_effect {s : State} {c : LongCmd} (hlong : s.port.long = some c) {scope : Nat} (hscope : scope < 2 ^ 64) (cmd : Nat) :
    (s.zeroised scope cmd).get SBX_STATUS.mode = 1 ∧ (s.zeroised scope cmd).port.long = none
    ∧ (s.zeroised scope cmd).lastEvent = some (7, scope, 0)
    ∧ (s.zeroised scope cmd).get CTL_PORT_STATUS.link = (if s.get CTL_PORT_STATUS.link = 2 then 1 else s.get CTL_PORT_STATUS.link)
    ∧ s.sameBut (s.zeroised scope cmd) [.regs, .ev, .port] ∧ s.regsBut (s.zeroised scope cmd) completeFields := by
  unfold State.zeroised
  obtain ⟨-, hnone, hsame, hregs⟩ := State.endLong_effect hlong stOk 0 []
  generalize s.endLong stOk 0 [] = u at hnone hsame hregs ⊢
  obtain ⟨hparted, hport, hstore⟩ := u.parted_parts cmd
  generalize u.parted cmd = p at hparted hport hstore ⊢
  have hended := p.endSession_long
  have hlink := p.endSession_link
  have hend := p.endSession_sameBut
  have hendRegs := p.endSession_regsBut
  generalize p.endSession = e at hended hlink hend hendRegs ⊢
  refine ⟨?_, ?_, ?_, ?_, ?_, ?_⟩
  · rw [State.raiseHead_get, State.get_set_same _ _ _ (by decide)]
    rfl
  · rw [State.raiseHead_port, State.set_port, hended, hparted, hnone]
  · rw [State.raiseHead_lastEvent, Nat.mod_eq_of_lt hscope, Nat.zero_mod]
  · rw [State.raiseHead_get, State.get_set_apart _ _ (by decide) (by decide), hlink, State.get_congr hstore,
      hregs CTL_PORT_STATUS.link (by decide) (by decide)]
  · exact ((((hsame.mono (by simp)).trans (hport.mono (by simp))).trans (hend.mono (by simp))).set _ _ (by simp)).raise _ _ _ _ (by simp)
  · exact ((((hregs.mono (by simp [completeFields])).of_regs hstore).trans (hendRegs.mono (by simp [completeFields]))).set
      (f := SBX_STATUS.mode) 1 (by simp [completeFields])).of_regs rfl

/-- The end of the command keeps what the erasure left. -/
theorem State.Erased.zeroised {s e : State} (h : s.Erased e) {c : LongCmd} (hlong : e.port.long = some c) {scope : Nat}
    (hscope : scope < 2 ^ 64) (cmd : Nat) : s.Erased (e.zeroised scope cmd) := by
  obtain ⟨-, -, -, -, hsame, hregs⟩ := State.zeroised_effect hlong hscope cmd
  generalize e.zeroised scope cmd = z at hsame hregs ⊢
  have himg : z.img = e.img := State.sameBut_iff.1 hsame .img (by decide)
  have hmbx : z.mbx = e.mbx := State.sameBut_iff.1 hsame .mbx (by decide)
  have hsbx : z.sbx = e.sbx := State.sameBut_iff.1 hsame .sbx (by decide)
  have hmem : z.mem = e.mem := State.sameBut_iff.1 hsame .mem (by decide)
  exact ⟨by rw [himg, h.image], by rw [himg, h.staged], hmbx.trans h.mbx, by rw [hsbx, h.salt], by rw [hsbx, h.failing], hmem.trans h.mem,
    (hregs _ (by decide) (by decide)).trans h.valid, h.parts.trans (hsame.mono (by simp))⟩

/-- A failure that came while the strongbox zeroised acts now. -/
def State.failingTaken (s : State) : State :=
  match s.sbx.failing with
  | none => s
  | some code => { s with sbx := { s.sbx with failing := none } }.boxError code

theorem State.failingTaken_none {s : State} (h : s.sbx.failing = none) : s.failingTaken = s := by
  rw [State.failingTaken, h]

section
variable {dt : Nat} {c : LongCmd} {s : State} (hlong : (s.pass dt).port.long = some c) (hop : c.opcode = 0x111)
include hlong hop

theorem execZeroiseComplete_due : exec (.zeroiseComplete dt) s =
    .next ((if c.args.getD 0 1 = 2 then (s.pass dt).eraseData.eraseKeys else (s.pass dt).eraseData).zeroised (c.args.getD 0 1)
      c.cmdId).failingTaken := by
  refine (congrArg Host.Outcome.next ?_ : execZeroiseComplete dt s = _)
  simp only [hlong]
  exact if_neg fun h => h hop

variable (hfailing : (s.pass dt).sbx.failing = none)
include hfailing

theorem execZeroiseComplete_data (hargs : c.args = [1]) :
    exec (.zeroiseComplete dt) s = .next ((s.pass dt).eraseData.zeroised 1 c.cmdId) := by
  have hexec := execZeroiseComplete_due hlong hop
  have hscope : c.args.getD 0 1 = 1 := by rw [hargs]; rfl
  obtain ⟨herased, -, hport, -⟩ := (s.pass dt).eraseData_effect
  have hz := herased.zeroised (hport ▸ hlong) (scope := 1) (by decide) c.cmdId
  rw [hexec, hscope, if_neg (by decide), State.failingTaken_none (hz.failing.trans hfailing)]

theorem execZeroiseComplete_keys (hargs : c.args = [2]) :
    exec (.zeroiseComplete dt) s = .next ((s.pass dt).eraseData.eraseKeys.zeroised 2 c.cmdId) := by
  have hexec := execZeroiseComplete_due hlong hop
  have hscope : c.args.getD 0 1 = 2 := by rw [hargs]; rfl
  obtain ⟨herased, -, hport, -⟩ := (s.pass dt).eraseData_effect
  have hz := herased.eraseKeys.zeroised (((s.pass dt).eraseData.eraseKeys_port.trans hport) ▸ hlong) (scope := 2) (by decide) c.cmdId
  rw [hexec, hscope, if_pos rfl, State.failingTaken_none (hz.failing.trans hfailing)]
end

end Sys2Proof.Machine
end

section
/-! PROOFS. What the strongbox's commands leave (R527, R532), and O52. -/

set_option Elab.async false

namespace Sys2Proof.Machine

/-- The response of ATTEST, and what it leaves. -/
theorem State.reported_effect (s : State) (cmd : Nat) (r : List Byte) :
    ∃ t, (((s.takeCommand 0x110 cmd).reportCounted cmd).endLong stOk 0 r).transmit = t
      ∧ t.get SBX_STATUS.reports = (s.get SBX_STATUS.reports + 1) % 2 ^ 32 ∧ t.port.long = none
      ∧ t.lastResponse = some ⟨0x110, 0, 0, cmd, true, r⟩ ∧ s.sameBut t [.regs, .port]
      ∧ s.regsBut t [CTL_PORT_STATUS.long_cmd, SBX_STATUS.reports] := by
  obtain ⟨hcount, ⟨c, hlong, hop, hid⟩, hsame, hregs⟩ := (s.takeCommand 0x110 cmd).reportCounted_effect cmd
  rw [State.takeCommand_get] at hcount
  generalize (s.takeCommand 0x110 cmd).reportCounted cmd = u at hcount hlong hsame hregs ⊢
  obtain ⟨hresp, hnone, hend, hendRegs⟩ := State.endLong_effect hlong stOk 0 r
  generalize u.endLong stOk 0 r = e at hresp hnone hend hendRegs ⊢
  refine ⟨_, rfl, ?_, ?_, ?_, State.commanded 0x110 cmd (hsame.trans hend) (by simp), ?_⟩
  · rw [State.transmit_get, hendRegs _ (by decide) (by decide), hcount]
  · rw [State.transmit_port_long, hnone]
  · rw [State.transmit_lastResponse, hresp, hop, hid]
    rfl
  · exact ((State.regsBut_of_regs (State.takeCommand_regs ..) _).trans (hregs.trans (hendRegs.mono (by simp)))).of_regs
      (State.transmit_regs _)

/-- The state in which ZEROISE runs. -/
theorem State.zeroiseBegun_effect (s : State) (cmd n : Nat) :
    ∃ t, (((s.takeCommand 0x111 cmd).startLong 0x111 cmd 0 false [n] false).zeroising).transmit = t
      ∧ t.lastResponse = some ⟨0x111, 0, 0, cmd, false, []⟩ ∧ t.get SBX_STATUS.mode = 3 ∧ t.get HEAD_IMAGE_STATUS.state = 0
      ∧ t.longIs 0x111 = true ∧ s.sameBut t [.regs, .mem, .turn, .port, .img, .tile, .net, .serv, .rep] := by
  obtain ⟨hresp, hlong, hstart, -⟩ := (s.takeCommand 0x111 cmd).startLong_effect 0x111 cmd 0 false [n] false
  generalize (s.takeCommand 0x111 cmd).startLong 0x111 cmd 0 false [n] false = u at hresp hlong hstart ⊢
  obtain ⟨hmode, hstate, hsame⟩ := u.zeroising_effect
  have hport : u.zeroising.port = u.port := State.sameBut_iff.1 hsame .port (by decide)
  generalize u.zeroising = z at hmode hstate hsame hport ⊢
  refine ⟨_, rfl, ?_, ?_, ?_, ?_, State.commanded 0x111 cmd ((hstart.mono (by simp)).trans (hsame.mono (by simp [stopParts]))) (by simp)⟩
  · rw [State.transmit_lastResponse, State.lastResponse, hport, ← State.lastResponse, hresp]
    rfl
  · rw [State.transmit_get, hmode]
  · rw [State.transmit_get, hstate]
  · rw [State.longIs, State.transmit_port_long, hport, hlong]
    rfl

@[simp] theorem State.takeCommand_stagedKey (s : State) (op cmd : Nat) : (s.takeCommand op cmd).stagedKey = s.stagedKey := by
  rw [State.stagedKey, State.stagedKey, State.bytes, State.bytes, State.takeCommand_mem]

@[simp] theorem State.takeCommand_enrolResult (s : State) (op cmd n : Nat) :
    (s.takeCommand op cmd).enrolResult n = s.enrolResult n := by
  simp [State.enrolResult]

@[simp] theorem State.takeCommand_removeResult (s : State) (op cmd n : Nat) :
    (s.takeCommand op cmd).removeResult n = s.removeResult n := by
  rw [State.removeResult, State.removeResult, State.operatorKeys, State.operatorKeys, State.takeCommand_sbx]

/-- A change of the keys by command: its result, and the keys that follow from it. -/
theorem State.keysCommanded_effect (s : State) (cmd : Nat) {r : Nat} (hr : r < 16) (keys : Sparse (List Byte)) :
    ∃ t, (((s.takeCommand 2 cmd).keysSet r keys).respond 2 cmd stOk 0 true []).transmit = t
      ∧ t.lastResponse = some ⟨2, 0, 0, cmd, true, []⟩ ∧ t.get SBX_KEY_STATE.result = r ∧ (r = 0 → t.sbx.keys = keys)
      ∧ (r ≠ 0 → t.sbx = s.sbx) ∧ s.sameBut t [.regs, .port, .sbx] ∧ s.regsBut t keyFields := by
  obtain ⟨hresult, hkeys, hsbx, hsame, hregs⟩ := (s.takeCommand 2 cmd).keysSet_effect hr keys
  rw [State.takeCommand_sbx] at hsbx
  generalize (s.takeCommand 2 cmd).keysSet r keys = u at hresult hkeys hsbx hsame hregs ⊢
  refine ⟨_, rfl, by simp [stOk], by simpa using hresult, by simpa using hkeys, by simpa using hsbx,
    State.answered 2 cmd stOk 0 true [] (hsame.mono (by simp)) (by simp), ?_⟩
  exact ((State.regsBut_of_regs (State.takeCommand_regs ..) _).trans hregs).of_regs (by simp)
/-- Settles O52. -/
theorem strongboxCommands : Obligations.StrongboxCommands := by
  unfold Obligations.StrongboxCommands
  refine ⟨?attest, ?zeroise, ?data, ?keys, ?policy, ?debug, ?service, ?enrol, ?remove, ?fails, ?waits⟩
  case attest =>
    rintro dt cmd nonce s _ rfl hruns hn
    obtain ⟨r, hexec⟩ := execAttest_reports cmd hruns hn
    generalize s.pass dt = s' at hexec ⊢
    obtain ⟨_, rfl, hreports, hnone, hresp, hsame, hregs⟩ := s'.reported_effect cmd r
    exact ⟨_, hexec, hreports, hnone, by rw [hresp]; rfl, State.mem_of_sameBut hsame (by simp), hsame, hregs⟩
  case zeroise =>
    rintro dt cmd n s _ rfl hruns hn hshake -
    have hexec := execZeroise_starts cmd hruns hn hshake
    generalize s.pass dt = s' at hexec ⊢
    obtain ⟨_, rfl, heffect⟩ := s'.zeroiseBegun_effect cmd n
    exact ⟨_, hexec, heffect⟩
  case data =>
    rintro dt c s _ rfl hlong hop hargs hfailing hlink
    have hexec := execZeroiseComplete_data hlong hop hfailing hargs
    generalize s.pass dt = s' at hexec hlong hlink ⊢
    obtain ⟨herased, hkeys, hport, hlinked⟩ := s'.eraseData_effect
    generalize s'.eraseData = e at hexec herased hkeys hport hlinked
    have helong : e.port.long = some c := hport ▸ hlong
    obtain ⟨hmode, hnone, hevent, hdown, hsame, -⟩ := State.zeroised_effect helong (scope := 1) (by decide) c.cmdId
    obtain ⟨himage, hstaged, hmbx, hsalt, -, hmem, hvalid, hparts⟩ := herased.zeroised helong (scope := 1) (by decide) c.cmdId
    generalize e.zeroised 1 c.cmdId = z at *
    have hsbx : z.sbx = e.sbx := State.sameBut_iff.1 hsame .sbx (by decide)
    exact ⟨_, hexec, hmode, hvalid, himage, hstaged, hmbx, hsalt, hnone, hmem, hevent, by rw [hdown, hlinked, if_pos hlink],
      by rw [hsbx, hkeys], hparts⟩
  case keys =>
    rintro dt c s _ rfl hlong hop hargs hfailing
    have hexec := execZeroiseComplete_keys hlong hop hfailing hargs
    generalize s.pass dt = s' at hexec hlong ⊢
    obtain ⟨herased, -, hport, -⟩ := s'.eraseData_effect
    generalize s'.eraseData = e at hexec herased hport
    obtain ⟨hservice, hgrant, hdebug, hkeys, -, -⟩ := e.eraseKeys_effect
    have helong : e.eraseKeys.port.long = some c := by rw [e.eraseKeys_port, hport, hlong]
    have herasedKeys := herased.eraseKeys
    generalize e.eraseKeys = k at hexec hservice hgrant hdebug hkeys helong herasedKeys
    obtain ⟨hmode, hnone, hevent, -, hsame, hregs⟩ := State.zeroised_effect helong (scope := 2) (by decide) c.cmdId
    obtain ⟨himage, hstaged, hmbx, hsalt, -, hmem, hvalid, hparts⟩ := herasedKeys.zeroised helong (scope := 2) (by decide) c.cmdId
    generalize k.zeroised 2 c.cmdId = z at *
    have hsbx : z.sbx = k.sbx := State.sameBut_iff.1 hsame .sbx (by decide)
    exact ⟨_, hexec, hmode, hvalid, himage, hstaged, hmbx, hsalt, hnone, hmem, hevent, by rw [hsbx, hkeys],
      (hregs.flag (by decide) (by decide)).trans hservice, (hregs.flag (by decide) (by decide)).trans hgrant,
      (hregs.flag (by decide) (by decide)).trans hdebug, hparts⟩
  case policy =>
    rintro dt cmd v s _ rfl hruns hrole hservice hdebug hgrant hstate hd
    have hexec := execSbxPolicyWrite_service hruns hrole hservice hdebug hgrant hstate hd (cmd := cmd)
    generalize s.pass dt = s' at hexec hgrant ⊢
    obtain ⟨hflag, hraw, hactive, hallow, -⟩ := (s'.takeCommand 2 cmd).setDebug_flags true (v.testBit 3)
    obtain ⟨hresp, hflags, hsame, hregs⟩ := State.written_effect cmd ((s'.takeCommand 2 cmd).setDebug_sameBut true (v.testBit 3))
      ((s'.takeCommand 2 cmd).setDebug_regsBut true (v.testBit 3))
    refine ⟨_, hexec, hresp, (hflags _).trans hflag, (hflags _).trans hactive, (hflags _).trans hraw, ?_,
      State.mem_of_sameBut hsame (by simp), hsame, hregs⟩
    rw [hflags, hallow, State.takeCommand_flag, hgrant]
  case debug =>
    rintro dt cmd s _ rfl hruns hrole hgrant himage
    have hexec := execAllowDebugClear_granted hruns hrole hgrant himage (cmd := cmd)
    generalize s.pass dt = s' at hexec ⊢
    obtain ⟨hservice, hdebug, hgranted, hgrants⟩ := (s'.takeCommand 2 cmd).granted_effect (s'.flag SBX_POLICY.allow_service) false
    generalize (s'.takeCommand 2 cmd).granted (s'.flag SBX_POLICY.allow_service) false = g at hexec hservice hdebug hgranted hgrants
    obtain ⟨hflag, hraw, hactive, hallow, hserve⟩ := g.setDebug_flags false false
    obtain ⟨hresp, hflags, hsame, hregs⟩ := State.written_effect cmd (hgranted.trans (g.setDebug_sameBut false false))
      ((hgrants.mono (by simp [debugFields])).trans (g.setDebug_regsBut false false))
    exact ⟨_, hexec, hresp, (hflags _).trans (hallow.trans hdebug), (hflags _).trans hflag, (hflags _).trans hraw,
      (hflags _).trans hactive, (hflags _).trans (hserve.trans hservice), State.mem_of_sameBut hsame (by simp), hsame, hregs⟩
  case service =>
    rintro dt cmd s _ rfl hruns hrole
    have hexec := execAllowServiceClear_operator hruns hrole (cmd := cmd)
    generalize s.pass dt = s' at hexec ⊢
    obtain ⟨hservice, hdebug, hgranted, hgrants⟩ := (s'.takeCommand 2 cmd).granted_effect false (s'.flag SBX_POLICY.allow_debug)
    obtain ⟨hresp, hflags, hsame, hregs⟩ := State.written_effect cmd hgranted hgrants
    refine ⟨_, hexec, hresp, (hflags _).trans hservice, (hflags _).trans hdebug, ?_, State.mem_of_sameBut hsame (by simp), hsame,
      hregs.mono (by simp)⟩
    rw [hflags, hgrants.flag (by decide) (by decide), State.takeCommand_flag]
  case enrol =>
    rintro dt cmd n s _ rfl hruns hrole hn
    have hexec := execKeyEnrol_operator hruns hrole hn (cmd := cmd)
    generalize s.pass dt = s' at hexec ⊢
    rw [State.enrolKey_eq, State.takeCommand_enrolResult, State.takeCommand_sbx, State.takeCommand_stagedKey] at hexec
    obtain ⟨_, rfl, hresp, hresult, hkeys, hsbx, hsame, hregs⟩ :=
      s'.keysCommanded_effect cmd (s'.enrolResult_lt n) (Sparse.put s'.sbx.keys n s'.stagedKey)
    refine ⟨_, hexec, hresp, hresult, fun h0 => ?_, fun h0 => hsbx (hresult ▸ h0), State.mem_of_sameBut hsame (by simp), hsame, hregs⟩
    rw [hkeys (hresult ▸ h0), Sparse.find_put_same]
  case remove =>
    rintro dt cmd n s _ rfl hruns hrole hn hsorted
    have hexec := execKeyRemove_operator hruns hrole hn (cmd := cmd)
    generalize s.pass dt = s' at hexec hsorted ⊢
    rw [State.removeKey_eq, State.takeCommand_removeResult, State.takeCommand_sbx] at hexec
    obtain ⟨_, rfl, hresp, hresult, hkeys, hsbx, hsame, hregs⟩ :=
      s'.keysCommanded_effect cmd (s'.removeResult_lt n) (Sparse.drop s'.sbx.keys n)
    refine ⟨_, hexec, hresp, hresult, fun h0 => ?_, fun h0 => hsbx (hresult ▸ h0), State.mem_of_sameBut hsame (by simp), hsame,
      hregs.mono (by simp [keyFields])⟩
    rw [hkeys (hresult ▸ h0), Sparse.find_drop_same n hsorted]
  case fails =>
    rintro dt code s _ rfl hcode hmode hshake
    have hexec := execSbxAlarm_fails hcode hmode
    generalize s.pass dt = s' at hexec ⊢
    have hlink := s'.cleared_link
    have hcleared := s'.cleared_sameBut
    have hfields := s'.cleared_regsBut
    generalize s'.cleared = c at hexec hlink hcleared hfields
    obtain ⟨hfailed, halarm, hevent, hsame, hregs⟩ := c.boxFailed_effect code (by omega)
    have hparts := (hcleared.mono (by simp)).trans (hsame.mono (by simp) : c.sameBut _ [.regs, .ev, .port])
    exact ⟨_, hexec, hfailed, halarm, hevent, (hregs _ (by decide) (by decide)).trans hlink, State.mem_of_sameBut hparts (by simp), hparts,
      (hfields.mono (by simp [helloFields])).trans (hregs.mono (by simp))⟩
  case waits =>
    rintro dt code s _ rfl hcode hmode
    have hexec := execSbxAlarm_waits hcode hmode
    generalize s.pass dt = s' at hexec ⊢
    exact ⟨_, hexec, rfl, rfl, rfl, rfl, rfl, by simp [State.sameBut]⟩

end Sys2Proof.Machine
end

section
/-! PROOFS. Frames of the control port (R381 to R389, R516, R520): what `Obligations.PortFrames` says of them, up to the credit of R387 that
its first clause does not name and on which it turns. -/

set_option Elab.async false

namespace Sys2Proof.Machine

/-! ### Channels (R387) -/

theorem State.chan_updChan (s : State) (c i : Nat) (f : Chan → Chan) :
    (s.updChan c f).chan i = if i = c ∧ c < s.port.chans.length then f (s.chan c) else s.chan i := by
  simp only [State.updChan, State.chan, List.getD_eq_getElem?_getD, List.getElem?_set]
  by_cases hi : i = c
  · subst hi
    by_cases hlen : i < s.port.chans.length <;> simp [hlen]
  · simp [hi, Ne.symm hi]

/-- What sending leaves of a channel: the number expected of the host, the first that the host does not accept yet, and where the
counter stood when the phase began. -/
def Chan.marks (x : Chan) : Nat × Nat × Nat := (x.rxNext, x.txEnd, x.txMark)

/-- Replacing a channel by one of the same marks keeps the marks of every channel. -/
theorem State.marks_of_set {s t : State} {c : Nat} {x : Chan} (h : t.port.chans = s.port.chans.set c x)
    (hx : x.marks = (s.chan c).marks) (i : Nat) : (t.chan i).marks = (s.chan i).marks := by
  have hset : t.chan i = (s.updChan c fun _ => x).chan i := congrArg (fun l : List Chan => l.getD i {}) h
  rw [hset, State.chan_updChan]
  split
  · next hi => rw [hx, hi.1]
  · rfl

theorem State.sendFrames_marks (s : State) (n i : Nat) : ((State.sendFrames n s).chan i).marks = (s.chan i).marks := by
  induction n generalizing s with
  | zero => rfl
  | succ n ih =>
    unfold State.sendFrames
    split
    · rfl
    · exact (ih _).trans (State.marks_of_set rfl (by rfl) i)

theorem State.tellHost_marks (s : State) (c i : Nat) : ((s.tellHost c).chan i).marks = (s.chan i).marks := by
  unfold State.tellHost
  dsimp only
  split
  · exact State.marks_of_set rfl (by rfl) i
  · rfl

theorem State.tellHosts_marks (s : State) (l : List Nat) (i : Nat) :
    ((l.foldl (fun t c => t.tellHost c) s).chan i).marks = (s.chan i).marks := by
  induction l generalizing s with
  | nil => rfl
  | cons c l ih => exact (ih _).trans (s.tellHost_marks c i)

theorem State.transmit_marks (s : State) (i : Nat) : (s.transmit.chan i).marks = (s.chan i).marks := by
  unfold State.transmit
  split
  · exact (State.tellHosts_marks _ _ _).trans (s.sendFrames_marks _ _)
  · rfl

theorem State.transmit_rxNext (s : State) (i : Nat) : (s.transmit.chan i).rxNext = (s.chan i).rxNext :=
  congrArg Prod.fst (s.transmit_marks i)

theorem State.transmit_txEnd (s : State) (i : Nat) : (s.transmit.chan i).txEnd = (s.chan i).txEnd :=
  congrArg (fun m : Nat × Nat × Nat => m.2.1) (s.transmit_marks i)

theorem State.transmit_txMark (s : State) (i : Nat) : (s.transmit.chan i).txMark = (s.chan i).txMark :=
  congrArg (fun m : Nat × Nat × Nat => m.2.2) (s.transmit_marks i)

/-! ### The lanes' code (R381) -/

/-- The counts that the lanes' code keeps. -/
def codeFields : List Fld := [CTL_PORT_ERRORS.fec_corrected, CTL_PORT_ERRORS.fec_uncorrectable]

section
variable (s : State) (fixed bad : Nat)

/-- In `t`, what the lanes' code met since the frame before is counted on top of what `s` counts. -/
structure State.Coded (s t : State) (fixed bad : Nat) : Prop where
  corrected : t.get CTL_PORT_ERRORS.fec_corrected =
    min (2 ^ CTL_PORT_ERRORS.fec_corrected.w - 1) (s.get CTL_PORT_ERRORS.fec_corrected + fixed)
  uncorrectable : t.get CTL_PORT_ERRORS.fec_uncorrectable =
    min (2 ^ CTL_PORT_ERRORS.fec_uncorrectable.w - 1) (s.get CTL_PORT_ERRORS.fec_uncorrectable + bad)

theorem State.countCodes_coded : s.Coded (s.countCodes fixed bad) fixed bad where
  corrected := (State.get_inc_apart _ _ (by decide) (by decide)).trans (State.get_inc_same _ _ _ (by decide))
  uncorrectable := (State.get_inc_same _ _ _ (by decide)).trans (by rw [State.get_inc_apart _ _ (by decide) (by decide)])

theorem State.countCodes_sameBut : s.sameBut (s.countCodes fixed bad) [.regs] := by simp [State.sameBut, State.countCodes, State.inc]

theorem State.countCodes_regsBut : s.regsBut (s.countCodes fixed bad) codeFields :=
  ((State.regsBut.refl s _).inc _ (by simp [codeFields])).inc _ (by simp [codeFields])

variable {s fixed bad}

/-- A step that keeps both counts keeps what they say. -/
theorem State.Coded.regsBut {t u : State} {l : List Fld} (h : s.Coded t fixed bad) (k : t.regsBut u l)
    (hl : ∀ f ∈ codeFields, ∀ g ∈ l, g.apart f) : s.Coded u fixed bad where
  corrected := (k _ (by decide) (hl _ (by simp [codeFields]))).trans h.corrected
  uncorrectable := (k _ (by decide) (hl _ (by simp [codeFields]))).trans h.uncorrectable
end

/-! ### Acknowledgements (R387, R391) -/

section
variable (s : State)

theorem State.acknowledged_chan (c n i : Nat) : (s.acknowledged c n).chan i = s.chan i := by
  unfold State.acknowledged
  split <;> rfl

theorem State.acknowledged_length (c n : Nat) : (s.acknowledged c n).port.chans.length = s.port.chans.length := by
  unfold State.acknowledged
  split <;> rfl

theorem State.acknowledged_regs (c n : Nat) : (s.acknowledged c n).regs = s.regs := by
  unfold State.acknowledged
  split <;> rfl

theorem State.acknowledged_sameBut (c n : Nat) : s.sameBut (s.acknowledged c n) [.ev, .port, .serv] := by
  unfold State.acknowledged
  split <;> simp [State.sameBut]

/-- Records of the host's own channels wait in the port. -/
theorem State.acknowledged_sameBut_port {c : Nat} (hc : c = 0 ∨ c = 1 ∨ c = 5) (n : Nat) : s.sameBut (s.acknowledged c n) [.port] := by
  obtain rfl | rfl | rfl := hc <;> simp [State.sameBut, State.acknowledged]

/-- Channel c with the credit of a frame. -/
def State.credited (c credit : Nat) : State := s.updChan c fun x => { x with txEnd := mod32 (credit + 1) }

/-- The records that a frame acknowledges, if any, leave their queue once its credit is taken. -/
theorem State.applyAck_cases (c ack credit : Nat) : s.applyAck c ack credit = s.credited c credit ∨
    ∃ n, s.applyAck c ack credit =
      ((s.credited c credit).acknowledged c n).updChan c fun x => { x with unacked := x.unacked.drop n, ackTick := s.ticks } :=
  (ite_eq_or_eq _ _ _).symm.imp_right fun h => ⟨_, h⟩

/-- What the device has received and granted on a channel stands when a frame's acknowledgement and credit are taken. -/
theorem State.applyAck_chan {c : Nat} (hc : c < s.port.chans.length) (ack credit : Nat) :
    ((s.applyAck c ack credit).chan c).txEnd = mod32 (credit + 1) ∧ ((s.applyAck c ack credit).chan c).rxNext = (s.chan c).rxNext
    ∧ ((s.applyAck c ack credit).chan c).granted = (s.chan c).granted := by
  have hcredited : (s.credited c credit).chan c = { s.chan c with txEnd := mod32 (credit + 1) } := by
    rw [State.credited, State.chan_updChan, if_pos ⟨rfl, hc⟩]
  obtain h | ⟨n, h⟩ := s.applyAck_cases c ack credit
  · rw [h, hcredited]
    exact ⟨rfl, rfl, rfl⟩
  · have hlen : c < ((s.credited c credit).acknowledged c n).port.chans.length := by
      rw [State.acknowledged_length]
      exact hc.trans_eq List.length_set.symm
    rw [h, State.chan_updChan, if_pos ⟨rfl, hlen⟩, State.acknowledged_chan, hcredited]
    exact ⟨rfl, rfl, rfl⟩

theorem State.applyAck_length (c ack credit : Nat) : (s.applyAck c ack credit).port.chans.length = s.port.chans.length := by
  obtain h | ⟨n, h⟩ := s.applyAck_cases c ack credit <;> rw [h]
  · exact List.length_set
  · exact List.length_set.trans ((State.acknowledged_length _ _ _).trans List.length_set)

theorem State.applyAck_regs (c ack credit : Nat) : (s.applyAck c ack credit).regs = s.regs := by
  obtain h | ⟨n, h⟩ := s.applyAck_cases c ack credit <;> rw [h]
  · rfl
  · exact State.acknowledged_regs _ _ _

theorem State.updChan_sameBut (c : Nat) (f : Chan → Chan) : s.sameBut (s.updChan c f) [.port] := by simp [State.sameBut]

/-- An acknowledgement changes the parts that hold the records that leave, and the port. -/
theorem State.applyAck_sameBut {c : Nat} {l : List Part} (hack : ∀ (t : State) (n : Nat), t.sameBut (t.acknowledged c n) l)
    (hl : Part.port ∈ l) (ack credit : Nat) : s.sameBut (s.applyAck c ack credit) l := by
  have hport : [Part.port] ⊆ l := by simpa using hl
  have hcredited : s.sameBut (s.credited c credit) l := (s.updChan_sameBut _ _).mono hport
  obtain h | ⟨n, h⟩ := s.applyAck_cases c ack credit <;> rw [h]
  · exact hcredited
  · exact (hcredited.trans (hack _ _)).trans ((State.updChan_sameBut _ _ _).mono hport)
end

/-! ### Payloads (R390, R394, R409) -/

/-- From `s` to `t` only the port changes, and of its channels neither how many there are nor what each expects. -/
structure State.Buffers (s t : State) : Prop where
  port : ∃ p, t = { s with port := p }
  length : t.port.chans.length = s.port.chans.length
  expects : ∀ i, (t.chan i).rxNext = (s.chan i).rxNext

namespace State.Buffers
variable {s t u : State}

theorem refl (s : State) : s.Buffers s := ⟨⟨s.port, rfl⟩, rfl, fun _ => rfl⟩

theorem trans (h : s.Buffers t) (k : t.Buffers u) : s.Buffers u := by
  obtain ⟨p, rfl⟩ := h.port
  obtain ⟨q, rfl⟩ := k.port
  exact ⟨⟨q, rfl⟩, k.length.trans h.length, fun i => (k.expects i).trans (h.expects i)⟩

theorem updChan (s : State) (c : Nat) {f : Chan → Chan} (hf : ∀ x, (f x).rxNext = x.rxNext) : s.Buffers (s.updChan c f) where
  port := ⟨_, rfl⟩
  length := List.length_set
  expects i := by
    rw [State.chan_updChan]
    split
    · next h => rw [hf, h.1]
    · rfl

theorem boxRecords (s : State) (k : Nat) (b : List Byte) : s.Buffers (s.boxRecords k b).2 := by
  induction k generalizing s b with
  | zero => exact refl s
  | succ k ih =>
    refine trans ?_ (ih _ _)
    split
    · exact refl s
    · exact ⟨⟨_, rfl⟩, rfl, fun _ => rfl⟩

theorem accept (s : State) {f : Frame} (hc : f.chan ≠ 2) : s.Buffers (s.accept f) := by
  unfold State.accept
  dsimp only
  rw [if_neg hc]
  split
  · exact ⟨⟨_, rfl⟩, rfl, fun _ => rfl⟩
  split
  · exact ⟨⟨_, rfl⟩, rfl, fun _ => rfl⟩
  split
  · split
    · exact boxRecords s _ _
    · exact (boxRecords s _ _).trans (updChan _ _ fun _ => rfl)
  · exact updChan _ _ fun _ => rfl

theorem regs (h : s.Buffers t) : t.regs = s.regs := by
  obtain ⟨p, rfl⟩ := h.port
  rfl

theorem sameBut (h : s.Buffers t) : s.sameBut t [.port] := by
  obtain ⟨p, rfl⟩ := h.port
  simp [State.sameBut]
end State.Buffers

/-! ### Sealed frames (R385, R386) -/

/-- The counts that a sealed frame may change. -/
def sealedFields : List Fld := [CTL_PORT_ERRORS.auth_fail, CTL_PORT_ERRORS.fec_corrected, CTL_PORT_ERRORS.fec_uncorrectable]

/-- The state after the acknowledgement and the credit of a frame that opens under phase n. -/
def State.acked (s : State) (f : Frame) (n : Nat) : State :=
  ({ s with port := { s.port with rxPhase := max n s.port.rxPhase } } : State).applyAck f.chan f.ack f.credit

theorem State.countCodes_openFrame (s : State) (fixed bad : Nat) (f : Frame) : (s.countCodes fixed bad).openFrame f = s.openFrame f := rfl

section
variable {s : State} {f : Frame} (hlink : s.get CTL_PORT_STATUS.link = 2) (hgood : frameBad f = false)
include hlink hgood

theorem State.sealedIn_open (g : Frame → State → State) : s.sealedIn f g =
    (s.openFrame f).elim s.authFail fun x => (g { f with payload := x.2 } (s.acked f x.1)).transmit := by
  rw [State.sealedIn, if_neg (by omega), if_neg (by simp [hlink, hgood])]
  cases s.openFrame f <;> rfl

/-- A frame that no key opens is counted. -/
theorem State.unopened_effect (hopen : s.openFrame f = none) (fixed bad : Nat) (g : Frame → State → State) :
    ∃ t, (s.countCodes fixed bad).sealedIn f g = t ∧ t.port = s.port
      ∧ t.get CTL_PORT_ERRORS.auth_fail = min (2 ^ CTL_PORT_ERRORS.auth_fail.w - 1) (s.get CTL_PORT_ERRORS.auth_fail + 1)
      ∧ s.Coded t fixed bad ∧ s.sameBut t [.regs] ∧ s.regsBut t sealedFields := by
  have hcodes := s.countCodes_regsBut fixed bad
  have hcounted := s.countCodes_coded fixed bad
  have hsame := s.countCodes_sameBut fixed bad
  have hport : (s.countCodes fixed bad).port = s.port := rfl
  have hshut : (s.countCodes fixed bad).openFrame f = none := hopen
  generalize s.countCodes fixed bad = c at hcodes hcounted hsame hport hshut ⊢
  have hfail : c.regsBut c.authFail [CTL_PORT_ERRORS.auth_fail] := (State.regsBut.refl c _).inc 1 (by simp)
  refine ⟨c.authFail, ?_, hport, ?_, hcounted.regsBut hfail (by decide), hsame.set _ _ (by simp), ?_⟩
  · rw [State.sealedIn_open ((hcodes _ (by decide) (by decide)).trans hlink) hgood, hshut]
    rfl
  · exact (State.get_inc_same _ _ _ (by decide)).trans (by rw [hcodes _ (by decide) (by decide)])
  · exact (hcodes.mono (by simp [codeFields, sealedFields])).trans (hfail.mono (by simp [sealedFields]))

/-- A frame that a key opens is handed on, with its acknowledgement taken, by `g`, which leaves the registers alone. -/
theorem State.opens_effect {n : Nat} {b : List Byte} (hopen : s.openFrame f = some (n, b)) (fixed bad : Nat) {g : Frame → State → State}
    {l : List Part} (hack : ∀ (t : State) (n : Nat), t.sameBut (t.acknowledged f.chan n) l) (hl : Part.port ∈ l)
    (hg : ∀ t, (g { f with payload := b } t).regs = t.regs) (hgl : ∀ t : State, t.sameBut (g { f with payload := b } t) [.port]) :
    ∃ c : State, c.port = s.port ∧ (s.countCodes fixed bad).sealedIn f g = (g { f with payload := b } (c.acked f n)).transmit
      ∧ s.Coded (g { f with payload := b } (c.acked f n)).transmit fixed bad
      ∧ s.sameBut (g { f with payload := b } (c.acked f n)).transmit (.regs :: l)
      ∧ s.regsBut (g { f with payload := b } (c.acked f n)).transmit sealedFields := by
  have hport : [Part.port] ⊆ .regs :: l := by simp [hl]
  have hcodes := s.countCodes_regsBut fixed bad
  have hcounted := s.countCodes_coded fixed bad
  have hsame := s.countCodes_sameBut fixed bad
  have hcport : (s.countCodes fixed bad).port = s.port := rfl
  have hopens : (s.countCodes fixed bad).openFrame f = some (n, b) := hopen
  generalize s.countCodes fixed bad = c at hcodes hcounted hsame hcport hopens ⊢
  have hregs : (g { f with payload := b } (c.acked f n)).transmit.regs = c.regs :=
    (State.transmit_regs _).trans ((hg _).trans (State.applyAck_regs _ _ _ _))
  have hphase : c.sameBut ({ c with port := { c.port with rxPhase := max n c.port.rxPhase } } : State) [.port] := by simp [State.sameBut]
  have hacked : c.sameBut (c.acked f n) l := (hphase.mono (by simpa using hl)).trans (State.applyAck_sameBut _ hack hl _ _)
  refine ⟨c, hcport, ?_, hcounted.regsBut (State.regsBut_of_regs hregs []) (by simp), ?_, ?_⟩
  · rw [State.sealedIn_open ((hcodes _ (by decide) (by decide)).trans hlink) hgood, hopens]
    rfl
  · exact (((hsame.mono (by simp)).trans (hacked.mono (by simp))).trans ((hgl _).mono hport)).trans ((State.transmit_sameBut _).mono hport)
  · exact (hcodes.mono (by simp [codeFields, sealedFields])).of_regs hregs
end

theorem State.acked_length (s : State) (f : Frame) (n : Nat) : (s.acked f n).port.chans.length = s.port.chans.length :=
  State.applyAck_length ({ s with port := { s.port with rxPhase := max n s.port.rxPhase } } : State) _ _ _

theorem State.acked_chan {s : State} {f : Frame} (hc : f.chan < s.port.chans.length) (n : Nat) :
    ((s.acked f n).chan f.chan).txEnd = mod32 (f.credit + 1) ∧ ((s.acked f n).chan f.chan).rxNext = (s.chan f.chan).rxNext
    ∧ ((s.acked f n).chan f.chan).granted = (s.chan f.chan).granted :=
  State.applyAck_chan ({ s with port := { s.port with rxPhase := max n s.port.rxPhase } } : State) hc f.ack f.credit

/-! ### Data frames (R387) -/

/-- What a data frame that opens does to the state that has its acknowledgement. -/
def dataTaken (g : Frame) (t : State) : State :=
  if g.kind = 0 ∧ g.seq = (t.chan g.chan).rxNext ∧ t.inCredit g.chan g.seq then
    (t.accept g).updChan g.chan fun x => { x with rxNext := mod32 (x.rxNext + 1) }
  else t

section
variable {g : Frame}

theorem dataTaken_port (hc : g.chan ≠ 2) (t : State) : ∃ p, dataTaken g t = { t with port := p } := by
  unfold dataTaken
  split
  · obtain ⟨p, hp⟩ := (State.Buffers.accept t hc).port
    rw [hp]
    exact ⟨_, rfl⟩
  · exact ⟨t.port, rfl⟩

theorem dataTaken_regs (hc : g.chan ≠ 2) (t : State) : (dataTaken g t).regs = t.regs := by
  obtain ⟨p, hp⟩ := dataTaken_port hc t
  rw [hp]

theorem dataTaken_sameBut (hc : g.chan ≠ 2) (t : State) : t.sameBut (dataTaken g t) [.port] := by
  obtain ⟨p, hp⟩ := dataTaken_port hc t
  rw [hp]
  simp [State.sameBut]

/-- A data frame in sequence advances the number expected exactly when it keeps to the credit. -/
theorem dataTaken_rxNext {t : State} (hkind : g.kind = 0) (hc : g.chan ≠ 2) (hlen : g.chan < t.port.chans.length)
    (hseq : g.seq = (t.chan g.chan).rxNext) : ((dataTaken g t).chan g.chan).rxNext =
      if t.inCredit g.chan g.seq = true then mod32 ((t.chan g.chan).rxNext + 1) else (t.chan g.chan).rxNext := by
  have hbuffers := State.Buffers.accept t hc
  by_cases hcredit : t.inCredit g.chan g.seq = true
  · rw [dataTaken, if_pos ⟨hkind, hseq, hcredit⟩, if_pos hcredit, State.chan_updChan, if_pos ⟨rfl, hbuffers.length ▸ hlen⟩]
    exact congrArg (fun n => mod32 (n + 1)) (hbuffers.expects _)
  · rw [dataTaken, if_neg fun h => hcredit h.2.2, if_neg hcredit]
end

theorem State.inCredit_congr {s t : State} {c : Nat} (h : (t.chan c).granted = (s.chan c).granted) (n : Nat) :
    t.inCredit c n = s.inCredit c n := by
  rw [State.inCredit, State.inCredit, h]

/-- A data frame in sequence within the free buffer of an open session. -/
structure State.Expects (s : State) (f : Frame) : Prop where
  link : s.get CTL_PORT_STATUS.link = 2
  good : frameBad f = false
  kind : f.kind = 0
  chan : f.chan = 0 ∨ f.chan = 1 ∨ f.chan = 5
  chans : s.port.chans.length = 6
  seq : f.seq = (s.chan f.chan).rxNext
  room : (s.chan f.chan).rx.length < rxFrames f.chan

section
variable {dt : Nat} {f : Frame} {s : State}

theorem execDataFrame_sealed (hkind : f.kind = 0) (fixed bad : Nat) :
    exec (.dataFrame dt ⟨f, fixed, bad⟩) s = .next (((s.pass dt).countCodes fixed bad).sealedIn f dataTaken) :=
  congrArg Host.Outcome.next (if_neg (by simp [hkind]))

/-- A data frame in sequence that a key opens advances the number expected exactly when it keeps to the credit. -/
theorem State.Expects.opens (h : s.Expects f) (hopen : (s.openFrame f).isSome = true) (fixed bad : Nat) :
    ∃ t, (s.countCodes fixed bad).sealedIn f dataTaken = t
      ∧ (t.chan f.chan).rxNext =
        (if s.inCredit f.chan f.seq = true then mod32 ((s.chan f.chan).rxNext + 1) else (s.chan f.chan).rxNext)
      ∧ s.Coded t fixed bad ∧ s.sameBut t [.regs, .port] ∧ s.regsBut t sealedFields := by
  obtain ⟨⟨n, b⟩, hnb⟩ := Option.isSome_iff_exists.1 hopen
  have hc : f.chan ≠ 2 := by have := h.chan; omega
  obtain ⟨c, hport, hsealed, hcoded, hsame, hregs⟩ := State.opens_effect h.link h.good hnb fixed bad
    (fun t n => t.acknowledged_sameBut_port h.chan n) (by simp) (dataTaken_regs (g := { f with payload := b }) hc)
    (dataTaken_sameBut (g := { f with payload := b }) hc)
  have hchan : c.chan f.chan = s.chan f.chan := by rw [State.chan, State.chan, hport]
  have hlen : f.chan < c.port.chans.length := by
    have := h.chan
    rw [hport, h.chans]
    omega
  obtain ⟨-, hnext, hgranted⟩ := State.acked_chan hlen n
  rw [hchan] at hnext hgranted
  have hacked : f.chan < (c.acked f n).port.chans.length := hlen.trans_eq (c.acked_length f n).symm
  refine ⟨_, hsealed, ?_, hcoded, hsame, hregs⟩
  rw [State.transmit_rxNext, dataTaken_rxNext (g := { f with payload := b }) h.kind hc hacked (h.seq.trans hnext.symm), hnext,
    State.inCredit_congr hgranted]
end

/-! ### Link control frames (R387) -/

theorem State.control_opens {s : State} {f : Frame} (hlink : s.get CTL_PORT_STATUS.link = 2) (hgood : frameBad f = false)
    (hc : f.chan < s.port.chans.length) (hopen : (s.openFrame f).isSome = true) (fixed bad : Nat) :
    ∃ t, (s.countCodes fixed bad).sealedIn f (fun _ t => t) = t ∧ (t.chan f.chan).txEnd = mod32 (f.credit + 1)
      ∧ (t.chan f.chan).rxNext = (s.chan f.chan).rxNext ∧ s.Coded t fixed bad ∧ s.sameBut t [.regs, .ev, .port, .serv]
      ∧ s.regsBut t sealedFields := by
  obtain ⟨⟨n, b⟩, hnb⟩ := Option.isSome_iff_exists.1 hopen
  obtain ⟨c, hport, hsealed, hcoded, hsame, hregs⟩ := State.opens_effect (g := fun _ t => t) hlink hgood hnb fixed bad
    (fun t n => t.acknowledged_sameBut f.chan n) (by simp) (fun _ => rfl) (fun t => .refl t _)
  have hchan : c.chan f.chan = s.chan f.chan := by rw [State.chan, State.chan, hport]
  obtain ⟨hend, hnext, -⟩ := State.acked_chan (s := c) (f := f) (by rw [hport]; exact hc) n
  exact ⟨_, hsealed, (State.transmit_txEnd _ _).trans hend, (State.transmit_rxNext _ _).trans (hnext.trans (by rw [hchan])), hcoded,
    hsame, hregs⟩

theorem execLinkControlFrame_sealed {dt : Nat} {f : Frame} {s : State} (hkind : f.kind = 1) (fixed bad : Nat) :
    exec (.linkControlFrame dt ⟨f, fixed, bad⟩) s = .next (((s.pass dt).countCodes fixed bad).sealedIn f fun _ t => t) :=
  congrArg Host.Outcome.next (if_pos hkind)

/-! ### Handshake frames (R385, R516) -/

section
variable {dt : Nat} {f : Frame} {n : List Byte} {s : State} (hlink : 1 ≤ (s.pass dt).get CTL_PORT_STATUS.link) (hgood : frameBad f = false)
  (hkind : f.kind = 2) (hc : f.chan = 0) (htrailer : f.trailer = leBytes 4 (crc32c (frameHeader f ++ f.payload)))
  (hn : n.length = 32) (hpayload : f.payload = operatorHello n) (hmode : (s.pass dt).get SBX_STATUS.mode ≠ 2)
include hlink hgood hkind hc htrailer hn hpayload hmode

/-- A handshake frame that checks begins the handshake that its H1 carries. -/
theorem execDataFrame_hello (fixed bad : Nat) : exec (.dataFrame dt ⟨f, fixed, bad⟩) s =
    .next (((s.pass dt).countCodes fixed bad).cleared.helloTaken (operatorHello n)) := by
  have hcodes := (s.pass dt).countCodes_regsBut fixed bad
  have hlinked : 1 ≤ ((s.pass dt).countCodes fixed bad).get CTL_PORT_STATUS.link := by rwa [hcodes _ (by decide) (by decide)]
  have hsound : ((s.pass dt).countCodes fixed bad).get SBX_STATUS.mode ≠ 2 := by rwa [hcodes _ (by decide) (by decide)]
  have hshake : ((s.pass dt).countCodes fixed bad).shakeIn f = ((s.pass dt).countCodes fixed bad).helloIn f.payload :=
    (if_neg (by omega)).trans ((if_neg (by simp [hgood, hc, htrailer])).trans (if_pos (by rw [hpayload]; rfl)))
  refine congrArg Host.Outcome.next ((if_pos hkind).trans (hshake.trans ?_))
  rw [hpayload]
  exact (State.helloIn_operator hlinked hn).trans (if_neg (by rwa [State.cleared_mode]))
end

/-! ### The link goes down and comes back (R383, R389) -/

theorem State.endSession_chans (s : State) : s.endSession.port.chans = s.port.chans ∧ s.endSession.port.resp = s.port.resp := by
  unfold State.endSession
  split <;> exact ⟨rfl, rfl⟩

theorem State.endSession_role (s : State) : s.endSession.get CTL_PORT_STATUS.role =
    if s.get CTL_PORT_STATUS.link = 2 then 0 else s.get CTL_PORT_STATUS.role := by
  split
  · next h => exact (State.endSession_effect h).2.1
  · next h => rw [State.endSession, if_neg h]

/-- The link's state and the lanes that hold. -/
def State.linkShown (s : State) (link lanes : Nat) : State := (s.set CTL_PORT_STATUS.link link).set CTL_PORT_STATUS.lanes_locked lanes

section
variable (s : State) {link lanes : Nat} (hlink : link < 4) (hlanes : lanes < 16)

include hlink in
theorem State.linkShown_link : (s.linkShown link lanes).get CTL_PORT_STATUS.link = link :=
  (State.get_set_apart _ _ (by decide) (by decide)).trans ((State.get_set_same _ _ _ (by decide)).trans (Nat.mod_eq_of_lt hlink))

include hlanes in
theorem State.linkShown_lanes : (s.linkShown link lanes).get CTL_PORT_STATUS.lanes_locked = lanes :=
  (State.get_set_same _ _ _ (by decide)).trans (Nat.mod_eq_of_lt hlanes)

theorem State.linkShown_sameBut : s.sameBut (s.linkShown link lanes) [.regs] := by simp [State.sameBut, State.linkShown]

theorem State.linkShown_regsBut : s.regsBut (s.linkShown link lanes) [CTL_PORT_STATUS.lanes_locked, CTL_PORT_STATUS.link] :=
  ((State.regsBut.refl s _).set _ (by simp)).set _ (by simp)
end

/-! ### Sending again, and the key phase (R387, R520) -/

section
variable {dt : Nat} {s : State}

theorem execResendTimeout_due {c : Nat} (hlink : (s.pass dt).get CTL_PORT_STATUS.link = 2) (hunacked : ((s.pass dt).chan c).unacked ≠ [])
    (hdue : ((s.pass dt).chan c).ackTick + 8000 ≤ (s.pass dt).ticks) : exec (.resendTimeout dt c) s =
      .next ((s.pass dt).updChan c fun x => { x with ackTick := (s.pass dt).ticks }) :=
  congrArg Host.Outcome.next (if_pos ⟨hlink, by simpa using hunacked, hdue⟩)

theorem execControlLinkUp_down (hlink : (s.pass dt).get CTL_PORT_STATUS.link = 0) (hstep : 7 ≤ (s.pass dt).get HEAD_BOOT_STATUS.step) :
    exec (.controlLinkUp dt) s = .next ((s.pass dt).linkShown 1 15) :=
  congrArg Host.Outcome.next (if_pos ⟨hlink, hstep⟩)

/-- The next key phase of the device begins on every channel. -/
def State.phaseAdvanced (s : State) : State :=
  ({ s with port := { s.port with txPhase := s.port.txPhase + 1, controlMark := s.port.controls,
                                  chans := s.port.chans.map fun x => { x with txMark := x.txNext } } } : State).set
    CTL_PORT_STATUS.key_phase ((s.port.txPhase + 1) % 2)

theorem execKeyPhaseAdvance_far {x : Chan} {l : List Chan} (hlink : (s.pass dt).get CTL_PORT_STATUS.link = 2)
    (hchans : (s.pass dt).port.chans = x :: l) (hfar : 2147483648 ≤ dist32 x.txMark x.txNext)
    (hold : ((x :: l).all fun y => y.unacked.all fun f => f.keyPhase == (s.pass dt).port.txPhase % 2) = true) :
    exec (.keyPhaseAdvance dt) s = .next (s.pass dt).phaseAdvanced.transmit := by
  refine congrArg Host.Outcome.next (if_pos ⟨hlink, ?_, ?_⟩)
  · simp [hchans, hfar]
  · rw [hchans, ← hold]
    simp only [List.not_any_eq_all_not, bne, Bool.not_not]
end

/-- What the next key phase leaves, with what is sent under it. -/
theorem State.phaseAdvanced_effect {s : State} {x : Chan} {l : List Chan} (hchans : s.port.chans = x :: l) :
    ∃ t, s.phaseAdvanced.transmit = t ∧ t.port.txPhase = s.port.txPhase + 1
      ∧ t.get CTL_PORT_STATUS.key_phase = (s.port.txPhase + 1) % 2 ∧ t.port.controlMark = s.port.controls
      ∧ (t.chan 0).txMark = x.txNext ∧ t.port.resp = s.port.resp ∧ s.sameBut t [.regs, .port]
      ∧ s.regsBut t [CTL_PORT_STATUS.key_phase] := by
  have hmark : (s.phaseAdvanced.chan 0).txMark = x.txNext := by
    have hadvanced : s.phaseAdvanced.port.chans = { x with txMark := x.txNext } :: l.map fun x => { x with txMark := x.txNext } :=
      congrArg (List.map fun x : Chan => ({ x with txMark := x.txNext } : Chan)) hchans
    rw [State.chan, hadvanced]
    rfl
  have hsame : s.sameBut s.phaseAdvanced [.regs, .port] := by simp [State.sameBut, State.phaseAdvanced]
  have hregs : s.regsBut s.phaseAdvanced [CTL_PORT_STATUS.key_phase] := (State.regsBut_of_regs rfl _).set _ (by simp)
  have hphase : s.phaseAdvanced.get CTL_PORT_STATUS.key_phase = (s.port.txPhase + 1) % 2 :=
    (State.get_set_same _ _ _ (by decide)).trans (Nat.mod_mod _ _)
  have hport : s.phaseAdvanced.port.txPhase = s.port.txPhase + 1 ∧ s.phaseAdvanced.port.controlMark = s.port.controls
      ∧ s.phaseAdvanced.port.resp = s.port.resp := ⟨rfl, rfl, rfl⟩
  generalize s.phaseAdvanced = a at hmark hsame hregs hphase hport ⊢
  obtain ⟨hnumber, hcontrols, hresp⟩ := hport
  have hsent : a.transmit.port.txPhase = a.port.txPhase ∧ a.transmit.port.controlMark = a.port.controlMark := by
    obtain ⟨_, _, _, h⟩ := a.transmit_same
    rw [h]
    exact ⟨rfl, rfl⟩
  exact ⟨_, rfl, hsent.1.trans hnumber, (State.transmit_get _ _).trans hphase, hsent.2.trans hcontrols,
    (State.transmit_txMark _ _).trans hmark, (State.transmit_port_resp _).trans hresp,
    hsame.trans ((State.transmit_sameBut _).mono (by simp)), hregs.of_regs (State.transmit_regs _)⟩

/-! ### What the statement turns on (R386, R387) -/

theorem mod32_succ_ne (n : Nat) : n ≠ mod32 (n + 1) := by
  unfold mod32
  omega

/-- What `Obligations.PortFrames` asks of the keys: they open no frame in sequence that does not keep to the credit. -/
def OpensWithinCredit : Prop := ∀ (dt : Nat) (f : Frame) (s : State), (s.pass dt).Expects f →
  ((s.pass dt).openFrame f).isSome = true → (s.pass dt).inCredit f.chan f.seq = true

/-- A frame that a key opens beyond the credit stays unread (R387), and the statement says that it is taken. -/
theorem opensWithinCredit_of_portFrames (hports : Obligations.PortFrames) : OpensWithinCredit := by
  obtain ⟨hdata, -⟩ := hports
  intro dt f s h hopen
  obtain ⟨_, hexec, hnext, -⟩ := hdata dt f 0 0 s _ rfl h.link h.good h.kind h.chan h.chans h.seq h.room
  obtain ⟨t, ht, hkept, -⟩ := h.opens hopen 0 0
  obtain rfl : t = _ :=
    Host.Outcome.next.inj ((congrArg Host.Outcome.next ht.symm).trans ((execDataFrame_sealed h.kind 0 0).symm.trans hexec))
  by_contra hcredit
  rw [if_neg hcredit, hnext hopen] at hkept
  exact mod32_succ_ne _ hkept.symm

/-- Every clause holds of the frames that keep to the credit. -/
theorem portFrames_of_opensWithinCredit (hwithin : OpensWithinCredit) : Obligations.PortFrames := by
  unfold Obligations.PortFrames
  refine ⟨?data, ?control, ?hello, ?resend, ?down, ?up, ?phase⟩
  case data =>
    rintro dt f fixed bad s _ rfl hlink hgood hkind hc hchans hseq hroom
    have h : (s.pass dt).Expects f := ⟨hlink, hgood, hkind, hc, hchans, hseq, hroom⟩
    have hexec := execDataFrame_sealed (dt := dt) (s := s) hkind fixed bad
    have hcredit := hwithin dt f s h
    generalize s.pass dt = s' at hexec h hcredit hlink ⊢
    cases hopen : (s'.openFrame f).isSome with
    | true =>
      obtain ⟨t, rfl, hnext, ⟨hcorrected, huncorrectable⟩, hsame, hregs⟩ := h.opens hopen fixed bad
      exact ⟨_, hexec, fun _ => hnext.trans (if_pos (hcredit hopen)), fun hno => absurd hno (by decide), hcorrected, huncorrectable,
        State.mem_of_sameBut hsame (by simp), hsame, hregs⟩
    | false =>
      obtain ⟨t, rfl, hport, hfail, ⟨hcorrected, huncorrectable⟩, hsame, hregs⟩ :=
        State.unopened_effect hlink hgood (by simpa using hopen) fixed bad dataTaken
      exact ⟨_, hexec, fun hyes => absurd hyes (by decide), fun _ => ⟨hport, hfail⟩, hcorrected, huncorrectable,
        State.mem_of_sameBut hsame (by simp), hsame.mono (by simp), hregs⟩
  case control =>
    rintro dt f fixed bad s _ rfl hlink hgood hkind hc hchans
    have hexec := execLinkControlFrame_sealed (dt := dt) (s := s) hkind fixed bad
    generalize s.pass dt = s' at hexec hlink hchans ⊢
    cases hopen : (s'.openFrame f).isSome with
    | true =>
      obtain ⟨t, rfl, hend, hnext, ⟨hcorrected, huncorrectable⟩, hsame, hregs⟩ :=
        State.control_opens hlink hgood (by omega) hopen fixed bad
      exact ⟨_, hexec, fun _ => ⟨hend, hnext⟩, fun hno => absurd hno (by decide), hcorrected, huncorrectable,
        State.mem_of_sameBut hsame (by simp), hsame, hregs⟩
    | false =>
      obtain ⟨t, rfl, hport, hfail, ⟨hcorrected, huncorrectable⟩, hsame, hregs⟩ :=
        State.unopened_effect hlink hgood (by simpa using hopen) fixed bad fun _ t => t
      exact ⟨_, hexec, fun hyes => absurd hyes (by decide), fun _ => ⟨hport, hfail⟩, hcorrected, huncorrectable,
        State.mem_of_sameBut hsame (by simp), hsame.mono (by simp), hregs⟩
  case hello =>
    rintro dt f fixed bad n s _ rfl hlink hgood hkind hc htrailer hn hpayload hmode
    have hexec := execDataFrame_hello hlink hgood hkind hc htrailer hn hpayload hmode fixed bad
    generalize s.pass dt = s' at hexec ⊢
    have hcoded := s'.countCodes_coded fixed bad
    have hcodes := s'.countCodes_regsBut fixed bad
    have hcounted := s'.countCodes_sameBut fixed bad
    generalize s'.countCodes fixed bad = c at hexec hcoded hcodes hcounted
    obtain ⟨hcorrected, huncorrectable⟩ := hcoded.regsBut c.cleared_regsBut (by decide)
    have hsame := (hcounted.mono (by simp)).trans c.cleared_sameBut
    refine ⟨_, hexec, ?_, ?_, hcorrected, huncorrectable, (State.mem_of_sameBut hsame (by simp) :), ?_, ?_⟩
    · rw [hpayload]
      exact congrArg (fun a => some (operatorHello n, 1, 0, a)) (State.sameBut_iff.1 hsame .ticks (by decide))
    · exact congrArg (fun b : SbxB => b.kems + 1) (State.sameBut_iff.1 hsame .sbx (by decide))
    · exact (hsame.mono (by simp)).trans (by simp [State.sameBut, State.helloTaken])
    · exact ((hcodes.mono (by simp [codeFields])).trans (c.cleared_regsBut.mono (by simp [helloFields]))).of_regs rfl
  case resend =>
    rintro dt c s _ rfl hlink hc hchans hunacked hdue
    have hexec := execResendTimeout_due hlink hunacked hdue
    generalize s.pass dt = s' at hexec hchans ⊢
    have hchan : (s'.updChan c fun x => { x with ackTick := s'.ticks }).chan c = { s'.chan c with ackTick := s'.ticks } := by
      rw [State.chan_updChan, if_pos ⟨rfl, by omega⟩]
    refine ⟨_, hexec, ?_, ?_, ?_, rfl, rfl, s'.updChan_sameBut _ _⟩ <;> rw [hchan]
  case down =>
    rintro dt l s _ rfl hl
    have hexec : exec (.controlLinkDown dt l) s = .next ((s.pass dt).endSession.linkShown 0 l) := rfl
    generalize s.pass dt = s' at hexec ⊢
    obtain ⟨hchans, hresp⟩ := s'.endSession_chans
    have hrole := s'.endSession_role
    have hended := s'.endSession_sameBut
    have hfields := s'.endSession_regsBut
    generalize s'.endSession = e at hexec hchans hresp hrole hended hfields
    have hsame := hended.trans (e.linkShown_sameBut.mono (by simp) : e.sameBut (e.linkShown 0 l) _)
    exact ⟨_, hexec, e.linkShown_link (by decide), e.linkShown_lanes hl,
      (e.linkShown_regsBut _ (by decide) (by decide)).trans hrole, hchans, hresp, State.mem_of_sameBut hsame (by simp), hsame,
      (hfields.mono (by simp)).trans (e.linkShown_regsBut.mono (by simp))⟩
  case up =>
    rintro dt s _ rfl hlink hstep
    have hexec := execControlLinkUp_down hlink hstep
    generalize s.pass dt = s' at hexec ⊢
    exact ⟨_, hexec, s'.linkShown_link (by decide), s'.linkShown_lanes (by decide), rfl, rfl, s'.linkShown_sameBut, s'.linkShown_regsBut⟩
  case phase =>
    rintro dt x l s _ rfl hlink hchans hfar hold
    have hexec := execKeyPhaseAdvance_far hlink hchans hfar hold
    generalize s.pass dt = s' at hexec hchans ⊢
    obtain ⟨_, rfl, hnumber, hphase, hcontrols, hmark, hresp, hsame, hregs⟩ := State.phaseAdvanced_effect hchans
    exact ⟨_, hexec, hnumber, hphase, hcontrols, hmark, hresp, State.mem_of_sameBut hsame (by simp), hsame, hregs⟩

/-- The statement turns on the cipher, which the model leaves uninterpreted (log entry 5). -/
theorem portFrames_iff_opensWithinCredit : Obligations.PortFrames ↔ OpensWithinCredit :=
  ⟨opensWithinCredit_of_portFrames, portFrames_of_opensWithinCredit⟩

/-- A session whose phase allows no further link control frame (R388): the device cannot tell that its buffers are free. -/
def State.untold : State :=
  { State.reset.set CTL_PORT_STATUS.link 2 with port := { controls := 4294967295 } }

/-- The host's first data frame of one byte on channel 5. -/
def firstFrame : Frame := ⟨5, 1, 0, 0, 0, 0, 1, 0, 0, 0, [1], List.replicate 16 0⟩

theorem State.untold_expects : (State.untold.pass 0).Expects firstFrame := by
  constructor <;> decide +kernel

theorem State.untold_credit : (State.untold.pass 0).inCredit firstFrame.chan firstFrame.seq = false := by decide +kernel

/-- With a cipher that opens the first frame of that session, the statement fails. -/
theorem not_portFrames_of_openFrame (hopen : ((State.untold.pass 0).openFrame firstFrame).isSome = true) : ¬ Obligations.PortFrames :=
  fun h => absurd (opensWithinCredit_of_portFrames h 0 firstFrame State.untold State.untold_expects hopen) (by rw [State.untold_credit]; decide)

/-- With a cipher that opens nothing, it holds. -/
theorem portFrames_of_gcmOpen_none (hnone : ∀ key iv header payload tag, Config.gcmOpen key iv header payload tag = none) :
    Obligations.PortFrames :=
  portFrames_of_opensWithinCredit fun dt f s _ hopen => by simp [State.openFrame, hnone] at hopen
end Sys2Proof.Machine
end
